-- ==== Sys2Proof/Word.lean ====
section
/-! DEFINITION. The words of the machine: a 32-bit register word (R14), a byte, a 64-byte line, and the sorted
association list in which sparse storage is held. -/

namespace Sys2Proof

/-- A register word: every register is 32 bits wide (R14). -/
abbrev Word := BitVec 32

/-- One byte. -/
abbrev Byte := BitVec 8

/-- The data of one 64-byte line; byte 0 is bits 7 to 0. -/
abbrev Line := BitVec 512

/-- Sparse storage by key: pairs in strictly rising key order. What an unlisted key reads as belongs to the reader. -/
abbrev Tbl (α : Type) := List (Nat × α)

/-- Addressed bytes (a buffer, a label area, the flash array): pairs in strictly rising address order. -/
abbrev Memory := List Host.Cell

end Sys2Proof
end

