-- ==== Sys2Proof/Syntax.lean ====
section
/-! DEFINITION. The commands: one constructor for each row of spec/opcode_table.json. The operands are what comes from
outside the block (who sends, an address, a value, a payload) or from the physics beneath it (how a sense decoded, whether
a program verified, what a sensor read). -/

namespace Sys2Proof

/-- What an access to on-die memory or Pond DRAM meets (R205, R271, R408, R412): nothing; a corrected word; a word
uncorrectable where the line's data lies, or in both of its copies; the tag copy of array A, that of array B or both
uncorrectable (R175); one or both copies of the map entry uncorrectable (R271); a valid-bit copy that disagrees (R412). -/
inductive Upset where
  | none
  | ce
  | ue
  | ueBoth
  | tagUe
  | tagUeB
  | tagBoth
  | mapUe
  | mapBoth
  | vote
deriving DecidableEq, Repr

/-- What a decoder finds in a sensed sector (R217): a codeword, with the ones among the 5,120 raw bits, the bits corrected,
the iterations taken and how its line authenticates (R328): 0 as stored, 1 a MAC mismatch, 2 a generation mismatch, 3 eight
mismatches in the open pipes, 4 a node MAC mismatch, 5 one pipe mismatch, 6 two; or no codeword after 20 iterations, with
the ones and the unsatisfied checks (R241). -/
inductive SenseRes where
  | codeword (ones bits iters auth : Nat)
  | noCodeword (ones checks : Nat)
deriving DecidableEq, Repr

/-- Work that still runs at a tick boundary (R30): its source unit, the die and class of R34 whose share it is charged to,
and the core cycles it takes of the new tick. -/
structure Overrun where
  unit : Nat
  die : Nat
  cls : Nat
  cycles : Nat
deriving DecidableEq, Repr

/-- One constructor for every step of the part that spec/opcode_table.json lists. `path` is the access or command path:
0 to 3 a head, 4 the Tuten port, 5 to 8 the management cores MGC0 to MGC3. -/
inductive Instr where
  /-- Every 6,000 core cycles a Ripple tick begins and the ordered boundary steps run. (R33) -/
  | tickBoundary (overruns : List Overrun) (silent : List Nat) (rngOk : Bool)
  /-- A follower decodes a RIPPLE_SYNC pulse as 0, 1 or marker, and locks after two pulses spaced 400 REFCLK cycles
  apart. (R45) -/
  | rippleSyncPulse (width gap : Nat)
  /-- A follower receives the 80-bit frame after a marker, checks it and computes the calendar difference D. (R46) -/
  | rippleSyncFrame
  /-- A follower adds a positive D to its calendar at the 81st tick after the marker. (R55) -/
  | calAdjust
  /-- A locked follower sees no pulse within 600 REFCLK cycles, or a mis-spaced pulse, and free-runs. (R50) -/
  | syncLost (ticks : Nat)
  /-- A master finds the line low 200 REFCLK cycles after its pulse, stops driving and listens. (R52) -/
  | syncConflict
  /-- After DEVID × 4 ticks of listening, the device resumes as master or runs as a follower. (R52) -/
  | conflictListenEnd
  /-- A write of TICK_CAL_SET_HI arms a calendar set. (R54) -/
  | tickCalSetCommit (path : Nat) (v : BitVec 32)
  /-- A write of TICK_BUDGET_HI commits the shares, or refuses them with BAD set. (R35) -/
  | tickBudgetCommit (path : Nat) (v : BitVec 32)
  /-- A write to a register that has no behaviour of its own updates its fields by access type. (R17) -/
  | registerWrite (path addr size : Nat) (v : BitVec 64)
  /-- A HI write commits both halves of a 64-bit quantity from the path's staged LO value. (R15) -/
  | registerHiWrite (path addr : Nat) (v : BitVec 32)
  /-- A read of a LO register captures the HI half for the same path. (R16) -/
  | registerLoRead (path addr : Nat)
  /-- A read of an RC field returns the value and clears it. (R17) -/
  | rcRegisterRead (path addr size : Nat)
  /-- The device takes a chunk of a Nebadex image into the staging buffer and validates it when LAST is set. (R81) -/
  | ndxStage (path : Nat) (input : List Byte)
  /-- The staged image is written to the target slot, re-verified and committed through NDXSEL. (R82) -/
  | ndxCommit (path : Nat) (input : List Byte) (wrong : List (Nat × Byte))
  /-- Staging ownership ends after 2 epochs with no command from the owner. (R79) -/
  | ndxStageOwnerTimeout
  /-- A port completes training as a CXL 3.1 link, possibly degraded or refused. (R95) -/
  | linkUp (head width rate : Nat) (cxl : Bool)
  /-- A port's link goes down, its queues are cleared and uncompleted requests are discarded. (R130) -/
  | linkDown (head : Nat)
  /-- PERST_N assertion resets one head, clearing its decoders, IDE keys, queues and counter bank. (R127) -/
  | perstAssert (head : Nat)
  /-- PERST_N deassertion lets a released port start training. (R457) -/
  | perstDeassert (head : Nat)
  /-- A hot reset acts on one head as a link loss does. (R127) -/
  | hotReset (head : Nat)
  /-- A CXL Reset of one head completes within 10 ms without clearing memory. (R128) -/
  | cxlReset (head : Nat)
  /-- A function-level reset clears CXL.io state, aborts the mailbox command and keeps queues and decoders. (R127) -/
  | functionLevelReset (head : Nat)
  /-- A decoder commit is accepted or refused with Error Not Committed. (R100) -/
  | hdmDecoderCommit (head dec base size skip ways gran : Nat)
  /-- A CXL.mem read is decoded, queued and served from a slice, Cove, eviction buffer or fill. (R101) -/
  | memRd (head hpa tag : Nat) (up : Upset) (last : Bool)
  /-- A full-line CXL.mem write is decoded, issued in order and installed DIRTY at its persist point. (R186) -/
  | memWr (head hpa tag : Nat) (data : Line) (poison : Bool) (up : Upset) (last : Bool)
  /-- A partial write merges into a cached line or into a merge buffer that awaits a fill. (R187) -/
  | memWrPtl (head hpa tag : Nat) (data : Line) (mask : BitVec 64) (poison : Bool) (up : Upset) (last : Bool)
  /-- A request waiting in the AMQ repeats way selection when a way changes state or an eviction-buffer entry frees.
  (R179) -/
  | allocationRetry (slice : Nat)
  /-- A partial write held for lack of a merge buffer proceeds once one frees. (R187) -/
  | mergeBufferFreed (slice : Nat)
  /-- A Global Persistent Flush completes both phases within 1 µs with no data movement. (R120) -/
  | gpfRequest (head phase : Nat)
  /-- CXL_IDE_KM over a secured SPDM session programs keys and establishes or refreshes the IDE stream. (R123) -/
  | ideKeyProgram (head session : Nat) (stream : Nat) (keys : List (BitVec 256))
  /-- An IDE integrity failure discards the aggregation interval and marks the head IDE-insecure. (R125) -/
  | ideFail (head flits : Nat)
  /-- An SPDM 1.3 request on a DOE instance or the Tuten port is answered, including session setup. (R452) -/
  | spdmMessage (path : Nat) (msg : List Byte)
  /-- A CDAT Table Access over DOE returns the DSMAS and DSLBIS structures. (R126) -/
  | cdatRead (head : Nat) (discovery : Bool) (entry : Nat)
  /-- Identify returns the device identity. (R732) -/
  | identify (path : Nat) (input : List Byte)
  /-- Request Abort Background Operation stops a running scan, or returns BUSY for any other background command.
  (R116) -/
  | requestAbortBgOp (path : Nat) (input : List Byte)
  /-- Get Event Records returns records from a head's event log. (R119) -/
  | getEventRecords (path : Nat) (input : List Byte)
  /-- Clear Event Records removes records from that head's logs only. (R119) -/
  | clearEventRecords (path : Nat) (input : List Byte)
  /-- Get Event Interrupt Policy returns the interrupt setting of each log. (R119) -/
  | getEventInterruptPolicy (path : Nat) (input : List Byte)
  /-- Set Event Interrupt Policy selects no interrupt or an MSI-X vector per log. (R119) -/
  | setEventInterruptPolicy (path : Nat) (input : List Byte)
  /-- Get FW Info reports the two firmware slots, the active slot and the staged slot. (R514) -/
  | getFwInfo (path : Nat) (input : List Byte)
  /-- Get Timestamp returns the calendar time in nanoseconds. (R133) -/
  | getTimestamp (path : Nat) (input : List Byte)
  /-- Set Timestamp applies a calendar set and answers after the boundary that judges it. (R133) -/
  | setTimestamp (path : Nat) (input : List Byte)
  /-- Get Supported Logs returns the Command Effects Log only. (R132) -/
  | getSupportedLogs (path : Nat) (input : List Byte)
  /-- Get Log returns the Command Effects Log. (R132) -/
  | getLog (path : Nat) (input : List Byte)
  /-- Identify Memory Device reports the head's persistent capacity from its regions. (R99) -/
  | identifyMemoryDevice (path : Nat) (input : List Byte)
  /-- Get Partition Info returns the head's partition information. (R103) -/
  | getPartitionInfo (path : Nat) (input : List Byte)
  /-- Set Partition Info returns UNSUPPORTED. (R103) -/
  | setPartitionInfo (path : Nat) (input : List Byte)
  /-- Get LSA reads the head's 256 KiB label storage area. (R132) -/
  | getLsa (path : Nat) (input : List Byte)
  /-- Set LSA writes the head's label storage area. (R132) -/
  | setLsa (path : Nat) (input : List Byte)
  /-- Get Health Info reports media status, life used, temperature, dirty shutdowns and corrected errors. (R134) -/
  | getHealthInfo (path : Nat) (input : List Byte)
  /-- Get Alert Configuration returns the alert settings. (R132) -/
  | getAlertConfiguration (path : Nat) (input : List Byte)
  /-- Set Alert Configuration sets the alert settings. (R132) -/
  | setAlertConfiguration (path : Nat) (input : List Byte)
  /-- Get Shutdown State returns the recorded shutdown state. (R132) -/
  | getShutdownState (path : Nat) (input : List Byte)
  /-- Set Shutdown State records the state without affecting the dirty shutdown count. (R122) -/
  | setShutdownState (path : Nat) (input : List Byte)
  /-- Get Poison List returns the entries whose DPA lies in the head's regions. (R112) -/
  | getPoisonList (path : Nat) (input : List Byte)
  /-- Inject Poison makes a line held poisoned in BLANK or PROVISIONED. (R113) -/
  | injectPoison (path : Nat) (input : List Byte)
  /-- Clear Poison writes the supplied 64 bytes as a full-line write without poison. (R113) -/
  | clearPoison (path : Nat) (input : List Byte)
  /-- Get Scan Media Capabilities returns an estimated duration in milliseconds. (R115) -/
  | getScanMediaCapabilities (path : Nat) (input : List Byte)
  /-- Scan Media starts a background scan of a DPA range within the Scrub share. (R114) -/
  | scanMedia (path : Nat) (input : List Byte)
  /-- A background scan completes or is aborted, and its results stay readable. (R114) -/
  | scanDone (bad : List Nat) (fail : Option (Nat × Nat))
  /-- Get Scan Media Results returns up to 256 DPA entries with a more-entries flag. (R116) -/
  | getScanMediaResults (path : Nat) (input : List Byte)
  /-- Get Dynamic Capacity Configuration reports one DC region for a head with DC regions. (R109) -/
  | getDcConfiguration (path : Nat) (input : List Byte)
  /-- Get Dynamic Capacity Extent List returns one static extent per DC REGION record. (R109) -/
  | getDcExtentList (path : Nat) (input : List Byte)
  /-- Add Dynamic Capacity Response returns UNSUPPORTED. (R109) -/
  | addDcResponse (path : Nat) (input : List Byte)
  /-- Release Dynamic Capacity returns UNSUPPORTED. (R109) -/
  | releaseDynamicCapacity (path : Nat) (input : List Byte)
  /-- An unimplemented standard opcode returns UNSUPPORTED. (R132) -/
  | unsupportedOpcode (path opcode : Nat) (input : List Byte)
  /-- A ring's start-up test ends, and the queue drain-switches to RING or stays in POOL. (R152) -/
  | ringStartupTestDone (queue bad : Nat)
  /-- A QF_BIST_CTL START write from the Tuten port moves a queue to POOL and runs the ring test once the ring is
  empty. (R153) -/
  | qfBistStart (path queue : Nat)
  /-- An on-demand or re-test ends and the queue returns to RING mode or the ring is retired. (R153) -/
  | qfBistDone (queue bad : Nat)
  /-- An uncorrectable ring word stops dequeue and starts the copy-switch to POOL mode. (R154) -/
  | qfRingUe (queue index word : Nat)
  /-- The copy-switch ends and the queue resumes in POOL mode. (R154) -/
  | qfCopySwitchDone (queue : Nat)
  /-- A pool reservation that waited is made, and credit return resumes for the queue. (R149) -/
  | qfPoolReserved (queue : Nat)
  /-- In PACED, a withheld credit is returned once 16 cycles have passed since the last return. (R156) -/
  | pacedCreditReturn (queue : Nat)
  /-- A verified fill is installed CLEAN, or poisoned, and the reads waiting in the AMQ are answered. (R183) -/
  | fillReturn (line : Nat) (up : Upset)
  /-- An eviction-buffer entry whose write-back reached the Shallows write buffer moves to Cove or is freed. (R190) -/
  | ebWritebackDone (slice line : Nat)
  /-- A slice's cleaner copies a dirty line to a free eviction-buffer entry and marks it CLEAN. (R193) -/
  | cleanerClean (slice : Nat)
  /-- A write of LC_CLEAN_CTL sets the cleaner levels, or is ignored when STOP is not below START. (R208) -/
  | lcCleanCtlWrite (path : Nat) (v : BitVec 32)
  /-- Line command ZERO allocates each line of the range as zero data, DIRTY, with POISON cleared. (R196) -/
  | lcmdZero (path : Nat) (v : BitVec 32)
  /-- Line command FLUSH writes back each dirty line of the range and keeps it in the slice. (R196) -/
  | lcmdFlush (path : Nat) (v : BitVec 32)
  /-- Line command PREFETCH fills each absent line of the range. (R196) -/
  | lcmdPrefetch (path : Nat) (v : BitVec 32)
  /-- Line command PIN fills or re-installs each line of the range and sets PIN, within the pin limits. (R196) -/
  | lcmdPin (path : Nat) (v : BitVec 32)
  /-- Line command DEMOTE clears PIN, writes back and moves each line of the range into Cove. (R196) -/
  | lcmdDemote (path : Nat) (v : BitVec 32)
  /-- A GO with OP 0, 6 or 7 ends with result BADOP. (R208) -/
  | lcmdBadop (path : Nat) (v : BitVec 32)
  /-- A line command ends when its last line completes, or is aborted or halted. (R200) -/
  | lcmdDone (path : Nat)
  /-- A host sense starts at the first command phase once it heads the HRQ and its die can sense. (R733) -/
  | hostSenseStart (chan die : Nat)
  /-- A held miss enters the admission list, or a sense moves from the list to the HRQ, as entries free. (R222) -/
  | admissionEnter (chan die : Nat)
  /-- A die resumes a suspended operation when no host or reconstruction sense is pending and its page register is
  free. (R230) -/
  | dieResume (chan die : Nat)
  /-- At each bus-slot boundary the slot is allotted to a host-read sector or a non-host class by credit. (R227) -/
  | busSlot (chan : Nat)
  /-- A sensed sector is transferred and LDPC-decoded to CLEAN, CORRECTED, HIGH, ERASED or FAIL. (R217) -/
  | senseDone (chan die : Nat) (res : SenseRes) (lat : Nat)
  /-- After an exhausted ladder, the engine senses the row's other members and XORs them to rebuild the sector. (R247) -/
  | medRecon (chan die auth lat : Nat)
  /-- A planned program starts when its data-in has arrived and its planned die time has come. (R225) -/
  | programStart (chan die : Nat)
  /-- A program ends, verified or with PROG_FAIL or PROG_NOT_ERASED. (R249) -/
  | programDone (chan die res : Nat)
  /-- An erase ends, verified or with ERASE_FAIL. (R249) -/
  | eraseDone (chan die : Nat) (ok blank : Bool)
  /-- Every 64 ticks a die senses a sample page at three offsets and moves LEARN. (R239) -/
  | driftSample (chan die : Nat) (lo mid hi : Nat)
  /-- A die that misses two polls or has an overdue operation is fenced and its senses reconstructed. (R252) -/
  | dieFenced (chan die cause : Nat)
  /-- A channel bus that loses training starts one retraining attempt. (R253) -/
  | channelTrainingLost (chan : Nat)
  /-- A retraining attempt ends; on failure the channel is fenced. (R253) -/
  | channelRetrainDone (chan : Nat) (ok : Bool)
  /-- A fenced die is reset at once and at each of the next two epoch boundaries, then retired if silent. (R257) -/
  | dieResetAttempt (chan die : Nat) (answered : Bool) (inc : Nat)
  /-- A stale die's open blocks are verified and the die marked ONLINE. (R259) -/
  | medDieRejoin (chan die bad : Nat)
  /-- A write of MED_CHc_CTL.RETRAIN starts one further attempt on a RETIRED channel. (R257) -/
  | medChRetrainRequest (path chan : Nat) (v : BitVec 32)
  /-- A write of MED_CHc_CTL.DA from the Tuten port puts the channel in direct-access mode or is refused. (R263) -/
  | medDaEnter (path chan : Nat) (v : BitVec 32)
  /-- Direct-access READ senses and decodes a page into the buffer. (R264) -/
  | daRead (path chan : Nat) (v : BitVec 32) (ok : Bool)
  /-- Direct-access READ_RAW senses a page with no decoding. (R264) -/
  | daReadRaw (path chan : Nat) (v : BitVec 32) (ok : Bool)
  /-- Direct-access PROGRAM_RAW programs the buffer as stored. (R264) -/
  | daProgramRaw (path chan : Nat) (v : BitVec 32) (ok : Bool)
  /-- Direct-access ERASE erases a block. (R264) -/
  | daErase (path chan : Nat) (v : BitVec 32) (ok : Bool)
  /-- Direct-access READ_INFO reads the die information page. (R264) -/
  | daReadInfo (path chan : Nat) (v : BitVec 32) (ok : Bool)
  /-- A sealed write-back is placed into the current log page and the map updated. (R280) -/
  | mtlPlace
  /-- A write-back waiting for a page buffer or a fine-map entry is placed once room frees. (R286) -/
  | mtlPlaceWaitEnd
  /-- A log page is closed 64 ticks after its first slot was placed. (R285) -/
  | logPageTimeout
  /-- An open row with no page assigned 256 ticks after its first page closed is filled with EMPTY pages. (R285) -/
  | rowFillTimeout (set : Nat)
  /-- Overturn picks a reach, captures its merge record and reads, assembles and programs a new reach. (R291) -/
  | foldCapture
  /-- When the FOLD_COMMIT record is durable, the map is updated in one step. (R294) -/
  | foldCommit (reach : Nat)
  /-- Dredge picks the next FULL set and copies its valid data into open sets. (R296) -/
  | dredgePick
  /-- A durable REACH_MOVE or RELOC_COMMIT re-points the entries that still refer to the source slot. (R298) -/
  | dredgeCommit
  /-- A dredged set whose moves are durable gets a durable ERASE_INTENT and its erases are issued. (R310) -/
  | eraseIntent (set : Nat)
  /-- A journal page is closed when a record in it has waited 4 ticks. (R307) -/
  | journalPageTimeout
  /-- A checkpoint generation begins every 256 epochs or after 1 GiB of journal. (R311) -/
  | ckptBegin
  /-- When every checkpoint page is durable, CKPT_END and MAP_ROOT are written and old sets released. (R312) -/
  | ckptEnd
  /-- At start the translation layer rebuilds Pond DRAM from the checkpoint, journal and manifests. (R314) -/
  | mtlRecovery (erased : List (Nat × Nat))
  /-- The ICU seals a write-back in write-sequence order: counters advance, XTS encryption and MAC. (R323) -/
  | sealWriteback (mism : Nat)
  /-- A REWRITE for a line with its RESEAL bit set takes effect in AMQ order. (R345) -/
  | remacRewrite (line : Nat)
  /-- At start the ICU reads TREE_ROOT and loads the tree, or creates a new one. (R339) -/
  | icuRecovery (lost : List Nat)
  /-- A write of DISCARD from the Tuten port in a ROOT_UNCLEAN halt arms the discard. (R369) -/
  | icuHaltCtlDiscard (path : Nat) (v : BitVec 32)
  /-- HALT_REPORT returns the stored 64-byte halt report. (R356) -/
  | haltReport (path : Nat) (input : List Byte)
  /-- SHORELINE_START checks the ranges and starts a rekey job with B at the first line. (R359) -/
  | shorelineStart (path : Nat) (input : List Byte)
  /-- SHORELINE_STATUS returns the job state, generations, B and progress. (R367) -/
  | shorelineStatus (path : Nat) (input : List Byte)
  /-- After 16 ticks of waiting, sealing of the reach's write-backs is delayed until capture. (R361) -/
  | shoreWaitTimeout
  /-- Once no capture or unplaced write-back exists, the reach is captured, read, rebuilt under NEW and committed.
  (R361) -/
  | shoreCapture
  /-- KEY_INSTALL checks, unwraps and installs a context generation, seal slot or KEK. (R378) -/
  | keyInstall (path : Nat) (input : List Byte)
  /-- KEY_RETIRE retires a context, NEW generation, seal slot or KEK. (R380) -/
  | keyRetire (path : Nat) (input : List Byte)
  /-- A TARGET ALL retirement with ranges runs in the background: purge, UNMAP, then key erasure. (R381) -/
  | keyRetireRanges (path : Nat) (input : List Byte)
  /-- At three-quarters full, the live ledger entries move to the other area and KEYROOT switches. (R373) -/
  | ledgerCompact
  /-- A key uncorrectable in both copies is reloaded from the ledger within 20 ms. (R421) -/
  | keySramReload (kind index : Nat)
  /-- A write of KV_JQq_TAIL by the owner posts descriptors to a seal queue. (R392) -/
  | kvJqTailWrite (path queue : Nat) (v : BitVec 32)
  /-- Writing CFG.EN 1 enables a seal queue, or halts it with RING_RANGE. (R405) -/
  | kvJqEnable (path queue : Nat) (v : BitVec 32)
  /-- A NOP descriptor posts a completion. (R394) -/
  | jobNop (queue : Nat)
  /-- A GCM_ENC job encrypts the input under a slot with IV FIXED ‖ C and writes the tag line. (R388) -/
  | jobGcmEnc (queue mism : Nat) (ue : Option (Nat × Nat))
  /-- A GCM_DEC job decrypts to DST, checks the tag and zeroes the output on failure. (R397) -/
  | jobGcmDec (queue mism : Nat) (ue : Option (Nat × Nat))
  /-- An XTS_ENC job encrypts the input in data units. (R392) -/
  | jobXtsEnc (queue mism : Nat) (ue : Option (Nat × Nat))
  /-- An XTS_DEC job decrypts the input in data units. (R392) -/
  | jobXtsDec (queue mism : Nat) (ue : Option (Nat × Nat))
  /-- A CMAC_GEN job computes a CMAC tag into the auxiliary line. (R392) -/
  | jobCmacGen (queue mism : Nat) (ue : Option (Nat × Nat))
  /-- A CMAC_VER job verifies a tag and ends AUTH_FAIL when the tags differ. (R396) -/
  | jobCmacVer (queue mism : Nat) (ue : Option (Nat × Nat))
  /-- A RANDOM job writes DRBG output, or ends RNG_FAIL while the source is FAILED. (R391) -/
  | jobRandom (queue : Nat) (ue : Option (Nat × Nat))
  /-- A job waiting for a reservation write proceeds when it completes. (R386) -/
  | nonceWaitEnd (queue : Nat)
  /-- A failed health test stops the source and reruns the start-up test. (R391) -/
  | rngHealthFail (test : Nat) (again : Bool)
  /-- The DRBG reseeds at an epoch boundary or after 2^20 generate requests. (R390) -/
  | drbgReseed
  /-- A scrubber reads the next row, corrects and writes it back, and checks for a stuck bit. (R416) -/
  | scrubRow (cls inst row : Nat) (up : Upset) (stuck : Bool)
  /-- An uncorrectable management fetch or data access traps to Wellhead and restarts the complex. (R419) -/
  | mempFetchTrap (core : Nat) (addr : Nat)
  /-- A MEMP_INJ_CTL write with ARM and a non-zero MODE arms an injection or is refused. (R433) -/
  | mempInjArm (path : Nat) (v : BitVec 32)
  /-- A MEMP_INJ_CTL write of MODE 0 with ARM disarms an armed injection. (R436) -/
  | mempInjDisarm (path : Nat) (v : BitVec 32)
  /-- A write of DMV_CHn_TAIL by the owner posts descriptors to a data-mover channel. (R425) -/
  | dmvTailWrite (path chan : Nat) (v : BitVec 32)
  /-- Writing CFG.EN 1 enables a channel, or halts it with RING_RANGE. (R438) -/
  | dmvEnable (path chan : Nat) (v : BitVec 32)
  /-- A NOP descriptor posts a completion. (R425) -/
  | dmvNop (chan : Nat)
  /-- A COPY descriptor reads source lines through the cache and writes destination lines as full-line writes. (R427) -/
  | dmvCopy (chan : Nat) (ue : Option (Nat × Nat))
  /-- A FILL descriptor writes a repeated 8-byte pattern to the destination. (R427) -/
  | dmvFill (chan : Nat) (ue : Option (Nat × Nat))
  /-- ACTION RETRY continues a halted descriptor from the failed line. (R430) -/
  | dmvRetry (path chan : Nat) (v : BitVec 32)
  /-- ACTION SKIP completes the halted descriptor with UE and runs the next. (R430) -/
  | dmvSkip (path chan : Nat) (v : BitVec 32)
  /-- ACTION ABORT completes the running descriptor with UE and every queued one with ABORTED. (R430) -/
  | dmvAbort (path chan : Nat) (v : BitVec 32)
  /-- From T0 the management complex runs the start-up steps through Memory_Active. (R457) -/
  | mgmtBoot (trained silent : List Nat) (rngOk : Bool)
  /-- When recovery ends, Memory_Active and Media Status ready are set on every head with regions. (R314) -/
  | memoryActive
  /-- A core watchdog expires and starts a management-complex restart. (R459) -/
  | watchdogExpiry (core : Nat)
  /-- The cores are held, reloaded if needed and restarted, and in-flight commands ended. (R460) -/
  | mgmtRestart (cause core : Nat) (reloadOk : Bool)
  /-- LIFECYCLE_ADVANCE checks a signed advance and starts it as a background command. (R465) -/
  | lifecycleAdvance (path : Nat) (secured : Bool) (input : List Byte)
  /-- An accepted advance raises the lifecycle counter and runs its steps. (R466) -/
  | lcAdvanced
  /-- OBS_TOKEN_INSTALL checks a signed observation token and holds it. (R473) -/
  | obsTokenInstall (path : Nat) (input : List Byte)
  /-- RESET_DEVICE answers Success and then begins the MR_N sequence. (R475) -/
  | resetDevice (path : Nat) (secured : Bool) (input : List Byte)
  /-- ENTDAA or SETDASA assigns the Tuten port a dynamic address and switches it to I3C. (R444) -/
  | i3cDynamicAddress (setdasa : Bool) (addr : Nat)
  /-- RSTDAA returns the port to the unassigned state, answering I2C and SMBus. (R445) -/
  | i3cRstdaa
  /-- A supported common command code is answered. (R444) -/
  | i3cCcc (code : Nat) (arg : List Byte)
  /-- The port answers the SMBus Alert Response Address with its static address. (R446) -/
  | smbusAlertResponse
  /-- An MCTP control message, including Set Endpoint ID, is answered. (R447) -/
  | mctpControl (pec : Bool) (cmd : Nat) (arg : List Byte)
  /-- A message of an unsupported type is dropped and counted. (R448) -/
  | mctpUnsupportedType (type : Nat)
  /-- A CXL CCI message on the Tuten port carries a mailbox command. (R441) -/
  | mctpCxlCci (pec secured : Bool) (opcode : Nat) (input : List Byte)
  /-- A vendor MMIO window READ message performs aligned 32-bit reads. (R449) -/
  | mmioWindowRead (secured : Bool) (count offset : Nat)
  /-- A vendor MMIO window WRITE message performs aligned 32-bit writes when permitted. (R449) -/
  | mmioWindowWrite (secured : Bool) (count offset : Nat) (data : List (BitVec 32))
  /-- A PLDM type 0 or type 2 request is answered from the PDR repository. (R450) -/
  | pldmMonitoring (type cmd : Nat) (arg : List Byte)
  /-- A PLDM type 5 message transfers or activates firmware as the FW commands do. (R451) -/
  | pldmFwUpdate (cmd : Nat) (arg : List Byte)
  /-- A write of SF_UNLOCK enters one step of the unlock sequence. (R484) -/
  | sfUnlockWrite (core : Nat) (v : BitVec 32)
  /-- PROGRAM programs one Spring flash word after comparing it with the stored word. (R489) -/
  | sfProgram (core : Nat) (v : BitVec 32) (fetch : Nat)
  /-- SECTOR_ERASE erases one sector. (R484) -/
  | sfSectorErase (core : Nat) (v : BitVec 32) (fetch : Nat)
  /-- BLANK_CHECK sets BLANK when every word of the sector is erased. (R485) -/
  | sfBlankCheck (core : Nat) (v : BitVec 32)
  /-- CLEAR_STATUS clears every W1C bit of SF_OPSTAT. (R485) -/
  | sfClearStatus (core : Nat) (v : BitVec 32)
  /-- SUSPEND stops a running erase within 20 µs, or is ignored during a program. (R490) -/
  | sfSuspend (core : Nat) (v : BitVec 32)
  /-- RESUME continues a suspended erase, held until a nested program ends. (R491) -/
  | sfResume (core : Nat) (v : BitVec 32)
  /-- RESET discards a partly entered sequence. (R485) -/
  | sfReset (core : Nat) (v : BitVec 32)
  /-- A command code that the table does not name sets SEQ_ERR. (R485) -/
  | sfUnknownCommand (core : Nat) (v : BitVec 32)
  /-- More than 256 core cycles between steps discards a partly entered sequence. (R484) -/
  | sfSequenceTimeout
  /-- A program or erase ends with DONE or FAIL. (R488) -/
  | sfOpDone (ok : Bool)
  /-- A data read of a bank that is erasing suspends the erase automatically. (R480) -/
  | sfReadAutoSuspend (addr : Nat)
  /-- The erase resumes after 10 µs with no read pending for the bank. (R480) -/
  | sfAutoResume
  /-- An uncorrectable Wellhead word is served from the mirror, or both lost holds every core. (R497) -/
  | sfWellheadMirror (addr : Nat) (mirrorOk : Bool)
  /-- FW_BLOCK erases and programs one block of a firmware image into the target slot. (R503) -/
  | fwBlock (path : Nat) (input : List Byte) (readOk : Bool)
  /-- Update ownership ends after 2 epochs without a command from the owner. (R502) -/
  | fwOwnerTimeout
  /-- FW_VERIFY checks the loaded image under R501. (R505) -/
  | fwVerify (path : Nat) (input : List Byte)
  /-- FW_ACTIVATE arms a trial for the next start or performs a live handover. (R506) -/
  | fwActivate (path : Nat) (input : List Byte)
  /-- A write of SF_FW_TRIAL.HEALTHY confirms the trial image and migrates settings. (R510) -/
  | fwTrialHealthy (path : Nat) (v : BitVec 32)
  /-- A trial that reaches 30 epochs without HEALTHY falls back. (R511) -/
  | fwTrialTimeout
  /-- FW_CONFIRM ACCEPT raises the firmware floor, and REJECT ends the running trial. (R512) -/
  | fwConfirm (path : Nat) (input : List Byte)
  /-- A queued Gauge write completes in the block and the image, and its requester is answered. (R524) -/
  | gaugeWriteDone (torn : Bool)
  /-- A held Gauge write starts when VAON and the supervisor grant it. (R525) -/
  | gauWriteHeld
  /-- A mailbox write held for 50 ms is withdrawn and the command returns BUSY. (R526) -/
  | gauMailboxWithdraw (path : Nat)
  /-- GAU_PARAM_READ returns a parameter record. (R537) -/
  | gauParamRead (path : Nat) (input : List Byte)
  /-- GAU_PARAM_WRITE writes a firmware parameter record. (R538) -/
  | gauParamWrite (path : Nat) (secured : Bool) (input : List Byte)
  /-- A unit raises an event, and the recorder merges it or adds it to the ring with a new sequence. (R539) -/
  | sedRecord (code sev unit p0 p1 p2 : Nat)
  /-- At start the recorder scans the region and resumes the sequence. (R547) -/
  | sedRegionScan (bad : List Nat)
  /-- SED_MARK marks every record at or below a sequence. (R544) -/
  | sedMark (path : Nat) (input : List Byte)
  /-- SED_READ returns records from the log or the mirror. (R549) -/
  | sedRead (path : Nat) (input : List Byte)
  /-- PWR_STATE_REQ with TARGET RUN returns the device to RUN. (R561) -/
  | pwrStateReqRun (path : Nat) (input : List Byte)
  /-- PWR_STATE_REQ with TARGET IDLE enters a requested IDLE. (R561) -/
  | pwrStateReqIdle (path : Nat) (input : List Byte)
  /-- PWR_STATE_REQ with TARGET SLEEP starts entry with unit agreement. (R563) -/
  | pwrStateReqSleep (path : Nat) (input : List Byte)
  /-- PWR_STATE_REQ with TARGET DEEP starts entry with unit agreement and retention signatures. (R563) -/
  | pwrStateReqDeep (path : Nat) (input : List Byte)
  /-- PWR_STATE_REQ with TARGET OFF hands the request to the supervisor's power-down. (R562) -/
  | pwrStateReqOff (path : Nat) (input : List Byte)
  /-- PWR_STATE_REQ with TARGET above 4 returns Invalid Input. (R561) -/
  | pwrStateReqBadTarget (path : Nat) (input : List Byte)
  /-- A unit answers an agreement request, and entry proceeds to the next unit or abort point. (R563) -/
  | unitAgree (unit : Nat) (busy : Bool)
  /-- A unit that has not answered within AGREE_MS is handled as a refusal. (R566) -/
  | pwrEntryTimeout (unit : Nat)
  /-- The CRCs of every retained bank are stored and DEEP is entered. (R572) -/
  | retentionSignDone (crcs : List (BitVec 32))
  /-- A CXL.mem flit or other need leaves IDLE within 1 µs. (R559) -/
  | idleExit (cause : Nat)
  /-- An enabled wake source starts the exit from SLEEP or DEEP. (R574) -/
  | wakeEvent (src : Nat)
  /-- TICK_COUNT reaching PWR_TIMER wakes the device. (R574) -/
  | pwrWakeTimer
  /-- When the last unit resumes, the state becomes RUN. (R575) -/
  | pwrWake (crcs : List (BitVec 32))
  /-- A write of PWR_CTL is applied or ignored when out of range. (R577) -/
  | pwrCtlWrite (path : Nat) (v : BitVec 32)
  /-- VAUX rises above V_POR and PD_AON leaves reset, sampling the straps. (R580) -/
  | pdAonRelease (straps : Nat)
  /-- VAUX falling below V_POR resets PD_AON and every domain. (R580) -/
  | vauxPor
  /-- VAUX below 3.00 V with VAON up writes SUPSNAP from the VAON capacitor. (R607) -/
  | vauxLossSnapshot
  /-- When the preconditions hold in WAIT, sequencing step 1 starts. (R582) -/
  | powerUpStart
  /-- A sequencing step completes and the next starts, or step 12 releases PD_MGMT. (R583) -/
  | railStepDone (pg : BitVec 10)
  /-- A rail not up within T_PG becomes FAILED. (R584) -/
  | railPgTimeout (rail : Nat)
  /-- A power-down step completes when its rails discharge, or after T_DIS. (R587) -/
  | railDischargeDone (left : BitVec 10)
  /-- An up rail losing PG in RUN or GUARD drops links, zeroes the budget or starts a flush. (R591) -/
  | railPgLost (rail : Nat)
  /-- VIN below V_WARN stops charging, raises cleaners and limits write issue. (R592) -/
  | guardEnter (vin : Nat)
  /-- VIN at or above V_WARN + 0.30 V for 500 µs ends GUARD. (R594) -/
  | guardEnd (vin : Nat)
  /-- VIN below V_FAIL starts a power-fail flush, or power-down during sequencing. (R598) -/
  | vinFail (vin : Nat)
  /-- A flush begins and its ordered steps make the persistence domain durable. (R598) -/
  | flushStart (cause : Nat)
  /-- The flush ends when step 4 is durable. (R598) -/
  | flushDone (vinOk : Bool) (dur : Nat)
  /-- A flush that reaches 13 V or a closed window ends early. (R600) -/
  | flushIncomplete (why : Nat)
  /-- Every 1.024 ms a round of 64 channels completes and levels, windows and budget are updated. (R619) -/
  | housekeepingRound (raw : List Int) (valid : List Bool)
  /-- The Reservoir reaches TARGET and charging stops. (R603) -/
  | resCharged (ms : Nat)
  /-- A charge timeout or overvoltage marks the Reservoir FAULTED. (R604) -/
  | resFault (why v : Nat)
  /-- A Reservoir self-test starts at first charge, every 4,096 epochs or on request. (R605) -/
  | resTestStart (cause : Nat)
  /-- The 20 ms self-test ends with measured ESR and C_eff. (R605) -/
  | resTest (cEff esr : Nat)
  /-- A write of SUP_RES_CTL.TARGET or SUP_GUARD.RATE is applied or ignored when out of range. (R625) -/
  | supRegWrite (path addr : Nat) (v : BitVec 32)
  /-- A PWRBTN_N press under 8 s wakes the device or is recorded. (R609) -/
  | btnPress (ms : Nat)
  /-- PWRBTN_N held 8 s starts a flush and power-down to OFF. (R610) -/
  | forceOff
  /-- MR_N asserted in RUN or GUARD starts a flush with cause MR_N. (R611) -/
  | mrNAssert
  /-- WAKE_N asserted for 1 ms in OFF powers PD_AON into WAIT. (R581) -/
  | wakeNOff
  /-- A participant receives a SEICHE state frame and begins that state. (R613) -/
  | seicheFrame (num : Nat) (parityOk : Bool)
  /-- The leader finds the line high for 20 µs and announces the next state. (R613) -/
  | seicheBarrier (vinOk : Bool)
  /-- A follower holds the line low 200–1,000 µs to request a power-down. (R615) -/
  | seicheRequest (us : Nat)
  /-- A bad frame or timeout puts the participant in state 23 to sequence alone. (R617) -/
  | seicheFault (cause : Nat)
  /-- No REFCLK edge for 2 µs switches to the internal oscillator and starts a flush. (R704) -/
  | refclkLost
  /-- After training, the link ends open an authenticated SPDM session in SESSION frames. (R633) -/
  | nrwSession (link width serial : Nat) (chainOk : Bool)
  /-- A member applies a WRITE frame in RSEQ order, relays it and acknowledges. (R638) -/
  | nrwWriteFrame (link rseq key line : Nat) (data : Line) (poison resync relay : Bool) (up : Upset)
  /-- A member applies a ZERO frame in RSEQ order. (R638) -/
  | nrwZeroFrame (link rseq key line : Nat) (resync relay : Bool)
  /-- A member journals UNMAP of a released reach and removes cached copies. (R653) -/
  | nrwReleaseFrame (link rseq line : Nat) (relay : Bool)
  /-- A source answers FETCH by placing frames as resync does. (R654) -/
  | nrwFetchFrame (link line : Nat)
  /-- A stale member receives the dirty-region bitmap. (R652) -/
  | nrwBitmapFrame (link rseq first : Nat) (bits : BitVec 512)
  /-- An ACK frees send cells and releases SYNC completions waiting on it. (R640) -/
  | nrwAckFrame (link rseq : Nat) (relay : Bool) (pos : Nat)
  /-- RESEND makes the sender resend every frame from that RSEQ. (R650) -/
  | nrwResendFrame (link rseq : Nat)
  /-- A HEARTBEAT reports the highest RSEQ sent. (R635) -/
  | nrwHeartbeatFrame (link rseq : Nat)
  /-- A STATUS frame exchanges group state, GINC and staleness. (R647) -/
  | nrwStatusFrame (link pos ginc : Nat) (primary : Bool) (st : Nat) (synced : Bool) (group nmem : Nat) (ack : Bool) (members : List Nat) (digest : List Byte)
  /-- A LEAVE frame makes the receiver fence its sender. (R660) -/
  | nrwLeaveFrame (link : Nat)
  /-- A HANDOFF frame drives the promotion handoff between primary and new primary. (R658) -/
  | nrwHandoffFrame (link rseq : Nat)
  /-- A frame tag failure ends the session and retrains the link. (R634) -/
  | nrwTagFail (link : Nat)
  /-- A hold input change stops or restarts data frames on the link. (R643) -/
  | nrwHoldIn (link : Nat) (low : Bool)
  /-- A fence trigger fences a member, raises GINC and presents waiting completions. (R648) -/
  | nrwFence (pos cause : Nat)
  /-- The resync source walks set regions and sends RELEASE or RESYNC frames. (R652) -/
  | nrwResyncStep
  /-- NRW_GROUP_SET SERIALS writes member serials and re-establishes sessions. (R656) -/
  | nrwGroupSetSerials (path : Nat) (input : List Byte)
  /-- NRW_GROUP_SET PROMOTE makes this member primary, with a handoff when the primary is in sync. (R657) -/
  | nrwGroupSetPromote (path : Nat) (input : List Byte)
  /-- NRW_GROUP_SET SOLO sets the group record's SOLO flag. (R656) -/
  | nrwGroupSetSolo (path : Nat) (input : List Byte)
  /-- NRW_RESYNC STATUS returns a member's state and pending regions. (R659) -/
  | nrwResyncStatus (path : Nat) (input : List Byte)
  /-- NRW_RESYNC FULL sets every bit and puts the member in RESYNC. (R659) -/
  | nrwResyncFull (path : Nat) (input : List Byte)
  /-- A write of OBS_PCj_CFG clears the counter, selects its new event and sets PARTIAL. (R671) -/
  | obsPcCfgWrite (path counter : Nat) (v : BitVec 32)
  /-- A selected request's response ends the sample, which is kept or discarded. (R676) -/
  | plumbSample (head tag latency : Nat)
  /-- A read of OBS_PLUMB_DATA7 by the owner removes the oldest sample. (R679) -/
  | plumbDataPop (path : Nat)
  /-- Plumb stops on EN cleared, flush, agreement or level fall. (R680) -/
  | plumbStop (cause : Nat)
  /-- Each 24-byte slot of the Sounding port sends a TICK, waiting or IDLE frame. (R681) -/
  | soundingFrameSlot
  /-- A write of OBS_SND_MARK produces a MARK frame. (R686) -/
  | obsSndMarkWrite (path : Nat) (v : BitVec 32)
  /-- A write of the Plumb or Sounding control is applied at the next boundary or ignored when out of range. (R687) -/
  | obsPlumbCtlWrite (path addr : Nat) (v : BitVec 32)
  /-- EXTEST drives pins from the boundary cells. (R719) -/
  | jtagExtest (cells : List Bool)
  /-- IDCODE selects the identification register. (R719) -/
  | jtagIdcode
  /-- SAMPLE/PRELOAD captures and preloads the boundary cells. (R719) -/
  | jtagSamplePreload (pins : List Bool) (cells : List Bool)
  /-- HIGHZ places outputs in high impedance. (R719) -/
  | jtagHighz
  /-- CLAMP holds pins from the boundary cells with bypass selected. (R719) -/
  | jtagClamp
  /-- BYPASS, or any unlisted code, selects the bypass register. (R719) -/
  | jtagBypass (code : Nat)
  /-- When an enabling condition ends, the test port enters Test-Logic-Reset and returns pins to functional control.
  (R718) -/
  | jtagRelease
  /-- The host returns S2M credits, egress entries leave EQ_NDR and EQ_DRS, and issue resumes when occupancy falls to
  EGR_LO. (R157) -/
  | hostS2mCreditReturn (head ndr drs : Nat)
  /-- A host link enters L1 or L2 (ASPM or power management), the state that unit 0 checks before agreeing to SLEEP or
  DEEP. (R563) -/
  | linkL1L2Entry (head level : Nat)
  /-- MR_N deasserts and the PD_MGMT reset held while it was asserted is released as a new T0. (R611) -/
  | mrNRelease
  /-- When node sets in service exceed 1.25 times the sets their valid pages fill, the ICU rewrites the valid groups
  of the set with fewest valid pages and releases it. (R336) -/
  | nodesetCompact
  /-- After 1 µs with no frame on a link, the device sends a HEARTBEAT giving the highest RSEQ sent. (R635) -/
  | nrwHeartbeatSend (link replays : Nat)
  /-- An auto-suspended Spring flash erase resumes for at least 500 µs in every 2 ms even while reads are pending, and
  those reads wait. (R480) -/
  | sfEraseForcedResume
  /-- WAKE_N asserted or VIN returning while the supervisor is in DOWN is latched, so the power-down ends in power-up
  after T_OFFMIN instead of OFF. (R590) -/
  | onRequestLatched (src : Nat)
deriving DecidableEq, Repr

end Sys2Proof
end

