-- ==== Sys2Proof/Config.lean ====
section
/-! DEFINITION. What an implementation fixes and what the spec leaves open: the free values, constants with no body. -/

namespace Sys2Proof.Config

/-- The n-th free value of w bits the machine draws: random bits of the DRBG (R389), a measured time (R236), a value the
spec does not state. Nothing constrains it. Mark: DESIGN CHOICE (log entry 2), safe. -/
opaque free (w n : Nat) : BitVec w

/-- The core cycle within the tick that TICK_CYCLE reads (R59): any value below 6,000; the model keeps no cycle count.
Mark: DESIGN CHOICE (log entry 3), safe. -/
opaque cycle (n : Nat) : Fin 6000

/-- Device-unique secret of which every device key and identity is a function (R453). Mark: UNVERIFIED (log entry 4). -/
opaque uniqueKey : BitVec 256

/-- Bytes of a standard's structure that the spec names and does not lay out (log entry 5). -/
opaque bytes (what : String) (n : Nat) : List (BitVec 8)

/-- Scrambling sequence of a sector by its physical sector address (R216): the spec gives no generator (log entry 174). -/
opaque scramble (psa : Nat) : List (BitVec 8)

/-- The 64 parity bytes of the rate-0.9 quasi-cyclic LDPC code over 576 information bytes (R216): the spec gives no matrix
(log entry 174). -/
opaque ldpcParity (info : List (BitVec 8)) : List (BitVec 8)

/-- Information bytes of the codeword found in a raw sector that is no codeword itself (log entry 174). -/
opaque ldpcDecode (raw : List (BitVec 8)) : List (BitVec 8)

/-- Bytes of a die information page with a bad-block list and a stored incarnation (R211): the spec gives no layout (log
entry 5). -/
opaque infoPage (die : Nat) (bad : List Nat) (stored : Nat) : List (BitVec 8)

end Sys2Proof.Config
end

