-- ==== Sys2Proof/Machine/RegMap.lean ====
section
/-! DEFINITION. The register map: every register of R56 to R59 and of each block's own map, its address, its
dimensions, its fields with their bits and access type (R17), its reset word and whether a host may write it (R19).
The rows are the spec's register tables, one row a register. -/

namespace Sys2Proof.Machine

/-- The access types of R17. -/
inductive Acc where
  | ro | rw | w1c | w1s | rc | wo | rsv
deriving DecidableEq, Repr

/-- A field of a register: the register's key in the register file, its lowest bit and its width. -/
structure Fld where
  reg : Nat
  lo : Nat
  width : Nat
deriving DecidableEq, Repr

/-- One row of the register map: element (i, j) of the register stands at `base + s1 * i + s2 * j`. -/
structure RegDesc where
  base : Nat
  n1 : Nat
  s1 : Nat
  n2 : Nat
  s2 : Nat
  reset : Nat
  banked : Bool
  hostW : Bool
  fields : List (Nat × Nat × Acc)
deriving DecidableEq, Repr

/-- Each access path has a bank of its own above the 2^28 addresses of the map (R15, R57, R668). -/
def bankStride : Nat := 0x1000_0000

/-- GLB_ID (R57). -/
def Reg.GLB_ID : Nat := 0x0
def F.GLB_ID_PART : Fld := ⟨Reg.GLB_ID, 16, 16⟩
def F.GLB_ID_STEP : Fld := ⟨Reg.GLB_ID, 8, 8⟩
def F.GLB_ID_LAYOUT : Fld := ⟨Reg.GLB_ID, 0, 8⟩
/-- GLB_UNITS (R57). -/
def Reg.GLB_UNITS : Nat := 0x4
def F.GLB_UNITS_PRESENT : Fld := ⟨Reg.GLB_UNITS, 0, 16⟩
/-- GLB_UNITS_FUSED (R57). -/
def Reg.GLB_UNITS_FUSED : Nat := 0x8
def F.GLB_UNITS_FUSED_PRESENT : Fld := ⟨Reg.GLB_UNITS_FUSED, 0, 16⟩
/-- GLB_CAP (R57). -/
def Reg.GLB_CAP : Nat := 0xc
def F.GLB_CAP_PORTS : Fld := ⟨Reg.GLB_CAP, 0, 4⟩
def F.GLB_CAP_SEAL : Fld := ⟨Reg.GLB_CAP, 4, 1⟩
def F.GLB_CAP_PLUMB : Fld := ⟨Reg.GLB_CAP, 5, 1⟩
def F.GLB_CAP_NRW : Fld := ⟨Reg.GLB_CAP, 6, 1⟩
def F.GLB_CAP_SOUNDING : Fld := ⟨Reg.GLB_CAP, 7, 1⟩
def F.GLB_CAP_NCTX : Fld := ⟨Reg.GLB_CAP, 8, 4⟩
def F.GLB_CAP_NCH : Fld := ⟨Reg.GLB_CAP, 16, 5⟩
/-- GLB_CAP_FUSED (R57). -/
def Reg.GLB_CAP_FUSED : Nat := 0x10
def F.GLB_CAP_FUSED_CAP : Fld := ⟨Reg.GLB_CAP_FUSED, 0, 21⟩
/-- GLB_CHMASK (R57). -/
def Reg.GLB_CHMASK : Nat := 0x14
def F.GLB_CHMASK_EN : Fld := ⟨Reg.GLB_CHMASK, 0, 16⟩
def F.GLB_CHMASK_FUSED : Fld := ⟨Reg.GLB_CHMASK, 16, 16⟩
/-- GLB_DEVID (R57). -/
def Reg.GLB_DEVID : Nat := 0x18
def F.GLB_DEVID_DEVID : Fld := ⟨Reg.GLB_DEVID, 0, 12⟩
def F.GLB_DEVID_RECOVER : Fld := ⟨Reg.GLB_DEVID, 16, 1⟩
/-- GLB_STATE (R57). -/
def Reg.GLB_STATE : Nat := 0x1c
def F.GLB_STATE_MODE : Fld := ⟨Reg.GLB_STATE, 0, 3⟩
def F.GLB_STATE_FAILED_RAILS : Fld := ⟨Reg.GLB_STATE, 8, 10⟩
/-- GLB_RESET_CAUSE (R57). -/
def Reg.GLB_RESET_CAUSE : Nat := 0x20
def F.GLB_RESET_CAUSE_POR : Fld := ⟨Reg.GLB_RESET_CAUSE, 0, 1⟩
def F.GLB_RESET_CAUSE_MR : Fld := ⟨Reg.GLB_RESET_CAUSE, 1, 1⟩
def F.GLB_RESET_CAUSE_MBOX : Fld := ⟨Reg.GLB_RESET_CAUSE, 2, 1⟩
def F.GLB_RESET_CAUSE_PFAIL : Fld := ⟨Reg.GLB_RESET_CAUSE, 3, 1⟩
def F.GLB_RESET_CAUSE_FORCEOFF : Fld := ⟨Reg.GLB_RESET_CAUSE, 4, 1⟩
/-- GLB_SCRATCH (R57). -/
def Reg.GLB_SCRATCH (bank : Nat) : Nat := bankStride * bank + 0x24
def F.GLB_SCRATCH_VALUE (bank : Nat) : Fld := ⟨(Reg.GLB_SCRATCH bank), 0, 32⟩
/-- TICK_COUNT_LO (R59). -/
def Reg.TICK_COUNT_LO : Nat := 0x10000
def F.TICK_COUNT_LO_COUNT : Fld := ⟨Reg.TICK_COUNT_LO, 0, 32⟩
/-- TICK_COUNT_HI (R59). -/
def Reg.TICK_COUNT_HI : Nat := 0x10004
def F.TICK_COUNT_HI_COUNT : Fld := ⟨Reg.TICK_COUNT_HI, 0, 32⟩
/-- TICK_CYCLE (R59). -/
def Reg.TICK_CYCLE : Nat := 0x10008
def F.TICK_CYCLE_CYCLE : Fld := ⟨Reg.TICK_CYCLE, 0, 13⟩
/-- TICK_CAL_LO (R59). -/
def Reg.TICK_CAL_LO : Nat := 0x10010
def F.TICK_CAL_LO_MS : Fld := ⟨Reg.TICK_CAL_LO, 0, 32⟩
/-- TICK_CAL_HI (R59). -/
def Reg.TICK_CAL_HI : Nat := 0x10014
def F.TICK_CAL_HI_MS : Fld := ⟨Reg.TICK_CAL_HI, 0, 16⟩
/-- TICK_CAL_SET_LO (R59). -/
def Reg.TICK_CAL_SET_LO : Nat := 0x10018
def F.TICK_CAL_SET_LO_MS : Fld := ⟨Reg.TICK_CAL_SET_LO, 0, 32⟩
/-- TICK_CAL_SET_HI (R59). -/
def Reg.TICK_CAL_SET_HI : Nat := 0x1001c
def F.TICK_CAL_SET_HI_MS : Fld := ⟨Reg.TICK_CAL_SET_HI, 0, 16⟩
/-- TICK_CAL_STAT (R59). -/
def Reg.TICK_CAL_STAT : Nat := 0x10020
def F.TICK_CAL_STAT_VALID : Fld := ⟨Reg.TICK_CAL_STAT, 0, 1⟩
def F.TICK_CAL_STAT_REFUSED : Fld := ⟨Reg.TICK_CAL_STAT, 1, 1⟩
def F.TICK_CAL_STAT_HOLD : Fld := ⟨Reg.TICK_CAL_STAT, 2, 1⟩
def F.TICK_CAL_STAT_SUBMS : Fld := ⟨Reg.TICK_CAL_STAT, 8, 8⟩
/-- TICK_SYNC_CTL (R59). -/
def Reg.TICK_SYNC_CTL : Nat := 0x10030
def F.TICK_SYNC_CTL_ROLE : Fld := ⟨Reg.TICK_SYNC_CTL, 0, 2⟩
/-- TICK_SYNC_STAT (R59). -/
def Reg.TICK_SYNC_STAT : Nat := 0x10034
def F.TICK_SYNC_STAT_LOCKED : Fld := ⟨Reg.TICK_SYNC_STAT, 0, 1⟩
def F.TICK_SYNC_STAT_LOST : Fld := ⟨Reg.TICK_SYNC_STAT, 1, 1⟩
def F.TICK_SYNC_STAT_CONFLICT : Fld := ⟨Reg.TICK_SYNC_STAT, 2, 1⟩
def F.TICK_SYNC_STAT_FRAME_ERR : Fld := ⟨Reg.TICK_SYNC_STAT, 8, 8⟩
def F.TICK_SYNC_STAT_MASTER_DEVID : Fld := ⟨Reg.TICK_SYNC_STAT, 16, 12⟩
/-- TICK_BUDGET_LO (R59). -/
def Reg.TICK_BUDGET_LO : Nat := 0x10040
def F.TICK_BUDGET_LO_HREAD : Fld := ⟨Reg.TICK_BUDGET_LO, 0, 8⟩
def F.TICK_BUDGET_LO_WBACK : Fld := ⟨Reg.TICK_BUDGET_LO, 8, 8⟩
def F.TICK_BUDGET_LO_OVERTURN : Fld := ⟨Reg.TICK_BUDGET_LO, 16, 8⟩
def F.TICK_BUDGET_LO_DREDGE : Fld := ⟨Reg.TICK_BUDGET_LO, 24, 8⟩
/-- TICK_BUDGET_HI (R59). -/
def Reg.TICK_BUDGET_HI : Nat := 0x10044
def F.TICK_BUDGET_HI_REFRESH : Fld := ⟨Reg.TICK_BUDGET_HI, 0, 8⟩
def F.TICK_BUDGET_HI_SCRUB : Fld := ⟨Reg.TICK_BUDGET_HI, 8, 8⟩
def F.TICK_BUDGET_HI_SHORE : Fld := ⟨Reg.TICK_BUDGET_HI, 16, 8⟩
def F.TICK_BUDGET_HI_RESYNC : Fld := ⟨Reg.TICK_BUDGET_HI, 24, 8⟩
/-- TICK_BUDGET_EFF_LO (R59). -/
def Reg.TICK_BUDGET_EFF_LO : Nat := 0x10048
def F.TICK_BUDGET_EFF_LO_HREAD : Fld := ⟨Reg.TICK_BUDGET_EFF_LO, 0, 8⟩
def F.TICK_BUDGET_EFF_LO_WBACK : Fld := ⟨Reg.TICK_BUDGET_EFF_LO, 8, 8⟩
def F.TICK_BUDGET_EFF_LO_OVERTURN : Fld := ⟨Reg.TICK_BUDGET_EFF_LO, 16, 8⟩
def F.TICK_BUDGET_EFF_LO_DREDGE : Fld := ⟨Reg.TICK_BUDGET_EFF_LO, 24, 8⟩
/-- TICK_BUDGET_EFF_HI (R59). -/
def Reg.TICK_BUDGET_EFF_HI : Nat := 0x1004c
def F.TICK_BUDGET_EFF_HI_REFRESH : Fld := ⟨Reg.TICK_BUDGET_EFF_HI, 0, 8⟩
def F.TICK_BUDGET_EFF_HI_SCRUB : Fld := ⟨Reg.TICK_BUDGET_EFF_HI, 8, 8⟩
def F.TICK_BUDGET_EFF_HI_SHORE : Fld := ⟨Reg.TICK_BUDGET_EFF_HI, 16, 8⟩
def F.TICK_BUDGET_EFF_HI_RESYNC : Fld := ⟨Reg.TICK_BUDGET_EFF_HI, 24, 8⟩
/-- TICK_BUDGET_STAT (R59). -/
def Reg.TICK_BUDGET_STAT : Nat := 0x10050
def F.TICK_BUDGET_STAT_BAD : Fld := ⟨Reg.TICK_BUDGET_STAT, 0, 1⟩
/-- TICK_OVERRUN (R59). -/
def Reg.TICK_OVERRUN : Nat := 0x10060
def F.TICK_OVERRUN_COUNT : Fld := ⟨Reg.TICK_OVERRUN, 0, 16⟩
def F.TICK_OVERRUN_UNIT : Fld := ⟨Reg.TICK_OVERRUN, 16, 5⟩
/-- HP_CFG (R142). -/
def Reg.HP_CFG (h : Nat) : Nat := 0x100000 + 0x40000 * h
def F.HP_CFG_WIDTH (h : Nat) : Fld := ⟨(Reg.HP_CFG h), 0, 2⟩
def F.HP_CFG_SPEED (h : Nat) : Fld := ⟨(Reg.HP_CFG h), 2, 2⟩
def F.HP_CFG_KIMODE (h : Nat) : Fld := ⟨(Reg.HP_CFG h), 4, 1⟩
def F.HP_CFG_IDE_REQ (h : Nat) : Fld := ⟨(Reg.HP_CFG h), 5, 1⟩
def F.HP_CFG_IDE_MODE (h : Nat) : Fld := ⟨(Reg.HP_CFG h), 6, 1⟩
def F.HP_CFG_NREG (h : Nat) : Fld := ⟨(Reg.HP_CFG h), 8, 7⟩
/-- HP_LINK_STAT (R142). -/
def Reg.HP_LINK_STAT (h : Nat) : Nat := 0x100004 + 0x40000 * h
def F.HP_LINK_STAT_UP (h : Nat) : Fld := ⟨(Reg.HP_LINK_STAT h), 0, 1⟩
def F.HP_LINK_STAT_REFUSED (h : Nat) : Fld := ⟨(Reg.HP_LINK_STAT h), 1, 1⟩
def F.HP_LINK_STAT_DEGRADED (h : Nat) : Fld := ⟨(Reg.HP_LINK_STAT h), 2, 1⟩
def F.HP_LINK_STAT_WIDTH (h : Nat) : Fld := ⟨(Reg.HP_LINK_STAT h), 4, 4⟩
def F.HP_LINK_STAT_SPEED (h : Nat) : Fld := ⟨(Reg.HP_LINK_STAT h), 8, 3⟩
def F.HP_LINK_STAT_L0P (h : Nat) : Fld := ⟨(Reg.HP_LINK_STAT h), 11, 1⟩
def F.HP_LINK_STAT_LTSSM (h : Nat) : Fld := ⟨(Reg.HP_LINK_STAT h), 16, 5⟩
/-- HP_IDE_STAT (R142). -/
def Reg.HP_IDE_STAT (h : Nat) : Nat := 0x100008 + 0x40000 * h
def F.HP_IDE_STAT_STATE (h : Nat) : Fld := ⟨(Reg.HP_IDE_STAT h), 0, 2⟩
def F.HP_IDE_STAT_KEYSET (h : Nat) : Fld := ⟨(Reg.HP_IDE_STAT h), 2, 1⟩
def F.HP_IDE_STAT_REFRESH (h : Nat) : Fld := ⟨(Reg.HP_IDE_STAT h), 8, 8⟩
def F.HP_IDE_STAT_FAILS (h : Nat) : Fld := ⟨(Reg.HP_IDE_STAT h), 16, 8⟩
/-- HP_HDM_STAT (R142). -/
def Reg.HP_HDM_STAT (h : Nat) : Nat := 0x10000c + 0x40000 * h
def F.HP_HDM_STAT_COMMITTED (h : Nat) : Fld := ⟨(Reg.HP_HDM_STAT h), 0, 8⟩
def F.HP_HDM_STAT_REFUSED (h : Nat) : Fld := ⟨(Reg.HP_HDM_STAT h), 8, 8⟩
def F.HP_HDM_STAT_CAP (h : Nat) : Fld := ⟨(Reg.HP_HDM_STAT h), 16, 15⟩
/-- HP_ERR_STAT (R142). -/
def Reg.HP_ERR_STAT (h : Nat) : Nat := 0x100010 + 0x40000 * h
def F.HP_ERR_STAT_MISS (h : Nat) : Fld := ⟨(Reg.HP_ERR_STAT h), 0, 1⟩
def F.HP_ERR_STAT_RO (h : Nat) : Fld := ⟨(Reg.HP_ERR_STAT h), 1, 1⟩
def F.HP_ERR_STAT_NOKEY (h : Nat) : Fld := ⟨(Reg.HP_ERR_STAT h), 2, 1⟩
def F.HP_ERR_STAT_IDE (h : Nat) : Fld := ⟨(Reg.HP_ERR_STAT h), 3, 1⟩
def F.HP_ERR_STAT_KIDX (h : Nat) : Fld := ⟨(Reg.HP_ERR_STAT h), 4, 1⟩
def F.HP_ERR_STAT_IDEFAIL (h : Nat) : Fld := ⟨(Reg.HP_ERR_STAT h), 5, 1⟩
def F.HP_ERR_STAT_LINKDOWN (h : Nat) : Fld := ⟨(Reg.HP_ERR_STAT h), 6, 1⟩
/-- HP_CNT_MISS (R142). -/
def Reg.HP_CNT_MISS (h : Nat) : Nat := 0x100020 + 0x40000 * h
def F.HP_CNT_MISS_COUNT (h : Nat) : Fld := ⟨(Reg.HP_CNT_MISS h), 0, 32⟩
/-- HP_CNT_RO (R142). -/
def Reg.HP_CNT_RO (h : Nat) : Nat := 0x100024 + 0x40000 * h
def F.HP_CNT_RO_COUNT (h : Nat) : Fld := ⟨(Reg.HP_CNT_RO h), 0, 32⟩
/-- HP_CNT_NOKEY (R142). -/
def Reg.HP_CNT_NOKEY (h : Nat) : Nat := 0x100028 + 0x40000 * h
def F.HP_CNT_NOKEY_COUNT (h : Nat) : Fld := ⟨(Reg.HP_CNT_NOKEY h), 0, 32⟩
/-- HP_CNT_IDE (R142). -/
def Reg.HP_CNT_IDE (h : Nat) : Nat := 0x10002c + 0x40000 * h
def F.HP_CNT_IDE_COUNT (h : Nat) : Fld := ⟨(Reg.HP_CNT_IDE h), 0, 32⟩
/-- HP_CNT_KIDX (R142). -/
def Reg.HP_CNT_KIDX (h : Nat) : Nat := 0x100030 + 0x40000 * h
def F.HP_CNT_KIDX_COUNT (h : Nat) : Fld := ⟨(Reg.HP_CNT_KIDX h), 0, 32⟩
/-- HP_CNT_POISON (R142). -/
def Reg.HP_CNT_POISON (h : Nat) : Nat := 0x100034 + 0x40000 * h
def F.HP_CNT_POISON_COUNT (h : Nat) : Fld := ⟨(Reg.HP_CNT_POISON h), 0, 32⟩
/-- HP_RESET_STAT (R142). -/
def Reg.HP_RESET_STAT (h : Nat) : Nat := 0x100040 + 0x40000 * h
def F.HP_RESET_STAT_PERST (h : Nat) : Fld := ⟨(Reg.HP_RESET_STAT h), 0, 8⟩
def F.HP_RESET_STAT_HOT (h : Nat) : Fld := ⟨(Reg.HP_RESET_STAT h), 8, 8⟩
def F.HP_RESET_STAT_CXLRST (h : Nat) : Fld := ⟨(Reg.HP_RESET_STAT h), 16, 8⟩
def F.HP_RESET_STAT_FLR (h : Nat) : Fld := ⟨(Reg.HP_RESET_STAT h), 24, 8⟩
/-- HP_REGION_LO (R142). -/
def Reg.HP_REGION_LO (h : Nat) (r : Nat) : Nat := 0x100100 + 0x40000 * h + 0x8 * r
def F.HP_REGION_LO_DPA_BASE (h : Nat) (r : Nat) : Fld := ⟨(Reg.HP_REGION_LO h r), 0, 16⟩
def F.HP_REGION_LO_DPA_LEN (h : Nat) (r : Nat) : Fld := ⟨(Reg.HP_REGION_LO h r), 16, 16⟩
/-- HP_REGION_HI (R142). -/
def Reg.HP_REGION_HI (h : Nat) (r : Nat) : Nat := 0x100104 + 0x40000 * h + 0x8 * r
def F.HP_REGION_HI_KEYIDX (h : Nat) (r : Nat) : Fld := ⟨(Reg.HP_REGION_HI h r), 0, 12⟩
def F.HP_REGION_HI_SHARE (h : Nat) (r : Nat) : Fld := ⟨(Reg.HP_REGION_HI h r), 16, 4⟩
def F.HP_REGION_HI_DC (h : Nat) (r : Nat) : Fld := ⟨(Reg.HP_REGION_HI h r), 20, 1⟩
def F.HP_REGION_HI_RO (h : Nat) (r : Nat) : Fld := ⟨(Reg.HP_REGION_HI h r), 21, 1⟩
def F.HP_REGION_HI_VALID (h : Nat) (r : Nat) : Fld := ⟨(Reg.HP_REGION_HI h r), 31, 1⟩
/-- QF_CTL (R170). -/
def Reg.QF_CTL : Nat := 0x200000
def F.QF_CTL_READY : Fld := ⟨Reg.QF_CTL, 0, 1⟩
def F.QF_CTL_CREDITS_FULL : Fld := ⟨Reg.QF_CTL, 4, 4⟩
/-- QF_POOL_STAT (R170). -/
def Reg.QF_POOL_STAT : Nat := 0x200004
def F.QF_POOL_STAT_FREE : Fld := ⟨Reg.QF_POOL_STAT, 0, 13⟩
def F.QF_POOL_STAT_RESERVED : Fld := ⟨Reg.QF_POOL_STAT, 16, 13⟩
def F.QF_POOL_STAT_SHORT : Fld := ⟨Reg.QF_POOL_STAT, 31, 1⟩
/-- QF_BIST_CTL (R170). -/
def Reg.QF_BIST_CTL : Nat := 0x200008
def F.QF_BIST_CTL_QUEUE : Fld := ⟨Reg.QF_BIST_CTL, 0, 5⟩
def F.QF_BIST_CTL_START : Fld := ⟨Reg.QF_BIST_CTL, 8, 1⟩
/-- QF_BIST_STAT (R170). -/
def Reg.QF_BIST_STAT : Nat := 0x20000c
def F.QF_BIST_STAT_PASS : Fld := ⟨Reg.QF_BIST_STAT, 0, 1⟩
def F.QF_BIST_STAT_FAIL : Fld := ⟨Reg.QF_BIST_STAT, 1, 1⟩
def F.QF_BIST_STAT_REFUSED : Fld := ⟨Reg.QF_BIST_STAT, 2, 1⟩
def F.QF_BIST_STAT_QUEUE : Fld := ⟨Reg.QF_BIST_STAT, 8, 5⟩
/-- QF_HOLD_STAT (R170). -/
def Reg.QF_HOLD_STAT : Nat := 0x200010
def F.QF_HOLD_STAT_OUT : Fld := ⟨Reg.QF_HOLD_STAT, 0, 2⟩
def F.QF_HOLD_STAT_COUNT : Fld := ⟨Reg.QF_HOLD_STAT, 16, 16⟩
/-- QF_WM (R170). -/
def Reg.QF_WM (h : Nat) : Nat := 0x200040 + 0x4 * h
def F.QF_WM_ING_HI (h : Nat) : Fld := ⟨(Reg.QF_WM h), 0, 6⟩
def F.QF_WM_ING_LO (h : Nat) : Fld := ⟨(Reg.QF_WM h), 8, 6⟩
def F.QF_WM_EGR_HI (h : Nat) : Fld := ⟨(Reg.QF_WM h), 16, 6⟩
def F.QF_WM_EGR_LO (h : Nat) : Fld := ⟨(Reg.QF_WM h), 24, 6⟩
def F.QF_WM_HOLD_HI (h : Nat) : Fld := ⟨(Reg.QF_WM h), 30, 2⟩
/-- QF_Q_STAT (R170). -/
def Reg.QF_Q_STAT (q : Nat) : Nat := 0x200100 + 0x10 * q
def F.QF_Q_STAT_MODE (q : Nat) : Fld := ⟨(Reg.QF_Q_STAT q), 0, 2⟩
def F.QF_Q_STAT_STATE (q : Nat) : Fld := ⟨(Reg.QF_Q_STAT q), 2, 1⟩
def F.QF_Q_STAT_OCC (q : Nat) : Fld := ⟨(Reg.QF_Q_STAT q), 4, 9⟩
def F.QF_Q_STAT_FULL (q : Nat) : Fld := ⟨(Reg.QF_Q_STAT q), 13, 1⟩
def F.QF_Q_STAT_WITHHELD (q : Nat) : Fld := ⟨(Reg.QF_Q_STAT q), 16, 10⟩
def F.QF_Q_STAT_HOLD_HI (q : Nat) : Fld := ⟨(Reg.QF_Q_STAT q), 26, 6⟩
/-- QF_Q_PTR (R170). -/
def Reg.QF_Q_PTR (q : Nat) : Nat := 0x200104 + 0x10 * q
def F.QF_Q_PTR_WP (q : Nat) : Fld := ⟨(Reg.QF_Q_PTR q), 0, 12⟩
def F.QF_Q_PTR_RP (q : Nat) : Fld := ⟨(Reg.QF_Q_PTR q), 16, 12⟩
/-- QF_Q_PEAK (R170). -/
def Reg.QF_Q_PEAK (q : Nat) : Nat := 0x200108 + 0x10 * q
def F.QF_Q_PEAK_OCC (q : Nat) : Fld := ⟨(Reg.QF_Q_PEAK q), 0, 10⟩
def F.QF_Q_PEAK_HOLD_LO (q : Nat) : Fld := ⟨(Reg.QF_Q_PEAK q), 16, 6⟩
/-- QF_Q_ERR (R170). -/
def Reg.QF_Q_ERR (q : Nat) : Nat := 0x20010c + 0x10 * q
def F.QF_Q_ERR_UE (q : Nat) : Fld := ⟨(Reg.QF_Q_ERR q), 0, 8⟩
def F.QF_Q_ERR_SWITCHES (q : Nat) : Fld := ⟨(Reg.QF_Q_ERR q), 8, 8⟩
def F.QF_Q_ERR_POISONED (q : Nat) : Fld := ⟨(Reg.QF_Q_ERR q), 16, 16⟩
/-- LC_CFG (R208). -/
def Reg.LC_CFG : Nat := 0x300000
def F.LC_CFG_ACTIVE : Fld := ⟨Reg.LC_CFG, 0, 16⟩
def F.LC_CFG_SLICES : Fld := ⟨Reg.LC_CFG, 16, 6⟩
/-- LC_STAT (R208). -/
def Reg.LC_STAT : Nat := 0x300004
def F.LC_STAT_READY : Fld := ⟨Reg.LC_STAT, 0, 1⟩
def F.LC_STAT_FLUSHING : Fld := ⟨Reg.LC_STAT, 1, 1⟩
def F.LC_STAT_HALTED : Fld := ⟨Reg.LC_STAT, 2, 1⟩
def F.LC_STAT_PURGING : Fld := ⟨Reg.LC_STAT, 3, 1⟩
/-- LC_CLEAN_CTL (R208). -/
def Reg.LC_CLEAN_CTL : Nat := 0x300020
def F.LC_CLEAN_CTL_START : Fld := ⟨Reg.LC_CLEAN_CTL, 0, 6⟩
def F.LC_CLEAN_CTL_STOP : Fld := ⟨Reg.LC_CLEAN_CTL, 8, 6⟩
def F.LC_CLEAN_CTL_FORCE : Fld := ⟨Reg.LC_CLEAN_CTL, 16, 1⟩
/-- LC_CLEAN_STAT (R208). -/
def Reg.LC_CLEAN_STAT : Nat := 0x300024
def F.LC_CLEAN_STAT_ACTIVE : Fld := ⟨Reg.LC_CLEAN_STAT, 0, 1⟩
def F.LC_CLEAN_STAT_RAISED : Fld := ⟨Reg.LC_CLEAN_STAT, 1, 1⟩
def F.LC_CLEAN_STAT_LINES : Fld := ⟨Reg.LC_CLEAN_STAT, 8, 24⟩
/-- LC_DIRTY (R208). -/
def Reg.LC_DIRTY : Nat := 0x300028
def F.LC_DIRTY_LINES : Fld := ⟨Reg.LC_DIRTY, 0, 22⟩
/-- LC_PURGE (R208). -/
def Reg.LC_PURGE : Nat := 0x30002c
def F.LC_PURGE_KEYIDX : Fld := ⟨Reg.LC_PURGE, 0, 12⟩
def F.LC_PURGE_ACTIVE : Fld := ⟨Reg.LC_PURGE, 16, 1⟩
/-- LC_ERR (R208). -/
def Reg.LC_ERR : Nat := 0x300030
def F.LC_ERR_DATA_UE : Fld := ⟨Reg.LC_ERR, 0, 8⟩
def F.LC_ERR_TAG_UE : Fld := ⟨Reg.LC_ERR, 8, 8⟩
def F.LC_ERR_COVE_UE : Fld := ⟨Reg.LC_ERR, 16, 8⟩
def F.LC_ERR_EB_UE : Fld := ⟨Reg.LC_ERR, 24, 8⟩
/-- LC_ERR2 (R208). -/
def Reg.LC_ERR2 : Nat := 0x300034
def F.LC_ERR2_AMQ_UE : Fld := ⟨Reg.LC_ERR2, 0, 8⟩
def F.LC_ERR2_TAG_LOST : Fld := ⟨Reg.LC_ERR2, 8, 8⟩
def F.LC_ERR2_CFG : Fld := ⟨Reg.LC_ERR2, 16, 1⟩
def F.LC_ERR2_PARTIAL_DROP : Fld := ⟨Reg.LC_ERR2, 24, 8⟩
/-- LC_LCMD_DPA_LO (R208). -/
def Reg.LC_LCMD_DPA_LO (bank : Nat) : Nat := bankStride * bank + 0x380000
def F.LC_LCMD_DPA_LO_DPA (bank : Nat) : Fld := ⟨(Reg.LC_LCMD_DPA_LO bank), 6, 26⟩
/-- LC_LCMD_DPA_HI (R208). -/
def Reg.LC_LCMD_DPA_HI (bank : Nat) : Nat := bankStride * bank + 0x380004
def F.LC_LCMD_DPA_HI_DPA (bank : Nat) : Fld := ⟨(Reg.LC_LCMD_DPA_HI bank), 0, 16⟩
/-- LC_LCMD_CTL (R208). -/
def Reg.LC_LCMD_CTL (bank : Nat) : Nat := bankStride * bank + 0x380008
def F.LC_LCMD_CTL_OP (bank : Nat) : Fld := ⟨(Reg.LC_LCMD_CTL bank), 0, 3⟩
def F.LC_LCMD_CTL_GO (bank : Nat) : Fld := ⟨(Reg.LC_LCMD_CTL bank), 3, 1⟩
def F.LC_LCMD_CTL_COUNT (bank : Nat) : Fld := ⟨(Reg.LC_LCMD_CTL bank), 4, 16⟩
def F.LC_LCMD_CTL_KEYIDX (bank : Nat) : Fld := ⟨(Reg.LC_LCMD_CTL bank), 20, 12⟩
/-- LC_LCMD_STAT (R208). -/
def Reg.LC_LCMD_STAT (bank : Nat) : Nat := bankStride * bank + 0x38000c
def F.LC_LCMD_STAT_BUSY (bank : Nat) : Fld := ⟨(Reg.LC_LCMD_STAT bank), 0, 1⟩
def F.LC_LCMD_STAT_IGNORED (bank : Nat) : Fld := ⟨(Reg.LC_LCMD_STAT bank), 1, 1⟩
def F.LC_LCMD_STAT_RESULT (bank : Nat) : Fld := ⟨(Reg.LC_LCMD_STAT bank), 4, 8⟩
def F.LC_LCMD_STAT_SKIPPED (bank : Nat) : Fld := ⟨(Reg.LC_LCMD_STAT bank), 16, 16⟩
/-- LC_LCMD_DONE (R208). -/
def Reg.LC_LCMD_DONE (bank : Nat) : Nat := bankStride * bank + 0x380010
def F.LC_LCMD_DONE_LINES (bank : Nat) : Fld := ⟨(Reg.LC_LCMD_DONE bank), 0, 17⟩
/-- LC_WAYMASK (R208). -/
def Reg.LC_WAYMASK (h : Nat) : Nat := 0x300010 + 0x4 * h
def F.LC_WAYMASK_MASK (h : Nat) : Fld := ⟨(Reg.LC_WAYMASK h), 0, 16⟩
/-- LC_S_DIRTY (R208). -/
def Reg.LC_S_DIRTY (s : Nat) : Nat := 0x301000 + 0x20 * s
def F.LC_S_DIRTY_LINES (s : Nat) : Fld := ⟨(Reg.LC_S_DIRTY s), 0, 17⟩
/-- LC_S_PIN (R208). -/
def Reg.LC_S_PIN (s : Nat) : Nat := 0x301004 + 0x20 * s
def F.LC_S_PIN_LINES (s : Nat) : Fld := ⟨(Reg.LC_S_PIN s), 0, 16⟩
/-- LC_S_BUF (R208). -/
def Reg.LC_S_BUF (s : Nat) : Nat := 0x301008 + 0x20 * s
def F.LC_S_BUF_COVE (s : Nat) : Fld := ⟨(Reg.LC_S_BUF s), 0, 8⟩
def F.LC_S_BUF_EB (s : Nat) : Fld := ⟨(Reg.LC_S_BUF s), 8, 5⟩
def F.LC_S_BUF_MERGE (s : Nat) : Fld := ⟨(Reg.LC_S_BUF s), 16, 5⟩
def F.LC_S_BUF_AMQ (s : Nat) : Fld := ⟨(Reg.LC_S_BUF s), 24, 7⟩
/-- LC_S_LFSR (R208). -/
def Reg.LC_S_LFSR (s : Nat) : Nat := 0x30100c + 0x20 * s
def F.LC_S_LFSR_STATE (s : Nat) : Fld := ⟨(Reg.LC_S_LFSR s), 0, 32⟩
/-- MED_CH_STAT (R266). -/
def Reg.MED_CH_STAT (c : Nat) : Nat := 0x400000 + 0x10000 * c
def F.MED_CH_STAT_STATE (c : Nat) : Fld := ⟨(Reg.MED_CH_STAT c), 0, 3⟩
def F.MED_CH_STAT_DIES (c : Nat) : Fld := ⟨(Reg.MED_CH_STAT c), 8, 8⟩
def F.MED_CH_STAT_WIDTH (c : Nat) : Fld := ⟨(Reg.MED_CH_STAT c), 16, 5⟩
/-- MED_CH_CTL (R266). -/
def Reg.MED_CH_CTL (c : Nat) : Nat := 0x400004 + 0x10000 * c
def F.MED_CH_CTL_DA (c : Nat) : Fld := ⟨(Reg.MED_CH_CTL c), 0, 1⟩
def F.MED_CH_CTL_RETRAIN (c : Nat) : Fld := ⟨(Reg.MED_CH_CTL c), 4, 1⟩
/-- MED_CH_BUS (R266). -/
def Reg.MED_CH_BUS (c : Nat) : Nat := 0x400008 + 0x10000 * c
def F.MED_CH_BUS_TRAINED (c : Nat) : Fld := ⟨(Reg.MED_CH_BUS c), 0, 1⟩
def F.MED_CH_BUS_RETRAINS (c : Nat) : Fld := ⟨(Reg.MED_CH_BUS c), 8, 8⟩
/-- MED_CH_RETRY (R266). -/
def Reg.MED_CH_RETRY (c : Nat) : Nat := 0x40000c + 0x10000 * c
def F.MED_CH_RETRY_STEP (c : Nat) : Fld := ⟨(Reg.MED_CH_RETRY c), 0, 8⟩
def F.MED_CH_RETRY_HIGH (c : Nat) : Fld := ⟨(Reg.MED_CH_RETRY c), 8, 12⟩
/-- MED_CH_LAT (R266). -/
def Reg.MED_CH_LAT (c : Nat) : Nat := 0x400010 + 0x10000 * c
def F.MED_CH_LAT_MAX (c : Nat) : Fld := ⟨(Reg.MED_CH_LAT c), 0, 16⟩
def F.MED_CH_LAT_OVER (c : Nat) : Fld := ⟨(Reg.MED_CH_LAT c), 16, 16⟩
/-- MED_CH_ERR (R266). -/
def Reg.MED_CH_ERR (c : Nat) : Nat := 0x400014 + 0x10000 * c
def F.MED_CH_ERR_PROG_FAIL (c : Nat) : Fld := ⟨(Reg.MED_CH_ERR c), 0, 8⟩
def F.MED_CH_ERR_ERASE_FAIL (c : Nat) : Fld := ⟨(Reg.MED_CH_ERR c), 8, 8⟩
def F.MED_CH_ERR_NOT_ERASED (c : Nat) : Fld := ⟨(Reg.MED_CH_ERR c), 16, 8⟩
def F.MED_CH_ERR_FENCES (c : Nat) : Fld := ⟨(Reg.MED_CH_ERR c), 24, 8⟩
/-- MED_CH_CNT_READ (R266). -/
def Reg.MED_CH_CNT_READ (c : Nat) : Nat := 0x400020 + 0x10000 * c
def F.MED_CH_CNT_READ_COUNT (c : Nat) : Fld := ⟨(Reg.MED_CH_CNT_READ c), 0, 32⟩
/-- MED_CH_CNT_RETRY1 (R266). -/
def Reg.MED_CH_CNT_RETRY1 (c : Nat) : Nat := 0x400024 + 0x10000 * c
def F.MED_CH_CNT_RETRY1_COUNT (c : Nat) : Fld := ⟨(Reg.MED_CH_CNT_RETRY1 c), 0, 32⟩
/-- MED_CH_CNT_RETRY2 (R266). -/
def Reg.MED_CH_CNT_RETRY2 (c : Nat) : Nat := 0x400028 + 0x10000 * c
def F.MED_CH_CNT_RETRY2_COUNT (c : Nat) : Fld := ⟨(Reg.MED_CH_CNT_RETRY2 c), 0, 32⟩
/-- MED_CH_CNT_RECON (R266). -/
def Reg.MED_CH_CNT_RECON (c : Nat) : Nat := 0x40002c + 0x10000 * c
def F.MED_CH_CNT_RECON_COUNT (c : Nat) : Fld := ⟨(Reg.MED_CH_CNT_RECON c), 0, 32⟩
/-- MED_CH_CNT_PROG (R266). -/
def Reg.MED_CH_CNT_PROG (c : Nat) : Nat := 0x400030 + 0x10000 * c
def F.MED_CH_CNT_PROG_COUNT (c : Nat) : Fld := ⟨(Reg.MED_CH_CNT_PROG c), 0, 32⟩
/-- MED_CH_CNT_ERASE (R266). -/
def Reg.MED_CH_CNT_ERASE (c : Nat) : Nat := 0x400034 + 0x10000 * c
def F.MED_CH_CNT_ERASE_COUNT (c : Nat) : Fld := ⟨(Reg.MED_CH_CNT_ERASE c), 0, 32⟩
/-- MED_CH_CNT_SUSP (R266). -/
def Reg.MED_CH_CNT_SUSP (c : Nat) : Nat := 0x400038 + 0x10000 * c
def F.MED_CH_CNT_SUSP_COUNT (c : Nat) : Fld := ⟨(Reg.MED_CH_CNT_SUSP c), 0, 32⟩
/-- MED_CH_CNT_ADMIT (R266). -/
def Reg.MED_CH_CNT_ADMIT (c : Nat) : Nat := 0x40003c + 0x10000 * c
def F.MED_CH_CNT_ADMIT_COUNT (c : Nat) : Fld := ⟨(Reg.MED_CH_CNT_ADMIT c), 0, 32⟩
/-- MED_CH_DA_ADDR (R266). -/
def Reg.MED_CH_DA_ADDR (c : Nat) : Nat := 0x400800 + 0x10000 * c
def F.MED_CH_DA_ADDR_PSA (c : Nat) : Fld := ⟨(Reg.MED_CH_DA_ADDR c), 0, 31⟩
/-- MED_CH_DA_CMD (R266). -/
def Reg.MED_CH_DA_CMD (c : Nat) : Nat := 0x400804 + 0x10000 * c
def F.MED_CH_DA_CMD_OP (c : Nat) : Fld := ⟨(Reg.MED_CH_DA_CMD c), 0, 3⟩
def F.MED_CH_DA_CMD_MODE (c : Nat) : Fld := ⟨(Reg.MED_CH_DA_CMD c), 4, 1⟩
def F.MED_CH_DA_CMD_GO (c : Nat) : Fld := ⟨(Reg.MED_CH_DA_CMD c), 8, 1⟩
/-- MED_CH_DA_STAT (R266). -/
def Reg.MED_CH_DA_STAT (c : Nat) : Nat := 0x400808 + 0x10000 * c
def F.MED_CH_DA_STAT_BUSY (c : Nat) : Fld := ⟨(Reg.MED_CH_DA_STAT c), 0, 1⟩
def F.MED_CH_DA_STAT_RESULT (c : Nat) : Fld := ⟨(Reg.MED_CH_DA_STAT c), 4, 4⟩
def F.MED_CH_DA_STAT_BITS (c : Nat) : Fld := ⟨(Reg.MED_CH_DA_STAT c), 16, 16⟩
/-- MED_CH_DA_REF_LO (R266). -/
def Reg.MED_CH_DA_REF_LO (c : Nat) : Nat := 0x40080c + 0x10000 * c
def F.MED_CH_DA_REF_LO_OFF1 (c : Nat) : Fld := ⟨(Reg.MED_CH_DA_REF_LO c), 0, 8⟩
def F.MED_CH_DA_REF_LO_OFF2 (c : Nat) : Fld := ⟨(Reg.MED_CH_DA_REF_LO c), 8, 8⟩
def F.MED_CH_DA_REF_LO_OFF3 (c : Nat) : Fld := ⟨(Reg.MED_CH_DA_REF_LO c), 16, 8⟩
def F.MED_CH_DA_REF_LO_OFF4 (c : Nat) : Fld := ⟨(Reg.MED_CH_DA_REF_LO c), 24, 8⟩
/-- MED_CH_DA_REF_HI (R266). -/
def Reg.MED_CH_DA_REF_HI (c : Nat) : Nat := 0x400810 + 0x10000 * c
def F.MED_CH_DA_REF_HI_OFF5 (c : Nat) : Fld := ⟨(Reg.MED_CH_DA_REF_HI c), 0, 8⟩
def F.MED_CH_DA_REF_HI_OFF6 (c : Nat) : Fld := ⟨(Reg.MED_CH_DA_REF_HI c), 8, 8⟩
def F.MED_CH_DA_REF_HI_OFF7 (c : Nat) : Fld := ⟨(Reg.MED_CH_DA_REF_HI c), 16, 8⟩
/-- MED_CH_D_STAT (R266). -/
def Reg.MED_CH_D_STAT (c : Nat) (d : Nat) : Nat := 0x400100 + 0x10000 * c + 0x10 * d
def F.MED_CH_D_STAT_STATE (c : Nat) (d : Nat) : Fld := ⟨(Reg.MED_CH_D_STAT c d), 0, 3⟩
def F.MED_CH_D_STAT_OP (c : Nat) (d : Nat) : Fld := ⟨(Reg.MED_CH_D_STAT c d), 4, 2⟩
def F.MED_CH_D_STAT_SUSP (c : Nat) (d : Nat) : Fld := ⟨(Reg.MED_CH_D_STAT c d), 6, 1⟩
def F.MED_CH_D_STAT_HRQ (c : Nat) (d : Nat) : Fld := ⟨(Reg.MED_CH_D_STAT c d), 8, 2⟩
def F.MED_CH_D_STAT_ADMIT (c : Nat) (d : Nat) : Fld := ⟨(Reg.MED_CH_D_STAT c d), 10, 6⟩
def F.MED_CH_D_STAT_RECON (c : Nat) (d : Nat) : Fld := ⟨(Reg.MED_CH_D_STAT c d), 16, 3⟩
/-- MED_CH_D_INC (R266). -/
def Reg.MED_CH_D_INC (c : Nat) (d : Nat) : Nat := 0x400104 + 0x10000 * c + 0x10 * d
def F.MED_CH_D_INC_VALUE (c : Nat) (d : Nat) : Fld := ⟨(Reg.MED_CH_D_INC c d), 0, 32⟩
/-- MED_CH_D_ERR (R266). -/
def Reg.MED_CH_D_ERR (c : Nat) (d : Nat) : Nat := 0x400108 + 0x10000 * c + 0x10 * d
def F.MED_CH_D_ERR_RESETS (c : Nat) (d : Nat) : Fld := ⟨(Reg.MED_CH_D_ERR c d), 0, 8⟩
def F.MED_CH_D_ERR_SUSPECT (c : Nat) (d : Nat) : Fld := ⟨(Reg.MED_CH_D_ERR c d), 8, 8⟩
def F.MED_CH_D_ERR_PAGES_BAD (c : Nat) (d : Nat) : Fld := ⟨(Reg.MED_CH_D_ERR c d), 16, 16⟩
/-- MED_CH_D_REF (R266). -/
def Reg.MED_CH_D_REF (c : Nat) (d : Nat) : Nat := 0x40010c + 0x10000 * c + 0x10 * d
def F.MED_CH_D_REF_AGE (c : Nat) (d : Nat) : Fld := ⟨(Reg.MED_CH_D_REF c d), 0, 5⟩
def F.MED_CH_D_REF_LEARN_S (c : Nat) (d : Nat) : Fld := ⟨(Reg.MED_CH_D_REF c d), 8, 8⟩
def F.MED_CH_D_REF_LEARN_D (c : Nat) (d : Nat) : Fld := ⟨(Reg.MED_CH_D_REF c d), 16, 8⟩
def F.MED_CH_D_REF_LAST_SHIFT (c : Nat) (d : Nat) : Fld := ⟨(Reg.MED_CH_D_REF c d), 24, 8⟩
/-- MTL_STAT (R318). -/
def Reg.MTL_STAT : Nat := 0x500000
def F.MTL_STAT_STATE : Fld := ⟨Reg.MTL_STAT, 0, 3⟩
def F.MTL_STAT_SHRINK : Fld := ⟨Reg.MTL_STAT, 4, 1⟩
def F.MTL_STAT_REBUILD : Fld := ⟨Reg.MTL_STAT, 5, 1⟩
/-- MTL_SHALLOWS (R318). -/
def Reg.MTL_SHALLOWS : Nat := 0x500004
def F.MTL_SHALLOWS_SIZE : Fld := ⟨Reg.MTL_SHALLOWS, 0, 16⟩
def F.MTL_SHALLOWS_USED : Fld := ⟨Reg.MTL_SHALLOWS, 16, 16⟩
/-- MTL_FREE (R318). -/
def Reg.MTL_FREE : Nat := 0x500008
def F.MTL_FREE_SETS : Fld := ⟨Reg.MTL_FREE, 0, 18⟩
def F.MTL_FREE_OPEN : Fld := ⟨Reg.MTL_FREE, 24, 4⟩
/-- MTL_SPARE (R318). -/
def Reg.MTL_SPARE : Nat := 0x50000c
def F.MTL_SPARE_H : Fld := ⟨Reg.MTL_SPARE, 0, 23⟩
/-- MTL_CTL (R318). -/
def Reg.MTL_CTL : Nat := 0x500010
def F.MTL_CTL_AGE : Fld := ⟨Reg.MTL_CTL, 0, 10⟩
def F.MTL_CTL_COOL : Fld := ⟨Reg.MTL_CTL, 12, 8⟩
/-- MTL_DREDGE_CTL (R318). -/
def Reg.MTL_DREDGE_CTL : Nat := 0x500014
def F.MTL_DREDGE_CTL_START : Fld := ⟨Reg.MTL_DREDGE_CTL, 0, 10⟩
def F.MTL_DREDGE_CTL_STOP : Fld := ⟨Reg.MTL_DREDGE_CTL, 12, 10⟩
def F.MTL_DREDGE_CTL_LEVEL : Fld := ⟨Reg.MTL_DREDGE_CTL, 24, 8⟩
/-- MTL_SHARE (R318). -/
def Reg.MTL_SHARE : Nat := 0x500018
def F.MTL_SHARE_ROW : Fld := ⟨Reg.MTL_SHARE, 0, 3⟩
def F.MTL_SHARE_F : Fld := ⟨Reg.MTL_SHARE, 8, 7⟩
/-- MTL_WSEQ_LO (R318). -/
def Reg.MTL_WSEQ_LO : Nat := 0x500020
def F.MTL_WSEQ_LO_SEQ : Fld := ⟨Reg.MTL_WSEQ_LO, 0, 32⟩
/-- MTL_WSEQ_HI (R318). -/
def Reg.MTL_WSEQ_HI : Nat := 0x500024
def F.MTL_WSEQ_HI_SEQ : Fld := ⟨Reg.MTL_WSEQ_HI, 0, 32⟩
/-- MTL_JSEQ_LO (R318). -/
def Reg.MTL_JSEQ_LO : Nat := 0x500028
def F.MTL_JSEQ_LO_SEQ : Fld := ⟨Reg.MTL_JSEQ_LO, 0, 32⟩
/-- MTL_JSEQ_HI (R318). -/
def Reg.MTL_JSEQ_HI : Nat := 0x50002c
def F.MTL_JSEQ_HI_SEQ : Fld := ⟨Reg.MTL_JSEQ_HI, 0, 32⟩
/-- MTL_FINE (R318). -/
def Reg.MTL_FINE : Nat := 0x500030
def F.MTL_FINE_ENTRIES : Fld := ⟨Reg.MTL_FINE, 0, 29⟩
/-- MTL_MERGE (R318). -/
def Reg.MTL_MERGE : Nat := 0x500034
def F.MTL_MERGE_RECORDS : Fld := ⟨Reg.MTL_MERGE, 0, 23⟩
def F.MTL_MERGE_WAITS : Fld := ⟨Reg.MTL_MERGE, 24, 8⟩
/-- MTL_LIFE (R318). -/
def Reg.MTL_LIFE : Nat := 0x500038
def F.MTL_LIFE_S : Fld := ⟨Reg.MTL_LIFE, 0, 16⟩
def F.MTL_LIFE_D : Fld := ⟨Reg.MTL_LIFE, 16, 16⟩
/-- MTL_CKPT (R318). -/
def Reg.MTL_CKPT : Nat := 0x50003c
def F.MTL_CKPT_GEN : Fld := ⟨Reg.MTL_CKPT, 0, 16⟩
def F.MTL_CKPT_AGE : Fld := ⟨Reg.MTL_CKPT, 16, 16⟩
/-- MTL_RECOVERY (R318). -/
def Reg.MTL_RECOVERY : Nat := 0x500040
def F.MTL_RECOVERY_TIME : Fld := ⟨Reg.MTL_RECOVERY, 0, 16⟩
def F.MTL_RECOVERY_FLUSHED : Fld := ⟨Reg.MTL_RECOVERY, 16, 1⟩
/-- MTL_ERR (R318). -/
def Reg.MTL_ERR : Nat := 0x500044
def F.MTL_ERR_MAP_UE : Fld := ⟨Reg.MTL_ERR, 0, 8⟩
def F.MTL_ERR_MAP_LOST : Fld := ⟨Reg.MTL_ERR, 8, 8⟩
def F.MTL_ERR_RETIRED : Fld := ⟨Reg.MTL_ERR, 16, 8⟩
def F.MTL_ERR_CFG : Fld := ⟨Reg.MTL_ERR, 24, 1⟩
/-- MTL_CNT_FOLD (R318). -/
def Reg.MTL_CNT_FOLD : Nat := 0x500050
def F.MTL_CNT_FOLD_COUNT : Fld := ⟨Reg.MTL_CNT_FOLD, 0, 32⟩
/-- MTL_CNT_DREDGE (R318). -/
def Reg.MTL_CNT_DREDGE : Nat := 0x500054
def F.MTL_CNT_DREDGE_COUNT : Fld := ⟨Reg.MTL_CNT_DREDGE, 0, 32⟩
/-- ICU_STAT (R369). -/
def Reg.ICU_STAT : Nat := 0x600000
def F.ICU_STAT_STATE : Fld := ⟨Reg.ICU_STAT, 0, 3⟩
def F.ICU_STAT_HALT_PENDING : Fld := ⟨Reg.ICU_STAT, 4, 1⟩
def F.ICU_STAT_ROOT_UNCLEAN : Fld := ⟨Reg.ICU_STAT, 5, 1⟩
/-- ICU_PIPES (R369). -/
def Reg.ICU_PIPES : Nat := 0x600004
def F.ICU_PIPES_SEAL : Fld := ⟨Reg.ICU_PIPES, 0, 4⟩
def F.ICU_PIPES_OPEN : Fld := ⟨Reg.ICU_PIPES, 8, 4⟩
/-- ICU_TREE (R369). -/
def Reg.ICU_TREE : Nat := 0x600008
def F.ICU_TREE_NODESETS : Fld := ⟨Reg.ICU_TREE, 0, 12⟩
def F.ICU_TREE_ONDIE : Fld := ⟨Reg.ICU_TREE, 16, 16⟩
/-- ICU_DIRTY (R369). -/
def Reg.ICU_DIRTY : Nat := 0x60000c
def F.ICU_DIRTY_GROUPS : Fld := ⟨Reg.ICU_DIRTY, 0, 14⟩
def F.ICU_DIRTY_NODES : Fld := ⟨Reg.ICU_DIRTY, 16, 14⟩
/-- ICU_HALT_CTL (R369). -/
def Reg.ICU_HALT_CTL : Nat := 0x600010
def F.ICU_HALT_CTL_DISCARD : Fld := ⟨Reg.ICU_HALT_CTL, 0, 1⟩
/-- ICU_HALT_CAUSE (R369). -/
def Reg.ICU_HALT_CAUSE : Nat := 0x600014
def F.ICU_HALT_CAUSE_KIND : Fld := ⟨Reg.ICU_HALT_CAUSE, 0, 3⟩
def F.ICU_HALT_CAUSE_PATH : Fld := ⟨Reg.ICU_HALT_CAUSE, 8, 3⟩
def F.ICU_HALT_CAUSE_COUNT : Fld := ⟨Reg.ICU_HALT_CAUSE, 16, 16⟩
/-- ICU_HALT_ID_LO (R369). -/
def Reg.ICU_HALT_ID_LO : Nat := 0x600018
def F.ICU_HALT_ID_LO_ID : Fld := ⟨Reg.ICU_HALT_ID_LO, 0, 32⟩
/-- ICU_HALT_ID_HI (R369). -/
def Reg.ICU_HALT_ID_HI : Nat := 0x60001c
def F.ICU_HALT_ID_HI_ID : Fld := ⟨Reg.ICU_HALT_ID_HI, 0, 32⟩
/-- ICU_SHORE_STAT (R369). -/
def Reg.ICU_SHORE_STAT : Nat := 0x600030
def F.ICU_SHORE_STAT_STATE : Fld := ⟨Reg.ICU_SHORE_STAT, 0, 3⟩
def F.ICU_SHORE_STAT_KEYIDX : Fld := ⟨Reg.ICU_SHORE_STAT, 4, 12⟩
def F.ICU_SHORE_STAT_OLD_GEN : Fld := ⟨Reg.ICU_SHORE_STAT, 16, 8⟩
def F.ICU_SHORE_STAT_NEW_GEN : Fld := ⟨Reg.ICU_SHORE_STAT, 24, 8⟩
/-- ICU_SHORE_CNT (R369). -/
def Reg.ICU_SHORE_CNT : Nat := 0x600034
def F.ICU_SHORE_CNT_DONE : Fld := ⟨Reg.ICU_SHORE_CNT, 0, 27⟩
/-- ICU_SHORE_POS_LO (R369). -/
def Reg.ICU_SHORE_POS_LO : Nat := 0x600038
def F.ICU_SHORE_POS_LO_LINE : Fld := ⟨Reg.ICU_SHORE_POS_LO, 0, 32⟩
/-- ICU_SHORE_POS_HI (R369). -/
def Reg.ICU_SHORE_POS_HI : Nat := 0x60003c
def F.ICU_SHORE_POS_HI_LINE : Fld := ⟨Reg.ICU_SHORE_POS_HI, 0, 16⟩
/-- ICU_SHORE_END_LO (R369). -/
def Reg.ICU_SHORE_END_LO : Nat := 0x600040
def F.ICU_SHORE_END_LO_LINE : Fld := ⟨Reg.ICU_SHORE_END_LO, 0, 32⟩
/-- ICU_SHORE_END_HI (R369). -/
def Reg.ICU_SHORE_END_HI : Nat := 0x600044
def F.ICU_SHORE_END_HI_LINE : Fld := ⟨Reg.ICU_SHORE_END_HI, 0, 16⟩
/-- ICU_SHORE_SKIP (R369). -/
def Reg.ICU_SHORE_SKIP : Nat := 0x600048
def F.ICU_SHORE_SKIP_REACHES : Fld := ⟨Reg.ICU_SHORE_SKIP, 0, 27⟩
/-- ICU_CNT_SEAL (R369). -/
def Reg.ICU_CNT_SEAL : Nat := 0x600050
def F.ICU_CNT_SEAL_COUNT : Fld := ⟨Reg.ICU_CNT_SEAL, 0, 32⟩
/-- ICU_CNT_OPEN (R369). -/
def Reg.ICU_CNT_OPEN : Nat := 0x600054
def F.ICU_CNT_OPEN_COUNT : Fld := ⟨Reg.ICU_CNT_OPEN, 0, 32⟩
/-- ICU_CNT_NODE_MEDIA (R369). -/
def Reg.ICU_CNT_NODE_MEDIA : Nat := 0x600058
def F.ICU_CNT_NODE_MEDIA_COUNT : Fld := ⟨Reg.ICU_CNT_NODE_MEDIA, 0, 32⟩
/-- ICU_CNT_REMAC (R369). -/
def Reg.ICU_CNT_REMAC : Nat := 0x60005c
def F.ICU_CNT_REMAC_COUNT : Fld := ⟨Reg.ICU_CNT_REMAC, 0, 32⟩
/-- ICU_ERR (R369). -/
def Reg.ICU_ERR : Nat := 0x600060
def F.ICU_ERR_CHECK : Fld := ⟨Reg.ICU_ERR, 0, 8⟩
def F.ICU_ERR_NODE_COPY : Fld := ⟨Reg.ICU_ERR, 8, 8⟩
def F.ICU_ERR_QUAR : Fld := ⟨Reg.ICU_ERR, 16, 8⟩
def F.ICU_ERR_OVERFLOW : Fld := ⟨Reg.ICU_ERR, 24, 8⟩
/-- ICU_QUAR_STAT (R369). -/
def Reg.ICU_QUAR_STAT : Nat := 0x600064
def F.ICU_QUAR_STAT_COUNT : Fld := ⟨Reg.ICU_QUAR_STAT, 0, 7⟩
def F.ICU_QUAR_STAT_WIDENED : Fld := ⟨Reg.ICU_QUAR_STAT, 7, 1⟩
/-- ICU_QUAR_LO (R369). -/
def Reg.ICU_QUAR_LO (q : Nat) : Nat := 0x600100 + 0x8 * q
def F.ICU_QUAR_LO_INDEX (q : Nat) : Fld := ⟨(Reg.ICU_QUAR_LO q), 0, 32⟩
/-- ICU_QUAR_HI (R369). -/
def Reg.ICU_QUAR_HI (q : Nat) : Nat := 0x600104 + 0x8 * q
def F.ICU_QUAR_HI_INDEX (q : Nat) : Fld := ⟨(Reg.ICU_QUAR_HI q), 0, 6⟩
def F.ICU_QUAR_HI_LEVEL (q : Nat) : Fld := ⟨(Reg.ICU_QUAR_HI q), 8, 4⟩
def F.ICU_QUAR_HI_VALID (q : Nat) : Fld := ⟨(Reg.ICU_QUAR_HI q), 31, 1⟩
/-- KV_STAT (R404). -/
def Reg.KV_STAT : Nat := 0x700000
def F.KV_STAT_VAULT : Fld := ⟨Reg.KV_STAT, 0, 2⟩
def F.KV_STAT_RNG : Fld := ⟨Reg.KV_STAT, 4, 2⟩
def F.KV_STAT_POLICY : Fld := ⟨Reg.KV_STAT, 8, 1⟩
def F.KV_STAT_SEAL : Fld := ⟨Reg.KV_STAT, 9, 1⟩
def F.KV_STAT_LOST : Fld := ⟨Reg.KV_STAT, 16, 13⟩
/-- KV_CTX_SEL (R404). -/
def Reg.KV_CTX_SEL (bank : Nat) : Nat := bankStride * bank + 0x700004
def F.KV_CTX_SEL_INDEX (bank : Nat) : Fld := ⟨(Reg.KV_CTX_SEL bank), 0, 12⟩
/-- KV_CTX_INFO (R404). -/
def Reg.KV_CTX_INFO : Nat := 0x700008
def F.KV_CTX_INFO_STATE : Fld := ⟨Reg.KV_CTX_INFO, 0, 2⟩
def F.KV_CTX_INFO_CUR : Fld := ⟨Reg.KV_CTX_INFO, 8, 8⟩
def F.KV_CTX_INFO_NEW : Fld := ⟨Reg.KV_CTX_INFO, 16, 8⟩
def F.KV_CTX_INFO_JOB : Fld := ⟨Reg.KV_CTX_INFO, 24, 1⟩
/-- KV_SLOT_SEL (R404). -/
def Reg.KV_SLOT_SEL (bank : Nat) : Nat := bankStride * bank + 0x70000c
def F.KV_SLOT_SEL_SLOT (bank : Nat) : Fld := ⟨(Reg.KV_SLOT_SEL bank), 0, 8⟩
/-- KV_SLOT_INFO (R404). -/
def Reg.KV_SLOT_INFO : Nat := 0x700010
def F.KV_SLOT_INFO_STATE : Fld := ⟨Reg.KV_SLOT_INFO, 0, 2⟩
def F.KV_SLOT_INFO_USAGE : Fld := ⟨Reg.KV_SLOT_INFO, 8, 6⟩
def F.KV_SLOT_INFO_OWNER : Fld := ⟨Reg.KV_SLOT_INFO, 16, 6⟩
def F.KV_SLOT_INFO_KLEN : Fld := ⟨Reg.KV_SLOT_INFO, 24, 1⟩
/-- KV_SLOT_CNT_LO (R404). -/
def Reg.KV_SLOT_CNT_LO : Nat := 0x700014
def F.KV_SLOT_CNT_LO_C : Fld := ⟨Reg.KV_SLOT_CNT_LO, 0, 32⟩
/-- KV_SLOT_CNT_HI (R404). -/
def Reg.KV_SLOT_CNT_HI : Nat := 0x700018
def F.KV_SLOT_CNT_HI_C : Fld := ⟨Reg.KV_SLOT_CNT_HI, 0, 16⟩
/-- KV_SLOT_RES_LO (R404). -/
def Reg.KV_SLOT_RES_LO : Nat := 0x70001c
def F.KV_SLOT_RES_LO_V : Fld := ⟨Reg.KV_SLOT_RES_LO, 0, 32⟩
/-- KV_SLOT_RES_HI (R404). -/
def Reg.KV_SLOT_RES_HI : Nat := 0x700020
def F.KV_SLOT_RES_HI_V : Fld := ⟨Reg.KV_SLOT_RES_HI, 0, 16⟩
/-- KV_SLOT_INST (R404). -/
def Reg.KV_SLOT_INST : Nat := 0x700024
def F.KV_SLOT_INST_I : Fld := ⟨Reg.KV_SLOT_INST, 0, 28⟩
/-- KV_KEK (R404). -/
def Reg.KV_KEK : Nat := 0x700028
def F.KV_KEK_VALID : Fld := ⟨Reg.KV_KEK, 0, 16⟩
/-- KV_RNG (R404). -/
def Reg.KV_RNG : Nat := 0x70002c
def F.KV_RNG_RCT_FAIL : Fld := ⟨Reg.KV_RNG, 0, 8⟩
def F.KV_RNG_APT_FAIL : Fld := ⟨Reg.KV_RNG, 8, 8⟩
def F.KV_RNG_RESEEDS : Fld := ⟨Reg.KV_RNG, 16, 16⟩
/-- KV_ALARM (R404). -/
def Reg.KV_ALARM : Nat := 0x700030
def F.KV_ALARM_COUNT : Fld := ⟨Reg.KV_ALARM, 0, 8⟩
def F.KV_ALARM_SOURCE : Fld := ⟨Reg.KV_ALARM, 8, 4⟩
def F.KV_ALARM_SEAL_PIPES : Fld := ⟨Reg.KV_ALARM, 16, 4⟩
def F.KV_ALARM_ERASED : Fld := ⟨Reg.KV_ALARM, 24, 1⟩
/-- KV_LEDGER (R404). -/
def Reg.KV_LEDGER : Nat := 0x700034
def F.KV_LEDGER_ENTRIES : Fld := ⟨Reg.KV_LEDGER, 0, 24⟩
def F.KV_LEDGER_COPY_BAD : Fld := ⟨Reg.KV_LEDGER, 24, 8⟩
/-- KV_CNT_JOBS (R404). -/
def Reg.KV_CNT_JOBS : Nat := 0x700040
def F.KV_CNT_JOBS_COUNT : Fld := ⟨Reg.KV_CNT_JOBS, 0, 32⟩
/-- KV_CNT_AUTHFAIL (R404). -/
def Reg.KV_CNT_AUTHFAIL : Nat := 0x700044
def F.KV_CNT_AUTHFAIL_COUNT : Fld := ⟨Reg.KV_CNT_AUTHFAIL, 0, 32⟩
/-- KV_JQ_CFG (R404). -/
def Reg.KV_JQ_CFG (q : Nat) : Nat := 0x701000 + 0x40 * q
def F.KV_JQ_CFG_OWNER (q : Nat) : Fld := ⟨(Reg.KV_JQ_CFG q), 0, 3⟩
def F.KV_JQ_CFG_EN (q : Nat) : Fld := ⟨(Reg.KV_JQ_CFG q), 8, 1⟩
def F.KV_JQ_CFG_SIZE (q : Nat) : Fld := ⟨(Reg.KV_JQ_CFG q), 16, 4⟩
def F.KV_JQ_CFG_VEC (q : Nat) : Fld := ⟨(Reg.KV_JQ_CFG q), 24, 5⟩
/-- KV_JQ_STAT (R404). -/
def Reg.KV_JQ_STAT (q : Nat) : Nat := 0x701004 + 0x40 * q
def F.KV_JQ_STAT_STATE (q : Nat) : Fld := ⟨(Reg.KV_JQ_STAT q), 0, 2⟩
def F.KV_JQ_STAT_CAUSE (q : Nat) : Fld := ⟨(Reg.KV_JQ_STAT q), 4, 4⟩
def F.KV_JQ_STAT_BUSY (q : Nat) : Fld := ⟨(Reg.KV_JQ_STAT q), 8, 1⟩
/-- KV_JQ_DBASE_LO (R404). -/
def Reg.KV_JQ_DBASE_LO (q : Nat) : Nat := 0x701008 + 0x40 * q
def F.KV_JQ_DBASE_LO_DPA (q : Nat) : Fld := ⟨(Reg.KV_JQ_DBASE_LO q), 12, 20⟩
/-- KV_JQ_DBASE_HI (R404). -/
def Reg.KV_JQ_DBASE_HI (q : Nat) : Nat := 0x70100c + 0x40 * q
def F.KV_JQ_DBASE_HI_DPA (q : Nat) : Fld := ⟨(Reg.KV_JQ_DBASE_HI q), 0, 16⟩
/-- KV_JQ_CBASE_LO (R404). -/
def Reg.KV_JQ_CBASE_LO (q : Nat) : Nat := 0x701010 + 0x40 * q
def F.KV_JQ_CBASE_LO_DPA (q : Nat) : Fld := ⟨(Reg.KV_JQ_CBASE_LO q), 12, 20⟩
/-- KV_JQ_CBASE_HI (R404). -/
def Reg.KV_JQ_CBASE_HI (q : Nat) : Nat := 0x701014 + 0x40 * q
def F.KV_JQ_CBASE_HI_DPA (q : Nat) : Fld := ⟨(Reg.KV_JQ_CBASE_HI q), 0, 16⟩
/-- KV_JQ_TAIL (R404). -/
def Reg.KV_JQ_TAIL (q : Nat) : Nat := 0x701018 + 0x40 * q
def F.KV_JQ_TAIL_INDEX (q : Nat) : Fld := ⟨(Reg.KV_JQ_TAIL q), 0, 12⟩
/-- KV_JQ_HEAD (R404). -/
def Reg.KV_JQ_HEAD (q : Nat) : Nat := 0x70101c + 0x40 * q
def F.KV_JQ_HEAD_INDEX (q : Nat) : Fld := ⟨(Reg.KV_JQ_HEAD q), 0, 12⟩
/-- KV_JQ_CTAIL (R404). -/
def Reg.KV_JQ_CTAIL (q : Nat) : Nat := 0x701020 + 0x40 * q
def F.KV_JQ_CTAIL_INDEX (q : Nat) : Fld := ⟨(Reg.KV_JQ_CTAIL q), 0, 12⟩
def F.KV_JQ_CTAIL_PHASE (q : Nat) : Fld := ⟨(Reg.KV_JQ_CTAIL q), 16, 1⟩
/-- KV_JQ_KIDX (R404). -/
def Reg.KV_JQ_KIDX (q : Nat) : Nat := 0x701024 + 0x40 * q
def F.KV_JQ_KIDX_INDEX (q : Nat) : Fld := ⟨(Reg.KV_JQ_KIDX q), 0, 12⟩
/-- MEMP_STAT (R437). -/
def Reg.MEMP_STAT : Nat := 0x900000
def F.MEMP_STAT_INIT : Fld := ⟨Reg.MEMP_STAT, 0, 1⟩
def F.MEMP_STAT_SCRUB : Fld := ⟨Reg.MEMP_STAT, 1, 1⟩
/-- MEMP_SCRUB_CTL (R437). -/
def Reg.MEMP_SCRUB_CTL : Nat := 0x900004
def F.MEMP_SCRUB_CTL_FAST : Fld := ⟨Reg.MEMP_SCRUB_CTL, 0, 1⟩
/-- MEMP_CE_THRESH (R437). -/
def Reg.MEMP_CE_THRESH : Nat := 0x900008
def F.MEMP_CE_THRESH_LIMIT : Fld := ⟨Reg.MEMP_CE_THRESH, 0, 16⟩
/-- MEMP_STUCK_STAT (R437). -/
def Reg.MEMP_STUCK_STAT : Nat := 0x90000c
def F.MEMP_STUCK_STAT_COUNT : Fld := ⟨Reg.MEMP_STUCK_STAT, 0, 9⟩
def F.MEMP_STUCK_STAT_OVERFLOW : Fld := ⟨Reg.MEMP_STUCK_STAT, 16, 1⟩
/-- MEMP_INJ_SEL (R437). -/
def Reg.MEMP_INJ_SEL : Nat := 0x900a00
def F.MEMP_INJ_SEL_POINT : Fld := ⟨Reg.MEMP_INJ_SEL, 0, 8⟩
def F.MEMP_INJ_SEL_INST : Fld := ⟨Reg.MEMP_INJ_SEL, 8, 8⟩
/-- MEMP_INJ_CTL (R437). -/
def Reg.MEMP_INJ_CTL : Nat := 0x900a04
def F.MEMP_INJ_CTL_MODE : Fld := ⟨Reg.MEMP_INJ_CTL, 0, 2⟩
def F.MEMP_INJ_CTL_SIDE : Fld := ⟨Reg.MEMP_INJ_CTL, 2, 1⟩
def F.MEMP_INJ_CTL_MATCH : Fld := ⟨Reg.MEMP_INJ_CTL, 3, 1⟩
def F.MEMP_INJ_CTL_SCRUB_EXCL : Fld := ⟨Reg.MEMP_INJ_CTL, 4, 1⟩
def F.MEMP_INJ_CTL_BIT0 : Fld := ⟨Reg.MEMP_INJ_CTL, 8, 7⟩
def F.MEMP_INJ_CTL_BIT1 : Fld := ⟨Reg.MEMP_INJ_CTL, 16, 7⟩
def F.MEMP_INJ_CTL_ARM : Fld := ⟨Reg.MEMP_INJ_CTL, 31, 1⟩
/-- MEMP_INJ_ADDR (R437). -/
def Reg.MEMP_INJ_ADDR : Nat := 0x900a08
def F.MEMP_INJ_ADDR_WORD : Fld := ⟨Reg.MEMP_INJ_ADDR, 0, 32⟩
/-- MEMP_INJ_STAT (R437). -/
def Reg.MEMP_INJ_STAT : Nat := 0x900a0c
def F.MEMP_INJ_STAT_FIRED : Fld := ⟨Reg.MEMP_INJ_STAT, 0, 1⟩
def F.MEMP_INJ_STAT_REFUSED : Fld := ⟨Reg.MEMP_INJ_STAT, 1, 1⟩
def F.MEMP_INJ_STAT_REASON : Fld := ⟨Reg.MEMP_INJ_STAT, 4, 4⟩
def F.MEMP_INJ_STAT_AGENT : Fld := ⟨Reg.MEMP_INJ_STAT, 8, 2⟩
/-- MEMP_CE (R437). -/
def Reg.MEMP_CE (c : Nat) : Nat := 0x900040 + 0x4 * c
def F.MEMP_CE_COUNT (c : Nat) : Fld := ⟨(Reg.MEMP_CE c), 0, 32⟩
/-- MEMP_CE_EPOCH (R437). -/
def Reg.MEMP_CE_EPOCH (c : Nat) : Nat := 0x900080 + 0x4 * c
def F.MEMP_CE_EPOCH_COUNT (c : Nat) : Fld := ⟨(Reg.MEMP_CE_EPOCH c), 0, 32⟩
/-- MEMP_UE (R437). -/
def Reg.MEMP_UE (c : Nat) : Nat := 0x9000c0 + 0x4 * c
def F.MEMP_UE_COUNT (c : Nat) : Fld := ⟨(Reg.MEMP_UE c), 0, 16⟩
/-- MEMP_STUCK_LO (R437). -/
def Reg.MEMP_STUCK_LO (k : Nat) : Nat := 0x900200 + 0x8 * k
def F.MEMP_STUCK_LO_WORD (k : Nat) : Fld := ⟨(Reg.MEMP_STUCK_LO k), 0, 32⟩
/-- MEMP_STUCK_HI (R437). -/
def Reg.MEMP_STUCK_HI (k : Nat) : Nat := 0x900204 + 0x8 * k
def F.MEMP_STUCK_HI_CLASS (k : Nat) : Fld := ⟨(Reg.MEMP_STUCK_HI k), 0, 4⟩
def F.MEMP_STUCK_HI_INST (k : Nat) : Fld := ⟨(Reg.MEMP_STUCK_HI k), 8, 8⟩
def F.MEMP_STUCK_HI_BIT (k : Nat) : Fld := ⟨(Reg.MEMP_STUCK_HI k), 16, 7⟩
def F.MEMP_STUCK_HI_HITS (k : Nat) : Fld := ⟨(Reg.MEMP_STUCK_HI k), 24, 7⟩
def F.MEMP_STUCK_HI_VALID (k : Nat) : Fld := ⟨(Reg.MEMP_STUCK_HI k), 31, 1⟩
/-- DMV_STAT (R438). -/
def Reg.DMV_STAT : Nat := 0x800000
def F.DMV_STAT_RUNNING : Fld := ⟨Reg.DMV_STAT, 0, 16⟩
def F.DMV_STAT_HALTED : Fld := ⟨Reg.DMV_STAT, 16, 16⟩
/-- DMV_CH_CFG (R438). -/
def Reg.DMV_CH_CFG (n : Nat) : Nat := 0x800100 + 0x40 * n
def F.DMV_CH_CFG_OWNER (n : Nat) : Fld := ⟨(Reg.DMV_CH_CFG n), 0, 3⟩
def F.DMV_CH_CFG_EN (n : Nat) : Fld := ⟨(Reg.DMV_CH_CFG n), 8, 1⟩
def F.DMV_CH_CFG_SIZE (n : Nat) : Fld := ⟨(Reg.DMV_CH_CFG n), 16, 4⟩
def F.DMV_CH_CFG_VEC (n : Nat) : Fld := ⟨(Reg.DMV_CH_CFG n), 24, 5⟩
/-- DMV_CH_STAT (R438). -/
def Reg.DMV_CH_STAT (n : Nat) : Nat := 0x800104 + 0x40 * n
def F.DMV_CH_STAT_STATE (n : Nat) : Fld := ⟨(Reg.DMV_CH_STAT n), 0, 2⟩
def F.DMV_CH_STAT_CAUSE (n : Nat) : Fld := ⟨(Reg.DMV_CH_STAT n), 4, 4⟩
def F.DMV_CH_STAT_BUSY (n : Nat) : Fld := ⟨(Reg.DMV_CH_STAT n), 8, 1⟩
/-- DMV_CH_DBASE_LO (R438). -/
def Reg.DMV_CH_DBASE_LO (n : Nat) : Nat := 0x800108 + 0x40 * n
def F.DMV_CH_DBASE_LO_DPA (n : Nat) : Fld := ⟨(Reg.DMV_CH_DBASE_LO n), 12, 20⟩
/-- DMV_CH_DBASE_HI (R438). -/
def Reg.DMV_CH_DBASE_HI (n : Nat) : Nat := 0x80010c + 0x40 * n
def F.DMV_CH_DBASE_HI_DPA (n : Nat) : Fld := ⟨(Reg.DMV_CH_DBASE_HI n), 0, 16⟩
/-- DMV_CH_CBASE_LO (R438). -/
def Reg.DMV_CH_CBASE_LO (n : Nat) : Nat := 0x800110 + 0x40 * n
def F.DMV_CH_CBASE_LO_DPA (n : Nat) : Fld := ⟨(Reg.DMV_CH_CBASE_LO n), 12, 20⟩
/-- DMV_CH_CBASE_HI (R438). -/
def Reg.DMV_CH_CBASE_HI (n : Nat) : Nat := 0x800114 + 0x40 * n
def F.DMV_CH_CBASE_HI_DPA (n : Nat) : Fld := ⟨(Reg.DMV_CH_CBASE_HI n), 0, 16⟩
/-- DMV_CH_TAIL (R438). -/
def Reg.DMV_CH_TAIL (n : Nat) : Nat := 0x800118 + 0x40 * n
def F.DMV_CH_TAIL_INDEX (n : Nat) : Fld := ⟨(Reg.DMV_CH_TAIL n), 0, 12⟩
/-- DMV_CH_HEAD (R438). -/
def Reg.DMV_CH_HEAD (n : Nat) : Nat := 0x80011c + 0x40 * n
def F.DMV_CH_HEAD_INDEX (n : Nat) : Fld := ⟨(Reg.DMV_CH_HEAD n), 0, 12⟩
/-- DMV_CH_CTAIL (R438). -/
def Reg.DMV_CH_CTAIL (n : Nat) : Nat := 0x800120 + 0x40 * n
def F.DMV_CH_CTAIL_INDEX (n : Nat) : Fld := ⟨(Reg.DMV_CH_CTAIL n), 0, 12⟩
def F.DMV_CH_CTAIL_PHASE (n : Nat) : Fld := ⟨(Reg.DMV_CH_CTAIL n), 16, 1⟩
/-- DMV_CH_KIDX (R438). -/
def Reg.DMV_CH_KIDX (n : Nat) : Nat := 0x800124 + 0x40 * n
def F.DMV_CH_KIDX_INDEX (n : Nat) : Fld := ⟨(Reg.DMV_CH_KIDX n), 0, 12⟩
/-- DMV_CH_CTL (R438). -/
def Reg.DMV_CH_CTL (n : Nat) : Nat := 0x800128 + 0x40 * n
def F.DMV_CH_CTL_ACTION (n : Nat) : Fld := ⟨(Reg.DMV_CH_CTL n), 0, 2⟩
/-- DMV_CH_FAULT_LO (R438). -/
def Reg.DMV_CH_FAULT_LO (n : Nat) : Nat := 0x80012c + 0x40 * n
def F.DMV_CH_FAULT_LO_DPA (n : Nat) : Fld := ⟨(Reg.DMV_CH_FAULT_LO n), 6, 26⟩
/-- DMV_CH_FAULT_HI (R438). -/
def Reg.DMV_CH_FAULT_HI (n : Nat) : Nat := 0x800130 + 0x40 * n
def F.DMV_CH_FAULT_HI_DPA (n : Nat) : Fld := ⟨(Reg.DMV_CH_FAULT_HI n), 0, 16⟩
/-- DMV_CH_DONE (R438). -/
def Reg.DMV_CH_DONE (n : Nat) : Nat := 0x800134 + 0x40 * n
def F.DMV_CH_DONE_LINES (n : Nat) : Fld := ⟨(Reg.DMV_CH_DONE n), 0, 21⟩
/-- MGMT_STAT (R476). -/
def Reg.MGMT_STAT : Nat := 0xa00000
def F.MGMT_STAT_CORES : Fld := ⟨Reg.MGMT_STAT, 0, 4⟩
def F.MGMT_STAT_MODE : Fld := ⟨Reg.MGMT_STAT, 4, 2⟩
def F.MGMT_STAT_HALF : Fld := ⟨Reg.MGMT_STAT, 6, 1⟩
/-- MGMT_LC (R476). -/
def Reg.MGMT_LC : Nat := 0xa00004
def F.MGMT_LC_STATE : Fld := ⟨Reg.MGMT_LC, 0, 2⟩
def F.MGMT_LC_BUSY : Fld := ⟨Reg.MGMT_LC, 4, 1⟩
def F.MGMT_LC_RETIRE_DONE : Fld := ⟨Reg.MGMT_LC, 5, 1⟩
/-- MGMT_LC_CHAL_LO (R476). -/
def Reg.MGMT_LC_CHAL_LO : Nat := 0xa00008
def F.MGMT_LC_CHAL_LO_VALUE : Fld := ⟨Reg.MGMT_LC_CHAL_LO, 0, 32⟩
/-- MGMT_LC_CHAL_HI (R476). -/
def Reg.MGMT_LC_CHAL_HI : Nat := 0xa0000c
def F.MGMT_LC_CHAL_HI_VALUE : Fld := ⟨Reg.MGMT_LC_CHAL_HI, 0, 32⟩
/-- MGMT_OBS (R476). -/
def Reg.MGMT_OBS : Nat := 0xa00010
def F.MGMT_OBS_EFFECTIVE : Fld := ⟨Reg.MGMT_OBS, 0, 2⟩
def F.MGMT_OBS_NOTOKEN : Fld := ⟨Reg.MGMT_OBS, 4, 2⟩
def F.MGMT_OBS_TOKEN_LEVEL : Fld := ⟨Reg.MGMT_OBS, 8, 2⟩
def F.MGMT_OBS_TOKEN : Fld := ⟨Reg.MGMT_OBS, 12, 1⟩
def F.MGMT_OBS_LEVEL_MAX : Fld := ⟨Reg.MGMT_OBS, 16, 2⟩
def F.MGMT_OBS_TOKEN_REQ : Fld := ⟨Reg.MGMT_OBS, 20, 1⟩
/-- MGMT_OBS_EXP_LO (R476). -/
def Reg.MGMT_OBS_EXP_LO : Nat := 0xa00014
def F.MGMT_OBS_EXP_LO_MS : Fld := ⟨Reg.MGMT_OBS_EXP_LO, 0, 32⟩
/-- MGMT_OBS_EXP_HI (R476). -/
def Reg.MGMT_OBS_EXP_HI : Nat := 0xa00018
def F.MGMT_OBS_EXP_HI_MS : Fld := ⟨Reg.MGMT_OBS_EXP_HI, 0, 16⟩
/-- MGMT_OBS_TSEQ (R476). -/
def Reg.MGMT_OBS_TSEQ : Nat := 0xa0001c
def F.MGMT_OBS_TSEQ_FLOOR : Fld := ⟨Reg.MGMT_OBS_TSEQ, 0, 32⟩
/-- MGMT_WDT (R476). -/
def Reg.MGMT_WDT : Nat := 0xa00020
def F.MGMT_WDT_RESTARTS : Fld := ⟨Reg.MGMT_WDT, 0, 8⟩
def F.MGMT_WDT_WINDOW : Fld := ⟨Reg.MGMT_WDT, 8, 4⟩
def F.MGMT_WDT_CORE : Fld := ⟨Reg.MGMT_WDT, 12, 2⟩
def F.MGMT_WDT_CAUSE : Fld := ⟨Reg.MGMT_WDT, 16, 2⟩
/-- MGMT_TUT_STAT (R476). -/
def Reg.MGMT_TUT_STAT : Nat := 0xa00030
def F.MGMT_TUT_STAT_BUSMODE : Fld := ⟨Reg.MGMT_TUT_STAT, 0, 1⟩
def F.MGMT_TUT_STAT_DYNADDR : Fld := ⟨Reg.MGMT_TUT_STAT, 1, 7⟩
def F.MGMT_TUT_STAT_STATADDR : Fld := ⟨Reg.MGMT_TUT_STAT, 8, 7⟩
def F.MGMT_TUT_STAT_EID : Fld := ⟨Reg.MGMT_TUT_STAT, 16, 8⟩
/-- MGMT_TUT_HEAD (R476). -/
def Reg.MGMT_TUT_HEAD : Nat := 0xa00034
def F.MGMT_TUT_HEAD_HEAD : Fld := ⟨Reg.MGMT_TUT_HEAD, 0, 2⟩
/-- MGMT_TUT_ERR (R476). -/
def Reg.MGMT_TUT_ERR : Nat := 0xa00038
def F.MGMT_TUT_ERR_PEC : Fld := ⟨Reg.MGMT_TUT_ERR, 0, 8⟩
def F.MGMT_TUT_ERR_ASSEMBLY : Fld := ⟨Reg.MGMT_TUT_ERR, 8, 8⟩
def F.MGMT_TUT_ERR_TYPE : Fld := ⟨Reg.MGMT_TUT_ERR, 16, 8⟩
/-- MGMT_ALERT (R476). -/
def Reg.MGMT_ALERT : Nat := 0xa00040
def F.MGMT_ALERT_PENDING : Fld := ⟨Reg.MGMT_ALERT, 0, 1⟩
def F.MGMT_ALERT_SEVERITY : Fld := ⟨Reg.MGMT_ALERT, 5, 3⟩
def F.MGMT_ALERT_UNIT : Fld := ⟨Reg.MGMT_ALERT, 8, 5⟩
def F.MGMT_ALERT_SEQ : Fld := ⟨Reg.MGMT_ALERT, 16, 16⟩
/-- MGMT_SPDM (R476). -/
def Reg.MGMT_SPDM : Nat := 0xa00044
def F.MGMT_SPDM_SESSIONS : Fld := ⟨Reg.MGMT_SPDM, 0, 12⟩
def F.MGMT_SPDM_FAILS : Fld := ⟨Reg.MGMT_SPDM, 16, 8⟩
/-- MGMT_BOOT (R476). -/
def Reg.MGMT_BOOT : Nat := 0xa00050
def F.MGMT_BOOT_FW_MS : Fld := ⟨Reg.MGMT_BOOT, 0, 16⟩
def F.MGMT_BOOT_PORT_MS : Fld := ⟨Reg.MGMT_BOOT, 16, 16⟩
/-- MGMT_BOOT2 (R476). -/
def Reg.MGMT_BOOT2 : Nat := 0xa00054
def F.MGMT_BOOT2_ACTIVE_MS : Fld := ⟨Reg.MGMT_BOOT2, 0, 16⟩
/-- MGMT_NDX_STAT (R93). -/
def Reg.MGMT_NDX_STAT : Nat := 0xa08000
def F.MGMT_NDX_STAT_SOURCE : Fld := ⟨Reg.MGMT_NDX_STAT, 0, 2⟩
def F.MGMT_NDX_STAT_FALLBACK : Fld := ⟨Reg.MGMT_NDX_STAT, 2, 1⟩
def F.MGMT_NDX_STAT_PENDING : Fld := ⟨Reg.MGMT_NDX_STAT, 3, 1⟩
def F.MGMT_NDX_STAT_STAGE : Fld := ⟨Reg.MGMT_NDX_STAT, 4, 3⟩
def F.MGMT_NDX_STAT_OWNER : Fld := ⟨Reg.MGMT_NDX_STAT, 8, 3⟩
/-- MGMT_NDX_ACTIVE_VER (R93). -/
def Reg.MGMT_NDX_ACTIVE_VER : Nat := 0xa08004
def F.MGMT_NDX_ACTIVE_VER_VERSION : Fld := ⟨Reg.MGMT_NDX_ACTIVE_VER, 0, 32⟩
/-- MGMT_NDX_PENDING_VER (R93). -/
def Reg.MGMT_NDX_PENDING_VER : Nat := 0xa08008
def F.MGMT_NDX_PENDING_VER_VERSION : Fld := ⟨Reg.MGMT_NDX_PENDING_VER, 0, 32⟩
/-- MGMT_NDX_FLOOR (R93). -/
def Reg.MGMT_NDX_FLOOR : Nat := 0xa0800c
def F.MGMT_NDX_FLOOR_FLOOR : Fld := ⟨Reg.MGMT_NDX_FLOOR, 0, 32⟩
/-- MGMT_NDX_ERR (R93). -/
def Reg.MGMT_NDX_ERR : Nat := 0xa08010
def F.MGMT_NDX_ERR_REASON : Fld := ⟨Reg.MGMT_NDX_ERR, 0, 8⟩
def F.MGMT_NDX_ERR_RECORD : Fld := ⟨Reg.MGMT_NDX_ERR, 8, 16⟩
def F.MGMT_NDX_ERR_WHERE : Fld := ⟨Reg.MGMT_NDX_ERR, 24, 2⟩
/-- MGMT_NDX_SKIPPED (R93). -/
def Reg.MGMT_NDX_SKIPPED : Nat := 0xa08014
def F.MGMT_NDX_SKIPPED_COUNT : Fld := ⟨Reg.MGMT_NDX_SKIPPED, 0, 16⟩
/-- MGMT_NDX_DIGEST (R93). -/
def Reg.MGMT_NDX_DIGEST (n : Nat) : Nat := 0xa08020 + 0x4 * n
def F.MGMT_NDX_DIGEST_VALUE (n : Nat) : Fld := ⟨(Reg.MGMT_NDX_DIGEST n), 0, 32⟩
/-- SF_STAT (R515). -/
def Reg.SF_STAT : Nat := 0xb00000
def F.SF_STAT_READY : Fld := ⟨Reg.SF_STAT, 0, 1⟩
def F.SF_STAT_BANK_BUSY : Fld := ⟨Reg.SF_STAT, 4, 4⟩
def F.SF_STAT_WELLHEAD_LOST : Fld := ⟨Reg.SF_STAT, 8, 1⟩
def F.SF_STAT_PROTECT : Fld := ⟨Reg.SF_STAT, 9, 1⟩
/-- SF_UNLOCK (R515). -/
def Reg.SF_UNLOCK : Nat := 0xb00004
def F.SF_UNLOCK_KEY : Fld := ⟨Reg.SF_UNLOCK, 0, 8⟩
/-- SF_CMD (R515). -/
def Reg.SF_CMD : Nat := 0xb00008
def F.SF_CMD_OP : Fld := ⟨Reg.SF_CMD, 0, 8⟩
def F.SF_CMD_SELF : Fld := ⟨Reg.SF_CMD, 8, 1⟩
/-- SF_ADDR (R515). -/
def Reg.SF_ADDR : Nat := 0xb0000c
def F.SF_ADDR_ADDR : Fld := ⟨Reg.SF_ADDR, 3, 23⟩
/-- SF_DATA_LO (R515). -/
def Reg.SF_DATA_LO : Nat := 0xb00010
def F.SF_DATA_LO_DATA : Fld := ⟨Reg.SF_DATA_LO, 0, 32⟩
/-- SF_DATA_HI (R515). -/
def Reg.SF_DATA_HI : Nat := 0xb00014
def F.SF_DATA_HI_DATA : Fld := ⟨Reg.SF_DATA_HI, 0, 32⟩
/-- SF_OPSTAT (R515). -/
def Reg.SF_OPSTAT : Nat := 0xb00018
def F.SF_OPSTAT_BUSY : Fld := ⟨Reg.SF_OPSTAT, 0, 1⟩
def F.SF_OPSTAT_DONE : Fld := ⟨Reg.SF_OPSTAT, 1, 1⟩
def F.SF_OPSTAT_FAIL : Fld := ⟨Reg.SF_OPSTAT, 2, 1⟩
def F.SF_OPSTAT_NOT_ERASED : Fld := ⟨Reg.SF_OPSTAT, 3, 1⟩
def F.SF_OPSTAT_CONFLICT : Fld := ⟨Reg.SF_OPSTAT, 4, 1⟩
def F.SF_OPSTAT_SUSPENDED : Fld := ⟨Reg.SF_OPSTAT, 5, 1⟩
def F.SF_OPSTAT_SUSPEND_IGNORED : Fld := ⟨Reg.SF_OPSTAT, 6, 1⟩
def F.SF_OPSTAT_PROTECTED : Fld := ⟨Reg.SF_OPSTAT, 7, 1⟩
def F.SF_OPSTAT_SEQ_ERR : Fld := ⟨Reg.SF_OPSTAT, 8, 1⟩
def F.SF_OPSTAT_ADDR_ERR : Fld := ⟨Reg.SF_OPSTAT, 9, 1⟩
def F.SF_OPSTAT_LOWV : Fld := ⟨Reg.SF_OPSTAT, 10, 1⟩
def F.SF_OPSTAT_BLANK : Fld := ⟨Reg.SF_OPSTAT, 11, 1⟩
def F.SF_OPSTAT_NESTED : Fld := ⟨Reg.SF_OPSTAT, 12, 1⟩
def F.SF_OPSTAT_OWNED : Fld := ⟨Reg.SF_OPSTAT, 13, 1⟩
def F.SF_OPSTAT_OP : Fld := ⟨Reg.SF_OPSTAT, 16, 8⟩
def F.SF_OPSTAT_CORE : Fld := ⟨Reg.SF_OPSTAT, 24, 2⟩
/-- SF_ERR (R515). -/
def Reg.SF_ERR : Nat := 0xb0001c
def F.SF_ERR_UE : Fld := ⟨Reg.SF_ERR, 0, 8⟩
def F.SF_ERR_MIRROR : Fld := ⟨Reg.SF_ERR, 8, 8⟩
def F.SF_ERR_READ_ERASING : Fld := ⟨Reg.SF_ERR, 16, 1⟩
def F.SF_ERR_WEAK : Fld := ⟨Reg.SF_ERR, 24, 8⟩
/-- SF_FW_STAT (R515). -/
def Reg.SF_FW_STAT : Nat := 0xb00030
def F.SF_FW_STAT_STATE : Fld := ⟨Reg.SF_FW_STAT, 0, 3⟩
def F.SF_FW_STAT_SLOT : Fld := ⟨Reg.SF_FW_STAT, 4, 1⟩
def F.SF_FW_STAT_OWNER : Fld := ⟨Reg.SF_FW_STAT, 8, 3⟩
def F.SF_FW_STAT_BLOCKS : Fld := ⟨Reg.SF_FW_STAT, 16, 16⟩
/-- SF_FW_SEL (R515). -/
def Reg.SF_FW_SEL : Nat := 0xb00034
def F.SF_FW_SEL_CONFIRMED : Fld := ⟨Reg.SF_FW_SEL, 0, 1⟩
def F.SF_FW_SEL_TRIAL : Fld := ⟨Reg.SF_FW_SEL, 4, 1⟩
def F.SF_FW_SEL_TSTATE : Fld := ⟨Reg.SF_FW_SEL, 8, 2⟩
def F.SF_FW_SEL_RUNNING : Fld := ⟨Reg.SF_FW_SEL, 12, 1⟩
def F.SF_FW_SEL_BOOT_FALLBACK : Fld := ⟨Reg.SF_FW_SEL, 13, 1⟩
/-- SF_FW_TRIAL (R515). -/
def Reg.SF_FW_TRIAL : Nat := 0xb00038
def F.SF_FW_TRIAL_EPOCHS : Fld := ⟨Reg.SF_FW_TRIAL, 0, 6⟩
def F.SF_FW_TRIAL_HEALTHY : Fld := ⟨Reg.SF_FW_TRIAL, 8, 1⟩
def F.SF_FW_TRIAL_CAUSE : Fld := ⟨Reg.SF_FW_TRIAL, 12, 3⟩
/-- SF_FW_VER0 (R515). -/
def Reg.SF_FW_VER0 : Nat := 0xb0003c
def F.SF_FW_VER0_VERSION : Fld := ⟨Reg.SF_FW_VER0, 0, 32⟩
/-- SF_FW_VER1 (R515). -/
def Reg.SF_FW_VER1 : Nat := 0xb00040
def F.SF_FW_VER1_VERSION : Fld := ⟨Reg.SF_FW_VER1, 0, 32⟩
/-- SF_FW_FLOOR (R515). -/
def Reg.SF_FW_FLOOR : Nat := 0xb00044
def F.SF_FW_FLOOR_FLOOR : Fld := ⟨Reg.SF_FW_FLOOR, 0, 16⟩
def F.SF_FW_FLOOR_SVN : Fld := ⟨Reg.SF_FW_FLOOR, 16, 16⟩
/-- SF_FW_ERR (R515). -/
def Reg.SF_FW_ERR : Nat := 0xb00048
def F.SF_FW_ERR_REASON : Fld := ⟨Reg.SF_FW_ERR, 0, 8⟩
def F.SF_FW_ERR_WHERE : Fld := ⟨Reg.SF_FW_ERR, 8, 2⟩
/-- SF_HO_CTL (R515). -/
def Reg.SF_HO_CTL : Nat := 0xb0004c
def F.SF_HO_CTL_ARM : Fld := ⟨Reg.SF_HO_CTL, 0, 1⟩
def F.SF_HO_CTL_HALF : Fld := ⟨Reg.SF_HO_CTL, 4, 1⟩
/-- SF_FW_DIGEST (R515). -/
def Reg.SF_FW_DIGEST (n : Nat) : Nat := 0xb00060 + 0x4 * n
def F.SF_FW_DIGEST_VALUE (n : Nat) : Fld := ⟨(Reg.SF_FW_DIGEST n), 0, 32⟩
/-- GAU_STAT (R550). -/
def Reg.GAU_STAT : Nat := 0xc00000
def F.GAU_STAT_READY : Fld := ⟨Reg.GAU_STAT, 0, 1⟩
def F.GAU_STAT_BUSY : Fld := ⟨Reg.GAU_STAT, 1, 1⟩
def F.GAU_STAT_QUEUE : Fld := ⟨Reg.GAU_STAT, 2, 6⟩
def F.GAU_STAT_HELD : Fld := ⟨Reg.GAU_STAT, 8, 1⟩
def F.GAU_STAT_SPARES : Fld := ⟨Reg.GAU_STAT, 16, 5⟩
def F.GAU_STAT_FROZEN : Fld := ⟨Reg.GAU_STAT, 24, 8⟩
/-- GAU_SEL (R550). -/
def Reg.GAU_SEL (bank : Nat) : Nat := bankStride * bank + 0xc00004
def F.GAU_SEL_BLOCK (bank : Nat) : Fld := ⟨(Reg.GAU_SEL bank), 0, 8⟩
/-- GAU_INFO (R550). -/
def Reg.GAU_INFO : Nat := 0xc00008
def F.GAU_INFO_PHYS : Fld := ⟨Reg.GAU_INFO, 0, 8⟩
def F.GAU_INFO_KIND : Fld := ⟨Reg.GAU_INFO, 8, 3⟩
def F.GAU_INFO_STATE : Fld := ⟨Reg.GAU_INFO, 12, 2⟩
def F.GAU_INFO_SEQ : Fld := ⟨Reg.GAU_INFO, 16, 16⟩
/-- GAU_WCNT (R550). -/
def Reg.GAU_WCNT : Nat := 0xc0000c
def F.GAU_WCNT_COUNT : Fld := ⟨Reg.GAU_WCNT, 0, 20⟩
/-- GAU_WEAR (R550). -/
def Reg.GAU_WEAR : Nat := 0xc00010
def F.GAU_WEAR_MAX : Fld := ⟨Reg.GAU_WEAR, 0, 20⟩
def F.GAU_WEAR_BLOCK : Fld := ⟨Reg.GAU_WEAR, 24, 8⟩
/-- GAU_ERR (R550). -/
def Reg.GAU_ERR : Nat := 0xc00014
def F.GAU_ERR_COPY_BAD : Fld := ⟨Reg.GAU_ERR, 0, 8⟩
def F.GAU_ERR_TIE : Fld := ⟨Reg.GAU_ERR, 8, 8⟩
def F.GAU_ERR_BOTH_BAD : Fld := ⟨Reg.GAU_ERR, 16, 8⟩
def F.GAU_ERR_WORN : Fld := ⟨Reg.GAU_ERR, 24, 8⟩
/-- GAU_CNT_WRITE (R550). -/
def Reg.GAU_CNT_WRITE : Nat := 0xc00018
def F.GAU_CNT_WRITE_COUNT : Fld := ⟨Reg.GAU_CNT_WRITE, 0, 32⟩
/-- GAU_BAD (R550). -/
def Reg.GAU_BAD (n : Nat) : Nat := 0xc00020 + 0x4 * n
def F.GAU_BAD_BAD (n : Nat) : Fld := ⟨(Reg.GAU_BAD n), 0, 32⟩
/-- SED_STAT (R550). -/
def Reg.SED_STAT : Nat := 0xd00000
def F.SED_STAT_READY : Fld := ⟨Reg.SED_STAT, 0, 1⟩
def F.SED_STAT_FLUSHING : Fld := ⟨Reg.SED_STAT, 1, 1⟩
def F.SED_STAT_CUT : Fld := ⟨Reg.SED_STAT, 2, 1⟩
def F.SED_STAT_RING : Fld := ⟨Reg.SED_STAT, 4, 10⟩
/-- SED_SEQ (R550). -/
def Reg.SED_SEQ : Nat := 0xd00004
def F.SED_SEQ_NEXT : Fld := ⟨Reg.SED_SEQ, 0, 32⟩
/-- SED_MARK (R550). -/
def Reg.SED_MARK : Nat := 0xd00008
def F.SED_MARK_SEQ : Fld := ⟨Reg.SED_MARK, 0, 32⟩
/-- SED_SLOTS (R550). -/
def Reg.SED_SLOTS : Nat := 0xd0000c
def F.SED_SLOTS_USED : Fld := ⟨Reg.SED_SLOTS, 0, 18⟩
/-- SED_CNT_REC (R550). -/
def Reg.SED_CNT_REC : Nat := 0xd00010
def F.SED_CNT_REC_COUNT : Fld := ⟨Reg.SED_CNT_REC, 0, 32⟩
/-- SED_CNT_REPEAT (R550). -/
def Reg.SED_CNT_REPEAT : Nat := 0xd00014
def F.SED_CNT_REPEAT_COUNT : Fld := ⟨Reg.SED_CNT_REPEAT, 0, 32⟩
/-- SED_CNT_DROP (R550). -/
def Reg.SED_CNT_DROP : Nat := 0xd00018
def F.SED_CNT_DROP_DROPPED : Fld := ⟨Reg.SED_CNT_DROP, 0, 16⟩
def F.SED_CNT_DROP_UNMARKED : Fld := ⟨Reg.SED_CNT_DROP, 16, 16⟩
/-- SED_MIRROR (R550). -/
def Reg.SED_MIRROR : Nat := 0xd0001c
def F.SED_MIRROR_SLOTS : Fld := ⟨Reg.SED_MIRROR, 0, 6⟩
def F.SED_MIRROR_WINDOW : Fld := ⟨Reg.SED_MIRROR, 16, 6⟩
def F.SED_MIRROR_SKIPPED : Fld := ⟨Reg.SED_MIRROR, 24, 8⟩
/-- SED_ERR (R550). -/
def Reg.SED_ERR : Nat := 0xd00020
def F.SED_ERR_CRC_BAD : Fld := ⟨Reg.SED_ERR, 0, 16⟩
def F.SED_ERR_UE : Fld := ⟨Reg.SED_ERR, 16, 8⟩
/-- PWR_STAT (R577). -/
def Reg.PWR_STAT : Nat := 0xe00000
def F.PWR_STAT_STATE : Fld := ⟨Reg.PWR_STAT, 0, 3⟩
def F.PWR_STAT_TARGET : Fld := ⟨Reg.PWR_STAT, 4, 3⟩
def F.PWR_STAT_POINT : Fld := ⟨Reg.PWR_STAT, 8, 2⟩
def F.PWR_STAT_ABORT_CAUSE : Fld := ⟨Reg.PWR_STAT, 12, 4⟩
def F.PWR_STAT_ABORT_UNIT : Fld := ⟨Reg.PWR_STAT, 16, 5⟩
def F.PWR_STAT_WAKE_SRC : Fld := ⟨Reg.PWR_STAT, 24, 3⟩
/-- PWR_CTL (R577). -/
def Reg.PWR_CTL : Nat := 0xe00004
def F.PWR_CTL_AUTO_IDLE : Fld := ⟨Reg.PWR_CTL, 0, 1⟩
def F.PWR_CTL_IDLE_TICKS : Fld := ⟨Reg.PWR_CTL, 4, 12⟩
def F.PWR_CTL_AGREE_MS : Fld := ⟨Reg.PWR_CTL, 16, 10⟩
/-- PWR_WAKE_EN (R577). -/
def Reg.PWR_WAKE_EN : Nat := 0xe00008
def F.PWR_WAKE_EN_EN : Fld := ⟨Reg.PWR_WAKE_EN, 0, 7⟩
/-- PWR_WAKE_STAT (R577). -/
def Reg.PWR_WAKE_STAT : Nat := 0xe0000c
def F.PWR_WAKE_STAT_SRC : Fld := ⟨Reg.PWR_WAKE_STAT, 0, 7⟩
/-- PWR_TIMER_LO (R577). -/
def Reg.PWR_TIMER_LO : Nat := 0xe00010
def F.PWR_TIMER_LO_TICK : Fld := ⟨Reg.PWR_TIMER_LO, 0, 32⟩
/-- PWR_TIMER_HI (R577). -/
def Reg.PWR_TIMER_HI : Nat := 0xe00014
def F.PWR_TIMER_HI_TICK : Fld := ⟨Reg.PWR_TIMER_HI, 0, 32⟩
/-- PWR_DOMAIN (R577). -/
def Reg.PWR_DOMAIN : Nat := 0xe00018
def F.PWR_DOMAIN_MGMT : Fld := ⟨Reg.PWR_DOMAIN, 0, 2⟩
def F.PWR_DOMAIN_CORE : Fld := ⟨Reg.PWR_DOMAIN, 2, 2⟩
def F.PWR_DOMAIN_PORT0 : Fld := ⟨Reg.PWR_DOMAIN, 4, 2⟩
def F.PWR_DOMAIN_PORT1 : Fld := ⟨Reg.PWR_DOMAIN, 6, 2⟩
def F.PWR_DOMAIN_PORT2 : Fld := ⟨Reg.PWR_DOMAIN, 8, 2⟩
def F.PWR_DOMAIN_PORT3 : Fld := ⟨Reg.PWR_DOMAIN, 10, 2⟩
def F.PWR_DOMAIN_MEDIA : Fld := ⟨Reg.PWR_DOMAIN, 12, 2⟩
def F.PWR_DOMAIN_DRAM : Fld := ⟨Reg.PWR_DOMAIN, 14, 2⟩
def F.PWR_DOMAIN_SFLASH : Fld := ⟨Reg.PWR_DOMAIN, 16, 2⟩
def F.PWR_DOMAIN_NRW : Fld := ⟨Reg.PWR_DOMAIN, 18, 2⟩
def F.PWR_DOMAIN_CLAMP : Fld := ⟨Reg.PWR_DOMAIN, 20, 9⟩
/-- PWR_BIAS (R577). -/
def Reg.PWR_BIAS : Nat := 0xe0001c
def F.PWR_BIAS_CORE_BB : Fld := ⟨Reg.PWR_BIAS, 0, 8⟩
def F.PWR_BIAS_SRAM_V : Fld := ⟨Reg.PWR_BIAS, 8, 8⟩
def F.PWR_BIAS_ASSIST : Fld := ⟨Reg.PWR_BIAS, 16, 1⟩
/-- PWR_RET_STAT (R577). -/
def Reg.PWR_RET_STAT : Nat := 0xe00020
def F.PWR_RET_STAT_SIGNED : Fld := ⟨Reg.PWR_RET_STAT, 0, 9⟩
def F.PWR_RET_STAT_MISMATCH : Fld := ⟨Reg.PWR_RET_STAT, 16, 9⟩
/-- PWR_TIME (R577). -/
def Reg.PWR_TIME : Nat := 0xe00024
def F.PWR_TIME_ENTRY_MS : Fld := ⟨Reg.PWR_TIME, 0, 16⟩
def F.PWR_TIME_EXIT_MS : Fld := ⟨Reg.PWR_TIME, 16, 16⟩
/-- PWR_CNT (R577). -/
def Reg.PWR_CNT : Nat := 0xe00028
def F.PWR_CNT_ENTRIES : Fld := ⟨Reg.PWR_CNT, 0, 16⟩
def F.PWR_CNT_ABORTS : Fld := ⟨Reg.PWR_CNT, 16, 16⟩
/-- PWR_SIG (R577). -/
def Reg.PWR_SIG (b : Nat) : Nat := 0xe00040 + 0x4 * b
def F.PWR_SIG_CRC (b : Nat) : Fld := ⟨(Reg.PWR_SIG b), 0, 32⟩
/-- SUP_STAT (R625). -/
def Reg.SUP_STAT : Nat := 0xf00000
def F.SUP_STAT_STATE : Fld := ⟨Reg.SUP_STAT, 0, 3⟩
def F.SUP_STAT_SEICHE : Fld := ⟨Reg.SUP_STAT, 8, 5⟩
def F.SUP_STAT_STEP : Fld := ⟨Reg.SUP_STAT, 16, 5⟩
def F.SUP_STAT_SOLO : Fld := ⟨Reg.SUP_STAT, 24, 1⟩
/-- SUP_RAIL (R625). -/
def Reg.SUP_RAIL : Nat := 0xf00004
def F.SUP_RAIL_EN : Fld := ⟨Reg.SUP_RAIL, 0, 10⟩
def F.SUP_RAIL_PG : Fld := ⟨Reg.SUP_RAIL, 16, 10⟩
/-- SUP_RAIL_ERR (R625). -/
def Reg.SUP_RAIL_ERR : Nat := 0xf00008
def F.SUP_RAIL_ERR_FAILED : Fld := ⟨Reg.SUP_RAIL_ERR, 0, 10⟩
def F.SUP_RAIL_ERR_NODIS : Fld := ⟨Reg.SUP_RAIL_ERR, 16, 10⟩
/-- SUP_VIN (R625). -/
def Reg.SUP_VIN : Nat := 0xf0000c
def F.SUP_VIN_V : Fld := ⟨Reg.SUP_VIN, 0, 16⟩
def F.SUP_VIN_MIN : Fld := ⟨Reg.SUP_VIN, 16, 16⟩
/-- SUP_AUX (R625). -/
def Reg.SUP_AUX : Nat := 0xf00010
def F.SUP_AUX_VAUX : Fld := ⟨Reg.SUP_AUX, 0, 16⟩
def F.SUP_AUX_VAON : Fld := ⟨Reg.SUP_AUX, 16, 16⟩
/-- SUP_LEVELS (R625). -/
def Reg.SUP_LEVELS : Nat := 0xf00014
def F.SUP_LEVELS_WARN : Fld := ⟨Reg.SUP_LEVELS, 0, 16⟩
def F.SUP_LEVELS_FAIL : Fld := ⟨Reg.SUP_LEVELS, 16, 16⟩
/-- SUP_RES (R625). -/
def Reg.SUP_RES : Nat := 0xf00018
def F.SUP_RES_V : Fld := ⟨Reg.SUP_RES, 0, 16⟩
def F.SUP_RES_C_EFF : Fld := ⟨Reg.SUP_RES, 16, 12⟩
def F.SUP_RES_CHG : Fld := ⟨Reg.SUP_RES, 28, 1⟩
def F.SUP_RES_SW : Fld := ⟨Reg.SUP_RES, 29, 1⟩
def F.SUP_RES_TEST : Fld := ⟨Reg.SUP_RES, 30, 1⟩
def F.SUP_RES_FAULTED : Fld := ⟨Reg.SUP_RES, 31, 1⟩
/-- SUP_RES_CTL (R625). -/
def Reg.SUP_RES_CTL : Nat := 0xf0001c
def F.SUP_RES_CTL_TARGET : Fld := ⟨Reg.SUP_RES_CTL, 0, 9⟩
def F.SUP_RES_CTL_TEST : Fld := ⟨Reg.SUP_RES_CTL, 16, 1⟩
/-- SUP_BUDGET (R625). -/
def Reg.SUP_BUDGET : Nat := 0xf00020
def F.SUP_BUDGET_B : Fld := ⟨Reg.SUP_BUDGET, 0, 16⟩
def F.SUP_BUDGET_D : Fld := ⟨Reg.SUP_BUDGET, 16, 16⟩
/-- SUP_GUARD (R625). -/
def Reg.SUP_GUARD : Nat := 0xf00024
def F.SUP_GUARD_RATE : Fld := ⟨Reg.SUP_GUARD, 0, 8⟩
def F.SUP_GUARD_COUNT : Fld := ⟨Reg.SUP_GUARD, 16, 16⟩
/-- SUP_FLUSH (R625). -/
def Reg.SUP_FLUSH : Nat := 0xf00028
def F.SUP_FLUSH_TIME : Fld := ⟨Reg.SUP_FLUSH, 0, 16⟩
def F.SUP_FLUSH_CAUSE : Fld := ⟨Reg.SUP_FLUSH, 16, 4⟩
def F.SUP_FLUSH_DONE : Fld := ⟨Reg.SUP_FLUSH, 20, 1⟩
def F.SUP_FLUSH_RIDE : Fld := ⟨Reg.SUP_FLUSH, 21, 1⟩
/-- SUP_BTN (R625). -/
def Reg.SUP_BTN : Nat := 0xf0002c
def F.SUP_BTN_PRESSES : Fld := ⟨Reg.SUP_BTN, 0, 8⟩
def F.SUP_BTN_HELD : Fld := ⟨Reg.SUP_BTN, 8, 1⟩
def F.SUP_BTN_MR : Fld := ⟨Reg.SUP_BTN, 9, 1⟩
/-- SUP_SEICHE (R625). -/
def Reg.SUP_SEICHE : Nat := 0xf00030
def F.SUP_SEICHE_PART : Fld := ⟨Reg.SUP_SEICHE, 0, 1⟩
def F.SUP_SEICHE_LEADER : Fld := ⟨Reg.SUP_SEICHE, 1, 1⟩
def F.SUP_SEICHE_LINE : Fld := ⟨Reg.SUP_SEICHE, 2, 1⟩
def F.SUP_SEICHE_FRAME_ERR : Fld := ⟨Reg.SUP_SEICHE, 8, 8⟩
def F.SUP_SEICHE_FAULT : Fld := ⟨Reg.SUP_SEICHE, 16, 1⟩
/-- SUP_CNT (R625). -/
def Reg.SUP_CNT : Nat := 0xf00034
def F.SUP_CNT_FLUSHES : Fld := ⟨Reg.SUP_CNT, 0, 16⟩
def F.SUP_CNT_RIDES : Fld := ⟨Reg.SUP_CNT, 16, 16⟩
/-- SUP_RAIL_LOST (R625). -/
def Reg.SUP_RAIL_LOST : Nat := 0xf00038
def F.SUP_RAIL_LOST_LOST : Fld := ⟨Reg.SUP_RAIL_LOST, 0, 10⟩
/-- SUP_RES_TEST (R625). -/
def Reg.SUP_RES_TEST : Nat := 0xf0003c
def F.SUP_RES_TEST_ESR : Fld := ⟨Reg.SUP_RES_TEST, 0, 16⟩
def F.SUP_RES_TEST_FAULT : Fld := ⟨Reg.SUP_RES_TEST, 16, 4⟩
def F.SUP_RES_TEST_AGE : Fld := ⟨Reg.SUP_RES_TEST, 20, 12⟩
/-- THM_STAT (R626). -/
def Reg.THM_STAT : Nat := 0x1000000
def F.THM_STAT_LEVEL_C : Fld := ⟨Reg.THM_STAT, 0, 2⟩
def F.THM_STAT_LEVEL_M : Fld := ⟨Reg.THM_STAT, 2, 2⟩
def F.THM_STAT_LEVEL_D : Fld := ⟨Reg.THM_STAT, 4, 2⟩
def F.THM_STAT_HYST : Fld := ⟨Reg.THM_STAT, 8, 4⟩
def F.THM_STAT_ROUND : Fld := ⟨Reg.THM_STAT, 16, 16⟩
/-- THM_MAX (R626). -/
def Reg.THM_MAX : Nat := 0x1000004
def F.THM_MAX_C : Fld := ⟨Reg.THM_MAX, 0, 8⟩
def F.THM_MAX_M : Fld := ⟨Reg.THM_MAX, 8, 8⟩
def F.THM_MAX_D : Fld := ⟨Reg.THM_MAX, 16, 8⟩
/-- THM_WINDOW (R626). -/
def Reg.THM_WINDOW : Nat := 0x1000008
def F.THM_WINDOW_MPROG : Fld := ⟨Reg.THM_WINDOW, 0, 16⟩
def F.THM_WINDOW_RES : Fld := ⟨Reg.THM_WINDOW, 16, 1⟩
/-- THM_LIM_C (R626). -/
def Reg.THM_LIM_C : Nat := 0x100000c
def F.THM_LIM_C_T1 : Fld := ⟨Reg.THM_LIM_C, 0, 8⟩
def F.THM_LIM_C_T2 : Fld := ⟨Reg.THM_LIM_C, 8, 8⟩
def F.THM_LIM_C_T3 : Fld := ⟨Reg.THM_LIM_C, 16, 8⟩
def F.THM_LIM_C_CRIT : Fld := ⟨Reg.THM_LIM_C, 24, 8⟩
/-- THM_LIM_M (R626). -/
def Reg.THM_LIM_M : Nat := 0x1000010
def F.THM_LIM_M_T1 : Fld := ⟨Reg.THM_LIM_M, 0, 8⟩
def F.THM_LIM_M_T2 : Fld := ⟨Reg.THM_LIM_M, 8, 8⟩
def F.THM_LIM_M_T3 : Fld := ⟨Reg.THM_LIM_M, 16, 8⟩
def F.THM_LIM_M_CRIT : Fld := ⟨Reg.THM_LIM_M, 24, 8⟩
/-- THM_LIM_D (R626). -/
def Reg.THM_LIM_D : Nat := 0x1000014
def F.THM_LIM_D_T1 : Fld := ⟨Reg.THM_LIM_D, 0, 8⟩
def F.THM_LIM_D_T2 : Fld := ⟨Reg.THM_LIM_D, 8, 8⟩
def F.THM_LIM_D_T3 : Fld := ⟨Reg.THM_LIM_D, 16, 8⟩
def F.THM_LIM_D_CRIT : Fld := ⟨Reg.THM_LIM_D, 24, 8⟩
/-- THM_WIN_LIM (R626). -/
def Reg.THM_WIN_LIM : Nat := 0x1000018
def F.THM_WIN_LIM_MPROG_MIN : Fld := ⟨Reg.THM_WIN_LIM, 0, 8⟩
def F.THM_WIN_LIM_MPROG_MAX : Fld := ⟨Reg.THM_WIN_LIM, 8, 8⟩
def F.THM_WIN_LIM_RES_MIN : Fld := ⟨Reg.THM_WIN_LIM, 16, 8⟩
def F.THM_WIN_LIM_RES_MAX : Fld := ⟨Reg.THM_WIN_LIM, 24, 8⟩
/-- THM_SENS_FAIL (R626). -/
def Reg.THM_SENS_FAIL : Nat := 0x100001c
def F.THM_SENS_FAIL_MASK : Fld := ⟨Reg.THM_SENS_FAIL, 0, 30⟩
/-- THM_CNT (R626). -/
def Reg.THM_CNT : Nat := 0x1000020
def F.THM_CNT_THROTTLE : Fld := ⟨Reg.THM_CNT, 0, 16⟩
def F.THM_CNT_CLOSED : Fld := ⟨Reg.THM_CNT, 16, 16⟩
/-- THM_CH (R626). -/
def Reg.THM_CH (n : Nat) : Nat := 0x1000100 + 0x4 * n
def F.THM_CH_VALUE (n : Nat) : Fld := ⟨(Reg.THM_CH n), 0, 16⟩
def F.THM_CH_UNIT (n : Nat) : Fld := ⟨(Reg.THM_CH n), 16, 4⟩
def F.THM_CH_VALID (n : Nat) : Fld := ⟨(Reg.THM_CH n), 31, 1⟩
/-- NRW_STAT (R664). -/
def Reg.NRW_STAT : Nat := 0x1100000
def F.NRW_STAT_GROUP : Fld := ⟨Reg.NRW_STAT, 0, 3⟩
def F.NRW_STAT_ROLE : Fld := ⟨Reg.NRW_STAT, 4, 1⟩
def F.NRW_STAT_STALE : Fld := ⟨Reg.NRW_STAT, 5, 1⟩
def F.NRW_STAT_DIVERGED : Fld := ⟨Reg.NRW_STAT, 6, 1⟩
def F.NRW_STAT_SYNCED : Fld := ⟨Reg.NRW_STAT, 7, 1⟩
def F.NRW_STAT_SOLO : Fld := ⟨Reg.NRW_STAT, 8, 1⟩
def F.NRW_STAT_PRIMARY : Fld := ⟨Reg.NRW_STAT, 12, 3⟩
def F.NRW_STAT_HANDOFF : Fld := ⟨Reg.NRW_STAT, 16, 1⟩
/-- NRW_CTL (R664). -/
def Reg.NRW_CTL : Nat := 0x1100004
def F.NRW_CTL_ACK_TIMEOUT : Fld := ⟨Reg.NRW_CTL, 0, 7⟩
/-- NRW_GINC (R664). -/
def Reg.NRW_GINC : Nat := 0x1100008
def F.NRW_GINC_VALUE : Fld := ⟨Reg.NRW_GINC, 0, 32⟩
/-- NRW_RSEQ_LO (R664). -/
def Reg.NRW_RSEQ_LO : Nat := 0x1100010
def F.NRW_RSEQ_LO_SEQ : Fld := ⟨Reg.NRW_RSEQ_LO, 0, 32⟩
/-- NRW_RSEQ_HI (R664). -/
def Reg.NRW_RSEQ_HI : Nat := 0x1100014
def F.NRW_RSEQ_HI_SEQ : Fld := ⟨Reg.NRW_RSEQ_HI, 0, 24⟩
/-- NRW_CNT_RO (R664). -/
def Reg.NRW_CNT_RO : Nat := 0x11000c0
def F.NRW_CNT_RO_COUNT : Fld := ⟨Reg.NRW_CNT_RO, 0, 32⟩
/-- NRW_LINK_STAT (R664). -/
def Reg.NRW_LINK_STAT (n : Nat) : Nat := 0x1100020 + 0x20 * n
def F.NRW_LINK_STAT_STATE (n : Nat) : Fld := ⟨(Reg.NRW_LINK_STAT n), 0, 2⟩
def F.NRW_LINK_STAT_WIDTH (n : Nat) : Fld := ⟨(Reg.NRW_LINK_STAT n), 4, 4⟩
def F.NRW_LINK_STAT_HOLD_IN (n : Nat) : Fld := ⟨(Reg.NRW_LINK_STAT n), 8, 1⟩
def F.NRW_LINK_STAT_HOLD_OUT (n : Nat) : Fld := ⟨(Reg.NRW_LINK_STAT n), 9, 1⟩
def F.NRW_LINK_STAT_CELLS (n : Nat) : Fld := ⟨(Reg.NRW_LINK_STAT n), 16, 10⟩
/-- NRW_LINK_ERR (R664). -/
def Reg.NRW_LINK_ERR (n : Nat) : Nat := 0x1100024 + 0x20 * n
def F.NRW_LINK_ERR_CRC (n : Nat) : Fld := ⟨(Reg.NRW_LINK_ERR n), 0, 8⟩
def F.NRW_LINK_ERR_TAG (n : Nat) : Fld := ⟨(Reg.NRW_LINK_ERR n), 8, 8⟩
def F.NRW_LINK_ERR_RESEND (n : Nat) : Fld := ⟨(Reg.NRW_LINK_ERR n), 16, 8⟩
def F.NRW_LINK_ERR_RETRAIN (n : Nat) : Fld := ⟨(Reg.NRW_LINK_ERR n), 24, 8⟩
/-- NRW_LINK_CNT (R664). -/
def Reg.NRW_LINK_CNT (n : Nat) : Nat := 0x1100028 + 0x20 * n
def F.NRW_LINK_CNT_FRAMES (n : Nat) : Fld := ⟨(Reg.NRW_LINK_CNT n), 0, 32⟩
/-- NRW_MEM_STAT (R664). -/
def Reg.NRW_MEM_STAT (m : Nat) : Nat := 0x1100080 + 0x10 * m
def F.NRW_MEM_STAT_STATE (m : Nat) : Fld := ⟨(Reg.NRW_MEM_STAT m), 0, 2⟩
def F.NRW_MEM_STAT_POS (m : Nat) : Fld := ⟨(Reg.NRW_MEM_STAT m), 4, 3⟩
def F.NRW_MEM_STAT_CAUSE (m : Nat) : Fld := ⟨(Reg.NRW_MEM_STAT m), 8, 4⟩
/-- NRW_MEM_ACK_LO (R664). -/
def Reg.NRW_MEM_ACK_LO (m : Nat) : Nat := 0x1100084 + 0x10 * m
def F.NRW_MEM_ACK_LO_SEQ (m : Nat) : Fld := ⟨(Reg.NRW_MEM_ACK_LO m), 0, 32⟩
/-- NRW_MEM_ACK_HI (R664). -/
def Reg.NRW_MEM_ACK_HI (m : Nat) : Nat := 0x1100088 + 0x10 * m
def F.NRW_MEM_ACK_HI_SEQ (m : Nat) : Fld := ⟨(Reg.NRW_MEM_ACK_HI m), 0, 24⟩
/-- NRW_MEM_BITS (R664). -/
def Reg.NRW_MEM_BITS (m : Nat) : Nat := 0x110008c + 0x10 * m
def F.NRW_MEM_BITS_REGIONS (m : Nat) : Fld := ⟨(Reg.NRW_MEM_BITS m), 0, 23⟩
/-- OBS_STAT (R687). -/
def Reg.OBS_STAT : Nat := 0x1200000
def F.OBS_STAT_LEVEL : Fld := ⟨Reg.OBS_STAT, 0, 2⟩
def F.OBS_STAT_PLUMB : Fld := ⟨Reg.OBS_STAT, 4, 1⟩
def F.OBS_STAT_SOUNDING : Fld := ⟨Reg.OBS_STAT, 5, 1⟩
def F.OBS_STAT_PLUMB_ACTIVE : Fld := ⟨Reg.OBS_STAT, 8, 1⟩
def F.OBS_STAT_SND_ACTIVE : Fld := ⟨Reg.OBS_STAT, 9, 1⟩
/-- OBS_EPOCH (R687). -/
def Reg.OBS_EPOCH : Nat := 0x1200004
def F.OBS_EPOCH_EPOCH : Fld := ⟨Reg.OBS_EPOCH, 0, 24⟩
def F.OBS_EPOCH_SPAN : Fld := ⟨Reg.OBS_EPOCH, 24, 8⟩
/-- OBS_OVF (R687). -/
def Reg.OBS_OVF : Nat := 0x1200008
def F.OBS_OVF_LIVE : Fld := ⟨Reg.OBS_OVF, 0, 16⟩
def F.OBS_OVF_SHADOW : Fld := ⟨Reg.OBS_OVF, 16, 16⟩
/-- OBS_PC_STAT (R687). -/
def Reg.OBS_PC_STAT (bank : Nat) : Nat := bankStride * bank + 0x1200260
def F.OBS_PC_STAT_OVF (bank : Nat) : Fld := ⟨(Reg.OBS_PC_STAT bank), 0, 8⟩
def F.OBS_PC_STAT_SOVF (bank : Nat) : Fld := ⟨(Reg.OBS_PC_STAT bank), 8, 8⟩
def F.OBS_PC_STAT_PARTIAL (bank : Nat) : Fld := ⟨(Reg.OBS_PC_STAT bank), 16, 8⟩
/-- OBS_PLUMB_CTL (R687). -/
def Reg.OBS_PLUMB_CTL : Nat := 0x1200400
def F.OBS_PLUMB_CTL_EN : Fld := ⟨Reg.OBS_PLUMB_CTL, 0, 1⟩
def F.OBS_PLUMB_CTL_OWNER : Fld := ⟨Reg.OBS_PLUMB_CTL, 4, 3⟩
def F.OBS_PLUMB_CTL_RATE : Fld := ⟨Reg.OBS_PLUMB_CTL, 8, 5⟩
/-- OBS_PLUMB_FILT (R687). -/
def Reg.OBS_PLUMB_FILT : Nat := 0x1200404
def F.OBS_PLUMB_FILT_HEADS : Fld := ⟨Reg.OBS_PLUMB_FILT, 0, 4⟩
def F.OBS_PLUMB_FILT_KINDS : Fld := ⟨Reg.OBS_PLUMB_FILT, 4, 3⟩
def F.OBS_PLUMB_FILT_KIDX_EN : Fld := ⟨Reg.OBS_PLUMB_FILT, 8, 1⟩
def F.OBS_PLUMB_FILT_KIDX : Fld := ⟨Reg.OBS_PLUMB_FILT, 16, 12⟩
/-- OBS_PLUMB_LAT (R687). -/
def Reg.OBS_PLUMB_LAT : Nat := 0x1200408
def F.OBS_PLUMB_LAT_MIN_LAT : Fld := ⟨Reg.OBS_PLUMB_LAT, 0, 24⟩
/-- OBS_PLUMB_STAT (R687). -/
def Reg.OBS_PLUMB_STAT : Nat := 0x120040c
def F.OBS_PLUMB_STAT_COUNT : Fld := ⟨Reg.OBS_PLUMB_STAT, 0, 9⟩
def F.OBS_PLUMB_STAT_LOST : Fld := ⟨Reg.OBS_PLUMB_STAT, 16, 8⟩
def F.OBS_PLUMB_STAT_MISSED : Fld := ⟨Reg.OBS_PLUMB_STAT, 24, 8⟩
/-- OBS_SND_CTL (R687). -/
def Reg.OBS_SND_CTL : Nat := 0x1200500
def F.OBS_SND_CTL_KINDS : Fld := ⟨Reg.OBS_SND_CTL, 0, 10⟩
def F.OBS_SND_CTL_EN : Fld := ⟨Reg.OBS_SND_CTL, 16, 1⟩
/-- OBS_SND_FILT (R687). -/
def Reg.OBS_SND_FILT : Nat := 0x1200504
def F.OBS_SND_FILT_HEADS : Fld := ⟨Reg.OBS_SND_FILT, 0, 4⟩
def F.OBS_SND_FILT_KINDS : Fld := ⟨Reg.OBS_SND_FILT, 4, 3⟩
def F.OBS_SND_FILT_RATE : Fld := ⟨Reg.OBS_SND_FILT, 8, 5⟩
/-- OBS_SND_LAT (R687). -/
def Reg.OBS_SND_LAT : Nat := 0x1200508
def F.OBS_SND_LAT_MIN_LAT : Fld := ⟨Reg.OBS_SND_LAT, 0, 24⟩
/-- OBS_SND_STAT (R687). -/
def Reg.OBS_SND_STAT : Nat := 0x120050c
def F.OBS_SND_STAT_DROPPED : Fld := ⟨Reg.OBS_SND_STAT, 0, 16⟩
def F.OBS_SND_STAT_STALE : Fld := ⟨Reg.OBS_SND_STAT, 16, 16⟩
/-- OBS_SND_MARK (R687). -/
def Reg.OBS_SND_MARK : Nat := 0x1200510
def F.OBS_SND_MARK_VALUE : Fld := ⟨Reg.OBS_SND_MARK, 0, 32⟩
/-- OBS_FIX (R687). -/
def Reg.OBS_FIX (k : Nat) : Nat := 0x1200100 + 0x4 * k
def F.OBS_FIX_COUNT (k : Nat) : Fld := ⟨(Reg.OBS_FIX k), 0, 32⟩
/-- OBS_FIX_SH (R687). -/
def Reg.OBS_FIX_SH (k : Nat) : Nat := 0x1200140 + 0x4 * k
def F.OBS_FIX_SH_COUNT (k : Nat) : Fld := ⟨(Reg.OBS_FIX_SH k), 0, 32⟩
/-- OBS_PC_CFG (R687). -/
def Reg.OBS_PC_CFG (bank : Nat) (j : Nat) : Nat := bankStride * bank + 0x1200200 + 0x8 * j
def F.OBS_PC_CFG_EVENT (bank : Nat) (j : Nat) : Fld := ⟨(Reg.OBS_PC_CFG bank j), 0, 8⟩
def F.OBS_PC_CFG_QUAL (bank : Nat) (j : Nat) : Fld := ⟨(Reg.OBS_PC_CFG bank j), 8, 8⟩
/-- OBS_PC (R687). -/
def Reg.OBS_PC (bank : Nat) (j : Nat) : Nat := bankStride * bank + 0x1200204 + 0x8 * j
def F.OBS_PC_COUNT (bank : Nat) (j : Nat) : Fld := ⟨(Reg.OBS_PC bank j), 0, 32⟩
/-- OBS_PC_SH (R687). -/
def Reg.OBS_PC_SH (bank : Nat) (j : Nat) : Nat := bankStride * bank + 0x1200240 + 0x4 * j
def F.OBS_PC_SH_COUNT (bank : Nat) (j : Nat) : Fld := ⟨(Reg.OBS_PC_SH bank j), 0, 32⟩
/-- OBS_PLUMB_DATA (R687). -/
def Reg.OBS_PLUMB_DATA (n : Nat) : Nat := 0x1200410 + 0x4 * n
def F.OBS_PLUMB_DATA_WORD (n : Nat) : Fld := ⟨(Reg.OBS_PLUMB_DATA n), 0, 32⟩

/-- The rows of the GLB block. -/
def regDescsGLB : List RegDesc := [
  ⟨0x0, 1, 0x0, 1, 0x0, 0xb101, false, false, [(16, 16, .ro), (8, 8, .ro), (0, 8, .ro)]⟩,
  ⟨0x4, 1, 0x0, 1, 0x0, 0x0, false, false, [(0, 16, .ro)]⟩,
  ⟨0x8, 1, 0x0, 1, 0x0, 0x0, false, false, [(0, 16, .ro)]⟩,
  ⟨0xc, 1, 0x0, 1, 0x0, 0x0, false, false, [(0, 4, .ro), (4, 1, .ro), (5, 1, .ro), (6, 1, .ro), (7, 1, .ro), (8, 4, .ro), (16, 5, .ro)]⟩,
  ⟨0x10, 1, 0x0, 1, 0x0, 0x0, false, false, [(0, 21, .ro)]⟩,
  ⟨0x14, 1, 0x0, 1, 0x0, 0x0, false, false, [(0, 16, .ro), (16, 16, .ro)]⟩,
  ⟨0x18, 1, 0x0, 1, 0x0, 0x0, false, false, [(0, 12, .ro), (16, 1, .ro)]⟩,
  ⟨0x1c, 1, 0x0, 1, 0x0, 0x0, false, false, [(0, 3, .ro), (8, 10, .ro)]⟩,
  ⟨0x20, 1, 0x0, 1, 0x0, 0x1, false, false, [(0, 1, .w1c), (1, 1, .w1c), (2, 1, .w1c), (3, 1, .w1c), (4, 1, .w1c)]⟩,
  ⟨0x24, 1, 0x0, 1, 0x0, 0x0, true, true, [(0, 32, .rw)]⟩]

/-- The rows of the TICK block. -/
def regDescsTICK : List RegDesc := [
  ⟨0x10000, 1, 0x0, 1, 0x0, 0x0, false, false, [(0, 32, .ro)]⟩,
  ⟨0x10004, 1, 0x0, 1, 0x0, 0x0, false, false, [(0, 32, .ro)]⟩,
  ⟨0x10008, 1, 0x0, 1, 0x0, 0x0, false, false, [(0, 13, .ro)]⟩,
  ⟨0x10010, 1, 0x0, 1, 0x0, 0x0, false, false, [(0, 32, .ro)]⟩,
  ⟨0x10014, 1, 0x0, 1, 0x0, 0x0, false, false, [(0, 16, .ro)]⟩,
  ⟨0x10018, 1, 0x0, 1, 0x0, 0x0, false, false, [(0, 32, .rw)]⟩,
  ⟨0x1001c, 1, 0x0, 1, 0x0, 0x0, false, false, [(0, 16, .rw)]⟩,
  ⟨0x10020, 1, 0x0, 1, 0x0, 0x0, false, false, [(0, 1, .ro), (1, 1, .w1c), (2, 1, .ro), (8, 8, .ro)]⟩,
  ⟨0x10030, 1, 0x0, 1, 0x0, 0x0, false, false, [(0, 2, .rw)]⟩,
  ⟨0x10034, 1, 0x0, 1, 0x0, 0x0, false, false, [(0, 1, .ro), (1, 1, .w1c), (2, 1, .w1c), (8, 8, .rc), (16, 12, .ro)]⟩,
  ⟨0x10040, 1, 0x0, 1, 0x0, 0x6081018, false, false, [(0, 8, .rw), (8, 8, .rw), (16, 8, .rw), (24, 8, .rw)]⟩,
  ⟨0x10044, 1, 0x0, 1, 0x0, 0x2020204, false, false, [(0, 8, .rw), (8, 8, .rw), (16, 8, .rw), (24, 8, .rw)]⟩,
  ⟨0x10048, 1, 0x0, 1, 0x0, 0x6081018, false, false, [(0, 8, .ro), (8, 8, .ro), (16, 8, .ro), (24, 8, .ro)]⟩,
  ⟨0x1004c, 1, 0x0, 1, 0x0, 0x2020204, false, false, [(0, 8, .ro), (8, 8, .ro), (16, 8, .ro), (24, 8, .ro)]⟩,
  ⟨0x10050, 1, 0x0, 1, 0x0, 0x0, false, false, [(0, 1, .w1c)]⟩,
  ⟨0x10060, 1, 0x0, 1, 0x0, 0x0, false, false, [(0, 16, .rc), (16, 5, .ro)]⟩]

/-- The rows of the HP block. -/
def regDescsHP : List RegDesc := [
  ⟨0x100000, 4, 0x40000, 1, 0x0, 0x0, false, true, [(0, 2, .ro), (2, 2, .ro), (4, 1, .ro), (5, 1, .ro), (6, 1, .ro), (8, 7, .ro)]⟩,
  ⟨0x100004, 4, 0x40000, 1, 0x0, 0x0, false, true, [(0, 1, .ro), (1, 1, .ro), (2, 1, .ro), (4, 4, .ro), (8, 3, .ro), (11, 1, .ro), (16, 5, .ro)]⟩,
  ⟨0x100008, 4, 0x40000, 1, 0x0, 0x0, false, true, [(0, 2, .ro), (2, 1, .ro), (8, 8, .rc), (16, 8, .rc)]⟩,
  ⟨0x10000c, 4, 0x40000, 1, 0x0, 0x0, false, true, [(0, 8, .ro), (8, 8, .w1c), (16, 15, .ro)]⟩,
  ⟨0x100010, 4, 0x40000, 1, 0x0, 0x0, false, true, [(0, 1, .w1c), (1, 1, .w1c), (2, 1, .w1c), (3, 1, .w1c), (4, 1, .w1c), (5, 1, .w1c), (6, 1, .w1c)]⟩,
  ⟨0x100020, 4, 0x40000, 1, 0x0, 0x0, false, true, [(0, 32, .rc)]⟩,
  ⟨0x100024, 4, 0x40000, 1, 0x0, 0x0, false, true, [(0, 32, .rc)]⟩,
  ⟨0x100028, 4, 0x40000, 1, 0x0, 0x0, false, true, [(0, 32, .rc)]⟩,
  ⟨0x10002c, 4, 0x40000, 1, 0x0, 0x0, false, true, [(0, 32, .rc)]⟩,
  ⟨0x100030, 4, 0x40000, 1, 0x0, 0x0, false, true, [(0, 32, .rc)]⟩,
  ⟨0x100034, 4, 0x40000, 1, 0x0, 0x0, false, true, [(0, 32, .rc)]⟩,
  ⟨0x100040, 4, 0x40000, 1, 0x0, 0x0, false, true, [(0, 8, .rc), (8, 8, .rc), (16, 8, .rc), (24, 8, .rc)]⟩,
  ⟨0x100100, 4, 0x40000, 64, 0x8, 0x0, false, true, [(0, 16, .ro), (16, 16, .ro)]⟩,
  ⟨0x100104, 4, 0x40000, 64, 0x8, 0x0, false, true, [(0, 12, .ro), (16, 4, .ro), (20, 1, .ro), (21, 1, .ro), (31, 1, .ro)]⟩]

/-- The rows of the QF block. -/
def regDescsQF : List RegDesc := [
  ⟨0x200000, 1, 0x0, 1, 0x0, 0x0, false, true, [(0, 1, .ro), (4, 4, .ro)]⟩,
  ⟨0x200004, 1, 0x0, 1, 0x0, 0x1000, false, true, [(0, 13, .ro), (16, 13, .ro), (31, 1, .w1c)]⟩,
  ⟨0x200008, 1, 0x0, 1, 0x0, 0x0, false, false, [(0, 5, .rw), (8, 1, .w1s)]⟩,
  ⟨0x20000c, 1, 0x0, 1, 0x0, 0x0, false, true, [(0, 1, .ro), (1, 1, .ro), (2, 1, .w1c), (8, 5, .ro)]⟩,
  ⟨0x200010, 1, 0x0, 1, 0x0, 0x0, false, true, [(0, 2, .ro), (16, 16, .rc)]⟩,
  ⟨0x200040, 4, 0x4, 1, 0x0, 0x0, false, true, [(0, 6, .ro), (8, 6, .ro), (16, 6, .ro), (24, 6, .ro), (30, 2, .rsv)]⟩,
  ⟨0x200100, 18, 0x10, 1, 0x0, 0x1, false, true, [(0, 2, .ro), (2, 1, .ro), (4, 9, .ro), (13, 1, .ro), (16, 10, .ro), (26, 6, .ro)]⟩,
  ⟨0x200104, 18, 0x10, 1, 0x0, 0x0, false, true, [(0, 12, .ro), (16, 12, .ro)]⟩,
  ⟨0x200108, 18, 0x10, 1, 0x0, 0x0, false, true, [(0, 10, .rc), (16, 6, .ro)]⟩,
  ⟨0x20010c, 18, 0x10, 1, 0x0, 0x0, false, true, [(0, 8, .rc), (8, 8, .rc), (16, 16, .rc)]⟩]

/-- The rows of the LC block. -/
def regDescsLC : List RegDesc := [
  ⟨0x300000, 1, 0x0, 1, 0x0, 0x300000, false, true, [(0, 16, .ro), (16, 6, .ro)]⟩,
  ⟨0x300004, 1, 0x0, 1, 0x0, 0x0, false, true, [(0, 1, .ro), (1, 1, .ro), (2, 1, .ro), (3, 1, .ro)]⟩,
  ⟨0x300020, 1, 0x0, 1, 0x0, 0x1820, false, true, [(0, 6, .rw), (8, 6, .rw), (16, 1, .rw)]⟩,
  ⟨0x300024, 1, 0x0, 1, 0x0, 0x0, false, true, [(0, 1, .ro), (1, 1, .ro), (8, 24, .rc)]⟩,
  ⟨0x300028, 1, 0x0, 1, 0x0, 0x0, false, true, [(0, 22, .ro)]⟩,
  ⟨0x30002c, 1, 0x0, 1, 0x0, 0x0, false, true, [(0, 12, .ro), (16, 1, .ro)]⟩,
  ⟨0x300030, 1, 0x0, 1, 0x0, 0x0, false, true, [(0, 8, .rc), (8, 8, .rc), (16, 8, .rc), (24, 8, .rc)]⟩,
  ⟨0x300034, 1, 0x0, 1, 0x0, 0x0, false, true, [(0, 8, .rc), (8, 8, .rc), (16, 1, .w1c), (24, 8, .rc)]⟩,
  ⟨0x380000, 1, 0x0, 1, 0x0, 0x0, true, true, [(6, 26, .rw)]⟩,
  ⟨0x380004, 1, 0x0, 1, 0x0, 0x0, true, true, [(0, 16, .rw)]⟩,
  ⟨0x380008, 1, 0x0, 1, 0x0, 0x0, true, true, [(0, 3, .rw), (3, 1, .w1s), (4, 16, .rw), (20, 12, .rw)]⟩,
  ⟨0x38000c, 1, 0x0, 1, 0x0, 0x0, true, true, [(0, 1, .ro), (1, 1, .w1c), (4, 8, .ro), (16, 16, .ro)]⟩,
  ⟨0x380010, 1, 0x0, 1, 0x0, 0x0, true, true, [(0, 17, .ro)]⟩,
  ⟨0x300010, 4, 0x4, 1, 0x0, 0x0, false, true, [(0, 16, .ro)]⟩,
  ⟨0x301000, 48, 0x20, 1, 0x0, 0x0, false, true, [(0, 17, .ro)]⟩,
  ⟨0x301004, 48, 0x20, 1, 0x0, 0x0, false, true, [(0, 16, .ro)]⟩,
  ⟨0x301008, 48, 0x20, 1, 0x0, 0x0, false, true, [(0, 8, .ro), (8, 5, .ro), (16, 5, .ro), (24, 7, .ro)]⟩,
  ⟨0x30100c, 48, 0x20, 1, 0x0, 0x0, false, true, [(0, 32, .ro)]⟩]

/-- The rows of the MED block. -/
def regDescsMED : List RegDesc := [
  ⟨0x400000, 16, 0x10000, 1, 0x0, 0x1, false, true, [(0, 3, .ro), (8, 8, .ro), (16, 5, .ro)]⟩,
  ⟨0x400004, 16, 0x10000, 1, 0x0, 0x0, false, false, [(0, 1, .rw), (4, 1, .w1s)]⟩,
  ⟨0x400008, 16, 0x10000, 1, 0x0, 0x0, false, true, [(0, 1, .ro), (8, 8, .rc)]⟩,
  ⟨0x40000c, 16, 0x10000, 1, 0x0, 0x7800, false, false, [(0, 8, .rw), (8, 12, .rw)]⟩,
  ⟨0x400010, 16, 0x10000, 1, 0x0, 0x0, false, true, [(0, 16, .rc), (16, 16, .rc)]⟩,
  ⟨0x400014, 16, 0x10000, 1, 0x0, 0x0, false, true, [(0, 8, .rc), (8, 8, .rc), (16, 8, .rc), (24, 8, .rc)]⟩,
  ⟨0x400020, 16, 0x10000, 1, 0x0, 0x0, false, true, [(0, 32, .rc)]⟩,
  ⟨0x400024, 16, 0x10000, 1, 0x0, 0x0, false, true, [(0, 32, .rc)]⟩,
  ⟨0x400028, 16, 0x10000, 1, 0x0, 0x0, false, true, [(0, 32, .rc)]⟩,
  ⟨0x40002c, 16, 0x10000, 1, 0x0, 0x0, false, true, [(0, 32, .rc)]⟩,
  ⟨0x400030, 16, 0x10000, 1, 0x0, 0x0, false, true, [(0, 32, .rc)]⟩,
  ⟨0x400034, 16, 0x10000, 1, 0x0, 0x0, false, true, [(0, 32, .rc)]⟩,
  ⟨0x400038, 16, 0x10000, 1, 0x0, 0x0, false, true, [(0, 32, .rc)]⟩,
  ⟨0x40003c, 16, 0x10000, 1, 0x0, 0x0, false, true, [(0, 32, .rc)]⟩,
  ⟨0x400800, 16, 0x10000, 1, 0x0, 0x0, false, false, [(0, 31, .rw)]⟩,
  ⟨0x400804, 16, 0x10000, 1, 0x0, 0x0, false, false, [(0, 3, .rw), (4, 1, .rw), (8, 1, .w1s)]⟩,
  ⟨0x400808, 16, 0x10000, 1, 0x0, 0x0, false, false, [(0, 1, .ro), (4, 4, .ro), (16, 16, .ro)]⟩,
  ⟨0x40080c, 16, 0x10000, 1, 0x0, 0x0, false, false, [(0, 8, .rw), (8, 8, .rw), (16, 8, .rw), (24, 8, .rw)]⟩,
  ⟨0x400810, 16, 0x10000, 1, 0x0, 0x0, false, false, [(0, 8, .rw), (8, 8, .rw), (16, 8, .rw)]⟩,
  ⟨0x400100, 16, 0x10000, 8, 0x10, 0x0, false, true, [(0, 3, .ro), (4, 2, .ro), (6, 1, .ro), (8, 2, .ro), (10, 6, .ro), (16, 3, .ro)]⟩,
  ⟨0x400104, 16, 0x10000, 8, 0x10, 0x0, false, true, [(0, 32, .ro)]⟩,
  ⟨0x400108, 16, 0x10000, 8, 0x10, 0x0, false, true, [(0, 8, .rc), (8, 8, .rc), (16, 16, .rc)]⟩,
  ⟨0x40010c, 16, 0x10000, 8, 0x10, 0x0, false, true, [(0, 5, .ro), (8, 8, .ro), (16, 8, .ro), (24, 8, .ro)]⟩]

/-- The rows of the MTL block. -/
def regDescsMTL : List RegDesc := [
  ⟨0x500000, 1, 0x0, 1, 0x0, 0x0, false, true, [(0, 3, .ro), (4, 1, .ro), (5, 1, .ro)]⟩,
  ⟨0x500004, 1, 0x0, 1, 0x0, 0x0, false, true, [(0, 16, .ro), (16, 16, .ro)]⟩,
  ⟨0x500008, 1, 0x0, 1, 0x0, 0x0, false, true, [(0, 18, .ro), (24, 4, .ro)]⟩,
  ⟨0x50000c, 1, 0x0, 1, 0x0, 0x0, false, true, [(0, 23, .ro)]⟩,
  ⟨0x500010, 1, 0x0, 1, 0x0, 0x40100, false, false, [(0, 10, .rw), (12, 8, .rw)]⟩,
  ⟨0x500014, 1, 0x0, 1, 0x0, 0x1e300200, false, false, [(0, 10, .rw), (12, 10, .rw), (24, 8, .rw)]⟩,
  ⟨0x500018, 1, 0x0, 1, 0x0, 0x6404, false, true, [(0, 3, .ro), (8, 7, .ro)]⟩,
  ⟨0x500020, 1, 0x0, 1, 0x0, 0x0, false, true, [(0, 32, .ro)]⟩,
  ⟨0x500024, 1, 0x0, 1, 0x0, 0x0, false, true, [(0, 32, .ro)]⟩,
  ⟨0x500028, 1, 0x0, 1, 0x0, 0x0, false, true, [(0, 32, .ro)]⟩,
  ⟨0x50002c, 1, 0x0, 1, 0x0, 0x0, false, true, [(0, 32, .ro)]⟩,
  ⟨0x500030, 1, 0x0, 1, 0x0, 0x0, false, true, [(0, 29, .ro)]⟩,
  ⟨0x500034, 1, 0x0, 1, 0x0, 0x0, false, true, [(0, 23, .ro), (24, 8, .rc)]⟩,
  ⟨0x500038, 1, 0x0, 1, 0x0, 0x0, false, true, [(0, 16, .ro), (16, 16, .ro)]⟩,
  ⟨0x50003c, 1, 0x0, 1, 0x0, 0x0, false, true, [(0, 16, .ro), (16, 16, .ro)]⟩,
  ⟨0x500040, 1, 0x0, 1, 0x0, 0x0, false, true, [(0, 16, .ro), (16, 1, .ro)]⟩,
  ⟨0x500044, 1, 0x0, 1, 0x0, 0x0, false, true, [(0, 8, .rc), (8, 8, .rc), (16, 8, .rc), (24, 1, .w1c)]⟩,
  ⟨0x500050, 1, 0x0, 1, 0x0, 0x0, false, true, [(0, 32, .rc)]⟩,
  ⟨0x500054, 1, 0x0, 1, 0x0, 0x0, false, true, [(0, 32, .rc)]⟩]

/-- The rows of the ICU block. -/
def regDescsICU : List RegDesc := [
  ⟨0x600000, 1, 0x0, 1, 0x0, 0x0, false, true, [(0, 3, .ro), (4, 1, .ro), (5, 1, .ro)]⟩,
  ⟨0x600004, 1, 0x0, 1, 0x0, 0xf0f, false, true, [(0, 4, .ro), (8, 4, .ro)]⟩,
  ⟨0x600008, 1, 0x0, 1, 0x0, 0x0, false, true, [(0, 12, .ro), (16, 16, .ro)]⟩,
  ⟨0x60000c, 1, 0x0, 1, 0x0, 0x0, false, true, [(0, 14, .ro), (16, 14, .ro)]⟩,
  ⟨0x600010, 1, 0x0, 1, 0x0, 0x0, false, false, [(0, 1, .w1s)]⟩,
  ⟨0x600014, 1, 0x0, 1, 0x0, 0x0, false, true, [(0, 3, .ro), (8, 3, .ro), (16, 16, .ro)]⟩,
  ⟨0x600018, 1, 0x0, 1, 0x0, 0x0, false, true, [(0, 32, .ro)]⟩,
  ⟨0x60001c, 1, 0x0, 1, 0x0, 0x0, false, true, [(0, 32, .ro)]⟩,
  ⟨0x600030, 1, 0x0, 1, 0x0, 0x0, false, true, [(0, 3, .ro), (4, 12, .ro), (16, 8, .ro), (24, 8, .ro)]⟩,
  ⟨0x600034, 1, 0x0, 1, 0x0, 0x0, false, true, [(0, 27, .ro)]⟩,
  ⟨0x600038, 1, 0x0, 1, 0x0, 0x0, false, true, [(0, 32, .ro)]⟩,
  ⟨0x60003c, 1, 0x0, 1, 0x0, 0x0, false, true, [(0, 16, .ro)]⟩,
  ⟨0x600040, 1, 0x0, 1, 0x0, 0x0, false, true, [(0, 32, .ro)]⟩,
  ⟨0x600044, 1, 0x0, 1, 0x0, 0x0, false, true, [(0, 16, .ro)]⟩,
  ⟨0x600048, 1, 0x0, 1, 0x0, 0x0, false, true, [(0, 27, .ro)]⟩,
  ⟨0x600050, 1, 0x0, 1, 0x0, 0x0, false, true, [(0, 32, .rc)]⟩,
  ⟨0x600054, 1, 0x0, 1, 0x0, 0x0, false, true, [(0, 32, .rc)]⟩,
  ⟨0x600058, 1, 0x0, 1, 0x0, 0x0, false, true, [(0, 32, .rc)]⟩,
  ⟨0x60005c, 1, 0x0, 1, 0x0, 0x0, false, true, [(0, 32, .rc)]⟩,
  ⟨0x600060, 1, 0x0, 1, 0x0, 0x0, false, true, [(0, 8, .rc), (8, 8, .rc), (16, 8, .rc), (24, 8, .rc)]⟩,
  ⟨0x600064, 1, 0x0, 1, 0x0, 0x0, false, true, [(0, 7, .ro), (7, 1, .ro)]⟩,
  ⟨0x600100, 64, 0x8, 1, 0x0, 0x0, false, true, [(0, 32, .ro)]⟩,
  ⟨0x600104, 64, 0x8, 1, 0x0, 0x0, false, true, [(0, 6, .ro), (8, 4, .ro), (31, 1, .ro)]⟩]

/-- The rows of the KV block. -/
def regDescsKV : List RegDesc := [
  ⟨0x700000, 1, 0x0, 1, 0x0, 0x0, false, true, [(0, 2, .ro), (4, 2, .ro), (8, 1, .ro), (9, 1, .ro), (16, 13, .ro)]⟩,
  ⟨0x700004, 1, 0x0, 1, 0x0, 0x0, true, true, [(0, 12, .rw)]⟩,
  ⟨0x700008, 1, 0x0, 1, 0x0, 0x0, false, true, [(0, 2, .ro), (8, 8, .ro), (16, 8, .ro), (24, 1, .ro)]⟩,
  ⟨0x70000c, 1, 0x0, 1, 0x0, 0x0, true, true, [(0, 8, .rw)]⟩,
  ⟨0x700010, 1, 0x0, 1, 0x0, 0x0, false, true, [(0, 2, .ro), (8, 6, .ro), (16, 6, .ro), (24, 1, .ro)]⟩,
  ⟨0x700014, 1, 0x0, 1, 0x0, 0x0, false, true, [(0, 32, .ro)]⟩,
  ⟨0x700018, 1, 0x0, 1, 0x0, 0x0, false, true, [(0, 16, .ro)]⟩,
  ⟨0x70001c, 1, 0x0, 1, 0x0, 0x0, false, true, [(0, 32, .ro)]⟩,
  ⟨0x700020, 1, 0x0, 1, 0x0, 0x0, false, true, [(0, 16, .ro)]⟩,
  ⟨0x700024, 1, 0x0, 1, 0x0, 0x0, false, true, [(0, 28, .ro)]⟩,
  ⟨0x700028, 1, 0x0, 1, 0x0, 0x0, false, true, [(0, 16, .ro)]⟩,
  ⟨0x70002c, 1, 0x0, 1, 0x0, 0x0, false, true, [(0, 8, .rc), (8, 8, .rc), (16, 16, .rc)]⟩,
  ⟨0x700030, 1, 0x0, 1, 0x0, 0xf0000, false, true, [(0, 8, .rc), (8, 4, .ro), (16, 4, .ro), (24, 1, .ro)]⟩,
  ⟨0x700034, 1, 0x0, 1, 0x0, 0x0, false, true, [(0, 24, .ro), (24, 8, .rc)]⟩,
  ⟨0x700040, 1, 0x0, 1, 0x0, 0x0, false, true, [(0, 32, .rc)]⟩,
  ⟨0x700044, 1, 0x0, 1, 0x0, 0x0, false, true, [(0, 32, .rc)]⟩,
  ⟨0x701000, 8, 0x40, 1, 0x0, 0x40007, false, true, [(0, 3, .rw), (8, 1, .rw), (16, 4, .rw), (24, 5, .rw)]⟩,
  ⟨0x701004, 8, 0x40, 1, 0x0, 0x0, false, true, [(0, 2, .ro), (4, 4, .ro), (8, 1, .ro)]⟩,
  ⟨0x701008, 8, 0x40, 1, 0x0, 0x0, false, true, [(12, 20, .rw)]⟩,
  ⟨0x70100c, 8, 0x40, 1, 0x0, 0x0, false, true, [(0, 16, .rw)]⟩,
  ⟨0x701010, 8, 0x40, 1, 0x0, 0x0, false, true, [(12, 20, .rw)]⟩,
  ⟨0x701014, 8, 0x40, 1, 0x0, 0x0, false, true, [(0, 16, .rw)]⟩,
  ⟨0x701018, 8, 0x40, 1, 0x0, 0x0, false, true, [(0, 12, .rw)]⟩,
  ⟨0x70101c, 8, 0x40, 1, 0x0, 0x0, false, true, [(0, 12, .ro)]⟩,
  ⟨0x701020, 8, 0x40, 1, 0x0, 0x10000, false, true, [(0, 12, .ro), (16, 1, .ro)]⟩,
  ⟨0x701024, 8, 0x40, 1, 0x0, 0x0, false, true, [(0, 12, .rw)]⟩]

/-- The rows of the MEMP block. -/
def regDescsMEMP : List RegDesc := [
  ⟨0x900000, 1, 0x0, 1, 0x0, 0x0, false, false, [(0, 1, .ro), (1, 1, .ro)]⟩,
  ⟨0x900004, 1, 0x0, 1, 0x0, 0x0, false, false, [(0, 1, .rw)]⟩,
  ⟨0x900008, 1, 0x0, 1, 0x0, 0x40, false, false, [(0, 16, .rw)]⟩,
  ⟨0x90000c, 1, 0x0, 1, 0x0, 0x0, false, false, [(0, 9, .ro), (16, 1, .ro)]⟩,
  ⟨0x900a00, 1, 0x0, 1, 0x0, 0x0, false, false, [(0, 8, .rw), (8, 8, .rw)]⟩,
  ⟨0x900a04, 1, 0x0, 1, 0x0, 0x0, false, false, [(0, 2, .rw), (2, 1, .rw), (3, 1, .rw), (4, 1, .rw), (8, 7, .rw), (16, 7, .rw), (31, 1, .w1s)]⟩,
  ⟨0x900a08, 1, 0x0, 1, 0x0, 0x0, false, false, [(0, 32, .rw)]⟩,
  ⟨0x900a0c, 1, 0x0, 1, 0x0, 0x0, false, false, [(0, 1, .w1c), (1, 1, .w1c), (4, 4, .ro), (8, 2, .ro)]⟩,
  ⟨0x900040, 16, 0x4, 1, 0x0, 0x0, false, false, [(0, 32, .ro)]⟩,
  ⟨0x900080, 16, 0x4, 1, 0x0, 0x0, false, false, [(0, 32, .ro)]⟩,
  ⟨0x9000c0, 16, 0x4, 1, 0x0, 0x0, false, false, [(0, 16, .ro)]⟩,
  ⟨0x900200, 256, 0x8, 1, 0x0, 0x0, false, false, [(0, 32, .ro)]⟩,
  ⟨0x900204, 256, 0x8, 1, 0x0, 0x0, false, false, [(0, 4, .ro), (8, 8, .ro), (16, 7, .ro), (24, 7, .ro), (31, 1, .ro)]⟩]

/-- The rows of the DMV block. -/
def regDescsDMV : List RegDesc := [
  ⟨0x800000, 1, 0x0, 1, 0x0, 0x0, false, true, [(0, 16, .ro), (16, 16, .ro)]⟩,
  ⟨0x800100, 16, 0x40, 1, 0x0, 0x40007, false, true, [(0, 3, .rw), (8, 1, .rw), (16, 4, .rw), (24, 5, .rw)]⟩,
  ⟨0x800104, 16, 0x40, 1, 0x0, 0x0, false, true, [(0, 2, .ro), (4, 4, .ro), (8, 1, .ro)]⟩,
  ⟨0x800108, 16, 0x40, 1, 0x0, 0x0, false, true, [(12, 20, .rw)]⟩,
  ⟨0x80010c, 16, 0x40, 1, 0x0, 0x0, false, true, [(0, 16, .rw)]⟩,
  ⟨0x800110, 16, 0x40, 1, 0x0, 0x0, false, true, [(12, 20, .rw)]⟩,
  ⟨0x800114, 16, 0x40, 1, 0x0, 0x0, false, true, [(0, 16, .rw)]⟩,
  ⟨0x800118, 16, 0x40, 1, 0x0, 0x0, false, true, [(0, 12, .rw)]⟩,
  ⟨0x80011c, 16, 0x40, 1, 0x0, 0x0, false, true, [(0, 12, .ro)]⟩,
  ⟨0x800120, 16, 0x40, 1, 0x0, 0x10000, false, true, [(0, 12, .ro), (16, 1, .ro)]⟩,
  ⟨0x800124, 16, 0x40, 1, 0x0, 0x0, false, true, [(0, 12, .rw)]⟩,
  ⟨0x800128, 16, 0x40, 1, 0x0, 0x0, false, true, [(0, 2, .wo)]⟩,
  ⟨0x80012c, 16, 0x40, 1, 0x0, 0x0, false, true, [(6, 26, .ro)]⟩,
  ⟨0x800130, 16, 0x40, 1, 0x0, 0x0, false, true, [(0, 16, .ro)]⟩,
  ⟨0x800134, 16, 0x40, 1, 0x0, 0x0, false, true, [(0, 21, .ro)]⟩]

/-- The rows of the MGMT block. -/
def regDescsMGMT : List RegDesc := [
  ⟨0xa00000, 1, 0x0, 1, 0x0, 0x0, false, false, [(0, 4, .ro), (4, 2, .ro), (6, 1, .ro)]⟩,
  ⟨0xa00004, 1, 0x0, 1, 0x0, 0x0, false, false, [(0, 2, .ro), (4, 1, .ro), (5, 1, .ro)]⟩,
  ⟨0xa00008, 1, 0x0, 1, 0x0, 0x0, false, false, [(0, 32, .ro)]⟩,
  ⟨0xa0000c, 1, 0x0, 1, 0x0, 0x0, false, false, [(0, 32, .ro)]⟩,
  ⟨0xa00010, 1, 0x0, 1, 0x0, 0x333, false, false, [(0, 2, .ro), (4, 2, .ro), (8, 2, .ro), (12, 1, .ro), (16, 2, .ro), (20, 1, .ro)]⟩,
  ⟨0xa00014, 1, 0x0, 1, 0x0, 0x0, false, false, [(0, 32, .ro)]⟩,
  ⟨0xa00018, 1, 0x0, 1, 0x0, 0x0, false, false, [(0, 16, .ro)]⟩,
  ⟨0xa0001c, 1, 0x0, 1, 0x0, 0x0, false, false, [(0, 32, .ro)]⟩,
  ⟨0xa00020, 1, 0x0, 1, 0x0, 0x0, false, false, [(0, 8, .rc), (8, 4, .ro), (12, 2, .ro), (16, 2, .ro)]⟩,
  ⟨0xa00030, 1, 0x0, 1, 0x0, 0x0, false, false, [(0, 1, .ro), (1, 7, .ro), (8, 7, .ro), (16, 8, .ro)]⟩,
  ⟨0xa00034, 1, 0x0, 1, 0x0, 0x0, false, false, [(0, 2, .rw)]⟩,
  ⟨0xa00038, 1, 0x0, 1, 0x0, 0x0, false, false, [(0, 8, .rc), (8, 8, .rc), (16, 8, .rc)]⟩,
  ⟨0xa00040, 1, 0x0, 1, 0x0, 0x0, false, false, [(0, 1, .w1c), (5, 3, .ro), (8, 5, .ro), (16, 16, .ro)]⟩,
  ⟨0xa00044, 1, 0x0, 1, 0x0, 0x0, false, false, [(0, 12, .ro), (16, 8, .rc)]⟩,
  ⟨0xa00050, 1, 0x0, 1, 0x0, 0x0, false, false, [(0, 16, .ro), (16, 16, .ro)]⟩,
  ⟨0xa00054, 1, 0x0, 1, 0x0, 0x0, false, false, [(0, 16, .ro)]⟩,
  ⟨0xa08000, 1, 0x0, 1, 0x0, 0x0, false, false, [(0, 2, .ro), (2, 1, .ro), (3, 1, .ro), (4, 3, .ro), (8, 3, .ro)]⟩,
  ⟨0xa08004, 1, 0x0, 1, 0x0, 0x0, false, false, [(0, 32, .ro)]⟩,
  ⟨0xa08008, 1, 0x0, 1, 0x0, 0x0, false, false, [(0, 32, .ro)]⟩,
  ⟨0xa0800c, 1, 0x0, 1, 0x0, 0x0, false, false, [(0, 32, .ro)]⟩,
  ⟨0xa08010, 1, 0x0, 1, 0x0, 0x0, false, false, [(0, 8, .ro), (8, 16, .ro), (24, 2, .ro)]⟩,
  ⟨0xa08014, 1, 0x0, 1, 0x0, 0x0, false, false, [(0, 16, .ro)]⟩,
  ⟨0xa08020, 12, 0x4, 1, 0x0, 0x0, false, false, [(0, 32, .ro)]⟩]

/-- The rows of the SF block. -/
def regDescsSF : List RegDesc := [
  ⟨0xb00000, 1, 0x0, 1, 0x0, 0x200, false, false, [(0, 1, .ro), (4, 4, .ro), (8, 1, .ro), (9, 1, .ro)]⟩,
  ⟨0xb00004, 1, 0x0, 1, 0x0, 0x0, false, false, [(0, 8, .wo)]⟩,
  ⟨0xb00008, 1, 0x0, 1, 0x0, 0x0, false, false, [(0, 8, .wo), (8, 1, .wo)]⟩,
  ⟨0xb0000c, 1, 0x0, 1, 0x0, 0x0, false, false, [(3, 23, .rw)]⟩,
  ⟨0xb00010, 1, 0x0, 1, 0x0, 0x0, false, false, [(0, 32, .wo)]⟩,
  ⟨0xb00014, 1, 0x0, 1, 0x0, 0x0, false, false, [(0, 32, .wo)]⟩,
  ⟨0xb00018, 1, 0x0, 1, 0x0, 0x0, false, false, [(0, 1, .ro), (1, 1, .w1c), (2, 1, .w1c), (3, 1, .w1c), (4, 1, .w1c), (5, 1, .ro), (6, 1, .w1c), (7, 1, .w1c), (8, 1, .w1c), (9, 1, .w1c), (10, 1, .w1c), (11, 1, .ro), (12, 1, .ro), (13, 1, .w1c), (16, 8, .ro), (24, 2, .ro)]⟩,
  ⟨0xb0001c, 1, 0x0, 1, 0x0, 0x0, false, false, [(0, 8, .rc), (8, 8, .rc), (16, 1, .w1c), (24, 8, .rc)]⟩,
  ⟨0xb00030, 1, 0x0, 1, 0x0, 0x700, false, false, [(0, 3, .ro), (4, 1, .ro), (8, 3, .ro), (16, 16, .ro)]⟩,
  ⟨0xb00034, 1, 0x0, 1, 0x0, 0x0, false, false, [(0, 1, .ro), (4, 1, .ro), (8, 2, .ro), (12, 1, .ro), (13, 1, .ro)]⟩,
  ⟨0xb00038, 1, 0x0, 1, 0x0, 0x0, false, false, [(0, 6, .ro), (8, 1, .w1s), (12, 3, .ro)]⟩,
  ⟨0xb0003c, 1, 0x0, 1, 0x0, 0x0, false, false, [(0, 32, .ro)]⟩,
  ⟨0xb00040, 1, 0x0, 1, 0x0, 0x0, false, false, [(0, 32, .ro)]⟩,
  ⟨0xb00044, 1, 0x0, 1, 0x0, 0x0, false, false, [(0, 16, .ro), (16, 16, .ro)]⟩,
  ⟨0xb00048, 1, 0x0, 1, 0x0, 0x0, false, false, [(0, 8, .ro), (8, 2, .ro)]⟩,
  ⟨0xb0004c, 1, 0x0, 1, 0x0, 0x0, false, false, [(0, 1, .w1s), (4, 1, .ro)]⟩,
  ⟨0xb00060, 12, 0x4, 1, 0x0, 0x0, false, false, [(0, 32, .ro)]⟩]

/-- The rows of the GAU block. -/
def regDescsGAU : List RegDesc := [
  ⟨0xc00000, 1, 0x0, 1, 0x0, 0x0, false, false, [(0, 1, .ro), (1, 1, .ro), (2, 6, .ro), (8, 1, .ro), (16, 5, .ro), (24, 8, .ro)]⟩,
  ⟨0xc00004, 1, 0x0, 1, 0x0, 0x0, true, false, [(0, 8, .rw)]⟩,
  ⟨0xc00008, 1, 0x0, 1, 0x0, 0x0, false, false, [(0, 8, .ro), (8, 3, .ro), (12, 2, .ro), (16, 16, .ro)]⟩,
  ⟨0xc0000c, 1, 0x0, 1, 0x0, 0x0, false, false, [(0, 20, .ro)]⟩,
  ⟨0xc00010, 1, 0x0, 1, 0x0, 0x0, false, false, [(0, 20, .ro), (24, 8, .ro)]⟩,
  ⟨0xc00014, 1, 0x0, 1, 0x0, 0x0, false, false, [(0, 8, .rc), (8, 8, .rc), (16, 8, .rc), (24, 8, .rc)]⟩,
  ⟨0xc00018, 1, 0x0, 1, 0x0, 0x0, false, false, [(0, 32, .rc)]⟩,
  ⟨0xc00020, 8, 0x4, 1, 0x0, 0x0, false, false, [(0, 32, .ro)]⟩]

/-- The rows of the SED block. -/
def regDescsSED : List RegDesc := [
  ⟨0xd00000, 1, 0x0, 1, 0x0, 0x0, false, false, [(0, 1, .ro), (1, 1, .ro), (2, 1, .ro), (4, 10, .ro)]⟩,
  ⟨0xd00004, 1, 0x0, 1, 0x0, 0x0, false, false, [(0, 32, .ro)]⟩,
  ⟨0xd00008, 1, 0x0, 1, 0x0, 0x0, false, false, [(0, 32, .ro)]⟩,
  ⟨0xd0000c, 1, 0x0, 1, 0x0, 0x0, false, false, [(0, 18, .ro)]⟩,
  ⟨0xd00010, 1, 0x0, 1, 0x0, 0x0, false, false, [(0, 32, .rc)]⟩,
  ⟨0xd00014, 1, 0x0, 1, 0x0, 0x0, false, false, [(0, 32, .rc)]⟩,
  ⟨0xd00018, 1, 0x0, 1, 0x0, 0x0, false, false, [(0, 16, .rc), (16, 16, .rc)]⟩,
  ⟨0xd0001c, 1, 0x0, 1, 0x0, 0x0, false, false, [(0, 6, .ro), (16, 6, .ro), (24, 8, .rc)]⟩,
  ⟨0xd00020, 1, 0x0, 1, 0x0, 0x0, false, false, [(0, 16, .rc), (16, 8, .rc)]⟩]

/-- The rows of the PWR block. -/
def regDescsPWR : List RegDesc := [
  ⟨0xe00000, 1, 0x0, 1, 0x0, 0x0, false, false, [(0, 3, .ro), (4, 3, .ro), (8, 2, .ro), (12, 4, .ro), (16, 5, .ro), (24, 3, .ro)]⟩,
  ⟨0xe00004, 1, 0x0, 1, 0x0, 0xc80fa0, false, false, [(0, 1, .rw), (4, 12, .rw), (16, 10, .rw)]⟩,
  ⟨0xe00008, 1, 0x0, 1, 0x0, 0x7f, false, false, [(0, 7, .rw)]⟩,
  ⟨0xe0000c, 1, 0x0, 1, 0x0, 0x0, false, false, [(0, 7, .w1c)]⟩,
  ⟨0xe00010, 1, 0x0, 1, 0x0, 0x0, false, false, [(0, 32, .rw)]⟩,
  ⟨0xe00014, 1, 0x0, 1, 0x0, 0x0, false, false, [(0, 32, .rw)]⟩,
  ⟨0xe00018, 1, 0x0, 1, 0x0, 0x15005, false, false, [(0, 2, .ro), (2, 2, .ro), (4, 2, .ro), (6, 2, .ro), (8, 2, .ro), (10, 2, .ro), (12, 2, .ro), (14, 2, .ro), (16, 2, .ro), (18, 2, .ro), (20, 9, .ro)]⟩,
  ⟨0xe0001c, 1, 0x0, 1, 0x0, 0x15500, false, false, [(0, 8, .ro), (8, 8, .ro), (16, 1, .ro)]⟩,
  ⟨0xe00020, 1, 0x0, 1, 0x0, 0x0, false, false, [(0, 9, .ro), (16, 9, .w1c)]⟩,
  ⟨0xe00024, 1, 0x0, 1, 0x0, 0x0, false, false, [(0, 16, .ro), (16, 16, .ro)]⟩,
  ⟨0xe00028, 1, 0x0, 1, 0x0, 0x0, false, false, [(0, 16, .rc), (16, 16, .rc)]⟩,
  ⟨0xe00040, 9, 0x4, 1, 0x0, 0x0, false, false, [(0, 32, .ro)]⟩]

/-- The rows of the SUP block. -/
def regDescsSUP : List RegDesc := [
  ⟨0xf00000, 1, 0x0, 1, 0x0, 0xc0d02, false, false, [(0, 3, .ro), (8, 5, .ro), (16, 5, .ro), (24, 1, .ro)]⟩,
  ⟨0xf00004, 1, 0x0, 1, 0x0, 0x0, false, false, [(0, 10, .ro), (16, 10, .ro)]⟩,
  ⟨0xf00008, 1, 0x0, 1, 0x0, 0x0, false, false, [(0, 10, .ro), (16, 10, .ro)]⟩,
  ⟨0xf0000c, 1, 0x0, 1, 0x0, 0x0, false, false, [(0, 16, .ro), (16, 16, .rc)]⟩,
  ⟨0xf00010, 1, 0x0, 1, 0x0, 0x0, false, false, [(0, 16, .ro), (16, 16, .ro)]⟩,
  ⟨0xf00014, 1, 0x0, 1, 0x0, 0x0, false, false, [(0, 16, .ro), (16, 16, .ro)]⟩,
  ⟨0xf00018, 1, 0x0, 1, 0x0, 0xdc0000, false, false, [(0, 16, .ro), (16, 12, .ro), (28, 1, .ro), (29, 1, .ro), (30, 1, .ro), (31, 1, .ro)]⟩,
  ⟨0xf0001c, 1, 0x0, 1, 0x0, 0x12c, false, false, [(0, 9, .rw), (16, 1, .w1s)]⟩,
  ⟨0xf00020, 1, 0x0, 1, 0x0, 0x0, false, false, [(0, 16, .ro), (16, 16, .ro)]⟩,
  ⟨0xf00024, 1, 0x0, 1, 0x0, 0x1c, false, false, [(0, 8, .rw), (16, 16, .rc)]⟩,
  ⟨0xf00028, 1, 0x0, 1, 0x0, 0x0, false, false, [(0, 16, .ro), (16, 4, .ro), (20, 1, .ro), (21, 1, .ro)]⟩,
  ⟨0xf0002c, 1, 0x0, 1, 0x0, 0x0, false, false, [(0, 8, .rc), (8, 1, .ro), (9, 1, .ro)]⟩,
  ⟨0xf00030, 1, 0x0, 1, 0x0, 0x4, false, false, [(0, 1, .ro), (1, 1, .ro), (2, 1, .ro), (8, 8, .rc), (16, 1, .w1c)]⟩,
  ⟨0xf00034, 1, 0x0, 1, 0x0, 0x0, false, false, [(0, 16, .rc), (16, 16, .rc)]⟩,
  ⟨0xf00038, 1, 0x0, 1, 0x0, 0x0, false, false, [(0, 10, .w1c)]⟩,
  ⟨0xf0003c, 1, 0x0, 1, 0x0, 0x0, false, false, [(0, 16, .ro), (16, 4, .ro), (20, 12, .ro)]⟩]

/-- The rows of the THM block. -/
def regDescsTHM : List RegDesc := [
  ⟨0x1000000, 1, 0x0, 1, 0x0, 0x0, false, false, [(0, 2, .ro), (2, 2, .ro), (4, 2, .ro), (8, 4, .ro), (16, 16, .ro)]⟩,
  ⟨0x1000004, 1, 0x0, 1, 0x0, 0x0, false, false, [(0, 8, .ro), (8, 8, .ro), (16, 8, .ro)]⟩,
  ⟨0x1000008, 1, 0x0, 1, 0x0, 0x0, false, false, [(0, 16, .ro), (16, 1, .ro)]⟩,
  ⟨0x100000c, 1, 0x0, 1, 0x0, 0x0, false, false, [(0, 8, .ro), (8, 8, .ro), (16, 8, .ro), (24, 8, .ro)]⟩,
  ⟨0x1000010, 1, 0x0, 1, 0x0, 0x0, false, false, [(0, 8, .ro), (8, 8, .ro), (16, 8, .ro), (24, 8, .ro)]⟩,
  ⟨0x1000014, 1, 0x0, 1, 0x0, 0x0, false, false, [(0, 8, .ro), (8, 8, .ro), (16, 8, .ro), (24, 8, .ro)]⟩,
  ⟨0x1000018, 1, 0x0, 1, 0x0, 0x0, false, false, [(0, 8, .ro), (8, 8, .ro), (16, 8, .ro), (24, 8, .ro)]⟩,
  ⟨0x100001c, 1, 0x0, 1, 0x0, 0x0, false, false, [(0, 30, .ro)]⟩,
  ⟨0x1000020, 1, 0x0, 1, 0x0, 0x0, false, false, [(0, 16, .rc), (16, 16, .rc)]⟩,
  ⟨0x1000100, 64, 0x4, 1, 0x0, 0x0, false, false, [(0, 16, .ro), (16, 4, .ro), (31, 1, .ro)]⟩]

/-- The rows of the NRW block. -/
def regDescsNRW : List RegDesc := [
  ⟨0x1100000, 1, 0x0, 1, 0x0, 0x0, false, false, [(0, 3, .ro), (4, 1, .ro), (5, 1, .ro), (6, 1, .ro), (7, 1, .ro), (8, 1, .ro), (12, 3, .ro), (16, 1, .ro)]⟩,
  ⟨0x1100004, 1, 0x0, 1, 0x0, 0x19, false, false, [(0, 7, .rw)]⟩,
  ⟨0x1100008, 1, 0x0, 1, 0x0, 0x0, false, false, [(0, 32, .ro)]⟩,
  ⟨0x1100010, 1, 0x0, 1, 0x0, 0x0, false, false, [(0, 32, .ro)]⟩,
  ⟨0x1100014, 1, 0x0, 1, 0x0, 0x0, false, false, [(0, 24, .ro)]⟩,
  ⟨0x11000c0, 1, 0x0, 1, 0x0, 0x0, false, false, [(0, 32, .rc)]⟩,
  ⟨0x1100020, 2, 0x20, 1, 0x0, 0x0, false, false, [(0, 2, .ro), (4, 4, .ro), (8, 1, .ro), (9, 1, .ro), (16, 10, .ro)]⟩,
  ⟨0x1100024, 2, 0x20, 1, 0x0, 0x0, false, false, [(0, 8, .rc), (8, 8, .rc), (16, 8, .rc), (24, 8, .rc)]⟩,
  ⟨0x1100028, 2, 0x20, 1, 0x0, 0x0, false, false, [(0, 32, .rc)]⟩,
  ⟨0x1100080, 3, 0x10, 1, 0x0, 0x0, false, false, [(0, 2, .ro), (4, 3, .ro), (8, 4, .ro)]⟩,
  ⟨0x1100084, 3, 0x10, 1, 0x0, 0x0, false, false, [(0, 32, .ro)]⟩,
  ⟨0x1100088, 3, 0x10, 1, 0x0, 0x0, false, false, [(0, 24, .ro)]⟩,
  ⟨0x110008c, 3, 0x10, 1, 0x0, 0x0, false, false, [(0, 23, .ro)]⟩]

/-- The rows of the OBS block. -/
def regDescsOBS : List RegDesc := [
  ⟨0x1200000, 1, 0x0, 1, 0x0, 0x3, false, true, [(0, 2, .ro), (4, 1, .ro), (5, 1, .ro), (8, 1, .ro), (9, 1, .ro)]⟩,
  ⟨0x1200004, 1, 0x0, 1, 0x0, 0x0, false, true, [(0, 24, .ro), (24, 8, .ro)]⟩,
  ⟨0x1200008, 1, 0x0, 1, 0x0, 0x0, false, true, [(0, 16, .ro), (16, 16, .ro)]⟩,
  ⟨0x1200260, 1, 0x0, 1, 0x0, 0x0, true, true, [(0, 8, .ro), (8, 8, .ro), (16, 8, .ro)]⟩,
  ⟨0x1200400, 1, 0x0, 1, 0x0, 0xa40, false, false, [(0, 1, .rw), (4, 3, .rw), (8, 5, .rw)]⟩,
  ⟨0x1200404, 1, 0x0, 1, 0x0, 0x7f, false, false, [(0, 4, .rw), (4, 3, .rw), (8, 1, .rw), (16, 12, .rw)]⟩,
  ⟨0x1200408, 1, 0x0, 1, 0x0, 0x0, false, false, [(0, 24, .rw)]⟩,
  ⟨0x120040c, 1, 0x0, 1, 0x0, 0x0, false, true, [(0, 9, .ro), (16, 8, .rc), (24, 8, .rc)]⟩,
  ⟨0x1200500, 1, 0x0, 1, 0x0, 0x3, false, false, [(0, 10, .rw), (16, 1, .rw)]⟩,
  ⟨0x1200504, 1, 0x0, 1, 0x0, 0xa7f, false, false, [(0, 4, .rw), (4, 3, .rw), (8, 5, .rw)]⟩,
  ⟨0x1200508, 1, 0x0, 1, 0x0, 0x0, false, false, [(0, 24, .rw)]⟩,
  ⟨0x120050c, 1, 0x0, 1, 0x0, 0x0, false, true, [(0, 16, .rc), (16, 16, .rc)]⟩,
  ⟨0x1200510, 1, 0x0, 1, 0x0, 0x0, false, true, [(0, 32, .wo)]⟩,
  ⟨0x1200100, 16, 0x4, 1, 0x0, 0x0, false, true, [(0, 32, .ro)]⟩,
  ⟨0x1200140, 16, 0x4, 1, 0x0, 0x0, false, true, [(0, 32, .ro)]⟩,
  ⟨0x1200200, 8, 0x8, 1, 0x0, 0x0, true, true, [(0, 8, .rw), (8, 8, .rw)]⟩,
  ⟨0x1200204, 8, 0x8, 1, 0x0, 0x0, true, true, [(0, 32, .ro)]⟩,
  ⟨0x1200240, 8, 0x4, 1, 0x0, 0x0, true, true, [(0, 32, .ro)]⟩,
  ⟨0x1200410, 8, 0x4, 1, 0x0, 0x0, false, true, [(0, 32, .ro)]⟩]

/-- The whole register map. -/
def regDescs : List RegDesc :=
  regDescsGLB ++ regDescsTICK ++ regDescsHP ++ regDescsQF ++ regDescsLC ++ regDescsMED ++ regDescsMTL ++ regDescsICU ++ regDescsKV ++ regDescsMEMP ++ regDescsDMV ++ regDescsMGMT ++ regDescsSF ++ regDescsGAU ++ regDescsSED ++ regDescsPWR ++ regDescsSUP ++ regDescsTHM ++ regDescsNRW ++ regDescsOBS

/-- Whether the address is an element of the row. -/
def RegDesc.covers (d : RegDesc) (a : Nat) : Bool :=
  let off := a - d.base
  decide (d.base ≤ a) &&
  (if d.n2 = 1 then
     (if d.n1 = 1 then decide (off = 0) else decide (off % d.s1 = 0) && decide (off / d.s1 < d.n1))
   else decide (off / d.s1 < d.n1) && decide ((off % d.s1) % d.s2 = 0) && decide ((off % d.s1) / d.s2 < d.n2))

/-- The row of an address within one bank; none where no register map assigns the offset (R18). -/
def regDesc (a : Nat) : Option RegDesc := regDescs.find? (fun d => d.covers a)

end Sys2Proof.Machine
end

