-- ==== Sys2Proof/Machine/State.lean ====
section
/-! DEFINITION. The state of the block: every register, queue, buffer, counter, mode and pin that the spec gives it, as
plain data, with the commands that wait; the faults and refusals; and the state after reset. -/

namespace Sys2Proof.Machine

/-! ### Ripple tick, RIPPLE_SYNC and calendar (chapter 01) -/

/-- The tick and calendar logic of PD_AON (R27 to R55, R724): state that is no register field. -/
structure Tick where
  /-- TICK_COUNT: bits 17 to 0 are the tick within the epoch, bits 63 to 18 the epoch (R28). -/
  count : Nat
  /-- calendar in milliseconds, 48 bits (R53) -/
  cal : Nat
  /-- ticks for which the calendar is still held (R55) -/
  hold : Nat
  /-- a committed TICK_CAL_SET waiting for the next boundary (R54) -/
  calSet : Option Nat
  /-- committed TICK_BUDGET words, LO then HI, waiting for the next boundary (R33 step 4) -/
  budgetSet : Option (Nat × Nat)
  /-- role in force: 0 standalone, 1 master, 2 follower (R43 to R52) -/
  role : Nat
  /-- runs as a follower until reset after a conflict (R52) -/
  forcedFollower : Bool
  /-- consecutive pulses spaced 400 REFCLK cycles apart seen so far (R48) -/
  goodPulses : Nat
  /-- the follower has been locked before in this epoch numbering (R49) -/
  everLocked : Bool
  /-- a first lock waits for the master's next marker (R49) -/
  shortPending : Bool
  /-- calendar and sub-millisecond count captured at the last marker (R55) -/
  markCal : Nat
  markSub : Nat
  /-- bits of the frame received since the marker, newest last (R46) -/
  frame : List Bool
  /-- a marker was seen and its frame is not complete: pulses are bits of the frame (R46) -/
  collecting : Bool
  /-- a master drove the marker of this epoch, so that it sends the frame (R46) -/
  framing : Bool
  /-- a positive D in ticks waiting to be added, with the ticks still to pass until the 81st (R55) -/
  addD : Option (Nat × Nat)
  /-- conflict listening: ticks left of DEVID times 4 (R52) -/
  listen : Option Nat
  /-- a pulse was heard while listening (R52) -/
  heard : Bool
deriving DecidableEq, Repr


/-! ### Sediment recorder (chapter 13) -/

/-- A Sediment record (R539); its CRC-32C over bytes 0 to 27 is a function of these fields. -/
structure SedRec where
  code : Nat
  sev : Nat
  unit : Nat
  mirrored : Bool
  timeUnset : Bool
  merged : Bool
  cal : Nat
  repeats : Nat
  seq : Nat
  p0 : Nat
  p1 : Nat
  p2 : Nat
deriving DecidableEq, Repr

/-- The recorder (R539 to R549). -/
structure Sediment where
  /-- records not yet in the region, oldest first, at most 512 (R541) -/
  ring : List SedRec
  /-- region slots 0 to 131071 (R543) -/
  region : Tbl SedRec
  /-- region slots that have ever held a record: the slots below this one (R543 item 1) -/
  fresh : Nat
  /-- slots of the region changed by a merge since the last flush (R540, R542) -/
  dirtySlots : List Nat
  /-- the newest record as first written, with the epoch of that (R540) -/
  newest : Option (SedRec × Nat)
  /-- next sequence (R539) -/
  next : Nat
  /-- the mark: no mark yet, or the marked sequence (R544) -/
  mark : Nat
  /-- a flush waits for the next tick boundary (R542) -/
  flushDue : Bool
  /-- records dropped or replaced since the last SED_DROPPED, with lowest and highest severity (R541) -/
  dropped : Nat
  dropLow : Nat
  dropHigh : Nat
  /-- next SEDMIRROR slot in rotation, 0 to 34 (R545) -/
  mirrorNext : Nat
  /-- window number of the copies counted in SED_MIRROR.WINDOW, and whether its limit was reported (R545) -/
  mirrorWin : Nat
  mirrorSaid : Bool
  /-- records counted after the power-fail cut (R546) -/
  lost : Nat
  /-- SHADOW was not current at the start: the scan skips 512 sequences (R547) -/
  gap : Bool
deriving DecidableEq, Repr


/-! ### Gauge store (chapter 13) -/

/-- A tally of 64 cells, each held in three words; a cell is set when its majority of bits is 0 (R531). -/
structure Tally where
  w0 : BitVec 64
  w1 : BitVec 64
  w2 : BitVec 64
deriving DecidableEq, Repr

/-- A high part H of 40 bits with its CARRY flag (R531). -/
structure High where
  h : Nat
  carry : Bool
deriving DecidableEq, Repr

/-- A seal-job output range recorded in ZPEND (R399): lines and key index, for one job queue. -/
structure ZRange where
  queue : Nat
  line : Nat
  count : Nat
  key : Nat
deriving DecidableEq, Repr

/-- The supervisor's snapshot record SUPSNAP (R608). -/
structure SupSnap where
  cal : Nat
  cause : Nat
  completed : Bool
  ride : Bool
  fromVaon : Bool
  solo : Bool
  vinMin : Nat
  resStart : Nat
  resEnd : Nat
  dur : Nat
  dMib : Nat
  failed : Nat
  nodis : Nat
  temps : List Int
  seiche : Nat
  cEff : Nat
deriving DecidableEq, Repr

/-- The values SHADOW keeps over a power-down (R535). -/
structure ShadowRec where
  cal : Nat
  sub : Nat
  sedNext : Nat
  mark : Nat
  lost : Nat
  shoreB : Nat
  trialEpochs : Nat
deriving DecidableEq, Repr

/-- TREE_ROOT (R337, R354, R356): root counters, CLEAN, deferred halt, node page state and the halt report. -/
structure TreeRoot where
  counters : List Nat
  clean : Bool
  deferred : Option (Nat × Nat × Nat)
  nodeSeq : Nat
  locator : Option Nat
  report : List Byte
deriving DecidableEq, Repr

/-- KEYROOT (R372): whether it is set, the wrapped device keys, ledger count, area and newest MAC. -/
structure KeyRoot where
  isSet : Bool
  kVault : BitVec 256
  kTree : BitVec 256
  kDev : BitVec 256
  count : Nat
  area : Nat
  mac : BitVec 128
deriving DecidableEq, Repr

/-- MAP_ROOT (R312). -/
structure MapRoot where
  gen : Nat
  jseq : Nat
  pageSeq : Nat
  locator : Nat
deriving DecidableEq, Repr

/-- The Shoreline job as SHORE holds it (R366): key index and ranges of first line and line count. -/
structure ShoreRec where
  key : Nat
  ranges : List (Nat × Nat)
deriving DecidableEq, Repr

/-- The group record of Narrows, PARAM12 (R645, R656). -/
structure GroupRec where
  ginc : Nat
  primary : Nat
  isPrimary : Bool
  solo : Bool
  synced : Bool
  serials : List Nat
  sync : List Nat
deriving DecidableEq, Repr

/-- The contents of a Gauge record (catalogue of R523). -/
inductive GPayload where
  | empty
  | counters (highs : List High)
  | tally (cells : List Tally)
  | fwsel (confirmed trial tstate : Nat)
  | ndxsel (sel : Nat) (rails : List Byte) (digest : List Byte) (floorReq : Option Nat)
  | lcrec (digest : List Byte) (retireDone advancePending : Bool)
  | keyroot (r : KeyRoot)
  | mapRoot (r : MapRoot)
  | treeRoot (r : TreeRoot)
  | quarantine (entries : List (Nat × Nat))
  | zpend (ranges : List ZRange)
  | shadow (r : ShadowRec)
  | supsnap (r : SupSnap)
  | shore (r : Option ShoreRec)
  | mirror (slots : List (Option SedRec))
  | param (bytes : List Byte)
  | group (r : GroupRec)
  | nonce (i r : List High)
deriving DecidableEq, Repr

/-- One Gauge block as its trailer and payload show it (R518); `good` is the verdict of its CRC. -/
structure GBlock where
  phys : Nat
  fmt : Nat
  seq : Nat
  wcnt : Nat
  good : Bool
  frozen : Bool
  payload : GPayload
deriving DecidableEq, Repr

/-- A spread counter: a device counter 0 to 3, or a seal slot's I or R counter (R523, R533). -/
inductive Ctr where
  | dev (n : Nat)
  | slotI (v : Nat)
  | slotR (v : Nat)
deriving DecidableEq, Repr

/-- What a queued Gauge request asks for. -/
inductive GOp where
  | put (lb : Nat) (fmt : Nat) (p : GPayload)
  | raise (c : Ctr) (x : Nat)
  | incr (c : Ctr)
  | reset (c : Ctr)
  | mirror (slot : Nat) (r : SedRec)
deriving DecidableEq, Repr


/-- What follows the durable write of a Gauge request (R524): who is answered, and the next step of a commit. -/
inductive Cont where
  | none
  /-- answer a command: path, opcode, return code, payload -/
  | reply (path op code : Nat) (body : List Byte)
  /-- the next step of an image commit (R82) -/
  | ndx (step : Nat)
  /-- the next step of a lifecycle advance (R466) -/
  | advance (step : Nat)
  /-- FW_ACTIVATE's commit point (R507, R508) -/
  | fwArm (path mode : Nat)
  /-- FW_CONFIRM or HEALTHY's commit point (R510, R512) -/
  | fwConfirm
  | fwFloor (path old new : Nat)
  /-- a nonce reservation of a seal slot (R386) -/
  | nonce (slot : Nat)
  /-- the next step of a key command (R378, R380) -/
  | key (path op step : Nat)
  /-- the expected incarnation of a die (R256) -/
  | dieInc (c d : Nat)
  /-- Shoreline job record (R366) -/
  | shore (path : Nat)
  | quarantine
  | zpend (queue : Nat)
  | group (path action : Nat)
  | treeRoot
  | mapRoot (gen : Nat)
  | keyRoot
  | token (path : Nat)
  | param (path record fmt : Nat)
  /-- a flush's step 4 (R598) -/
  | flush (step : Nat)
deriving DecidableEq, Repr

/-- A queued Gauge request (R524, R525): its operation, class, requester and the ticks it has been held. -/
structure GReq where
  op : GOp
  prio : Bool
  mailbox : Option Nat
  cont : Cont
  /-- tick at which it was requested (R526) -/
  since : Nat
deriving DecidableEq, Repr

/-- The write in progress: the request, the physical block written, and the step of a several-block update reached. -/
structure GWrite where
  req : GReq
  lb : Nat
  phase : Nat
deriving DecidableEq, Repr

/-- The Gauge store (R517 to R534): blocks by logical number that differ from manufacture, spares taken, the write in
progress, the queue of 32 in two classes and the requests that wait for a place in it. -/
structure Gauge where
  blocks : Tbl GBlock
  /-- SPARE_USED of the directory: spares 240 to 255 taken (R519) -/
  spareUsed : List Nat
  cur : Option GWrite
  prioQ : List GReq
  normQ : List GReq
  waiting : List GReq
  /-- a hold of R525 in force: its start tick, block and reason (0 VAON, 1 supervisor; plus 2 once a flush has reported it) -/
  held : Option (Nat × Nat × Nat)
  /-- values the image holds after a WORN failure (R530), by record -/
  image : Tbl GPayload
  /-- logical blocks whose record took its default (R522) -/
  bad : List Nat
deriving DecidableEq, Repr

/-! ### Nebadex image (chapter 02) -/

/-- One rail entry of a RAILS record (R69). -/
structure RailEnt where
  up : Nat
  down : Nat
  onDelay : Nat
  tPg : Nat
  tDis : Nat
deriving DecidableEq, Repr

/-- A REGION record (R69): bounds in 256 MiB units. -/
structure Region where
  head : Nat
  idx : Nat
  base : Nat
  len : Nat
  key : Nat
  share : Nat
  dc : Bool
  ro : Bool
deriving DecidableEq, Repr

/-- A NARROWS record (R69). -/
structure NarrowsCfg where
  linkEn : Nat
  group : Nat
  nmem : Nat
  members : List Nat
  async : Bool
deriving DecidableEq, Repr

/-- A configuration image as parsed and checked: header fields and every record with its defaults (R62, R69). -/
structure ImageCfg where
  version : Nat
  totalLen : Nat
  nrec : Nat
  digest : List Byte
  enable : Nat
  ports : Nat
  sealOn : Bool
  plumb : Bool
  nrw : Bool
  sounding : Bool
  /-- word 0 of the PORT record of each enabled port -/
  portCfg : Tbl Nat
  regions : List Region
  wayMask : List Nat
  seeds : List Nat
  shallows : Nat
  topo : Nat
  count : Nat
  pos : Nat
  seiche : Bool
  role : Nat
  narrows : Option NarrowsCfg
  rails : List RailEnt
  vWarn : Nat
  vFail : Nat
  erase : Bool
  evlogMin : Nat
  alertMin : Nat
  thermal : List Nat
  hyst : Nat
  marks : Tbl (Nat × Nat)
  levelMax : Nat
  tokenReq : Bool
  /-- records skipped under R67 or R77: type, instance, 0 absent or 1 unknown -/
  skipped : List (Nat × Nat × Nat)
  /-- the RAILS record's payload, copied into Gauge (R71) -/
  railsRaw : List Byte
  /-- the bytes of the records that R84 compares, skipped ones too -/
  fixedRaw : List (List Byte)
deriving DecidableEq, Repr

/-- A commit in progress (R82): who asked, APPLY, RAISE_FLOOR, target slot, VERSION, steps done, the floor as it stood, the
image, and whether a flush came while NDXSEL was being written (R525, R729). -/
structure NdxCommit where
  path : Nat
  apply : Nat
  raise : Bool
  slot : Nat
  version : Nat
  step : Nat
  floor : Nat
  cfg : ImageCfg
  cut : Bool
deriving DecidableEq, Repr

/-- The image logic: the staging buffer and what is pending (R79 to R94). -/
structure Ndx where
  /-- staged bytes, in order; the buffer holds 64 KiB. The owner's path is MGMT_NDX_STAT.OWNER -/
  staged : List Byte
  /-- tick of the owner's last command, with the owner's path code; none when unowned -/
  owner : Option (Nat × Nat)
  stagedCfg : Option ImageCfg
  commit : Option NdxCommit
  /-- a live image to apply at the next boundary, with its slot (R84) -/
  live : Option (ImageCfg × Nat)
deriving DecidableEq, Repr


/-! ### Host ports (chapter 03) -/

/-- An HDM decoder (R98): HPA base and size, DPA skip, interleave ways and granularity. -/
structure Decoder where
  base : Nat
  size : Nat
  skip : Nat
  ways : Nat
  gran : Nat
deriving DecidableEq, Repr

/-- An event record of a head's log: a copied Sediment record, or a General Media Event for a line (R117, R118). -/
inductive EvBody where
  | vendor (r : SedRec)
  | media (line : Nat)
deriving DecidableEq, Repr

structure EvRec where
  handle : Nat
  stamp : Nat
  body : EvBody
deriving DecidableEq, Repr

/-- One of a head's four event logs (R119). -/
structure EvLog where
  recs : List EvRec
  nextHandle : Nat
  dropped : Nat
  firstDrop : Nat
  lastDrop : Nat
  /-- epoch in which EVLOG_OVERFLOW was last written for this log -/
  saidEpoch : Option Nat
deriving DecidableEq, Repr

/-- What a head holds beside its registers. -/
structure Head where
  /-- PERST_N asserted at the port, and the port released by start-up (R457) -/
  perst : Bool
  released : Bool
  decoders : Tbl Decoder
  /-- Error Not Committed of the decoders' control registers, bit d for decoder d (R100, R102) -/
  notCommitted : Nat
  logs : List EvLog
  policy : List Nat
  lsa : Memory
  shutdown : Nat
  alertCfg : List Byte
  /-- results of the last scan: bad lines not yet returned (R116) -/
  scanLeft : List Nat
  /-- S2M credits held for NDR and DRS (R144) -/
  ndrCredit : Nat
  drsCredit : Nat
  /-- next arrival number (R146) -/
  arrival : Nat
  /-- IDE key sets programmed (R123) -/
  ideKeys : List (BitVec 256)
  /-- the link's low-power state: 0 none, 1 L1, 2 L2 (R563); L0p is HP_LINK_STAT.L0P -/
  lowPower : Nat
  memoryActive : Bool
  /-- RAS uncorrectable error status: Internal Error (R141), and AER signalled -/
  internalErr : Bool
  aer : Nat
  /-- CXL.io state other than the registers: cleared by a function-level reset (R127) -/
  ioState : List Byte
deriving DecidableEq, Repr

/-- An entry of the poison list (R112): source 0 external, 1 internal, 2 injected. -/
structure PoisonEnt where
  line : Nat
  src : Nat
deriving DecidableEq, Repr

/-- The poison list: at most 1024 entries and its overflow state (R112). -/
structure PoisonList where
  ents : List PoisonEnt
  overflow : Bool
  overflowAt : Nat
deriving DecidableEq, Repr


/-! ### Queue fabric (chapter 04) -/

/-- Kinds of CXL.mem request and response that queues carry. -/
inductive QKind where
  | read | write | partialWrite | ndr | drs
  /-- changes that only replica queues carry (R635, R638) -/
  | zero | release | bitmap
deriving DecidableEq, Repr

/-- A queue entry (R146). `cell` is the pool cell it lies in; none for a ring entry. -/
structure QEntry where
  kind : QKind
  poison : Bool
  tag : Nat
  arrival : Nat
  key : Nat
  line : Nat
  data : Line
  mask : BitVec 64
  cell : Option Nat
  /-- a replica entry's RSEQ (R638) -/
  rseq : Nat
  /-- the IDE MAC that covers the flits has been checked (R124) -/
  ideOk : Bool
  /-- the row of R105 that serves the request without the media: 0 none, 1 decode miss, 2 RO, 3 no key, 4 IDE -/
  rej : Nat
  /-- a replica entry's RESYNC flag (R652) -/
  resync : Bool
  /-- Plumb or Sounding sample riding with the request (R675) -/
  plumb : Option Nat
  /-- flag 3: a data word is uncorrectable (R146, R155) -/
  bad : Bool := false
deriving DecidableEq, Repr

/-- The test state of a queue's ring (R151 to R154). -/
inductive RingTest where
  | none
  | startup
  | draining (onDemand : Bool)
  | running (onDemand : Bool)
  | retest
deriving DecidableEq, Repr

/-- One queue: its entries oldest first and its control state (R148 to R157). -/
structure Queue where
  entries : List QEntry
  /-- 0 RING, 1 POOL, 2 POOL with ring retired -/
  mode : Nat
  test : RingTest
  wp : Nat
  rp : Nat
  /-- pool cells reserved (R149), and a reservation that waits -/
  reserved : Nat
  resvWait : Bool
  /-- PACED, or issue stopped on an egress queue (R156, R157) -/
  paced : Bool
  withheld : Nat
  /-- fewer than 16 cycles since the last credit return on this channel (R156) -/
  recent : Bool
  /-- dequeue stopped by a copy-switch (R154) -/
  stopped : Bool
  /-- credits the host may still use on this channel -/
  credits : Nat
  /-- egress entries reserved for issued requests (R145) -/
  promised : Nat
deriving DecidableEq, Repr

/-- A request that its head's tracker holds (R147): head, tag, kind (0 read, 1 full write, 2 partial write), key index and
line, arrival number and poison flag, with the path it took once that is known (R677; 255 before), and the tracker's place
that holds it. -/
structure Track where
  head : Nat
  tag : Nat
  kind : Nat
  key : Nat
  line : Nat
  path : Nat
  slot : Nat
  arrival : Nat
  poison : Bool
deriving DecidableEq, Repr


/-! ### Line cache (chapter 05) -/

/-- State of a way (R174). -/
inductive WaySt where
  | invalid | clean | dirty | fill
deriving DecidableEq, Repr

/-- A way: its tag entry (both copies agree) and its data (R172, R174). -/
structure Way where
  tag : Nat
  key : Nat
  poison : Bool
  pin : Bool
  st : WaySt
  data : Line
deriving DecidableEq, Repr

/-- Where an operation on a line comes from, and so who is answered and under which mask it allocates. -/
inductive Src where
  | host (h tag : Nat)
  | replica (link rseq : Nat)
  | lcmd (path : Nat)
  | mover (path : Nat)
  | internal
deriving DecidableEq, Repr

/-- Operations of the address-match queue. -/
inductive AmqKind where
  | read
  | full
  | partialWrite
  | zero
  | flush
  | prefetch
  | pin
  | demote
  /-- the fill of an absent line: a merge buffer's (R187), or one that skid mode starts before the MAC check (R124) -/
  | fill
deriving DecidableEq, Repr

/-- An AMQ entry (R172): every operation in flight on a line of the slice, in order. -/
structure AmqOp where
  kind : AmqKind
  line : Nat
  key : Nat
  poison : Bool
  data : Line
  mask : BitVec 64
  src : Src
  /-- the operation waits for a way (R179 step 4) -/
  waiting : Bool
  /-- a write past its persist point in the queue (R165) -/
  persisted : Bool
  /-- a partial write past its persist point whose completion waits for its forwarding (R640) -/
  owed : Bool := false
  /-- the operation has requested its line's fill -/
  missed : Bool := false
deriving DecidableEq, Repr

/-- A merge buffer (R187). -/
structure MergeBuf where
  line : Nat
  key : Nat
  data : Line
  mask : BitVec 64
  /-- writes merged here whose completion waits for the merged line (R640) -/
  srcs : List Src
  /-- a merged write carried the poison bit (R111) -/
  poison : Bool := false
deriving DecidableEq, Repr

/-- An eviction-buffer entry (R189): its write sequence, whether it came from the cleaner or a command, and whether it
has been passed to the inline crypt unit. -/
structure EbEnt where
  line : Nat
  key : Nat
  poison : Bool
  data : Line
  wseq : Nat
  cleaner : Bool
  passed : Bool
deriving DecidableEq, Repr

/-- A Cove entry (R191). -/
structure CoveEnt where
  line : Nat
  key : Nat
  poison : Bool
  data : Line
deriving DecidableEq, Repr

/-- What a slice holds beside its ways. -/
structure Slice where
  amq : List AmqOp
  merge : List MergeBuf
  eb : List EbEnt
  cove : List CoveEnt
  lfsr : BitVec 32
  /-- set at which the cleaner last stopped, and whether it runs (R193, R194) -/
  cleanPos : Nat
  cleaning : Bool
  /-- kind of the last write-back issued: true for the cleaner's (R195) -/
  lastCleaner : Bool
deriving DecidableEq, Repr

/-- A fill in flight for a way in FILL (R183): its key index, the generation of its context at the start, and the
verified line with its poison once the inline crypt unit has released it (R328). `dropped`: the context was purged while
the fill was under way (R735). -/
structure FillSt where
  key : Nat
  ready : Option (Line × Bool)
  dropped : Bool
  /-- the condition of R110 under which a poisoned fill is poisoned -/
  cause : Nat := 1
deriving DecidableEq, Repr

/-- A running line command of one path (R196 to R200). -/
structure LCmd where
  op : Nat
  line : Nat
  count : Nat
  next : Nat
  inFlight : List Nat
  done : Nat
  skipped : Nat
  result : Nat
  stop : Nat
  /-- lines in flight whose completion waits for write-backs, with their write sequences (R196) -/
  waits : List (Nat × Nat) := []
deriving DecidableEq, Repr


/-! ### Media array (chapter 06) and the contents of its pages -/

/-- A sealed line as a sector stores it: ciphertext and the line metadata word's MAC, key generation and write class
(R215). -/
structure Sealed where
  ct : Line
  mac : BitVec 48
  gen : Nat
  cls : Nat
deriving DecidableEq, Repr

/-- A manifest entry of a log page (R283). -/
structure ManEnt where
  line : Nat
  wseq : Nat
  hot : Bool
  poison : Bool
  superseded : Bool
  reloc : Bool
deriving DecidableEq, Repr

/-- A map-journal record (R308). -/
inductive JBody where
  | foldCommit (reach newSet newSlot : Nat) (old : Option (Nat × Nat)) (foldSeq : Nat)
  | reachMove (reach newSet newSlot oldSet oldSlot : Nat)
  | relocCommit (dst page src : Nat)
  | setForm (set die plane kind w mask : Nat)
  | setMembers (set first : Nat) (blocks : List (Nat × Nat))
  | pageDead (set page cause : Nat)
  | eraseIntent (set : Nat)
  | eraseDone (set mask : Nat)
  | blockRetire (channel die plane block cause : Nat)
  | ckptBegin (gen pageSeq wseq : Nat)
  | ckptEnd (gen pages locator : Nat)
  | unmap (first count : Nat)
  | flushEnd (pageSeq wseq : Nat)
  | shallowsSize (gib : Nat)
deriving DecidableEq, Repr

structure JRec where
  jseq : Nat
  body : JBody
deriving DecidableEq, Repr

/-- The contents of one data page: what its information bytes hold, by kind of page (R283, R307, R311, R335). -/
inductive PageBody where
  | log (slots : List Sealed) (man : List ManEnt) (pageSeq wseqBase epoch : Nat) (reloc : Bool)
  | reach (reach part : Nat) (lines : List Sealed)
  | journal (recs : List JRec)
  | ckpt (gen part : Nat)
  | node (seq : Nat) (groups : List (Nat × Nat))
  | filler (pageSeq : Nat)
  | parity (set row : Nat)
  | raw (bytes : List Byte)
deriving DecidableEq, Repr

/-- Purposes of a sense (R221, R223, R227). -/
inductive SenseFor where
  /-- a line of a host miss -/
  | line (line : Nat)
  /-- copy 0 or 1 of the node group of a leaf, for a host miss (R223) -/
  | node (leaf copy : Nat)
  /-- a member of the row of a sector that is being rebuilt (R247) -/
  | recon (job member : Nat)
  /-- background work of a class of R34 -/
  | background (cls : Nat)
deriving DecidableEq, Repr

/-- A sense held in a queue: its sector, its purpose and the retry step reached (R241): `dir` is d = +1, `checks` the
unsatisfied checks of attempt 0, `fewer` that retry 1 ended with fewer. `busy`: the attempt has been sensed and is not
decoded yet; `xfer`: sectors of the page that cross the bus. -/
structure Sense where
  psa : Nat
  why : SenseFor
  step : Nat := 0
  dir : Bool := true
  fewer : Bool := false
  checks : Nat := 0
  admitted : Bool := false
  busy : Bool := false
  xfer : Nat := 1
deriving DecidableEq, Repr

/-- A die's page register (R228): the sense it holds and the cycle at which its data are there. -/
structure PageReg where
  sense : Sense
  ready : Nat
deriving DecidableEq, Repr

/-- An operation of a die's plan for the tick (R224). -/
inductive Planned where
  | sense (cls : Nat)
  | prog
  | erase
deriving DecidableEq, Repr

/-- The rebuilding of a sector (R247): the sense whose sector it is and its die; the members of the row whose senses wait
for an entry and those that have one; the channel of a member that cannot be read; the tick it began in. -/
structure Recon where
  sense : Sense
  die : Nat
  wait : List Nat
  busy : List Nat
  failed : Option Nat
  start : Nat
deriving DecidableEq, Repr

/-- A program held in a queue: the word line of a set's block on the die's channel, its mode, and the data-in sectors
that have not crossed the bus (R225). -/
structure Prog where
  set : Nat
  wl : Nat
  deeps : Bool
  sectors : Nat
deriving DecidableEq, Repr

/-- A program or erase in progress or suspended, with its planned end in core cycles (R31, R225), or an operation that has
ended and holds its die until its planned end. -/
inductive DieOp where
  | prog (x : Prog) (endAt : Nat)
  | erase (set plane block : Nat) (endAt : Nat)
  | held (endAt : Nat)
deriving DecidableEq, Repr

/-- Block state seen by the engine: mode of the first program and next word line; none when erased (R214). -/
structure BlockMode where
  deeps : Bool
  nextWl : Nat
  /-- epoch in which each segment of 64 word lines began to be programmed (R237) -/
  segs : List Nat
deriving DecidableEq, Repr

/-- A die and its queues (R221 to R231, R256). The first 16 of `bgq`, 8 of `progq` and 4 of `eraseq` are the engine's
queues; what follows waits for them in the translation layer. -/
structure Die where
  hrq : List Sense
  adm : List Sense
  held : List Sense
  /-- reconstruction entries: senses for sectors of other dies of its die number, at most four (R254) -/
  recon : List Sense
  bgq : List Sense
  progq : List Prog
  eraseq : List (Nat × Nat × Nat)
  page : Option PageReg
  op : Option DieOp
  susp : Option DieOp
  /-- cycle at which the operation was suspended -/
  suspAt : Nat
  /-- end of the progress window in force, in cycles (R231) -/
  window : Nat
  /-- the tick's plan, and array time allotted to each class and not used, in 64ths of a cycle (R224) -/
  plan : List Planned
  credit : List Int
  /-- tick of the last drift sample and the mode and age class it took (R239) -/
  lastSample : Option Nat
  sampled : Option (Bool × Nat)
  /-- contents of the die information page (R211): the factory bad-block list, by block number within the die, and the
  stored incarnation (R258) -/
  badList : List Nat
  stored : Nat
  /-- the die has been in direct-access mode (1), and power has been lost since (2): it is stale (R263) -/
  da : Nat
  missed : Nat
  attempts : Nat
  /-- the Gauge write of the expected incarnation is outstanding (R256) -/
  incWait : Bool
  /-- tick of the last program or erase start (R622) -/
  lastStart : Option Nat
deriving DecidableEq, Repr

/-- What a channel engine holds beside its dies: bus credits of R734 (in 64ths of a slot, by class), the slots of the tick
that have begun, the sectors handed to the decoders (R217) with their dies, and a direct-access buffer. -/
structure Channel where
  minCred : List Int
  entCred : List Int
  slot : Nat
  decoding : List (Nat × Sense)
  buf : Memory
  attempts : Nat
  fencedWhole : Bool
deriving DecidableEq, Repr

/-- The media array. -/
structure Media where
  dies : Tbl Die
  chans : Tbl Channel
  /-- page contents by page address: the PSA divided by 8 -/
  pages : Tbl PageBody
  /-- blocks that are not erased, by block address -/
  blocks : Tbl BlockMode
  /-- blocks marked SUSPECT, with the cause: 0 failure (R249, R250), 1 closed at a rejoin (R259) -/
  suspect : Tbl Nat
  /-- LEARN by die, mode and age class (R238) -/
  learn : Tbl Int
  /-- sectors that the engines corrected since the last device reset (R134, R217) -/
  corrected : Nat
  /-- sectors being rebuilt, by number in order (R247) -/
  recons : Tbl Recon
  jobSeq : Nat
deriving DecidableEq, Repr


/-! ### Translation layer (chapter 07) -/

/-- A Deeps locator or the merge record of a reach (R272). -/
inductive ReachEnt where
  | deeps (set slot : Nat)
  | merge (rec : Nat)
deriving DecidableEq, Repr

/-- An entry of a merge record (R273). -/
structure MergeEnt where
  off : Nat
  poison : Bool
  mark : Bool
  wseq : Nat
  sset : Nat
  slot : Nat
deriving DecidableEq, Repr

/-- A merge record (R273). -/
structure MergeRec where
  reach : Nat
  deeps : Option (Nat × Nat)
  key : Nat
  foldNow : Bool
  captured : Bool
  created : Nat
  ents : List MergeEnt
deriving DecidableEq, Repr

/-- An entry of a fine-map bucket (R275). -/
structure FineEnt where
  tag : Nat
  poison : Bool
  wseq : Nat
  sset : Nat
  slot : Nat
deriving DecidableEq, Repr

/-- State of a block set (R288). -/
inductive SetSt where
  | opened | full | dredged | erasing
deriving DecidableEq, Repr

/-- A block set (R243, R287): kind 0 LOG, 1 DEEPS, 2 JOURNAL, 3 CKPT, 4 NODE; members in ascending channel order. -/
structure BlockSet where
  kind : Nat
  die : Nat
  plane : Nat
  members : List (Nat × Nat)
  st : SetSt
  sset : Nat
  /-- data pages assigned so far, in the order of member(q) of R274 -/
  assigned : Nat
  /-- data pages programmed, and rows whose parity has programmed -/
  programmed : List Nat
  rows : List Nat
  /-- data pages whose program failed (PAGE_DEAD) -/
  dead : List Nat
  /-- epoch of the last program (R297) -/
  lastProg : Nat
  /-- tick at which the open row's first page closed (R285) -/
  firstClose : Option Nat
  /-- members still to be erased, and members whose erase failed (R288) -/
  toErase : List Nat
  eraseBad : List Nat
deriving DecidableEq, Repr

/-- An open log page (R283): set and data page, slots placed so far, and when the first was placed. -/
structure LogPage where
  set : Nat
  page : Nat
  slots : List Sealed
  man : List ManEnt
  pageSeq : Nat
  wseqBase : Nat
  epoch : Nat
  firstTick : Nat
  reloc : Bool
deriving DecidableEq, Repr

/-- A fold in progress (R291): FOLD_SEQ, target slot once placed, and whether its record is in the journal. -/
structure Fold where
  reach : Nat
  mrec : Nat
  foldSeq : Nat
  caps : List MergeEnt
  old : Option (Nat × Nat)
  target : Option (Nat × Nat)
  jseq : Option Nat
deriving DecidableEq, Repr

/-- A Dredge copy in progress (R298): source set, moves appended to the journal and not yet applied. -/
structure Dredge where
  set : Nat
  rule : Nat
  moves : List (Nat × JBody)
deriving DecidableEq, Repr

/-- A write-back whose sequence is assigned and which is not yet placed (R279). -/
structure Unplaced where
  wseq : Nat
  line : Nat
  superseded : Bool
deriving DecidableEq, Repr

/-- A sealed write-back waiting to be placed (R280). -/
structure SealedWb where
  line : Nat
  wseq : Nat
  key : Nat
  poison : Bool
  body : Sealed
  waiting : Bool
deriving DecidableEq, Repr

/-- The structures of R270, as Pond DRAM holds them and a checkpoint copies them. -/
structure MapState where
  reachMap : Tbl ReachEnt
  merge : Tbl MergeRec
  fine : Tbl (List FineEnt)
  sets : Tbl BlockSet
  wear : Tbl Nat
  retired : Tbl Nat
deriving DecidableEq, Repr

/-- A complete or running checkpoint generation (R311, R312). -/
structure Ckpt where
  gen : Nat
  jseq : Nat
  pageSeq : Nat
  wseq : Nat
  epoch : Nat
  tick : Nat
  pages : Nat
  map : MapState
  /-- its CKPT sets -/
  sets : List Nat
deriving DecidableEq, Repr

/-- The translation layer. -/
structure Mtl where
  map : MapState
  /-- map entries lost in both copies: kind 0 reach, 1 fine, 2 merge, with the index (R271) -/
  lost : List (Nat × Nat)
  wseq : Nat
  unplaced : List Unplaced
  sealedQ : List SealedWb
  /-- internal lines whose new contents wait to enter their slices (R132, R268, R542) -/
  internalQ : List Nat
  /-- lines placed whose newer version is already in the map are SUPERSEDED; page being filled -/
  logPage : Option LogPage
  relocPage : Option LogPage
  pageSeq : Nat
  /-- pages in the Shallows write buffer by set and data page (R286) -/
  wbuf : Tbl PageBody
  folds : List Fold
  dredge : Option Dredge
  /-- Dredge runs for want of free sets, until STOP (R296) -/
  dredgeOn : Bool
  /-- Pond DRAM has been rebuilt since the start (R314) -/
  ready : Bool
  picks : Nat
  /-- the journal: next JSEQ, records of the open page with the tick of the oldest, closed pages not yet durable by
  set and page, and the durable records in order -/
  jseq : Nat
  jopen : List JRec
  jfirst : Nat
  jpend : List (Nat × Nat × List JRec)
  jdone : List JRec
  ckpt : Option Ckpt
  ckptRun : Option Ckpt
  nextSet : Nat
  /-- committed and effective Shallows size in GiB -/
  committed : Nat
  size : Nat
  lifeS : Nat
  lifeD : Nat
  /-- page-programs of refresh hints reported by the engines: segments by first page address (R217) -/
  hints : List Nat
deriving DecidableEq, Repr


/-! ### Inline crypt and integrity unit (chapter 08) -/

/-- A leaf of the counter tree (R331): minors that are not zero by slot. -/
structure Leaf where
  major : Nat
  exhausted : Bool
  minors : Tbl Nat
  oldMajor : Nat
  reseal : BitVec 64
  mac : BitVec 64
deriving DecidableEq, Repr

/-- An internal node, L1 to L8 (R331): counters that are not zero by child slot. -/
structure Upper where
  counters : Tbl Nat
  exhausted : Bool
  mac : BitVec 64
deriving DecidableEq, Repr

/-- Nodes by index (leaves) and by level and index (upper nodes, key level * 2^40 + index). A node not listed has every
counter zero and has never been written. -/
structure Tree where
  leaves : Tbl Leaf
  uppers : Tbl Upper
deriving DecidableEq, Repr

/-- The media home of a node group: the node page sequence of its newest image and the pages of its two copies
(R335, R336). -/
structure GroupLoc where
  seq : Nat
  pageA : Nat
  pageB : Nat
deriving DecidableEq, Repr

/-- The Shoreline job (R358 to R367). -/
structure Shore where
  /-- 0 IDLE, 1 RUNNING, 2 PAUSED, 3 DONE, 4 ABORTED -/
  st : Nat
  key : Nat
  ranges : List (Nat × Nat)
  b : Nat
  reachesDone : Nat
  skipped : Nat
  /-- the reach held, with the step of R361 reached (1 hold, 2 wait, 3 captured, 4 committed) -/
  step : Nat
  waited : Nat
  /-- seals of the reach's write-backs are delayed (R361 step 2) -/
  delay : Bool
  /-- offsets of the held reach sealed again since capture (R361 step 3) -/
  again : List Nat
  caps : List MergeEnt
  foldSeq : Nat
  target : Option (Nat × Nat)
  jseq : Option Nat
  /-- write sequences of the step 6 write-backs not yet placed -/
  waitSeqs : List Nat
  /-- offsets of the reach sealed into the slot, whose counters take effect at the commit, and the leaves reset with it
  (R362, R364; log entry 48) -/
  adv : List Nat
  /-- offsets of HOT lines still to be resealed as write-backs (R361 step 6) -/
  hotLeft : List Nat
  resets : List Nat
  startTick : Nat
deriving DecidableEq, Repr

/-- An entry of the quarantine list: level and index (R349). -/
structure QuarEnt where
  level : Nat
  index : Nat
deriving DecidableEq, Repr

/-- A line whose fill waits for its leaf: the path of its read, its authentication, and its sector where that was rebuilt. -/
structure NodeWait where
  line : Nat
  path : Nat
  auth : Nat
  got : Option (Nat × List Byte)
deriving DecidableEq, Repr

/-- A leaf that host misses read from the media (R223, R347): the copy being read, the copies that failed, those that cannot
be rebuilt, and the lines that wait. -/
structure NodeRead where
  copy : Nat
  failed : List Nat := []
  lost : List Nat := []
  wait : List NodeWait := []
  /-- the sector has come and the waiting fills open -/
  came : Bool := false
deriving DecidableEq, Repr

/-- The ICU. -/
structure Icu where
  tree : Tree
  /-- images on the media, by the groups' nodes, and the group locators -/
  mediaTree : Tree
  groups : Tbl GroupLoc
  /-- unpinned nodes in the on-die cache, as level * 2^40 + index (R333) -/
  onDie : List Nat
  /-- L0 and L1 nodes in the Pond DRAM node cache -/
  pond : List Nat
  /-- leaves that host misses read from the media (R223, R343), by leaf -/
  nodeReads : Tbl NodeRead := []
  /-- nodes on the writeback list of the next tick (R341) -/
  writeback : List Nat
  /-- dirty groups, the longest dirty first, as level * 2^40 + number (R342) -/
  dirtyGroups : List Nat
  nodeSeq : Nat
  locSeq : Nat
  locator : Option Nat
  /-- TREE_ROOT has been written CLEAN 0 since the start, wake or ride-through (R337) -/
  rootOpen : Bool
  quar : List QuarEnt
  shore : Shore
  report : List Byte
  /-- a halt deferred to the end of the next start's recovery: kind, path, identity (R354) -/
  deferred : Option (Nat × Nat × Nat)
  discardArmed : Bool
  /-- seals and opens in a row that mismatched on the running operation, and the pipe that mismatched least recently
  (R327) -/
  pipeOrder : List Nat
  /-- contexts purged while their work was in progress (R735) -/
  purged : List Nat
deriving DecidableEq, Repr


/-! ### Key vault and seal engine (chapter 09) -/

/-- A context generation (R320). -/
structure KeyGen where
  num : Nat
  k1 : BitVec 256
  k2 : BitVec 256
  kmac : BitVec 256
deriving DecidableEq, Repr

/-- State of an inline context (R376). -/
inductive CtxSt where
  | empty | active | rotating | lost
deriving DecidableEq, Repr

/-- An inline context (R320, R376). -/
structure Ctx where
  st : CtxSt
  cur : Option KeyGen
  new : Option KeyGen
  /-- a Shoreline job has started for NEW -/
  job : Bool
  seq : Nat
deriving DecidableEq, Repr

/-- State of a seal slot (R384). -/
inductive SlotSt where
  | empty | ready | exhausted
deriving DecidableEq, Repr

/-- A seal slot: C is live; I and V stand in Gauge (R384). -/
structure Slot where
  st : SlotSt
  usage : Nat
  owner : Nat
  klen : Nat
  key1 : BitVec 256
  key2 : BitVec 256
  c : Nat
  seq : Nat
  /-- a reservation write is under way, since the given tick when a job waits on it (R386) -/
  reserving : Bool
  waitSince : Option Nat
deriving DecidableEq, Repr

/-- A key-encryption key. -/
structure Kek where
  key : Option (BitVec 256)
  lost : Bool
  seq : Nat
deriving DecidableEq, Repr

/-- A ledger entry (R372), with the verdicts of its two copies' MACs. -/
structure LedgerEnt where
  lseq : Nat
  kind : Nat
  gen : Nat
  index : Nat
  seq : Nat
  usage : Nat
  owner : Nat
  klen : Nat
  target : Nat
  inst : Nat
  wrapped : List Byte
  goodA : Bool
  goodB : Bool
deriving DecidableEq, Repr

/-- A running seal job (R394, R397): the descriptor's fields that outlive its start, the counter value it took, the
status it will post, and the writes it still has to make under its destination key: line, data and byte mask. -/
structure SealJob where
  op : Nat
  slot : Nat
  tag : Nat
  dst : Nat
  len : Nat
  dstKey : Nat
  c : Nat
  irq : Bool
  status : Nat
  outs : List (Nat × Line × BitVec 64)
deriving DecidableEq, Repr

/-- The key vault, its random source and the seal engine. -/
structure Vault where
  ctxs : Tbl Ctx
  slots : Tbl Slot
  keks : Tbl Kek
  kVault : BitVec 256
  kTree : BitVec 256
  dev : Option KeyGen
  /-- ledger entries of the two areas in Spring flash, in LSEQ order -/
  area0 : List LedgerEnt
  area1 : List LedgerEnt
  /-- targets whose command is unfinished: target kind, index, path (R138) -/
  busy : List (Nat × Nat × Nat)
  /-- consecutive failures of the random source, when it stopped, generate requests since the last reseed (R390, R391) -/
  rngFails : Nat
  rngStopped : Option Nat
  drbgReqs : Nat
  /-- running jobs by queue -/
  jobs : Tbl SealJob
  /-- bytes charged to the dirty budget by running GCM_DEC jobs (R398) -/
  charged : Nat
  /-- the ledger entry of each path's unfinished key command (R378, R380); its LSEQ is 0 until it is appended -/
  installs : Tbl LedgerEnt
  /-- a weak sector asks for an early compaction (R496) -/
  weak : Bool
  /-- the tick of the last erasure: several alarms in one tick cause one (R402) -/
  erasedAt : Option Nat := none
deriving DecidableEq, Repr

/-! ### Memory protection and data movers (chapter 10) -/

/-- Memory protection state that is no register field: the epoch's corrected words by class (R417), the scrub positions by
class and instance (R416), and what injections have stored. The valid bits of R411 and R414 have no field: what the sparse
tables of this model do not list has not been written (log entry 60). -/
structure Memp where
  epochCe : Tbl Nat
  scrubPos : Tbl Nat
  /-- words stored with an injected error by class, instance and word, with MODE + 4 * BIT0 (R434 write side) -/
  planted : List (Nat × Nat × Nat × Nat)
  /-- codeword bit of the single error that an injection has just put into the word being read (R434) -/
  flip : Option Nat := none
  stuckFullSaid : Bool
deriving DecidableEq, Repr

/-- A running mover descriptor (R427): what remains, and the verdict so far. -/
structure MoverRun where
  op : Nat
  tag : Nat
  src : Nat
  dst : Nat
  lines : Nat
  done : Nat
  srcKey : Nat
  dstKey : Nat
  pattern : BitVec 64
  irq : Bool
  poisoned : Nat
  /-- every line has been dealt with: the status to post -/
  ending : Option Nat
deriving DecidableEq, Repr


/-! ### Management complex (chapter 11) -/

/-- The running background command (R137). -/
inductive BgCmd where
  | scan (path head first last pos : Nat) (noEvents aborting : Bool) (bad : List Nat)
  | retire (path target index : Nat) (ranges : List (Nat × Nat)) (step : Nat)
  | advance (path target : Nat) (digest : List Byte) (kek0 : BitVec 256) (step : Nat)
deriving DecidableEq, Repr

/-- A foreground command that has not been answered: path, opcode, and whether its commit point has passed (R441, R461). -/
structure Inflight where
  path : Nat
  op : Nat
  committed : Bool
  /-- 50 ms of holding counted for a Gauge write under R526 -/
  gauge : Bool
deriving DecidableEq, Repr

/-- Result of the last background command of a path (R139). -/
structure BgStatus where
  op : Nat
  percent : Nat
  code : Nat
deriving DecidableEq, Repr

/-- An SPDM connection of a path (R452): 0 nothing negotiated, 1 version, 2 capabilities, 3 algorithms; its sessions with
state 0 handshake, 1 established. -/
structure Spdm where
  stage : Nat
  sessions : List (Nat × Nat)
  nextId : Nat
deriving DecidableEq, Repr

/-- A held observation token (R472). -/
structure Token where
  level : Nat
  notAfter : Nat
  tseq : Nat
deriving DecidableEq, Repr

/-- The management complex. -/
structure Mgmt where
  /-- epochs at which restarts began, oldest first (R462) -/
  restarts : List Nat
  /-- Wellhead recovery mode with its cause (R499), and whether it was entered by the restart limit (R462) -/
  recovery : Option Nat
  limited : Bool
  /-- start-up step reached (R457); 0 before T0, 10 when Memory_Active is set -/
  boot : Nat
  bg : Option BgCmd
  bgStat : Tbl BgStatus
  inflight : List Inflight
  spdm : Tbl Spdm
  token : Option Token
  /-- an accepted token whose floor is being written, with its path (R473) -/
  tokenNew : Option (Nat × Token)
  /-- a Set Timestamp under way: path, milliseconds since 1970, and whether the calendar set that waits is its own (R133) -/
  stamp : Option (Nat × Nat × Bool)
  /-- a restart has begun: cause and core (R459, R460) -/
  restartDue : Option (Nat × Nat)
  challenge : BitVec 64
  /-- event classes enabled on the I3C bus (ENEC, DISEC) and the limits set by SETMRL and SETMWL at their defaults -/
  ibiOn : Bool
  evReceiver : Option Nat
  pldmTid : Nat
  /-- PLDM type 5 update state: 0 idle, 1 learning, 2 ready, 3 downloading, 4 verifying, 5 applying, 6 activating -/
  pldmFw : Nat
  /-- epoch power averaging of sensor 6 -/
  powerSum : Nat
  powerRounds : Nat
  /-- mean of the last whole epoch, mW (R450) -/
  powerAvg : Nat
  /-- previous side of each PLDM threshold: sensor and state -/
  crossed : Tbl Nat
  /-- boot recovery strap BOOT_RECOVER_N low (R705) -/
  recoverPin : Bool
  deviceIdCert : List Byte
  /-- a RESET_DEVICE has been answered and its sequence is due (R475) -/
  resetDue : Bool
  /-- dirty shutdowns counted (R122) -/
  dirtyShutdowns : Nat
deriving DecidableEq, Repr


/-! ### Spring flash and firmware (chapter 12) -/

/-- A partly entered command sequence (R484): the core that owns it, the next step expected (1 second unlock, 2 command,
3 address, 4 data LO, 5 data HI) and what was entered. -/
structure SfSeq where
  core : Nat
  step : Nat
  cmd : Nat
  self : Bool
  addr : Nat
  lo : Nat
deriving DecidableEq, Repr

/-- A running flash operation: a word program or a sector erase, by a core. -/
structure SfOp where
  erase : Bool
  addr : Nat
  data : BitVec 64
  self : Bool
  core : Nat
deriving DecidableEq, Repr

/-- What an instruction SRAM half holds of a firmware image (R500, R508). -/
structure FwImage where
  slot : Nat
  version : Nat
  svn : Nat
  settingsFmt : Nat
  hoWrite : Nat
  hoReadMin : Nat
  hoReadMax : Nat
  digest : List Byte
deriving DecidableEq, Repr

/-- Spring flash, its command port and the firmware update logic. -/
structure Flash where
  /-- bytes of the array that are not 0xFF (R478) -/
  mem : Memory
  /-- words that are uncorrectable, by word address -/
  badWords : List Nat
  seq : Option SfSeq
  /-- the running erase or program, and the nested program of a suspended erase -/
  op : Option SfOp
  nested : Option SfOp
  /-- the erase in `op` is suspended, by command or automatically (R480, R490) -/
  suspended : Bool
  autoSusp : Bool
  /-- tick at which the erase last ran on though reads were pending (R480) -/
  forcedTick : Option Nat
  /-- addresses of the data reads that wait for their bank, oldest first (R480, R493) -/
  reads : List Nat
  /-- a RESUME is held until the nested program ends (R491) -/
  resumeHeld : Bool
  /-- corrected words found in the current class-14 pass, by sector (R496) -/
  corrected : Tbl Nat
  /-- tick of the update owner's last command (R502) -/
  ownerTick : Nat
  /-- the two halves of instruction SRAM, and the image loaded and verified -/
  half0 : Option FwImage
  half1 : Option FwImage
  verified : Option FwImage
  /-- data bytes received so far -/
  received : Nat
  /-- path of an FW_ACTIVATE MODE 1 that waits for the switch -/
  handover : Option Nat
deriving DecidableEq, Repr


/-! ### Power controller (chapter 14) -/

/-- An entry to SLEEP or DEEP in progress (R563): target, the path that asked, units agreed in order, the state it began
in, and when it began. -/
structure Entry where
  target : Nat
  path : Nat
  agreed : Nat
  point : Option Nat
  from_ : Nat
  startTick : Nat
  /-- tick at which the unit next in order was asked (R566) -/
  asked : Nat
  /-- dirty lines cleaned so far -/
  cleaned : Nat
  /-- a wake event latched before the point of no return (R567) -/
  wake : Option Nat
  /-- signatures are being computed (R572) -/
  signing : Bool
deriving DecidableEq, Repr

/-- What PD_AON's power controller holds beside its registers. -/
structure Power where
  /-- 0 RUN, 1 IDLE, 2 SLEEP, 3 DEEP, 4 OFF -/
  st : Nat
  entry : Option Entry
  /-- exit in progress: state left, source, tick of the wake event -/
  exit : Option (Nat × Nat × Nat)
  /-- IDLE was requested rather than autonomous (R559) -/
  idleAsked : Bool
  idleSince : Nat
  /-- ticks since a head last received a CXL.mem request -/
  quietTicks : Nat
  /-- the 32-record buffer of PD_AON (R558) -/
  buffer : List SedRec
  /-- unit agreements held stopped, by unit number -/
  stopped : List Nat
deriving DecidableEq, Repr


/-! ### Supervisor, Reservoir, SEICHE and Thermocline (chapter 15) -/

/-- The supervisor's flush (R598): its cause, the step reached (2 the first tick, 3 after the cut, 4 the closing Gauge
writes queued, 5 ended) and where it started. -/
structure Flush where
  cause : Nat
  step : Nat
  startTick : Nat
  startD : Nat
  startRes : Nat
  /-- the state it began in: 2 RUN or 3 GUARD -/
  from_ : Nat
  /-- carried out by PD_AON alone, from DEEP (R568) -/
  deep : Bool
  /-- its duration in 10 microseconds once step 4 is durable, and whether VIN was back by then (R601) -/
  dur : Nat
  vinOk : Bool
  /-- MTL_STAT.STATE and ICU_STAT.STATE when it began -/
  mtlSt : Nat
  icuSt : Nat
  /-- an off request makes it end in power-down (R590) -/
  off : Bool
deriving DecidableEq, Repr

/-- The supervisor's state. State numbers are those of SUP_STAT.STATE, with 6 for OFF. -/
structure Sup where
  st : Nat
  step : Nat
  /-- PD_MGMT released (T0 of R457) since the last power-up -/
  t0 : Bool
  upTick : Nat
  /-- rails: enabled, power good, up (completed), FAILED -/
  en : BitVec 10
  pg : BitVec 10
  up : BitVec 10
  failed : BitVec 10
  nodis : BitVec 10
  /-- rails in force, from the Gauge copy (R71) -/
  rails : List RailEnt
  vWarn : Nat
  vFail : Nat
  /-- lowest VIN since GUARD began, and when it began -/
  vinMin : Nat
  guardTick : Nat
  guardMin : Nat
  flush : Option Flush
  /-- cause of the power-down in progress or of the last one (SUPSNAP byte 6) -/
  cause : Nat
  /-- R589: rails go down one at a time in the reverse of their UP_STEP -/
  reverse : Bool
  /-- the power-down ends in OFF (R588), and an on request was latched (R590) -/
  toOff : Bool
  onLatched : Bool
  /-- an off request waits for the current power-up step (R589) -/
  offAsked : Bool
  offTick : Nat
  mrLow : Bool
  /-- a follower has asked the leader for the power-down that its off request wants (R615) -/
  offSent : Bool
  /-- VIN has been seen below V_FAIL and not yet back (R525, R589) -/
  vinBad : Bool
  /-- VIN of the rounds and detector events of the last second, newest first (SUPSNAP bytes 8 and 9) -/
  vinHist : List Nat
  refclk : Bool
  /-- Reservoir -/
  resV : Nat
  charging : Bool
  resSw : Bool
  everCharged : Bool
  firstTarget : Bool
  faulted : Bool
  testing : Bool
  testPending : Bool
  testEpoch : Nat
  cEff : Nat
  esr : Nat
  /-- dirty budget of the last round in MiB (R596) -/
  budget : Nat
  /-- charged dirty bytes that T3 does not let rise (R597): those of the last boundary while a stack is at T3 -/
  dCap : Option Nat
  /-- SEICHE participant, leader, number announced, own completion, line seen low by others, fault state 23 -/
  part : Bool
  leader : Bool
  seiche : Nat
  seicheDone : Bool
  solo : Bool
  /-- NODIS, snapshot and reason carried into the next start -/
  snap : SupSnap
  /-- cause of the flush that ended, or was cut short, since the last T0 (R57, R610) -/
  flushed : Option Nat
  /-- a long press powers the device down: the next start shows FORCEOFF (R610) -/
  forced : Bool
  /-- tick of the last device reset (R171) -/
  resetTick : Nat := 0
  /-- lines that each owner of R593 has issued in this tick, in GUARD or under a throttle (R622): heads 0 to 3, 4 for the Tuten
  port and the management complex -/
  issued : Tbl Nat := []
deriving DecidableEq, Repr

/-- Thermocline: readings of the last round in channel order, repeats of a raw count, levels and windows. -/
structure Therm where
  raw : Tbl Nat
  same : Tbl Nat
  failed : List Nat
  value : Tbl Int
  levelC : Nat
  levelM : Tbl Nat
  levelD : Nat
  critC : Nat
  critM : Nat
  critD : Nat
deriving DecidableEq, Repr


/-! ### Narrows (chapter 16) -/

/-- A frame's change: WRITE with a whole line, ZERO, RELEASE or BITMAP (R635). -/
inductive FrameBody where
  | write (key line : Nat) (data : Line) (poison resync : Bool)
  | zero (key line : Nat) (resync : Bool)
  | release (line : Nat)
  | bitmap (first : Nat) (bits : BitVec 512)
deriving DecidableEq, Repr

/-- A send-list cell (R637): the frame, the members it serves that have not acknowledged it, and the tick it was sent. -/
structure SendCell where
  rseq : Nat
  body : FrameBody
  serves : List Nat
  sent : Option Nat
  bad : Bool
deriving DecidableEq, Repr

/-- A link: state 0 DOWN, 1 TRAINING, 2 AUTH, 3 UP. -/
structure NLink where
  st : Nat
  width : Nat
  holdIn : Bool
  holdSince : Nat
  holdOut : Bool
  send : List SendCell
  session : Nat
  txFrames : Nat
  peer : Nat
deriving DecidableEq, Repr

/-- A member: state 0 DOWN, 1 IN_SYNC, 2 RESYNC, 3 FENCED (R646). -/
structure NMem where
  st : Nat
  pos : Nat
  cause : Nat
  ack : Nat
  /-- STATUS received: GINC, role, SYNCED -/
  ginc : Nat
  isPrimary : Bool
  synced : Bool
  seen : Bool
  /-- dirty-region bitmap: none when lost or never started; the set regions otherwise (R651); with `full` every region from
  that number on is set beside them -/
  bits : Option (List Nat)
  full : Option Nat
  resyncStart : Nat
  startRegions : Nat
  /-- RSEQ of the last frame sent for each region of the resync in progress -/
  regionEnd : Tbl Nat
deriving DecidableEq, Repr

/-- A completion held for SYNC (R640): head, tag, line's RSEQ and the members waited for. -/
structure SyncWait where
  head : Nat
  tag : Nat
  rseq : Nat
  on : List Nat
deriving DecidableEq, Repr

/-- Narrows replication state. -/
structure Narrows where
  grp : GroupRec
  /-- 0 INACTIVE, 1 CONFIG, 2 ACTIVE, 3 SOLO, 4 READONLY -/
  group : Nat
  links : Tbl NLink
  mems : Tbl NMem
  rseq : Nat
  /-- next RSEQ to issue to the slices, highest persisted, and frames since the last ACK (R638) -/
  nextApply : Nat
  persisted : Nat
  unacked : Nat
  waits : List SyncWait
  /-- this device is stale and being resynced; regions still set in its received bitmap -/
  stale : Bool
  recvBits : List Nat
  fetches : List Nat
  diverged : Bool
  /-- handoff: none, requested as new primary (path), or giving up as primary -/
  handoff : Option (Nat × Bool)
  /-- resync walk (R652): member, next BITMAP frame of 12,288, next line -/
  walk : Option (Nat × Nat × Nat)
  /-- the next RSEQ to issue is known: a frame or HEARTBEAT has come since the group was met (R638) -/
  applySet : Bool
  digest : List Byte
  /-- LEAVE has been sent, and the send lists are waited for (R660) -/
  leaving : Bool := false
deriving DecidableEq, Repr


/-! ### Observation (chapter 17) -/

/-- A counter: its event and qualifier (programmable counters), count, live overflow, shadow, shadow overflow, PARTIAL
live and shadow (R668 to R671). -/
structure Counter where
  ev : Nat
  qual : Nat
  n : Nat
  ov : Bool
  sh : Nat
  sov : Bool
  part : Bool
  spart : Bool
deriving DecidableEq, Repr

/-- A Plumb sample before or after its end (R677). -/
structure Sample where
  seq : Nat
  head : Nat
  kind : Nat
  poison : Bool
  ide : Bool
  sync : Bool
  path : Nat
  key : Nat
  line : Nat
  hpa : Nat
  latency : Nat
  tick : Nat
  cycle : Nat
  media : Nat
  occ : Nat
  level : Nat
  /-- the response has been presented: the sample waits for its latency -/
  ended : Bool
deriving DecidableEq, Repr

/-- A Sounding frame waiting in its FIFO (R682). -/
structure SndFrame where
  kind : Nat
  unit : Nat
  cycle : Nat
  tick : Nat
  payload : List Byte
  /-- effective level when it was captured (R471) -/
  level : Nat
deriving DecidableEq, Repr

/-- Counters, Plumb and Sounding. -/
structure Obs where
  fixed : Tbl Counter
  /-- programmable counters by path * 8 + j -/
  pc : Tbl Counter
  epoch : Nat
  span : Nat
  /-- epochs since the last latch -/
  missed : Nat
  lfsr : BitVec 32
  countdown : Nat
  flying : List Sample
  ring : List Sample
  sampleSeq : Nat
  kept : Nat
  active : Bool
  fullSaid : Bool
  /-- control values waiting for the next tick boundary (R675): register and value -/
  pendingCtl : List (Nat × BitVec 32)
  fifos : Tbl (List SndFrame)
  sndSeq : Nat
  sndRate : Nat
  sndActive : Bool
  sndDrops : Tbl Nat
  framesSent : Nat
  /-- kind of the first drop, drops and stale frames of the epoch (R685) -/
  epochDrop : Option Nat
  epochDrops : Nat
  epochStale : Nat
  slot : Nat
  /-- cycle events of R674 that have held in this tick, by 256 * EVENT + head, slice or link; true: since its start -/
  cyc : Tbl Bool
  /-- lifecycle, power state, token and limits of the last level computation (R470), for the cause that OBS_LEVEL gives -/
  inputs : List Nat
deriving DecidableEq, Repr

/-! ### Pins and boundary scan (chapter 18) -/

/-- The test access port (R717 to R720): enabled or held in Test-Logic-Reset, its instruction and boundary cells by
chain index. -/
structure Jtag where
  enabled : Bool
  instr : Nat
  cells : Tbl Bool
  /-- pins driven from the cells, or all outputs in high impedance -/
  driving : Bool
  highz : Bool
  /-- tick of the last assertion of an enabling pin, or of the end of a flush that MR_N started (R717) -/
  since : Nat
deriving DecidableEq, Repr


/-! ### Outputs of a step -/

/-- What the device gives its surroundings in a step. -/
inductive Out where
  /-- answer of a mailbox or CCI command: path, opcode, return code, output payload; on a head it clears the doorbell, at
  which the doorbell interrupt is given (R131) -/
  | reply (path op code : Nat) (body : List Byte)
  /-- a background command's return code was reported: path, opcode, code (R139); on a head with the background-command
  interrupt (R131) -/
  | bgDone (path op code : Nat)
  /-- a register read: path, address, value -/
  | value (path addr : Nat) (v : BitVec 32)
  /-- answer on the Tuten port (MCTP, I3C or SMBus): protocol and bytes -/
  | tuten (proto : Nat) (body : List Byte)
  /-- answer on a head's DOE instance -/
  | doe (head : Nat) (body : List Byte)
  /-- a read's data response, and a write's completion (head, tag) -/
  | drs (head tag : Nat) (data : Line) (poison : Bool)
  | ndr (head tag : Nat)
  /-- credits returned to a head: channel 0 requests, 1 requests with data -/
  | credit (head chan n : Nat)
  /-- GPF phase response (R120) -/
  | gpf (head : Nat)
  /-- an error message, interrupt or AER of a head: kind (0 fatal AER, 1 non-fatal AER, 2 MSI-X vector of an event log),
  detail -/
  | headEvent (head kind arg : Nat)
  /-- IBI or TUT_ALERT_N (R446) -/
  | ibi (bytes : List Byte)
  | alertPin (low : Bool)
  /-- PLDM PlatformEventMessage to an endpoint (R450) -/
  | platformEvent (eid : Nat) (body : List Byte)
  /-- a Narrows frame started on a link: type, position, RSEQ and body -/
  | frame (link type pos rseq : Nat) (relay : Bool) (body : Option FrameBody)
  | status (link : Nat) (ginc : Nat) (primary : Bool) (st : Nat) (synced : Bool) (group nmem : Nat) (ack : Bool)
  /-- a Sounding slot's 24 bytes (R681) -/
  | sounding (bytes : List Byte)
  /-- a RIPPLE_SYNC pulse driven: width in REFCLK cycles (R44) -/
  | pulse (width : Nat)
  /-- a SEICHE frame or request driven (R613, R615) -/
  | seicheFrame (st : Nat)
  | seichePulse
  /-- a boundary-scan register selected or shifted: instruction and value -/
  | tdo (instr : Nat) (v : BitVec 32)
  | cells (v : List Bool)
  /-- what the boundary cells drive on the pins, in the chain's order; none where a cell drives nothing -/
  | pads (v : List (Option Bool))
  /-- a sense given to a die (channel * 8 + die), its sector and read-reference offsets (R238, R241) -/
  | sense (die psa : Nat) (offs : List Int)
  /-- direct-access buffer transfer complete, flash read data -/
  | flash (v : BitVec 64)
deriving DecidableEq, Repr


/-! ### Faults and refusals -/

/-- Why a step could stop in a fault. No meaning of this model raises one: the spec gives every command an effect. -/
inductive Fault where
  /-- Reserved: raised by nothing. Safe. -/
  | unused
deriving DecidableEq, Repr

/-- Why a step could refuse. -/
inductive Refusal where
  /-- A command without a meaning yet, by its mnemonic; raised by arms of exec only. Safe: the model stops. -/
  | notModelled (mnemonic : String)
deriving DecidableEq, Repr


/-! ### The whole state -/

/-- The machine: every register, buffer, queue, counter and pin the spec gives the block, the free-value counter of the
model, the outputs of the last step, and the commands that wait. -/
structure State where
  /-- commands waiting, first in first out -/
  pending : List Instr
  /-- outputs of the last step, in order -/
  out : List Out
  /-- the model's own counter of free values drawn (no register of the device) -/
  fresh : Nat
  /-- register file: words that differ from their reset word, by address, banked registers by bank and address (R14) -/
  regs : Tbl (BitVec 32)
  /-- words staged by LO writes and HI words captured by LO reads, by path and address (R15, R16) -/
  staged : Tbl (BitVec 32)
  captured : Tbl (BitVec 32)
  /-- variant: 0 UMX7480, 1 UMX7460, 2 UMX7440; straps and calibration row identity (R2, R483, R705) -/
  variant : Nat
  devid : Nat
  serial : Nat
  /-- image in force, and the fused and enabled units (R7, R76) -/
  cfg : Option ImageCfg
  tick : Tick
  sed : Sediment
  gauge : Gauge
  ndx : Ndx
  heads : Tbl Head
  poison : PoisonList
  queues : Tbl Queue
  /-- request trackers of the heads (R147) -/
  tracker : List Track
  /-- line cache ways by (slice * 4,096 + set) * 16 + way; slices by number; fills in flight by line; line commands by path -/
  ways : Tbl Way
  slices : Tbl Slice
  fills : Tbl FillSt
  lcmds : Tbl LCmd
  /-- sets' counts of dirty and pinned ways are those of `ways` -/
  media : Media
  mtl : Mtl
  icu : Icu
  vault : Vault
  memp : Memp
  movers : Tbl MoverRun
  mgmt : Mgmt
  flash : Flash
  pwr : Power
  sup : Sup
  therm : Therm
  nrw : Narrows
  obs : Obs
  jtag : Jtag
deriving DecidableEq, Repr

/-! ### The state after reset -/

/-- Tick and calendar logic after reset: count and calendar zero, standalone (R28, R53). -/
def Tick.init : Tick :=
  { count := 0, cal := 0, hold := 0, calSet := none, budgetSet := none, role := 0, forcedFollower := false,
    goodPulses := 0, everLocked := false, shortPending := false, markCal := 0, markSub := 0, frame := [],
    collecting := false, framing := false, addD := none, listen := none, heard := false }

/-- The recorder with no record. -/
def Sediment.init : Sediment :=
  { ring := [], region := [], fresh := 0, dirtySlots := [], newest := none, next := 0, mark := 0, flushDue := false,
    dropped := 0, dropLow := 0, dropHigh := 0, mirrorNext := 0, mirrorWin := 0, mirrorSaid := false, lost := 0, gap := false }

/-- The Gauge store as manufactured: no block listed, so every block reads as R737 leaves it. -/
def Gauge.init : Gauge :=
  { blocks := [], spareUsed := [], cur := none, prioQ := [], normQ := [], waiting := [], held := none, image := [],
    bad := [] }

def Ndx.init : Ndx := { staged := [], owner := none, stagedCfg := none, commit := none, live := none }

def MapState.init : MapState := { reachMap := [], merge := [], fine := [], sets := [], wear := [], retired := [] }

/-- The translation layer before its first start: nothing mapped, nothing journalled (R314, R737). -/
def Mtl.init : Mtl :=
  { map := MapState.init, lost := [], wseq := 0, unplaced := [], sealedQ := [], internalQ := [], logPage := none, relocPage := none,
    pageSeq := 0, wbuf := [], folds := [], dredge := none, dredgeOn := false, ready := false, picks := 0, jseq := 0, jopen := [], jfirst := 0,
    jpend := [], jdone := [], ckpt := none, ckptRun := none, nextSet := 0, committed := 0, size := 0, lifeS := 0,
    lifeD := 0, hints := [] }

def Shore.init : Shore :=
  { st := 0, key := 0, ranges := [], b := 0, reachesDone := 0, skipped := 0, step := 0, waited := 0, delay := false,
    again := [], caps := [], foldSeq := 0, target := none, jseq := none, waitSeqs := [], adv := [], hotLeft := [], resets := [], startTick := 0 }

def Icu.init : Icu :=
  { tree := ⟨[], []⟩, mediaTree := ⟨[], []⟩, groups := [], onDie := [], pond := [], writeback := [],
    dirtyGroups := [], nodeSeq := 0, locSeq := 0, locator := none, rootOpen := false, quar := [],
    shore := Shore.init, report := [], deferred := none, discardArmed := false, pipeOrder := [],
    purged := [] }

def Vault.init : Vault :=
  { ctxs := [], slots := [], keks := [], kVault := 0, kTree := 0, dev := none, area0 := [], area1 := [], busy := [],
    rngFails := 0, rngStopped := none, drbgReqs := 0, jobs := [], charged := 0, installs := [], weak := false }

def Memp.init : Memp :=
  { epochCe := [], scrubPos := [], planted := [], stuckFullSaid := false }

def Mgmt.init : Mgmt :=
  { restarts := [], recovery := none, limited := false, boot := 0, bg := none, bgStat := [], inflight := [],
    spdm := [], token := none, tokenNew := none, stamp := none, restartDue := none, challenge := 0, ibiOn := false, evReceiver := none, pldmTid := 0, pldmFw := 0,
    powerSum := 0, powerRounds := 0, powerAvg := 0, crossed := [], recoverPin := false, deviceIdCert := [], resetDue := false,
    dirtyShutdowns := 0 }

/-- Spring flash with every byte erased, no operation running. -/
def Flash.init : Flash :=
  { mem := [], badWords := [], seq := none, op := none, nested := none, suspended := false, autoSusp := false,
    forcedTick := none, reads := [], resumeHeld := false, corrected := [], ownerTick := 0, half0 := none, half1 := none, verified := none,
    received := 0, handover := none }

def Power.init : Power :=
  { st := 0, entry := none, exit := none, idleAsked := false, idleSince := 0, quietTicks := 0, buffer := [],
    stopped := [] }

def SupSnap.init : SupSnap :=
  { cal := 0, cause := 0, completed := false, ride := false, fromVaon := false, solo := false, vinMin := 0, resStart := 0,
    resEnd := 0, dur := 0, dMib := 0, failed := 0, nodis := 0, temps := [], seiche := 0, cEff := 0 }

/-- The rail table of R69. -/
def defaultRails : List RailEnt :=
  [⟨2, 20, 50, 10, 20⟩, ⟨3, 19, 50, 10, 20⟩, ⟨8, 15, 50, 10, 20⟩, ⟨9, 15, 50, 10, 20⟩, ⟨1, 21, 50, 10, 20⟩,
   ⟨5, 18, 50, 10, 20⟩, ⟨4, 18, 50, 10, 20⟩, ⟨6, 17, 50, 10, 20⟩, ⟨7, 16, 50, 10, 20⟩, ⟨10, 14, 50, 10, 20⟩]

/-- The supervisor at T0: state RUN, step 12 done, the ten rails up (R581, R625). -/
def Sup.init : Sup :=
  { st := 2, step := 12, t0 := true, upTick := 0, en := 0x3FF, pg := 0x3FF, up := 0x3FF, failed := 0, nodis := 0,
    rails := defaultRails, vWarn := 1060, vFail := 960, vinMin := 0xFFFF, guardTick := 0, guardMin := 0xFFFF, flush := none,
    cause := 0, reverse := false, toOff := false, onLatched := false, offAsked := false, offTick := 0,
    mrLow := false, offSent := false, vinBad := false, vinHist := [], refclk := true, resV := 0, charging := false,
    resSw := false, everCharged := false, firstTarget := false, faulted := false, testing := false,
    testPending := false, testEpoch := 0, cEff := 220, esr := 0, budget := 0, dCap := none, part := false, leader := false,
    seiche := 13, seicheDone := true, solo := false, snap := SupSnap.init,
    flushed := none, forced := false }

def Therm.init : Therm :=
  { raw := [], same := [], failed := [], value := [], levelC := 0, levelM := [], levelD := 0, critC := 0, critM := 0,
    critD := 0 }

def GroupRec.init : GroupRec :=
  { ginc := 0, primary := 0, isPrimary := false, solo := false, synced := false, serials := [0, 0, 0], sync := [] }

def Narrows.init : Narrows :=
  { grp := GroupRec.init, group := 0, links := [], mems := [], rseq := 0, nextApply := 0, persisted := 0,
    unacked := 0, waits := [], stale := false, recvBits := [], fetches := [], diverged := false, handoff := none,
    walk := none, applySet := false, digest := [] }

def Obs.init : Obs :=
  { fixed := [], pc := [], epoch := 0, span := 0, missed := 0, lfsr := 1, countdown := 1, flying := [], ring := [],
    sampleSeq := 0, kept := 0, active := false, fullSaid := false, pendingCtl := [], fifos := [], sndSeq := 0,
    sndRate := 0, sndActive := false, sndDrops := [], framesSent := 0, epochDrop := none, epochDrops := 0,
    epochStale := 0, slot := 0, cyc := [], inputs := [] }

def Jtag.init : Jtag := { enabled := false, instr := 1, cells := [], driving := false, highz := false, since := 0 }

/-- The block right after device reset, at T0 of R457: every register at the Reset column of its table, every queue,
buffer and cache empty, the supervisor in RUN with all rails up, the part as manufactured (R737), no command waiting. -/
def State.reset : State :=
  { pending := [], out := [], fresh := 0, regs := [], staged := [], captured := [], variant := 0, devid := 0,
    serial := 0, cfg := none, tick := Tick.init, sed := Sediment.init, gauge := Gauge.init, ndx := Ndx.init,
    heads := [], poison := ⟨[], false, 0⟩, queues := [], tracker := [], ways := [], slices := [], fills := [], lcmds := [],
    media := ⟨[], [], [], [], [], [], 0, [], 0⟩, mtl := Mtl.init, icu := Icu.init, vault := Vault.init, memp := Memp.init,
    movers := [], mgmt := Mgmt.init, flash := Flash.init, pwr := Power.init, sup := Sup.init, therm := Therm.init,
    nrw := Narrows.init, obs := Obs.init, jtag := Jtag.init }

end Sys2Proof.Machine
end

