-- ==== Sys2Proof/Machine/Ops.lean ====
section
/-! DEFINITION. The named operations every meaning is built from: sparse tables, the register file, fields of registers,
free values and outputs. -/

namespace Sys2Proof.Machine

/-! ### Sparse tables -/

/-- The value listed under a key. -/
def tfind {α : Type} (t : Tbl α) (k : Nat) : Option α :=
  match t with
  | [] => none
  | (j, v) :: r => if j = k then some v else tfind r k

/-- The value under a key, or what an unlisted key reads as. -/
def tget {α : Type} (d : α) (t : Tbl α) (k : Nat) : α := (tfind t k).getD d

/-- List a value under a key, keeping the keys rising. -/
def tput {α : Type} (k : Nat) (v : α) (t : Tbl α) : Tbl α :=
  match t with
  | [] => [(k, v)]
  | (j, w) :: r => if k < j then (k, v) :: (j, w) :: r else if k = j then (k, v) :: r else (j, w) :: tput k v r

/-- Remove a key. -/
def tdel {α : Type} (k : Nat) (t : Tbl α) : Tbl α := t.filter (fun e => e.1 != k)

/-- Change the value under a key. -/
def tmod {α : Type} (d : α) (k : Nat) (f : α → α) (t : Tbl α) : Tbl α := tput k (f (tget d t k)) t

/-- The keys rise strictly. -/
def tsorted {α : Type} (t : Tbl α) : Bool :=
  match t with
  | [] => true
  | (j, _) :: r => (match r with | [] => true | (k, _) :: _ => decide (j < k)) && tsorted r

/-- Replace the first element that satisfies a test. -/
def lmod {α : Type} (p : α → Bool) (f : α → α) (l : List α) : List α :=
  match l with
  | [] => []
  | x :: r => if p x then f x :: r else x :: lmod p f r

/-- Remove the first element that satisfies a test. -/
def ldel {α : Type} (p : α → Bool) (l : List α) : List α :=
  match l with
  | [] => []
  | x :: r => if p x then r else x :: ldel p r

/-- Element at an index with a default. -/
def lat {α : Type} (d : α) (l : List α) (i : Nat) : α := l.getD i d

/-! ### Memory as addressed bytes -/

/-- A byte of an area whose unlisted bytes read as `d`. -/
def mbyte (d : Byte) (m : Memory) (a : Nat) : Byte := tget d m a

/-- Write a byte, keeping the canonical form: a byte equal to what an unlisted address reads as is not listed. -/
def mput (d : Byte) (m : Memory) (a : Nat) (b : Byte) : Memory := if b = d then tdel a m else tput a b m

/-- Write bytes from an address upward. -/
def mputs (d : Byte) (m : Memory) (a : Nat) (l : List Byte) : Memory :=
  match l with
  | [] => m
  | b :: r => mputs d (mput d m a b) (a + 1) r

/-- Read n bytes from an address upward. -/
def mbytes (d : Byte) (m : Memory) (a n : Nat) : List Byte :=
  match n with
  | 0 => []
  | k + 1 => mbyte d m a :: mbytes d m (a + 1) k

/-- The canonical form of an area: addresses rise and no listed byte equals the default. -/
def Memory.wf (d : Byte) (m : Memory) : Bool := tsorted m && m.all (fun c => c.2 != d)

/-! ### The register file -/

/-- The reset word of the register at an address of the map (the Reset columns of the spec's tables). -/
def resetWord (a : Nat) : BitVec 32 := (regDesc (a % bankStride)).elim 0 (fun d => BitVec.ofNat 32 d.reset)

/-- The word a register holds (R14). -/
def State.reg (s : State) (a : Nat) : BitVec 32 := (tfind s.regs a).getD (resetWord a)

/-- Put a word into a register; a word equal to the reset word is not listed. -/
def State.putReg (s : State) (a : Nat) (v : BitVec 32) : State :=
  if v = resetWord a then { s with regs := tdel a s.regs } else { s with regs := tput a v s.regs }

/-- The bits of a field, in place. -/
def Fld.mask (f : Fld) : BitVec 32 := (BitVec.ofNat 32 (2 ^ f.width - 1)) <<< f.lo

/-- The value of a field of a word. -/
def Fld.get (f : Fld) (w : BitVec 32) : Nat := ((w >>> f.lo) &&& BitVec.ofNat 32 (2 ^ f.width - 1)).toNat

/-- A word with a field replaced; bits of the value above the field's width are dropped. -/
def Fld.put (f : Fld) (v : Nat) (w : BitVec 32) : BitVec 32 :=
  (w &&& ~~~ f.mask) ||| ((BitVec.ofNat 32 v <<< f.lo) &&& f.mask)

/-- The value of a register field. -/
def fld (s : State) (f : Fld) : Nat := f.get (s.reg f.reg)

/-- Set a register field. -/
def setF (f : Fld) (v : Nat) (s : State) : State := s.putReg f.reg (f.put v (s.reg f.reg))

/-- Set a one-bit register field. -/
def setB (f : Fld) (b : Bool) (s : State) : State := setF f (if b then 1 else 0) s

/-- A one-bit register field as a truth value. -/
def bit (s : State) (f : Fld) : Bool := fld s f == 1

/-- Add to a counter field, saturating at its width (R18). -/
def satAdd (f : Fld) (n : Nat) (s : State) : State := setF f (min (fld s f + n) (2 ^ f.width - 1)) s

/-- Count one event in a saturating counter field. -/
def satInc (f : Fld) (s : State) : State := satAdd f 1 s

/-! ### Free values and outputs -/

/-- Draw a free value. -/
def draw (w : Nat) (s : State) : BitVec w × State := (Config.free w s.fresh, { s with fresh := s.fresh + 1 })

/-- Draw a free value of at most n: one that the spec leaves open but for an upper limit. -/
def drawLe (n : Nat) (s : State) : Nat × State := ((Config.free 32 s.fresh).toNat % (n + 1), { s with fresh := s.fresh + 1 })

/-- Give an output. -/
def emit (o : Out) (s : State) : State := { s with out := s.out ++ [o] }

/-- Give outputs. -/
def emits (l : List Out) (s : State) : State := { s with out := s.out ++ l }

/-- Answer a command. -/
def answer (path op code : Nat) (body : List Byte) (s : State) : State := emit (.reply path op code body) s

/-- A meaning: the outputs of the step are its own, the queue is no part of it, and the step goes on. -/
def run (f : State → State) (s : State) : Host.Outcome State Fault Refusal :=
  .next { f { s with out := [] } with pending := s.pending }

/-- Apply a change when a condition holds. -/
def when (c : Bool) (f : State → State) (s : State) : State := if c then f s else s

/-- Apply a change for each element of a list, in order. -/
def forEach {α : Type} (l : List α) (f : α → State → State) (s : State) : State := l.foldl (fun t a => f a t) s

end Sys2Proof.Machine
end

