-- ==== Sys2Proof/Machine/Operands.lean ====
section
/-! DEFINITION. The operand forms: little-endian payload fields, lines and their bytes, and the paths a command comes
from. -/

namespace Sys2Proof.Machine

/-- A number as n little-endian bytes (R61, R539). -/
def le (n v : Nat) : List Byte :=
  match n with
  | 0 => []
  | k + 1 => BitVec.ofNat 8 v :: le k (v / 256)

/-- A number as n big-endian bytes. -/
def be (n v : Nat) : List Byte := (le n v).reverse

/-- The little-endian value of bytes. -/
def leVal (l : List Byte) : Nat :=
  match l with
  | [] => 0
  | b :: r => b.toNat + 256 * leVal r

/-- The big-endian value of bytes. -/
def beVal (l : List Byte) : Nat := leVal l.reverse

/-- Bytes [o, o + n) of a payload; bytes past its end read zero. -/
def sub (l : List Byte) (o n : Nat) : List Byte :=
  let r := (l.drop o).take n
  r ++ List.replicate (n - r.length) 0

/-- A payload field: n little-endian bytes at offset o. -/
def at' (l : List Byte) (o n : Nat) : Nat := leVal (sub l o n)

/-- One byte of a payload. -/
def byteAt (l : List Byte) (o : Nat) : Nat := at' l o 1

/-- Every byte of a range of a payload is zero. -/
def zeroAt (l : List Byte) (o n : Nat) : Bool := (sub l o n).all (fun b => b == 0)

/-- Zero bytes. -/
def zeros (n : Nat) : List Byte := List.replicate n 0

/-- The 64 bytes of a line, byte 0 first. -/
def lineBytes (d : Line) : List Byte := le 64 d.toNat

/-- A line from its bytes. -/
def bytesLine (l : List Byte) : Line := BitVec.ofNat 512 (leVal (l.take 64))

/-- Byte n of a line. -/
def lineByte (d : Line) (n : Nat) : Byte := d.extractLsb' (8 * n) 8

/-- The bytes of `new` where the byte mask is set, those of `old` elsewhere (R187). -/
def mergeLine (old new : Line) (mask : BitVec 64) : Line :=
  (List.range 64).foldl (fun (d : Line) n =>
    if mask.getLsbD n then
      (d &&& ~~~ ((0xFF : Line) <<< (8 * n))) ||| ((lineByte new n).zeroExtend 512 <<< (8 * n))
    else d) old

/-- ASCII bytes of a string. -/
def ascii (t : String) : List Byte := t.toList.map (fun c => BitVec.ofNat 8 c.toNat)

/-- The Tuten port's path code (0 to 3 are the heads; 5 to 8 the management cores). -/
def tuten : Nat := 4

/-- A path is a head. -/
def isHead (p : Nat) : Bool := decide (p < 4)

/-- A path is a management core. -/
def isCore (p : Nat) : Bool := decide (5 ≤ p) && decide (p ≤ 8)

/-- A path may reach management-only registers (R19). -/
def isMgmt (p : Nat) : Bool := decide (4 ≤ p) && decide (p ≤ 8)

/-! Return codes of commands (R136). -/
def rcSuccess : Nat := 0x0000
def rcBackground : Nat := 0x0001
def rcInvalid : Nat := 0x0002
def rcUnsupportedStd : Nat := 0x0003
def rcInternal : Nat := 0x0004
def rcBusy : Nat := 0x0010
def rcConflict : Nat := 0x0011
def rcNotErased : Nat := 0x0012
def rcWorn : Nat := 0x0013
def rcUnsupported : Nat := 0x0015
def rcAuthFail : Nat := 0x0016
def rcStale : Nat := 0x0017
def rcRefused : Nat := 0x0018

end Sys2Proof.Machine
end

