-- ==== Sys2Proof/Machine/Flags.lean ====
section
/-! DEFINITION. The flag rules: what a write does to a field of each access type (R17), and the codes over words and
bytes that the spec computes (R407, R682, R178). -/

namespace Sys2Proof.Machine

/-- The bits of a field of one bit or more. -/
def maskOf (lo w : Nat) : BitVec 32 := (BitVec.ofNat 32 (2 ^ w - 1)) <<< lo

/-- What a write of `v` leaves in a register that held `old` (R17): RW fields take the written bits; W1C bits written 1
clear; W1S bits written 1 set; every other field keeps its bits. -/
def writeFields (fields : List (Nat × Nat × Acc)) (old v : BitVec 32) : BitVec 32 :=
  fields.foldl (fun w f =>
    let m := maskOf f.1 f.2.1
    match f.2.2 with
    | .rw => (w &&& ~~~ m) ||| (v &&& m)
    | .w1c => w &&& ~~~ (v &&& m)
    | .w1s => w ||| (v &&& m)
    | _ => w) old

/-- What a read leaves in a register that held `old` (R17): RC fields clear. -/
def readClear (fields : List (Nat × Nat × Acc)) (old : BitVec 32) : BitVec 32 :=
  fields.foldl (fun w f => match f.2.2 with | .rc => w &&& ~~~ maskOf f.1 f.2.1 | _ => w) old

/-- What a read of a register that holds `old` gives (R17): WO fields and bits of no field read zero. -/
def readFields (fields : List (Nat × Nat × Acc)) (old : BitVec 32) : BitVec 32 :=
  old &&& fields.foldl (fun m f =>
    match f.2.2 with
    | .wo | .rsv => m
    | _ => m ||| maskOf f.1 f.2.1) 0

/-- One step of a reflected CRC over a bit. -/
def crcBit (poly : BitVec 32) (c : BitVec 32) : BitVec 32 := if c.getLsbD 0 then (c >>> 1) ^^^ poly else c >>> 1

/-- One byte into the CRC-32C register. -/
def crc32cByte (c : BitVec 32) (b : Byte) : BitVec 32 :=
  (List.range 8).foldl (fun c _ => crcBit 0x82F63B78 c) (c ^^^ b.zeroExtend 32)

/-- CRC-32C (Castagnoli, reflected, initial and final value all ones; R63). -/
def crc32c (l : List Byte) : BitVec 32 := ~~~ (l.foldl crc32cByte 0xFFFFFFFF)

/-- CRC-8 of R682: polynomial x^8 + x^2 + x + 1, initial value 0. -/
def crc8 (l : List Byte) : Byte :=
  l.foldl (fun c b =>
    (List.range 8).foldl (fun (c : Byte) _ => if c.getLsbD 7 then (c <<< 1) ^^^ 0x07 else c <<< 1) (c ^^^ b)) 0

/-- One step of a 32-bit LFSR (R178). -/
def lfsrStep (s : BitVec 32) : BitVec 32 := if s.getLsbD 0 then (s >>> 1) ^^^ 0x80200003 else s >>> 1

/-! ### The SEC-DED code of on-die words (R407, R408) -/

/-- Number of ones of an 8-bit value. -/
def weight8 (n : Nat) : Nat := ((List.range 8).filter (fun i => n.testBit i)).length

/-- Columns of data bits 0 to 63 of the check matrix (R407). -/
def eccColumns : List Nat :=
  ((List.range 256).filter (fun n => weight8 n == 3)) ++ [0x1F, 0x2F, 0x37, 0x3B, 0x3D, 0x3E, 0x4F, 0x57]

/-- The check byte of a data word (R407). -/
def eccCheck (d : BitVec 64) : BitVec 8 :=
  ((eccColumns.zipIdx).foldl (fun (c : BitVec 8) e => if d.getLsbD e.2 then c ^^^ BitVec.ofNat 8 e.1 else c) 0)

/-- How a received word decodes (R408): good, corrected with the data corrected, or uncorrectable. -/
inductive EccOut where
  | good
  | corrected (data : BitVec 64)
  | bad
deriving DecidableEq, Repr

/-- The decoder (R408). -/
def eccDecode (d : BitVec 64) (c : BitVec 8) : EccOut :=
  let syn := (eccCheck d ^^^ c).toNat
  if syn = 0 then .good
  else if weight8 syn % 2 = 0 then .bad
  else
    match eccColumns.zipIdx.find? (fun e => e.1 == syn) with
    | some e => .corrected (d ^^^ ((1 : BitVec 64) <<< e.2))
    | none => if weight8 syn = 1 then .corrected d else .bad

end Sys2Proof.Machine
end

