-- ==== Sys2Proof/Machine/Presence.lean ====
section
/-! DEFINITION. What is present and enabled: units, parts and their registers (R2 to R12, R76, R585), the settings of
the image in force with their defaults (R69, R91), and the device's modes. -/

namespace Sys2Proof.Machine

/-! ### Variant (R2) -/

/-- The part number of the variant. -/
def partNo (s : State) : Nat := if s.variant = 0 then 0x7480 else if s.variant = 1 then 0x7460 else 0x7440

/-- Host ports of the variant as a mask (R2, R9). -/
def fusedPorts (s : State) : Nat := if s.variant = 0 then 0xF else 0x3

/-- Media channels of the variant (R2). -/
def fusedChans (s : State) : Nat := if s.variant = 0 then 16 else 8

/-- Inline contexts of the variant, in units of 1,024 (R5). -/
def fusedCtx (s : State) : Nat := if s.variant = 2 then 1 else 4

/-- Key indexes that the variant can hold (R5). -/
def keyLimit (s : State) : Nat := fusedCtx s * 1024

def fusedSeal (s : State) : Bool := s.variant != 2
def fusedPlumb (s : State) : Bool := s.variant != 2
def fusedNrw (s : State) : Bool := s.variant == 0

/-- A rail is FAILED (R584). -/
def railFailed (s : State) (n : Nat) : Bool := s.sup.failed.getLsbD n

/-! ### Presence (R6, R11, R585) -/

/-- The image's enables, or those of the safe configuration (R76, R91). -/
def imgEnable (s : State) : Nat := match s.cfg with | some c => c.enable ||| 0x7F7F | none => 0xFFFF
def imgPorts (s : State) : Nat := match s.cfg with | some c => c.ports | none => 0xF
def imgSeal (s : State) : Bool := match s.cfg with | some c => c.sealOn | none => false
def imgPlumb (s : State) : Bool := match s.cfg with | some c => c.plumb | none => false
def imgNrw (s : State) : Bool := match s.cfg with | some c => c.nrw | none => false
def imgSounding (s : State) : Bool := match s.cfg with | some c => c.sounding | none => false

/-- Units made absent by a FAILED rail (R585), as a mask. -/
def railAbsent (s : State) : Nat :=
  (if railFailed s 0 || railFailed s 1 then 0x81FF else 0) |||
  (if railFailed s 4 then 0x97FF else 0) |||
  (if railFailed s 2 || railFailed s 3 then 0x0001 else 0) |||
  (if railFailed s 5 || railFailed s 6 then 0x0040 else 0) |||
  (if railFailed s 7 || railFailed s 8 then 0x0060 else 0)

/-- Unit n is present in the variant, enabled and not made absent by a rail (R6). Unit 7 may be disabled only with the
seal engine off, unit 15 only with its three optional parts off (R76); the enable of a part that the variant lacks is ignored (R77). -/
def unitOn (s : State) (n : Nat) : Bool :=
  decide (n < 16) && !(railAbsent s).testBit n &&
  (if n = 7 then (imgEnable s).testBit 7 || (fusedSeal s && imgSeal s)
   else if n = 15 then (imgEnable s).testBit 15 || (fusedPlumb s && imgPlumb s) || (fusedNrw s && imgNrw s) || imgSounding s
   else true)

/-- GLB_UNITS (R57). -/
def unitsWord (s : State) : Nat := (List.range 16).foldl (fun a n => if unitOn s n then a + 2 ^ n else a) 0

def sealOn (s : State) : Bool := fusedSeal s && imgSeal s && unitOn s 4
def plumbOn (s : State) : Bool := fusedPlumb s && imgPlumb s && unitOn s 15
def nrwOn (s : State) : Bool := fusedNrw s && imgNrw s && unitOn s 15 && !railFailed s 2
def soundingOn (s : State) : Bool := imgSounding s && unitOn s 15

/-- Head h is present and enabled (R57). -/
def headOn (s : State) (h : Nat) : Bool :=
  (fusedPorts s).testBit h && (imgPorts s).testBit h && unitOn s 0

/-- The enabled heads in ascending order. -/
def headsOn (s : State) : List Nat := (List.range 4).filter (headOn s)

/-- Media channels present (R2). -/
def chanOn (s : State) (c : Nat) : Bool := decide (c < fusedChans s) && unitOn s 5

/-- GLB_CAP_FUSED (R57). -/
def capFused (s : State) : Nat :=
  fusedPorts s + (if fusedSeal s then 2 ^ 4 else 0) + (if fusedPlumb s then 2 ^ 5 else 0) +
  (if fusedNrw s then 2 ^ 6 else 0) + 2 ^ 7 + fusedCtx s * 2 ^ 8 + fusedChans s * 2 ^ 16

/-- GLB_CAP (R57); zero with VMGMT FAILED (R585). -/
def capWord (s : State) : Nat :=
  if railFailed s 4 then 0 else
  (List.range 4).foldl (fun a n => if headOn s n then a + 2 ^ n else a) 0 + (if sealOn s then 2 ^ 4 else 0) +
  (if plumbOn s then 2 ^ 5 else 0) + (if nrwOn s then 2 ^ 6 else 0) + (if soundingOn s then 2 ^ 7 else 0) +
  (if unitOn s 3 then fusedCtx s * 2 ^ 8 else 0) + (if unitOn s 5 then fusedChans s * 2 ^ 16 else 0)

/-! ### Addressing of the fine map (R275) -/

/-- Bucket bits of the fine map (R275). -/
def fineBits (s : State) : Nat := if s.variant = 0 then 25 else 24
def fineTag (s : State) (l : Nat) : Nat := l / 2 ^ fineBits s % 4096
def fineBucket (s : State) (l : Nat) : Nat := (l % 2 ^ fineBits s) ^^^ (fineTag s l * 2 ^ (fineBits s - 12))
/-- The line of an entry with a tag in a bucket. -/
def fineLine (s : State) (bucket tag : Nat) : Nat := tag * 2 ^ fineBits s + (bucket ^^^ (tag * 2 ^ (fineBits s - 12)))

/-! ### Settings of the image in force (R69, R91) -/

/-- Default thermal thresholds of the three groups, T1, T2, T3, CRIT each, then the two windows (R69). -/
def defaultThermal : List Nat := [100, 105, 110, 115, 75, 80, 83, 88, 85, 90, 95, 100, 0, 85, 0, 70]

def cfgThermal (s : State) : List Nat := match s.cfg with | some c => c.thermal | none => defaultThermal
def cfgHyst (s : State) : Nat := match s.cfg with | some c => c.hyst | none => 3
def cfgErase (s : State) : Bool := match s.cfg with | some c => c.erase | none => false
def cfgEvlogMin (s : State) : Nat := match s.cfg with | some c => c.evlogMin | none => 3
def cfgAlertMin (s : State) : Nat := match s.cfg with | some c => c.alertMin | none => 4
def cfgLevelMax (s : State) : Nat := match s.cfg with | some c => c.levelMax | none => 3
def cfgTokenReq (s : State) : Bool := match s.cfg with | some c => c.tokenReq | none => false
def cfgWayMask (s : State) (h : Nat) : Nat := match s.cfg with | some c => lat 0xFFFF c.wayMask h | none => 0xFFFF
def cfgRegions (s : State) : List Region := match s.cfg with | some c => c.regions | none => []
/-- A head's regions in record order. -/
def headRegions (s : State) (h : Nat) : List Region := (cfgRegions s).filter (fun r => r.head == h)
/-- Persistent capacity of a head in 256 MiB units: its regions with DC clear (R99). -/
def headCap (s : State) (h : Nat) : Nat := (((headRegions s h).filter (fun r => !r.dc)).map (·.len)).sum
/-- Word 0 of head h's PORT record: WIDTH, SPEED, KIMODE, IDE_REQ, IDE_MODE (R69); zero in the safe configuration. -/
def cfgPort (s : State) (h : Nat) : Nat := match s.cfg with | some c => tget 0 c.portCfg h | none => 0
def tagged (s : State) (h : Nat) : Bool := (cfgPort s h).testBit 4
def ideReq (s : State) (h : Nat) : Bool := (cfgPort s h).testBit 5

/-! ### Modes and states -/

/-- GLB_STATE.MODE (R58). -/
def mode (s : State) : Nat := fld s F.GLB_STATE_MODE
def inHalt (s : State) : Bool := mode s == 4
def mgmtOnly (s : State) : Bool := mode s == 3

/-- Lifecycle state shown by MGMT_LC.STATE: 0 BLANK, 1 PROVISIONED, 2 DEPLOYED, 3 RETIRED. -/
def lifecycle (s : State) : Nat := fld s F.MGMT_LC_STATE

/-- Supervisor states (R581). -/
def inGuard (s : State) : Bool := s.sup.st == 3
def inFlush (s : State) : Bool := s.sup.st == 4

/-- Wellhead recovery mode (R499). -/
def inRecovery (s : State) : Bool := s.mgmt.recovery.isSome

/-- PD_MGMT is held in reset: before T0, and while MR_N holds it after a device reset (R586, R611). -/
def mgmtHeld (s : State) : Bool := !s.sup.t0 || (s.sup.mrLow && s.mgmt.boot == 0)

/-- Tick within the epoch, and the epoch number (R28). -/
def tickInEpoch (s : State) : Nat := s.tick.count % 262144
def epoch (s : State) : Nat := s.tick.count / 262144

/-- The test access port returns to Test-Logic-Reset, and the pins to functional control (R718). -/
def testReset (s : State) : State := { s with jtag := { Jtag.init with since := s.jtag.since } }

/-- An enabling pin of the test access port is asserted (R717). -/
def testPin (s : State) : State := { s with jtag := { s.jtag with since := s.tick.count } }

/-- PD_CORE is ON (R554): from T0 until the supervisor powers down, in RUN and IDLE. -/
def coreOn (s : State) : Bool := s.sup.t0 && (s.pwr.st == 0 || s.pwr.st == 1) && !railFailed s 0 && !railFailed s 1

/-! ### Readings of the housekeeping round (R619, R620) -/

/-- A channel's reading of the last round, in the unit of THM_CHn; none while it reads VALID 0. -/
def chanRead (s : State) (n : Nat) : Option Int := tfind s.therm.value n
def chanValue (s : State) (n : Nat) : Int := (chanRead s n).getD 0

/-- Highest of the good sensors among channels. -/
def highGood (s : State) (l : List Nat) : Option Int :=
  l.foldl (fun m n =>
    if s.therm.failed.contains n then m
    else match chanRead s n, m with
      | some v, some w => some (max v w)
      | some v, none => some v
      | none, _ => m) none

/-- Channels of the three groups. -/
def chansC : List Nat := List.range 12
def chansM : List Nat := (List.range 16).map (· + 12)
def chansD : List Nat := [28, 29]

/-- A stack's reading in 0.1 °C: a stack whose sensor failed takes the highest good stack reading plus 5 °C. -/
def stackRead (s : State) (n : Nat) : Option Int :=
  if s.therm.failed.contains (12 + n) then
    (if n < fusedChans s && unitOn s 5 then (highGood s chansM).map (· + 50) else none)
  else chanRead s (12 + n)

/-- The groups' readings in 0.1 °C; zero with no reading. -/
def groupC (s : State) : Int := (highGood s chansC).getD 0
def groupM (s : State) : Int := (highGood s chansM).getD 0
def groupD (s : State) : Int := (highGood s chansD).getD 0

/-- A stack's temperature in degrees. -/
def stackTemp (s : State) (ch : Nat) : Int := (stackRead s ch).getD 0 / 10

end Sys2Proof.Machine
end

