-- ==== Sys2Proof/Machine/Counters.lean ====
section
/-! DEFINITION. The performance counters (R668 to R674) and the Sounding FIFOs (R683, R685): what every unit calls when
an event happens. -/

namespace Sys2Proof.Machine

/-- A counter after reset. -/
def Counter.init : Counter :=
  { ev := 0, qual := 0, n := 0, ov := false, sh := 0, sov := false, part := false, spart := false }

/-- The fixed counter of an event, where it has one (R674). -/
def evFixed (ev : Nat) : Option Nat :=
  match ev with
  | 0x01 => some 0 | 0x02 => some 1 | 0x04 => some 2 | 0x05 => some 3 | 0x07 => some 4 | 0x09 => some 5
  | 0x10 => some 6 | 0x20 => some 7 | 0x24 => some 8 | 0x25 => some 9 | 0x26 => some 10 | 0x30 => some 11
  | 0x40 => some 12 | 0x41 => some 13 | 0x51 => some 14 | 0x70 => some 15 | _ => none

/-- Events qualified by head (R674): QUAL bit n selects head n. -/
def evByHead (ev : Nat) : Bool :=
  [0x01, 0x02, 0x03, 0x04, 0x05, 0x06, 0x07, 0x08, 0x09, 0x50, 0x51, 0x52].contains ev

/-- Events qualified by channel, slice or link (R674): QUAL names one, 0xFF selects all. -/
def evByOne (ev : Nat) : Bool :=
  [0x10, 0x11, 0x12, 0x13, 0x20, 0x21, 0x22, 0x23, 0x24, 0x25, 0x26, 0x27, 0x28, 0x53, 0x60].contains ev

/-- A counter's qualifier selects an event of the given head or unit (R674). -/
def qualOk (ev qual at_ : Nat) : Bool :=
  if evByHead ev then qual == 0 || qual.testBit at_ else if evByOne ev then qual == 0xFF || qual == at_ else true

/-- Add n events to a counter, wrapping and setting its live overflow flag (R669). -/
def Counter.add (n : Nat) (c : Counter) : Counter :=
  { c with n := (c.n + n) % 2 ^ 32, ov := c.ov || decide (2 ^ 32 ≤ c.n + n) }

/-- Count n events of a kind at a head, channel, slice or link. The counters stop with unit 15 disabled and while
PD_CORE is not ON (R670, R672). -/
def count (ev at_ n : Nat) (s : State) : State :=
  if unitOn s 15 && coreOn s then
    let pc := s.obs.pc.map (fun e =>
      (e.1, if e.2.ev == ev && ev != 0 && qualOk ev e.2.qual at_ then e.2.add n else e.2))
    let fx := match evFixed ev with
      | some k => tmod Counter.init k (Counter.add n) s.obs.fixed
      | none => s.obs.fixed
    { s with obs := { s.obs with pc := pc, fixed := fx } }
  else s

/-- The bank of head h returns to its reset values at a reset or loss of the link (R673). -/
def pcHeadReset (h : Nat) (s : State) : State :=
  { s with obs := { s.obs with pc := s.obs.pc.filter (fun e => e.1 / 8 != h) } }

/-- The effective observation level (R470). -/
def obsLevel (s : State) : Nat := fld s F.MGMT_OBS_EFFECTIVE

/-- The level that a Sounding frame kind needs (R683). -/
def sndLevel (kind : Nat) : Nat := if kind = 3 ∨ kind = 4 ∨ kind = 5 ∨ kind = 6 then 0 else 1

/-- The kind is enabled, the port runs and the level permits the kind (R683). -/
def sndTakes (s : State) (kind : Nat) : Bool :=
  s.obs.sndActive && (fld s F.OBS_SND_CTL_KINDS ||| 3).testBit kind && decide (obsLevel s ≤ sndLevel kind)

/-- Offer a frame to its kind's FIFO of 64; a frame that finds it full is dropped and counted (R685). -/
def sndPush (kind unit : Nat) (payload : List Byte) (s : State) : State :=
  if sndTakes s kind then
    let q := tget [] s.obs.fifos kind
    let cyc := (Config.cycle s.fresh).val
    let s := { s with fresh := s.fresh + 1 }
    if 64 ≤ q.length then
      satInc F.OBS_SND_STAT_DROPPED
        { s with obs := { s.obs with
            sndDrops := tmod 0 kind (fun n => min (n + 1) 65535) s.obs.sndDrops
            epochDrops := s.obs.epochDrops + 1
            epochDrop := some (s.obs.epochDrop.getD kind) } }
    else
      { s with obs := { s.obs with
          fifos := tput kind (q ++ [⟨kind, unit, cyc, s.tick.count, payload, fld s F.MGMT_OBS_EFFECTIVE⟩]) s.obs.fifos } }
  else s

end Sys2Proof.Machine
end

