-- ==== Sys2Proof/Machine/GaugeStore.lean ====
section
/-! DEFINITION. The Gauge store's records: the catalogue (R523), the values at manufacture (R737), how a record resolves
from its copies (R522, R531, R532), and the request queue (R524, R525). -/

namespace Sys2Proof.Machine

/-! Records by the logical block of copy A (R523). -/
def G.counters : Nat := 2
def G.counterTally : Nat := 4
def G.fwsel : Nat := 5
def G.ndxsel : Nat := 7
def G.lcrec : Nat := 9
def G.keyroot : Nat := 11
def G.mapRoot : Nat := 13
def G.treeRoot : Nat := 15
def G.quarantine (k : Nat) : Nat := 17 + 2 * k
def G.zpend : Nat := 21
def G.shadow : Nat := 23
def G.supsnap : Nat := 25
def G.shore : Nat := 27
def G.mirror (k : Nat) : Nat := 37 + k
def G.param (n : Nat) : Nat := 42 + 2 * n
def G.nonce (g : Nat) : Nat := 74 + 4 * g

/-- Kind of a logical block (R518, R523): 0 reserved, 1 directory, 2 two-copy, 3 tally, 4 single-copy. -/
def G.kind (b : Nat) : Nat :=
  if b ≤ 1 then 1 else if b = 4 then 3 else if 37 ≤ b ∧ b ≤ 41 then 4 else if b ≤ 73 then 2
  else if b ≤ 201 then (if b % 4 = 2 ∨ b % 4 = 3 then 2 else 3) else 0

/-- Copy A of the record that a two-copy block belongs to. -/
def G.copyA (b : Nat) : Nat :=
  if b ≤ 3 then 2 else if b ≤ 36 then b - (b + 1) % 2 else b - b % 2

def ShadowRec.init : ShadowRec := { cal := 0, sub := 0, sedNext := 0, mark := 0, lost := 0, shoreB := 0, trialEpochs := 0 }
def TreeRoot.init : TreeRoot :=
  { counters := List.replicate 16 0, clean := true, deferred := none, nodeSeq := 0, locator := none, report := zeros 64 }
def KeyRoot.init : KeyRoot := { isSet := false, kVault := 0, kTree := 0, kDev := 0, count := 0, area := 0, mac := 0 }
def Tally.clear : Tally := ⟨BitVec.allOnes 64, BitVec.allOnes 64, BitVec.allOnes 64⟩
def High.init : High := ⟨0, false⟩

/-- Bytes of a rail table as the RAILS record holds them (R69). -/
def railBytes (l : List RailEnt) : List Byte :=
  (l.map (fun r => le 1 r.up ++ le 1 r.down ++ le 2 r.onDelay ++ le 1 r.tPg ++ le 1 r.tDis ++ zeros 2)).flatten

/-- The 96 bytes of the rail copy: the table, the two levels, zero (R69, R71). -/
def railCopy (l : List RailEnt) (warn fail : Nat) : List Byte :=
  let b := railBytes l ++ le 2 warn ++ le 2 fail
  b ++ zeros (96 - b.length)

/-- A record's payload at manufacture (R737), by a block of it. -/
def G.payload (b : Nat) : GPayload :=
  if b = 2 ∨ b = 3 then .counters (List.replicate 4 High.init)
  else if b = 4 then .tally (List.replicate 8 Tally.clear)
  else if b = 5 ∨ b = 6 then .fwsel 0 0 0
  else if b = 7 ∨ b = 8 then .ndxsel 0 (railCopy defaultRails 1060 960) (zeros 48) none
  else if b = 9 ∨ b = 10 then .lcrec (zeros 48) false false
  else if b = 11 ∨ b = 12 then .keyroot KeyRoot.init
  else if b = 13 ∨ b = 14 then .mapRoot ⟨0, 0, 0, 0⟩
  else if b = 15 ∨ b = 16 then .treeRoot TreeRoot.init
  else if b ≤ 20 then .quarantine []
  else if b ≤ 22 then .zpend []
  else if b ≤ 24 then .shadow ShadowRec.init
  else if b ≤ 26 then .supsnap SupSnap.init
  else if b ≤ 36 then .shore none
  else if b ≤ 41 then .mirror (List.replicate 7 none)
  else if b = 66 ∨ b = 67 then .group GroupRec.init
  else if b ≤ 73 then .param (zeros 240)
  else if b ≤ 201 then
    (if b % 4 = 2 ∨ b % 4 = 3 then .nonce (List.replicate 8 High.init) (List.replicate 8 High.init)
     else .tally (List.replicate 8 Tally.clear))
  else .empty

/-- A block as manufactured: at home, written once, both copies with sequence 0 (log entry 7). -/
def G.block (b : Nat) : GBlock :=
  { phys := b, fmt := 0, seq := 0, wcnt := 1, good := true, frozen := false, payload := G.payload b }

/-- A logical block of the store. -/
def gBlock (s : State) (b : Nat) : GBlock := (tfind s.gauge.blocks b).getD (G.block b)

/-- Put a logical block. -/
def putBlock (b : Nat) (v : GBlock) (s : State) : State :=
  { s with gauge := { s.gauge with blocks := tput b v s.gauge.blocks } }

/-- The default of a record whose copies both fail (R523). -/
def G.fallback (b : Nat) : GPayload :=
  if b = 5 then .fwsel 0 0 0
  else if b = 15 then .treeRoot { TreeRoot.init with clean := false }
  else if b = 17 ∨ b = 19 then .quarantine [(8, 0)]
  else if b = 42 + 2 * 12 then .group GroupRec.init
  else G.payload b

/-- The copy that a two-copy record resolves to: 0 A, 1 B, none when both fail (R522). -/
def gPick (s : State) (a : Nat) : Option Nat :=
  let x := gBlock s a
  let y := gBlock s (a + 1)
  if x.good && y.good then (if x.seq < y.seq then some 1 else some 0)
  else if x.good then some 0 else if y.good then some 1 else none

/-- The value of a two-copy record, read from the image (R520, R522, R530). -/
def gRead (s : State) (a : Nat) : GPayload :=
  match tfind s.gauge.image a with
  | some p => p
  | none =>
    match gPick s a with
    | some k => (gBlock s (a + k)).payload
    | none => G.fallback a

/-- Sequence and format of a two-copy record's newest copy. -/
def gSeq (s : State) (a : Nat) : Nat := match gPick s a with | some k => (gBlock s (a + k)).seq | none => 0
def gFmt (s : State) (a : Nat) : Nat := match gPick s a with | some k => (gBlock s (a + k)).fmt | none => 0

/-- Both copies fail: the record took its default. -/
def gBad (s : State) (a : Nat) : Bool := (gPick s a).isNone

/-! Typed reads. -/
def gFwsel (s : State) : Nat × Nat × Nat := match gRead s G.fwsel with | .fwsel a b c => (a, b, c) | _ => (0, 0, 0)
def gNdxsel (s : State) : Nat × List Byte × List Byte × Option Nat :=
  match gRead s G.ndxsel with | .ndxsel a b c d => (a, b, c, d) | _ => (0, railCopy defaultRails 1060 960, zeros 48, none)
def gLcrec (s : State) : List Byte × Bool × Bool :=
  match gRead s G.lcrec with | .lcrec a b c => (a, b, c) | _ => (zeros 48, false, false)
def gKeyroot (s : State) : KeyRoot := match gRead s G.keyroot with | .keyroot r => r | _ => KeyRoot.init
def gMapRoot (s : State) : MapRoot := match gRead s G.mapRoot with | .mapRoot r => r | _ => ⟨0, 0, 0, 0⟩
def gTreeRoot (s : State) : TreeRoot := match gRead s G.treeRoot with | .treeRoot r => r | _ => TreeRoot.init
def gQuar (s : State) : List (Nat × Nat) :=
  let f := fun k => match gRead s (G.quarantine k) with | .quarantine l => l | _ => []
  f 0 ++ f 1
def gZpend (s : State) : List ZRange := match gRead s G.zpend with | .zpend l => l | _ => []
def gShadow (s : State) : ShadowRec := match gRead s G.shadow with | .shadow r => r | _ => ShadowRec.init
def gSupsnap (s : State) : SupSnap := match gRead s G.supsnap with | .supsnap r => r | _ => SupSnap.init
def gShore (s : State) : Option ShoreRec := match gRead s G.shore with | .shore r => r | _ => none
def gGroup (s : State) : GroupRec := match gRead s (G.param 12) with | .group r => r | _ => GroupRec.init
def gParam (s : State) (n : Nat) : List Byte := match gRead s (G.param n) with | .param l => l | _ => zeros 240

/-- Mirror slots 0 to 34 (R545); a block whose CRC fails reads as empty slots. -/
def gMirror (s : State) : List (Option SedRec) :=
  ((List.range 5).map (fun k =>
    let b := gBlock s (G.mirror k)
    match b.good, b.payload with
    | true, .mirror l => l
    | _, _ => List.replicate 7 none)).flatten

/-! ### Spread counters (R531, R532, R533) -/

/-- A cell reads as set when the majority of its three bits is 0 (R531). -/
def Tally.cell (t : Tally) (n : Nat) : Bool :=
  let a := t.w0.getLsbD n
  let b := t.w1.getLsbD n
  let c := t.w2.getLsbD n
  !((a && b) || (a && c) || (b && c))

/-- Number of set cells. -/
def Tally.value (t : Tally) : Nat := ((List.range 64).filter t.cell).length

/-- Set a cell: its three bits become 0. -/
def Tally.setCell (t : Tally) (n : Nat) : Tally :=
  let m : BitVec 64 := ~~~ ((1 : BitVec 64) <<< n)
  ⟨t.w0 &&& m, t.w1 &&& m, t.w2 &&& m⟩

/-- Set the k lowest clear cells. -/
def Tally.setLow (t : Tally) (k : Nat) : Tally :=
  ((List.range 64).filter (fun n => !t.cell n)).take k |>.foldl Tally.setCell t

/-- High record (copy A), tally block and index within it of a spread counter (R523, R533). -/
def Ctr.home (c : Ctr) : Nat × Nat × Nat :=
  match c with
  | .dev n => (G.counters, G.counterTally, n)
  | .slotI v => (G.nonce (v / 8), G.nonce (v / 8) + 2, v % 8)
  | .slotR v => (G.nonce (v / 8), G.nonce (v / 8) + 3, v % 8)

/-- The high part of a counter in a record's payload. -/
def Ctr.high (c : Ctr) (p : GPayload) : High :=
  match c, p with
  | .dev n, .counters l => lat High.init l n
  | .slotI v, .nonce i _ => lat High.init i (v % 8)
  | .slotR v, .nonce _ r => lat High.init r (v % 8)
  | _, _ => High.init

/-- A payload with the high part of a counter replaced. -/
def Ctr.withHigh (c : Ctr) (h : High) (p : GPayload) : GPayload :=
  match c, p with
  | .dev n, .counters l => .counters (l.set n h)
  | .slotI v, .nonce i r => .nonce (i.set (v % 8) h) r
  | .slotR v, .nonce i r => .nonce i (r.set (v % 8) h)
  | _, q => q

/-- A counter's tally. -/
def Ctr.tally (c : Ctr) (s : State) : Tally :=
  match (gBlock s c.home.2.1).payload with
  | .tally l => lat Tally.clear l c.home.2.2
  | _ => Tally.clear

/-- The value of a counter: H times 64 plus the set cells (R532), device counters with the defaults of R532. -/
def gCounter (s : State) (c : Ctr) : Nat :=
  if gBad s c.home.1 then
    (match c with
     | .dev 0 => 2
     | .dev 1 => (match s.cfg with | some i => i.version | none => 0)
     | .dev 2 => fld s F.SF_FW_FLOOR_SVN
     | .dev 3 => 0xFFFFFFFF
     | _ => 0)
  else (c.high (gRead s c.home.1)).h * 64 + (c.tally s).value

/-! ### The request queue (R524, R525) -/

/-- VAON in the latest round, in mV (R619 channel 33). -/
def vaonMv (s : State) : Int := tget 0 s.therm.value 33 * 10

/-- The conditions of R525 for a write of a class; the answer names the first that fails: 0 VAON, 1 supervisor. -/
def gGrant (s : State) (prio : Bool) : Option Nat :=
  if vaonMv s < 3000 then some 0
  else if prio then none
  else if inGuard s || s.sup.vinBad then some 1 else none

/-- The block a request writes first, as reports name it. -/
def GOp.block (o : GOp) : Nat :=
  match o with
  | .put b _ _ => b
  | .raise c _ => c.home.1
  | .incr c => c.home.1
  | .reset c => c.home.1
  | .mirror k _ => G.mirror (k / 7)

/-- Fill free places of the queue of 32 from the requests that wait outside, priority class first (R524). -/
def gAdmit (g : Gauge) : Gauge :=
  match g.waiting with
  | [] => g
  | w =>
    if g.prioQ.length + g.normQ.length < 32 then
      match w.find? (fun r => r.prio) with
      | some r => { g with prioQ := g.prioQ ++ [r], waiting := ldel (fun x => x.prio) w }
      | none =>
        match w with
        | r :: rest => { g with normQ := g.normQ ++ [r], waiting := rest }
        | [] => g
    else g

/-- Requests that wait outside enter the queue while it has places. -/
def gFill (g : Gauge) : Gauge := (List.range g.waiting.length).foldl (fun g _ => gAdmit g) g

/-- A hold in force that a request of the class would have to wait behind: its end is GAU_WRITE_HELD's to report. -/
def gHeld (s : State) (prio : Bool) : Bool :=
  match s.gauge.held with | some (_, _, why) => !prio || why % 2 == 0 | none => false

/-- Start the next write when none runs and its conditions hold; otherwise a hold begins (R524, R525). -/
def gStart (s : State) : State :=
  if s.gauge.cur.isSome then s else
  match s.gauge.prioQ, s.gauge.normQ with
  | r :: rest, _ =>
    if gHeld s true then s else
    (match gGrant s true with
     | none => { s with gauge := gFill { s.gauge with prioQ := rest, cur := some ⟨r, r.op.block, 0⟩ } }
     | some why => { s with gauge := { s.gauge with held := some (s.gauge.held.getD (s.tick.count, r.op.block, why)) } })
  | [], r :: rest =>
    if gHeld s false then s else
    (match gGrant s false with
     | none => { s with gauge := gFill { s.gauge with normQ := rest, cur := some ⟨r, r.op.block, 0⟩ } }
     | some why => { s with gauge := { s.gauge with held := some (s.gauge.held.getD (s.tick.count, r.op.block, why)) } })
  | [], [] => s

/-- Queue a request; one that finds 32 queued waits outside the queue (R524). -/
def gEnq (op : GOp) (prio : Bool) (mailbox : Option Nat) (cont : Cont) (s : State) : State :=
  let r : GReq := ⟨op, prio, mailbox, cont, s.tick.count⟩
  gStart { s with gauge := gFill { s.gauge with waiting := s.gauge.waiting ++ [r] } }

/-- Write a two-copy record. -/
def gPut (a : Nat) (p : GPayload) (prio : Bool) (mailbox : Option Nat) (cont : Cont) (s : State) : State :=
  gEnq (.put a (gFmt s a) p) prio mailbox cont s

end Sys2Proof.Machine
end

