-- ==== Sys2Proof/Machine/Sediment.lean ====
section
/-! DEFINITION. The Sediment recorder's central operation (R539 to R546): a unit raises an event, it merges or becomes a
new record, and the record goes to the mirror, the heads' event logs and the alert. -/

namespace Sys2Proof.Machine

/-- A head after reset. -/
def Head.init : Head :=
  { perst := false, released := false, decoders := [], notCommitted := 0, logs := List.replicate 4 ⟨[], 1, 0, 0, 0, none⟩,
    policy := [0, 0, 0, 0], lsa := [], shutdown := 0, alertCfg := zeros 16, scanLeft := [], ndrCredit := 0,
    drsCredit := 0, arrival := 0, ideKeys := [], lowPower := 0, memoryActive := false, internalErr := false,
    aer := 0, ioState := [] }

/-- A head's own state. -/
def headOf (s : State) (h : Nat) : Head := tget Head.init s.heads h

/-- Change a head's own state. -/
def modHead (h : Nat) (f : Head → Head) (s : State) : State := { s with heads := tmod Head.init h f s.heads }

/-! ### Records -/

/-- Bytes 0 to 27 of a record (R539). -/
def recBody (r : SedRec) : List Byte :=
  le 2 r.code ++ [BitVec.ofNat 8 (r.sev % 8 * 32 + r.unit % 32)] ++
  [BitVec.ofNat 8 ((if r.mirrored then 1 else 0) + (if r.timeUnset then 2 else 0) + (if r.merged then 4 else 0))] ++
  le 6 r.cal ++ le 2 r.repeats ++ le 4 r.seq ++ le 4 r.p0 ++ le 4 r.p1 ++ le 4 r.p2

/-- The 32 bytes of a record, its CRC-32C last (R539). -/
def recBytes (r : SedRec) : List Byte := recBody r ++ le 4 (crc32c (recBody r)).toNat

/-- A raised event. -/
structure SedReq where
  code : Nat
  sev : Nat
  unit : Nat
  p0 : Nat
  p1 : Nat
  p2 : Nat
deriving DecidableEq, Repr

/-- Two occurrences are of one kind: bytes 0 to 2 and 16 to 27 equal (R540). -/
def SedReq.same (q : SedReq) (r : SedRec) : Bool :=
  q.code % 65536 == r.code && q.sev == r.sev && q.unit == r.unit && q.p0 % 2 ^ 32 == r.p0 && q.p1 % 2 ^ 32 == r.p1 &&
  q.p2 % 2 ^ 32 == r.p2

/-- The record with sequence n is still held: in the ring, the PD_AON buffer or the region. -/
def sedHeld (s : State) (n : Nat) : Bool :=
  s.sed.ring.any (fun r => r.seq == n) || s.pwr.buffer.any (fun r => r.seq == n) ||
  s.sed.region.any (fun e => e.2.seq == n)

/-- One more occurrence of a record. -/
def SedRec.again (r : SedRec) : SedRec := { r with repeats := min (r.repeats + 1) 65535 }

/-- Merge into the record with sequence n wherever it lies (R540). -/
def sedMerge (n : Nat) (s : State) : State :=
  let slots := (s.sed.region.filter (fun e => e.2.seq == n)).map (·.1)
  let sed := { s.sed with
    ring := s.sed.ring.map (fun r => if r.seq = n then r.again else r)
    region := s.sed.region.map (fun e => if e.2.seq = n then (e.1, { e.2.again with merged := true }) else e)
    dirtySlots := s.sed.dirtySlots ++ slots.filter (fun k => !s.sed.dirtySlots.contains k) }
  satInc F.SED_CNT_REPEAT_COUNT
    { s with sed := sed, pwr := { s.pwr with buffer := s.pwr.buffer.map (fun r => if r.seq = n then r.again else r) } }

/-- Lowest severity of a list of records. -/
def lowSev (l : List SedRec) : Nat := l.foldl (fun m r => min m r.sev) 7

/-- Put a record into a buffer of `cap` places under the replacement rule of R541; the second part is the severity of
what was dropped or replaced. -/
def sedInsert (cap : Nat) (r : SedRec) (l : List SedRec) : List SedRec × Option Nat :=
  if l.length < cap then (l ++ [r], none)
  else
    let m := lowSev l
    if m ≤ r.sev then (ldel (fun x => x.sev == m) l ++ [r], some m) else (l, some r.sev)

/-- Count a dropped or replaced record for the next SED_DROPPED (R541). -/
def sedDrop (sev : Nat) (s : State) : State :=
  let d := s.sed
  satInc F.SED_CNT_DROP_DROPPED
    { s with sed := { d with
        dropped := d.dropped + 1
        dropLow := if d.dropped = 0 then sev else min d.dropLow sev
        dropHigh := if d.dropped = 0 then sev else max d.dropHigh sev } }

/-- The CXL event log that a severity goes to (R117): 0 Informational, 1 Warning, 2 Failure, 3 Fatal. -/
def sevLog (sev : Nat) : Nat := if sev ≤ 2 then 0 else if sev = 3 then 1 else if sev ≤ 6 then 2 else 3

/-- Nanoseconds since 1970 of the calendar (R118, R133). -/
def nanos (s : State) : Nat := (s.tick.cal + 946684800000) * 1000000

/-- A log that was empty has taken a record: the MSI-X vector that the head's policy gives for it (R119). PRESUMED (log entry
153): that the interrupt comes when the log leaves empty, and the policy byte's layout, are CXL 3.1's. -/
def logInterrupt (h k : Nat) (first : Bool) (s : State) : State :=
  let p := lat 0 (headOf s h).policy k
  if first && p % 4 == 1 then emit (.headEvent h 2 (p / 16)) s else s

/-- Add a record to one log of a head (R119); true when the log's first drop of the epoch asks for EVLOG_OVERFLOW. -/
def logAdd (h k : Nat) (b : EvBody) (s : State) : State × Bool :=
  let hd := headOf s h
  let lg := lat ⟨[], 1, 0, 0, 0, none⟩ hd.logs k
  if lg.recs.length < 256 then
    let lg' := { lg with recs := lg.recs ++ [⟨lg.nextHandle, nanos s, b⟩], nextHandle := lg.nextHandle % 65535 + 1 }
    (logInterrupt h k lg.recs.isEmpty (modHead h (fun x => { x with logs := x.logs.set k lg' }) s), false)
  else
    let first := lg.dropped == 0
    let lg' := { lg with
      dropped := min (lg.dropped + 1) 65535
      firstDrop := if first then nanos s else lg.firstDrop
      lastDrop := nanos s
      saidEpoch := some (epoch s) }
    (modHead h (fun x => { x with logs := x.logs.set k lg' }) s, lg.saidEpoch != some (epoch s))

/-- Copy a record into the logs of every enabled head (R117); the follow-up records are the EVLOG_OVERFLOWs. -/
def logAll (k : Nat) (b : EvBody) (s : State) : State × List SedReq :=
  (headsOn s).foldl (fun (p : State × List SedReq) h =>
    let (t, full) := logAdd h k b p.1
    if full then
      (t, p.2 ++ [⟨0x0150, 3, 0, h, k, (lat ⟨[], 1, 0, 0, 0, none⟩ (headOf t h).logs k).dropped⟩])
    else (t, p.2)) (s, [])

/-- Mirror a record of severity CRITICAL or above (R545), at most 32 in a window of 4,096 epochs. -/
def sedMirror (r : SedRec) (s : State) : State × Bool × List SedReq :=
  if r.sev < 5 then (s, false, []) else
  let win := epoch s / 4096
  let s := if s.sed.mirrorWin = win then s else
    setF F.SED_MIRROR_WINDOW 0 { s with sed := { s.sed with mirrorWin := win, mirrorSaid := false } }
  if fld s F.SED_MIRROR_WINDOW < 32 then
    let k := s.sed.mirrorNext
    let s := satInc F.SED_MIRROR_WINDOW { s with sed := { s.sed with mirrorNext := (k + 1) % 35 } }
    (gEnq (.mirror k { r with mirrored := true }) true none .none s, true, [])
  else
    let said := s.sed.mirrorSaid
    let s := satInc F.SED_MIRROR_SKIPPED { s with sed := { s.sed with mirrorSaid := true } }
    (s, false, if said then [] else [⟨0x0B83, 3, 12, win * 4096, 0, 0⟩])

/-- Raise the alert for a record at or above ALERT_MIN (R446): an IBI, or TUT_ALERT_N; the PLDM event beside it (R450). -/
def sedAlert (r : SedRec) (s : State) : State :=
  if r.sev < cfgAlertMin s then s else
  let s := when (bit s F.MGMT_ALERT_PENDING == false || decide (fld s F.MGMT_ALERT_SEVERITY < r.sev)) (fun s =>
    let s := setF F.MGMT_ALERT_PENDING 1 s |> setF F.MGMT_ALERT_SEVERITY r.sev |> setF F.MGMT_ALERT_UNIT r.unit
      |> setF F.MGMT_ALERT_SEQ r.seq
    if bit s F.MGMT_TUT_STAT_BUSMODE then
      (if s.mgmt.ibiOn then emit (.ibi (BitVec.ofNat 8 (r.sev * 32 + r.unit) :: le 4 r.seq)) s else s)
    else emit (.alertPin true) s) s
  match s.mgmt.evReceiver with
  | some e => emit (.platformEvent e (recBytes r)) s
  | none => s

/-- One raised event: a merge, or a new record with what follows from it. -/
def sedCore (q : SedReq) (s : State) : State × List SedReq :=
  let mergeInto := match s.sed.newest with
    | some (r, e) => if q.same r && e == epoch s && sedHeld s r.seq then some r.seq else none
    | none => none
  match mergeInto with
  | some n => (sedMerge n s, [])
  | none =>
    if bit s F.SED_STAT_CUT && decide (q.sev < 5) then
      ({ s with sed := { s.sed with lost := s.sed.lost + 1 } }, [])
    else
    let r : SedRec := ⟨q.code % 65536, q.sev, q.unit, false, !bit s F.TICK_CAL_STAT_VALID, false, s.tick.cal, 1,
      s.sed.next, q.p0 % 2 ^ 32, q.p1 % 2 ^ 32, q.p2 % 2 ^ 32⟩
    let s := { s with sed := { s.sed with next := (s.sed.next + 1) % 2 ^ 32, newest := some (r, epoch s) } }
    let s := satInc F.SED_CNT_REC_COUNT s |> count 0x63 0 1
    let (s, mir, more1) := sedMirror r s
    let r := { r with mirrored := mir }
    let (s, lost) :=
      if coreOn s then
        let (ring, lost) := sedInsert 512 r s.sed.ring
        ({ s with sed := { s.sed with
            ring := ring
            flushDue := s.sed.flushDue || decide (4 ≤ r.sev) || decide (256 ≤ ring.length) } }, lost)
      else
        let (buf, lost) := sedInsert 32 r s.pwr.buffer
        ({ s with pwr := { s.pwr with buffer := buf } }, lost)
    let s := match lost with | some v => sedDrop v s | none => s
    let (s, more2) := if cfgEvlogMin s ≤ r.sev then logAll (sevLog r.sev) (.vendor r) s else (s, [])
    let s := sedAlert r s
    let s := sndPush 8 12 ((recBytes r).take 4 ++ sub (recBytes r) 12 8 ++ zeros 4) s
    (s, more1 ++ more2)

/-- Raise events in order, with the records that follow from them; `fuel` bounds the chain of EVLOG_OVERFLOW records,
of which an epoch holds at most one for each log. -/
def sedRun (fuel : Nat) (l : List SedReq) (s : State) : State :=
  match fuel, l with
  | 0, _ => s
  | _, [] => s
  | n + 1, q :: r =>
    let (t, more) := sedCore q s
    sedRun n (r ++ more) t

/-- A unit raises an event (R539): code, severity, source unit and three parameters. -/
def sed (code sev unit p0 p1 p2 : Nat) (s : State) : State := sedRun 32 [⟨code, sev, unit, p0, p1, p2⟩] s

/-- A General Media Event for a line (R117): poisoned under R114 or by an internal media fault; it goes to the Failure
log of every enabled head (log entry 8). -/
def mediaEvent (line : Nat) (s : State) : State :=
  let (t, more) := logAll 2 (.media line) s
  sedRun 32 more t

/-- FAULT_STALL (R42): the host-visible stall of a handled fault, with its class and allocation (R39). -/
def faultStall (cls ticks alloc : Nat) (s : State) : State := sed 0x0040 (if alloc < ticks then 4 else 1) 16 cls ticks alloc s

/-- FAULT_STALL of a fault whose stall no command gives: the measured time is a free value (log entry 42). -/
def faultStallFree (cls alloc : Nat) (s : State) : State :=
  let (t, s) := draw 16 s
  faultStall cls t.toNat alloc s

/-! Severities. -/
def sDEBUG : Nat := 0
def sINFO : Nat := 1
def sNOTICE : Nat := 2
def sWARNING : Nat := 3
def sERROR : Nat := 4
def sCRITICAL : Nat := 5
def sALERT : Nat := 6
def sFATAL : Nat := 7

end Sys2Proof.Machine
end

