-- ==== Sys2Proof/Machine/Tick.lean ====
section
/-! DEFINITION. RIPPLE_SYNC, the calendar and the tick registers' commits (R43 to R55, R59): the commands of the tick
logic but for the boundary itself. -/

namespace Sys2Proof.Machine

/-! ### 64-bit quantities (R15) -/

/-- Key of a path's staging register for an address (R15). -/
def stageKey (path a : Nat) : Nat := path * bankStride + a

/-- The LO word that a path has staged, or the reset value of the LO register (R15). -/
def stagedLo (s : State) (path a : Nat) : BitVec 32 := (tfind s.staged (stageKey path a)).getD (resetWord a)

/-- Stage a LO word. -/
def stageLo (path a : Nat) (v : BitVec 32) (s : State) : State :=
  { s with staged := tput (stageKey path a) v s.staged }

/-! ### Calendar -/

/-- The calendar in ticks: milliseconds times 250 plus the sub-millisecond count (R55). -/
def calTicks (s : State) : Nat := s.tick.cal * 250 + fld s F.TICK_CAL_STAT_SUBMS

/-- Set the calendar and the sub-millisecond count. -/
def setCal (ms sub : Nat) (s : State) : State :=
  setF F.TICK_CAL_STAT_SUBMS sub { s with tick := { s.tick with cal := ms % 2 ^ 48 } }

/-- Sub-millisecond count and calendar advance by one tick (R33 step 2); a held calendar stands still (R55). -/
def calAdvance (s : State) : State :=
  if 0 < s.tick.hold then
    let s := { s with tick := { s.tick with hold := s.tick.hold - 1 } }
    setB F.TICK_CAL_STAT_HOLD (decide (0 < s.tick.hold)) s
  else if fld s F.TICK_CAL_STAT_SUBMS = 249 then setCal (s.tick.cal + 1) 0 s
  else setF F.TICK_CAL_STAT_SUBMS (fld s F.TICK_CAL_STAT_SUBMS + 1) s

/-- Judge an armed calendar set at step 3 of the boundary (R54). -/
def calSetJudge (s : State) : State :=
  match s.tick.calSet with
  | none => s
  | some ms =>
    let old := s.tick.cal
    let s := { s with tick := { s.tick with calSet := none } }
    if bit s F.TICK_CAL_STAT_VALID && decide (ms < old) then
      setF F.TICK_CAL_STAT_REFUSED 1 s |> sed 0x0031 sWARNING 16 (ms % 2 ^ 32) (old % 2 ^ 32) 0
    else
      setCal ms 0 s |> setF F.TICK_CAL_STAT_VALID 1
        |> sed 0x0030 sNOTICE 16 (old % 2 ^ 32) (ms % 2 ^ 32) (old / 2 ^ 32 * 65536 + ms / 2 ^ 32)

/-- The device follows a master: by role, or after a conflict (R43, R52). -/
def isFollower (s : State) : Bool := s.tick.role == 2 || s.tick.forcedFollower

/-- A commit of TICK_CAL_SET: a locked follower refuses it, otherwise it is judged at the next boundary (R48, R54). -/
def doCalSetCommit (path : Nat) (v : BitVec 32) (s : State) : State :=
  if !isMgmt path then s else
  let lo := stagedLo s path Reg.TICK_CAL_SET_LO
  if isFollower s && bit s F.TICK_SYNC_STAT_LOCKED then setF F.TICK_CAL_STAT_REFUSED 1 s else
  let s := (s.putReg Reg.TICK_CAL_SET_LO lo).putReg Reg.TICK_CAL_SET_HI (v &&& 0xFFFF)
  { s with
    mgmt := { s.mgmt with stamp := s.mgmt.stamp.map (fun t => (t.1, t.2.1, false)) }
    tick := { s.tick with calSet := some (v.toNat % 65536 * 2 ^ 32 + lo.toNat) } }

/-- Shares of a budget word, lowest byte first. -/
def shares (lo hi : BitVec 32) : List Nat := (le 4 lo.toNat ++ le 4 hi.toNat).map BitVec.toNat

/-- Minimum shares of the eight classes (R34). -/
def minShares : List Nat := [16, 8, 0, 0, 2, 1, 0, 0]

/-- A budget is accepted when its shares sum to 64 and none is below its minimum (R35). -/
def budgetOk (lo hi : BitVec 32) : Bool :=
  (shares lo hi).foldl (· + ·) 0 == 64 && (List.zip (shares lo hi) minShares).all (fun p => decide (p.2 ≤ p.1))

/-- A commit of TICK_BUDGET (R35). -/
def doBudgetCommit (path : Nat) (v : BitVec 32) (s : State) : State :=
  if !isMgmt path then s else
  let lo := stagedLo s path Reg.TICK_BUDGET_LO
  if budgetOk lo v then
    let s := (s.putReg Reg.TICK_BUDGET_LO lo).putReg Reg.TICK_BUDGET_HI v
    { s with tick := { s.tick with budgetSet := some (lo.toNat, v.toNat) } }
  else setF F.TICK_BUDGET_STAT_BAD 1 s |> sed 0x0011 sNOTICE 16 lo.toNat v.toNat 0

/-- TICK_CAL_SET_COMMIT (R54). -/
def execTickCalSetCommit (path : Nat) (v : BitVec 32) (s : State) : Host.Outcome State Fault Refusal :=
  run (doCalSetCommit path v) s

/-- TICK_BUDGET_COMMIT (R35). -/
def execTickBudgetCommit (path : Nat) (v : BitVec 32) (s : State) : Host.Outcome State Fault Refusal :=
  run (doBudgetCommit path v) s

/-! ### RIPPLE_SYNC -/

/-- A pulse's value from the REFCLK cycles it was low (R45): 0, 1, or 2 for the marker. -/
def pulseValue (width : Nat) : Nat := if width ≤ 5 then 0 else if width ≤ 11 then 1 else 2

/-- The device number of the straps (R705). -/
def devid (s : State) : Nat := fld s F.GLB_DEVID_DEVID

/-- A locked follower loses the pulses and runs free on its own REFCLK (R50): `cause` is the number of ticks since the
last pulse that the record gives. -/
def doSyncLost (cause : Nat) (s : State) : State :=
  if !(isFollower s && bit s F.TICK_SYNC_STAT_LOCKED) then s else
  let s := setF F.TICK_SYNC_STAT_LOCKED 0 s |> setF F.TICK_SYNC_STAT_LOST 1
  sed 0x0021 sWARNING 16 cause 0 0 { s with tick := { s.tick with goodPulses := 0, frame := [], collecting := false } }

/-- A pulse spaced more than 2 REFCLK cycles away from 400 (R50). -/
def misSpaced (gap : Nat) : Bool := decide (gap < 398) || decide (402 < gap)

/-- A pulse on RIPPLE_SYNC: a listening master hears it (R52); a follower decodes it (R45), locks on a spacing of 400
REFCLK cycles (R48), loses its lock on a mis-spaced pulse (R50) and, at its first lock, ends its epoch at the marker (R49). The
bits after a marker are its frame's (R46), and the pulse after the 80th bit begins the 81st tick (R55). -/
def doSyncPulse (width gap : Nat) (s : State) : State :=
  if s.tick.listen.isSome then { s with tick := { s.tick with heard := true } } else
  if !isFollower s then s else
  let s := if misSpaced gap then doSyncLost (gap / 400) s else s
  let t := s.tick
  let mark := pulseValue width == 2
  let frame := if mark then [] else if t.collecting && decide (t.frame.length < 80) then t.frame ++ [pulseValue width == 1] else t.frame
  let t := { t with
    goodPulses := if gap = 400 then t.goodPulses + 1 else 0
    frame := frame
    collecting := mark || t.collecting
    addD := t.addD.map (fun e => (e.1, e.2 - 1))
    markCal := if mark then t.cal else t.markCal
    markSub := if mark then fld s F.TICK_CAL_STAT_SUBMS else t.markSub }
  let s := { s with tick := t }
  let s := if gap = 400 && !bit s F.TICK_SYNC_STAT_LOCKED then
      let s := setF F.TICK_SYNC_STAT_LOCKED 1 s |> sed 0x0020 sINFO 16 (fld s F.TICK_SYNC_STAT_MASTER_DEVID) 0 0
      { s with tick := { s.tick with shortPending := !t.everLocked || t.shortPending, everLocked := true } }
    else s
  if mark && s.tick.shortPending && bit s F.TICK_SYNC_STAT_LOCKED then
    let n := tickInEpoch s + 1
    let s := { s with tick := { s.tick with
      shortPending := false, count := s.tick.count + (262144 - n) } }
    sed 0x0012 sNOTICE 16 n (fld s F.TICK_SYNC_STAT_MASTER_DEVID) 0 s
  else s

/-- RIPPLE_SYNC_PULSE (R45, R48, R49, R51). -/
def execRippleSyncPulse (width gap : Nat) (s : State) : Host.Outcome State Fault Refusal := run (doSyncPulse width gap) s

/-- The 80 bits of a frame as a number, first bit received the most significant (R46). -/
def frameVal (bits : List Bool) : Nat := bits.foldl (fun a b => 2 * a + (if b then 1 else 0)) 0

/-- XOR of the nineteen nibbles [79:4] (R46). -/
def frameCheck (n : Nat) : Nat := (List.range 19).foldl (fun a i => a ^^^ (n / 2 ^ (4 * (i + 1)) % 16)) 0

/-- The frame after a marker is complete: check it and compute D (R46, R47, R55). -/
def doSyncFrame (s : State) : State :=
  if s.tick.frame.length < 80 || !isFollower s then s else
  let f := frameVal s.tick.frame
  let s := { s with tick := { s.tick with frame := [], collecting := false } }
  if f % 16 ≠ frameCheck f ∨ f / 16 % 256 ≠ 0 then satInc F.TICK_SYNC_STAT_FRAME_ERR s else
  let own : Int := s.tick.markCal * 250 + s.tick.markSub
  let master : Int := (f / 2 ^ 32 % 2 ^ 48) * 250 + (f / 2 ^ 24 % 256 : Nat)
  let d := master - own
  let s := setF F.TICK_SYNC_STAT_MASTER_DEVID (f / 4096 % 4096) s |> setF F.TICK_CAL_STAT_VALID 1
  if 0 < d then { s with tick := { s.tick with addD := some (d.toNat, 1) } }
  else if d < 0 then
    setF F.TICK_CAL_STAT_HOLD 1 { s with tick := { s.tick with hold := (-d).toNat } }
      |> sed 0x0032 sNOTICE 16 (-d).toNat (f / 4096 % 4096) 0
  else s

/-- RIPPLE_SYNC_FRAME (R46, R47, R55). -/
def execRippleSyncFrame (s : State) : Host.Outcome State Fault Refusal := run doSyncFrame s

/-- Add a positive D at the 81st tick after the marker, which has begun when no tick is left to pass (R55). -/
def doCalAdjust (s : State) : State :=
  match s.tick.addD with
  | some (d, 0) =>
    let n := calTicks s + d
    setCal (n / 250) (n % 250) { s with tick := { s.tick with addD := none } }
  | _ => s

/-- CAL_ADJUST (R55). -/
def execCalAdjust (s : State) : Host.Outcome State Fault Refusal := run doCalAdjust s

/-- SYNC_LOST (R50). -/
def execSyncLost (cause : Nat) (s : State) : Host.Outcome State Fault Refusal := run (doSyncLost cause) s

/-- A master finds the line low after its pulse: it stops driving and listens for DEVID times 4 ticks (R52). -/
def doSyncConflict (s : State) : State :=
  if s.tick.role = 1 ∧ s.tick.forcedFollower = false ∧ s.tick.listen = none then
    setF F.TICK_SYNC_STAT_CONFLICT 1
      { s with tick := { s.tick with listen := some (devid s * 4), heard := false } }
      |> sed 0x0022 sERROR 16 (devid s) 0 0
  else s

/-- SYNC_CONFLICT (R52). -/
def execSyncConflict (s : State) : Host.Outcome State Fault Refusal := run doSyncConflict s

/-- The listening time is over: resume as master, or run as a follower until reset (R52). -/
def doListenEnd (s : State) : State :=
  if s.tick.listen = some 0 then
    { s with tick := { s.tick with listen := none, forcedFollower := s.tick.heard } }
  else s

/-- A tick of the listening time passes; with the last one it is over (R52). -/
def listenTick (s : State) : State :=
  match s.tick.listen with
  | some n => doListenEnd { s with tick := { s.tick with listen := some (n - 1) } }
  | none => s

/-- A follower that runs free meets no pulse: its ticks up to the 81st pass with its own boundaries (R50, R55). -/
def freeRunTick (s : State) : State :=
  if isFollower s && !bit s F.TICK_SYNC_STAT_LOCKED then
    { s with tick := { s.tick with addD := s.tick.addD.map (fun e => (e.1, e.2 - 1)) } }
  else s

/-- CONFLICT_LISTEN_END (R52). -/
def execConflictListenEnd (s : State) : Host.Outcome State Fault Refusal := run doListenEnd s

/-! ### What the boundary does to the tick logic (R33 steps 1 to 4) -/

/-- The bit of its frame that a master sends in a tick (R46): calendar, sub-millisecond count and DEVID as captured at
the marker, and the check nibble. -/
def masterFrame (s : State) : Nat :=
  let f := s.tick.markCal * 2 ^ 32 + s.tick.markSub * 2 ^ 24 + devid s * 2 ^ 12
  f + frameCheck f

/-- Step 1: a master drives its pulse: 16 REFCLK cycles at tick 0, 8 for a 1, 4 for a 0 (R44). The frame follows only a
marker that the master itself drove (R46). -/
def drivePulse (s : State) : State :=
  if s.tick.role = 1 ∧ s.tick.forcedFollower = false ∧ s.tick.listen = none then
    let n := (s.tick.count + 1) % 262144
    if n = 0 then
      emit (.pulse 16) { s with tick := { s.tick with
        markCal := s.tick.cal, markSub := fld s F.TICK_CAL_STAT_SUBMS, framing := true } }
    else if s.tick.framing && decide (n ≤ 80) && (masterFrame s).testBit (80 - n) then emit (.pulse 8) s
    else emit (.pulse 4) s
  else if (s.tick.count + 1) % 262144 = 0 then { s with tick := { s.tick with framing := false } }
  else s

/-- Step 4: committed shares become the effective ones (R33). -/
def budgetApply (s : State) : State :=
  match s.tick.budgetSet with
  | none => s
  | some (lo, hi) =>
    (({ s with tick := { s.tick with budgetSet := none } }).putReg Reg.TICK_BUDGET_EFF_LO (BitVec.ofNat 32 lo)).putReg
      Reg.TICK_BUDGET_EFF_HI (BitVec.ofNat 32 hi)

/-- The role of TICK_SYNC_CTL takes effect at an epoch marker, before step 1 of that boundary, so that a new master drives
the marker itself (R59: 'at the next epoch marker'; DEDUCED, log entry 148); 3 is treated as 0. -/
def roleApply (s : State) : State :=
  let r := fld s F.TICK_SYNC_CTL_ROLE
  { s with tick := { s.tick with role := if r = 3 then 0 else r } }

/-- Steps 1 to 4 of a boundary (R33); a tick of a conflict's listening time has passed first (R52). -/
def tickAdvance (s : State) : State :=
  let s := listenTick s
  let s := if (s.tick.count + 1) % 262144 = 0 then roleApply s else s
  let s := freeRunTick (drivePulse s)
  let s := { s with tick := { s.tick with count := (s.tick.count + 1) % 2 ^ 64 } }
  budgetApply (calSetJudge (calAdvance s))

/-- A share of the effective budget: class 0 host reads, 1 writeback, 2 Overturn, 3 Dredge, 4 refresh, 5 scrub,
6 Shoreline, 7 Narrows resync (R34). -/
def effShare (s : State) (c : Nat) : Nat :=
  lat 0 (shares (s.reg Reg.TICK_BUDGET_EFF_LO) (s.reg Reg.TICK_BUDGET_EFF_HI)) c

/-! ### Leaving IDLE (R559, R578) -/

/-- IDLE ends: `cause` 0 autonomous, 1 request, 2 host flit, 3 background need. -/
def idleLeave (cause : Nat) (s : State) : State :=
  if s.pwr.st ≠ 1 then s else
  let since := s.pwr.idleSince
  let s := { s with pwr := { s.pwr with st := 0, idleAsked := false, quietTicks := 0 } }
  sed 0x0C20 sDEBUG 13 0 cause (s.tick.count - since) s

/-! ### Wake (R574) -/

/-- A wake source is enabled; sources 0 and 3 always are (R574). -/
def wakeOn (s : State) (src : Nat) : Bool := (fld s F.PWR_WAKE_EN_EN ||| 9).testBit src

/-- A wake event: it is latched in an entry (R567), and starts the exit in SLEEP or DEEP (R574, R575). -/
def wakeStart (src : Nat) (s : State) : State :=
  if 7 ≤ src || !wakeOn s src then s else
  match s.pwr.entry with
  | some e =>
    let e : Entry := { e with wake := some (e.wake.getD src) }
    { s with pwr := { s.pwr with entry := some e } }
  | none =>
    if !(s.pwr.st == 2 || s.pwr.st == 3) || s.pwr.exit.isSome then s else
    let s := setF F.PWR_WAKE_STAT_SRC (fld s F.PWR_WAKE_STAT_SRC ||| 2 ^ src) s |> setF F.PWR_STAT_WAKE_SRC src
    { s with pwr := { s.pwr with exit := some (s.pwr.st, src, s.tick.count) } }

end Sys2Proof.Machine
end

