-- ==== Sys2Proof/Machine/MempCore.lean ====
section
/-! DEFINITION. What every protected memory shares (chapter 10): the counts of corrected and uncorrectable words (R417),
and the armed injection that fires at a qualifying access (R434 to R436, R736). -/

namespace Sys2Proof.Machine

/-- Agents of R736. -/
def agRequest : Nat := 0
def agScrub : Nat := 1
def agInternal : Nat := 2

/-- CLASS and INST as records give them (R415). -/
def classInst (cls inst : Nat) : Nat := cls * 256 + inst

/-- The codeword bit of a corrected word: the one that an injection inverted (R434), else the array's (a free value). -/
def ceBit (s : State) : Nat := s.memp.flip.getD ((draw 7 s).1.toNat % 72)

/-- Count a corrected word of a class and write MEMP_CE (R417). -/
def mempCe (cls inst word : Nat) (s : State) : State :=
  let b := ceBit s
  let s := (draw 7 s).2
  satInc (F.MEMP_CE_COUNT cls)
    { s with memp := { s.memp with epochCe := tmod 0 cls (· + 1) s.memp.epochCe, flip := none } }
    |> sed 0x0800 sDEBUG 8 (classInst cls inst) word b

/-- Count an uncorrectable word and write MEMP_UE (R417); `agent` 1 is a scrubber. -/
def mempUe (cls inst word agent : Nat) (s : State) : State :=
  satInc (F.MEMP_UE_COUNT cls) s |> sed 0x0802 sERROR 8 (classInst cls inst) word (if agent = agScrub then 1 else 0)

/-- An injection is armed for a point and an instance (R435). -/
def injArmed (s : State) (point inst : Nat) : Bool :=
  bit s F.MEMP_INJ_CTL_ARM && fld s F.MEMP_INJ_SEL_POINT == point && fld s F.MEMP_INJ_SEL_INST == inst

/-- The injection fires: disarm, show and record the agent (R436). -/
def injFire (agent word : Nat) (s : State) : State :=
  setF F.MEMP_INJ_CTL_ARM 0 s |> setF F.MEMP_INJ_STAT_FIRED 1 |> setF F.MEMP_INJ_STAT_AGENT agent
    |> sed 0x0811 sNOTICE 8 (classInst (fld s F.MEMP_INJ_SEL_POINT) (fld s F.MEMP_INJ_SEL_INST)) agent word

/-- An access of a SEC-DED point qualifies: instance, side, word and agent (R436). -/
def injQualifies (s : State) (cls inst word side agent : Nat) : Bool :=
  injArmed s cls inst && fld s F.MEMP_INJ_CTL_SIDE == side &&
  (!bit s F.MEMP_INJ_CTL_MATCH || fld s F.MEMP_INJ_ADDR_WORD == word) &&
  !(agent == agScrub && bit s F.MEMP_INJ_CTL_SCRUB_EXCL)

/-- The worse of what the array holds and what an injection adds: one flipped bit is corrected, two are not (R434). -/
def upsetOf (mode : Nat) (up : Upset) : Upset :=
  match up with
  | .ce => if mode = 0 then .ce else .ue
  | .none => if mode = 0 then .none else if mode = 1 then .ce else .ue
  | u => u

/-- A valid-bit copy disagrees: rewritten to the majority, counted and recorded (R412). -/
def mempVote (cls inst row : Nat) (s : State) : State :=
  mempCe cls inst row s |> sed 0x0805 sNOTICE 8 (classInst cls inst) row 0

/-- A word of a class is read: an armed read-side injection or a planted error joins what the access meets. -/
def mempRead (cls inst word agent : Nat) (up : Upset) (s : State) : State × Upset :=
  let s := if decide (cls < 13) && injArmed s 0x27 cls && !(agent == agScrub && bit s F.MEMP_INJ_CTL_SCRUB_EXCL)
    then mempVote cls inst word (injFire agent word s) else s
  let planted := match s.memp.planted.find? (fun e => e.1 == cls && e.2.1 == inst && e.2.2.1 == word) with
    | some e => e.2.2.2
    | none => 0
  let first := upsetOf (planted % 4) up
  let s := { s with memp := { s.memp with flip := if first = .ce ∧ up = .none then some (planted / 4) else none } }
  if injQualifies s cls inst word 0 agent then
    let mode := fld s F.MEMP_INJ_CTL_MODE
    let s := { s with memp := { s.memp with flip := if mode = 1 ∧ first = .none then some (fld s F.MEMP_INJ_CTL_BIT0) else none } }
    (injFire agent word s, upsetOf mode first)
  else (s, first)

/-- A word of a class is written: its planted error goes, and an armed write-side injection plants a new one. -/
def mempWrite (cls inst word agent : Nat) (s : State) : State :=
  let keep := s.memp.planted.filter (fun e => !(e.1 == cls && e.2.1 == inst && e.2.2.1 == word))
  let s := { s with memp := { s.memp with planted := keep } }
  if injQualifies s cls inst word 1 agent then
    let mode := fld s F.MEMP_INJ_CTL_MODE + 4 * fld s F.MEMP_INJ_CTL_BIT0
    let s := injFire agent word s
    { s with memp := { s.memp with planted := (cls, inst, word, mode) :: s.memp.planted } }
  else s

/-- The word of a row that an access meets first: one that holds a planted error, or the word an injection matches, or the
row's first; the row has `n` words from word `base` on. -/
def injWord (s : State) (cls inst base n : Nat) : Nat :=
  match s.memp.planted.find? (fun e => e.1 == cls && e.2.1 == inst && decide (base ≤ e.2.2.1) && decide (e.2.2.1 < base + n)) with
  | some e => e.2.2.1
  | none =>
    let w := fld s F.MEMP_INJ_ADDR_WORD
    if bit s F.MEMP_INJ_CTL_MATCH && decide (base ≤ w) && decide (w < base + n) then w else base

/-- A row is read: what its words meet, and the word. -/
def mempReadRow (cls inst base n agent : Nat) (s : State) : State × Upset × Nat :=
  let w := injWord s cls inst base n
  let (s, up) := mempRead cls inst w agent .none s
  (s, up, w)

/-- A row is written: its planted errors go, and an armed write-side injection plants a new one. -/
def mempWriteRow (cls inst base n agent : Nat) (s : State) : State :=
  let keep := s.memp.planted.filter (fun e =>
    !(e.1 == cls && e.2.1 == inst && decide (base ≤ e.2.2.1) && decide (e.2.2.1 < base + n)))
  let s := { s with memp := { s.memp with planted := keep } }
  mempWrite cls inst (injWord s cls inst base n) agent s

/-- A row is read in a class whose uncorrectable word has the outcome `bad`; a correction is counted. -/
def mempReadWith (cls inst base n agent : Nat) (bad : Nat → State → State) (s : State) : State :=
  let (s, up, w) := mempReadRow cls inst base n agent s
  match up with
  | .ce => mempCe cls inst w s
  | .ue => bad w s
  | _ => s

/-- A word passes an internal bus (class 13): true when it arrives uncorrectable (R422). -/
def busWord (inst agent : Nat) (s : State) : State × Bool :=
  let (s, up, w) := mempReadRow 13 inst 0 1 agent s
  match up with
  | .ce => (mempCe 13 inst w s, false)
  | .ue => (mempUe 13 inst w agent s, true)
  | _ => (s, false)

end Sys2Proof.Machine
end

