-- ==== Sys2Proof/Machine/Cmd.lean ====
section
/-! DEFINITION. What every mailbox and CCI command shares: which paths may send it, the recovery modes, its payload's
length and its answer (R441, R462, R499, R585, R731). -/

namespace Sys2Proof.Machine

/-- Opcodes that Wellhead recovery mode accepts on the Tuten port (R499); FW_ACTIVATE and NDX_COMMIT only with MODE and
APPLY 0. -/
def recoveryOp (op : Nat) (input : List Byte) : Bool :=
  [0x0001, 0x0200, 0xC010, 0xC011, 0xC001, 0xC030, 0xC070, 0xC081].contains op ||
  ((op == 0xC012 || op == 0xC002) && byteAt input 0 == 0)

/-- Opcodes that a head mailbox answers in the recovery mode of R462. -/
def limitedOp (op : Nat) : Bool := [0x0001, 0x4200, 0x0100, 0x0101, 0x0102, 0x0103].contains op

/-- Opcodes that a head mailbox answers in INTEGRITY_HALT (R140). -/
def haltOp (op : Nat) : Bool := [0x0001, 0x4000, 0x4200, 0x0100, 0x0101, 0xC030, 0xC080].contains op

/-- Vendor commands that only the Tuten port accepts (R135). -/
def tutenOnly (op : Nat) : Bool := [0xC050, 0xC071, 0xC081].contains op

/-- Commands that need a unit of a domain that SLEEP has powered down (R456): those on keys, lines, media and poison, the
recorder's and Narrows' commands, an advance, the halt report and scans. -/
def gatedOp (op : Nat) : Bool :=
  [0x4102, 0x4103, 0x4200, 0x4300, 0x4301, 0x4302, 0x4303, 0x4304, 0x4305, 0xC020, 0xC021, 0xC022, 0xC023, 0xC030, 0xC031, 0xC050,
   0xC060, 0xC061, 0xC080].contains op

/-- The unit that a command is aimed at, beside the management complex (R8, R11, R456): the line cache for poison commands,
the translation layer for scans, the inline crypt unit for Shoreline and the halt report, the vault for keys. A Narrows
command judges its links itself. -/
def aimedUnit (op : Nat) : Option Nat :=
  if op = 0x4300 ∨ op = 0x4301 ∨ op = 0x4302 then some 2
  else if op = 0x4303 ∨ op = 0x4304 ∨ op = 0x4305 then some 6
  else if op = 0xC022 ∨ op = 0xC023 ∨ op = 0xC080 then some 3
  else if op = 0xC020 ∨ op = 0xC021 then some 4
  else none

/-- The command is aimed at a unit that is absent (R8). -/
def unitAbsent (s : State) (op : Nat) : Bool := match aimedUnit op with | some n => !unitOn s n | none => false

/-- A command is waiting for its answer on the path (R441). -/
def inFlight (s : State) (path : Nat) : Bool := s.mgmt.inflight.any (fun e => e.path == path)

/-- A command's payload is read over the management bus from the mailbox buffer: an uncorrectable word completes it with
Internal Error and none of its effects (R422, R423). -/
def payloadIn (path op : Nat) (input : List Byte) (f : State → State) (s : State) : State :=
  if input.isEmpty then f s else
  let (s, bad) := busWord 3 agInternal s
  let (s, up, w) := mempReadRow 9 1 0 ((input.length + 7) / 8) agInternal s
  let s := if up = .ce then mempCe 9 1 w s else s
  let s := if up = .ue then mempUe 9 1 w agInternal s else s
  if bad || up == .ue then answer path op rcInternal [] s else f s

/-- Take a command (R441), of at most 8 KiB on a head's mailbox (R131): from a head that is on or the Tuten port, with no other command of the path in flight. What
a wrong length (R731), a path that may not send it (R135), INTEGRITY_HALT, recovery mode or a failed VMGMT does with it
comes first; one that reaches a gated unit is held and wakes the device (R456, R555); `f` is the command's own effect. -/
def cmd (path op : Nat) (input : List Byte) (lenOk : Bool) (f : State → State) (s : State) : State :=
  if !(path == tuten || (isHead path && headOn s path)) || mgmtHeld s then s
  else if isHead path && (decide (2 ≤ s.pwr.st) || s.pwr.stopped.contains 0) then s
  else if railFailed s 4 then answer path op rcRefused [] s
  else if s.pwr.st = 4 then s
  else if s.pwr.st = 3 || (s.pwr.st == 2 && gatedOp op) then wakeStart 3 s
  else if fld s F.MGMT_STAT_CORES = 0 || s.flash.handover.isSome then s
  else if !lenOk || (isHead path && decide (8192 < input.length)) then answer path op rcInvalid [] s
  else if isHead path && tutenOnly op then answer path op rcRefused [] s
  else if isHead path && inHalt s && !haltOp op then answer path op rcRefused [] s
  else if inFlight s path then s
  else if inRecovery s && path == tuten && !recoveryOp op input then answer path op rcUnsupported [] s
  else if inRecovery s && isHead path && !limitedOp op then answer path op rcBusy [] s
  else if unitAbsent s op then answer path op rcUnsupported [] s
  else payloadIn path op input f s

/-- Mark a command as in flight until its answer. -/
def startCmd (path op : Nat) (gauge : Bool) (s : State) : State :=
  { s with mgmt := { s.mgmt with inflight := s.mgmt.inflight ++ [⟨path, op, false, gauge⟩] } }

/-- The commit point of the path's command has passed (R461). -/
def commitCmd (path : Nat) (s : State) : State :=
  { s with mgmt := { s.mgmt with
      inflight := s.mgmt.inflight.map (fun e => if e.path = path then { e with committed := true } else e) } }

/-- Answer the command in flight on a path; one that a restart has ended is answered no more. -/
def endCmd (path op code : Nat) (body : List Byte) (s : State) : State :=
  if s.mgmt.inflight.any (fun e => e.path == path && e.op == op) then
    answer path op code body { s with mgmt := { s.mgmt with
      inflight := s.mgmt.inflight.filter (fun e => !(e.path == path && e.op == op)) } }
  else s

/-- A background command runs (R137). -/
def bgBusy (s : State) : Bool := s.mgmt.bg.isSome

/-- Bytes of Spring flash (R478). -/
def flashBytes (s : State) (a n : Nat) : List Byte := mbytes 0xFF s.flash.mem a n

/-- Write bytes into Spring flash cells. -/
def flashPut (a : Nat) (l : List Byte) (s : State) : State :=
  { s with flash := { s.flash with mem := mputs 0xFF s.flash.mem a l } }

/-- Erase a range of Spring flash. -/
def flashErase (a n : Nat) (s : State) : State :=
  { s with flash := { s.flash with
      mem := s.flash.mem.filter (fun c => !(decide (a ≤ c.1) && decide (c.1 < a + n)))
      badWords := s.flash.badWords.filter (fun w => !(decide (a ≤ 8 * w) && decide (8 * w < a + n))) } }

/-- The calibration row (R483). -/
def calRow : Nat := 0x0FF0000
/-- The device serial number in the calibration row. -/
def serialNo (s : State) : Nat := leVal (flashBytes s (calRow + 8) 8)
/-- The vendor factory key digest and the firmware key digest (R64, R483). -/
def factoryDigest (s : State) : List Byte := flashBytes s (calRow + 0x18) 48
def firmwareDigest (s : State) : List Byte := flashBytes s (calRow + 0x48) 48

/-- The image-key digest of the lifecycle state (R64). -/
def imageKeyDigest (s : State) : List Byte := if lifecycle s = 0 then factoryDigest s else (gLcrec s).1

/-- The path code that status fields and records give: 0 to 3 a head, 4 the Tuten port. -/
def pathCode (p : Nat) : Nat := min p 4

end Sys2Proof.Machine
end

