-- ==== Sys2Proof/Machine/Crypto.lean ====
section
/-! DEFINITION. The named standards the spec calls on and does not restate: AES-256 (FIPS 197), XTS, CMAC, GCM, key
wrap, SHA-384 and ECDSA P-384. Mark: PRESUMED (log entry 9): the algorithms are those of their standards. -/

namespace Sys2Proof.Machine

/-! ### AES-256 -/

/-- Multiplication by x in GF(2^8). -/
def gfDouble (b : Byte) : Byte := if b.getLsbD 7 then (b <<< 1) ^^^ 0x1B else b <<< 1

/-- Multiplication in GF(2^8). -/
def gfMul (a b : Byte) : Byte :=
  ((List.range 8).foldl (fun (p : Byte × Byte) i =>
    (if b.getLsbD i then p.1 ^^^ p.2 else p.1, gfDouble p.2)) (0, a)).1

/-- The inverse in GF(2^8), with zero to zero: the 254th power. -/
def gfInv (a : Byte) : Byte :=
  ((List.range 7).foldl (fun (p : Byte × Byte) _ => let q := gfMul p.2 p.2; (gfMul p.1 q, q)) (1, a)).1

/-- The S-box. -/
def sbox (a : Byte) : Byte :=
  let i := gfInv a
  i ^^^ i.rotateLeft 1 ^^^ i.rotateLeft 2 ^^^ i.rotateLeft 3 ^^^ i.rotateLeft 4 ^^^ 0x63

/-- The inverse S-box. -/
def sboxInv (a : Byte) : Byte :=
  let t := a ^^^ 0x63
  gfInv (t.rotateLeft 1 ^^^ t.rotateLeft 3 ^^^ t.rotateLeft 6)

def xorBytes (a b : List Byte) : List Byte := List.zipWith (· ^^^ ·) a b

/-- Round constant i. -/
def rcon (i : Nat) : Byte := (List.range i).foldl (fun b _ => gfDouble b) 1

/-- The 60 words of the expanded key, newest first. -/
def keyWords (key : List Byte) : List (List Byte) :=
  let start := (List.range 8).map (fun i => sub key (4 * i) 4)
  (List.range 52).foldl (fun (acc : List (List Byte)) j =>
    let i := j + 8
    let prev := acc.headD []
    let t := if i % 8 = 0 then
        let r := (prev.drop 1 ++ prev.take 1).map sbox
        xorBytes r [rcon (i / 8 - 1), 0, 0, 0]
      else if i % 8 = 4 then prev.map sbox else prev
    xorBytes (acc.getD 7 []) t :: acc) start.reverse

/-- Round key r. -/
def roundKey (w : List (List Byte)) (r : Nat) : List Byte := ((w.drop (4 * r)).take 4).flatten

def shiftRows (b : List Byte) : List Byte := (List.range 16).map (fun i => b.getD ((i + 4 * (i % 4)) % 16) 0)
def shiftRowsInv (b : List Byte) : List Byte := (List.range 16).map (fun i => b.getD ((i + 12 * (i % 4)) % 16) 0)

/-- Multiply each column by a circulant matrix with first row m. -/
def mixWith (m : List Byte) (b : List Byte) : List Byte :=
  (List.range 16).map (fun i =>
    (List.range 4).foldl (fun (a : Byte) j =>
      a ^^^ gfMul (m.getD ((j + 4 - i % 4) % 4) 0) (b.getD (i / 4 * 4 + j) 0)) 0)

/-- AES-256 encryption of one block. -/
def aesEnc (key : BitVec 256) (blk : List Byte) : List Byte :=
  let w := (keyWords (be 32 key.toNat)).reverse
  let st := (List.range 13).foldl (fun b r =>
    xorBytes (mixWith [2, 3, 1, 1] (shiftRows (b.map sbox))) (roundKey w (r + 1))) (xorBytes blk (roundKey w 0))
  xorBytes (shiftRows (st.map sbox)) (roundKey w 14)

/-- AES-256 decryption of one block. -/
def aesDec (key : BitVec 256) (blk : List Byte) : List Byte :=
  let w := (keyWords (be 32 key.toNat)).reverse
  let st := (List.range 13).foldl (fun b r =>
    mixWith [14, 11, 13, 9] (xorBytes ((shiftRowsInv b).map sboxInv) (roundKey w (13 - r))))
    (xorBytes blk (roundKey w 14))
  xorBytes ((shiftRowsInv st).map sboxInv) (roundKey w 0)

/-! ### Modes -/

/-- Split into blocks of 16 bytes. -/
def blocks16 (n : Nat) (l : List Byte) : List (List Byte) := (List.range n).map (fun i => sub l (16 * i) 16)

/-- The XTS tweak of the next block: multiply by x in GF(2^128), little-endian. -/
def xtsNext (t : BitVec 128) : BitVec 128 := if t.getLsbD 127 then (t <<< 1) ^^^ 0x87 else t <<< 1

/-- XTS over whole blocks: tweak bytes encrypted under key 2, blocks under key 1. -/
def xts (enc : Bool) (k1 k2 : BitVec 256) (tweak data : List Byte) : List Byte :=
  let t0 : BitVec 128 := BitVec.ofNat 128 (leVal (aesEnc k2 (sub tweak 0 16)))
  ((blocks16 (data.length / 16) data).foldl (fun (p : List Byte × BitVec 128) b =>
    let tb := le 16 p.2.toNat
    let c := xorBytes ((if enc then aesEnc else aesDec) k1 (xorBytes b tb)) tb
    (p.1 ++ c, xtsNext p.2)) ([], t0)).1

/-- Doubling of CMAC subkeys, big-endian. -/
def cmacDbl (b : List Byte) : List Byte :=
  let v : BitVec 128 := BitVec.ofNat 128 (beVal b)
  be 16 ((if v.getLsbD 127 then (v <<< 1) ^^^ 0x87 else v <<< 1).toNat)

/-- AES-CMAC (SP 800-38B). -/
def cmac (key : BitVec 256) (m : List Byte) : List Byte :=
  let k1 := cmacDbl (aesEnc key (zeros 16))
  let k2 := cmacDbl k1
  let n := (m.length + 15) / 16
  let n := if n = 0 then 1 else n
  let lastLen := m.length - 16 * (n - 1)
  let last := if lastLen = 16 then xorBytes (sub m (16 * (n - 1)) 16) k1
    else xorBytes (m.drop (16 * (n - 1)) ++ [0x80] ++ zeros (15 - lastLen)) k2
  let c := (blocks16 (n - 1) m).foldl (fun c b => aesEnc key (xorBytes c b)) (zeros 16)
  aesEnc key (xorBytes c last)

/-- Multiplication in GCM's field; bit 127 is the coefficient of x^0. -/
def ghashMul (x y : BitVec 128) : BitVec 128 :=
  ((List.range 128).foldl (fun (p : BitVec 128 × BitVec 128) i =>
    (if x.getLsbD (127 - i) then p.1 ^^^ p.2 else p.1,
     if p.2.getLsbD 0 then (p.2 >>> 1) ^^^ ((0xE1 : BitVec 128) <<< 120) else p.2 >>> 1)) (0, y)).1

/-- GHASH over padded AAD and text and their bit lengths. -/
def ghash (h : BitVec 128) (aad text : List Byte) : BitVec 128 :=
  let blk := fun (l : List Byte) => blocks16 ((l.length + 15) / 16) l
  (blk aad ++ blk text ++ [be 8 (8 * aad.length) ++ be 8 (8 * text.length)]).foldl
    (fun y b => ghashMul (y ^^^ BitVec.ofNat 128 (beVal b)) h) 0

/-- GCM counter-mode keystream applied to a text, counters from `first`. -/
def gctr (key : BitVec 256) (iv : List Byte) (first : Nat) (text : List Byte) : List Byte :=
  ((List.range ((text.length + 15) / 16)).map (fun i =>
    xorBytes (text.drop (16 * i)) (aesEnc key (iv ++ be 4 (first + i))))).flatten

/-- AES-GCM with a 96-bit IV: ciphertext (or plaintext) and the tag over the ciphertext. -/
def gcm (enc : Bool) (key : BitVec 256) (iv aad text : List Byte) : List Byte × List Byte :=
  let out := gctr key iv 2 text
  let h : BitVec 128 := BitVec.ofNat 128 (beVal (aesEnc key (zeros 16)))
  let y := ghash h aad (if enc then out else text)
  (out, xorBytes (aesEnc key (iv ++ be 4 1)) (be 16 y.toNat))

/-- AES key unwrap (SP 800-38F KW): the plaintext when the integrity value is right. -/
def kwUnwrap (kek : BitVec 256) (c : List Byte) : Option (List Byte) :=
  let n := c.length / 8 - 1
  if c.length % 8 ≠ 0 ∨ n < 2 then none else
  let r0 := (List.range n).map (fun i => sub c (8 * (i + 1)) 8)
  let res := (List.range (6 * n)).foldl (fun (p : List Byte × List (List Byte)) s =>
    let t := 6 * n - s
    let i := (t - 1) % n
    let b := aesDec kek (xorBytes p.1 (be 8 t) ++ p.2.getD i [])
    (b.take 8, p.2.set i (b.drop 8))) (c.take 8, r0)
  if res.1 = List.replicate 8 (0xA6 : Byte) then some res.2.flatten else none

/-- AES key wrap. -/
def kwWrap (kek : BitVec 256) (p : List Byte) : List Byte :=
  let n := p.length / 8
  let r0 := (List.range n).map (fun i => sub p (8 * i) 8)
  let res := (List.range (6 * n)).foldl (fun (q : List Byte × List (List Byte)) s =>
    let t := s + 1
    let i := s % n
    let b := aesEnc kek (q.1 ++ q.2.getD i [])
    (xorBytes (b.take 8) (be 8 t), q.2.set i (b.drop 8))) (List.replicate 8 (0xA6 : Byte), r0)
  res.1 ++ res.2.flatten

/-! ### SHA-384 -/

/-- Largest n of `bits` bits with test n true, the test true downward: bit by bit. -/
def searchDown (bits : Nat) (test : Nat → Bool) : Nat :=
  (List.range bits).foldl (fun a i => let b := a + 2 ^ (bits - 1 - i); if test b then b else a) 0

/-- The first primes below 410: the 80 that SHA-384's constants come from. -/
def shaPrimes : List Nat :=
  (List.range 410).filter (fun n => decide (2 ≤ n) && (List.range n).all (fun d => d < 2 || n % d != 0))

/-- Fractional bits of cube roots and square roots (FIPS 180-4). -/
def shaK : List (BitVec 64) :=
  shaPrimes.map (fun p => BitVec.ofNat 64 (searchDown 70 (fun x => decide (x * x * x ≤ p * 2 ^ 192))))
def shaH : List (BitVec 64) :=
  ((shaPrimes.drop 8).take 8).map (fun p => BitVec.ofNat 64 (searchDown 70 (fun x => decide (x * x ≤ p * 2 ^ 128))))

/-- Message schedule of one 128-byte block. -/
def shaSchedule (b : List Byte) : List (BitVec 64) :=
  ((List.range 64).foldl (fun (w : List (BitVec 64)) _ =>
    let x := w.getD 1 0
    let y := w.getD 14 0
    let s1 := x.rotateRight 19 ^^^ x.rotateRight 61 ^^^ (x >>> 6)
    let s0 := y.rotateRight 1 ^^^ y.rotateRight 8 ^^^ (y >>> 7)
    (s1 + w.getD 6 0 + s0 + w.getD 15 0) :: w)
    ((List.range 16).map (fun i => BitVec.ofNat 64 (beVal (sub b (8 * i) 8)))).reverse).reverse

/-- One block into the hash value. -/
def shaBlock (h : List (BitVec 64)) (b : List Byte) : List (BitVec 64) :=
  let v := (List.zip (shaSchedule b) shaK).foldl (fun (v : List (BitVec 64)) e =>
    let g := fun i => v.getD i 0
    let t1 := g 7 + ((g 4).rotateRight 14 ^^^ (g 4).rotateRight 18 ^^^ (g 4).rotateRight 41) +
      ((g 4 &&& g 5) ^^^ (~~~ (g 4) &&& g 6)) + e.2 + e.1
    let t2 := ((g 0).rotateRight 28 ^^^ (g 0).rotateRight 34 ^^^ (g 0).rotateRight 39) +
      ((g 0 &&& g 1) ^^^ (g 0 &&& g 2) ^^^ (g 1 &&& g 2))
    [t1 + t2, g 0, g 1, g 2, g 3 + t1, g 4, g 5, g 6]) h
  List.zipWith (· + ·) h v

/-- SHA-384 of a byte string, 48 bytes. -/
def sha384 (m : List Byte) : List Byte :=
  let padLen := (239 - m.length % 128) % 128
  let p := m ++ [0x80] ++ zeros padLen ++ be 16 (8 * m.length)
  let h := (List.range (p.length / 128)).foldl (fun h i => shaBlock h (sub p (128 * i) 128)) shaH
  ((h.take 6).map (fun w => be 8 w.toNat)).flatten

/-! ### ECDSA P-384 -/

def p384 : Nat := 2 ^ 384 - 2 ^ 128 - 2 ^ 96 + 2 ^ 32 - 1
def n384 : Nat := 39402006196394479212279040100143613805079739270465446667946905279627659399113263569398956308152294913554433653942643
def b384 : Nat := 27580193559959705877849011840389048093056905856361568521428707301988689241309860865136260764883745107765439761230575
def gx384 : Nat := 26247035095799689268623156744566981891852923491109213387815615900925518854738050089022388053975719786650872476732087
def gy384 : Nat := 8325710961489029985546751289520108179287853048861315594709205902480503199884419224438643760392947333078086511627871

/-- Power modulo m by the bits of the exponent. -/
def powMod (a e m : Nat) : Nat :=
  ((List.range 384).foldl (fun (p : Nat × Nat) i =>
    (if e.testBit i then p.1 * p.2 % m else p.1, p.2 * p.2 % m)) (1, a % m)).1

/-- Addition on the curve; none is the point at infinity. -/
def ecAdd (a b : Option (Nat × Nat)) : Option (Nat × Nat) :=
  match a, b with
  | none, q => q
  | q, none => q
  | some (x1, y1), some (x2, y2) =>
    if x1 = x2 ∧ (y1 + y2) % p384 = 0 then none else
    let num := if x1 = x2 then 3 * x1 * x1 + (p384 - 3) else y2 + p384 - y1
    let den := if x1 = x2 then 2 * y1 else x2 + p384 - x1
    let l := num * powMod den (p384 - 2) p384 % p384
    let x3 := (l * l + 2 * p384 - x1 - x2) % p384
    some (x3, (l * (x1 + p384 - x3) + p384 - y1) % p384)

/-- Scalar multiplication. -/
def ecMul (k : Nat) (q : Option (Nat × Nat)) : Option (Nat × Nat) :=
  ((List.range 384).foldl (fun (p : Option (Nat × Nat) × Option (Nat × Nat)) i =>
    (if k.testBit i then ecAdd p.1 p.2 else p.1, ecAdd p.2 p.2)) (none, q)).1

/-- ECDSA P-384 over SHA-384: public key x then y, signature r then s, big-endian. -/
def ecdsaVerify (pubkey sig msg : List Byte) : Bool :=
  let x := beVal (sub pubkey 0 48)
  let y := beVal (sub pubkey 48 48)
  let r := beVal (sub sig 0 48)
  let t := beVal (sub sig 48 48)
  if x < p384 ∧ y < p384 ∧ (y * y) % p384 = (x * x * x + (p384 - 3) * x + b384) % p384 ∧
      0 < r ∧ r < n384 ∧ 0 < t ∧ t < n384 then
    let w := powMod t (n384 - 2) n384
    let e := beVal (sha384 msg)
    match ecAdd (ecMul (e * w % n384) (some (gx384, gy384))) (ecMul (r * w % n384) (some (x, y))) with
    | some (rx, _) => rx % n384 == r
    | none => false
  else false

end Sys2Proof.Machine
end

