-- ==== Sys2Proof/Machine/FwCore.lean ====
section
/-! DEFINITION. Firmware images (R500, R501), the boot selector FWSEL (R498) and the end of a trial (R511): what the restart
and the update path share. -/

namespace Sys2Proof.Machine

/-! ### Images -/

/-- Base of a firmware slot (R481). -/
def fwBase (slot : Nat) : Nat := if slot = 0 then 0x1000000 else 0x2000000

/-- Longest image (R500). -/
def fwMax : Nat := 1049184

/-- The bytes of a slot's image: as many as its header's TOTAL_LEN says, at most the longest. -/
def fwBytes (s : State) (slot : Nat) : List Byte :=
  flashBytes s (fwBase slot) (min (leVal (flashBytes s (fwBase slot + 8) 4)) fwMax)

/-- Steps 1 and 2 of R501, and the limits of step 3, over a header. -/
def fwHeader (b : List Byte) : Nat :=
  let body := at' b 0x0C 4
  if sub b 0 4 ≠ [0x55, 0x46, 0x57, 0x31] then 1
  else if at' b 4 2 ≠ 1 ∨ at' b 6 2 ≠ 512 ∨ at' b 0x1FC 4 ≠ (crc32c (sub b 0 0x1FC)).toNat ∨ !zeroAt b 0x1E 2 ∨
      !zeroAt b 0x36 74 ∨ !zeroAt b 0xE0 284 ∨ at' b 0x24 4 / 2 ^ 20 ≠ 0 ∨ at' b 8 4 ≠ body + 608 ∨
      body ≤ at' b 0x28 4 ∨ body ≤ at' b 0x2C 4 then 2
  else if at' b 8 4 % 8 ≠ 0 ∨ fwMax < at' b 8 4 then 3
  else 0

/-- Steps 1 to 9 of R501 over an image of which `received` bytes arrived: the reason of the first that fails, or 0. -/
def fwCheck (s : State) (b : List Byte) (received : Nat) : Nat :=
  let n := at' b 8 4
  let pub := sub b 0x80 96
  let part := at' b 0x20 2
  let units := at' b 0x24 4
  let parts := (s.reg Reg.GLB_UNITS_FUSED).toNat % 65536 + (capFused s / 16 % 16) * 65536
  if fwHeader b ≠ 0 then fwHeader b
  else if received ≠ n then 3
  else if sha384 pub ≠ firmwareDigest s then 4
  else if !ecdsaVerify pub (sub b (n - 96) 96) (b.take (n - 96)) then 5
  else if part ≠ 0xFFFF ∧ part ≠ partNo s then 6
  else if fld s F.GLB_ID_STEP < byteAt b 0x22 ∨ byteAt b 0x23 < fld s F.GLB_ID_STEP then 7
  else if parts &&& units ≠ parts then 8
  else if at' b 0x14 2 < gCounter s (.dev 2) then 9
  else 0

/-- What the device keeps of an image; its digest covers the whole image (log entry 66). -/
def fwParse (slot : Nat) (b : List Byte) : FwImage :=
  { slot := slot, version := at' b 0x10 4, svn := at' b 0x14 2, settingsFmt := at' b 0x16 2, hoWrite := at' b 0x30 2,
    hoReadMin := at' b 0x32 2, hoReadMax := at' b 0x34 2, digest := sha384 b }

/-- The reason that a slot's image fails with, 0 when it passes. -/
def fwSlotReason (s : State) (slot : Nat) : Nat := let b := fwBytes s slot; fwCheck s b b.length

/-- VERSION in a slot, 0 when the slot fails (R515). -/
def fwSlotVersion (s : State) (slot : Nat) : Nat := if fwSlotReason s slot = 0 then at' (fwBytes s slot) 0x10 4 else 0

/-- Show the versions of both slots. -/
def fwShowVer (slot : Nat) (s : State) : State :=
  setF (if slot = 0 then F.SF_FW_VER0_VERSION else F.SF_FW_VER1_VERSION) (fwSlotVersion s slot) s

/-! ### FWSEL -/

/-- CONFIRMED, TRIAL and TSTATE (R498); when both copies fail, the slot whose image passes with the higher VERSION (R523). -/
def fwsel (s : State) : Nat × Nat × Nat :=
  if gBad s G.fwsel && (tfind s.gauge.image G.fwsel).isNone then
    let v0 := fwSlotVersion s 0
    let v1 := fwSlotVersion s 1
    (if fwSlotReason s 1 = 0 ∧ (fwSlotReason s 0 ≠ 0 ∨ v0 < v1) then 1 else 0, 0, 0)
  else gFwsel s

/-- The slot that FWSEL does not confirm: an update's target (R502). -/
def fwTarget (s : State) : Nat := 1 - fld s F.SF_FW_SEL_CONFIRMED

/-- Show FWSEL. -/
def fwShowSel (c t st : Nat) (s : State) : State :=
  setF F.SF_FW_SEL_CONFIRMED c s |> setF F.SF_FW_SEL_TRIAL t |> setF F.SF_FW_SEL_TSTATE st

/-- The image in the half of instruction SRAM that the cores run. -/
def runningImage (s : State) : Option FwImage := if fld s F.MGMT_STAT_HALF = 0 then s.flash.half0 else s.flash.half1

/-- Put an image into a half. -/
def putHalf (h : Nat) (f : Option FwImage) (s : State) : State :=
  if h = 0 then { s with flash := { s.flash with half0 := f } } else { s with flash := { s.flash with half1 := f } }

/-- The cores have switched to the trial image. -/
def fwSwitched (s : State) : Bool := fld s F.SF_FW_SEL_TSTATE == 2 && fld s F.SF_FW_SEL_RUNNING == fld s F.SF_FW_SEL_TRIAL

/-- A trial ends in fallback (R511): FWSEL is written with TSTATE NONE, the cores go back to the old half, and FW_FALLBACK
gives the cause; the restart itself is the caller's. -/
def fwTrialDrop (cause : Nat) (s : State) : State :=
  if fld s F.SF_FW_SEL_TSTATE ≠ 2 then s else
  let c := fld s F.SF_FW_SEL_CONFIRMED
  let t := fld s F.SF_FW_SEL_TRIAL
  let kept := (if fwSwitched s then
      (if fld s F.MGMT_STAT_HALF = 0 then s.flash.half1 else s.flash.half0) else runningImage s).elim 0 FwImage.version
  let s := if fwSwitched s then
      setF F.MGMT_STAT_HALF (1 - fld s F.MGMT_STAT_HALF) s |> fun s => setF F.SF_HO_CTL_HALF (fld s F.MGMT_STAT_HALF) s
    else setF F.SF_HO_CTL_HALF (fld s F.MGMT_STAT_HALF) s
  let s := setF F.SF_FW_SEL_TSTATE 0 s |> setF F.SF_FW_SEL_RUNNING c |> setF F.SF_FW_TRIAL_CAUSE cause |> setF F.SF_HO_CTL_ARM 0
    |> setF F.SF_FW_FLOOR_SVN ((runningImage s).elim 0 FwImage.svn)
  let s := { s with flash := { s.flash with handover := none } }
  gPut G.fwsel (.fwsel c t 0) false none .none (sed 0x0A17 sERROR 10 t cause kept s)

end Sys2Proof.Machine
end

