-- ==== Sys2Proof/Machine/FabricQ.lean ====
section
/-! DEFINITION. The queue fabric's queues (R144 to R159): rings and the cell pool, credits and pacing, egress queues, the
hold outputs. -/

namespace Sys2Proof.Machine

/-- A queue after device reset: in POOL mode under its start-up test (R151, R152). -/
def Queue.init : Queue :=
  { entries := [], mode := 1, test := .startup, wp := 0, rp := 0, reserved := 0, resvWait := false, paced := false,
    withheld := 0, recent := false, stopped := false, credits := 0, promised := 0 }

def queueOf (s : State) (q : Nat) : Queue := tget Queue.init s.queues q
def modQueue (q : Nat) (f : Queue → Queue) (s : State) : State := { s with queues := tmod Queue.init q f s.queues }

/-- Queue numbers of R144. -/
def iqReq (h : Nat) : Nat := 4 * h
def iqRwd (h : Nat) : Nat := 4 * h + 1
def eqNdr (h : Nat) : Nat := 4 * h + 2
def eqDrs (h : Nat) : Nat := 4 * h + 3

/-- A queue is present (R8, R144). -/
def queueOn (s : State) (q : Nat) : Bool :=
  if q < 16 then headOn s (q / 4) && unitOn s 1 else decide (q < 18) && nrwOn s && unitOn s 1
def queuesOn (s : State) : List Nat := (List.range 18).filter (queueOn s)

/-- Occupancy (R148). -/
def Queue.occ (q : Queue) : Nat := q.entries.length

/-- Cells of the pool in use, those reserved, and the reserved cells not in use by their queue (R149). -/
def Queue.cells (q : Queue) : Nat := (q.entries.filter (fun e => e.cell.isSome)).length
def poolUsed (s : State) : Nat :=
  s.queues.foldl (fun n e => n + e.2.cells) 0 + s.nrw.links.foldl (fun n e => n + e.2.send.length) 0
def poolReserved (s : State) : Nat :=
  s.queues.foldl (fun n e => n + e.2.reserved) 0 + s.nrw.links.foldl (fun n e => n + e.2.send.length) 0

/-- Lowest free cell (which free cell is taken: log entry 17). -/
def freeCell (s : State) : Nat :=
  let used := (s.queues.map (fun e => e.2.entries.filterMap (fun x => x.cell))).flatten
  ((List.range 4096).find? (fun c => !used.contains c)).getD 0

/-- Watermarks of head h in force (R156 to R158): ING_HI, ING_LO, EGR_HI, EGR_LO, HOLD_HI, HOLD_LO in 64ths (R69). -/
def cfgMarks (s : State) (h : Nat) : Nat × Nat :=
  match s.cfg with | some c => tget (0x20302030, 0x2838) c.marks h | none => (0x20302030, 0x2838)
def ingHi (s : State) (h : Nat) : Nat := 8 * ((cfgMarks s h).1 % 256)
def ingLo (s : State) (h : Nat) : Nat := 8 * ((cfgMarks s h).1 / 2 ^ 8 % 256)
def egrHi (s : State) (h : Nat) : Nat := 8 * ((cfgMarks s h).1 / 2 ^ 16 % 256)
def egrLo (s : State) (h : Nat) : Nat := 8 * ((cfgMarks s h).1 / 2 ^ 24 % 256)
def holdHi (s : State) (h : Nat) : Nat := 8 * ((cfgMarks s h).2 % 256)
def holdLo (s : State) (h : Nat) : Nat := 8 * ((cfgMarks s h).2 / 2 ^ 8 % 256)

/-- Channel of an ingress queue: 0 M2S Req, 1 M2S RwD. -/
def isIngress (q : Nat) : Bool := decide (q < 16) && decide (q % 4 < 2)
def isEgress (q : Nat) : Bool := decide (q < 16) && decide (2 ≤ q % 4)

/-- Return n credits to the host on an ingress queue's channel. -/
def returnCredits (q n : Nat) (s : State) : State :=
  if n = 0 then s else
  emit (.credit (q / 4) (q % 4) n) (modQueue q (fun x => { x with credits := x.credits + n, recent := true }) s)

/-- The hold outputs of the Narrows links (R158). -/
def holdEval (s : State) : State :=
  if !nrwOn s then s else
  forEach [0, 1] (fun n s =>
    let on := match s.cfg.bind (·.narrows) with | some c => c.linkEn.testBit n | none => false
    if !on then s else
    let out := (fld s F.QF_HOLD_STAT_OUT).testBit n
    let rq := (queueOf s (16 + n)).occ
    let ing := (headsOn s).flatMap (fun h => [iqReq h, iqRwd h])
    let high := ing.find? (fun q => decide (holdHi s (q / 4) ≤ (queueOf s q).occ))
    let assert := high.isSome || decide (448 ≤ rq)
    let release := ing.all (fun q => decide ((queueOf s q).occ ≤ holdLo s (q / 4))) && decide (rq ≤ 320)
    let set := fun (b : Bool) (s : State) =>
      let m := fld s F.QF_HOLD_STAT_OUT
      let m' := if b then m ||| 2 ^ n else m &&& (3 - 2 ^ n)
      { setF F.QF_HOLD_STAT_OUT m' s with nrw := { s.nrw with
          links := s.nrw.links.map (fun e => if e.1 = n then (e.1, { e.2 with holdOut := b }) else e) } }
    if !out && assert then
      let q := high.getD (16 + n)
      let s := satInc F.QF_HOLD_STAT_COUNT (set true s)
      sed 0x0211 sNOTICE 1 (fld s F.QF_HOLD_STAT_OUT) q (queueOf s q).occ s
    else if out && release then set false s
    else s) s

/-- After an entry has entered or the levels have changed: PACED begins at or above ING_HI (R156). -/
def pacedEnter (q : Nat) (s : State) : State :=
  let x := queueOf s q
  if isIngress q && !x.paced && decide (ingHi s (q / 4) ≤ x.occ) then modQueue q (fun x => { x with paced := true }) s
  else s

/-- At or below ING_LO a paced queue returns every withheld credit and is OPEN (R156). -/
def pacedLeave (q : Nat) (s : State) : State :=
  let x := queueOf s q
  if isIngress q && x.paced && decide (x.occ ≤ ingLo s (q / 4)) && !x.resvWait then
    let n := x.withheld
    modQueue q (fun x => { x with paced := false, withheld := 0 }) s |> returnCredits q n
      |> sed 0x0210 sDEBUG 1 q x.occ n
  else s

/-- Put an entry at the tail, in the structure that new entries go to (R148, R151). -/
def enqueue (q : Nat) (e : QEntry) (s : State) : State :=
  let x := queueOf s q
  let e := { e with cell := if x.mode = 0 then none else some (freeCell s) }
  let s := match e.cell with
    | some c => mempWriteRow 3 18 (16 * c) 16 agRequest s
    | none => mempWriteRow 3 q (x.wp % 512 * 16) 16 agRequest s
  let s := modQueue q (fun x =>
    { x with entries := x.entries ++ [e], wp := if x.mode = 0 then (x.wp + 1) % 1024 else x.wp }) s
  let n := (queueOf s q).occ
  let s := if fld s (F.QF_Q_PEAK_OCC q) < n then setF (F.QF_Q_PEAK_OCC q) n s else s
  holdEval (pacedEnter q s)

/-- The ring is empty and a drain-switch waits on it: the march test of an on-demand test starts (R153). -/
def drainCheck (q : Nat) (s : State) : State :=
  let x := queueOf s q
  match x.test with
  | .draining d =>
    if x.entries.all (fun e => e.cell.isSome) then modQueue q (fun x => { x with test := .running d }) s else s
  | _ => s

/-- An ingress entry is freed: return or withhold one credit (R149, R156). -/
def freeIngress (q : Nat) (s : State) : State :=
  if !isIngress q then s else
  let x := queueOf s q
  let s := if x.resvWait || (x.paced && x.recent) then
      modQueue q (fun x => { x with withheld := x.withheld + 1 }) s
    else returnCredits q 1 s
  pacedLeave q s

/-- Take the entries that satisfy a test out of a queue; freed cells return to the pool. -/
def removeEntries (q : Nat) (p : QEntry → Bool) (s : State) : State :=
  let x := queueOf s q
  let ring := (x.entries.filter (fun e => p e && e.cell.isNone)).length
  let s := modQueue q (fun x =>
    { x with entries := x.entries.filter (fun e => !p e), rp := (x.rp + ring) % 1024 }) s
  holdEval (drainCheck q s)

/-- Take the oldest entry that satisfies a test. -/
def takeEntry (q : Nat) (p : QEntry → Bool) (s : State) : State :=
  let x := queueOf s q
  let ring := match x.entries.find? p with | some e => e.cell.isNone | none => false
  let s := modQueue q (fun x =>
    { x with entries := ldel p x.entries, rp := if ring then (x.rp + 1) % 1024 else x.rp }) s
  holdEval (drainCheck q s)

/-- The index of a queue's i-th oldest entry as records give it (R171): the 9-bit ring index, or the cell of an entry that
lies in the pool (DESIGN CHOICE, log entry 163). -/
def entryIndex (x : Queue) (i : Nat) (e : QEntry) : Nat :=
  match e.cell with
  | some c => c
  | none => (x.rp + ((x.entries.take i).filter (fun y => y.cell.isNone)).length) % 512

/-- An uncorrectable word of an entry is counted, and a ring stops dequeuing (R154 step 1). -/
def ringUeCount (ag q i word : Nat) (e : QEntry) (s : State) : State :=
  let x := entryIndex (queueOf s q) i e
  let s := satInc (F.QF_Q_ERR_UE q) s |> mempUe 3 (if e.cell.isSome then 18 else q) (16 * x + word) ag
  if e.cell.isSome then s
  else modQueue q (fun y => { y with stopped := true }) (sed 0x0201 sERROR 1 q x word s)

/-- A queue's oldest entry is read as it is dequeued: `bad` is the outcome of its uncorrectable word. -/
def frontRead (q : Nat) (bad : Nat → State → State) (s : State) : State :=
  let x := queueOf s q
  match x.entries with
  | [] => s
  | e :: _ =>
    match e.cell with
    | some c => mempReadWith 3 18 (16 * c) 16 agRequest (fun w s => bad (w % 16) s) s
    | none => mempReadWith 3 q (x.rp % 512 * 16) 16 agRequest (fun w s => bad (w % 16) s) s

/-! ### Egress (R145, R157, R164) -/

/-- A read response in its queue has an uncorrectable data word: it goes out with poison (R155), unless it did already. -/
def drsUpset (q : Nat) (e : QEntry) (s : State) : State :=
  if e.poison then s else
  modQueue q (fun x => { x with entries := lmod (fun y => y == e) (fun y => { y with poison := true }) x.entries })
      (count 0x09 (q / 4) 1 (satInc (F.HP_CNT_POISON_COUNT (q / 4)) s))
    |> sed 0x0206 sERROR 1 (q / 4) (e.line % 2 ^ 32) 2
    |> sed 0x0130 sNOTICE 0 (q / 4) (e.line % 2 ^ 32) 2

/-- The dequeue of an egress entry meets an uncorrectable word (R155): a completion is rebuilt from the tracker. -/
def egressBad (q word : Nat) (s : State) : State :=
  match (queueOf s q).entries with
  | [] => s
  | e :: _ =>
    let s := ringUeCount agRequest q 0 word e s
    if e.kind = .drs ∧ 2 ≤ word ∧ word ≤ 10 then drsUpset q e s else s

/-- The request whose response is presented leaves the tracker (R147); the Sounding port considers it (R684): every
2^RATE-th request of the filter, when its latency, which the model does not count, is at least MIN_LAT. -/
def trackEnd (h tag : Nat) (s : State) : State :=
  match s.tracker.find? (fun x => x.head == h && x.tag == tag) with
  | none => s
  | some x =>
    let s := mempReadWith 4 h (2 * x.slot) 2 agRequest (fun w s => mempUe 4 h w agRequest s) s
    let s := { s with
      tracker := ldel (fun x => x.head == h && x.tag == tag) s.tracker
      obs := { s.obs with flying := lmod (fun f => f.head == h && f.seq == tag && !f.ended) (fun f => { f with ended := true }) s.obs.flying } }
    if !((fld s F.OBS_SND_FILT_HEADS).testBit h && (fld s F.OBS_SND_FILT_KINDS).testBit x.kind && sndTakes s 2) then s
    else if s.obs.sndRate + 1 < 2 ^ fld s F.OBS_SND_FILT_RATE then { s with obs := { s.obs with sndRate := s.obs.sndRate + 1 } }
    else
      let (lat, s) := draw 32 { s with obs := { s.obs with sndRate := 0 } }
      if lat.toNat < fld s F.OBS_SND_LAT_MIN_LAT then s
      else
        let path := if x.path = 255 then (if x.kind = 1 then 9 else 0) else x.path
        let line := if obsLevel s = 1 then x.line / 64 * 64 else x.line
        sndPush 2 0 (le 1 h ++ le 1 x.kind ++ le 1 path ++ le 2 x.key ++ le 6 line ++ le 4 lat.toNat ++ zeros 1) s

/-- Present what the host's S2M credits allow, oldest first; fuel is the queue's length. -/
def presentQ (q fuel : Nat) (s : State) : State :=
  match fuel with
  | 0 => s
  | n + 1 =>
    let h := q / 4
    let hd := headOf s h
    let ndr := q % 4 == 2
    if (queueOf s q).stopped || (if ndr then hd.ndrCredit == 0 else hd.drsCredit == 0) || !bit s (F.HP_LINK_STAT_UP h) then s else
    let s := frontRead q (egressBad q) s
    let x := queueOf s q
    match x.entries with
    | [] => s
    | e :: _ =>
      if x.stopped then s else
      let s := takeEntry q (fun _ => true) s
      let s := modHead h (fun x =>
        if ndr then { x with ndrCredit := x.ndrCredit - 1 } else { x with drsCredit := x.drsCredit - 1 }) s
      let s := trackEnd h e.tag (emit (if ndr then .ndr h e.tag else .drs h e.tag e.data e.poison) s)
      let s := if decide ((queueOf s q).occ ≤ egrLo s h) then modQueue q (fun x => { x with paced := false }) s else s
      presentQ q n s

/-- Present a head's responses. -/
def present (h : Nat) (s : State) : State :=
  presentQ (eqDrs h) (queueOf s (eqDrs h)).occ (presentQ (eqNdr h) (queueOf s (eqNdr h)).occ s)

/-- A blank entry of a kind. -/
def QEntry.blank (k : QKind) (tag : Nat) : QEntry :=
  { kind := k, poison := false, tag := tag, arrival := 0, key := 0, line := 0, data := 0, mask := 0, cell := none,
    rseq := 0, ideOk := true, rej := 0, resync := false, plumb := none }

/-- Give a response to its egress queue, using the entry that was reserved at issue (R145). -/
def respond (h : Nat) (e : QEntry) (s : State) : State :=
  let q := if e.kind == .ndr then eqNdr h else eqDrs h
  let s := modQueue q (fun x => { x with promised := x.promised - 1 }) s
  let s := enqueue q e s
  let s := if decide (egrHi s h ≤ (queueOf s q).occ) then modQueue q (fun x => { x with paced := true }) s else s
  present h s

/-- A write's completion. -/
def respondNdr (h tag : Nat) (s : State) : State := respond h (QEntry.blank .ndr tag) s

/-- A read's data; poison counts, and names its cause, the item of R110 (R142). -/
def respondDrs (h tag line cause : Nat) (d : Line) (poison : Bool) (s : State) : State :=
  let (s, bad) := busWord 1 agRequest s
  let cause := if bad && !poison then 2 else cause
  let poison := poison || bad
  let s := if poison then
      satInc (F.HP_CNT_POISON_COUNT h) s |> count 0x09 h 1
        |> sed 0x0130 sNOTICE 0 h (line % 2 ^ 32) cause
    else s
  let mark : Sample → Sample := fun f => { f with poison := poison }
  let s := { s with obs := { s.obs with flying := lmod (fun f => f.head == h && f.seq == tag && !f.ended) mark s.obs.flying } }
  respond h { QEntry.blank .drs tag with data := d, poison := poison, line := line } s

/-- An egress entry can be reserved: the queue takes issues (R157) and has room for it with those promised (R145). -/
def canReserve (s : State) (q : Nat) : Bool :=
  let x := queueOf s q
  !x.paced && decide (x.occ + x.promised < 512)

/-- Reserve an egress entry. -/
def reserveOut (q : Nat) (s : State) : State := modQueue q (fun x => { x with promised := x.promised + 1 }) s

/-! ### Resets of a head's queues (R168, R169) -/

/-- Discard every entry of head h's queues, clear withheld credits and return the queues to OPEN (R169); the credits
the host held die with the link. -/
def clearHeadQueues (h : Nat) (s : State) : State :=
  let s := { s with tracker := s.tracker.filter (fun x => x.head != h) }
  forEach [iqReq h, iqRwd h, eqNdr h, eqDrs h] (fun q s =>
    let s := modQueue q (fun x => { x with
      paced := false, withheld := 0, credits := 0, recent := false, promised := 0
      stopped := match x.test with | .retest => x.stopped | _ => x.stopped }) s
    removeEntries q (fun _ => true) s) s

/-- Discard the writes of a head's ingress queue that satisfy a test, with no completion (R167, R168): their credits follow
the pacing rule. -/
def dropWrites (h : Nat) (p : QEntry → Bool) (s : State) : State :=
  let gone := (queueOf s (iqRwd h)).entries.filter p
  let tags := gone.map (·.tag)
  let s := removeEntries (iqRwd h) p
    { s with tracker := s.tracker.filter (fun x => !(x.head == h && x.kind != 0 && tags.contains x.tag)) }
  forEach gone (fun _ s => freeIngress (iqRwd h) s) s

/-- A queued read that INTEGRITY HALT or a flush ends: its mark is the cause of its poison (R110 items 6 and 7). -/
def readEnds (e : QEntry) : Bool := e.rej == 6 || e.rej == 7

/-- Complete the oldest ended reads with poison while the egress queue has room for them (R145, R167, R168); fuel is the
queue's length. -/
def endReads (fuel h : Nat) (s : State) : State :=
  match fuel with
  | 0 => s
  | n + 1 =>
    match (queueOf s (iqReq h)).entries with
    | e :: _ =>
      if !readEnds e || !canReserve s (eqDrs h) then s else
      let s := reserveOut (eqDrs h) (freeIngress (iqReq h) (takeEntry (iqReq h) (fun _ => true) s))
      endReads n h (respondDrs h e.tag e.line e.rej 0 true s)
    | [] => s

/-- The queued reads of a head complete with poison of a cause. -/
def poisonReads (cause h : Nat) (s : State) : State :=
  let s := modQueue (iqReq h) (fun x => { x with entries := x.entries.map (fun e => { e with rej := cause }) }) s
  endReads (queueOf s (iqReq h)).occ h s

/-- INTEGRITY HALT ends the ingress entries: queued writes are discarded, queued reads complete with poison (R168). -/
def endIngress (cause h : Nat) (s : State) : State := poisonReads cause h (dropWrites h (fun _ => true) s)

/-! ### Watermark levels applied live (R159) -/

/-- Re-evaluate every queue against the levels in force (R159). -/
def reLevel (s : State) : State :=
  let s := forEach (queuesOn s) (fun q s => pacedEnter q (pacedLeave q s)) s
  let s := forEach ((queuesOn s).filter isEgress) (fun q s =>
    let x := queueOf s q
    if x.paced && decide (x.occ ≤ egrLo s (q / 4)) then modQueue q (fun x => { x with paced := false }) s
    else if !x.paced && decide (egrHi s (q / 4) ≤ x.occ) then modQueue q (fun x => { x with paced := true }) s
    else s) s
  holdEval s

end Sys2Proof.Machine
end

