-- ==== Sys2Proof/Machine/PlumbCore.lean ====
section
/-! DEFINITION. The Plumb sampler's part in a request (R675 to R678): selection at acceptance, the path the request took,
and samples kept or ended. -/

namespace Sys2Proof.Machine

/-- Draw the next countdown: uniform over 1 to 2^(RATE+1) - 1 from Plumb's LFSR, whose state no path can read (R675): a
free value. -/
def plumbReload (s : State) : State :=
  let (v, s) := draw 32 s
  let n := 2 ^ (fld s F.OBS_PLUMB_CTL_RATE + 1) - 1
  { s with obs := { s.obs with lfsr := v, countdown := 1 + v.toNat % n } }

/-- A request of a kind (0 read, 1 full write, 2 partial write) passes the filter (R675). -/
def plumbPasses (s : State) (h kind key : Nat) : Bool :=
  s.obs.active && (fld s F.OBS_PLUMB_FILT_HEADS).testBit h && (fld s F.OBS_PLUMB_FILT_KINDS).testBit kind &&
  (!bit s F.OBS_PLUMB_FILT_KIDX_EN || fld s F.OBS_PLUMB_FILT_KIDX == key)

/-- The path field of a sample whose path is not known yet. -/
def pathOpen : Nat := 255

/-- Count a request at stage 2 and select it when the countdown expires, unless four are in flight (R675, R676). -/
def plumbSelect (h kind tag key line hpa occ : Nat) (s : State) : State :=
  if !plumbPasses s h kind key then s
  else if 1 < s.obs.countdown then { s with obs := { s.obs with countdown := s.obs.countdown - 1 } }
  else
    let s := plumbReload s
    if 4 ≤ s.obs.flying.length then satInc F.OBS_PLUMB_STAT_MISSED s
    else
      let lvl := obsLevel s
      let cut := fun n => if lvl = 1 then n / 64 * 64 else n
      let cyc := (Config.cycle s.fresh).val
      let x : Sample := ⟨tag, h, kind, false, fld s (F.HP_IDE_STAT_STATE h) == 1, false, pathOpen, key, cut line,
        (if lvl = 1 then hpa / 4096 * 64 else hpa / 64), 0, s.tick.count, cyc, 0, occ, lvl, false⟩
      { s with fresh := s.fresh + 1, obs := { s.obs with flying := s.obs.flying ++ [x] } }

/-- Note the path that a request took, when it is followed and its path is not known yet (R677). -/
def plumbPath (h tag path media : Nat) (s : State) : State :=
  { s with
    tracker := s.tracker.map (fun x => if x.head = h ∧ x.tag = tag ∧ x.path = pathOpen then { x with path := path } else x)
    obs := { s.obs with flying := s.obs.flying.map (fun x =>
      if x.head = h ∧ x.seq = tag ∧ x.path = pathOpen ∧ x.ended = false then { x with path := path, media := media } else x) } }

/-- Keep a sample in the ring of 256 (R679). -/
def plumbKeep (x : Sample) (s : State) : State :=
  if 256 ≤ s.obs.ring.length then satInc F.OBS_PLUMB_STAT_LOST s
  else
    let x := { x with seq := s.obs.sampleSeq % 65536, path := if x.path = pathOpen then (if x.kind = 1 then 9 else 0) else x.path }
    let s := { s with obs := { s.obs with
      ring := s.obs.ring ++ [x], sampleSeq := (s.obs.sampleSeq + 1) % 65536, kept := s.obs.kept + 1 } }
    if s.obs.ring.length = 256 ∧ s.obs.fullSaid = false then
      sed 0x1002 sNOTICE 15 256 (fld s F.OBS_PLUMB_CTL_OWNER) 0 { s with obs := { s.obs with fullSaid := true } }
    else s

/-- Samples of a head's requests that a reset, a link loss or INTEGRITY HALT ends are kept with path 15 (R680); the latency
of such a sample is free (log entry 138). -/
def plumbAbort (h : Nat) (s : State) : State :=
  let p : Sample → Bool := fun x => x.head == h && !x.ended
  let mine := s.obs.flying.filter p
  let s := { s with obs := { s.obs with flying := s.obs.flying.filter (fun x => !p x) } }
  forEach mine (fun x s =>
    let (v, s) := draw 32 s
    plumbKeep { x with path := 15, latency := v.toNat } s) s

end Sys2Proof.Machine
end

