-- ==== Sys2Proof/Machine/NrwSend.lean ====
section
/-! DEFINITION. Narrows forwarding at the persist point (R636 to R640): the frame a change makes, the links it goes to,
and a completion that waits for acknowledgements in SYNC. -/

namespace Sys2Proof.Machine

def NLink.init : NLink :=
  { st := 0, width := 0, holdIn := false, holdSince := 0, holdOut := false, send := [], session := 0, txFrames := 0,
    peer := 0 }

def NMem.init : NMem :=
  { st := 0, pos := 0, cause := 0, ack := 0, ginc := 0, isPrimary := false, synced := false, seen := false, bits := none,
    full := none, resyncStart := 0, startRegions := 0, regionEnd := [] }

def linkOf (s : State) (n : Nat) : NLink := tget NLink.init s.nrw.links n
def modLink (n : Nat) (f : NLink → NLink) (s : State) : State :=
  { s with nrw := { s.nrw with links := tmod NLink.init n f s.nrw.links } }
def memOf (s : State) (p : Nat) : NMem := tget NMem.init s.nrw.mems p
def modMem (p : Nat) (f : NMem → NMem) (s : State) : State :=
  { s with nrw := { s.nrw with mems := tmod NMem.init p f s.nrw.mems } }

/-- The NARROWS record, own position, devices on the board. -/
def cfgNrw (s : State) : Option NarrowsCfg := s.cfg.bind (·.narrows)
def ownPos (s : State) : Nat := match s.cfg with | some c => c.pos | none => 0
def boardCount (s : State) : Nat := match s.cfg with | some c => c.count | none => 1
def linkEnabled (s : State) (n : Nat) : Bool := match cfgNrw s with | some c => nrwOn s && c.linkEn.testBit n | none => false

/-- The other members' positions. -/
def peers (s : State) : List Nat := match cfgNrw s with | some c => c.members.filter (fun p => p != ownPos s) | none => []

/-- The link that leads to a member for a line (R628, R639): the one that faces it; on a pair joined by both links the
reach's parity chooses; a member farther along the chain lies behind the member between. -/
def linkTo (s : State) (p line : Nat) : Nat :=
  let n := boardCount s
  let fwd := (ownPos s + 1) % n == p
  let bwd := (p + 1) % n == ownPos s
  if fwd && bwd then
    (if linkEnabled s 0 && linkEnabled s 1 then line / 1024 % 2 else if linkEnabled s 0 then 0 else 1)
  else if fwd then 0 else if bwd then 1
  else match cfgNrw s with
    | some c => if c.members.idxOf (ownPos s) < c.members.idxOf p then 0 else 1
    | none => 0

/-- The group is formed and this device is PRIMARY (R631). -/
def nrwPrimary (s : State) : Bool := nrwOn s && decide (2 ≤ s.nrw.group) && s.nrw.grp.isPrimary
/-- The group is formed and this device is a REPLICA: every region is RO for hosts (R636). -/
def nrwReplica (s : State) : Bool := nrwOn s && decide (2 ≤ s.nrw.group) && !s.nrw.grp.isPrimary

/-- Line a frame's change is about. -/
def FrameBody.line (b : FrameBody) : Nat :=
  match b with | .write _ l _ _ _ => l | .zero _ l _ => l | .release l => l | .bitmap f _ => f

/-- Set the bit of a region in every bitmap kept for a FENCED member (R651); a RESYNC member receives live changes
(R652; log entry 74). -/
def bitmapMark (line : Nat) (s : State) : State :=
  { s with nrw := { s.nrw with mems := s.nrw.mems.map (fun e =>
      if e.2.st = 3 then
        (e.1, { e.2 with bits := e.2.bits.map (fun l => if l.contains (line / 16384) then l else l ++ [line / 16384]) })
      else e) } }

/-! ### Sending (R635, R637, R643) -/

/-- TYPE of a change's frame (R635). -/
def FrameBody.type (b : FrameBody) : Nat :=
  match b with | .write _ _ _ _ _ => 1 | .zero _ _ _ => 2 | .release _ => 3 | .bitmap _ _ => 5

/-- Frames run on a link: its session is up, no halt is in force (R663), and Narrows is not stopped (R660, R661). -/
def linkRuns (s : State) (n : Nat) : Bool :=
  linkEnabled s n && (linkOf s n).st == 3 && !inHalt s && coreOn s && !s.pwr.stopped.contains 15

/-- A frame starts on a link (R635). -/
def nrwFrame (n type pos rseq : Nat) (relay : Bool) (b : Option FrameBody) (s : State) : State :=
  if !linkRuns s n then s else
  let s := modLink n (fun l => { l with txFrames := l.txFrames + 1 }) s
  emit (.frame n type pos rseq relay b) (satInc (F.NRW_LINK_CNT_FRAMES n) (count 0x60 n 1 s))

/-- Start every frame of a link's send list that has not been sent, in RSEQ order, unless the peer's hold is low (R643). -/
def nrwSend (n : Nat) (s : State) : State :=
  if !linkRuns s n || (linkOf s n).holdIn then s else
  let l := (linkOf s n).send
  let s := forEach (l.filter (fun c => c.sent.isNone && !c.bad)) (fun c s =>
    nrwFrame n c.body.type (ownPos s) c.rseq (!s.nrw.grp.isPrimary) (some c.body) s) s
  modLink n (fun x => { x with send := x.send.map (fun c =>
    if c.sent.isNone && !c.bad then { c with sent := some s.tick.count } else c) }) s

/-- SYNCED becomes 0 before the first change that the device forwards or applies after a start (R662). -/
def nrwUnsync (s : State) : State :=
  if !s.nrw.grp.synced || !nrwOn s then s else
  let g := { s.nrw.grp with synced := false }
  gPut (G.param 12) (.group g) false none .none { s with nrw := { s.nrw with grp := g } }

/-- Queue a frame for the members that are to receive it, one cell for each link (R637). -/
def nrwQueue (rseq : Nat) (b : FrameBody) (dst : List Nat) (s : State) : State :=
  forEach [0, 1] (fun n s =>
    let serves := dst.filter (fun p => linkTo s p b.line == n)
    if serves.isEmpty then s
    else nrwSend n (modLink n (fun l => { l with send := l.send ++ [⟨rseq, b, serves, none, false⟩] }) s)) s

/-- Forward a change of a host line at its persist point (R636, R637); the answer is its RSEQ. -/
def nrwForward (b : FrameBody) (s : State) : State × Option Nat :=
  if !nrwPrimary s then (s, none) else
  let r := s.nrw.rseq
  let s := nrwUnsync { s with nrw := { s.nrw with rseq := (r + 1) % 2 ^ 56 } }
  let dst := (peers s).filter (fun p => (memOf s p).st == 1 || (memOf s p).st == 2)
  (bitmapMark b.line (nrwQueue r b dst s), some r)

/-- A forwarded write waits in SYNC for every IN_SYNC member (R640). -/
def nrwSync (s : State) : List Nat :=
  match cfgNrw s with
  | some c => if nrwPrimary s && !c.async then (peers s).filter (fun p => (memOf s p).st == 1) else []
  | none => []

/-- Present a write's completion, or hold it for the acknowledgements (R166, R640). -/
def completeWrite (h tag : Nat) (rseq : Option Nat) (s : State) : State :=
  match rseq, nrwSync s with
  | some r, p :: rest =>
    let mark : Sample → Sample := fun f => { f with sync := true }
    { s with
      nrw := { s.nrw with waits := s.nrw.waits ++ [⟨h, tag, r, p :: rest⟩] }
      obs := { s.obs with flying := lmod (fun f => f.head == h && f.seq == tag && !f.ended) mark s.obs.flying } }
  | _, _ => respondNdr h tag s

/-- The primary issues no forwarded change: a send list is full (R644), or it is giving up its role (R658). -/
def nrwBlocked (s : State) : Bool :=
  nrwPrimary s && ([0, 1].any (fun n => decide (512 ≤ (linkOf s n).send.length)) ||
    (match s.nrw.handoff with | some (_, asked) => !asked | none => false))

/-- The primary may not accept host writes: no IN_SYNC member and SOLO 0 (R649). -/
def nrwReadOnly (s : State) : Bool := nrwReplica s || (nrwPrimary s && s.nrw.group == 4)

/-! ### Reads of a member being resynced (R654) -/

/-- A host read of a line whose region is still set in the received bitmap is fetched from the source. -/
def fetchWanted (s : State) (line head : Nat) : Bool :=
  decide (head < 4) && s.nrw.stale && !s.nrw.diverged && nrwReplica s && s.nrw.recvBits.contains (line / 16384)

/-- The fetch entry, with FETCH sent once. -/
def nrwFetch (line : Nat) (s : State) : State :=
  if s.nrw.fetches.contains line then s else
  let s := { s with nrw := { s.nrw with fetches := s.nrw.fetches ++ [line] } }
  nrwFrame (linkTo s s.nrw.grp.primary line) 0x04 (ownPos s) 0 false (some (.release line)) s

end Sys2Proof.Machine
end

