-- ==== Sys2Proof/Machine/Lines.lean ====
section
/-! DEFINITION. Device lines: decoders and regions (R98 to R104, R730), key contexts as requests see them (R105), the
poison list (R112), and the translation layer's map from a line to its media copy (R268 to R277). -/

namespace Sys2Proof.Machine

/-! ### Line numbers (R268) -/

/-- Number of exported lines E. -/
def lineEnd (s : State) : Nat := if s.variant = 0 then 0x1800000000 else 0xC00000000
/-- First internal line past the last (R268). -/
def internalEnd (s : State) : Nat := lineEnd s + 0x14000
def isInternal (s : State) (l : Nat) : Bool := decide (lineEnd s ≤ l)
/-- Reach of a line: its number shifted right by 10. -/
def reachOf (l : Nat) : Nat := l / 1024

/-! ### Decoders and regions -/

/-- Interleave ways and granularities that decoders support (R98). -/
def decoderOk (d : Decoder) : Bool :=
  [1, 2, 3, 4, 6, 8, 12, 16].contains d.ways && [256, 512, 1024, 2048, 4096, 8192, 16384].contains d.gran &&
  decide (0 < d.size)

/-- DPA range of decoder n: it starts after the skip that follows the ranges of the decoders below it. -/
def decoderBase (l : Tbl Decoder) (n : Nat) : Nat :=
  l.foldl (fun a e => if e.1 < n then a + e.2.skip + e.2.size / e.2.ways else if e.1 = n then a + e.2.skip else a) 0

/-- HPA to DPA through a head's committed decoders (R101 step 2): the interleave fields are removed. -/
def hdmDecode (s : State) (h hpa : Nat) : Option Nat :=
  let l := (headOf s h).decoders
  match l.find? (fun e => decide (e.2.base ≤ hpa) && decide (hpa < e.2.base + e.2.size)) with
  | some (n, d) =>
    let o := hpa - d.base
    some (decoderBase l n + o / (d.gran * d.ways) * d.gran + o % d.gran)
  | none => none

/-- 256 MiB in bytes and in lines. -/
def unitBytes : Nat := 0x10000000
def unitLines : Nat := 0x400000

/-- A region contains a line. -/
def Region.has (r : Region) (line : Nat) : Bool :=
  decide (r.base * unitLines ≤ line) && decide (line < (r.base + r.len) * unitLines)

/-- Head h's region that contains a line. -/
def regionOf (s : State) (h line : Nat) : Option Region := (cfgRegions s).find? (fun r => r.head == h && r.has line)

/-- A DPA range in bytes lies wholly inside the union of regions; fuel is the number of regions. -/
def covered (l : List Region) (fuel a b : Nat) : Bool :=
  if b ≤ a then true else
  match fuel with
  | 0 => false
  | n + 1 =>
    match l.find? (fun r => decide (r.base * unitBytes ≤ a) && decide (a < (r.base + r.len) * unitBytes)) with
    | some r => covered l n ((r.base + r.len) * unitBytes) b
    | none => false

/-- A DPA range lies in the regions of a head; for the Tuten port, in those of some enabled head (R100, R198). -/
def inRegions (s : State) (path a b : Nat) : Bool :=
  let inHead := fun (h : Nat) => covered (headRegions s h) (headRegions s h).length a b
  if isHead path then inHead path else (headsOn s).any inHead

/-- A node's subtree is EXHAUSTED (R346) or quarantined (R349): level k covers 2^(6+4k) lines. -/
def nodeCovers (level index line : Nat) : Bool := line / 2 ^ (6 + 4 * level) == index
def quarantined (s : State) (line : Nat) : Bool := s.icu.quar.any (fun q => nodeCovers q.level q.index line)
def exhausted (s : State) (line : Nat) : Bool :=
  (match tfind s.icu.tree.leaves (line / 64) with | some l => l.exhausted | none => false) ||
  (List.range 8).any (fun k =>
    match tfind s.icu.tree.uppers ((k + 1) * 2 ^ 40 + line / 2 ^ (6 + 4 * (k + 1))) with | some u => u.exhausted | none => false)

/-- The translation layer takes no more host writes (R304). -/
def mtlReadOnly (s : State) : Bool := fld s F.MTL_STAT_STATE == 2

/-- Lines that the device handles as RO for every path: READ_ONLY, a replica or a primary without SOLO, quarantine,
exhausted counters (R304, R346, R349, R636, R649). -/
def deviceRo (s : State) (line : Nat) : Bool :=
  mtlReadOnly s || nrwReadOnly s || quarantined s line || exhausted s line

/-- A line lies in an RO region for an access path (R730). -/
def roLine (s : State) (path line : Nat) : Bool :=
  if isHead path then (match regionOf s path line with | some r => r.ro | none => false)
  else
    let l := (cfgRegions s).filter (fun r => headOn s r.head && r.has line)
    !l.isEmpty && l.all (·.ro)

/-! ### Key contexts -/

def Ctx.init : Ctx := { st := .empty, cur := none, new := none, job := false, seq := 0 }
def ctxOf (s : State) (k : Nat) : Ctx := tget Ctx.init s.vault.ctxs k

/-- The context of a key index holds a key for requests: not EMPTY or LOST, and not under a purge (R105, R204). -/
def keyHolds (s : State) (k : Nat) : Bool :=
  decide (k < keyLimit s) && !s.icu.purged.contains k && (ctxOf s k).cur.isSome

/-! ### Poison list (R112) -/

def inPoisonList (s : State) (line : Nat) : Bool := s.poison.ents.any (fun e => e.line == line)

/-- A line becomes poisoned: 0 external, 1 internal, 2 injected. -/
def poisonAdd (line src : Nat) (s : State) : State :=
  if inPoisonList s line then s
  else if s.poison.ents.length < 1024 then
    { s with poison := { s.poison with ents := s.poison.ents ++ [⟨line, src⟩] } }
  else
    { s with poison := { s.poison with
        overflow := true, overflowAt := if s.poison.overflow then s.poison.overflowAt else nanos s } }
      |> sed 0x0133 sWARNING 0 s.poison.ents.length (line % 2 ^ 32) 0

def poisonDel (line : Nat) (s : State) : State :=
  { s with poison := { s.poison with ents := s.poison.ents.filter (fun e => e.line != line) } }

/-! ### The map (R272 to R277) -/

/-- Where the map says a line is (R276): zeros, poison, or slot `idx` of sector `sector` on data page `q` of a set. -/
inductive Loc where
  | zero
  | poison
  | at_ (set q idx : Nat)
deriving DecidableEq, Repr

/-- Deeps location of an offset in a reach slot (R274); the line is number o mod 64 of the page. -/
def deepsLoc (set slot o : Nat) : Loc := .at_ set (16 * slot + o / 64) (o % 64)

/-- Set number of a Shallows set index. -/
def setOfSset (m : MapState) (x : Nat) : Option Nat :=
  (m.sets.find? (fun e => e.2.kind == 0 && e.2.sset == x)).map (·.1)

/-- Shallows location of a line slot (R274). -/
def shallowsLoc (m : MapState) (sset slot : Nat) : Loc :=
  match setOfSset m sset with | some n => .at_ n (slot / 56) (slot % 56) | none => .poison

def fineFind (s : State) (l : Nat) : Option FineEnt :=
  (tget [] s.mtl.map.fine (fineBucket s l)).find? (fun e => e.tag == fineTag s l)

/-- Location a reach-map entry gives for an offset. -/
def reachLoc (e : Option (Nat × Nat)) (o : Nat) : Loc := match e with | some (set, slot) => deepsLoc set slot o | none => .zero

/-- The lookup of R276, with what R271 says of entries lost in both copies. -/
def mtlLookup (s : State) (l : Nat) : Loc :=
  let m := s.mtl.map
  if s.mtl.lost.contains (1, fineBucket s l) || s.mtl.lost.contains (0, reachOf l) then .poison else
  match fineFind s l with
  | some e => if e.poison then .poison else shallowsLoc m e.sset e.slot
  | none =>
    match tfind m.reachMap (reachOf l) with
    | none => .zero
    | some (.deeps set slot) => deepsLoc set slot (l % 1024)
    | some (.merge r) =>
      if s.mtl.lost.contains (2, r) then .poison else
      match tfind m.merge r with
      | none => .zero
      | some k =>
        match k.ents.find? (fun e => e.off == l % 1024) with
        | some e => if e.poison then .poison else shallowsLoc m e.sset e.slot
        | none => reachLoc k.deeps (l % 1024)

/-- The map entry of a line lost in both copies (R271): kind and index. -/
def lostEntry (s : State) (l : Nat) : Option (Nat × Nat) :=
  match fineFind s l with
  | some _ => some (1, fineBucket s l)
  | none => match tfind s.mtl.map.reachMap (reachOf l) with
    | some (.merge r) => some (2, r)
    | some _ => some (0, reachOf l)
    | none => none

/-- An access to a line's map entry meets an error (R271): one copy is rewritten from the other; both lost poison every
line of the entry. -/
def mapUpsetBy (ag inst word line : Nat) (up : Upset) (s : State) : State :=
  match up with
  | .mapUe => satInc F.MTL_ERR_MAP_UE (mempUe 12 inst word ag s)
  | .mapBoth =>
    let e := (lostEntry s line).getD (0, reachOf line)
    let s := if s.mtl.lost.contains e then s else { s with mtl := { s.mtl with lost := s.mtl.lost ++ [e] } }
    satInc F.MTL_ERR_MAP_LOST (mempUe 12 inst word ag s) |> sed 0x0501 sCRITICAL 6 e.1 e.2 0
  | _ => s

/-- The same for an access that serves a request; the stack is the line's (log entry 42). -/
def mapUpset (line : Nat) (up : Upset) (s : State) : State := mapUpsetBy agRequest (line % 2) line line up s

end Sys2Proof.Machine
end

