-- ==== Sys2Proof/Machine/Halt.lean ====
section
/-! DEFINITION. INTEGRITY HALT (R352 to R356), the end of a line command (R200), and the purge of a key context's lines
(R204): what one unit's failure does to the cache and the queues. -/

namespace Sys2Proof.Machine

/-! ### Slices as data -/

def Slice.init : Slice :=
  { amq := [], merge := [], eb := [], cove := [], lfsr := 1, cleanPos := 0, cleaning := false, lastCleaner := false }

def sliceOf (s : State) (n : Nat) : Slice := tget Slice.init s.slices n
def modSlice (n : Nat) (f : Slice → Slice) (s : State) : State := { s with slices := tmod Slice.init n f s.slices }

/-- Slice, set and tag of a line (R173). -/
def sliceNo (a : Nat) : Nat := 16 * (a % 3) + ((a % 16) ^^^ (a / 2 ^ 16 % 16) ^^^ (a / 2 ^ 32 % 16))
def setNo (a : Nat) : Nat := (a / 2 ^ 4 % 4096) ^^^ (a / 2 ^ 20 % 4096) ^^^ (a / 2 ^ 36 % 4096)
def tagNo (a : Nat) : Nat := a / 2 ^ 16 % 2 ^ 32

/-- The line that a way of a slice and set holds, from its tag (R173: the mapping is one-to-one). -/
def lineOfTag (slice set tag : Nat) : Nat :=
  let hi := tag * 2 ^ 16
  let mid := set ^^^ (hi / 2 ^ 20 % 4096) ^^^ (hi / 2 ^ 36 % 4096)
  let low := (slice % 16) ^^^ (hi / 2 ^ 16 % 16) ^^^ (hi / 2 ^ 32 % 16)
  hi + mid * 16 + low

/-- Key of a way in the table of ways. -/
def wayKey (slice set way : Nat) : Nat := (slice * 4096 + set) * 16 + way
/-- The line held by the way at a key. -/
def lineOfWay (k : Nat) (w : Way) : Nat := lineOfTag (k / 65536) (k / 16 % 4096) w.tag

def Way.init : Way := { tag := 0, key := 0, poison := false, pin := false, st := .invalid, data := 0 }

/-- Dirty lines of a slice and of the cache (R208). -/
def dirtyIn (s : State) (n : Nat) : Nat := (s.ways.filter (fun e => e.1 / 65536 == n && e.2.st == .dirty)).length
def dirtyLines (s : State) : Nat := (s.ways.filter (fun e => e.2.st == .dirty)).length

/-! ### Line commands (R200) -/

/-- A replica write has reached its persist point: the highest RSEQ persisted (R638). -/
def replicaDone (rseq : Nat) (s : State) : State :=
  { s with nrw := { s.nrw with persisted := max s.nrw.persisted rseq, unacked := s.nrw.unacked + 1 } }

/-- A line of a line command is complete (R196). -/
def lcDone (path line : Nat) (s : State) : State :=
  { s with lcmds := s.lcmds.map (fun e =>
      if e.1 = path ∧ e.2.inFlight.contains line then
        (e.1, { e.2 with
          inFlight := e.2.inFlight.erase line, done := e.2.done + 1, waits := e.2.waits.filter (fun w => w.1 != line) })
      else e) }

/-- A line of a line command waits for the write-back with a write sequence (R196). -/
def lcWait (path line wseq : Nat) (s : State) : State :=
  { s with lcmds := s.lcmds.map (fun e => if e.1 = path then (e.1, { e.2 with waits := e.2.waits ++ [(line, wseq)] }) else e) }

/-- A line of a line command is skipped (R199). -/
def lcSkip (path line result : Nat) (s : State) : State :=
  { s with lcmds := s.lcmds.map (fun e =>
      if e.1 = path ∧ e.2.inFlight.contains line then
        (e.1, { e.2 with
          inFlight := e.2.inFlight.erase line, skipped := e.2.skipped + 1
          result := if e.2.result = 0 then result else e.2.result })
      else e) }

/-- Tell a write's source that it is complete. -/
def writeDone (src : Src) (line : Nat) (rseq : Option Nat) (s : State) : State :=
  match src with
  | .host h t => completeWrite h t rseq s
  | .replica _ r => replicaDone r s
  | .lcmd p => lcDone p line s
  | _ => s

/-- End a path's line command with a result (R196, R200). -/
def lcmdEnd (path result : Nat) (s : State) : State :=
  match tfind s.lcmds path with
  | none => s
  | some c =>
    let s := { s with lcmds := tdel path s.lcmds }
    let s := setF (F.LC_LCMD_CTL_GO path) 0 s |> setF (F.LC_LCMD_STAT_BUSY path) 0
      |> setF (F.LC_LCMD_STAT_RESULT path) result |> setF (F.LC_LCMD_STAT_SKIPPED path) (min c.skipped 65535)
      |> setF (F.LC_LCMD_DONE_LINES path) c.done
    let s := sed 0x0320 sDEBUG 2 (pathCode path) c.op c.done s
    if result ≠ 0 then sed 0x0321 sNOTICE 2 (pathCode path) (c.op * 256 + result) c.skipped s else s

/-! ### INTEGRITY HALT -/

/-- What the report of R356 is built from. -/
structure HaltInfo where
  kind : Nat
  path : Nat
  key : Nat
  ident : Nat
  psa : Option Nat
  major : Nat
  minor : Nat
  gen : Nat
  stored : Nat
  computed : Nat
  head : Option Nat
deriving DecidableEq, Repr

/-- The 64-byte report (R356). -/
def haltReport (i : HaltInfo) (s : State) : List Byte :=
  le 1 i.kind ++ le 1 i.path ++ le 2 i.key ++ le 8 i.ident ++
  (if i.kind = 6 then zeros 26
   else (match i.psa with | some p => le 4 (p % 2 ^ 32) | none => List.replicate 4 0xFF) ++
     le 7 i.major ++ le 2 i.minor ++ le 1 i.gen ++ le 6 i.stored ++ le 6 i.computed) ++
  le 6 s.tick.cal ++ le 8 s.tick.count ++ le 1 (i.head.getD 0xFF) ++
  (match i.psa with | some p => le 1 (p / 2 ^ 32) | none => [0xFF]) ++ zeros 2 ++ zeros 8

/-- TREE_ROOT as the ICU would write it now (R337, R354, R356). -/
def treeRootNow (clean : Bool) (s : State) : TreeRoot :=
  { counters := match tfind s.icu.tree.uppers (8 * 2 ^ 40) with
      | some u => (List.range 16).map (fun k => tget 0 u.counters k)
      | none => List.replicate 16 0
    clean := clean, deferred := s.icu.deferred, nodeSeq := s.icu.nodeSeq, locator := s.icu.locator,
    report := if s.icu.report.isEmpty then zeros 64 else s.icu.report }

/-- Write TREE_ROOT (a priority write, R524). -/
def putTreeRoot (clean : Bool) (s : State) : State :=
  gPut G.treeRoot (.treeRoot (treeRootNow clean s)) true none .treeRoot s

/-- Queues and channels stop on INTEGRITY HALT without a completion (R399, R431); the output ranges of running GCM_DEC
jobs go to ZPEND. -/
def haltRings (s : State) : State :=
  let stop := fun (b : Nat) (f : State → State) (s : State) =>
    if fld s ⟨b + 4, 0, 2⟩ = 1 then f (setF ⟨b + 4, 0, 2⟩ 2 s |> setF ⟨b + 4, 4, 4⟩ 4 |> setF ⟨b + 4, 8, 1⟩ 0) else s
  let s := forEach (List.range 8) (fun q s =>
    stop (Reg.KV_JQ_CFG q) (fun s => sed 0x0732 sERROR 4 q 4 (fld s (F.KV_JQ_CFG_OWNER q)) s) s) s
  let s := forEach (List.range 16) (fun n s =>
    let a := match tfind s.movers n with | some m => m.src / 64 + m.done | none => 0
    stop (Reg.DMV_CH_CFG n) (fun s => sed 0x0820 sERROR 7 n (a % 2 ^ 32) 4 s) s) s
  let z := s.vault.jobs.filterMap (fun e => if e.2.op = 2 then some (⟨e.1, e.2.dst / 64, (e.2.len + 63) / 64, e.2.dstKey⟩ : ZRange) else none)
  let s := { s with movers := [], vault := { s.vault with jobs := [], charged := 0 } }
  if z.isEmpty then s else gPut G.zpend (.zpend (gZpend s ++ z)) false none .none s

/-- Enter INTEGRITY HALT (R353): mode, heads, cache, media, ICU and the record, in one tick. -/
def haltEnter (kind path ident key : Nat) (s : State) : State :=
  let s := setF F.GLB_STATE_MODE 4 s
  let s := forEach (headsOn s) (fun h s =>
    let s := endIngress 6 h (plumbAbort h s)
    -- writes not past their persist point are discarded (R168)
    let unsaved := fun (a : AmqOp) => (a.kind == .full || a.kind == .partialWrite) && !a.persisted &&
      (match a.src with | .host h' _ => h' == h | _ => false)
    let cut := (s.slices.map (fun e => e.2.amq)).flatten.filterMap (fun a =>
      match a.src with | .host _ t => if unsaved a then some t else none | _ => none)
    let s : State := { s with
      slices := s.slices.map (fun e => (e.1, { e.2 with amq := e.2.amq.filter (fun a => !unsaved a) }))
      tracker := s.tracker.filter (fun x => !(x.head == h && x.kind != 0 && cut.contains x.tag)) }
    let waiting := (s.slices.map (fun e => e.2.amq)).flatten.filterMap (fun a =>
      match a.kind, a.src with
      | .read, .host h' t => if h' = h then some (a.line, t) else none
      | _, _ => none)
    let other := fun (a : AmqOp) => match a.kind, a.src with | .read, .host h' _ => h' != h | _, _ => true
    let s := { s with slices := s.slices.map (fun e => (e.1, { e.2 with amq := e.2.amq.filter other })) }
    let s := forEach waiting (fun p s => respondDrs h p.2 p.1 6 0 true s) s
    emit (.headEvent h 0 0) (modHead h (fun x => { x with internalErr := true }) s)) s
  let s := forEach (s.lcmds.map (·.1)) (fun p s => lcmdEnd p 8 s) s
  let s := haltRings s
  let s := setF F.LC_STAT_HALTED 1 s |> setF F.ICU_STAT_STATE 2 |> setF F.MTL_STAT_STATE 3
  let s := sed 0x0610 sFATAL 3 (kind * 256 + path) (ident % 2 ^ 32) key s
  -- a Shoreline stride is abandoned: the job resumes at B after the halt (R365)
  let sh := { s.icu.shore with
    step := 0, delay := false, caps := [], again := [], target := none, jseq := none, waitSeqs := [], adv := [], hotLeft := [], resets := [] }
  { s with icu := { s.icu with shore := sh } }

/-- A further failure in a halt only counts (R353), in ICU_HALT_CAUSE and in bytes 54 and 55 of the report (R356). -/
def furtherFail (s : State) : State :=
  let s := satInc F.ICU_HALT_CAUSE_COUNT s
  let r := s.icu.report
  if r.length = 64 then
    { s with icu := { s.icu with report := sub r 0 54 ++ le 2 (fld s F.ICU_HALT_CAUSE_COUNT) ++ sub r 56 8 } }
  else s

/-- An integrity failure (R352): the first one halts, further ones count (R353); one met in a flush is deferred to the
end of the next start's recovery (R354). `path` is that of R356. -/
def integrityFail (i : HaltInfo) (s : State) : State :=
  if inHalt s then furtherFail s else
  let i := { i with path := if inFlush s then 6 else i.path }
  let s := setF F.ICU_HALT_CAUSE_KIND i.kind s |> setF F.ICU_HALT_CAUSE_PATH i.path
    |> setF F.ICU_HALT_ID_LO_ID (i.ident % 2 ^ 32) |> setF F.ICU_HALT_ID_HI_ID (i.ident / 2 ^ 32)
  let s := { s with icu := { s.icu with report := haltReport i s } }
  if inFlush s then
    let s := setF F.ICU_STAT_HALT_PENDING 1 s |> sed 0x0611 sCRITICAL 3 i.kind (i.ident % 2 ^ 32) 0
    putTreeRoot false { s with icu := { s.icu with deferred := some (i.kind, i.path, i.ident) } }
  else haltEnter i.kind i.path i.ident (i.key % 4096) (putTreeRoot (!s.icu.rootOpen) s)

/-! ### Purge (R204) -/

/-- Remove every line and pending write that satisfies a test of key and line, without write-back; the answer counts the
dirty and the clean lines dropped. Write-backs that were assigned a sequence withdraw it (R279). -/
def purgeWhere (p : Nat → Nat → Bool) (s : State) : State × Nat × Nat :=
  let hit := fun (e : Nat × Way) => e.2.st != .invalid && p e.2.key (lineOfWay e.1 e.2)
  let dirty := (s.ways.filter (fun e => hit e && e.2.st == .dirty)).length
  let clean := (s.ways.filter (fun e => hit e && e.2.st == .clean)).length
  let all := s.slices.map (fun e => e.2)
  let cove := (all.map (fun x => (x.cove.filter (fun c => p c.key c.line)).length)).sum
  let gone := (all.map (fun x => x.eb.filter (fun b => p b.key b.line && !b.passed))).flatten
  let isWrite := fun (a : AmqOp) => match a.kind with | .full | .partialWrite | .zero => true | _ => false
  -- writes whose completions are still due get them (R105)
  let due := (all.map (fun x =>
    (x.amq.filter (fun a => isWrite a && p a.key a.line && (!a.persisted || a.owed))).map (fun a => (a.src, a.line)) ++
    ((x.merge.filter (fun m => p m.key m.line)).map (fun m => m.srcs.map (fun q => (q, m.line)))).flatten)).flatten
  let s := { s with
    ways := s.ways.filter (fun e => !(hit e && e.2.st != .fill))
    slices := s.slices.map (fun e => (e.1, { e.2 with
      amq := e.2.amq.filter (fun a => !(isWrite a && p a.key a.line))
      merge := e.2.merge.filter (fun m => !p m.key m.line)
      eb := e.2.eb.filter (fun b => !(p b.key b.line && !b.passed))
      cove := e.2.cove.filter (fun c => !p c.key c.line) }))
    fills := s.fills.map (fun e => if p e.2.key e.1 then (e.1, { e.2 with dropped := true }) else e)
    mtl := { s.mtl with unplaced := s.mtl.unplaced.filter (fun u => !gone.any (fun b => b.wseq == u.wseq)) } }
  (forEach due (fun d s => writeDone d.1 d.2 none s) s, dirty + gone.length, clean + cove)

/-- Purge a key context (R204). -/
def purgeKey (k : Nat) (s : State) : State :=
  let (s, dirty, clean) := purgeWhere (fun key line => key == k && !isInternal s line) s
  setF F.LC_PURGE_KEYIDX k s |> sed 0x0331 sNOTICE 2 k dirty clean

end Sys2Proof.Machine
end

