-- ==== Sys2Proof/Machine/VaultCore.lean ====
section
/-! DEFINITION. The key ledger (R372) and the alarms of the cipher datapaths (R401, R402): what the inline crypt unit and
the seal engine share of the key vault. -/

namespace Sys2Proof.Machine

/-! ### The ledger (R372) -/

/-- Kinds of ledger entry. -/
def lkCur : Nat := 1
def lkNew : Nat := 2
def lkPromote : Nat := 3
def lkSlot : Nat := 4
def lkKek : Nat := 5
def lkRetire : Nat := 6
def lkEraseAll : Nat := 7
def lkRestore : Nat := 8

/-- Entries of the active area, in LSEQ order. -/
def ledger (s : State) : List LedgerEnt := if (gKeyroot s).area = 0 then s.vault.area0 else s.vault.area1

/-- Bytes 0 to 239 of an entry. -/
def ledgerBody (e : LedgerEnt) : List Byte :=
  le 4 e.lseq ++ le 1 e.kind ++ le 1 e.gen ++ le 2 e.index ++ le 8 e.seq ++ le 1 e.usage ++ le 1 e.owner ++ le 1 e.klen ++
  le 1 e.target ++ le 4 e.inst ++ zeros 8 ++ e.wrapped ++ zeros (208 - e.wrapped.length)

/-- The MAC of an entry under K_vault. -/
def ledgerMac (s : State) (e : LedgerEnt) : BitVec 128 := BitVec.ofNat 128 (beVal (cmac s.vault.kVault (ledgerBody e)))

/-- The next LSEQ. -/
def ledgerNext (s : State) : Nat := match (ledger s).getLast? with | some e => e.lseq + 1 | none => (gKeyroot s).count + 1

/-- A bare entry of a kind for an index. -/
def LedgerEnt.of (kind index : Nat) : LedgerEnt :=
  { lseq := 0, kind := kind, gen := 0, index := index, seq := 0, usage := 0, owner := 0, klen := 0, target := 0, inst := 0,
    wrapped := [], goodA := true, goodB := true }

/-- Append an entry, both copies, and write the KEYROOT that raises the count to it (R372); `cont` follows the KEYROOT
write. -/
def ledgerAppend (e : LedgerEnt) (mailbox : Option Nat) (cont : Cont) (s : State) : State :=
  let e := { e with lseq := ledgerNext s }
  let a := (gKeyroot s).area
  let s := { s with vault :=
    if a = 0 then { s.vault with area0 := s.vault.area0 ++ [e] } else { s.vault with area1 := s.vault.area1 ++ [e] } }
  let k := gKeyroot s
  gPut G.keyroot (.keyroot { k with count := e.lseq, mac := ledgerMac s e }) false mailbox cont s

/-- Append the entry of a path's key command; the command ends when its KEYROOT write is durable. -/
def ledgerFor (path op : Nat) (e : LedgerEnt) (s : State) : State :=
  let e := { e with lseq := ledgerNext s }
  ledgerAppend e (some path) (.key path op 9) { s with vault := { s.vault with installs := tput path e s.vault.installs } }

/-! ### Targets held by unfinished commands (R138) -/

/-- Kind of target a TARGET byte names: 0 context, 1 slot, 2 KEK. -/
def tgtKind (t : Nat) : Nat := if t = 2 then 1 else if t = 3 then 2 else 0

/-- Another path's unfinished command holds the target (R138). -/
def tgtBusy (s : State) (t i path : Nat) : Bool :=
  s.vault.busy.any (fun b => b.1 == tgtKind t && b.2.1 == i && b.2.2 != path)

def tgtHold (t i path : Nat) (s : State) : State := { s with vault := { s.vault with busy := s.vault.busy ++ [(tgtKind t, i, path)] } }
def tgtFree (path : Nat) (s : State) : State :=
  { s with vault := { s.vault with busy := s.vault.busy.filter (fun b => b.2.2 != path), installs := tdel path s.vault.installs } }

/-! ### Alarms -/

def Slot.init : Slot :=
  { st := .empty, usage := 0, owner := 0, klen := 0, key1 := 0, key2 := 0, c := 0, seq := 0, reserving := false, waitSince := none }


/-- The erasure of R402: slots EMPTY, contexts LOST, KEK1 to KEK15 gone, every key index purged, an ERASE_ALL entry. -/
def eraseAll (source : Nat) (s : State) : State :=
  let live := (s.vault.ctxs.filter (fun e => e.2.cur.isSome)).map (·.1)
  let slots := (s.vault.slots.filter (fun e => e.2.st != .empty)).length
  if s.vault.erasedAt = some s.tick.count then s else
  let sh := s.icu.shore
  let pause := (sh.st == 1) && live.contains sh.key
  let s := { s with
    vault := { s.vault with
      ctxs := s.vault.ctxs.map (fun e => if e.2.cur.isSome then (e.1, { e.2 with st := .lost, cur := none, new := none }) else e)
      slots := s.vault.slots.map (fun e => (e.1, { Slot.init with seq := e.2.seq }))
      keks := s.vault.keks.map (fun e => if e.1 = 0 then e else (e.1, { e.2 with key := none }))
      erasedAt := some s.tick.count }
    icu := { s.icu with shore := if pause then { sh with st := 2, step := 0, delay := false } else sh } }
  let s := if pause then sed 0x0653 sNOTICE 3 sh.key 1 (sh.b % 2 ^ 32) s else s
  let s := forEach live purgeKey s
  let s := setF F.KV_ALARM_ERASED 1 s
  let s := ledgerAppend (LedgerEnt.of lkEraseAll 0) none .keyRoot s
  sed 0x0742 sALERT 4 source live.length slots s

/-- A comparison mismatch in a cipher datapath: counted with its source (0 to 3 seal pipes of the ICU, 4 to 7 its open
pipes, 8 to 11 the seal engine's); under ERASE the vault erases (R402). -/
def alarm (source : Nat) (s : State) : State :=
  let s := satInc F.KV_ALARM_COUNT s |> setF F.KV_ALARM_SOURCE source
  if cfgErase s then eraseAll source s else s

end Sys2Proof.Machine
end

