-- ==== Sys2Proof/Machine/MediaQ.lean ====
section
/-! DEFINITION. Where pages lie on the media (R210, R213, R244, R274), what they hold, and the queues that a sense enters
(R221, R222, R252). -/

namespace Sys2Proof.Machine

def Die.init : Die :=
  { hrq := [], adm := [], held := [], recon := [], bgq := [], progq := [], eraseq := [], page := none, op := none
    susp := none, suspAt := 0, window := 0, plan := [], credit := List.replicate 8 0, lastSample := none, sampled := none
    badList := [], stored := 0, da := 0, missed := 0, attempts := 0, incWait := false, lastStart := none }

def Channel.init : Channel :=
  { minCred := List.replicate 8 0, entCred := List.replicate 8 0, slot := 0, decoding := [], buf := [], attempts := 0
    fencedWhole := false }

/-- Dies are numbered channel * 8 + die, as records number them (R267). -/
def dieOf (s : State) (k : Nat) : Die := tget Die.init s.media.dies k
def modDie (k : Nat) (f : Die → Die) (s : State) : State :=
  { s with media := { s.media with dies := tmod Die.init k f s.media.dies } }
def chanOf (s : State) (c : Nat) : Channel := tget Channel.init s.media.chans c
def modChan (c : Nat) (f : Channel → Channel) (s : State) : State :=
  { s with media := { s.media with chans := tmod Channel.init c f s.media.chans } }

def chanState (s : State) (c : Nat) : Nat := fld s (F.MED_CH_STAT_STATE c)
def dieState (s : State) (k : Nat) : Nat := fld s (F.MED_CH_D_STAT_STATE (k / 8) (k % 8))
def setDieState (k v : Nat) (s : State) : State := setF (F.MED_CH_D_STAT_STATE (k / 8) (k % 8)) v s

/-- Channel and die serve requests. -/
def dieOnline (s : State) (k : Nat) : Bool := chanOn s (k / 8) && chanState s (k / 8) == 2 && dieState s k == 0

/-- Senses wait for the die: it is online, or its channel is being retrained (R253). -/
def dieTakes (s : State) (k : Nat) : Bool :=
  chanOn s (k / 8) && (chanState s (k / 8) == 2 || chanState s (k / 8) == 3) && dieState s k == 0

/-! ### Addresses -/

/-- A physical sector address from its parts (R213). -/
def psaOf (ch die plane block page sector : Nat) : Nat :=
  ((((ch * 8 + die) * 4 + plane) * 8192 + block) * 1024 + page) * 8 + sector
def psaDie (p : Nat) : Nat := p / 2 ^ 28
def psaBlockKey (p : Nat) : Nat := p / 2 ^ 13
def psaBlock (p : Nat) : Nat := p / 2 ^ 13 % 8192
def psaPage (p : Nat) : Nat := p / 8 % 1024
def psaPlane (p : Nat) : Nat := p / 2 ^ 26 % 4

/-- Key of a block in the block tables. -/
def blockKey (ch die plane block : Nat) : Nat := ((ch * 8 + die) * 4 + plane) * 8192 + block

/-- A set is in Deeps mode (R287): kinds DEEPS, CKPT and NODE. -/
def setDeeps (b : BlockSet) : Bool := b.kind == 1 || b.kind == 3 || b.kind == 4
/-- Data pages of a set (R274): 256 or 768 pages a block, one member of each row parity. -/
def setPages (b : BlockSet) : Nat := (if setDeeps b then 768 else 256) * (b.members.length - 1)

/-- Member and page of a data page (R274). -/
def memberOf (b : BlockSet) (n q : Nat) : Nat × Nat :=
  let w := b.members.length
  let p := q / (w - 1)
  let i := q % (w - 1)
  let pm := (p + n) % w
  (if i < pm then i else i + 1, p)

/-- Sector address of a sector of a data page of set n. -/
def pagePsa (b : BlockSet) (n q sector : Nat) : Nat :=
  let (m, p) := memberOf b n q
  let (ch, blk) := lat (0, 0) b.members m
  psaOf ch b.die b.plane blk p sector

/-- Key of a data page of a set in the Shallows write buffer, and of a row's parity page. -/
def wbKey (set q : Nat) : Nat := set * 2 ^ 21 + 2 * q
def wbParity (set row : Nat) : Nat := set * 2 ^ 21 + 2 * row + 1

def setOf (s : State) (n : Nat) : Option BlockSet := tfind s.mtl.map.sets n
def modSet (n : Nat) (f : BlockSet → BlockSet) (s : State) : State :=
  match setOf s n with
  | some b => { s with mtl := { s.mtl with map := { s.mtl.map with sets := tput n (f b) s.mtl.map.sets } } }
  | none => s

/-- The body of a data page: in the write buffer (R232) or on the media. -/
def pageBody (s : State) (n q : Nat) : Option PageBody :=
  match tfind s.mtl.wbuf (wbKey n q) with
  | some b => some b
  | none => match setOf s n with
    | some b => tfind s.media.pages (pagePsa b n q 0 / 8)
    | none => none

/-- The sealed line at an index of a page (R283: slots of a log page; R291: lines of a reach page). -/
def PageBody.sealedAt (p : PageBody) (i : Nat) : Option Sealed :=
  match p with
  | .log slots _ _ _ _ _ => slots[i]?
  | .reach _ _ lines => lines[i]?
  | _ => none

/-- The sealed copy that a location names. -/
def sealedAt (s : State) (n q i : Nat) : Option Sealed := (pageBody s n q).bind (fun b => b.sealedAt i)

/-- Sector address of a location; `none` for no media copy. -/
def locPsa (s : State) (l : Loc) : Option Nat :=
  match l with
  | .at_ n q i => (setOf s n).map (fun b => pagePsa b n q (i / 8))
  | _ => none

/-- The page of a location is held in the write buffer. -/
def inWbuf (s : State) (n q : Nat) : Bool := (tfind s.mtl.wbuf (wbKey n q)).isSome

/-! ### Queues (R221, R222) -/

/-- A new sense for a sector. -/
def Sense.mk' (psa : Nat) (why : SenseFor) : Sense := { psa := psa, why := why }

/-- Core cycles from power-up to the slot of a channel's bus that begins next: a command phase (R33, R227, R733). -/
def cycNow (s : State) (c : Nat) : Nat := s.tick.count * 6000 + (chanOf s c).slot * 200

/-- Good blocks at shipment (R212, R303): every block but the system blocks and those of the factory lists. -/
def goodShip (s : State) : Nat := fusedChans s * 8 * 4 * 5502 - (s.media.dies.map (fun d => d.2.badList.length)).sum

/-- The set and row that a sector belongs to, with its member. -/
def psaSet (s : State) (p : Nat) : Option (Nat × BlockSet × Nat) :=
  s.mtl.map.sets.findSome? (fun e =>
    let m := e.2.members.findIdx (fun x => x.1 == psaDie p / 8 && x.2 == psaBlock p)
    if e.2.die = psaDie p % 8 ∧ e.2.plane = psaPlane p ∧ m < e.2.members.length then some (e.1, e.2, m) else none)

/-- The same sector of another member of the row (R247). -/
def peerPsa (b : BlockSet) (p m : Nat) : Nat :=
  let (ch, blk) := lat (0, 0) b.members m
  psaOf ch b.die b.plane blk (psaPage p) (p % 8)

/-- A member of a row cannot be sensed: its die is neither ONLINE nor waiting for a bus that is retrained (R248, R253). -/
def peerLost (s : State) (b : BlockSet) (m : Nat) : Bool := !dieTakes s ((lat (0, 0) b.members m).1 * 8 + b.die)

/-- Change the rebuilding of a sector. -/
def modRecon (j : Nat) (f : Recon → Recon) (s : State) : State :=
  match tfind s.media.recons j with
  | some r => { s with media := { s.media with recons := tput j (f r) s.media.recons } }
  | none => s

/-- Free reconstruction entries take waiting members, the oldest rebuilding first: four entries a die (R254). -/
def reconFill (s : State) : State :=
  forEach s.media.recons (fun e s =>
    match psaSet s e.2.sense.psa with
    | none => s
    | some (_, b, _) =>
      forEach e.2.wait (fun m s =>
        let k := (lat (0, 0) b.members m).1 * 8 + b.die
        if peerLost s b m then modRecon e.1 (fun r => { r with failed := some (k / 8), wait := [] }) s
        else if (tfind s.media.recons e.1).any (fun r => r.failed.isSome) || 4 ≤ (dieOf s k).recon.length then s
        else
          modDie k (fun d => { d with recon := d.recon ++ [Sense.mk' (peerPsa b e.2.sense.psa m) (.recon e.1 m)] }) s
            |> modRecon e.1 (fun r => { r with wait := r.wait.filter (fun x => x != m), busy := r.busy ++ [m] })) s) s

/-- A sector is to be rebuilt: the same sector of every other member of its row is sensed (R247); a member that cannot be
sensed fails it (R248). -/
def reconStart (x : Sense) (s : State) : State :=
  let j := s.media.jobSeq
  let r : Recon := match psaSet s x.psa with
    | none => { sense := x, die := psaDie x.psa, wait := [], busy := [], failed := some (psaDie x.psa / 8), start := s.tick.count }
    | some (_, b, m) =>
      { sense := x, die := psaDie x.psa, wait := (List.range b.members.length).filter (fun i => i != m), busy := []
        failed := none, start := s.tick.count }
  reconFill { s with media := { s.media with jobSeq := j + 1, recons := tput j r s.media.recons } }

/-- A sense for a host miss enters the HRQ, the admission list or waits outside it, in arrival order (R222); one for a die
that is fenced becomes a reconstruction instead (R252). -/
def enqHost (x : Sense) (s : State) : State :=
  let k := psaDie x.psa
  let d := dieOf s k
  if dieTakes s k then
    if d.adm.isEmpty && d.held.isEmpty && decide (d.hrq.length < 2) then modDie k (fun d => { d with hrq := d.hrq ++ [x] }) s
    else
      let x := { x with admitted := true }
      let s := satInc (F.MED_CH_CNT_ADMIT_COUNT (k / 8)) s |> count 0x28 (k / 8) 1
      if d.held.isEmpty && decide (d.adm.length < 32) then modDie k (fun d => { d with adm := d.adm ++ [x] }) s
      else modDie k (fun d => { d with held := d.held ++ [x] }) s
  else reconStart x s

/-- A background sense of a class, n sectors of whose page cross the bus, waits for its die's plan (R221, R224). -/
def bgSense (psa : Option Nat) (cls n : Nat) (s : State) : State :=
  match psa with
  | some p =>
    if dieTakes s (psaDie p) then
      modDie (psaDie p) (fun d => { d with bgq := d.bgq ++ [{ Sense.mk' p (.background cls) with xfer := n }] }) s
    else s
  | none => s

/-- Entries move up: held misses enter the admission list, and the list's oldest the HRQ (R222). -/
def moveUp (fuel k : Nat) (s : State) : State :=
  match fuel with
  | 0 => s
  | n + 1 =>
    let d := dieOf s k
    match d.adm, d.held with
    | x :: rest, _ =>
      if d.hrq.length < 2 then moveUp n k (modDie k (fun d => { d with hrq := d.hrq ++ [x], adm := rest }) s)
      else
        match d.held with
        | y :: more =>
          if d.adm.length < 32 then moveUp n k (modDie k (fun d => { d with adm := d.adm ++ [y], held := more }) s) else s
        | [] => s
    | [], y :: more => moveUp n k (modDie k (fun d => { d with adm := [y], held := more }) s)
    | [], [] => s

end Sys2Proof.Machine
end

