-- ==== Sys2Proof/Machine/IcuCore.lean ====
section
/-! DEFINITION. The inline crypt and integrity unit: the counter tree (R330 to R346), sealing (R323, R324) and opening
(R328, R329) of a line. -/

namespace Sys2Proof.Machine

/-! ### Nodes (R330 to R332) -/

def Leaf.init : Leaf := { major := 0, exhausted := false, minors := [], oldMajor := 0, reseal := 0, mac := 0 }
def Upper.init : Upper := { counters := [], exhausted := false, mac := 0 }

/-- Key of a node in the tables: level * 2^40 + index. -/
def nodeKey (level index : Nat) : Nat := level * 2 ^ 40 + index

def leafOf (t : Tree) (i : Nat) : Leaf := tget Leaf.init t.leaves i
def upperOf (t : Tree) (level i : Nat) : Upper := tget Upper.init t.uppers (nodeKey level i)

def modTree (f : Tree → Tree) (s : State) : State := { s with icu := { s.icu with tree := f s.icu.tree } }

/-- Identity of a node (R332). -/
def nodeIdent (level index : Nat) : Nat := level * 2 ^ 60 + index

/-- Bytes 0 to 119 of a leaf (R331). -/
def leafBytes (l : Leaf) : List Byte :=
  let m := (List.range 64).foldl (fun a n => a + tget 0 l.minors n * 2 ^ (12 * n)) 0
  le 7 l.major ++ le 1 (if l.exhausted then 1 else 0) ++ le 96 m ++ le 7 l.oldMajor ++ [0] ++ le 8 l.reseal.toNat

/-- Bytes 0 to 119 of an internal node (R331). -/
def upperBytes (u : Upper) : List Byte :=
  ((List.range 16).map (fun k => le 7 (tget 0 u.counters k))).flatten ++ le 1 (if u.exhausted then 1 else 0) ++ zeros 7

/-- Counter of a node in its parent. -/
def parentCounter (t : Tree) (level index : Nat) : Nat := tget 0 (upperOf t (level + 1) (index / 16)).counters (index % 16)

/-- The node MAC (R332). -/
def nodeMac (s : State) (level index : Nat) (body : List Byte) (ctr : Nat) : BitVec 64 :=
  BitVec.ofNat 64 (beVal ((cmac s.vault.kTree (le 8 (nodeIdent level index) ++ body ++ le 7 ctr)).take 8))

/-- A node verifies: never written under a parent counter of zero, or with the MAC of its contents and counter. -/
def nodeGood (s : State) (level index : Nat) : Bool :=
  let t := s.icu.tree
  let c := parentCounter t level index
  if level = 0 then
    match tfind t.leaves index with
    | none => c == 0
    | some l => l.mac == nodeMac s 0 index (leafBytes l) c
  else
    match tfind t.uppers (nodeKey level index) with
    | none => c == 0
    | some u => u.mac == nodeMac s level index (upperBytes u) c

/-- A node is trusted without a check: in the on-die cache, L4 to L8 pinned there (R333). -/
def onDie (s : State) (level index : Nat) : Bool := decide (4 ≤ level) || s.icu.onDie.contains (nodeKey level index)

/-- Unpinned nodes that the on-die cache holds beside the two copies of every L4 to L8 node: 8 MiB in nodes of 128 bytes
(R330, R333). -/
def onDieRoom (s : State) : Nat := 65536 - 2 * (if s.variant = 0 then 24577 + 1537 + 97 + 7 + 1 else 12289 + 769 + 49 + 4 + 1)

/-- L0 and L1 nodes that Pond DRAM caches beside the two copies of every dirty group (R334, R342). -/
def pondRoom (s : State) : Nat :=
  ((if s.variant = 0 then 6144 else 10240) * 2 ^ 20 -
    8192 * (s.icu.dirtyGroups.filter (fun g => g / 2 ^ 40 == 1)).length) / 128

/-- A node enters the on-die cache (R333): a full cache drops a clean node, which one the spec does not say (log entry 195);
every dirty one takes two places. -/
def onDieIn (k : Nat) (s : State) : State :=
  let c := s.icu.onDie
  if c.contains k then s else
  let clean := c.filter (fun x => !s.icu.writeback.contains x)
  if c.length + s.icu.writeback.length < onDieRoom s || clean.isEmpty then { s with icu := { s.icu with onDie := c ++ [k] } }
  else
    let (v, s) := draw 32 s
    { s with icu := { s.icu with onDie := c.erase (lat 0 clean (v.toNat % clean.length)) ++ [k] } }

/-- An L0 or L1 node enters the node cache of Pond DRAM (R333); a full cache drops one, which the spec does not say (log
entry 195). -/
def pondIn (k : Nat) (s : State) : State :=
  let c := s.icu.pond
  if c.contains k then s
  else if c.length < pondRoom s || c.isEmpty then { s with icu := { s.icu with pond := c ++ [k] } }
  else
    let (v, s) := draw 32 s
    { s with icu := { s.icu with pond := c.erase (lat 0 c (v.toNat % c.length)) ++ [k] } }

/-- Bring the nodes of a line on-die, checking each up to the first trusted one (R343): the level of the first that
fails. `force` makes the first check fail (R435 point 0x23). -/
def verifyPath (fuel level line : Nat) (force : Bool) (s : State) : State × Option Nat :=
  match fuel with
  | 0 => (s, none)
  | n + 1 =>
    let i := line / 2 ^ (6 + 4 * level)
    if onDie s level i then (s, none)
    else if force || !nodeGood s level i then (s, some level)
    else
      let s := if level = 0 && !s.icu.pond.contains (nodeKey 0 i) then
          count 0x42 0 1 (satInc F.ICU_CNT_NODE_MEDIA_COUNT s)
        else s
      let s := onDieIn (nodeKey level i) s
      let s := if level ≤ 1 then pondIn (nodeKey level i) s else s
      verifyPath n (level + 1) line false s

/-! ### Counters (R340, R344, R346) -/

/-- Counters under which a line opens (R340). -/
def lineCounters (s : State) (line : Nat) : Nat × Nat :=
  let l := leafOf s.icu.tree (line / 64)
  (if l.reseal.getLsbD (line % 64) then l.oldMajor else l.major, tget 0 l.minors (line % 64))

/-- A limit at which a counter's node is EXHAUSTED (R346). -/
def ctrLimit : Nat := 2 ^ 56 - 2 ^ 24

/-- A seal needs a major advance (R340, R344). -/
def needsMajor (s : State) (line : Nat) : Bool :=
  let l := leafOf s.icu.tree (line / 64)
  !l.reseal.getLsbD (line % 64) && tget 0 l.minors (line % 64) == 4095

/-- The seal waits: a major advance while RESEAL bits of the leaf are set (R344). -/
def majorWaits (s : State) (line : Nat) : Bool := needsMajor s line && (leafOf s.icu.tree (line / 64)).reseal != 0

/-- A node changed: it is on-die, and it joins the writeback list of the next tick (R341). -/
def touchNode (level index : Nat) (s : State) : State :=
  let k := nodeKey level index
  let s := if level ≤ 3 then onDieIn k s else s
  { s with icu := { s.icu with
      writeback := if s.icu.writeback.contains k then s.icu.writeback else s.icu.writeback ++ [k] } }

/-- Advance the counters of a line for a seal (R340, R344, R346). -/
def advanceCounters (line : Nat) (s : State) : State :=
  let i := line / 64
  let n := line % 64
  let l := leafOf s.icu.tree i
  let put := fun (l : Leaf) (s : State) => touchNode 0 i (modTree (fun t => { t with leaves := tput i l t.leaves }) s)
  if l.reseal.getLsbD n then
    put { l with minors := tput n 1 l.minors, reseal := l.reseal &&& ~~~ ((1 : BitVec 64) <<< n) } s
  else if tget 0 l.minors n < 4095 then put { l with minors := tput n (tget 0 l.minors n + 1) l.minors } s
  else
    let mask := (List.range 64).foldl (fun (m : BitVec 64) k =>
      if k ≠ n ∧ tget 0 l.minors k ≠ 0 then m ||| ((1 : BitVec 64) <<< k) else m) 0
    let l' := { l with
      oldMajor := l.major, major := l.major + 1, minors := tput n 1 l.minors, reseal := mask
      exhausted := l.exhausted || decide (ctrLimit ≤ l.major + 1) }
    let s := satInc F.ICU_ERR_OVERFLOW (put l' s)
    let s := sed 0x0630 sINFO 3 (i % 2 ^ 32) ((l.major + 1) % 2 ^ 32)
      ((List.range 64).filter (fun k => mask.getLsbD k)).length s
    if l'.exhausted && !l.exhausted then sed 0x0624 sCRITICAL 3 (i % 2 ^ 28) 0 0 s else s

/-- The group of a node: those of L1, L3, L5 and L7 nodes with their children (R335). -/
def groupOf (level i : Nat) : Nat :=
  nodeKey (if level % 2 = 1 then level else level + 1) (if level % 2 = 1 then i else i / 16)

/-- One node's writeback at a boundary (R341): its counter in its parent advances, its MAC is recomputed under the new
counter, its image goes to Pond DRAM and its group is marked dirty. -/
def nodeWriteback (k : Nat) (s : State) : State :=
  let level := k / 2 ^ 40
  let i := k % 2 ^ 40
  if 8 ≤ level then s else
  let p := upperOf s.icu.tree (level + 1) (i / 16)
  let c := tget 0 p.counters (i % 16) + 1
  let s := modTree (fun t => { t with uppers := tput (nodeKey (level + 1) (i / 16)) { p with counters := tput (i % 16) c p.counters } t.uppers }) s
  let flag := decide (ctrLimit ≤ c)
  let s := if level = 0 then
      let l := leafOf s.icu.tree i
      modTree (fun t => { t with leaves := tput i { l with mac := nodeMac s 0 i (leafBytes l) c } t.leaves }) s
    else
      let u := upperOf s.icu.tree level i
      let u := { u with exhausted := u.exhausted || flag }
      modTree (fun t => { t with uppers := tput (nodeKey level i) { u with mac := nodeMac s level i (upperBytes u) c } t.uppers }) s
  let s := if flag && decide (c = ctrLimit) then sed 0x0624 sCRITICAL 3 (level * 2 ^ 28 + i % 2 ^ 28) 0 0 s else s
  let s := if level < 7 then touchNode (level + 1) (i / 16) s else s
  let s := if level ≤ 1 then pondIn k s else s
  let g := groupOf level i
  { s with icu := { s.icu with dirtyGroups := if s.icu.dirtyGroups.contains g then s.icu.dirtyGroups else s.icu.dirtyGroups ++ [g] } }

/-! ### Seal and open -/

/-- The MAC of a sealed line (R324): bits 127 to 80 of the CMAC over 82 bytes. -/
def lineMac (kmac : BitVec 256) (line major minor gen : Nat) (ct : Line) : BitVec 48 :=
  BitVec.ofNat 48 (beVal ((cmac kmac (le 8 line ++ le 7 major ++ le 2 minor ++ le 1 gen ++ lineBytes ct)).take 6))

/-- The tweak of a line (R323): its number as a 128-bit little-endian value. -/
def lineTweak (line : Nat) : List Byte := le 16 line

/-- Seal a plaintext line under a generation with the counters it has now (R323 steps 3 to 5). -/
def sealWith (g : KeyGen) (line cls : Nat) (poison : Bool) (d : Line) (s : State) : Sealed :=
  let (major, minor) := lineCounters s line
  let ct := bytesLine (xts true g.k1 g.k2 (lineTweak line) (lineBytes d))
  { ct := ct, mac := lineMac g.kmac line major minor g.num ct, gen := g.num,
    cls := cls + (if poison then 128 else 0) }

/-- Decrypt a sealed line (R328 step 2). -/
def openWith (g : KeyGen) (line : Nat) (x : Sealed) : Line :=
  bytesLine (xts false g.k1 g.k2 (lineTweak line) (lineBytes x.ct))

/-- The Shoreline job covers a line (R358). -/
def shoreHas (s : State) (line : Nat) : Bool :=
  s.icu.shore.ranges.any (fun r => decide (r.1 ≤ line) && decide (line < r.1 + r.2))
def shoreRunning (s : State) (key : Nat) : Bool := s.icu.shore.st == 1 && s.icu.shore.key == key

/-- The reach that the Shoreline engine holds (R361). -/
def shoreHeld (s : State) : Option Nat :=
  if s.icu.shore.st = 1 ∧ s.icu.shore.step ≠ 0 then some (reachOf s.icu.shore.b) else none

/-- The generation a write-back is sealed under (R321, R323 step 1). -/
def sealGen (s : State) (line key : Nat) : Option KeyGen :=
  if isInternal s line then s.vault.dev
  else
    let c := ctxOf s key
    match c.new with
    | some n =>
      if s.icu.shore.key = key ∧ s.icu.shore.st ≠ 0 ∧ s.icu.shore.st ≠ 4 ∧ shoreHas s line ∧
          (line < s.icu.shore.b ∨ shoreHeld s = some (reachOf line)) then some n else c.cur
    | none => c.cur

/-- The generation whose number a line carries, where R329 accepts it. -/
def openGen (s : State) (line key gen : Nat) : Option KeyGen :=
  if isInternal s line then (if gen = 1 then s.vault.dev else none)
  else
    let c := ctxOf s key
    let below := shoreRunning s key && shoreHas s line && decide (line < s.icu.shore.b)
    match c.new with
    | some n => if n.num = gen then some n
                else if below then none
                else c.cur.bind (fun g => if g.num = gen then some g else none)
    | none => c.cur.bind (fun g => if g.num = gen then some g else none)

/-- What opening a line gives. -/
inductive OpenRes where
  | ok (d : Line) (poison : Bool)
  | poisoned
  | noKey
  | failed
deriving DecidableEq, Repr

/-! ### Cipher pipes (R327, R401)

Kinds of pipe: 0 the seal pipes, 1 the open pipes of the inline crypt unit, 2 the pipes of the seal engine. -/

/-- The field that shows the pipes of a kind in service without fault (R369, R404). -/
def pipeField (kind : Nat) : Fld :=
  if kind = 0 then F.ICU_PIPES_SEAL else if kind = 1 then F.ICU_PIPES_OPEN else F.KV_ALARM_SEAL_PIPES

/-- Pipes of a kind in service: those without fault, or, when every one is faulty, the one marked last, which is the one
that mismatched last. -/
def pipesIn (s : State) (kind : Nat) : List Nat :=
  let good := (List.range 4).filter (fun p => (fld s (pipeField kind)).testBit p)
  if good.isEmpty then [((s.icu.pipeOrder.filter (fun p => p / 4 == kind)).getLast?.getD 0) % 4] else good

/-- The pipe that an attempt runs in: the lowest that has never mismatched, else the one that mismatched least recently
(R327 step 2; log entry 196 for the first attempt). -/
def pipePick (s : State) (kind : Nat) (l : List Nat) : Nat :=
  match l.find? (fun p => !s.icu.pipeOrder.contains (4 * kind + p)) with
  | some p => p
  | none => ((s.icu.pipeOrder.filter (fun p => p / 4 == kind)).map (· % 4)).find? (fun p => l.contains p) |>.getD 0

/-- One comparison mismatch: an alarm (R401, R402), counted by the inline crypt unit for its own pipes (R369). -/
def pipeMiss (kind p : Nat) (s : State) : State :=
  let s := if kind < 2 then satInc F.ICU_ERR_CHECK s else s
  let s := alarm (4 * kind + p) s
  { s with icu := { s.icu with pipeOrder := s.icu.pipeOrder.filter (fun x => x != 4 * kind + p) ++ [4 * kind + p] } }

/-- The repeat of an operation mismatches too, and the first pipe is marked faulty (R327 step 2, R401). The last of its kind
stays in service all the same, and the record counts it (log entry 203). -/
def pipeAgain (kind p code unit : Nat) (s : State) : State :=
  let others := (pipesIn s kind).filter (fun x => x != p)
  let s := pipeMiss kind (pipePick s kind (if others.isEmpty then [p] else others)) s
  let m := fld s (pipeField kind)
  if m.testBit p then
    setF (pipeField kind) (m - 2 ^ p) s
      |> sed code sERROR unit (if kind = 2 then p else 4 * kind + p) (max 1 others.length) 0
  else s

/-- A Sounding frame of an operation of a pipe (R683): how long it took is not modelled, so it is free (log entry 72). -/
def pipeFrame (kind op mism : Nat) (s : State) : State :=
  if !sndTakes s 6 then s else
  let (v, s) := draw 16 s
  sndPush 6 (if kind = 2 then 4 else 3)
    (le 1 (4 * kind + pipePick s kind (pipesIn s kind)) ++ le 1 op ++ le 2 v.toNat ++ le 1 mism ++ zeros 11) s

/-- `n` comparison mismatches of one seal (kind 0) or open (kind 1), one after another (R327). -/
def pipeMismatch (kind n line : Nat) (s : State) : State :=
  let s := pipeFrame kind kind (min n 1) s
  if n = 0 then s else
  let p := pipePick s kind (pipesIn s kind)
  let s := pipeMiss kind p s
  if cfgErase s then s else
  let s := sed 0x0640 sWARNING 3 (4 * kind + p) (line % 2 ^ 32) (if n = 1 then 1 else 0) s
  if n = 1 then s else
  forEach (List.range (n - 2)) (fun _ s => pipeMiss kind (pipePick s kind (pipesIn s kind)) s) (pipeAgain kind p 0x0641 3 s)

/-- A line's node is read in the on-die cache (class 6): a clean node with an uncorrectable word is fetched and checked
again; a dirty one is read from its second copy (R348). -/
def nodeRead (ag line : Nat) (s : State) : State :=
  match s.icu.onDie.findIdx? (fun k => k == nodeKey 0 (line / 64)) with
  | none => s
  | some row => mempReadWith 6 0 row 1 ag (fun w s =>
      let s := mempUe 6 0 w ag s
      let k := nodeKey 0 (line / 64)
      if s.icu.writeback.contains k then s else { s with icu := { s.icu with onDie := s.icu.onDie.erase k } }) s

/-- The agent of an open (R736): a request where a fill or the rebuilding of its sector asks for the line (paths 0 and 4 of
R356), else an internal operation; fills of internal lines are internal operations. -/
def openAgent (s : State) (line path : Nat) : Nat :=
  if (path = 0 ∨ path = 4) ∧ !isInternal s line then agRequest else agInternal

/-- An injection of a target armed at a row fires as a line of a request or of the device itself is opened (R410). -/
def openInject (target row ag : Nat) (s : State) : State × Bool :=
  if injArmed s target row then (injFire ag 0 s, true) else (s, false)

/-- An injection armed at a pipe that opens lines: its mode is the number of mismatches. -/
def openPipeInject (ag : Nat) (s : State) : State × Nat :=
  if (List.range 4).any (fun p => injArmed s 0x24 (4 + p)) then
    (injFire ag 0 s, fld s F.MEMP_INJ_CTL_MODE)
  else (s, 0)

/-- What an open reads before the line's own words: one of the two copies of the key (a copy that fails is not used, and
both are rewritten, R421) and the line's node. -/
def openWords (ag line key : Nat) (s : State) : State :=
  nodeRead ag line (if isInternal s line then s else mempReadWith 7 0 key 1 ag (fun w s => mempUe 7 0 w ag s) s)

/-- What an integrity failure of a line reports (R356). -/
def openInfo (s : State) (line key : Nat) (x : Sealed) (psa : Option Nat) (path : Nat) (head : Option Nat)
    (kind ident maj min comp : Nat) : HaltInfo :=
  ⟨kind, path, if isInternal s line then 0x8000 else key, ident, psa, maj, min, x.gen, x.mac.toNat, comp, head⟩

/-- The last step of an open (R329): the line's MAC under the counters of its node. -/
def openMac (g : KeyGen) (line : Nat) (x : Sealed) (auth ag : Nat)
    (info : Nat → Nat → Nat → Nat → Nat → HaltInfo) (s : State) : State × OpenRes :=
  let (major, minor) := lineCounters s line
  let r := openInject 0x22 0 ag s
  let m := lineMac g.kmac line major minor x.gen x.ct
  let s := count 0x41 0 1 (satInc F.ICU_CNT_OPEN_COUNT r.1)
  if auth = 1 || r.2 || m ≠ x.mac then (integrityFail (info 1 line major minor m.toNat) s, .failed)
  else (s, .ok (openWith g line x) (x.cls / 128 % 2 == 1))

/-! ### Leaves that host misses read from the media (R223, R343) -/

/-- A fill of the line has to sense its leaf's group on the media: the leaf is neither on-die nor in Pond DRAM. -/
def leafFromMedia (s : State) (line : Nat) : Bool :=
  let i := line / 64
  !onDie s 0 i && !s.icu.pond.contains (nodeKey 0 i)

/-- The locator of a copy of a leaf's group (R336). -/
def nodeLoc (s : State) (leaf copy : Nat) : Option Nat :=
  (tfind s.icu.groups (nodeKey 1 (leaf / 16))).map (fun g => if copy = 0 then g.pageA else g.pageB)

/-- Sector of a leaf in a copy of its group: sector 1 + ((leaf AND 15) >> 2) of the node page (R335, R343). -/
def nodePsa (s : State) (leaf copy : Nat) : Option Nat :=
  (nodeLoc s leaf copy).bind (fun l =>
    (setOf s (l / 2 ^ 14)).map (fun b => pagePsa b (l / 2 ^ 14) (l % 2 ^ 14) (1 + leaf % 16 / 4)))

/-- A copy of a leaf's group is still held in the write buffers (R232). -/
def nodeBuffered (s : State) (leaf : Nat) : Bool :=
  [0, 1].any (fun c => (nodeLoc s leaf c).any (fun l => inWbuf s (l / 2 ^ 14) (l % 2 ^ 14)))

/-- The copy that a host miss reads: the one whose die has the shorter HRQ, on equal queues the one on the lower-numbered
channel (R223). -/
def nodeChoice (s : State) (a b : Nat) : Nat :=
  let n := fun p => (dieOf s (psaDie p)).hrq.length
  if !dieTakes s (psaDie a) && dieTakes s (psaDie b) then 1
  else if !dieTakes s (psaDie b) then 0
  else if n b < n a ∨ (n a = n b ∧ psaDie b / 8 < psaDie a / 8) then 1 else 0

/-- The sense of a copy of a leaf's group: the leaf's sector, and sector 0 when the L1 node is not on-die (R343). -/
def nodeSense (s : State) (leaf copy psa : Nat) : Sense :=
  { Sense.mk' psa (.node leaf copy) with xfer := if onDie s 1 (leaf / 16) then 1 else 2 }

/-- A host miss that needs a media leaf reads it as a host sense on the node's own channel (R223). -/
def nodeAsk (line : Nat) (s : State) : State :=
  let i := line / 64
  if !leafFromMedia s line || nodeBuffered s i || (tfind s.icu.nodeReads i).isSome then s else
  match nodePsa s i 0, nodePsa s i 1 with
  | some a, some b =>
    let c := nodeChoice s a b
    enqHost (nodeSense s i c (if c = 0 then a else b))
      { s with icu := { s.icu with nodeReads := tput i { copy := c } s.icu.nodeReads } }
  | _, _ => s

/-- The sector from which the node of a line that fails was read (R356): a leaf or an L1 node that neither cache holds comes
from the copy of its group that was read (R343, R335); none for a node of the on-die cache or of Pond DRAM. -/
def failedPsa (s : State) (line level : Nat) : Option Nat :=
  let i := line / 64
  if 2 ≤ level || s.icu.pond.contains (nodeKey level (i / 16 ^ level)) then none else
  let c := match tfind s.icu.nodeReads i with
    | some r => r.copy
    | none => (match nodePsa s i 0, nodePsa s i 1 with | some a, some b => nodeChoice s a b | _, _ => 0)
  (nodePsa s i c).map (fun p => if level = 0 then p else p / 8 * 8)

/-! ### Opening -/

/-- Open a sealed line (R328, R329, R343): `auth` is what the open meets beside what is stored (0 nothing, 1 another MAC,
2 another generation, 3 eight mismatches in the pipes, 4 a node that fails, 5 one mismatch, 6 two); `path` and `head` are
those of R356. -/
def openLine (line key : Nat) (x : Sealed) (psa : Option Nat) (path auth : Nat) (head : Option Nat) (s : State) :
    State × OpenRes :=
  let info := openInfo s line key x psa path head
  if quarantined s line then (s, .poisoned) else
  if !isInternal s line && (ctxOf s key).cur.isNone then (s, .noKey) else
  let ag := openAgent s line path
  let r := openInject 0x23 0 ag (openWords ag line key s)
  let q := openPipeInject ag r.1
  let n := if auth = 3 then 8 else if auth = 5 then 1 else if auth = 6 then 2 else q.2
  let s := pipeMismatch 1 n line q.1
  if n ≠ 0 ∧ cfgErase s then (s, .noKey) else
  if n = 8 then (integrityFail (info 6 line 0 0 0) s, .failed) else
  match (if auth = 2 then none else openGen s line key x.gen) with
  | none => (integrityFail (info 3 line 0 0 0) s, .failed)
  | some g =>
    let v := verifyPath 4 0 line (r.2 || auth == 4) s
    match v.2 with
    | some level => (integrityFail { info 2 (nodeIdent level (line / 2 ^ (6 + 4 * level))) 0 0 0 with psa := failedPsa v.1 line level } v.1, .failed)
    | none => openMac g line x auth ag info v.1

end Sys2Proof.Machine
end

