-- ==== Sys2Proof/Machine/Slice.lean ====
section
/-! DEFINITION. A line-cache slice (R172 to R205): probing, way allocation, eviction, Cove, the persist point, and the
operations of the address-match queue. -/

namespace Sys2Proof.Machine

/-! ### Probing -/

/-- The way that holds a line: its key in the table of ways. -/
def findWay (s : State) (line : Nat) : Option (Nat × Way) :=
  let base := wayKey (sliceNo line) (setNo line) 0
  s.ways.find? (fun e => decide (base ≤ e.1) && decide (e.1 < base + 16) && e.2.st != .invalid && e.2.tag == tagNo line)

def putWay (k : Nat) (w : Way) (s : State) : State :=
  { s with ways := if w.st = .invalid then tdel k s.ways else tput k w s.ways }

/-- The newest eviction-buffer entry of a line. -/
def findEb (s : State) (line : Nat) : Option EbEnt :=
  ((sliceOf s (sliceNo line)).eb.filter (fun e => e.line == line)).getLast?

def findCove (s : State) (line : Nat) : Option CoveEnt := (sliceOf s (sliceNo line)).cove.find? (fun e => e.line == line)
def dropCove (line : Nat) (s : State) : State :=
  modSlice (sliceNo line) (fun x => { x with cove := x.cove.filter (fun e => e.line != line) }) s
def findMerge (s : State) (line : Nat) : Option MergeBuf := (sliceOf s (sliceNo line)).merge.find? (fun e => e.line == line)
def inAmq (s : State) (line : Nat) : Bool := (sliceOf s (sliceNo line)).amq.any (fun a => a.line == line)

/-- The line's way waits for its fill. -/
def filling (s : State) (line : Nat) : Bool := match findWay s line with | some e => e.2.st == WaySt.fill | none => false

/-- Active mask (R177). -/
def activeMask (s : State) : Nat := (headsOn s).foldl (fun m h => m ||| cfgWayMask s h) 0

/-- Allocation mask of a source (R176, R177). -/
def allocMask (s : State) (src : Src) : Nat :=
  match src with
  | .host h _ => cfgWayMask s h
  | .lcmd p => if isHead p then cfgWayMask s p else activeMask s
  | .mover p => if isHead p then cfgWayMask s p else activeMask s
  | _ => activeMask s

/-! ### The dirty budget (R26, R595 to R597) -/

/-- Charged dirty bytes D (R595). -/
def chargedBytes (s : State) : Nat :=
  64 * dirtyLines s + 5120 * s.mtl.wbuf.length +
  8192 * (s.icu.dirtyGroups.filter (fun g => g / 2 ^ 40 == 1)).length + s.vault.charged + 262144

/-- A write of n new dirty bytes finds room in the budget (R595, R597). -/
def budgetRoom (s : State) (n : Nat) : Bool :=
  let d := chargedBytes s + n
  decide (d ≤ s.sup.budget * 2 ^ 20) && (match s.sup.dCap with | some c => decide (d ≤ c) | none => true)

/-- A write to a line is admitted: a line already DIRTY adds nothing (R595). -/
def admitLine (s : State) (line : Nat) : Bool :=
  (match findWay s line with | some e => e.2.st == WaySt.dirty | none => false) || budgetRoom s 64

/-- Owner of writes as R593 counts them: a head, or 4 for the Tuten port and the management complex. -/
def rateOwner (p : Nat) : Nat := if isHead p then p else 4

/-- The highest throttle level of the three groups (R622). -/
def throttleLevel (s : State) : Nat := s.therm.levelM.foldl (fun m e => max m e.2) (max s.therm.levelC s.therm.levelD)

/-- Issue cycles of a tick that the level leaves (R622): one idle cycle after every 7, in 4, or in 2, of 6,000. -/
def throttleCycles (s : State) : Nat :=
  match throttleLevel s with | 0 => 6000 | 1 => 5250 | 2 => 4500 | _ => 3000

/-- In GUARD, an owner's part of SUP_GUARD.RATE has room for one more line in this tick (R593), and the throttle leaves it an
issue cycle (R622). DESIGN CHOICE (log entry 165): both are held tick by tick, RATE GB/s being RATE x 4,000 bytes in each of
4 us, a line taking one issue cycle. -/
def rateRoom (s : State) (p : Nat) : Bool :=
  let n := tget 0 s.sup.issued (rateOwner p)
  (!inGuard s || decide ((n + 1) * 64 * max 1 (headsOn s).length ≤ fld s F.SUP_GUARD_RATE * 4000)) &&
  (throttleLevel s == 0 || decide (n < throttleCycles s))

/-- A line has been issued for an owner. -/
def rateUse (p : Nat) (s : State) : State :=
  if inGuard s || throttleLevel s != 0 then { s with sup := { s.sup with issued := tput (rateOwner p) (tget 0 s.sup.issued (rateOwner p) + 1) s.sup.issued } }
  else s

/-! ### Uncorrectable words (R175, R205) -/

/-- Set and way as records give them (R209). -/
def setWay (k : Nat) : Nat := (k / 16 % 4096) * 16 + k % 16

/-- The tag entry of a way meets an error (R175): array A, array B, or both, when the way is lost. -/
def tagUpsetAt (ag k : Nat) (up : Upset) (s : State) : State :=
  let n := k / 65536
  match up with
  | .tagUe => satInc F.LC_ERR_TAG_UE s |> mempUe 1 (2 * n) (setWay k) ag |> sed 0x0301 sWARNING 2 n (setWay k) 0
  | .tagUeB => satInc F.LC_ERR_TAG_UE s |> mempUe 1 (2 * n + 1) (setWay k) ag |> sed 0x0301 sWARNING 2 n (setWay k) 1
  | .tagBoth =>
    satInc F.LC_ERR2_TAG_LOST { s with ways := tdel k s.ways } |> mempUe 1 (2 * n) (setWay k) ag
      |> sed 0x0302 sCRITICAL 2 n (setWay k) 0
  | _ => s

/-- The probe of a line's set meets an error in a tag entry: the line's own, or, when no way holds the line, that of a way
of its set which no operand names (a free value). -/
def tagUpsetBy (ag line : Nat) (up : Upset) (s : State) : State :=
  match findWay s line with
  | some (k, _) => tagUpsetAt ag k up s
  | none => let (w, s) := draw 4 s; tagUpsetAt ag (wayKey (sliceNo line) (setNo line) w.toNat) up s

/-- The line's data meets an uncorrectable word (R205): what is done with the copy; the answer says that a CLEAN line of
the data array was invalidated, so that a read is answered with poison. -/
def dataUpsetBy (ag line : Nat) (s : State) : State × Bool :=
  let n := sliceNo line
  match findWay s line with
  | some (k, w) =>
    if w.st = .fill then (s, false)
    else
      let s := satInc F.LC_ERR_DATA_UE s |> mempUe 0 n (setWay k) ag
      if w.st = .clean then
        (sed 0x0300 sERROR 2 n (setWay k) 0 { s with ways := tdel k s.ways }, true)
      else
        (sed 0x0300 sERROR 2 n (setWay k) 1 (poisonAdd line 1 (putWay k { w with poison := true } s)) |> mediaEvent line, false)
  | none =>
    match findEb s line with
    | some e =>
      let s := satInc F.LC_ERR_EB_UE s |> mempUe 2 (4 * n + 1) line ag
      let s := modSlice n (fun x => { x with eb := x.eb.map (fun b => if b.wseq = e.wseq then { b with poison := true } else b) }) s
      (sed 0x0304 sERROR 2 n (line % 2 ^ 32) 0 (poisonAdd line 1 s) |> mediaEvent line, false)
    | none =>
      match findCove s line with
      | some _ =>
        let i := (sliceOf s n).cove.findIdx (fun c => c.line == line)
        (satInc F.LC_ERR_COVE_UE (dropCove line s) |> mempUe 2 (4 * n) line ag |> sed 0x0303 sNOTICE 2 n i 0, false)
      | none => (s, false)

/-- A way's data is read by a command, the cleaner or an eviction (R205, R436): a word may be bad there too. -/
def wayRead (line : Nat) (s : State) : State :=
  match findWay s line with
  | none => s
  | some _ =>
    let (s, up) := mempRead 0 (sliceNo line) line agInternal .none s
    match up with
    | .none => s
    | .ce => mempCe 0 (sliceNo line) line s
    | _ => (dataUpsetBy agInternal line s).1

/-! ### Eviction (R189 to R191) -/

/-- Insert into Cove at the tail, in place of an older copy, dropping the head when full (R191). -/
def coveInsert (e : CoveEnt) (l : List CoveEnt) : List CoveEnt :=
  if l.any (fun c => c.line == e.line) then l.map (fun c => if c.line = e.line then e else c)
  else if 128 ≤ l.length then l.drop 1 ++ [e] else l ++ [e]

/-- A line enters the eviction buffer with the next write sequence (R189, R278). -/
def ebEnter (line key : Nat) (poison : Bool) (d : Line) (cleaner : Bool) (s : State) : State :=
  let w := s.mtl.wseq
  let s := { s with mtl := { s.mtl with wseq := (w + 1) % 2 ^ 64, unplaced := s.mtl.unplaced ++ [⟨w, line, false⟩] } }
  modSlice (sliceNo line) (fun x => { x with eb := x.eb ++ [⟨line, key, poison, d, w, cleaner, false⟩] }) s

/-- A victim leaves its way: CLEAN to Cove, DIRTY to the eviction buffer (R189). `freed` is the line whose Cove entry a
recall has just freed (R182). A CLEAN line whose data proves uncorrectable as it is read leaves nothing. -/
def evict (k : Nat) (freed : Option Nat) (s : State) : State :=
  let n := k / 65536
  let s := wayRead (lineOfWay k (tget Way.init s.ways k)) s
  let w := tget Way.init s.ways k
  let line := lineOfWay k w
  let s := { s with ways := tdel k s.ways }
  match w.st with
  | .dirty => count 0x10 n 1 (ebEnter line w.key w.poison w.data false s)
  | .clean =>
    let e : CoveEnt := ⟨line, w.key, w.poison, w.data⟩
    let s := count 0x11 n 1 s
    modSlice n (fun x => { x with cove := match freed with
      | some f => if x.cove.any (fun c => c.line == f) then x.cove.map (fun c => if c.line = f then e else c) else coveInsert e x.cove
      | none => coveInsert e x.cove }) s
  | _ => s

/-- Choose a way for a line under a mask (R179): the way, whose victim has left; none when no way is eligible. -/
def allocate (line mask : Nat) (freed : Option Nat) (s : State) : Option (State × Nat) :=
  let n := sliceNo line
  let base := wayKey n (setNo line) 0
  let ways := (List.range 16).filter (fun w => mask.testBit w)
  let at_ := fun w => tget Way.init s.ways (base + w)
  match ways.find? (fun w => (at_ w).st == .invalid) with
  | some w => some (s, base + w)
  | none =>
    let x := sliceOf s n
    let full := decide (16 ≤ x.eb.length)
    let ok := ways.filter (fun w =>
      let v := at_ w
      !v.pin && v.st != .fill && !inAmq s (lineOfWay (base + w) v) && !(v.st == .dirty && full))
    if ok.isEmpty then none
    else
      let r := lfsrStep x.lfsr
      let w := lat 0 ok (r.toNat % 65536 * ok.length / 65536)
      let k := r.toNat % 65536 * ok.length / 65536
      let v := at_ w
      let s := sndPush 5 1 (le 1 n ++ le 2 (setNo line) ++ le 1 w ++ le 1 (if v.st == .dirty then 2 else 1) ++ le 1 ok.length ++
        le 1 k ++ le 6 (lineOfWay (base + w) v) ++ zeros 3) (modSlice n (fun x => { x with lfsr := r }) s)
      some (evict (base + w) freed s, base + w)

/-! ### Fills (R183, R277) -/

def putFill (line : Nat) (f : FillSt) (s : State) : State := { s with fills := tput line f s.fills }

/-- The condition of R110 under which the device knows a line of the media as poisoned; of several that hold, the first in
R110's order. -/
def poisonCause (s : State) (line : Nat) : Nat :=
  let lost := s.mtl.lost.contains (1, fineBucket s line) || s.mtl.lost.contains (0, reachOf line) ||
    (match lostEntry s line with | some e => s.mtl.lost.contains e | none => false)
  if quarantined s line then 3 else if lost then 8 else
  match mtlLookup s line with | .poison => 1 | _ => 4

/-- A fill's outcome from opening its line (R328, R735). -/
def fillResult (line : Nat) (r : OpenRes) (s : State) : State :=
  match tfind s.fills line with
  | none => s
  | some f =>
    match r with
    | .ok d p => putFill line { f with ready := some (d, p) } s
    | .poisoned => putFill line { f with ready := some (0, true), cause := poisonCause s line } s
    | .noKey => putFill line { f with ready := some (0, true), dropped := true } s
    | .failed => if inHalt s then s else putFill line { f with ready := some (0, true) } s

/-- First host read that waits on a line, in AMQ order (R356). -/
def waitingHead (s : State) (line : Nat) : Option Nat :=
  ((sliceOf s (sliceNo line)).amq.findSome? (fun a =>
    if a.line = line then (match a.kind, a.src with | .read, .host h _ => some h | _, _ => none) else none))

/-- A line of a sector's information bytes (R215). -/
def sealedOf (info : List Byte) (j : Nat) : Sealed :=
  let w := at' info (512 + 8 * j) 8
  { ct := bytesLine (sub info (64 * j) 64), mac := BitVec.ofNat 48 (w / 2 ^ 16), gen := w / 2 ^ 8 % 256, cls := w % 256 }

/-- Open the copy that the map now gives for a fill; `got` holds a sector that was rebuilt, by its address (R247). -/
def openFillWith (got : Option (Nat × List Byte)) (line path auth : Nat) (s : State) : State :=
  match tfind s.fills line with
  | none => s
  | some f =>
    match mtlLookup s line with
    | .zero => fillResult line (.ok 0 false) s
    | .poison => fillResult line .poisoned s
    | .at_ n q i =>
      let x := match got with
        | some (p, info) => if locPsa s (.at_ n q i) = some p then some (sealedOf info (i % 8)) else sealedAt s n q i
        | none => sealedAt s n q i
      match x with
      | none => fillResult line .poisoned s
      | some x =>
        let (s, r) := openLine line f.key x (locPsa s (.at_ n q i)) path auth (waitingHead s line) s
        fillResult line r s

/-- Open the stored copy that the map now gives for a fill. -/
def openFill (line path auth : Nat) (s : State) : State := openFillWith none line path auth s

/-- Open a fill's copy, or let it wait for the leaf that is being read from the media (R343). -/
def openOrWait (got : Option (Nat × List Byte)) (line path auth : Nat) (s : State) : State :=
  match (tfind s.icu.nodeReads (line / 64)).filter (fun r => !r.came) with
  | some r => { s with icu := { s.icu with nodeReads := tput (line / 64) { r with wait := r.wait ++ [⟨line, path, auth, got⟩] } s.icu.nodeReads } }
  | none => openFillWith got line path auth s

/-- Note the path of the first host read of a line's fill (R677). -/
def fillPath (src : Src) (path media : Nat) (s : State) : State :=
  match src with | .host h t => plumbPath h t path media s | _ => s

/-- Channel and die of a sector as a sample gives them (R677). -/
def psaMedia (p : Nat) : Nat := psaDie p / 8 + psaDie p % 8 * 16

/-- Start a fill: the map is looked up, and a sense starts unless the line is zeros, poisoned or in the write buffer
(R183, R232, R277). -/
def startFill (line key : Nat) (src : Src) (s : State) : State :=
  let head := match src with | .host h _ => h | _ => 0xFF
  let s := putFill line { key := key, ready := none, dropped := false } s
  match mtlLookup s line with
  | .at_ n q i =>
    if quarantined s line then fillResult line .poisoned s
    else if inWbuf s n q then
      openOrWait none line 0 0 (nodeAsk line (fillPath src 12 (psaMedia ((locPsa s (.at_ n q i)).getD 0)) s))
    else
      match locPsa s (.at_ n q i) with
      | some p =>
        let deep := match setOf s n with | some b => setDeeps b | none => false
        nodeAsk line (enqHost (Sense.mk' p (.line line)) (fillPath src (if deep then 6 else 5) (psaMedia p) s))
      | none => fillResult line .poisoned s
  | l => count 0x08 head 1 (fillPath src 4 0 s) |> (fillResult line (if l = .zero then .ok 0 false else .poisoned))

/-! ### The persist point (R111, R165, R637) -/

/-- The line is held poisoned: the cached copy's bit, or else its poison-list entry (R111). -/
def heldPoisoned (s : State) (line : Nat) : Bool :=
  match findWay s line with
  | some (_, w) => if w.st = .fill then inPoisonList s line else w.poison
  | none =>
    match findEb s line, findCove s line with
    | some e, _ => e.poison
    | none, some c => c.poison
    | none, none => inPoisonList s line

def srcPath (src : Src) : Nat := match src with | .host h _ => h | .lcmd p => pathCode p | .mover p => pathCode p | _ => 4

/-- The poison state that a write makes of a line at its persist point (R111). `why` is POISON_STORED's or
POISON_CLEARED's third parameter. -/
def poisonNote (line why : Nat) (poison : Bool) (src : Src) (s : State) : State :=
  let old := heldPoisoned s line
  if poison && !old then
    poisonAdd line (if why = 1 then 2 else 0) s |> sed 0x0131 sNOTICE 0 (srcPath src) (line % 2 ^ 32) why
  else if !poison && old then
    poisonDel line s |> sed 0x0132 sNOTICE 0 (srcPath src) (line % 2 ^ 32) why
  else if !poison then poisonDel line s else s

/-- The forwarding of a line's change (R637), and the bitmap bits (R651). -/
def forwardNote (line key : Nat) (d : Line) (poison zero : Bool) (src : Src) (s : State) : State × Option Nat :=
  let s := mempWrite 0 (sliceNo line) line agRequest s
  if isInternal s line then (s, none) else
  match src with
  | .replica _ _ => (bitmapMark line (nrwUnsync s), none)
  | _ => nrwForward (if zero then .zero key line false else .write key line d poison false) s

/-- A change of a line whose new contents are known reaches its persist point. -/
def persist (line key why : Nat) (d : Line) (poison zero : Bool) (src : Src) (s : State) : State × Option Nat :=
  forwardNote line key d poison zero src (poisonNote line why poison src s)

/-! ### Errors of R104, R105 and R205 -/

/-- A request under a key index that holds no key (R105). -/
def noKeyMiss (h key line : Nat) (s : State) : State :=
  satInc (F.HP_CNT_NOKEY_COUNT h) s |> setF (F.HP_ERR_STAT_NOKEY h) 1
    |> sed 0x0111 sWARNING 0 h key (line % 2 ^ 32)

/-- A request's key index differs from the index held with a line (R105). -/
def kidxMiss (h req held line : Nat) (s : State) : State :=
  satInc (F.HP_CNT_KIDX_COUNT h) s |> setF (F.HP_ERR_STAT_KIDX h) 1
    |> sed 0x0114 sWARNING 0 h (req * 65536 + held) (line % 2 ^ 32)

/-- A pending write's data in the AMQ or a merge buffer meets an uncorrectable word (R205): full-line writes become
poisoned, partial ones are discarded with the normal completion that R155 gives them. -/
def pendingUpsetBy (ag line : Nat) (s : State) : State :=
  let n := sliceNo line
  let x := sliceOf s n
  if x.merge.any (fun m => m.line == line) then
    let srcs := ((x.merge.filter (fun m => m.line == line)).map (·.srcs)).flatten
    let s := modSlice n (fun x => { x with merge := x.merge.filter (fun m => m.line != line) }) s
      |> satInc F.LC_ERR2_AMQ_UE |> mempUe 2 (4 * n + 3) line ag |> sed 0x0305 sERROR 2 n (line % 2 ^ 32) 1
    forEach srcs (fun src s => writeDone src line none s) s
  else
    match x.amq.find? (fun a => a.line == line && (a.kind == .full || a.kind == .partialWrite)) with
    | some a =>
      let s := satInc F.LC_ERR2_AMQ_UE s |> mempUe 2 (4 * n + 2) line ag
      if a.kind = .full then
        sed 0x0305 sERROR 2 n (line % 2 ^ 32) 0
          (poisonAdd line 1 (modSlice n (fun x => { x with amq := lmod (fun b => b == a) (fun b => { b with poison := true }) x.amq }) s))
      else
        let s := sed 0x0305 sERROR 2 n (line % 2 ^ 32) 1
          (modSlice n (fun x => { x with amq := ldel (fun b => b == a) x.amq }) s)
        if a.persisted && !a.owed then s else writeDone a.src line none s
    | none => s

/-! The same for an access that serves a request, a command, a mover or a job. -/
def tagUpset (line : Nat) (up : Upset) (s : State) : State := tagUpsetBy agRequest line up s
def dataUpset (line : Nat) (s : State) : State × Bool := dataUpsetBy agRequest line s
def pendingUpset (line : Nat) (s : State) : State := pendingUpsetBy agRequest line s

/-! ### Operations (R181 to R202) -/

/-- What an operation's turn gives: complete, waiting for its line's fill, waiting for a way, or another operation put in
its place that waits. -/
inductive Turn where
  | done
  | fill
  | way
  | stay
deriving DecidableEq, Repr

/-- Answer a read from a copy (R104, R181); `cause` is the condition of R110 under which a poisoned copy is poisoned. -/
def readFrom (op : AmqOp) (path key cause : Nat) (d : Line) (poison : Bool) (s : State) : State :=
  match op.src with
  | .host h t =>
    if key ≠ op.key then respondDrs h t op.line 5 0 true (kidxMiss h op.key key op.line s)
    else respondDrs h t op.line cause d poison (plumbPath h t path 0 s)
  | _ => s

def headOfSrc (src : Src) : Nat := match src with | .host h _ => h | _ => 0xFF

/-- A miss allocates a FILL way and starts the fill (R183). -/
def missFill (op : AmqOp) (s : State) : State × Turn :=
  match allocate op.line (allocMask s op.src) none s with
  | none => (s, .way)
  | some (s, k) =>
    let s := putWay k ⟨tagNo op.line, op.key, false, false, .fill, 0⟩ s
    (startFill op.line op.key op.src s, .fill)

/-- Recall a Cove line into a way (R182). -/
def coveRecall (op : AmqOp) (c : CoveEnt) (s : State) : Option (State × Nat × Way) :=
  match allocate op.line (allocMask s op.src) (some op.line) s with
  | none => none
  | some (s, k) =>
    let w : Way := ⟨tagNo op.line, c.key, c.poison, false, .clean, c.data⟩
    some (putWay k w (dropCove op.line s), k, w)

/-- A read's turn (R181 to R184). -/
def turnRead (op : AmqOp) (s : State) : State × Turn :=
  let h := headOfSrc op.src
  let hit := fun (s : State) => if op.missed then s else count 0x04 h 1 s
  if fetchWanted s op.line (headOfSrc op.src) then
    (nrwFetch op.line (if s.nrw.fetches.contains op.line then s else count 0x07 h 1 s), .fill) else
  match findWay s op.line with
  | some (_, w) => if w.st = .fill then (s, .fill) else (hit (readFrom op 0 w.key 1 w.data w.poison s), .done)
  | none =>
    match findEb s op.line with
    | some e => (count 0x06 h 1 (readFrom op 2 e.key 1 e.data e.poison s), .done)
    | none =>
      match findCove s op.line with
      | some c =>
        if c.key ≠ op.key then (readFrom op 1 c.key 1 c.data c.poison s, .done)
        else match coveRecall op c s with
          | none => (s, .way)
          | some (s, _, w) => (count 0x05 h 1 (readFrom op 1 w.key 1 w.data w.poison s), .done)
      | none => let (t, r) := missFill op s
                (if r = .fill then count 0x07 h 1 t else t, r)

/-- Install a whole line as DIRTY in a way that holds it or is free for it (R186, R192, R196 ZERO). -/
def installDirty (op : AmqOp) (d : Line) (poison : Bool) (s : State) : Option State :=
  match findWay s op.line with
  | some (k, w) => some (putWay k { w with key := op.key, poison := poison, st := .dirty, data := d } s)
  | none =>
    match allocate op.line (allocMask s op.src) none s with
    | none => none
    | some (s, k) => some (putWay k ⟨tagNo op.line, op.key, poison, false, .dirty, d⟩ (dropCove op.line s))

/-- What POISON_STORED and POISON_CLEARED say of a full-line write: 1 for Inject Poison and Clear Poison, whose
operation carries mask bit 0 (the mask of a full-line write is otherwise unused). -/
def whyOf (op : AmqOp) : Nat := if op.mask.getLsbD 0 then 1 else 0

/-- Key index held with a line's cached copy (R104). -/
def heldKey (s : State) (line : Nat) : Option Nat :=
  match findWay s line with
  | some e => if e.2.st = WaySt.fill then none else some e.2.key
  | none =>
    match findEb s line with
    | some e => some e.key
    | none => match findCove s line with | some c => some c.key | none => none

/-- A host's write that replaces a line held under another key index is a mismatch (R105). -/
def kidxFull (op : AmqOp) (held : Option Nat) (s : State) : State :=
  match op.src, held with
  | .host h _, some k => if k ≠ op.key then kidxMiss h op.key k op.line s else s
  | _, _ => s

/-- The persist point of a full-line write's turn, unless the write has passed it. -/
def persistFull (op : AmqOp) (s : State) : State × Option Nat :=
  if op.persisted then (s, none) else persist op.line op.key (whyOf op) op.data op.poison (op.kind == .zero) op.src s

/-- A write's completion, unless it has had it. -/
def doneUnless (op : AmqOp) (r : Option Nat) (s : State) : State :=
  if op.persisted && !op.owed then s else writeDone op.src op.line r s

/-- A full-line write's or a ZERO's turn (R186, R196). -/
def turnFull (op : AmqOp) (s : State) : State × Turn :=
  let held := heldKey s op.line
  match findWay s op.line with
  | some e =>
    if e.2.st = .fill then (s, .fill)
    else
      let p := persistFull op (kidxFull op held s)
      (doneUnless op p.2 ((installDirty op op.data op.poison p.1).getD p.1), .done)
  | none =>
    match allocate op.line (allocMask s op.src) none s with
    | none => (s, .way)
    | some (t, k) =>
      let p := persistFull op (kidxFull op held t)
      let t := putWay k ⟨tagNo op.line, op.key, op.poison, false, .dirty, op.data⟩ (dropCove op.line p.1)
      (doneUnless op p.2 t, .done)

/-- A partial write is discarded with its normal completion (R105, R111). -/
def dropPartial (op : AmqOp) (s : State) : State := doneUnless op none s

/-- A partial write that carries the poison bit poisons its line at its persist point (R111). -/
def poisonPartial (op : AmqOp) (s : State) : State :=
  if op.persisted || !op.poison then s else poisonNote op.line 0 true op.src s

/-- Merge a partial write into a valid way (R187); one that carries the poison bit leaves the line held poisoned (R111).
DESIGN CHOICE (log entry 162): its bytes are merged too. -/
def mergeWay (op : AmqOp) (k : Nat) (w : Way) (s : State) : State :=
  let d := mergeLine w.data op.data op.mask
  let (s, r) := forwardNote op.line w.key d op.poison false op.src (poisonPartial op s)
  doneUnless op r (putWay k { w with st := .dirty, data := d, poison := op.poison } s)

/-- A partial write takes a merge buffer, its persist point (R165, R187). -/
def mergeTake (op : AmqOp) (s : State) : State :=
  let s := fillPath op.src 11 0 s
  let s := poisonPartial op s
  let sync := !(nrwSync s).isEmpty && !isInternal s op.line
  let keep := if sync && (!op.persisted || op.owed) then [op.src] else []
  let s := modSlice (sliceNo op.line) (fun x =>
    { x with merge := x.merge ++ [{ line := op.line, key := op.key, data := op.data, mask := op.mask, srcs := keep, poison := op.poison }] }) s
  if sync then s else doneUnless op none s

/-- A partial write joins the merge buffer that waits for its line (R187). -/
def mergeJoin (op : AmqOp) (s : State) : State :=
  let sync := !(nrwSync s).isEmpty && !isInternal s op.line
  let s := poisonPartial op s
  let s := modSlice (sliceNo op.line) (fun x => { x with merge := x.merge.map (fun m =>
    if m.line = op.line then { m with
      data := mergeLine m.data op.data op.mask, mask := m.mask ||| op.mask, poison := m.poison || op.poison
      srcs := if sync then m.srcs ++ [op.src] else m.srcs }
    else m) }) s
  if sync then s else doneUnless op none s

/-- The operation that starts the fill of a merge buffer's line when a way is there. -/
def fillOp (op : AmqOp) : AmqOp :=
  { op with kind := .fill, data := 0, mask := 0, poison := false, persisted := true, owed := false, waiting := false }

/-- Start the fill of a merge buffer's line, or leave it to wait for a way (R179 step 4). -/
def mergeFill (op : AmqOp) (s : State) : State × Turn :=
  match missFill op s with
  | (t, .fill) => (t, .done)
  | (t, _) => (modSlice (sliceNo op.line) (fun x => { x with amq := { fillOp op with waiting := true } :: x.amq }) t, .stay)

/-- A partial write's turn (R187, R192). -/
def turnPartial (op : AmqOp) (s : State) : State × Turn :=
  let check := fun (key : Nat) (poison : Bool) (s : State) =>
    if key ≠ op.key then some (dropPartial op (match op.src with | .host h _ => kidxMiss h op.key key op.line s | _ => s))
    else if poison then some (dropPartial op s) else none
  match findWay s op.line with
  | some (k, w) =>
    if w.st = .fill then (s, .fill)
    else match check w.key w.poison s with
      | some t => (t, .done)
      | none => (mergeWay op k w s, .done)
  | none =>
    match findEb s op.line with
    | some e =>
      (match check e.key e.poison s with
       | some t => (t, .done)
       | none =>
         match allocate op.line (allocMask s op.src) none s with
         | none => (s, .way)
         | some (s, k) => (mergeWay op k ⟨tagNo op.line, e.key, e.poison, false, .dirty, e.data⟩ (dropCove op.line s), .done))
    | none =>
      match findCove s op.line with
      | some c =>
        (match check c.key c.poison s with
         | some t => (t, .done)
         | none =>
           match coveRecall op c s with
           | none => (s, .way)
           | some (s, k, w) => (mergeWay op k w s, .done))
      | none =>
        -- absent: a merge buffer, then a fill (R187)
        if 16 ≤ (sliceOf s (sliceNo op.line)).merge.length then (s, .way)
        else mergeFill op (mergeTake op s)

/-- Lines pinned in a line's set, and whether one more under an allocation mask breaks a limit (R199). -/
def pinLimit (s : State) (line : Nat) (src : Src) : Bool :=
  let base := wayKey (sliceNo line) (setNo line) 0
  let pinned := (List.range 16).filter (fun w => (tget Way.init s.ways (base + w)).pin)
  let here := (findWay s line).map (fun e => e.1 % 16)
  let mask := allocMask s src
  decide (8 ≤ pinned.length) ||
  (headsOn s).any (fun h =>
    let m := cfgWayMask s h
    let ways := (List.range 16).filter (fun w => m.testBit w)
    let un := (ways.filter (fun w => !pinned.contains w)).length
    let takes := match here with | some w => m.testBit w | none => m &&& mask != 0
    decide (un - (if takes then 1 else 0) < 2))

/-- Copy a DIRTY way's line to the eviction buffer and mark the way CLEAN (R193, R196); the answer is the write sequence. -/
def writeBack (k : Nat) (cleaner : Bool) (s : State) : State × Nat :=
  let s := wayRead (lineOfWay k (tget Way.init s.ways k)) s
  let w := tget Way.init s.ways k
  (ebEnter (lineOfWay k w) w.key w.poison w.data cleaner (putWay k { w with st := .clean } s), s.mtl.wseq)

/-- Write sequences of a line's eviction-buffer entries. -/
def ebSeqs (s : State) (line : Nat) : List Nat :=
  ((sliceOf s (sliceNo line)).eb.filter (fun e => e.line == line)).map (·.wseq)

/-- A line command's turn on one line (R196, R199). -/
def turnLcmd (op : AmqOp) (path : Nat) (s : State) : State × Turn :=
  if filling s op.line then (s, .fill)
  else if heldKey s op.line ≠ none ∧ heldKey s op.line ≠ some op.key then (lcSkip path op.line 5 s, .done)
  else
    match op.kind with
    | .flush =>
      (match findWay s op.line with
       | some (k, w) =>
         if w.st = .dirty then
           if 16 ≤ (sliceOf s (sliceNo op.line)).eb.length then (s, .way)
           else let (s, seq) := writeBack k true s; (lcWait path op.line seq s, .done)
         else (lcDone path op.line s, .done)
       | none => (lcDone path op.line s, .done))
    | .prefetch =>
      (match findWay s op.line, findEb s op.line with
       | none, none =>
         (match findCove s op.line with
          | some c => (match coveRecall op c s with
            | none => (s, .way)
            | some (s, _, _) => (lcDone path op.line s, .done))
          | none => missFill op s)
       | _, _ => (lcDone path op.line s, .done))
    | .pin =>
      if (match findWay s op.line with | some (_, w) => w.pin | none => false) then (lcDone path op.line s, .done)
      else if pinLimit s op.line op.src then (lcSkip path op.line 6 s, .done)
      else
        (match findWay s op.line with
         | some (k, w) => (lcDone path op.line (putWay k { w with pin := true } s), .done)
         | none =>
           match findEb s op.line with
           | some e =>
             (match allocate op.line (allocMask s op.src) none s with
              | none => (s, .way)
              | some (s, k) =>
                (lcDone path op.line (putWay k ⟨tagNo op.line, e.key, e.poison, true, .dirty, e.data⟩ (dropCove op.line s)), .done))
           | none =>
             match findCove s op.line with
             | some c => (match coveRecall op c s with
               | none => (s, .way)
               | some (s, k, w) => (lcDone path op.line (putWay k { w with pin := true } s), .done))
             | none => missFill op s)
    | .demote =>
      (match findWay s op.line with
       | some (k, w) =>
         let s' := putWay k { w with pin := false } s
         if w.st = .dirty then
           if 16 ≤ (sliceOf s (sliceNo op.line)).eb.length then (s, .way)
           else let (s, seq) := writeBack k false s'; (lcWait path op.line seq s, .done)
         else (lcDone path op.line (evict k none s'), .done)
       | none =>
         let l := ebSeqs s op.line
         if l.isEmpty then (lcDone path op.line s, .done)
         else (forEach l (fun seq s => lcWait path op.line seq s) s, .done))
    | _ => (s, .done)

/-- The fill of an absent line: one for a merge buffer waits for a way, another is dropped without one. -/
def turnFill (op : AmqOp) (s : State) : State × Turn :=
  if (findWay s op.line).isSome || (findEb s op.line).isSome || (findCove s op.line).isSome then (s, .done)
  else match missFill op s with
    | (t, .fill) => (t, .done)
    | (t, r) => if (findMerge t op.line).isSome then (t, r) else (t, .done)

/-- An operation's turn. -/
def turn (op : AmqOp) (s : State) : State × Turn :=
  match op.kind with
  | .read => turnRead op s
  | .full => turnFull op s
  | .zero => turnFull op s
  | .partialWrite => turnPartial op s
  | .fill => turnFill op s
  | _ => match op.src with | .lcmd p => turnLcmd op p s | _ => turnLcmd op 4 s

/-- Run the AMQ operations of a line in order until one has to wait (R163, R202). -/
def amqRun (fuel line : Nat) (s : State) : State :=
  match fuel with
  | 0 => s
  | n + 1 =>
    let x := sliceOf s (sliceNo line)
    match x.amq.find? (fun a => a.line == line) with
    | none => s
    | some op =>
      let rest := modSlice (sliceNo line) (fun x => { x with amq := ldel (fun a => a == op) x.amq }) s
      match turn op rest with
      | (t, .done) => amqRun n line t
      | (t, .stay) => t
      | (t, r) =>
        modSlice (sliceNo line) (fun x => { x with amq := { op with waiting := r == .way, missed := op.missed || r == .fill } :: x.amq }) t

/-- Only the fill of a merge buffer waits on a line. -/
def onlyFill (s : State) (line : Nat) : Bool :=
  (sliceOf s (sliceNo line)).amq.all (fun a => a.line != line || a.kind == .fill)

/-- A write joins the AMQ behind operations on its line, and is past its persist point there (R165, R186). A partial
write's completion waits in SYNC for the merged line (R640). -/
def joinWrite (op : AmqOp) (s : State) : State :=
  let put := fun (o : AmqOp) (s : State) => modSlice (sliceNo op.line) (fun x => { x with amq := x.amq ++ [o] }) s
  let s := fillPath op.src 10 0 s
  if op.kind = .partialWrite then
    let owed := !(nrwSync s).isEmpty && !isInternal s op.line
    let s := put { op with persisted := true, owed := owed } (poisonPartial op s)
    if owed then s else writeDone op.src op.line none s
  else
    let (s, r) := persist op.line op.key (whyOf op) op.data op.poison (op.kind == .zero) op.src s
    writeDone op.src op.line r (put { op with persisted := true } s)

/-- An operation enters its slice: a partial write joins its line's merge buffer (R187); an operation on a line that has
others pending joins the AMQ behind them; any other takes its turn at once. -/
def submit (op : AmqOp) (s : State) : State :=
  let n := sliceNo op.line
  let write := op.kind == .full || op.kind == .zero || op.kind == .partialWrite
  if op.kind == .partialWrite && onlyFill s op.line &&
      (match findMerge s op.line with | some m => m.key == op.key | none => false) then mergeJoin op s
  else if inAmq s op.line || filling s op.line then
    if write then joinWrite op s
    else modSlice n (fun x => { x with amq := x.amq ++ [op] }) (if op.kind == .read then fillPath op.src 3 0 s else s)
  else
    match turn op s with
    | (t, .done) => t
    | (t, .stay) => t
    | (t, r) =>
      modSlice n (fun x => { x with amq := x.amq ++ [{ op with waiting := r == .way, missed := r == .fill }] }) t

/-- Operations waiting for a way repeat the selection (R179 step 4). -/
def retryWays (n : Nat) (s : State) : State :=
  forEach (((sliceOf s n).amq.filter (fun a => a.waiting)).map (·.line)).eraseDups (fun line s => amqRun 64 line s) s

/-- A fill's context was purged: nothing is installed, and the reads that wait get poison as NOKEY reads (R735). The line
of a PREFETCH or PIN is then complete without an effect (DESIGN CHOICE, log entry 27). -/
def fillDropped (line k key : Nat) (s : State) : State :=
  let n := sliceNo line
  let mine := fun (a : AmqOp) => a.line == line && (a.kind == .read || a.kind == .prefetch || a.kind == .pin || a.kind == .fill)
  let gone := (sliceOf s n).amq.filter mine
  let bufs := (sliceOf s n).merge.filter (fun m => m.line == line)
  let s := modSlice n (fun x => { x with
    amq := x.amq.filter (fun a => !mine a), merge := x.merge.filter (fun m => m.line != line) })
    { s with ways := tdel k s.ways }
  let s := forEach (bufs.map (·.srcs)).flatten (fun src s => writeDone src line none s) s
  forEach gone (fun a s => match a.src with
    | .host h t => if a.kind = .read then respondDrs h t line 5 0 true (noKeyMiss h key line s) else s
    | .lcmd p => lcDone p line s
    | _ => s) s

/-- A full-line operation that overtook the fill is reported (R188). -/
def fillOvertaken (line : Nat) (s : State) : State :=
  match (sliceOf s (sliceNo line)).amq.find? (fun a => a.line == line && (a.kind == .full || a.kind == .zero)) with
  | some a => sed 0x0311 sDEBUG 2 (sliceNo line) (line % 2 ^ 32) (if a.kind = .zero then 1 else 0) s
  | none => s

/-- The fill merges with a merge buffer of its line (R183, R187); a poisoned fill discards the buffer (R188). -/
def fillMerge (line k : Nat) (w : Way) (d : Line) (poison : Bool) (m : MergeBuf) (s : State) : State :=
  let s := modSlice (sliceNo line) (fun x => { x with merge := x.merge.filter (fun b => b.line != line) }) s
  if poison then
    let s := putWay k { w with st := .clean, data := d, poison := true } s
    let s := satInc F.LC_ERR2_PARTIAL_DROP s |> sed 0x0310 sNOTICE 2 (sliceNo line) (line % 2 ^ 32) 0
    forEach m.srcs (fun src s => writeDone src line none s) s
  else
    let v := mergeLine d m.data m.mask
    let r := forwardNote line m.key v m.poison false (lat .internal m.srcs 0) s
    let s := putWay k { w with st := .dirty, data := v, poison := m.poison } r.1
    forEach m.srcs (fun src s => writeDone src line r.2 s) s

/-- Answer the reads at the head of a line's AMQ from its poisoned fill, with the condition under which it is poisoned
(R110, R183). -/
def fillReads (fuel line cause : Nat) (s : State) : State :=
  match fuel with
  | 0 => s
  | n + 1 =>
    match (sliceOf s (sliceNo line)).amq.find? (fun a => a.line == line), findWay s line with
    | some op, some (_, w) =>
      if op.kind ≠ .read ∨ w.st = .fill then s else
      let s := modSlice (sliceNo line) (fun x => { x with amq := ldel (fun a => a == op) x.amq }) s
      let s := if op.missed then s else count 0x04 (headOfSrc op.src) 1 s
      fillReads n line cause (readFrom op 0 w.key cause w.data w.poison s)
    | _, _ => s

/-- A line's merge buffer has lost its fill with the way (R175): the fill starts again. -/
def refill (line : Nat) (s : State) : State :=
  match findMerge s line with
  | some m =>
    if inAmq s line || filling s line then s
    else submit { kind := .fill, line := line, key := m.key, poison := false, data := 0, mask := 0, src := lat .internal m.srcs 0
                  waiting := false, persisted := true } s
  | none => s

/-- A fill returns (R183, R188, R202, R735): install it, merge what waits for it, then run the line's AMQ. Where the way has
been lost meanwhile (R175), what waits for the fill takes its turn again. -/
def fillReturn (line : Nat) (s : State) : State :=
  match tfind s.fills line with
  | none => s
  | some f =>
    match f.ready with
    | none => s
    | some (d, poison) =>
      let s := { s with fills := tdel line s.fills }
      match findWay s line with
      | none => retryWays (sliceNo line) (refill line (amqRun 64 line s))
      | some (k, w) =>
        let s := if f.dropped then fillDropped line k f.key s
          else
            let s := fillOvertaken line s
            match findMerge s line with
            | none => putWay k { w with st := .clean, data := d, poison := poison } s
            | some m => fillMerge line k w d poison m s
        let s := if poison && !f.dropped then fillReads 64 line f.cause s else s
        retryWays (sliceNo line) (amqRun 64 line s)

/-- Raised priority of the cleaners (R195). -/
def raised (s : State) : Bool := inGuard s || bit s F.LC_CLEAN_CTL_FORCE

/-- A slice's cleaner runs: raised, or at normal priority between its levels (R194, R195); it stops in INTEGRITY HALT
(R207). -/
def cleanRuns (s : State) (n : Nat) : Bool := !inHalt s && (raised s || (sliceOf s n).cleaning)

/-! ### Running line commands (R196, R199) -/

/-- Key index of a line for a line command (R197). -/
def lcKey (s : State) (path line : Nat) : Nat :=
  if isHead path && !tagged s path then (match regionOf s path line with | some r => r.key | none => 0)
  else fld s (F.LC_LCMD_CTL_KEYIDX path)

def lcKind (op : Nat) : AmqKind :=
  if op = 1 then .zero else if op = 2 then .flush else if op = 3 then .prefetch else if op = 4 then .pin else .demote

/-- Issue the lines of a path's command in ascending order, at most 64 in flight (R199). -/
def lcPump (fuel path : Nat) (s : State) : State :=
  match fuel with
  | 0 => s
  | n + 1 =>
    match tfind s.lcmds path with
    | none => s
    | some c =>
      if c.stop ≠ 0 ∨ c.count ≤ c.next ∨ 64 ≤ c.inFlight.length then s
      else
        let line := c.line + c.next
        if 64 ≤ (sliceOf s (sliceNo line)).amq.length then s
        else if c.op == 1 && !admitLine s line then s
        else
          let s := { s with lcmds := tput path { c with next := c.next + 1, inFlight := c.inFlight ++ [line] } s.lcmds }
          let s := submit { kind := lcKind c.op, line := line, key := lcKey s path line, poison := false, data := 0, mask := 0
                            src := .lcmd path, waiting := false, persisted := false } s
          lcPump n path s

/-- A FLUSH's or DEMOTE's line whose write-backs have left the eviction buffer (R190, R196): a FLUSH is complete; a DEMOTE
takes the line out of the slice into Cove, after another write-back where it has become DIRTY again or has a later entry. -/
def lcSettleLine (path op line : Nat) (s : State) : State :=
  if op ≠ 5 then lcDone path line s else
  match findWay s line with
  | some (k, w) =>
    if w.st = .dirty then
      if 16 ≤ (sliceOf s (sliceNo line)).eb.length then s
      else let (s, seq) := writeBack k false s; lcWait path line seq s
    else if w.st = .clean ∧ inAmq s line = false then lcDone path line (evict k none s)
    else if w.st = .clean then s
    else lcDone path line s
  | none =>
    let l := ebSeqs s line
    if l.isEmpty then lcDone path line s else forEach l (fun seq s => lcWait path line seq s) s

/-- Settle the lines of every running FLUSH and DEMOTE. -/
def lcSettle (s : State) : State :=
  forEach s.lcmds (fun e s =>
    forEach ((e.2.waits.map (·.1)).eraseDups.filter (fun line =>
      e.2.waits.all (fun w => w.1 != line || !(ebSeqs s line).contains w.2))) (fun line s => lcSettleLine e.1 e.2.op line s) s) s

/-- The latch of each slice's cleaner (R194): from the time its dirty lines reach START until they fall to STOP. -/
def cleanLatch (s : State) : State :=
  forEach (List.range 48) (fun n s =>
    let d := dirtyIn s n
    let on := (sliceOf s n).cleaning
    if !on && decide (fld s F.LC_CLEAN_CTL_START * 1024 ≤ d) then modSlice n (fun x => { x with cleaning := true }) s
    else if on && decide (d ≤ fld s F.LC_CLEAN_CTL_STOP * 1024) then modSlice n (fun x => { x with cleaning := false }) s
    else s) s

/-- Settle and issue the lines of every running command. -/
def lcPumpAll (s : State) : State :=
  let s := cleanLatch s
  if inHalt s || !coreOn s then s
  else
    let s := lcSettle s
    forEach s.lcmds (fun e s => lcPump (e.2.count + 1) e.1 s) s

end Sys2Proof.Machine
end

