-- ==== Sys2Proof/Machine/Fabric.lean ====
section
/-! DEFINITION. CXL.mem requests: decode and rejection (R101 to R106), ordered issue to the slices (R145, R160 to R166),
and the queue fabric's commands (R149 to R156). -/

namespace Sys2Proof.Machine

/-! ### Acceptance (R101 to R105) -/

/-- The head takes CXL.mem requests: its link is up, memory is active, and neither a halt, a flush nor a power state
stops it (R140, R167, R353; before Memory_Active: log entry 22). -/
def headTakes (s : State) (h : Nat) : Bool :=
  headOn s h && bit s (F.HP_LINK_STAT_UP h) && (headOf s h).memoryActive && !inHalt s && !inFlush s && coreOn s &&
  !s.pwr.stopped.contains 0

/-- IDE is required and not established (R105, R125). -/
def ideLacks (s : State) (h : Nat) : Bool :=
  let st := fld s (F.HP_IDE_STAT_STATE h)
  (ideReq s h || st == 2) && st != 1

/-- HPA to line and key index of head h (R101): none when no committed decoder, or no region, holds it. -/
def decodeReq (s : State) (h hpa : Nat) : Option (Nat × Nat × Option Region) :=
  let a := if tagged s h then hpa % 2 ^ 40 else hpa
  match hdmDecode s h a with
  | none => none
  | some dpa =>
    let line := dpa / 64
    let r := regionOf s h line
    let key := if tagged s h then hpa / 2 ^ 40 % 4096 else match r with | some r => r.key | none => 0
    some (line, key, r)

/-- A request matched no decoder. DESIGN CHOICE (log entry 154): DECODE_MISS gives the HPA as it was sent, a tagged-mode
head's key index in HPA[51:40] included. -/
def missRec (h hpa : Nat) (s : State) : State :=
  satInc (F.HP_CNT_MISS_COUNT h) s |> setF (F.HP_ERR_STAT_MISS h) 1
    |> sed 0x0110 sNOTICE 0 h (hpa % 2 ^ 32) (hpa / 2 ^ 32)

/-- The row of R105 that serves a request without the media: the entry's mark, and its counter and event. -/
def rejectReq (h hpa : Nat) (write : Bool) (d : Option (Nat × Nat × Option Region)) (s : State) : Nat × State :=
  match d with
  | none => (1, missRec h hpa s)
  | some (line, key, r) =>
    if write && (roLine s h line || deviceRo s line) then
      (2, satInc (F.HP_CNT_RO_COUNT h) (if nrwReadOnly s then satInc F.NRW_CNT_RO_COUNT s else s)
        |> setF (F.HP_ERR_STAT_RO h) 1
        |> sed 0x0112 sNOTICE 0 h (match r with | some r => r.idx | none => 0) (line % 2 ^ 32))
    else if !keyHolds s key then
      (3, noKeyMiss h key line s)
    else if ideLacks s h then
      (4, satInc (F.HP_CNT_IDE_COUNT h) s |> setF (F.HP_ERR_STAT_IDE h) 1
        |> sed 0x0113 sNOTICE 0 h (if write then 0 else 1) (line % 2 ^ 32))
    else (0, s)

/-- What the request meets on the way to its line (R175, R205, R271, R412): the mark 10 for a read that met an
uncorrectable word of a CLEAN line. -/
def meet (line : Nat) (read : Bool) (up : Upset) (s : State) : Nat × State :=
  let n := sliceNo line
  -- the set's entries in array A, then in array B
  let (s, a) := mempRead 1 (2 * n) (setNo line) agRequest
    (match up with | .tagUe => .ue | .tagBoth => .ue | _ => .none) s
  let (s, b) := mempRead 1 (2 * n + 1) (setNo line) agRequest
    (match up with | .tagUeB => .ue | .tagBoth => .ue | _ => .none) s
  let s := if a = .ce then mempCe 1 (2 * n) (setNo line) s else s
  let s := if b = .ce then mempCe 1 (2 * n + 1) (setNo line) s else s
  let s := if a = .ue ∧ b = .ue then tagUpset line .tagBoth s
    else if a = .ue then tagUpset line .tagUe s else if b = .ue then tagUpset line .tagUeB s else s
  let hit := (findWay s line).isSome
  let (s, data) := if hit then mempRead 0 n line agRequest (match up with | .ce => .ce | .ue => .ue | _ => .none) s
    else mempRead 2 (4 * n) line agRequest (match up with | .ce => .ce | .ue => .ue | _ => .none) s
  let (s, bad) := match data with
    | .ce => (mempCe (if hit then 0 else 2) n line s, false)
    | .ue => if hit || (findEb s line).isSome || (findCove s line).isSome then dataUpset line s else (pendingUpset line s, false)
    | _ => (s, false)
  let s := if up = .vote then mempVote 0 n (setNo line) s else s
  let consults := (findWay s line).isNone && (findEb s line).isNone && (findCove s line).isNone
  let (s, entry) := if consults && up != .mapUe && up != .mapBoth then mempRead 12 (line % 2) line agRequest .none s else (s, .none)
  let s := match entry with
    | .ce => mempCe 12 (line % 2) line s
    | .ue => mapUpset line .mapUe s
    | _ => s
  let s := mapUpset line up s
  (if bad && read then 10 else 0, s)

/-! ### Issue (R145, R157, R160 to R164) -/

/-- a is an earlier arrival than b (R146). -/
def earlier (a b : Nat) : Bool := decide ((b + 65536 - a) % 65536 < 32768) && a != b

/-- A write of head h still waits for its persist point in an AMQ (R161). -/
def writeWaits (s : State) (h : Nat) : Bool :=
  s.slices.any (fun e => e.2.amq.any (fun a => !a.persisted && a.kind != .read &&
    (match a.src with | .host h' _ => h' == h | _ => false)))

def amqFull (s : State) (line : Nat) : Bool := decide (64 ≤ (sliceOf s (sliceNo line)).amq.length)

/-- Contents of an internal line (R268): 64 bytes of a head's label storage area, or two slots of the Sediment region. -/
def internalData (s : State) (line : Nat) : Line :=
  let o := line - lineEnd s
  if o < 0x4000 then bytesLine (mbytes 0 (headOf s (o / 0x1000)).lsa (64 * (o % 0x1000)) 64)
  else bytesLine ((List.range 2).flatMap (fun k =>
    match tfind s.sed.region (2 * (o - 0x4000) + k) with | some r => recBytes r | none => zeros 32))

/-- The full-line write of an internal line under the device context (R20, R321, R542). -/
def internalPut (line : Nat) (s : State) : State :=
  submit { kind := .full, line := line, key := 0, poison := false, data := internalData s line, mask := 0, src := .internal
           waiting := false, persisted := false } s

/-- Internal lines that wait enter the slices whose address-match queues have room. -/
def internalServe (s : State) : State :=
  forEach s.mtl.internalQ (fun line s =>
    if amqFull s line then { s with mtl := { s.mtl with internalQ := s.mtl.internalQ ++ [line] } } else internalPut line s)
    { s with mtl := { s.mtl with internalQ := [] } }

/-- A partial write finds its merge buffer, or needs none (R187). -/
def mergeRoom (s : State) (line : Nat) : Bool :=
  (findWay s line).isSome || (findEb s line).isSome || (findCove s line).isSome || (findMerge s line).isSome ||
  decide ((sliceOf s (sliceNo line)).merge.length < 16)

/-- The slices serve (R168, R207); after the start of a flush only what R167 drives. -/
def slicesServe (s : State) : Bool := !inHalt s && coreOn s && unitOn s 2

/-- A write of head h is admitted to the slices (R160, R593, R595, R644); a flush drives every write it finds (R167). -/
def writeAdmit (s : State) (h line : Nat) : Bool :=
  inFlush s || (admitLine s line && !nrwBlocked s && rateRoom s h)

/-- The oldest write of a head may issue: its completion has an egress entry (R145), which a flush does not wait for, its
MAC has been checked (R166), no earlier write waits (R161), and its slice takes it (R187, R203). -/
def writeReady (s : State) (h : Nat) (e : QEntry) : Bool :=
  let q := queueOf s (iqRwd h)
  slicesServe s && !q.stopped && (canReserve s (eqNdr h) || inFlush s) && e.ideOk && !writeWaits s h &&
  (e.rej != 0 || (!amqFull s e.line && writeAdmit s h e.line && (e.kind != .partialWrite || mergeRoom s e.line)))

/-- The oldest read of a head may issue: its MAC has been checked (R124), and no earlier write of the head to its line is
queued (R162). -/
def readReady (s : State) (h : Nat) (e : QEntry) : Bool :=
  let q := queueOf s (iqReq h)
  slicesServe s && !q.stopped && canReserve s (eqDrs h) && e.ideOk && !readEnds e &&
  (e.rej != 0 || (!amqFull s e.line &&
    !(queueOf s (iqRwd h)).entries.any (fun w => w.rej == 0 && w.line == e.line && earlier w.arrival e.arrival)))

/-- The operation that a queue entry gives its slice. -/
def opOf (h : Nat) (e : QEntry) : AmqOp :=
  { kind := match e.kind with | .write => .full | .partialWrite => .partialWrite | _ => .read
    line := e.line, key := e.key, poison := e.poison, data := e.data, mask := e.mask, src := .host h e.tag
    waiting := false, persisted := false }

/-- An entry's data word is uncorrectable (R155); a write that R105 discards stores nothing to poison. -/
def entryUpset (q : Nat) (e : QEntry) (s : State) : State :=
  let mark := fun (f : QEntry → QEntry) (s : State) =>
    modQueue q (fun x => { x with entries := lmod (fun y => y == e) f x.entries }) s
  if 16 ≤ q then
    -- the partner resends from this entry on (R650)
    nrwFrame (q - 16) 0x09 (ownPos s) e.rseq false none (removeEntries q (fun y => decide (e.rseq ≤ y.rseq)) s)
  else
    let h := q / 4
    if e.bad then s else
    match e.kind with
    | .write =>
      let s := mark (fun y => { y with poison := true, bad := true }) s
      if e.rej ≠ 0 then s
      else satInc (F.QF_Q_ERR_POISONED q) s |> poisonAdd e.line 1 |> sed 0x0206 sERROR 1 h (e.line % 2 ^ 32) 0
    | .partialWrite =>
      let s := mark (fun y => { y with bad := true }) s
      if e.rej ≠ 0 then s else sed 0x0206 sERROR 1 h (e.line % 2 ^ 32) 1 s
    | .drs => drsUpset q e s
    | _ => s

/-- An uncorrectable ring word (R154 steps 1 and 2, R155): `i` counts from the oldest ring entry. A queue whose ring is
not in use has its error in a pool cell. -/
def doRingUeBy (ag q i word : Nat) (s : State) : State :=
  if !queueOn s q then s else
  let x := queueOf s q
  match x.entries[i]? with
  | none => s
  | some e =>
    let s := ringUeCount ag q i word e s
    -- words 0 and 1 are the header, which the request tracker restores; words 2 to 10 are data
    if 2 ≤ word ∧ word ≤ 10 then entryUpset q e s else s

/-- The same at a dequeue. -/
def doRingUe (q i word : Nat) (s : State) : State := doRingUeBy agRequest q i word s

/-- Write data arrives at its slice uncorrectable (R422, as R155): a full write is stored poisoned, a partial one is
discarded. -/
def busWrite (h : Nat) (bad : Bool) (e : QEntry) (s : State) : QEntry × State :=
  if !bad || e.rej != 0 || e.bad then (e, s)
  else if e.kind = .write then
    ({ e with poison := true, bad := true },
     poisonAdd e.line 1 (satInc (F.QF_Q_ERR_POISONED (iqRwd h)) s) |> sed 0x0206 sERROR 1 h (e.line % 2 ^ 32) 0)
  else ({ e with bad := true }, sed 0x0206 sERROR 1 h (e.line % 2 ^ 32) 1 s)

/-- Issue the oldest write of head h. In a flush that finds no egress entry for it, its completion is lost with the power
(DESIGN CHOICE, log entry 164). -/
def issueWrite (h : Nat) (e : QEntry) (s : State) : State :=
  let room := canReserve s (eqNdr h)
  let s := freeIngress (iqRwd h) (takeEntry (iqRwd h) (fun _ => true) s)
  let s := if room then reserveOut (eqNdr h) s
    else { s with tracker := s.tracker.filter (fun x => !(x.head == h && x.tag == e.tag)) }
  let (s, bad) := busWord 0 agRequest s
  let (e, s) := busWrite h bad e s
  let answer := fun (s : State) => if room then respondNdr h e.tag s else s
  if e.rej ≠ 0 then answer (plumbPath h e.tag 14 0 s)
  -- a partial write with an uncorrectable data word, and a write whose index came under a purge since its acceptance, are
  -- dropped on entry (R155, R204)
  else if (e.kind = .partialWrite ∧ e.bad = true) ∨ keyHolds s e.key = false then answer s
  else
    let op := opOf h e
    submit (if room then op else { op with src := .internal }) (rateUse h s)

/-- Issue the oldest read of head h. -/
def issueRead (h : Nat) (e : QEntry) (s : State) : State :=
  let s := reserveOut (eqDrs h) (takeEntry (iqReq h) (fun _ => true) s)
  let s := freeIngress (iqReq h) s
  let s := (busWord 0 agRequest s).1
  if e.rej = 10 then respondDrs h e.tag e.line 2 0 true s
  else if e.rej ≠ 0 then respondDrs h e.tag e.line 5 0 true (plumbPath h e.tag 14 0 s)
  else if keyHolds s e.key = false then respondDrs h e.tag e.line 5 0 true (plumbPath h e.tag 14 0 (noKeyMiss h e.key e.line s))
  else submit (opOf h e) s

/-- Issue what a head's queues allow; writes and reads take turns. The entry that is about to be dequeued is read first:
one that stops its ring waits for the copy-switch. -/
def issueHead (fuel h : Nat) (s : State) : State :=
  match fuel with
  | 0 => s
  | n + 1 =>
    let s := match (queueOf s (iqRwd h)).entries with
      | e :: _ => if writeReady s h e then frontRead (iqRwd h) (fun w s => doRingUe (iqRwd h) 0 w s) s else s
      | [] => s
    let s := match (queueOf s (iqReq h)).entries with
      | e :: _ => if readReady s h e then frontRead (iqReq h) (fun w s => doRingUe (iqReq h) 0 w s) s else s
      | [] => s
    let w := match (queueOf s (iqRwd h)).entries with | e :: _ => if writeReady s h e then some e else none | [] => none
    let t := match w with | some e => issueWrite h e s | none => s
    let r := match (queueOf t (iqReq h)).entries with | e :: _ => if readReady t h e then some e else none | [] => none
    match w, r with
    | none, none => s
    | _, some e => issueHead n h (issueRead h e t)
    | some _, none => issueHead n h t

/-- The replica entry whose turn it is, and the link that carried it (R638). -/
def replicaNext (s : State) : Option (Nat × QEntry) :=
  [0, 1].findSome? (fun l =>
    match (queueOf s (16 + l)).entries with
    | e :: _ => if e.rseq == s.nrw.nextApply && !(queueOf s (16 + l)).stopped then some (l, e) else none
    | [] => none)

/-- The replica entry whose turn it is, after the fabric has read its words (R154): one that stops its ring waits for the
copy-switch, one with an uncorrectable data word is gone (R155). -/
def replicaRead (s : State) : State × Option (Nat × QEntry) :=
  match replicaNext s with
  | none => (s, none)
  | some (l, _) =>
    let s := frontRead (16 + l) (fun w s => doRingUe (16 + l) 0 w s) s
    (s, replicaNext s)

/-- A region's last line has been applied: its bit in the received bitmap ends, and with the last bit the resync
(R652, R654; log entry 73). -/
def recvDone (line : Nat) (s : State) : State :=
  if line % 16384 ≠ 16383 ∨ !s.nrw.recvBits.contains (line / 16384) then s else
  let l := s.nrw.recvBits.erase (line / 16384)
  { s with nrw := { s.nrw with recvBits := l, stale := s.nrw.stale && !l.isEmpty } }

/-- Take a replica entry from its queue and put it to its slice; the answer to a FETCH ends the fetch entry that the
line's reads wait behind (R654). -/
def applyReplica (l : Nat) (e : QEntry) (s : State) : State :=
  let s := takeEntry (16 + l) (fun _ => true) s
  let s := { s with nrw := { s.nrw with nextApply := e.rseq + 1 } }
  let op : AmqOp :=
    { kind := if e.kind == .zero then .zero else .full, line := e.line, key := e.key, poison := e.poison, data := e.data
      mask := 0, src := .replica l e.rseq, waiting := false, persisted := false }
  if s.nrw.fetches.contains e.line then
    let s := { s with nrw := { s.nrw with fetches := s.nrw.fetches.erase e.line } }
    match turn op s with
    | (t, .done) => amqRun 64 e.line t
    | (t, .stay) => t
    | (t, r) => modSlice (sliceNo e.line) (fun x => { x with amq := { op with waiting := r == .way } :: x.amq }) t
  else
    let s := submit op s
    if e.resync then recvDone e.line s else s

/-- Replica writes issue to the slices in RSEQ order, whichever link carried them (R638), while a relay's send lists have
room (R644); RELEASE and BITMAP entries take their turn in Narrows. -/
def issueReplica (fuel : Nat) (s : State) : State :=
  match fuel with
  | 0 => s
  | n + 1 =>
    match replicaNext s with
    | none => s
    | some (_, e) =>
      if !slicesServe s || !(e.kind == .write || e.kind == .zero) || amqFull s e.line ||
          !(inFlush s || admitLine s e.line) ||
          [0, 1].any (fun k => decide (512 ≤ (linkOf s k).send.length)) then s
      else
        match replicaRead s with
        | (s, some (l, e)) => issueReplica n (applyReplica l e s)
        | (s, none) => s

/-- The write issue of a head is held by the supervisor's budget or rate (R160, R593, R595): its oldest write would be
admitted otherwise. -/
def issueHeld (s : State) (h : Nat) : Bool :=
  match (queueOf s (iqRwd h)).entries with
  | e :: _ => slicesServe s && !inFlush s && e.rej == 0 && (!admitLine s e.line || (inGuard s && !rateRoom s h))
  | [] => false

/-- The cycle events of R674 whose condition holds: ingress queues in PACED, write issue held, slices whose AMQ is full, links
with their hold output asserted. -/
def cycleEvents (s : State) : List Nat :=
  (headsOn s).flatMap (fun h =>
    (if (queueOf s (iqReq h)).paced || (queueOf s (iqRwd h)).paced then [0x5000 + h] else []) ++
    (if issueHeld s h then [0x5100 + h] else [])) ++
  (s.slices.filter (fun e => decide (64 ≤ e.2.amq.length))).map (fun e => 0x1300 + e.1) ++
  ([0, 1].filter (fun n => (fld s F.QF_HOLD_STAT_OUT).testBit n)).map (fun n => 0x5300 + n)

/-- Note the cycle events that hold now: one that begins or has ended has not held throughout the tick. -/
def cycleNote (s : State) : State :=
  let l := cycleEvents s
  let old := s.obs.cyc.map (fun e => (e.1, e.2 && l.contains e.1))
  { s with obs := { s.obs with cyc := l.foldl (fun t k => if (tfind t k).isSome then t else tput k false t) old } }

/-- The cycle events of the tick that ends (R668, R674): 6,000 core cycles; the idle cycles that R622 inserted among a head's
issue cycles; 6,000 for a condition that has held throughout; for one that has held in part, a free number of cycles from 1
to 6,000 (log entry 217). -/
def cycleTick (s : State) : State :=
  let l := cycleEvents s
  let s := cycleNote (count 0x70 0 6000 s)
  let idle := match throttleLevel s with | 0 => 0 | 1 => 7 | 2 => 3 | _ => 1
  let s := if idle = 0 then s else forEach (headsOn s) (fun h s => count 0x52 h (tget 0 s.sup.issued h / idle) s) s
  let s := forEach s.obs.cyc (fun e s =>
    if e.2 then count (e.1 / 256) (e.1 % 256) 6000 s
    else
      let (v, s) := draw 32 s
      count (e.1 / 256) (e.1 % 256) (1 + v.toNat % 6000) s) s
  { s with obs := { s.obs with cyc := l.foldl (fun t k => tput k true t) [] } }

/-- Issue everything that can issue, and complete the reads that a halt or a flush has ended. -/
def pump (s : State) : State :=
  cycleNote <|
  let s := forEach (headsOn s) (fun h s =>
    let s := endReads (queueOf s (iqReq h)).occ h s
    issueHead ((queueOf s (iqReq h)).occ + (queueOf s (iqRwd h)).occ + 1) h s) s
  lcPumpAll (issueReplica ((queueOf s 16).occ + (queueOf s 17).occ + 1) s)

/-! ### Requests -/

/-- The ingress queue of a request. -/
def ingress (h : Nat) (kind : QKind) : Nat := if kind == .read then iqReq h else iqRwd h

/-- The MAC of a head's aggregation interval has been checked (R124): its requests may issue. -/
def ideRelease (h : Nat) (s : State) : State :=
  let ok := fun (x : Queue) => { x with entries := x.entries.map (fun e => { e with ideOk := true }) }
  modQueue (iqReq h) ok (modQueue (iqRwd h) ok s)

/-- In skid mode the media read of a request that waits for its MAC check starts before the check (R124). -/
def skidFill (h tag key line : Nat) (s : State) : State :=
  if (cfgPort s h).testBit 6 && slicesServe s && !inAmq s line && !filling s line && (findWay s line).isNone &&
      (findEb s line).isNone && (findCove s line).isNone && (findMerge s line).isNone && !fetchWanted s line h then
    submit { kind := .fill, line := line, key := key, poison := false, data := 0, mask := 0, src := .host h tag
             waiting := false, persisted := true } s
  else s

/-- Put a request into its ingress queue (R144, R146): it takes a credit, is decoded and judged, and is tracked. With IDE
established, a request waits for the MAC check of its aggregation interval, which ends with a request that is `last` of its
interval (R124). -/
def takeRequest (h hpa tag : Nat) (kind : QKind) (d : Line) (mask : BitVec 64) (poison : Bool) (up : Upset) (last : Bool)
    (s : State) : State :=
  let q := ingress h kind
  let pk := if kind == .read then 0 else if kind == .write then 1 else 2
  let s := modQueue q (fun x => { x with credits := x.credits - 1 }) s
  let s := idleLeave 2 { s with pwr := { s.pwr with quietTicks := 0 } }
  let s := if pk = 0 then count 0x01 h 1 s else count 0x02 h 1 s
  let s := if pk = 2 then count 0x03 h 1 s else s
  let dec := decodeReq s h hpa
  let (rej, s) := rejectReq h hpa (pk != 0) dec s
  let (line, key) := match dec with | some (l, k, _) => (l, k) | none => (0, 0)
  let (hit, s) := if rej = 0 then meet line (pk == 0) up s else (0, s)
  let n := (headOf s h).arrival
  let s := plumbSelect h pk tag key line hpa (queueOf s q).occ { s with tracker := s.tracker ++ [⟨h, tag, pk, key, line, pathOpen, n % 1024, n, poison⟩] }
  let s := mempWriteRow 4 h (2 * (n % 1024)) 2 agRequest s
  let s := modHead h (fun x => { x with arrival := (n + 1) % 65536, lowPower := 0 }) s
  let ok := last || fld s (F.HP_IDE_STAT_STATE h) != 1
  let e := { QEntry.blank kind tag with
    poison := poison, arrival := n, key := key, line := line, data := d, mask := mask, ideOk := ok
    rej := if rej ≠ 0 then rej else hit }
  let s := enqueue q e s
  if ok then ideRelease h s
  else if kind = .read ∧ e.rej = 0 then skidFill h tag key line s else s

/-- The head has room for a request: it takes requests, a credit is left, its queue is not full, and its tracker has a free
entry (R146, R147). -/
def takes (s : State) (h : Nat) (kind : QKind) : Bool :=
  headTakes s h && (queueOf s (ingress h kind)).credits != 0 && decide ((queueOf s (ingress h kind)).occ < 512) &&
  decide ((s.tracker.filter (fun x => x.head == h)).length < 1024)

/-- Accept a request, then issue what can issue. -/
def accept (h hpa tag : Nat) (kind : QKind) (d : Line) (mask : BitVec 64) (poison : Bool) (up : Upset) (last : Bool)
    (s : State) : State :=
  if takes s h kind then pump (takeRequest h hpa tag kind d mask poison up last s) else s

/-- MEM_RD (R101, R110, R181 to R184). -/
def execMemRd (head hpa tag : Nat) (up : Upset) (last : Bool) (s : State) : Host.Outcome State Fault Refusal :=
  run (accept head hpa tag .read 0 0 false up last) s

/-- MEM_WR (R111, R165, R186). -/
def execMemWr (head hpa tag : Nat) (data : Line) (poison : Bool) (up : Upset) (last : Bool) (s : State) :
    Host.Outcome State Fault Refusal :=
  run (accept head hpa tag .write data 0 poison up last) s

/-- MEM_WR_PTL (R187, R188). -/
def execMemWrPtl (head hpa tag : Nat) (data : Line) (mask : BitVec 64) (poison : Bool) (up : Upset) (last : Bool)
    (s : State) : Host.Outcome State Fault Refusal :=
  run (accept head hpa tag .partialWrite data mask poison up last) s

/-- HOST_S2M_CREDIT_RETURN (R144): the host returns credits, and what waits is presented. -/
def execHostS2mCreditReturn (head ndr drs : Nat) (s : State) : Host.Outcome State Fault Refusal :=
  run (fun s => if headOn s head then
    pump (present head (modHead head (fun x => { x with ndrCredit := x.ndrCredit + ndr, drsCredit := x.drsCredit + drs }) s))
    else s) s

/-- ALLOCATION_RETRY (R179 step 4). -/
def execAllocationRetry (slice : Nat) (s : State) : Host.Outcome State Fault Refusal :=
  run (fun s => if slicesServe s && decide (slice < 48) then pump (retryWays slice s) else s) s

/-- MERGE_BUFFER_FREED (R187): the partial write held for a merge buffer proceeds. -/
def execMergeBufferFreed (slice : Nat) (s : State) : Host.Outcome State Fault Refusal :=
  run (fun s => if slicesServe s && decide (slice < 48) then pump (retryWays slice s) else s) s

/-- FILL_RETURN (R183, R188, R202, R205, R735): `up` is what the installed line's words meet. -/
def execFillReturn (line : Nat) (up : Upset) (s : State) : Host.Outcome State Fault Refusal :=
  run (fun s =>
    if !slicesServe s then s
    else
      let (s, bus) := busWord 2 agRequest s
      let s := if bus then pendingUpset line s else s
      let s := if up = .ce then mempCe 2 (4 * sliceNo line + 3) line s
        else if up = .ue then pendingUpset line s
        else if up = .vote then mempVote 2 (4 * sliceNo line + 3) (setNo line) s else s
      pump (fillReturn line s)) s

/-! ### Ring tests and modes (R149 to R155) -/

/-- Cells that no queue has reserved (R149). -/
def unreserved (s : State) : Nat := 4096 - min 4096 (poolReserved s)

/-- A queue has its full credit allowance: until its head has returned its last 448 credits, its queues hold at most what
64 credits bring (R149, R152). -/
def fullCredits (s : State) (q : Nat) : Bool := decide (16 ≤ q) || (fld s F.QF_CTL_CREDITS_FULL).testBit (q / 4)

/-- A queue enters POOL: with its full credit allowance it reserves 512 cells, or waits with its credits withheld (R149). -/
def reservePool (q : Nat) (s : State) : State :=
  if !fullCredits s q then s
  else if 512 ≤ unreserved s then modQueue q (fun x => { x with reserved := 512 }) s
  else
    let s := modQueue q (fun x => { x with resvWait := true }) s
    setF F.QF_POOL_STAT_SHORT 1 s |> sed 0x0205 sWARNING 1 q (4096 - min 4096 (poolUsed s)) (poolReserved s)

/-- A mode switch of a queue. -/
def setMode (q m : Nat) (s : State) : State :=
  satInc (F.QF_Q_ERR_SWITCHES q) (modQueue q (fun x => { x with mode := m }) s)

/-- When both ingress queues of a head are in RING mode, the head returns its remaining 448 credits a channel, as
ordinary credit returns while its link is up (R152). -/
def creditsFull (h : Nat) (s : State) : State :=
  let full := (fld s F.QF_CTL_CREDITS_FULL).testBit h
  if !full && (queueOf s (iqReq h)).mode == 0 && (queueOf s (iqRwd h)).mode == 0 then
    let s := setF F.QF_CTL_CREDITS_FULL (fld s F.QF_CTL_CREDITS_FULL ||| 2 ^ h) s
    if bit s (F.HP_LINK_STAT_UP h) then returnCredits (iqRwd h) 448 (returnCredits (iqReq h) 448 s) else s
  else s

/-- Every present ring has finished its start-up test (R170): READY and the record. -/
def ringsReady (s : State) : State :=
  let qs := queuesOn s
  let done := qs.all (fun q => match (queueOf s q).test with | .startup => false | _ => true)
  if done && !bit s F.QF_CTL_READY then
    let retired := (qs.filter (fun q => (queueOf s q).mode == 2)).length
    setF F.QF_CTL_READY 1 s |> sed 0x0200 sINFO 1 (qs.length - retired) retired ((s.tick.count - s.sup.resetTick) % 2 ^ 32)
  else s

/-- A ring's start-up test ends (R151, R152): `bad` 0 passes. -/
def doStartupDone (q bad : Nat) (s : State) : State :=
  if !queueOn s q || (queueOf s q).test ≠ .startup then s else
  let s := modQueue q (fun x => { x with test := .none }) s
  let s := if bad = 0 then
      let s := setMode q 0 (modQueue q (fun x => { x with wp := 0, rp := 0 }) s)
      if q < 16 then creditsFull (q / 4) s else s
    else modQueue q (fun x => { x with mode := 2 }) s |> sed 0x0204 sERROR 1 q 0 0
  ringsReady s

/-- RING_STARTUP_TEST_DONE (R152). -/
def execRingStartupTestDone (queue bad : Nat) (s : State) : Host.Outcome State Fault Refusal :=
  run (doStartupDone queue bad) s

/-- An on-demand ring test (R153). -/
def doBistStart (path q : Nat) (s : State) : State :=
  if path ≠ tuten then s else
  let s := setF F.QF_BIST_CTL_QUEUE q s
  if !queueOn s q || (queueOf s q).mode ≠ 0 || (queueOf s q).test ≠ .none || (fullCredits s q && decide (unreserved s < 512)) then
    setF F.QF_BIST_STAT_REFUSED 1 s
  else
    let s := setF F.QF_BIST_CTL_START 1 s |> setF F.QF_BIST_STAT_QUEUE q
    let s := modQueue q (fun x => { x with test := .draining true }) (reservePool q s)
    drainCheck q (setMode q 1 s)

/-- QF_BIST_START (R153). -/
def execQfBistStart (path queue : Nat) (s : State) : Host.Outcome State Fault Refusal := run (doBistStart path queue) s

/-- The credits that a queue withholds for a reservation go back under the pacing rule (R149, R156). -/
def resvEnd (q : Nat) (s : State) : State :=
  let s := modQueue q (fun x => { x with resvWait := false }) s
  if !isIngress q then s
  else if (queueOf s q).paced then pacedLeave q s
  else returnCredits q (queueOf s q).withheld (modQueue q (fun x => { x with withheld := 0 }) s)

/-- A ring test or re-test ends (R153, R154): the queue goes back to RING, which may complete its head's credits (R152), or
stays in POOL until device reset. -/
def doBistDone (q bad : Nat) (s : State) : State :=
  let x := queueOf s q
  let ok := fun (why : Nat) (s : State) =>
    let s := modQueue q (fun x => { x with test := .none }) s
    if bad = 0 then
      let s := resvEnd q (setMode q 0 (modQueue q (fun x => { x with wp := 0, rp := 0, reserved := 0 }) s))
      if q < 16 then creditsFull (q / 4) s else s
    else modQueue q (fun x => { x with mode := 2 }) s |> sed 0x0204 sERROR 1 q why 0
  match x.test with
  | .running true =>
    let s := setF F.QF_BIST_CTL_START 0 (ok 2 s) |> setF F.QF_BIST_STAT_QUEUE q
      |> setF F.QF_BIST_STAT_PASS (if bad = 0 then 1 else 0) |> setF F.QF_BIST_STAT_FAIL (if bad = 0 then 0 else 1)
    if bad = 0 then sed 0x0220 sINFO 1 q 1 0 s else s
  | .retest =>
    let s := ok 1 s
    if bad = 0 then sed 0x0203 sNOTICE 1 q 0 0 s else s
  | _ => s

/-- QF_BIST_DONE (R153, R154). -/
def execQfBistDone (queue bad : Nat) (s : State) : Host.Outcome State Fault Refusal := run (doBistDone queue bad) s

/-- QF_RING_UE (R154, R155). -/
def execQfRingUe (queue index word : Nat) (s : State) : Host.Outcome State Fault Refusal :=
  run (doRingUe queue index word) s

/-- One ring entry is copied to a cell (R154 step 2): its words are checked on the way, a bad header word is restored from
the tracker, a bad data word is treated as R155 says. -/
def copyEntry (q : Nat) (s : State) : State :=
  let x := queueOf s q
  match x.entries.findIdx? (fun e => e.cell.isNone) with
  | none => s
  | some i =>
    let at_ := fun (w : Nat) (s : State) =>
      match (queueOf s q).entries[i]? with
      | some e =>
        let s := ringUeCount agInternal q i w e s
        if 2 ≤ w ∧ w ≤ 10 then entryUpset q e s else s
      | none => s
    let k := (queueOf s q).entries.length
    let s := mempReadWith 3 q (entryIndex x i (lat (QEntry.blank .read 0) x.entries i) * 16) 16 agInternal (fun w s => at_ (w % 16) s) s
    if (queueOf s q).entries.length < k then s else
    modQueue q (fun x => { x with
      entries := x.entries.zipIdx.map (fun e => if e.2 = i then { e.1 with cell := some (freeCell s) } else e.1), rp := (x.rp + 1) % 1024 }) s

/-- The copy-switch ends: the remaining entries lie in pool cells, and the ring is re-tested (R154 steps 2 to 4). Where the
ring was draining for an on-demand test, that test goes on with the empty ring (DESIGN CHOICE, log entry 163). -/
def doCopySwitch (q : Nat) (s : State) : State :=
  let x := queueOf s q
  if !x.stopped then s else
  let n := (x.entries.filter (fun e => e.cell.isNone)).length
  let (t, s) := draw 3 s
  let (next, s) := match x.test with
    | .draining d => (RingTest.running d, s)
    | _ => (RingTest.retest, reservePool q (setMode q 1 s))
  let s := forEach (List.range n) (fun _ s => copyEntry q s) s
  let s := modQueue q (fun x => { x with stopped := false, test := next }) s
  pump (sed 0x0202 sWARNING 1 q n t.toNat s |> faultStall 5 t.toNat 8)

/-- QF_COPY_SWITCH_DONE (R154). -/
def execQfCopySwitchDone (queue : Nat) (s : State) : Host.Outcome State Fault Refusal := run (doCopySwitch queue) s

/-- A reservation that waited is made: withheld credits follow the pacing rule again (R149, R156). -/
def doPoolReserved (q : Nat) (s : State) : State :=
  let x := queueOf s q
  if x.resvWait && decide (512 ≤ unreserved s) then resvEnd q (modQueue q (fun x => { x with reserved := 512 }) s)
  else s

/-- QF_POOL_RESERVED (R149). -/
def execQfPoolReserved (queue : Nat) (s : State) : Host.Outcome State Fault Refusal := run (doPoolReserved queue) s

/-- PACED: 16 cycles have passed since the channel's last return, so the next return is not withheld; a withheld credit
goes back (R156). -/
def doPacedReturn (q : Nat) (s : State) : State :=
  let s := modQueue q (fun x => { x with recent := false }) s
  let x := queueOf s q
  if isIngress q && x.paced && decide (0 < x.withheld) && !x.resvWait then
    returnCredits q 1 (modQueue q (fun x => { x with withheld := x.withheld - 1 }) s)
  else s

/-- PACED_CREDIT_RETURN (R156). -/
def execPacedCreditReturn (queue : Nat) (s : State) : Host.Outcome State Fault Refusal := run (doPacedReturn queue) s

end Sys2Proof.Machine
end

