-- ==== Sys2Proof/Machine/LineCmd.lean ====
section
/-! DEFINITION. The line cache's own commands: write-backs that end (R190), the cleaner (R193 to R195, R208), line
commands (R196 to R200). -/

namespace Sys2Proof.Machine

/-- The oldest eviction-buffer entry of a line whose write-back has been placed. -/
def ebPlaced (s : State) (n line : Nat) : Option EbEnt :=
  (sliceOf s n).eb.find? (fun e => e.line == line && e.passed && !s.mtl.unplaced.any (fun u => u.wseq == e.wseq) &&
    !s.mtl.sealedQ.any (fun b => b.wseq == e.wseq))

/-- A write-back has reached the Shallows write buffer (R190): the entry moves to Cove, unless the slice or a later entry
holds the line, or its key index came under a purge meanwhile (R204). -/
def doEbDone (n line : Nat) (s : State) : State :=
  if inHalt s || !coreOn s then s else
  match ebPlaced s n line with
  | none => s
  | some e =>
    let s := modSlice n (fun x => { x with eb := x.eb.filter (fun b => b.wseq != e.wseq) }) s
    let s := if e.cleaner then count 0x12 n 1 s else s
    let held := (findWay s line).isSome || (findEb s line).isSome || (!isInternal s line && !keyHolds s e.key)
    let s := if held then s else modSlice n (fun x => { x with cove := coveInsert ⟨line, e.key, e.poison, e.data⟩ x.cove }) s
    pump (retryWays n s)

/-- EB_WRITEBACK_DONE (R190). -/
def execEbWritebackDone (slice line : Nat) (s : State) : Host.Outcome State Fault Refusal := run (doEbDone slice line) s

/-! ### The cleaner -/

/-- Show and record a change of the cleaners' priority (R209). `cause` 0 GUARD, 1 FORCE. -/
def raiseEval (cause : Nat) (s : State) : State :=
  let r := raised s
  if r = bit s F.LC_CLEAN_STAT_RAISED then s
  else setB F.LC_CLEAN_STAT_RAISED r s |> sed 0x0330 sNOTICE 2 (if r then 1 else 0) cause (dirtyLines s)

/-- The next line the cleaner takes: sets in ascending order from where it last stopped (R193). -/
def cleanNext (s : State) (n : Nat) : Option (Nat × Way) :=
  let l := s.ways.filter (fun e => e.1 / 65536 == n && e.2.st == WaySt.dirty && !inAmq s (lineOfWay e.1 e.2))
  match l.find? (fun e => decide ((sliceOf s n).cleanPos ≤ e.1 / 16 % 4096)) with
  | some e => some e
  | none => l.head?

/-- A slice's cleaner copies a dirty line to a free eviction-buffer entry (R193 to R195): at normal priority while at least
4 other entries stay free. -/
def doClean (n : Nat) (s : State) : State :=
  if inHalt s || !coreOn s || 48 ≤ n then s else
  let s := cleanLatch s
  let used := (sliceOf s n).eb.length
  if !cleanRuns s n || decide ((if raised s then 16 else 12) ≤ used) then s
  else
    match cleanNext s n with
    | none => s
    | some (k, _) =>
      let s := (writeBack k true s).1
      satInc F.LC_CLEAN_STAT_LINES (modSlice n (fun x => { x with cleanPos := k / 16 % 4096 }) s)

/-- CLEANER_CLEAN (R193). -/
def execCleanerClean (slice : Nat) (s : State) : Host.Outcome State Fault Refusal := run (doClean slice) s

/-- A write of LC_CLEAN_CTL (R208). -/
def doCleanCtl (v : BitVec 32) (s : State) : State :=
  let start := v.toNat % 64
  let stop := v.toNat / 256 % 64
  if start ≤ stop then setF F.LC_ERR2_CFG 1 s
  else
    let s := setF F.LC_CLEAN_CTL_START start s |> setF F.LC_CLEAN_CTL_STOP stop |> setB F.LC_CLEAN_CTL_FORCE (v.getLsbD 16)
    cleanLatch (raiseEval 1 s)

/-- LC_CLEAN_CTL_WRITE (R195, R208); a head or the Tuten side may write it. -/
def execLcCleanCtlWrite (path : Nat) (v : BitVec 32) (s : State) : Host.Outcome State Fault Refusal :=
  run (fun s => if headOn s path || isMgmt path then doCleanCtl v s else s) s

/-! ### Line commands -/

/-- First line of the range: the committed DPA of the path's bank. -/
def lcFirst (s : State) (path : Nat) : Nat :=
  (fld s (F.LC_LCMD_DPA_HI_DPA path) * 2 ^ 32 + fld s (F.LC_LCMD_DPA_LO_DPA path) * 64) / 64

/-- A command that ends at once, with no effect on any line (R198, R200, R208). -/
def lcRefuse (path op result : Nat) (s : State) : State :=
  setF (F.LC_LCMD_STAT_RESULT path) result s |> setF (F.LC_LCMD_STAT_SKIPPED path) 0
    |> setF (F.LC_LCMD_DONE_LINES path) 0 |> setF (F.LC_LCMD_CTL_GO path) 0
    |> sed 0x0321 sNOTICE 2 (pathCode path) (op * 256 + result) 0

/-- The checks of R198 on the whole range: the result of the first that fails. -/
def lcCheck (s : State) (path op first n : Nat) : Option Nat :=
  if !inRegions s path (first * 64) ((first + n) * 64) then some 2
  else if op = 1 then
    if (List.range n).any (fun i => roLine s path (first + i) || deviceRo s (first + i)) then some 3
    else if (List.range n).any (fun i => !keyHolds s (lcKey s path (first + i))) then some 4
    else none
  else none

/-- A command of n lines starts (R198, R199). -/
def lcRun (path op first n : Nat) (s : State) : State :=
  setF (F.LC_LCMD_CTL_GO path) 1 { s with lcmds := tput path { op := op, line := first, count := n, next := 0, inFlight := [], done := 0, skipped := 0, result := 0, stop := 0 } s.lcmds }
    |> setF (F.LC_LCMD_STAT_BUSY path) 1 |> setF (F.LC_LCMD_STAT_RESULT path) 0
    |> setF (F.LC_LCMD_STAT_SKIPPED path) 0 |> setF (F.LC_LCMD_DONE_LINES path) 0 |> pump

/-- LC_LCMD_CTL as the write gave it. -/
def lcSetCtl (path op n keyidx : Nat) (s : State) : State :=
  setF (F.LC_LCMD_CTL_OP path) op s |> setF (F.LC_LCMD_CTL_COUNT path) (n - 1) |> setF (F.LC_LCMD_CTL_KEYIDX path) keyidx

/-- Refuse a command of n lines by the first check that fails, or start it (R198). -/
def lcStart (path op n : Nat) (s : State) : State :=
  if inHalt s then lcRefuse path op 8 s
  else if op = 0 ∨ 6 ≤ op then lcRefuse path op 1 s
  else
    match lcCheck s path op (lcFirst s path) n with
    | some r => lcRefuse path op r s
    | none => lcRun path op (lcFirst s path) n s

/-- A write of LC_LCMD_CTL with GO (R196 to R200): `op` as the command names it. -/
def doLcmd (path op : Nat) (v : BitVec 32) (s : State) : State :=
  if !(headOn s path || isMgmt path) || !coreOn s || !unitOn s 2 then s
  else if (tfind s.lcmds path).isSome then setF (F.LC_LCMD_STAT_IGNORED path) 1 s
  else
    let n := v.toNat / 16 % 65536 + 1
    lcStart path op n (lcSetCtl path op n (v.toNat / 2 ^ 20) s)

/-- LCMD_ZERO (R196). -/
def execLcmdZero (path : Nat) (v : BitVec 32) (s : State) : Host.Outcome State Fault Refusal := run (doLcmd path 1 v) s
/-- LCMD_FLUSH (R196). -/
def execLcmdFlush (path : Nat) (v : BitVec 32) (s : State) : Host.Outcome State Fault Refusal := run (doLcmd path 2 v) s
/-- LCMD_PREFETCH (R196). -/
def execLcmdPrefetch (path : Nat) (v : BitVec 32) (s : State) : Host.Outcome State Fault Refusal := run (doLcmd path 3 v) s
/-- LCMD_PIN (R196, R199). -/
def execLcmdPin (path : Nat) (v : BitVec 32) (s : State) : Host.Outcome State Fault Refusal := run (doLcmd path 4 v) s
/-- LCMD_DEMOTE (R196). -/
def execLcmdDemote (path : Nat) (v : BitVec 32) (s : State) : Host.Outcome State Fault Refusal := run (doLcmd path 5 v) s
/-- LCMD_BADOP (R208): OP is 0, 6 or 7; another OP value counts as 0. -/
def execLcmdBadop (path : Nat) (v : BitVec 32) (s : State) : Host.Outcome State Fault Refusal :=
  run (doLcmd path (if 6 ≤ v.toNat % 8 then v.toNat % 8 else 0) v) s

/-- A line command ends when its last line is complete, or when it was stopped and no line is in flight (R199, R200). -/
def doLcmdDone (path : Nat) (s : State) : State :=
  match tfind s.lcmds path with
  | none => s
  | some c =>
    if c.inFlight.isEmpty ∧ (c.stop ≠ 0 ∨ c.count ≤ c.next) then lcmdEnd path (if c.stop ≠ 0 then c.stop else c.result) s
    else pump s

/-- LCMD_DONE (R199, R200). -/
def execLcmdDone (path : Nat) (s : State) : Host.Outcome State Fault Refusal := run (doLcmdDone path) s

/-- Stop a running command: its lines in flight complete, and it then reports ABORTED (R200). -/
def lcmdAbort (path : Nat) (s : State) : State :=
  { s with lcmds := s.lcmds.map (fun e => if e.1 = path then (e.1, { e.2 with stop := 7 }) else e) }

end Sys2Proof.Machine
end

