-- ==== Sys2Proof/Machine/Rings.lean ====
section
/-! DEFINITION. Descriptor and completion rings, which job queues and data-mover channels share (R392, R405, R425, R438),
and the reads and writes of the line cache that seal jobs and data movers make (R394, R427). -/

namespace Sys2Proof.Machine

/-! ### Registers of a ring

KV_JQq and DMV_CHn lay out their registers alike; `b` is the address of CFG. -/

def rgOwner (b : Nat) : Fld := ⟨b, 0, 3⟩
def rgEn (b : Nat) : Fld := ⟨b, 8, 1⟩
def rgSize (b : Nat) : Fld := ⟨b, 16, 4⟩
def rgVec (b : Nat) : Fld := ⟨b, 24, 5⟩
def rgState (b : Nat) : Fld := ⟨b + 0x4, 0, 2⟩
def rgCause (b : Nat) : Fld := ⟨b + 0x4, 4, 4⟩
def rgBusy (b : Nat) : Fld := ⟨b + 0x4, 8, 1⟩
def rgTail (b : Nat) : Fld := ⟨b + 0x18, 0, 12⟩
def rgHead (b : Nat) : Fld := ⟨b + 0x1C, 0, 12⟩
def rgCtail (b : Nat) : Fld := ⟨b + 0x20, 0, 12⟩
def rgPhase (b : Nat) : Fld := ⟨b + 0x20, 16, 1⟩
def rgKidx (b : Nat) : Fld := ⟨b + 0x24, 0, 12⟩

/-- Number of ring entries. -/
def rgEntries (s : State) (b : Nat) : Nat := 2 ^ fld s (rgSize b)
/-- Committed ring bases: descriptors, and completions. -/
def rgDbase (s : State) (b : Nat) : Nat := (fld s ⟨b + 0xC, 0, 16⟩) * 2 ^ 32 + (fld s ⟨b + 0x8, 12, 20⟩) * 4096
def rgCbase (s : State) (b : Nat) : Nat := (fld s ⟨b + 0x14, 0, 16⟩) * 2 ^ 32 + (fld s ⟨b + 0x10, 12, 20⟩) * 4096

/-- A job queue's and a channel's registers. -/
def jq (q : Nat) : Nat := Reg.KV_JQ_CFG q
def dmv (n : Nat) : Nat := Reg.DMV_CH_CFG n

/-- Owner code of a path (R392): the cores are one owner, the management complex. -/
def ownerCode (path : Nat) : Nat := min path 5

/-- The path is the ring's owner. -/
def rgOwns (s : State) (b path : Nat) : Bool := fld s (rgOwner b) == ownerCode path && decide (path ≤ 8)

/-- Put a ring's state and cause. -/
def rgPut (b st cause : Nat) (s : State) : State := setF (rgState b) st s |> setF (rgCause b) cause

/-- A DPA range of a path ends in lines that are in no RO region (R730). -/
def noRo (s : State) (path a n : Nat) : Bool :=
  decide (n = 0) || (!roLine s path (a / 64) && !roLine s path ((a + n - 1) / 64))

/-- Both rings lie in the owner's regions, outside RO regions (R405, R438); `entry` is a descriptor's size. -/
def rgPlaced (s : State) (b entry : Nat) : Bool :=
  let p := fld s (rgOwner b)
  let n := rgEntries s b
  inRegions s p (rgDbase s b) (rgDbase s b + entry * n) && noRo s p (rgDbase s b) (entry * n) &&
  inRegions s p (rgCbase s b) (rgCbase s b + 16 * n) && noRo s p (rgCbase s b) (16 * n)

/-- A write of a ring's CFG (R392, R404, R405, R438): OWNER by the management side alone, the rest by the owner alone;
SIZE stays while EN is 1. The answer says that EN has been written 1 and accepted. -/
def rgCfg (b path : Nat) (v : BitVec 32) (s : State) : State × Bool :=
  let s := if isMgmt path then setF (rgOwner b) (v.toNat % 8) s else s
  if !rgOwns s b path then (s, false) else
  let size := v.toNat / 2 ^ 16 % 16
  let s := if fld s (rgEn b) = 0 ∧ 4 ≤ size ∧ size ≤ 12 then setF (rgSize b) size s else s
  let s := setF (rgVec b) (v.toNat / 2 ^ 24) s
  if v.getLsbD 8 then
    if fld s (rgOwner b) = 7 then (s, false) else (setF (rgEn b) 1 s, true)
  else (rgPut b 0 0 (setF (rgEn b) 0 s), false)

/-- Key index of a ring access (R392): the region's in region mode, else KIDX. -/
def rgKey (s : State) (b line : Nat) : Nat :=
  let p := fld s (rgOwner b)
  if isHead p && !tagged s p then (match regionOf s p line with | some r => r.key | none => 0) else fld s (rgKidx b)

/-- The ring runs and a descriptor waits. -/
def rgReady (s : State) (b : Nat) : Bool := fld s (rgState b) == 1 && fld s (rgHead b) != fld s (rgTail b)

/-- HEAD passes a descriptor. -/
def rgPop (b : Nat) (s : State) : State := setF (rgHead b) ((fld s (rgHead b) + 1) % rgEntries s b) s

/-! ### Line cache accesses of jobs and movers -/

/-- Jobs and movers may touch lines: the slices serve, no flush runs, and Narrows takes changes (R140, R206, R431). -/
def moverRuns (s : State) : Bool := slicesServe s && !inFlush s && s.mtl.ready

def moverOp (kind : AmqKind) (line key path : Nat) (d : Line) (mask : BitVec 64) (poison : Bool) : AmqOp :=
  { kind := kind, line := line, key := key, poison := poison, data := d, mask := mask, src := .mover path
    waiting := false, persisted := false }

/-- Fill an absent line from the media into a way, CLEAN, at once (log entry 57). -/
def fillNow (line key path : Nat) (s : State) : Option (State × Line × Bool) :=
  match allocate line (allocMask s (.mover path)) none s with
  | none => none
  | some (s, k) =>
    let put := fun (d : Line) (p : Bool) (s : State) => some (putWay k ⟨tagNo line, key, p, false, .clean, d⟩ s, d, p)
    match mtlLookup s line with
    | .zero => put 0 false s
    | .poison => put 0 true s
    | .at_ n q i =>
      match sealedAt s n q i with
      | none => put 0 true s
      | some x =>
        let (s, r) := openLine line key x (locPsa s (.at_ n q i)) 0 0 none s
        match r with
        | .ok d p => put d p s
        | .poisoned => put 0 true s
        | .noKey => some (s, 0, true)
        | .failed => some (s, 0, true)

/-- Read a line as a job or mover does (R394, R427): its data and poison; none where the line has to be waited for. A
key-index mismatch reads as poison (R105). -/
def readNow (line key path : Nat) (s : State) : Option (State × Line × Bool) :=
  let held := fun (k : Nat) (d : Line) (p : Bool) (s : State) => some (s, if k = key then d else 0, p || k != key)
  if inAmq s line || filling s line || (findMerge s line).isSome then none else
  match findWay s line, findEb s line, findCove s line with
  | some (_, w), _, _ => held w.key w.data w.poison s
  | none, some e, _ => held e.key e.data e.poison s
  | none, none, some c =>
    if c.key ≠ key then held c.key c.data c.poison s
    else match coveRecall (moverOp .read line key path 0 0 false) c s with
      | none => none
      | some (s, _, w) => held w.key w.data w.poison s
  | none, none, none => fillNow line key path s

/-- Read lines in ascending order. -/
def readMany (lines : List Nat) (key path : Nat) (s : State) : Option (State × List (Line × Bool)) :=
  match lines with
  | [] => some (s, [])
  | l :: r =>
    match readNow l key path s with
    | none => none
    | some (s, d, p) => (readMany r key path s).map (fun x => (x.1, (d, p) :: x.2))

/-- Write a line, or the bytes of it that a mask selects, past its persist point (R186, R187, R394); none where it has to
wait: for the line, for a way, for the dirty budget (R160, R595) or for Narrows. -/
def writeNow (line key path : Nat) (d : Line) (mask : BitVec 64) (poison : Bool) (s : State) : Option State :=
  if inAmq s line || filling s line || (findMerge s line).isSome || !admitLine s line || nrwBlocked s ||
      !rateRoom s path then none else
  let s := rateUse path s
  if mask = BitVec.allOnes 64 then
    match turn (moverOp .full line key path d 0 poison) s with
    | (t, .done) => some t
    | _ => none
  else
    match readNow line key path s with
    | none => none
    | some (s, _, _) =>
      match turn (moverOp .partialWrite line key path d mask false) s with
      | (t, .done) => some t
      | _ => none

/-- Mask of n bytes from byte o of a line. -/
def byteMask (o n : Nat) : BitVec 64 := BitVec.ofNat 64 ((2 ^ n - 1) * 2 ^ o)

/-- A destination's lines that the device handles as RO, or a region that is (R393, R426, R730). -/
def dstRo (s : State) (path a n : Nat) : Bool :=
  !noRo s path a n || (List.range ((n + 63) / 64)).any (fun i => deviceRo s (a / 64 + i))

/-- An uncorrectable word meets a read of a line (R205, R429): the answer says that the read is answered with poison
because of it. -/
def ueRead (line : Nat) (s : State) : State × Bool :=
  let old := heldPoisoned s line
  let held := (findWay s line).isSome || (findEb s line).isSome
  let (s, gone) := dataUpset line s
  (s, gone || (held && !old))

/-! ### Descriptors and completions -/

/-- The bytes of the descriptor at HEAD, with poison. -/
def fetchDesc (b entry : Nat) (s : State) : Option (State × List Byte × Bool) :=
  let a := rgDbase s b + entry * fld s (rgHead b)
  let line := a / 64
  let key := rgKey s b line
  if !keyHolds s key then some (s, zeros entry, true)
  else (readNow line key (fld s (rgOwner b)) s).map (fun x => (x.1, sub (lineBytes x.2.1) (a % 64) entry, x.2.2))

/-- Post a completion (R392, R394, R425): 16 bytes, written under the ring's key, with the ring's PHASE; CTAIL advances and
PHASE inverts as it wraps; the owner head is interrupted when asked. Nothing is written where the ring's lines no longer
take a write. None where the line has to be waited for. -/
def postDone (b : Nat) (body : List Byte) (op : Nat) (irq : Bool) (tail : List Byte) (s : State) : Option State :=
  let p := fld s (rgOwner b)
  let t := fld s (rgCtail b)
  let a := rgCbase s b + 16 * t
  let line := a / 64
  let key := rgKey s b line
  let bytes := body ++ le 1 op ++ le 1 (fld s (rgPhase b)) ++ tail
  let next := fun (s : State) =>
    let s := if t + 1 = rgEntries s b then setF (rgPhase b) (1 - fld s (rgPhase b)) (setF (rgCtail b) 0 s)
      else setF (rgCtail b) (t + 1) s
    if irq && isHead p then emit (.headEvent p 2 (fld s (rgVec b))) s else s
  if !keyHolds s key || roLine s p line || deviceRo s line then some (next s)
  else (writeNow line key p (BitVec.ofNat 512 (leVal bytes * 2 ^ (8 * (a % 64)))) (byteMask (a % 64) 16) false s).map next

/-- Owner's name in records and paths of accesses. -/
def rgPath (s : State) (b : Nat) : Nat := fld s (rgOwner b)

end Sys2Proof.Machine
end

