-- ==== Sys2Proof/Machine/Seal.lean ====
section
/-! DEFINITION. The seal engine (R384 to R402): slots and their invocation counters, job queues, and the seven kinds of
job. -/

namespace Sys2Proof.Machine

/-! ### Slots (R384 to R388) -/

def slotOf (s : State) (v : Nat) : Slot := tget Slot.init s.vault.slots v
def modSlot (v : Nat) (f : Slot → Slot) (s : State) : State :=
  { s with vault := { s.vault with slots := tmod Slot.init v f s.vault.slots } }

/-- The last value of an invocation counter, which no job takes (R385). -/
def ctrEnd : Nat := 2 ^ 48 - 1

/-- Install number I and reservation V of a slot, from its spread counters (R384, R533). -/
def slotInst (s : State) (v : Nat) : Nat := gCounter s (.slotI v)
def slotV (s : State) (v : Nat) : Nat := min ctrEnd ((gCounter s (.slotR v) + 1) * 2 ^ 20)

/-- Start a reservation when the slot's counter has come within 2^19 of V (R386). -/
def reserve (v : Nat) (s : State) : State :=
  let x := slotOf s v
  if x.st = .ready ∧ !x.reserving ∧ slotV s v ≤ x.c + 2 ^ 19 ∧ slotV s v < ctrEnd then
    gEnq (.incr (.slotR v)) false none (.nonce v) (modSlot v (fun x => { x with reserving := true }) s)
  else s

/-- A slot becomes EXHAUSTED: 0 at the counter's end, 1 when its reservation failed with WORN (R385, R386). -/
def exhaustSlot (v why : Nat) (s : State) : State :=
  modSlot v (fun x => { x with st := .exhausted, reserving := false }) s |> sed 0x0720 sWARNING 4 v (slotInst s v) why

/-- A job takes the value C (R385). -/
def takeC (v : Nat) (s : State) : State :=
  let s := modSlot v (fun x => { x with c := x.c + 1 }) s
  if (slotOf s v).c = ctrEnd then exhaustSlot v 0 s else reserve v s

/-- A reservation write is durable (R386), or failed with WORN. -/
def nonceDone (v : Nat) (ok : Bool) (s : State) : State :=
  let s := modSlot v (fun x => { x with reserving := false }) s
  if ok then
    let n := slotV s v
    reserve v (sed 0x0721 sDEBUG 4 v (n % 2 ^ 32) (n / 2 ^ 32) s)
  else exhaustSlot v 1 s

/-- The initialisation vector of a GCM_ENC job (R388): FIXED, then C, 48 bits each, big-endian. -/
def gcmIv (devid v inst c : Nat) : List Byte := be 6 (devid % 2 ^ 12 * 2 ^ 36 + v % 2 ^ 8 * 2 ^ 28 + inst % 2 ^ 28) ++ be 6 c

/-! ### Queues (R392, R405) -/

/-- The seal engine and its registers are there. -/
def jqThere (s : State) (q : Nat) : Bool := sealOn s && decide (q < 8) && coreOn s

/-- A write of KV_JQq_CFG (R404, R405). -/
def doJqCfg (path q : Nat) (v : BitVec 32) (s : State) : State :=
  if !jqThere s q then s else
  let b := jq q
  let (s, en) := rgCfg b path v s
  if !en then (if fld s (rgState b) = 0 then rgPut (dmv (8 + q)) 0 0 s else s)
  else if rgPlaced s b 64 then rgPut (dmv (8 + q)) 1 0 (rgPut b 1 0 s)
  else rgPut b 2 3 s |> sed 0x0732 sERROR 4 q 3 (fld s (rgOwner b))

/-- KV_JQ_ENABLE (R405): EN is written 1. -/
def execKvJqEnable (path queue : Nat) (v : BitVec 32) (s : State) : Host.Outcome State Fault Refusal :=
  run (doJqCfg path queue (v ||| 0x100)) s

/-- A write of KV_JQq_TAIL by the owner (R392). -/
def doJqTail (path q : Nat) (v : BitVec 32) (s : State) : State :=
  if jqThere s q && rgOwns s (jq q) path then setF (rgTail (jq q)) (v.toNat % 4096 % rgEntries s (jq q)) s else s

/-- KV_JQ_TAIL_WRITE (R392). -/
def execKvJqTailWrite (path queue : Nat) (v : BitVec 32) (s : State) : Host.Outcome State Fault Refusal :=
  run (doJqTail path queue v) s

/-! ### Descriptors (R392, R393) -/

/-- A job descriptor. -/
structure JobDesc where
  op : Nat
  flags : Nat
  slot : Nat
  dusz : Nat
  tag : Nat
  src : Nat
  dst : Nat
  len : Nat
  aadLen : Nat
  aad : Nat
  aux : Nat
  dunit : Nat
  srcKey : Nat
  dstKey : Nat
  rest : Nat
deriving DecidableEq, Repr

def jobDesc (d : List Byte) : JobDesc :=
  { op := byteAt d 0, flags := byteAt d 1, slot := byteAt d 2, dusz := byteAt d 3, tag := at' d 4 4, src := at' d 8 8
    dst := at' d 16 8, len := at' d 24 4, aadLen := at' d 28 4, aad := at' d 32 8, aux := at' d 40 8, dunit := at' d 48 8
    srcKey := at' d 56 2, dstKey := at' d 58 2, rest := at' d 60 4 }

/-! What a job uses, by its OP (R392). -/
def JobDesc.reads (d : JobDesc) : Bool := decide (1 ≤ d.op) && decide (d.op ≤ 6)
def JobDesc.writes (d : JobDesc) : Bool := (decide (1 ≤ d.op) && decide (d.op ≤ 4)) || d.op == 7
def JobDesc.gcm (d : JobDesc) : Bool := d.op == 1 || d.op == 2
def JobDesc.xts (d : JobDesc) : Bool := d.op == 3 || d.op == 4
def JobDesc.auxRead (d : JobDesc) : Bool := d.op == 2 || d.op == 6
def JobDesc.auxWrite (d : JobDesc) : Bool := d.op == 1 || d.op == 5
def JobDesc.unit (d : JobDesc) : Nat := if d.dusz = 0 then 512 else 4096

def overlap (a n b m : Nat) : Bool := decide (0 < n) && decide (0 < m) && decide (a < b + m) && decide (b < a + n)

/-- BAD_DESC (R393); log entry 58 for what the rule leaves to reading. -/
def JobDesc.bad (d : JobDesc) : Bool :=
  decide (7 < d.op) || decide (2 ≤ d.flags) || d.rest != 0 || decide (4096 ≤ d.srcKey) || decide (4096 ≤ d.dstKey) ||
  (d.op != 0 && (d.len == 0 || decide (2 ^ 24 < d.len) || decide (4096 < d.aadLen))) ||
  (d.reads && d.src % 64 != 0) || (d.writes && d.dst % 64 != 0) || (d.gcm && d.aadLen != 0 && d.aad % 64 != 0) ||
  ((d.auxRead || d.auxWrite) && d.aux % 64 != 0) ||
  (d.xts && (decide (1 < d.dusz) || d.len % d.unit != 0)) ||
  (d.writes && (
    (d.reads && d.dst != d.src && overlap d.dst d.len d.src d.len) ||
    (d.gcm && overlap d.dst d.len d.aad d.aadLen) ||
    ((d.auxRead || d.auxWrite) && overlap d.dst d.len d.aux 64)))

/-- A retirement of the slot waits for its running job; jobs still queued find it gone (R383). -/
def slotRetiring (s : State) (v : Nat) : Bool :=
  s.vault.installs.any (fun e => e.2.kind == lkRetire && e.2.target == 2 && e.2.index == v)

/-- The first check of R393 that fails, as a status; 0 when all pass. -/
def jobCheck (s : State) (p : Nat) (d : JobDesc) : Nat :=
  let x := slotOf s d.slot
  if d.bad then 0x1
  else if d.op = 0 then 0
  else if (d.reads && !inRegions s p d.src (d.src + d.len)) || (d.writes && !inRegions s p d.dst (d.dst + d.len)) ||
      (d.gcm && d.aadLen != 0 && !inRegions s p d.aad (d.aad + d.aadLen)) ||
      ((d.auxRead || d.auxWrite) && !inRegions s p d.aux (d.aux + 64)) ||
      (d.writes && dstRo s p d.dst d.len) || (d.auxWrite && dstRo s p d.aux 64) then 0x2
  else if (d.reads && !keyHolds s d.srcKey) || ((d.writes || d.auxWrite) && !keyHolds s d.dstKey) then 0x3
  else if d.op = 7 then 0
  else if x.st = .empty ∨ !x.owner.testBit p ∨ slotRetiring s d.slot = true then 0x4
  else if !x.usage.testBit (d.op - 1) then 0x5
  else if x.st = .exhausted then 0x14
  else 0

/-! ### Alarms of the seal pipes (R401, R402) -/

/-- `n` mismatches of a job's pipe (R401, R402): the records, and whether the job has a result. -/
def sealMismatch (q n : Nat) (s : State) : State × Bool :=
  let (s, n) := match (List.range 4).find? (fun p => injArmed s 0x25 p) with
    | some _ => (injFire agRequest 0 s, max n (fld s F.MEMP_INJ_CTL_MODE))
    | none => (s, n)
  if n = 0 then (s, true) else
  let p := pipePick s 2 (pipesIn s 2)
  let s := pipeMiss 2 p s
  if cfgErase s then (s, false)
  else if n = 1 then (sed 0x0740 sWARNING 4 p q 1 s, true)
  else (pipeAgain 2 p 0x0741 4 (sed 0x0740 sWARNING 4 p q 0 s), false)

/-! ### Results -/

/-- Writes of `n` bytes from a DPA: whole lines, then the first bytes of the last line (R394). -/
def outLines (a : Nat) (bytes : List Byte) : List (Nat × Line × BitVec 64) :=
  (List.range ((bytes.length + 63) / 64)).map (fun i =>
    let n := min 64 (bytes.length - 64 * i)
    (a / 64 + i, bytesLine (sub bytes (64 * i) 64), byteMask 0 n))

/-- Zeros over a job's output range (R397). -/
def zeroOuts (a n : Nat) : List (Nat × Line × BitVec 64) :=
  (List.range ((n + 63) / 64)).map (fun i => (a / 64 + i, 0, byteMask 0 (min 64 (n - 64 * i))))

/-- The auxiliary line: IV in bytes 0 to 11, tag in bytes 16 to 31 (R392). -/
def auxLine (iv tag : List Byte) : List Byte := iv ++ zeros (16 - iv.length) ++ tag ++ zeros 32

/-- XTS over data units numbered from `first` (R392). -/
def xtsUnits (enc : Bool) (k1 k2 : BitVec 256) (unit first : Nat) (data : List Byte) : List Byte :=
  ((List.range (data.length / unit)).map (fun i => xts enc k1 k2 (le 16 (first + i)) (sub data (unit * i) unit))).flatten

/-- Random bytes of the DRBG (R389): free values. -/
def drawBytes (n : Nat) (s : State) : State × List Byte :=
  (List.range ((n + 63) / 64)).foldl (fun (p : State × List Byte) i =>
    let (v, t) := draw 512 p.1
    (t, p.2 ++ sub (lineBytes v) 0 (min 64 (n - 64 * i)))) (s, [])

/-- What a job computes from its inputs: the bytes for DST, those for AUX, and whether its tag check passed. XTS under a
256-bit slot has no second key: its output is free (log entry 58). -/
def jobResult (d : JobDesc) (x : Slot) (iv aad data auxIn : List Byte) (s : State) : State × List Byte × List Byte × Bool :=
  if d.op = 1 then
    let r := gcm true x.key1 iv aad data
    (s, r.1, auxLine iv r.2, true)
  else if d.op = 2 then
    let r := gcm false x.key1 (sub auxIn 0 12) aad data
    (s, r.1, [], r.2 == sub auxIn 16 16)
  else if d.op = 3 ∨ d.op = 4 then
    if x.klen = 0 then
      let (s, b) := drawBytes data.length s
      (s, b, [], true)
    else (s, xtsUnits (d.op == 3) x.key1 x.key2 d.unit d.dunit data, [], true)
  else if d.op = 5 then (s, [], auxLine [] (cmac x.key1 data), true)
  else (s, [], [], cmac x.key1 data == sub auxIn 16 16)

/-! ### Running (R394 to R397) -/

/-- Make a job's writes in order until one has to wait; under a key that no longer holds they are skipped, and the job
ends NOKEY (R396, R397). -/
def jobWrites (fuel p : Nat) (j : SealJob) (s : State) : State × SealJob :=
  match fuel with
  | 0 => (s, j)
  | n + 1 =>
    match j.outs with
    | [] => (s, j)
    | (line, d, mask) :: rest =>
      if !keyHolds s j.dstKey then (s, { j with outs := [], status := if j.status = 0 then 0x3 else j.status })
      else match writeNow line j.dstKey p d mask false s with
        | none => (s, j)
        | some t => jobWrites n p { j with outs := rest } t

/-- A retirement that waited for the slot's job goes on (R383). -/
def retireGo (v : Nat) (s : State) : State :=
  if s.vault.jobs.any (fun e => e.2.slot == v && decide (1 ≤ e.2.op) && decide (e.2.op ≤ 6)) then s else
  match s.vault.installs.find? (fun e => e.2.kind == lkRetire && e.2.target == 2 && e.2.index == v && e.2.lseq == 0) with
  | some (p, e) => ledgerFor p 0xC021 e s
  | none => s

/-- A job ends: its completion, its counts and its record (R395 to R397, log entry 58). -/
def jobEnd (q : Nat) (j : SealJob) (took : Bool) (s : State) : Option State :=
  match postDone (jq q) (le 4 j.tag ++ le 2 j.status) j.op j.irq (le 6 (if took then j.c else 0) ++ zeros 2) s with
  | none => none
  | some s =>
    let s := { s with vault := { s.vault with
        jobs := tdel q s.vault.jobs
        charged := if j.op = 2 ∧ took then s.vault.charged - j.len else s.vault.charged } }
    let s := count 0x61 0 1 (satInc F.KV_CNT_JOBS_COUNT (setF (rgBusy (jq q)) 0 s))
    let s := if j.status = 0x16 then
        satInc F.KV_CNT_AUTHFAIL_COUNT s |> sed 0x0730 sNOTICE 4 q j.tag (if j.op = 2 then j.len else 0)
      else if took ∧ j.status ≠ 0 then sed 0x0731 sWARNING 4 q j.tag j.status s else s
    let s := if j.status = 0x7 then
        rgPut (jq q) 2 1 s |> sed 0x0732 sERROR 4 q 1 (fld s (rgOwner (jq q)))
      else s
    some (if took then retireGo j.slot s else s)

/-- Continue a queue's running job: its writes, then its completion once all are past their persist point (R394). -/
def jobGo (q : Nat) (s : State) : State :=
  match tfind s.vault.jobs q with
  | none => s
  | some j =>
    let (s, j) := jobWrites (j.outs.length + 1) (fld s (rgOwner (jq q))) j s
    let s := { s with vault := { s.vault with jobs := tput q j s.vault.jobs } }
    if j.outs ≠ [] then s else pump ((jobEnd q j true s).getD s)

/-- The queue's channel halts on an uncorrectable error (R429, R432). -/
def jobUe (q dpa done : Nat) (s : State) : State :=
  let b := dmv (8 + q)
  rgPut b 2 1 s |> setF (F.DMV_CH_FAULT_LO_DPA (8 + q)) (dpa / 64 % 2 ^ 26) |> setF (F.DMV_CH_FAULT_HI_DPA (8 + q)) (dpa / 2 ^ 32)
    |> setF (F.DMV_CH_DONE_LINES (8 + q)) done |> sed 0x0820 sERROR 7 (8 + q) (dpa / 64 % 2 ^ 32) 1

/-- The job's inputs: source lines, additional data and the auxiliary line. -/
def jobInputs (d : JobDesc) (p : Nat) (s : State) : Option (State × List (Line × Bool) × List (Line × Bool) × List (Line × Bool)) :=
  let lines := fun a n => (List.range ((n + 63) / 64)).map (a / 64 + ·)
  match readMany (if d.auxRead then [d.aux / 64] else []) d.srcKey p s with
  | none => none
  | some (s, x) =>
    match readMany (if d.gcm then lines d.aad d.aadLen else []) d.srcKey p s with
    | none => none
    | some (s, a) => (readMany (if d.reads then lines d.src d.len else []) d.srcKey p s).map (fun r => (r.1, r.2, a, x))

/-- Bytes of lines that were read. -/
def dataOf (l : List (Line × Bool)) (n : Nat) : List Byte := sub ((l.map (fun x => lineBytes x.1)).flatten) 0 n

/-- An uncorrectable word that a job's channel meets on its way: the state, and whether the job's data is cut there. -/
def jobWord (q : Nat) (d : JobDesc) (ue : Option (Nat × Nat)) (s : State) : State × Bool :=
  match ue with
  | none => (s, false)
  | some (i, k) =>
    if !d.reads then (s, true)
    else if k = 0 then (mempUe 10 (8 + q) (i % 16) agRequest s, decide (64 * i < d.len))
    else if 64 * i < d.len then ueRead (d.src / 64 + i) s else (s, false)

/-- The job takes its number: C of its slot, or a request of the DRBG (R386, R389). -/
def jobTake (d : JobDesc) (s : State) : State :=
  if d.op ≠ 7 then takeC d.slot s else { s with vault := { s.vault with drbgReqs := s.vault.drbgReqs + 1 } }

/-- How many of the source's lines are good. -/
def jobGood (src aad aux : List (Line × Bool)) : Nat :=
  if aux.any (·.2) || aad.any (·.2) then 0 else (src.findIdx? (fun x => x.2)).elim (src.length) id

/-- The lines a job writes and its status (R394 to R397): `good` says that the pipes agree, `isUe` that an uncorrectable
word comes first among what spoils the input, `cut` how many lines are whole. -/
def jobOutput (d : JobDesc) (j : SealJob) (ue : Option (Nat × Nat)) (src aad aux : List (Line × Bool)) (good isUe : Bool)
    (cut : Nat) (s : State) : State × SealJob :=
  if d.op = 7 then
    let b := drawBytes (match ue with | some (i, _) => min d.len (64 * i) | none => d.len) s
    (b.1, { j with status := if isUe then 0x7 else 0, outs := outLines d.dst b.2 })
  else if !good then (s, { j with status := 0x6, outs := if d.op = 2 then zeroOuts d.dst d.len else [] })
  else
    let status := if isUe then 0x7 else if aux.any (·.2) || aad.any (·.2) || src.any (·.2) then 0x8 else 0
    let iv := gcmIv s.devid d.slot (slotInst s d.slot) j.c
    let r := jobResult d (slotOf s d.slot) iv (dataOf aad d.aadLen) (dataOf src d.len) (dataOf aux 64) s
    if status ≠ 0 then
      (r.1, { j with status := status, outs :=
        if d.op = 2 then zeroOuts d.dst d.len else if d.writes then (outLines d.dst r.2.1).take cut else [] })
    else if !r.2.2.2 then
      (r.1, { j with status := 0x16, outs := if d.op = 2 then outLines d.dst r.2.1 ++ zeroOuts d.dst d.len else [] })
    else (r.1, { j with outs := outLines d.dst r.2.1 ++ (if d.auxWrite then outLines d.aux r.2.2.1 else []) })

/-- Run a job whose inputs have been read (R394 to R397). -/
def jobRun (q mism : Nat) (ue : Option (Nat × Nat)) (hit : Bool) (d : JobDesc) (j : SealJob) (src aad aux : List (Line × Bool))
    (s : State) : State :=
  let s := jobTake d (rgPop (jq q) s)
  let g := sealMismatch q mism (pipeFrame 2 d.op (min mism 1) s)
  let bad := jobGood src aad aux
  let cut := match ue with | some (i, _) => if hit then min i bad else bad | none => bad
  let isUe := hit && (match ue with | some (i, _) => decide (i ≤ bad) | none => false)
  let r := jobOutput d j ue src aad aux g.2 isUe cut g.1
  let s := if r.2.status = 0x7 then jobUe q ((if d.reads then d.src else d.dst) + 64 * cut) cut r.1 else r.1
  let s := setF (rgBusy (jq q)) 1 s
  jobGo q { s with vault := { s.vault with
    jobs := tput q r.2 s.vault.jobs
    charged := if d.op = 2 then s.vault.charged + d.len else s.vault.charged } }

/-- Start the job at HEAD (R385, R393, R394): `mism` mismatches of its pipe, `ue` the index of a line at which its channel
meets an uncorrectable word, with 0 for its staging buffer and 1 for the source line. -/
def jobStart (q mism : Nat) (ue : Option (Nat × Nat)) (d : JobDesc) (poison : Bool) (s : State) : State :=
  let p := fld s (rgOwner (jq q))
  let st := if poison then 0x8 else jobCheck s p d
  let j : SealJob :=
    { op := d.op, slot := d.slot, tag := d.tag, dst := d.dst, len := d.len, dstKey := d.dstKey
      c := if 1 ≤ d.op ∧ d.op ≤ 6 then (slotOf s d.slot).c else 0, irq := d.flags % 2 == 1, status := st, outs := [] }
  if st ≠ 0 ∨ d.op = 0 then (jobEnd q j false (rgPop (jq q) s)).getD s
  else if d.op = 7 ∧ fld s F.KV_STAT_RNG = 2 then (jobEnd q { j with status := 0xA } false (rgPop (jq q) s)).getD s
  else if d.op ≠ 7 ∧ slotV s d.slot ≤ j.c then
    -- C = V: the job waits for the reservation (R386)
    let s := reserve d.slot s
    modSlot d.slot (fun x => { x with waitSince := some (x.waitSince.getD s.tick.count) }) s
  else if d.op = 2 ∧ !budgetRoom s d.len then s
  else
    let w := jobWord q d ue s
    match jobInputs d p w.1 with
    | none => s
    | some (t, src, aad, aux) => if inHalt t then t else jobRun q mism ue w.2 d j src aad aux t

/-- A JOB command of an OP: continue the queue's running job of that OP, or start the one at HEAD. A descriptor with an OP
above 7 is taken by any of them. -/
def doJob (op q mism : Nat) (ue : Option (Nat × Nat)) (s : State) : State :=
  if !jqThere s q || !moverRuns s || s.pwr.stopped.contains 4 then s else
  match tfind s.vault.jobs q with
  | some j => if j.op = op then jobGo q s else s
  | none =>
    if !rgReady s (jq q) then s else
    match fetchDesc (jq q) 64 s with
    | none => s
    | some (t, b, poison) =>
      let d := jobDesc b
      if inHalt t then t
      else if !poison && d.op != op && decide (d.op ≤ 7) then s
      else if (slotOf s d.slot).waitSince.isSome ∧ 1 ≤ d.op ∧ d.op ≤ 6 then s
      else jobStart q mism ue d poison t

/-- JOB_NOP (R394). -/
def execJobNop (queue : Nat) (s : State) : Host.Outcome State Fault Refusal := run (doJob 0 queue 0 none) s
/-- JOB_GCM_ENC (R388, R394). -/
def execJobGcmEnc (queue mism : Nat) (ue : Option (Nat × Nat)) (s : State) : Host.Outcome State Fault Refusal := run (doJob 1 queue mism ue) s
/-- JOB_GCM_DEC (R397). -/
def execJobGcmDec (queue mism : Nat) (ue : Option (Nat × Nat)) (s : State) : Host.Outcome State Fault Refusal := run (doJob 2 queue mism ue) s
/-- JOB_XTS_ENC (R392). -/
def execJobXtsEnc (queue mism : Nat) (ue : Option (Nat × Nat)) (s : State) : Host.Outcome State Fault Refusal := run (doJob 3 queue mism ue) s
/-- JOB_XTS_DEC (R392). -/
def execJobXtsDec (queue mism : Nat) (ue : Option (Nat × Nat)) (s : State) : Host.Outcome State Fault Refusal := run (doJob 4 queue mism ue) s
/-- JOB_CMAC_GEN (R392). -/
def execJobCmacGen (queue mism : Nat) (ue : Option (Nat × Nat)) (s : State) : Host.Outcome State Fault Refusal := run (doJob 5 queue mism ue) s
/-- JOB_CMAC_VER (R396). -/
def execJobCmacVer (queue mism : Nat) (ue : Option (Nat × Nat)) (s : State) : Host.Outcome State Fault Refusal := run (doJob 6 queue mism ue) s
/-- JOB_RANDOM (R389, R391). -/
def execJobRandom (queue : Nat) (ue : Option (Nat × Nat)) (s : State) : Host.Outcome State Fault Refusal := run (doJob 7 queue 0 ue) s

/-- A queue's waiting job proceeds once the reservation is durable (R386). -/
def doNonceWaitEnd (q : Nat) (s : State) : State :=
  if !jqThere s q || !moverRuns s || !rgReady s (jq q) || (tfind s.vault.jobs q).isSome then s else
  match fetchDesc (jq q) 64 s with
  | none => s
  | some (t, b, poison) =>
    let d := jobDesc b
    let x := slotOf s d.slot
    match x.waitSince with
    | none => s
    | some since =>
      if poison || inHalt t || (decide (slotV s d.slot ≤ x.c) && x.st == .ready) then s
      else
        let t := modSlot d.slot (fun x => { x with waitSince := none }) t
        jobStart q 0 none d false (sed 0x0722 sNOTICE 4 d.slot ((s.tick.count - since) % 2 ^ 32) 0 t)

/-- NONCE_WAIT_END (R386). -/
def execNonceWaitEnd (queue : Nat) (s : State) : Host.Outcome State Fault Refusal := run (doNonceWaitEnd queue) s

/-- A head is reset (R400): its queues end their jobs ABORTED, a GCM_DEC after zeroing its output, and are DISABLED. -/
def jobsHeadReset (h : Nat) (s : State) : State :=
  forEach (List.range 8) (fun q s =>
    let b := jq q
    if !sealOn s || fld s (rgOwner b) ≠ h then s
    else
      let live := fld s (rgState b) ≠ 0
      let s := when live (fun s => setF (rgEn b) 0 (rgPut b 0 2 s)) s
      match tfind s.vault.jobs q with
      | none => s
      | some j =>
        let j := { j with status := 0x9, outs := if j.op = 2 then zeroOuts j.dst j.len else [] }
        jobGo q { s with vault := { s.vault with jobs := tput q j s.vault.jobs } }) s

end Sys2Proof.Machine
end

