-- ==== Sys2Proof/Machine/Mover.lean ====
section
/-! DEFINITION. The data movers (R424 to R432, R438). -/

namespace Sys2Proof.Machine

/-- A path channel: present, and no seal queue's (R424). -/
def dmvThere (s : State) (n : Nat) : Bool := unitOn s 7 && coreOn s && decide (n < 16) && !(sealOn s && decide (8 ≤ n))

/-- A write of DMV_CHn_CFG (R425, R438). -/
def doDmvCfg (path n : Nat) (v : BitVec 32) (s : State) : State :=
  if !dmvThere s n then s else
  let b := dmv n
  let (s, en) := rgCfg b path v s
  if !en then s
  else if rgPlaced s b 32 then rgPut b 1 0 s
  else rgPut b 2 3 s |> sed 0x0820 sERROR 7 n (rgDbase s b / 64 % 2 ^ 32) 3

/-- DMV_ENABLE (R438): EN is written 1. -/
def execDmvEnable (path chan : Nat) (v : BitVec 32) (s : State) : Host.Outcome State Fault Refusal :=
  run (doDmvCfg path chan (v ||| 0x100)) s

/-- A write of DMV_CHn_TAIL by the owner (R425). -/
def doDmvTail (path n : Nat) (v : BitVec 32) (s : State) : State :=
  if dmvThere s n && rgOwns s (dmv n) path then setF (rgTail (dmv n)) (v.toNat % 4096 % rgEntries s (dmv n)) s else s

/-- DMV_TAIL_WRITE (R425). -/
def execDmvTailWrite (path chan : Nat) (v : BitVec 32) (s : State) : Host.Outcome State Fault Refusal :=
  run (doDmvTail path chan v) s

/-- The first check of R426 that a descriptor fails, as a status; key indexes as the owner's mode gives them. -/
def moverKey (s : State) (p line kidx : Nat) : Nat :=
  if isHead p && !tagged s p then (match regionOf s p line with | some r => r.key | none => 0) else kidx

def dmvCheck (s : State) (p : Nat) (d : List Byte) : Nat :=
  let op := byteAt d 0
  let src := at' d 8 8
  let dst := at' d 16 8
  let len := at' d 24 4
  let sk := at' d 28 2
  let dk := at' d 30 2
  if 2 < op ∨ 2 ≤ byteAt d 1 ∨ at' d 2 2 ≠ 0 ∨ 4096 ≤ sk ∨ 4096 ≤ dk then 0x1
  else if op = 0 then 0
  else if len % 64 ≠ 0 ∨ len = 0 ∨ 2 ^ 26 < len ∨ dst % 64 ≠ 0 ∨ (op = 1 ∧ (src % 64 ≠ 0 ∨ overlap src len dst len = true)) then 0x1
  else if (op = 1 ∧ inRegions s p src (src + len) = false) ∨ inRegions s p dst (dst + len) = false ∨ dstRo s p dst len = true then 0x2
  else if (op = 1 ∧ keyHolds s (moverKey s p (src / 64) sk) = false) ∨ keyHolds s (moverKey s p (dst / 64) dk) = false then 0x3
  else 0

def modMover (n : Nat) (m : MoverRun) (s : State) : State := { s with movers := tput n m s.movers }

/-- Post a descriptor's completion (R425); the running descriptor is done. -/
def dmvEnd (n op tag status lines : Nat) (irq : Bool) (poisoned : Nat) (s : State) : Option State :=
  match postDone (dmv n) (le 4 tag ++ le 2 status) op irq (le 4 lines ++ zeros 4) s with
  | none => none
  | some s =>
    let s := setF (rgBusy (dmv n)) 0 { s with movers := tdel n s.movers }
    some (if poisoned ≠ 0 then sed 0x0823 sNOTICE 7 n tag poisoned s else s)

/-- The channel halts on an uncorrectable error at a line of its descriptor (R429). -/
def dmvHalt (n : Nat) (m : MoverRun) (s : State) : State :=
  let a := (if m.op = 1 then m.src else m.dst) + 64 * m.done
  rgPut (dmv n) 2 1 (modMover n m s) |> setF (F.DMV_CH_FAULT_LO_DPA n) (a / 64 % 2 ^ 26)
    |> setF (F.DMV_CH_FAULT_HI_DPA n) (a / 2 ^ 32) |> setF (F.DMV_CH_DONE_LINES n) m.done
    |> sed 0x0820 sERROR 7 n (a / 64 % 2 ^ 32) 1

/-- A word of the channel's staging buffer is used: an armed injection fires there (R434, class 10). -/
def stageWord (n i : Nat) (ue : Bool) (s : State) : State × Bool :=
  let (s, up) := mempRead 10 n (i % 16) agRequest (if ue then .ue else .none) s
  match up with
  | .none => (s, false)
  | .ce => (mempCe 10 n (i % 16) s, false)
  | _ => (mempUe 10 n (i % 16) agRequest s, true)

/-- Move the lines of a channel's descriptor in ascending order until one has to wait (R427 to R429); `ue` is the index
of a line at which a word is uncorrectable, with 0 for the staging buffer and 1 for the source line. -/
def dmvLines (fuel n p : Nat) (ue : Option (Nat × Nat)) (m : MoverRun) (s : State) : State :=
  match fuel with
  | 0 => modMover n m s
  | k + 1 =>
    if m.lines ≤ m.done ∨ inHalt s = true then modMover n m s else
    let src := m.src / 64 + m.done
    let dst := m.dst / 64 + m.done
    let hit := (ue.filter (fun x => x.1 == m.done)).map (·.2)
    let (s, bad) := if hit = some 1 ∧ m.op = 1 then ueRead src s else (s, false)
    if bad then dmvHalt n m s else
    let input := if m.op = 1 then readNow src (moverKey s p src m.srcKey) p s
      else some (s, bytesLine ((List.replicate 8 (le 8 m.pattern.toNat)).flatten), false)
    match input with
    | none => modMover n m s
    | some (s, d, poison) =>
      if inHalt s then s else
      let (s, bad) := stageWord n m.done (hit == some 0) s
      if bad then dmvHalt n m s
      else
        match writeNow dst (moverKey s p dst m.dstKey) p (if poison then 0 else d) (BitVec.allOnes 64) poison s with
        | none => modMover n m s
        | some s =>
          dmvLines k n p ue { m with done := m.done + 1, poisoned := m.poisoned + (if poison then 1 else 0) }
            (count 0x62 0 1 (setF (F.DMV_CH_DONE_LINES n) (m.done + 1) s))

/-- Continue a channel's descriptor: its lines, then its completion (R427, R428). -/
def dmvGo (n : Nat) (ue : Option (Nat × Nat)) (s : State) : State :=
  match tfind s.movers n with
  | none => s
  | some m =>
    let fin := fun (st : Nat) (m : MoverRun) (s : State) =>
      pump ((dmvEnd n m.op m.tag st m.done m.irq m.poisoned s).getD (modMover n { m with ending := some st } s))
    match m.ending with
    | some st => fin st m s
    | none =>
      let s := dmvLines (m.lines + 1) n (fld s (rgOwner (dmv n))) ue m s
      match tfind s.movers n with
      | some m' => if m'.lines ≤ m'.done then fin (if m'.poisoned ≠ 0 then 0x8 else 0) m' s else pump s
      | none => s

/-- A DMV command of an OP: continue the channel's descriptor of that OP, or take the one at HEAD (R426, R427). A
descriptor with an OP above 2 is taken by any of them. -/
def doDmv (op n : Nat) (ue : Option (Nat × Nat)) (s : State) : State :=
  if !dmvThere s n || !moverRuns s || s.pwr.stopped.contains 7 then s else
  let b := dmv n
  match tfind s.movers n with
  | some m => if m.op = op ∧ (fld s (rgState b) = 1 ∨ m.ending.isSome) then dmvGo n ue s else s
  | none =>
    if !rgReady s b then s else
    match fetchDesc b 32 s with
    | none => s
    | some (t, d, poison) =>
      let o := byteAt d 0
      if inHalt t then t
      else if !poison && o != op && decide (o ≤ 2) then s
      else
        let p := fld s (rgOwner b)
        let st := if poison then 0x8 else dmvCheck t p d
        let irq := byteAt d 1 % 2 == 1
        if st ≠ 0 ∨ o = 0 then (dmvEnd n o (at' d 4 4) st 0 irq 0 (rgPop b t)).getD s
        else
          let m : MoverRun :=
            { op := o, tag := at' d 4 4, src := at' d 8 8, dst := at' d 16 8, lines := at' d 24 4 / 64, done := 0
              srcKey := at' d 28 2, dstKey := at' d 30 2, pattern := BitVec.ofNat 64 (at' d 8 8), irq := irq, poisoned := 0
              ending := none }
          let t := setF (F.DMV_CH_DONE_LINES n) 0 (setF (rgBusy b) 1 (rgPop b t))
          dmvGo n ue (modMover n m t)

/-- DMV_NOP (R425). -/
def execDmvNop (chan : Nat) (s : State) : Host.Outcome State Fault Refusal := run (doDmv 0 chan none) s
/-- DMV_COPY (R427 to R429). -/
def execDmvCopy (chan : Nat) (ue : Option (Nat × Nat)) (s : State) : Host.Outcome State Fault Refusal := run (doDmv 1 chan ue) s
/-- DMV_FILL (R427). -/
def execDmvFill (chan : Nat) (ue : Option (Nat × Nat)) (s : State) : Host.Outcome State Fault Refusal := run (doDmv 2 chan ue) s

/-! ### The end of a halt (R430) -/

/-- Complete the descriptor at HEAD with ABORTED; none where a line has to be waited for. -/
def abortOne (n : Nat) (s : State) : Option State :=
  match fetchDesc (dmv n) 32 s with
  | none => none
  | some (t, d, _) => dmvEnd n (byteAt d 0) (at' d 4 4) 0x9 0 (byteAt d 1 % 2 == 1) 0 (rgPop (dmv n) t)

/-- Complete every queued descriptor up to TAIL with ABORTED: how many, or none where a line has to be waited for. -/
def abortQueued (fuel n count : Nat) (s : State) : Option (State × Nat) :=
  match fuel with
  | 0 => some (s, count)
  | k + 1 =>
    if fld s (rgHead (dmv n)) = fld s (rgTail (dmv n)) then some (s, count) else
    match abortOne n s with
    | none => none
    | some t => abortQueued k n (count + 1) t

/-- A write of DMV_CHn_CTL by the owner (R430): ignored in any state but HALTED, and by a halt that left no descriptor. -/
def doDmvCtl (path n action : Nat) (s : State) : State :=
  let b := dmv n
  if !dmvThere s n || !rgOwns s b path || fld s (rgState b) ≠ 2 then s else
  match tfind s.movers n with
  | none =>
    -- RING_RANGE or a halt of the device: no descriptor to continue
    if action = 3 then sed 0x0822 sWARNING 7 n (fld s (rgCause b)) 0 (setF (rgEn b) 0 (rgPut b 0 0 s)) else s
  | some m =>
    if action = 1 then
      sed 0x0821 sNOTICE 7 n 1 m.done (rgPut b 1 0 s)
    else if action = 2 then
      (match dmvEnd n m.op m.tag 0x7 m.done m.irq 0 s with
       | some t => pump (sed 0x0821 sNOTICE 7 n 2 m.done (rgPut b 1 0 t))
       | none => s)
    else if action = 3 then
      (match (dmvEnd n m.op m.tag 0x7 m.done m.irq 0 s).bind (abortQueued 4096 n 1) with
       | some (t, k) => pump (sed 0x0822 sWARNING 7 n 1 k (setF (rgEn b) 0 (rgPut b 0 0 t)))
       | none => s)
    else s

/-- DMV_RETRY (R430). -/
def execDmvRetry (path chan : Nat) (v : BitVec 32) (s : State) : Host.Outcome State Fault Refusal :=
  run (fun s => doDmvCtl path chan (if v.toNat % 4 = 1 then 1 else 0) s) s
/-- DMV_SKIP (R430). -/
def execDmvSkip (path chan : Nat) (v : BitVec 32) (s : State) : Host.Outcome State Fault Refusal :=
  run (fun s => doDmvCtl path chan (if v.toNat % 4 = 2 then 2 else 0) s) s
/-- DMV_ABORT (R430). -/
def execDmvAbort (path chan : Nat) (v : BitVec 32) (s : State) : Host.Outcome State Fault Refusal :=
  run (fun s => doDmvCtl path chan (if v.toNat % 4 = 3 then 3 else 0) s) s

/-- A head is reset (R431): its channels' running descriptors end ABORTED, the channels are DISABLED. -/
def moversHeadReset (h : Nat) (s : State) : State :=
  forEach (List.range 16) (fun n s =>
    let b := dmv n
    if (sealOn s && decide (8 ≤ n)) || fld s (rgOwner b) ≠ h then s
    else
      let s := when (fld s (rgState b) ≠ 0) (fun s => setF (rgEn b) 0 (rgPut b 0 2 s)) s
      match tfind s.movers n with
      | none => s
      | some m =>
        sed 0x0822 sWARNING 7 n 2 1
          ((dmvEnd n m.op m.tag 0x9 m.done m.irq 0 s).getD (modMover n { m with ending := some 0x9 } s))) s

/-- What a reset of a head ends in its rings (R400, R431). -/
def ringsHeadReset (h : Nat) (s : State) : State := moversHeadReset h (jobsHeadReset h s)

end Sys2Proof.Machine
end

