-- ==== Sys2Proof/Machine/HostPort.lean ====
section
/-! DEFINITION. The host ports (chapter 03): links and resets of a head (R95 to R97, R127 to R130, R169), decoder commits
(R98 to R102), GPF (R120, R121), IDE on CXL.mem (R123 to R125) and the CDAT (R126). -/

namespace Sys2Proof.Machine

/-! ### Links -/

/-- Put the LTSSM state of a head's link: its PCIe number for the state is not stated (log entry 29), a free value. -/
def ltssm (h : Nat) (s : State) : State :=
  let (v, s) := draw 5 s
  setF (F.HP_LINK_STAT_LTSSM h) v.toNat s

/-- Credits that a head advertises on each M2S channel: 64, and the remaining 448 once both of its ingress queues have
reached RING mode (R152). -/
def initCredits (h : Nat) (s : State) : State :=
  let n := if (fld s F.QF_CTL_CREDITS_FULL).testBit h then 512 else 64
  forEach [iqReq h, iqRwd h] (fun q s => modQueue q (fun x => { x with credits := n }) s) s

/-- A port may train: present, released by start-up, out of PERST_N, its unit powered, not in MGMT_ONLY (R140, R457). -/
def portTrains (s : State) (h : Nat) : Bool :=
  headOn s h && (headOf s h).released && !(headOf s h).perst && !mgmtOnly s && coreOn s

/-- Width and rate code that a head's PORT record offers (R69, R95). -/
def offeredWidth (s : State) (h : Nat) : Nat := if cfgPort s h % 4 = 0 then 8 else 4
def offeredRate (s : State) (h : Nat) : Nat := cfgPort s h / 4 % 4

/-- A link is trained, with CXL.mem or without: it shows its lanes (R97, R130). -/
def linkTrained (s : State) (h : Nat) : Bool := decide (0 < fld s (F.HP_LINK_STAT_WIDTH h))

/-- A port can train so: x8 or x4 up to the offered width, at 64, 32 or 16 GT/s up to the offered rate (R95). -/
def trainable (s : State) (h width rate : Nat) : Bool :=
  (width == 8 || width == 4) && decide (width ≤ offeredWidth s h) && decide (offeredRate s h ≤ rate) && decide (rate ≤ 2)

/-- A port trains at a width and rate (code 0 64 GT/s, 1 32, 2 16); `cxl`: CXL.mem was negotiated (R95 to R97, R130).
DESIGN CHOICE (log entry 151): a port held in Detect trains again when its other side trains at x4 or wider, which clears
REFUSED; the spec does not say what ends the hold of R96. -/
def doLinkUp (h width rate : Nat) (cxl : Bool) (s : State) : State :=
  if !portTrains s h || linkTrained s h then s
  else if width < 4 then
    setF (F.HP_LINK_STAT_REFUSED h) 1 (ltssm h s) |> sed 0x0103 sERROR 0 h width 0
  else if !trainable s h width rate then s
  else
    let slow := decide (width < offeredWidth s h) || decide (offeredRate s h < rate)
    let s := setF (F.HP_LINK_STAT_WIDTH h) width (ltssm h s) |> setF (F.HP_LINK_STAT_SPEED h) rate
      |> setF (F.HP_LINK_STAT_REFUSED h) 0 |> setB (F.HP_LINK_STAT_DEGRADED h) slow
    let s := modHead h (fun x => { x with lowPower := 0, ndrCredit := 0, drsCredit := 0 }) s
    let s := if cxl then sed 0x0100 sINFO 0 h width rate (initCredits h (setF (F.HP_LINK_STAT_UP h) 1 s)) else s
    if slow then sed 0x0102 sWARNING 0 h width rate s else s

/-- LINK_UP (R95 to R97). -/
def execLinkUp (head width rate : Nat) (cxl : Bool) (s : State) : Host.Outcome State Fault Refusal :=
  run (doLinkUp head width rate cxl) s

/-! ### Resets and link loss (R127 to R130, R169) -/

/-- Reads of a head that have not been presented: in its ingress queue, in the slices, and in its response queue. -/
def openReads (s : State) (h : Nat) : Nat :=
  (queueOf s (iqReq h)).occ + (queueOf s (eqDrs h)).occ +
  (s.slices.map (fun e => (e.2.amq.filter (fun a => a.kind == .read && (match a.src with | .host k _ => k == h | _ => false))).length)).sum

/-- A source that a reset has cut off from its head. -/
def unhost (h : Nat) (src : Src) : Src := match src with | .host k _ => if k = h then .internal else src | _ => src

/-- Discard a head's requests that are not past their persist point, its reads and its responses (R127, R169); what is
past it stays in the cache and loses only its completion. -/
def cutRequests (h : Nat) (s : State) : State :=
  let s := clearHeadQueues h (plumbAbort h s)
  let mine := fun (a : AmqOp) => match a.src with | .host k _ => k == h | _ => false
  let s := { s with
    slices := s.slices.map (fun e => (e.1, { e.2 with
      amq := (e.2.amq.filter (fun a => !(mine a && !a.persisted))).map (fun a => { a with src := unhost h a.src })
      merge := e.2.merge.map (fun m => { m with srcs := m.srcs.map (unhost h) }) }))
    nrw := { s.nrw with waits := s.nrw.waits.filter (fun w => w.head != h) } }
  let lines := ((s.slices.map (fun e => e.2.amq.map (·.line))).flatten).eraseDups
  pump (forEach lines (fun l s => amqRun 64 l s) s)

/-- Decoders and IDE keys are cleared (R127). An insecure head stays so until its stream is established again (R125). -/
def clearDecoders (h : Nat) (s : State) : State :=
  let s := modHead h (fun x => { x with decoders := [], notCommitted := 0, ideKeys := [] }) s
    |> setF (F.HP_HDM_STAT_COMMITTED h) 0 |> setF (F.HP_IDE_STAT_KEYSET h) 0
  if fld s (F.HP_IDE_STAT_STATE h) = 2 then s else setF (F.HP_IDE_STAT_STATE h) 0 s

/-- The command in flight on a head's mailbox completes and its result is discarded (R127). -/
def dropResult (h : Nat) (s : State) : State :=
  { s with mgmt := { s.mgmt with inflight := s.mgmt.inflight.filter (fun e => e.path != h) } }

/-- A path's Set Timestamp ends with no effect: the calendar set that waits goes if it is its own (R127, R133). -/
def stampDrop (h : Nat) (s : State) : State :=
  match s.mgmt.stamp with
  | some (p, _, own) =>
    if p ≠ h then s else
    { s with
      mgmt := { s.mgmt with stamp := none }
      tick := if own then { s.tick with calSet := none } else s.tick }
  | none => s

/-- What every reset of a head but a function-level reset does; its running line command stops (R200). -/
def headReset (h : Nat) (s : State) : State :=
  pcHeadReset h (dropResult h (clearDecoders h (ringsHeadReset h (cutRequests h (lcmdAbort h s)))))

/-- The link of a head goes down: LINK_DOWN with its cause and the reads discarded (R130). -/
def linkDown (h cause : Nat) (s : State) : State :=
  if !linkTrained s h then s else
  let n := openReads s h
  let s := setF (F.HP_LINK_STAT_UP h) 0 (ltssm h s) |> setF (F.HP_LINK_STAT_WIDTH h) 0 |> setF (F.HP_LINK_STAT_SPEED h) 7
    |> setF (F.HP_LINK_STAT_L0P h) 0 |> setF (F.HP_LINK_STAT_DEGRADED h) 0 |> setF (F.HP_ERR_STAT_LINKDOWN h) 1
  let s := headReset h (modHead h (fun x => { x with lowPower := 0, ndrCredit := 0, drsCredit := 0 }) s)
  sed 0x0101 sWARNING 0 h cause n s

/-- LINK_DOWN (R127, R130). -/
def execLinkDown (head : Nat) (s : State) : Host.Outcome State Fault Refusal :=
  run (fun s => if headOn s head && linkTrained s head then
    linkDown head 0 (satInc (F.HP_RESET_STAT_HOT head) s) else s) s

/-- PERST_N asserted (R127). A port that the image disables keeps its pin for boundary scan (R717). -/
def execPerstAssert (head : Nat) (s : State) : Host.Outcome State Fault Refusal :=
  run (fun s =>
    if !(fusedPorts s).testBit head || (headOf s head).perst then s
    else
      let s := testPin (modHead head (fun x => { x with perst := true, ioState := [] }) s)
      if !headOn s head then s else
      let s := satInc (F.HP_RESET_STAT_PERST head) s |> sed 0x0104 sNOTICE 0 head 0 0
      headReset head (linkDown head 1 s)) s

/-- PERST_N deasserted: the port may train again; boundary scan ends (R718). -/
def execPerstDeassert (head : Nat) (s : State) : Host.Outcome State Fault Refusal :=
  run (fun s => if (fusedPorts s).testBit head then
    let s := testReset (modHead head (fun x => { x with perst := false }) s)
    if headOn s head then wakeStart 2 s else s
  else s) s

/-- A hot reset (R127). -/
def execHotReset (head : Nat) (s : State) : Host.Outcome State Fault Refusal :=
  run (fun s =>
    if !headOn s head || (headOf s head).perst then s
    else
      let s := satInc (F.HP_RESET_STAT_HOT head) s |> sed 0x0104 sNOTICE 0 head 1 0
      headReset head (linkDown head 2 s)) s

/-- CXL Reset (R127, R128): the link stays up, so its credits start again. -/
def execCxlReset (head : Nat) (s : State) : Host.Outcome State Fault Refusal :=
  run (fun s =>
    if !headOn s head || (headOf s head).perst then s
    else
      let s := satInc (F.HP_RESET_STAT_CXLRST head) s |> sed 0x0104 sNOTICE 0 head 2 0
      let s := headReset head s
      if bit s (F.HP_LINK_STAT_UP head) then
        initCredits head (modHead head (fun x => { x with ndrCredit := 0, drsCredit := 0 }) s)
      else s) s

/-- A head's mailbox command is aborted with no effect applied (R127): what it has queued is withdrawn, and its calendar set
if no later commit has replaced it; a Gauge write that has started always completes (R525), and its result is discarded
(log entry 34). -/
def abortCmd (h : Nat) (s : State) : State :=
  let open_ := s.mgmt.inflight.any (fun e => e.path == h && !e.committed)
  let s := when open_ (fun s =>
    let drop := fun (l : List GReq) => l.filter (fun r => r.mailbox != some h)
    let g := s.gauge
    let queued := (g.prioQ ++ g.normQ ++ g.waiting).any (fun r => r.mailbox == some h)
    -- a key command whose KEYROOT is being written has its effect; one withdrawn leaves a void ledger entry
    let writing := match g.cur with
      | some w => (match w.req.cont with | .key p _ n => p == h && n == 9 | _ => false)
      | none => false
    let mine := match tfind s.vault.installs h with | some e => e.lseq | none => 0
    let voidEntry := fun (l : List LedgerEnt) => l.map (fun e => if mine ≠ 0 ∧ e.lseq = mine then { e with kind := 0 } else e)
    { s with
      gauge := gFill { g with prioQ := drop g.prioQ, normQ := drop g.normQ, waiting := drop g.waiting }
      vault := if writing then s.vault else { s.vault with
        busy := s.vault.busy.filter (fun b => b.2.2 != h)
        installs := tdel h s.vault.installs
        area0 := voidEntry s.vault.area0, area1 := voidEntry s.vault.area1 }
      ndx := { s.ndx with commit := match s.ndx.commit with
        | some k => if k.path = h ∧ queued then none else some k
        | none => none }
      mgmt := { s.mgmt with tokenNew := if queued then s.mgmt.tokenNew.filter (fun t => t.1 != h) else s.mgmt.tokenNew }
      flash := { s.flash with handover := if s.flash.handover = some h then none else s.flash.handover } }) s
  dropResult h (stampDrop h s)

/-- FUNCTION_LEVEL_RESET (R127, R200): queues and decoders are not touched; the head's running line command stops. -/
def execFunctionLevelReset (head : Nat) (s : State) : Host.Outcome State Fault Refusal :=
  run (fun s =>
    if !headOn s head then s
    else
      let s := satInc (F.HP_RESET_STAT_FLR head) s |> sed 0x0104 sNOTICE 0 head 3 0
      abortCmd head (lcmdAbort head (modHead head (fun x => { x with ioState := [] }) s))) s

/-! ### Decoders (R98 to R102) -/

/-- A commit of a head's decoder: refused, with Error Not Committed, outside the head's regions, in tagged mode at 2^40 and
above, and for an interleave that R98 does not support (log entry 30). DESIGN CHOICE (log entry 152): decoders may commit in
any order; a commit below a committed decoder moves the DPA base of that decoder, which is not checked again. -/
def doDecoderCommit (h n : Nat) (d : Decoder) (s : State) : State :=
  if !headOn s h || 8 ≤ n then s else
  let l := tput n d (headOf s h).decoders
  let a := decoderBase l n
  let ok := decoderOk d && decide (d.base + d.size ≤ 2 ^ 52) && inRegions s h a (a + d.size / d.ways) &&
    !(tagged s h && decide (2 ^ 40 < d.base + d.size))
  let m := fld s (F.HP_HDM_STAT_COMMITTED h)
  let r := fld s (F.HP_HDM_STAT_REFUSED h)
  if ok then setF (F.HP_HDM_STAT_COMMITTED h) (m ||| 2 ^ n)
    (modHead h (fun x => { x with decoders := l, notCommitted := x.notCommitted &&& (255 - 2 ^ n) }) s)
  else
    let s := modHead h (fun x => { x with decoders := tdel n x.decoders, notCommitted := x.notCommitted ||| 2 ^ n }) s
    setF (F.HP_HDM_STAT_COMMITTED h) (m &&& (255 - 2 ^ n)) s |> setF (F.HP_HDM_STAT_REFUSED h) (r ||| 2 ^ n)

/-- HDM_DECODER_COMMIT (R98, R100, R102). -/
def execHdmDecoderCommit (head dec base size skip ways gran : Nat) (s : State) : Host.Outcome State Fault Refusal :=
  run (doDecoderCommit head dec ⟨base, size, skip, ways, gran⟩) s

/-! ### GPF (R120, R121) -/

/-- GPF_REQUEST: answered at once with no data movement, in every mode and during a flush. -/
def execGpfRequest (head phase : Nat) (s : State) : Host.Outcome State Fault Refusal :=
  run (fun s => if headOn s head && bit s (F.HP_LINK_STAT_UP head) then
    emit (.gpf head) s |> sed 0x0140 sINFO 0 head phase 0 else s) s

/-! ### IDE (R123 to R125) -/

/-- An established secured session of a path. -/
def spdmOpen (s : State) (path session : Nat) : Bool :=
  match tfind s.mgmt.spdm path with | some x => x.sessions.any (fun e => e.1 == session && e.2 == 1) | none => false

/-- Keys programmed with CXL_IDE_KM: the stream is established, or an established stream takes the new key set (R123). -/
def doIdeKeys (h session stream : Nat) (keys : List (BitVec 256)) (s : State) : State :=
  if !headOn s h || !spdmOpen s h session || stream ≠ 0 || keys.isEmpty then s else
  let s := modHead h (fun x => { x with ideKeys := keys }) s
  if fld s (F.HP_IDE_STAT_STATE h) = 1 then
    let k := 1 - fld s (F.HP_IDE_STAT_KEYSET h)
    setF (F.HP_IDE_STAT_KEYSET h) k s |> satInc (F.HP_IDE_STAT_REFRESH h) |> sed 0x0122 sINFO 0 h k 0
  else
    setF (F.HP_IDE_STAT_STATE h) 1 s
      |> sed 0x0120 sINFO 0 h (fld s (F.HP_IDE_STAT_KEYSET h)) (cfgPort s h / 64 % 2)

/-- IDE_KEY_PROGRAM (R123). -/
def execIdeKeyProgram (head session stream : Nat) (keys : List (BitVec 256)) (s : State) :
    Host.Outcome State Fault Refusal := run (doIdeKeys head session stream keys) s

/-- An IDE integrity failure (R125): the requests of the aggregation interval are discarded. `flits` counts the flits
discarded, the failing ones included. -/
def doIdeFail (h flits : Nat) (s : State) : State :=
  if !headOn s h || fld s (F.HP_IDE_STAT_STATE h) ≠ 1 then s else
  let reads := (queueOf s (iqReq h)).entries.filter (fun e => !e.ideOk)
  let tags := reads.map (·.tag)
  let s := { s with tracker := s.tracker.filter (fun x => !(x.head == h && x.kind == 0 && tags.contains x.tag)) }
  let s := forEach reads (fun _ s => freeIngress (iqReq h) s) (removeEntries (iqReq h) (fun e => !e.ideOk) s)
  let s := dropWrites h (fun e => !e.ideOk) s
  let s := setF (F.HP_IDE_STAT_STATE h) 2 s |> satInc (F.HP_IDE_STAT_FAILS h) |> setF (F.HP_ERR_STAT_IDEFAIL h) 1
  emit (.headEvent h 1 0) (modHead h (fun x => { x with aer := x.aer + 1 }) s) |> sed 0x0121 sERROR 0 h flits 0

/-- IDE_FAIL (R125). -/
def execIdeFail (head flits : Nat) (s : State) : Host.Outcome State Fault Refusal := run (doIdeFail head flits) s

/-! ### CDAT over DOE (R126); its layout is the standard's (log entry 31) -/

/-- The structures of a head's CDAT after its header: for each region a DSMAS, then read latency 1,900 ns, write latency
15 ns, read and write bandwidth 56,000 MB/s. -/
def cdatEntries (s : State) (h : Nat) : List (List Byte) :=
  ((headRegions s h).zipIdx.map (fun e =>
    let r := e.1
    let flags := 4 + (if r.share &&& (15 - 2 ^ h) = 0 then 0 else 8) + (if r.dc then 32 else 0) + (if r.ro then 64 else 0)
    let lbis := fun (t unit v : Nat) =>
      [(1 : Byte), 0] ++ le 2 24 ++ le 1 e.2 ++ [0] ++ le 1 t ++ [0] ++ le 8 unit ++ le 2 v ++ zeros 6
    [[(0 : Byte), 0] ++ le 2 24 ++ le 1 e.2 ++ le 1 flags ++ zeros 2 ++ le 8 (r.base * unitBytes) ++ le 8 (r.len * unitBytes),
     lbis 1 1000 1900, lbis 2 1000 15, lbis 4 1 56000, lbis 5 1 56000])).flatten

/-- The CDAT header: length, revision, checksum over the whole table. -/
def cdatHeader (l : List (List Byte)) : List Byte :=
  let n := 16 + (l.map List.length).sum
  let head := fun (c : Byte) => le 4 n ++ [(1 : Byte), c] ++ zeros 10
  head (0 - ((head 0 ++ l.flatten).foldl (· + ·) 0))

/-- A table access response: the entry, with the handle of the next or all ones after the last. -/
def cdatReply (s : State) (h entry : Nat) : List Byte :=
  let l := cdatEntries s h
  let all := cdatHeader l :: l
  let next := if entry + 1 < all.length then entry + 1 else 0xFFFF
  [(0 : Byte), 0] ++ le 2 next ++ lat [] all entry

/-- The protocols of a head's DOE instance in the order that DOE Discovery gives them (R126): vendor ID and data object type
of DOE Discovery, CMA/SPDM, secured CMA/SPDM and CDAT Table Access. PRESUMED (log entry 31): the numbers are the standards'. -/
def doeProtocols : List (Nat × Nat) := [(0x0001, 0), (0x0001, 1), (0x0001, 2), (0x1E98, 2)]

/-- A DOE Discovery response: the protocol at an index, and the next index, 0 after the last. -/
def doeDiscovery (i : Nat) : List Byte :=
  match doeProtocols[i]? with
  | some (v, t) => le 2 v ++ le 1 t ++ le 1 (if i + 1 < doeProtocols.length then i + 1 else 0)
  | none => le 2 0xFFFF ++ le 1 0 ++ le 1 0

/-- CDAT_READ (R126): an object on a head's DOE instance, DOE Discovery of an index or CDAT Table Access of an entry. -/
def execCdatRead (head : Nat) (discovery : Bool) (entry : Nat) (s : State) : Host.Outcome State Fault Refusal :=
  run (fun s => if headOn s head then
    emit (.doe head (if discovery then doeDiscovery entry else cdatReply s head entry)) s else s) s

end Sys2Proof.Machine
end

