-- ==== Sys2Proof/Machine/Mailbox.lean ====
section
/-! DEFINITION. The standard mailbox commands (R112 to R119, R122, R131 to R134, R137, R442, R732). Their payloads are
those of CXL 3.1 (log entry 31). -/

namespace Sys2Proof.Machine

/-- The head that a per-head command acts on (R442). -/
def cmdHead (s : State) (path : Nat) : Nat := if isHead path then path else fld s F.MGMT_TUT_HEAD_HEAD

/-- A per-head command: UNSUPPORTED on the Tuten port when the named head is absent or disabled (R442). -/
def headCmd (path op : Nat) (inp : List Byte) (lenOk : Bool) (f : Nat → State → State) (s : State) : State :=
  cmd path op inp lenOk (fun s =>
    if headOn s (cmdHead s path) then f (cmdHead s path) s else answer path op rcUnsupported [] s) s

/-! ### Identity -/

/-- PCI_VID of the calibration row (R483, R732). -/
def pciVid (s : State) : Nat := leVal (flashBytes s (calRow + 0x12) 2)

/-- What every head reports of itself in its configuration space (R120, R128, R732): vendor, device and subsystem identity,
revision, class code, the serial number of its Device Serial Number capability, the sizes in bytes of BAR0, BAR2 and BAR4,
MSI-X vectors, the GPF DVSEC's phase 2 duration in ns and power in mW, and the CXL DVSEC's CXL Reset and Memory Clear. -/
structure HeadIdentity where
  vendor : Nat
  device : Nat
  revision : Nat
  classCode : Nat
  subVendor : Nat
  subsystem : Nat
  serial : Nat
  bar0 : Nat
  bar2 : Nat
  bar4 : Nat
  vectors : Nat
  gpfNs : Nat
  gpfMilliwatts : Nat
  cxlReset : Bool
  memClear : Bool
deriving DecidableEq, Repr

/-- The identity that the device gives its heads (R732), with the DVSECs of R120 and R128. -/
def headIdentity (s : State) : HeadIdentity :=
  { vendor := pciVid s, device := partNo s, revision := 0xB1, classCode := 0x050210, subVendor := pciVid s
    subsystem := partNo s, serial := serialNo s, bar0 := 64 * 2 ^ 20, bar2 := 128 * 2 ^ 10, bar4 := 16 * 2 ^ 10, vectors := 32
    gpfNs := 1000, gpfMilliwatts := 0, cxlReset := true, memClear := false }

/-- IDENTIFY (R732): vendor, device and subsystem identity, serial number, 8 KiB messages, a type 3 component. -/
def doIdentify (path : Nat) (s : State) : State :=
  let i := headIdentity s
  answer path 0x0001 rcSuccess
    (le 2 i.vendor ++ le 2 i.device ++ le 2 i.subVendor ++ le 2 i.subsystem ++ le 8 i.serial ++ [13, 3]) s

def execIdentify (path : Nat) (input : List Byte) (s : State) : Host.Outcome State Fault Refusal :=
  run (cmd path 0x0001 input input.isEmpty (doIdentify path)) s

/-- IDENTIFY_MEMORY_DEVICE (R99). The firmware revision string is the standard's (log entry 5). -/
def doIdentifyMem (path h : Nat) (s : State) : State :=
  let c := headCap s h
  answer path 0x4000 rcSuccess
    (sub (Config.bytes "firmware revision" (fld s (if bit s F.SF_FW_SEL_RUNNING then F.SF_FW_VER1_VERSION else F.SF_FW_VER0_VERSION))) 0 16 ++ le 8 c ++ le 8 0 ++ le 8 c ++ le 8 0 ++
     le 2 256 ++ le 2 256 ++ le 2 256 ++ le 2 256 ++ le 4 0x40000 ++ le 3 1024 ++ le 2 1024 ++ [0, 0] ++ le 2 0) s

def execIdentifyMemoryDevice (path : Nat) (input : List Byte) (s : State) : Host.Outcome State Fault Refusal :=
  run (headCmd path 0x4000 input input.isEmpty (doIdentifyMem path)) s

/-- GET_PARTITION_INFO (R99, R103). -/
def doGetPartition (path h : Nat) (s : State) : State :=
  answer path 0x4100 rcSuccess (le 8 0 ++ le 8 (headCap s h) ++ le 8 0 ++ le 8 0) s

def execGetPartitionInfo (path : Nat) (input : List Byte) (s : State) : Host.Outcome State Fault Refusal :=
  run (headCmd path 0x4100 input input.isEmpty (doGetPartition path)) s

/-- Commands answered UNSUPPORTED whatever they carry (R103, R109, R132). -/
def unsupported (path op : Nat) (inp : List Byte) : State → State :=
  cmd path op inp true (answer path op rcUnsupported [])

/-- SET_PARTITION_INFO (R103). -/
def execSetPartitionInfo (path : Nat) (input : List Byte) (s : State) : Host.Outcome State Fault Refusal :=
  run (unsupported path 0x4101 input) s
/-- ADD_DC_RESPONSE (R109). -/
def execAddDcResponse (path : Nat) (input : List Byte) (s : State) : Host.Outcome State Fault Refusal :=
  run (unsupported path 0x4802 input) s
/-- RELEASE_DYNAMIC_CAPACITY (R109). -/
def execReleaseDynamicCapacity (path : Nat) (input : List Byte) (s : State) : Host.Outcome State Fault Refusal :=
  run (unsupported path 0x4803 input) s

/-! ### Background operations (R116, R137) -/

/-- Show a background command's progress to its path (R139). -/
def bgSet (path op percent code : Nat) (s : State) : State :=
  { s with mgmt := { s.mgmt with bgStat := tput path ⟨op, percent, code⟩ s.mgmt.bgStat } }

/-- Request Abort Background Operation (R116): a scan stops, any other command runs on. -/
def doAbortBg (path : Nat) (s : State) : State :=
  match s.mgmt.bg with
  | none => answer path 0x0005 rcSuccess [] s
  | some (.scan p h a b pos e _ bad) =>
    answer path 0x0005 rcSuccess [] { s with mgmt := { s.mgmt with bg := some (.scan p h a b pos e true bad) } }
  | some _ => answer path 0x0005 rcBusy [] s

/-- REQUEST_ABORT_BG_OP (R116). -/
def execRequestAbortBgOp (path : Nat) (input : List Byte) (s : State) : Host.Outcome State Fault Refusal :=
  run (cmd path 0x0005 input input.isEmpty (doAbortBg path)) s

/-! ### Event logs (R117 to R119) -/

/-- An event record of 128 bytes (R118); `k` is its log. -/
def eventBytes (s : State) (k : Nat) (e : EvRec) : List Byte :=
  match e.body with
  | .vendor r =>
    be 16 0x5a1c3e079b2d4f608e117c0d2a4b9f36 ++ [128] ++ le 3 (k + (if r.sev = 7 then 4 else 0)) ++ le 2 e.handle ++ le 2 0 ++
    le 8 e.stamp ++ zeros 16 ++ recBytes r ++ le 2 (devid s) ++ zeros 46
  | .media line =>
    be 16 0xfbcd0a77c260417f85a9088b1621eba6 ++ [128] ++ le 3 k ++ le 2 e.handle ++ le 2 0 ++ le 8 e.stamp ++ zeros 16 ++
    le 8 (line * 64) ++ zeros 72

/-- GET_EVENT_RECORDS: the oldest records of a log, as many as a payload of 8 KiB holds. -/
def doGetEvents (path h : Nat) (inp : List Byte) (s : State) : State :=
  let k := byteAt inp 0
  if 3 < k then answer path 0x0100 rcInvalid [] s
  else
    let lg := lat ⟨[], 1, 0, 0, 0, none⟩ (headOf s h).logs k
    let out := lg.recs.take 63
    answer path 0x0100 rcSuccess
      (le 1 ((if lg.dropped = 0 then 0 else 1) + (if out.length < lg.recs.length then 2 else 0)) ++ [0] ++ le 2 lg.dropped ++
       le 8 lg.firstDrop ++ le 8 lg.lastDrop ++ le 2 out.length ++ zeros 10 ++ (out.map (eventBytes s k)).flatten) s

def execGetEventRecords (path : Nat) (input : List Byte) (s : State) : Host.Outcome State Fault Refusal :=
  run (headCmd path 0x0100 input (input.length == 1) (fun h => doGetEvents path h input)) s

/-- CLEAR_EVENT_RECORDS (R119): the named records, or all, leave that head's log. -/
def doClearEvents (path h : Nat) (inp : List Byte) (s : State) : State :=
  let k := byteAt inp 0
  let lg := lat ⟨[], 1, 0, 0, 0, none⟩ (headOf s h).logs k
  let want := (List.range (byteAt inp 2)).map (fun i => at' inp (6 + 2 * i) 2)
  let all := byteAt inp 1 % 2 == 1
  if 3 < k ∨ (all = false ∧ want.any (fun n => !lg.recs.any (fun e => e.handle == n))) then answer path 0x0101 rcInvalid [] s
  else
    let recs := if all then [] else lg.recs.filter (fun e => !want.contains e.handle)
    let lg' := if recs.isEmpty then { lg with recs := [], dropped := 0, firstDrop := 0, lastDrop := 0 } else { lg with recs := recs }
    answer path 0x0101 rcSuccess [] (modHead h (fun x => { x with logs := x.logs.set k lg' }) s)

def execClearEventRecords (path : Nat) (input : List Byte) (s : State) : Host.Outcome State Fault Refusal :=
  run (headCmd path 0x0101 input (decide (6 ≤ input.length) && input.length == 6 + 2 * byteAt input 2)
    (fun h => doClearEvents path h input)) s

/-- GET_EVENT_INTERRUPT_POLICY (R119). -/
def execGetEventInterruptPolicy (path : Nat) (input : List Byte) (s : State) : Host.Outcome State Fault Refusal :=
  run (headCmd path 0x0102 input input.isEmpty (fun h s =>
    answer path 0x0102 rcSuccess ((headOf s h).policy.map (BitVec.ofNat 8)) s)) s

/-- SET_EVENT_INTERRUPT_POLICY (R119): per log, no interrupt or an MSI-X vector. -/
def execSetEventInterruptPolicy (path : Nat) (input : List Byte) (s : State) : Host.Outcome State Fault Refusal :=
  run (headCmd path 0x0103 input (input.length == 4) (fun h s =>
    if input.any (fun b => decide (1 < b.toNat % 4)) then answer path 0x0103 rcInvalid [] s
    else answer path 0x0103 rcSuccess [] (modHead h (fun x => { x with policy := input.map BitVec.toNat }) s))) s

/-! ### Time (R133) -/

/-- GET_TIMESTAMP. -/
def execGetTimestamp (path : Nat) (input : List Byte) (s : State) : Host.Outcome State Fault Refusal :=
  run (cmd path 0x0300 input input.isEmpty (fun s =>
    answer path 0x0300 rcSuccess (le 8 (nanos s + 4000 * fld s F.TICK_CAL_STAT_SUBMS)) s)) s

/-- The calendar is set by a locked follower's master only (R48). -/
def calLocked (s : State) : Bool := isFollower s && bit s F.TICK_SYNC_STAT_LOCKED

/-- SET_TIMESTAMP: a calendar set that the next boundary judges and answers; a value before 2000 and a locked follower's
set nothing. The calendar is one resource: a second path's command while one is unfinished is BUSY (R138). -/
def doSetTimestamp (path : Nat) (inp : List Byte) (s : State) : State :=
  let ms := at' inp 0 8 / 1000000
  if s.mgmt.stamp.isSome then answer path 0x0301 rcBusy [] s else
  let own := decide (946684800000 ≤ ms) && !calLocked s
  startCmd path 0x0301 false { s with
    mgmt := { s.mgmt with stamp := some (path, ms, own) }
    tick := if own then { s.tick with calSet := some ((ms - 946684800000) % 2 ^ 48) } else s.tick }

def execSetTimestamp (path : Nat) (input : List Byte) (s : State) : Host.Outcome State Fault Refusal :=
  run (cmd path 0x0301 input (input.length == 8) (doSetTimestamp path input)) s

/-- The answer to Set Timestamp after the boundary that judged it (R54, R133): `refused` is that judgement. -/
def answerTimestamps (refused : Bool) (s : State) : State :=
  match s.mgmt.stamp with
  | none => s
  | some (path, ms, own) =>
    let s := { s with mgmt := { s.mgmt with stamp := none } }
    if ms < 946684800000 then endCmd path 0x0301 rcInvalid [] s
    else if !own && calLocked s then endCmd path 0x0301 rcRefused [] (setF F.TICK_CAL_STAT_REFUSED 1 s)
    else endCmd path 0x0301 (if refused then rcRefused else rcSuccess) [] s

/-! ### Logs (R132) -/

/-- Opcodes a path implements (R132, R135). -/
def opcodes (path : Nat) : List Nat :=
  [0x0001, 0x0005, 0x0100, 0x0101, 0x0102, 0x0103, 0x0200, 0x0300, 0x0301, 0x0400, 0x0401, 0x4000, 0x4100, 0x4102, 0x4103,
   0x4200, 0x4201, 0x4202, 0x4203, 0x4204, 0x4300, 0x4301, 0x4302, 0x4303, 0x4304, 0x4305, 0x4800, 0x4801, 0xC001, 0xC002,
   0xC010, 0xC011, 0xC012, 0xC013, 0xC020, 0xC021, 0xC022, 0xC023, 0xC030, 0xC031, 0xC040] ++
  (if isHead path then [] else [0xC050]) ++ [0xC051, 0xC060, 0xC061, 0xC070] ++ (if isHead path then [] else [0xC071]) ++
  [0xC080] ++ (if isHead path then [] else [0xC081])

/-- The Command Effects Log: an opcode and its effect bits, which the spec does not state (log entry 5). -/
def effectsLog (path : Nat) : List Byte := ((opcodes path).map (fun o => le 2 o ++ sub (Config.bytes "command effects" o) 0 2)).flatten

def effectsUuid : List Byte := be 16 0x0da9c0b5bf414b788f7996b1623b3f17

/-- GET_SUPPORTED_LOGS. -/
def execGetSupportedLogs (path : Nat) (input : List Byte) (s : State) : Host.Outcome State Fault Refusal :=
  run (cmd path 0x0400 input input.isEmpty
    (answer path 0x0400 rcSuccess (le 2 1 ++ zeros 6 ++ effectsUuid ++ le 4 (effectsLog path).length))) s

/-- GET_LOG. -/
def doGetLog (path : Nat) (inp : List Byte) (s : State) : State :=
  let l := effectsLog path
  let o := at' inp 16 4
  let n := at' inp 20 4
  if sub inp 0 16 ≠ effectsUuid ∨ l.length < o + n ∨ 8192 < n then answer path 0x0401 rcInvalid [] s
  else answer path 0x0401 rcSuccess (sub l o n) s

def execGetLog (path : Nat) (input : List Byte) (s : State) : Host.Outcome State Fault Refusal :=
  run (cmd path 0x0401 input (input.length == 24) (doGetLog path input)) s

/-! ### Label storage area (R99): 256 KiB a head, zero until written (log entry 35) -/

/-- GET_LSA. -/
def doGetLsa (path h : Nat) (inp : List Byte) (s : State) : State :=
  let o := at' inp 0 4
  let n := at' inp 4 4
  if 0x40000 < o + n ∨ 8192 < n then answer path 0x4102 rcInvalid [] s
  else answer path 0x4102 rcSuccess (mbytes 0 (headOf s h).lsa o n) s

def execGetLsa (path : Nat) (input : List Byte) (s : State) : Host.Outcome State Fault Refusal :=
  run (headCmd path 0x4102 input (input.length == 8) (fun h => doGetLsa path h input)) s

/-- SET_LSA. -/
def doSetLsa (path h : Nat) (inp : List Byte) (s : State) : State :=
  let o := at' inp 0 4
  let d := inp.drop 8
  if 0x40000 < o + d.length ∨ !zeroAt inp 4 4 then answer path 0x4103 rcInvalid [] s
  else
    -- the lines that the bytes lie in are written through their slices (R268)
    let lines := ((List.range d.length).map (fun i => lineEnd s + 0x1000 * h + (o + i) / 64)).eraseDups
    let s := modHead h (fun x => { x with lsa := mputs 0 x.lsa o d }) s
    answer path 0x4103 rcSuccess [] (internalServe { s with mtl := { s.mtl with
      internalQ := s.mtl.internalQ ++ lines.filter (fun l => !s.mtl.internalQ.contains l) } })

def execSetLsa (path : Nat) (input : List Byte) (s : State) : Host.Outcome State Fault Refusal :=
  run (headCmd path 0x4103 input (decide (8 ≤ input.length) && decide (input.length ≤ 8192)) (fun h => doSetLsa path h input)) s

/-! ### Health and alerts (R134) -/

/-- LIFE_S and LIFE_D in units of 0.01 %, from the erases completed in each mode and the good blocks at shipment (R303). -/
def lifeS (s : State) : Nat := min 65535 (s.mtl.lifeS * 2 / (15 * goodShip s))
def lifeD (s : State) : Nat := min 65535 (s.mtl.lifeD * 4 / (9 * goodShip s))
def lifeUsed (s : State) : Nat := max (lifeS s) (lifeD s)

/-- The controller group's reading in degrees (R619, R620). -/
def dieTemp (s : State) : Int := groupC s / 10

/-- A signed 16-bit value as bytes. -/
def le16 (v : Int) : List Byte := le 2 (v % 65536).toNat

/-- GET_HEALTH_INFO (R134): the corrected errors are those of the media engines and of on-die memory protection. -/
def doHealth (path : Nat) (s : State) : State :=
  let ro := mtlReadOnly s
  let ce := ((List.range 16).map (fun c => fld s (F.MEMP_CE_COUNT c))).sum + s.media.corrected
  answer path 0x4200 rcSuccess
    ([if ro then 2 else 0, if ro then 1 else 0, 0] ++ le 1 (min 255 (lifeUsed s / 100)) ++ le16 (dieTemp s) ++
     le 4 s.mgmt.dirtyShutdowns ++ le 4 0 ++ le 4 (min ce (2 ^ 32 - 1))) s

def execGetHealthInfo (path : Nat) (input : List Byte) (s : State) : Host.Outcome State Fault Refusal :=
  run (cmd path 0x4200 input input.isEmpty (doHealth path)) s

/-- GET_ALERT_CONFIGURATION: each path, the Tuten port too, has its own (R442 names no head for it). -/
def execGetAlertConfiguration (path : Nat) (input : List Byte) (s : State) : Host.Outcome State Fault Refusal :=
  run (cmd path 0x4201 input input.isEmpty (fun s => answer path 0x4201 rcSuccess (headOf s path).alertCfg s)) s

/-- SET_ALERT_CONFIGURATION: for each alert marked valid, enable or disable it and take its threshold. -/
def doSetAlert (path h : Nat) (inp : List Byte) (s : State) : State :=
  let valid := byteAt inp 0
  let en := byteAt inp 1
  let old := (headOf s h).alertCfg
  let pick := fun (bit o n i : Nat) => if valid.testBit bit then sub inp i n else sub old o n
  let on := (byteAt old 0 &&& (255 - valid % 32)) ||| (en &&& (valid % 32))
  let new := le 1 on ++ [0x1F] ++ sub old 2 1 ++ pick 0 3 1 2 ++ sub old 4 4 ++ pick 1 8 2 4 ++ pick 2 10 2 6 ++
    pick 3 12 2 8 ++ pick 4 14 2 10
  answer path 0x4202 rcSuccess [] (modHead h (fun x => { x with alertCfg := new }) s)

def execSetAlertConfiguration (path : Nat) (input : List Byte) (s : State) : Host.Outcome State Fault Refusal :=
  run (cmd path 0x4202 input (input.length == 12) (doSetAlert path path input)) s

/-- GET_SHUTDOWN_STATE (R122). -/
def execGetShutdownState (path : Nat) (input : List Byte) (s : State) : Host.Outcome State Fault Refusal :=
  run (headCmd path 0x4203 input input.isEmpty (fun h s => answer path 0x4203 rcSuccess (le 1 (headOf s h).shutdown) s)) s

/-- SET_SHUTDOWN_STATE (R122): recorded, with no other effect. -/
def execSetShutdownState (path : Nat) (input : List Byte) (s : State) : Host.Outcome State Fault Refusal :=
  run (headCmd path 0x4204 input (input.length == 1) (fun h s =>
    answer path 0x4204 rcSuccess [] (modHead h (fun x => { x with shutdown := byteAt input 0 }) s))) s

/-! ### Poison (R108, R112, R113) -/

/-- GET_POISON_LIST: entries of the range in the head's regions, in list order. -/
def doPoisonList (path h : Nat) (inp : List Byte) (s : State) : State :=
  let a := at' inp 0 8 / 64
  let n := at' inp 8 8
  let l := s.poison.ents.filter (fun e => decide (a ≤ e.line) && decide (e.line < a + n) && (regionOf s h e.line).isSome)
  let out := l.take 510
  let scan := match s.mgmt.bg with | some (.scan ..) => 4 | _ => 0
  answer path 0x4300 rcSuccess
    (le 1 ((if out.length < l.length then 1 else 0) + (if s.poison.overflow then 2 else 0) + scan) ++ [0] ++
     le 8 (if s.poison.overflow then s.poison.overflowAt else 0) ++ le 2 out.length ++ zeros 20 ++
     (out.map (fun e => le 8 (e.line * 64 + e.src + 1) ++ le 4 1 ++ zeros 4)).flatten) s

def execGetPoisonList (path : Nat) (input : List Byte) (s : State) : Host.Outcome State Fault Refusal :=
  run (headCmd path 0x4300 input (input.length == 16) (fun h => doPoisonList path h input)) s

/-- Write a whole line for Inject or Clear Poison: under the key index the cached copy holds, else that of the head's
region (log entry 36). -/
def poisonWrite (path op h line : Nat) (poison : Bool) (d : Line) (s : State) : State :=
  let key := (heldKey s line).getD (match regionOf s h line with | some r => r.key | none => 0)
  if !keyHolds s key || roLine s h line || deviceRo s line || !slicesServe s then answer path op rcRefused [] s
  else if amqFull s line || !admitLine s line then answer path op rcBusy [] s
  else
    let s := submit { kind := .full, line := line, key := key, poison := poison, data := d, mask := 1, src := .mover path
                      waiting := false, persisted := false } s
    answer path op rcSuccess [] (pump s)

/-- INJECT_POISON (R113). -/
def doInjectPoison (path h : Nat) (inp : List Byte) (s : State) : State :=
  let a := at' inp 0 8
  if 2 ≤ lifecycle s then answer path 0x4301 rcRefused [] s
  else if a % 64 ≠ 0 ∨ (regionOf s h (a / 64)).isNone then answer path 0x4301 rcInvalid [] s
  else poisonWrite path 0x4301 h (a / 64) true 0 s

def execInjectPoison (path : Nat) (input : List Byte) (s : State) : Host.Outcome State Fault Refusal :=
  run (headCmd path 0x4301 input (input.length == 8) (fun h => doInjectPoison path h input)) s

/-- CLEAR_POISON (R113). -/
def doClearPoison (path h : Nat) (inp : List Byte) (s : State) : State :=
  let a := at' inp 0 8
  if a % 64 ≠ 0 ∨ (regionOf s h (a / 64)).isNone then answer path 0x4302 rcInvalid [] s
  else poisonWrite path 0x4302 h (a / 64) false (bytesLine (inp.drop 8)) s

def execClearPoison (path : Nat) (input : List Byte) (s : State) : Host.Outcome State Fault Refusal :=
  run (headCmd path 0x4302 input (input.length == 72) (fun h => doClearPoison path h input)) s

/-! ### Scan Media (R114 to R116) -/

/-- A scan range: 64-byte-aligned and inside the head's regions. -/
def scanRange (s : State) (h : Nat) (inp : List Byte) : Option (Nat × Nat) :=
  let a := at' inp 0 8
  let n := at' inp 8 8
  if a % 64 = 0 ∧ 0 < n ∧ covered (headRegions s h) (headRegions s h).length a (a + 64 * n) then some (a / 64, n) else none

/-- GET_SCAN_MEDIA_CAPABILITIES (R115): bytes over 120,000 times the channels, rounded up. -/
def doScanCaps (path h : Nat) (inp : List Byte) (s : State) : State :=
  match scanRange s h inp with
  | none => answer path 0x4303 rcInvalid [] s
  | some (_, n) =>
    let d := 120000 * fusedChans s
    answer path 0x4303 rcSuccess (le 4 ((64 * n + d - 1) / d)) s

def execGetScanMediaCapabilities (path : Nat) (input : List Byte) (s : State) : Host.Outcome State Fault Refusal :=
  run (headCmd path 0x4303 input (input.length == 16) (fun h => doScanCaps path h input)) s

/-- SCAN_MEDIA (R114): the background command starts. -/
def doScanMedia (path h : Nat) (inp : List Byte) (s : State) : State :=
  match scanRange s h inp with
  | none => answer path 0x4304 rcInvalid [] s
  | some (a, n) =>
    if bgBusy s then answer path 0x4304 rcBusy [] s
    else
      let s := modHead h (fun x => { x with scanLeft := [] }) s
      let s := { s with mgmt := { s.mgmt with
        bg := some (.scan path h a (a + n) a (byteAt inp 16 % 2 == 1) false []) } }
      let s := sed 0x0141 sINFO 0 h (a / 4 % 2 ^ 32) (n / 4) (bgSet path 0x4304 0 0 s)
      answer path 0x4304 rcBackground [] s

def execScanMedia (path : Nat) (input : List Byte) (s : State) : Host.Outcome State Fault Refusal :=
  run (headCmd path 0x4304 input (input.length == 17) (fun h => doScanMedia path h input)) s

/-- A line of the scan is read: mapped, and not dirty in the cache (R114). -/
def scanReads (s : State) (line : Nat) : Bool :=
  (match mtlLookup s line with | .at_ .. => true | _ => false) &&
  !(match findWay s line with | some e => e.2.st == WaySt.dirty | none => false) && (findEb s line).isNone

/-- GET_SCAN_MEDIA_RESULTS (R116): at most 256 entries a call. -/
def doScanResults (path h : Nat) (s : State) : State :=
  let l := (headOf s h).scanLeft
  let out := l.take 256
  answer path 0x4305 rcSuccess
    (le 8 0 ++ le 8 0 ++ le 1 (if out.length < l.length then 1 else 0) ++ [0] ++ le 2 out.length ++ zeros 12 ++
     (out.map (fun n => le 8 (n * 64 + 2) ++ le 4 1 ++ zeros 4)).flatten)
    (modHead h (fun x => { x with scanLeft := l.drop 256 }) s)

def execGetScanMediaResults (path : Nat) (input : List Byte) (s : State) : Host.Outcome State Fault Refusal :=
  run (headCmd path 0x4305 input input.isEmpty (doScanResults path)) s

/-! ### Dynamic Capacity (R109) -/

def dcRegions (s : State) (h : Nat) : List Region := (headRegions s h).filter (·.dc)

/-- GET_DC_CONFIGURATION: one region over the head's regions with DC set. -/
def doDcConfig (path h : Nat) (s : State) : State :=
  let l := dcRegions s h
  let lo := l.foldl (fun m r => min m r.base) ((l.map (·.base)).headD 0)
  let hi := l.foldl (fun m r => max m (r.base + r.len)) 0
  let one := le 8 (lo * unitBytes) ++ le 8 (hi - lo) ++ le 8 ((hi - lo) * unitBytes) ++ le 8 unitBytes ++ le 4 0 ++ zeros 4
  answer path 0x4800 rcSuccess
    (if l.isEmpty then [0, 0] ++ zeros 6
     else [1, 1] ++ zeros 6 ++ one ++ le 4 l.length ++ le 4 0 ++ le 4 0 ++ le 4 0) s

def execGetDcConfiguration (path : Nat) (input : List Byte) (s : State) : Host.Outcome State Fault Refusal :=
  run (headCmd path 0x4800 input (input.length == 2) (doDcConfig path)) s

/-- GET_DC_EXTENT_LIST: one extent for each REGION record with DC set, tag zero, sequence zero. -/
def doDcExtents (path h : Nat) (inp : List Byte) (s : State) : State :=
  let l := dcRegions s h
  let start := at' inp 4 4
  if l.length < start then answer path 0x4801 rcInvalid [] s
  else
    let out := (l.drop start).take (at' inp 0 4)
    answer path 0x4801 rcSuccess
      (le 4 out.length ++ le 4 l.length ++ le 4 0 ++ le 4 0 ++
       (out.map (fun r => le 8 (r.base * unitBytes) ++ le 8 (r.len * unitBytes) ++ zeros 16 ++ le 2 0 ++ zeros 6)).flatten) s

def execGetDcExtentList (path : Nat) (input : List Byte) (s : State) : Host.Outcome State Fault Refusal :=
  run (headCmd path 0x4801 input (input.length == 8) (fun h => doDcExtents path h input)) s

/-- UNSUPPORTED_OPCODE (R132, R136). -/
def execUnsupportedOpcode (path opcode : Nat) (input : List Byte) (s : State) : Host.Outcome State Fault Refusal :=
  run (fun s => if (opcodes tuten).contains opcode then s else unsupported path opcode input s) s

end Sys2Proof.Machine
end

