-- ==== Sys2Proof/Machine/Ndx.lean ====
section
/-! DEFINITION. The Nebadex configuration image: its byte-level format and validation (R61 to R78, R725, R726), staging
and commit (R79 to R89, R729). -/

namespace Sys2Proof.Machine

/-! ### The format -/

/-- A record of an image: index, TYPE, INST, FLAGS, RVER, payload and its raw bytes. -/
structure NdxRec where
  idx : Nat
  type : Nat
  inst : Nat
  flags : Nat
  rver : Nat
  pay : List Byte
  raw : List Byte
deriving DecidableEq, Repr

/-- A reason code of R73 and the record index of R726. -/
abbrev NdxErr := Nat × Nat

def noRec : Nat := 0xFFFF

/-- Step 1 of R73: magic, format, lengths, header CRC. -/
def ndxHeader (b : List Byte) : Option NdxErr :=
  if sub b 0 4 ≠ [0x4E, 0x44, 0x58, 0x31] then some (0x01, noRec)
  else if at' b 4 2 ≠ 1 ∨ at' b 6 2 ≠ 256 ∨ !zeroAt b 0x0E 2 ∨ !zeroAt b 0x1A 2 ∨ !zeroAt b 0x1F 1 ∨ !zeroAt b 0x24 4 ∨
    !zeroAt b 0x90 108 then some (0x02, noRec)
  else if at' b 8 4 < 352 ∨ 65536 < at' b 8 4 ∨ at' b 8 4 % 4 ≠ 0 ∨ at' b 8 4 ≠ b.length then some (0x03, noRec)
  else if at' b 0xFC 4 ≠ (crc32c (sub b 0 0xFC)).toNat then some (0x02, noRec)
  else none

/-- Step 6 of R73: the records in order, with framing and CRC checked (R66). Bytes too few for a record before the signature
name no record (R726). `fuel` bounds the walk. -/
def ndxFrames (b : List Byte) (last : Nat) (fuel off idx : Nat) : Except NdxErr (List NdxRec) :=
  match fuel with
  | 0 => .error (0x03, noRec)
  | n + 1 =>
    if off = last then .ok []
    else if last < off + 12 then .error (0x03, noRec)
    else
      let len := at' b (off + 2) 2
      if len % 4 ≠ 0 ∨ len < 12 ∨ 4096 < len ∨ last < off + len then .error (0x03, idx)
      else
        let raw := sub b off len
        if at' raw (len - 4) 4 ≠ (crc32c (sub raw 0 (len - 4))).toNat then .error (0x0B, idx)
        else
          match ndxFrames b last n (off + len) (idx + 1) with
          | .error e => .error e
          | .ok r => .ok (⟨idx, at' raw 0 2, at' raw 4 2, byteAt raw 6, byteAt raw 7, sub raw 8 (len - 12), raw⟩ :: r)

/-- LEN of each record type; 0 for an unknown type (R725). -/
def ndxLen (t : Nat) : Nat :=
  match t with
  | 1 => 20 | 2 => 20 | 3 => 28 | 5 => 212 | 6 => 16 | 7 => 20 | 8 => 20 | 9 => 96 | 10 => 16 | 11 => 32 | 12 => 20
  | 13 => 16 | _ => 0

/-- Highest INST of each type (R725). -/
def ndxInst (t : Nat) : Nat := match t with | 2 => 3 | 12 => 3 | 3 => 255 | _ => 0

/-- A field of a record: word w, bits [lo + n - 1 : lo]. -/
def NdxRec.f (r : NdxRec) (w lo n : Nat) : Nat := at' r.pay (4 * w) 4 / 2 ^ lo % 2 ^ n

/-- Bits of word w outside a mask are zero (R69: every field not listed is zero). -/
def NdxRec.only (r : NdxRec) (w mask : Nat) : Bool := at' r.pay (4 * w) 4 &&& mask == at' r.pay (4 * w) 4

/-- A rail entry of a RAILS record. -/
def NdxRec.rail (r : NdxRec) (n : Nat) : RailEnt :=
  ⟨byteAt r.pay (8 * n), byteAt r.pay (8 * n + 1), at' r.pay (8 * n + 2) 2, byteAt r.pay (8 * n + 4), byteAt r.pay (8 * n + 5)⟩

/-- Limits of watermarks: HI 2 to 63, LO less than HI. -/
def wmOk (hi lo : Nat) : Bool := decide (2 ≤ hi) && decide (hi ≤ 63) && decide (lo < hi)

/-- The fields of a record of a known type lie within the limits of R69. -/
def ndxFields (s : State) (r : NdxRec) : Bool :=
  match r.type with
  | 1 => r.f 0 16 4 != 0 && r.only 0 0xFFFFFF && r.only 1 0
  | 2 => decide (r.f 0 0 2 ≤ 1) && decide (r.f 0 2 2 ≤ 2) && r.only 0 0x7F && r.only 1 0
  | 3 => r.f 0 16 16 != 0 && r.only 1 0x3F0FFF && r.only 2 0 && r.only 3 0
  | 5 => (List.range 4).all (fun n => r.f (n / 2) (n % 2 * 16) 16 != 0)
  | 6 => let z := r.f 0 0 16
         z % 4 == 0 && r.only 0 0xFFFF &&
         (if s.variant = 0 then decide (32 ≤ z) && decide (z ≤ 192) else decide (16 ≤ z) && decide (z ≤ 96))
  | 7 => decide (1 ≤ r.f 0 4 4) && decide (r.f 0 4 4 ≤ 8) && (r.f 0 0 1 == 1 || r.f 0 4 4 == 1) &&
         decide (r.f 0 8 3 < r.f 0 4 4) && r.only 0 0x3FF1 && r.only 1 0
  | 8 => (r.f 0 8 2 == 2 || r.f 0 8 2 == 3) && r.only 0 0x17770333 && r.only 1 0
  | 9 => (List.range 10).all (fun n =>
           let e := r.rail n
           decide (1 ≤ e.up) && decide (e.up ≤ 12) && decide (14 ≤ e.down) && decide (e.down ≤ 21) &&
           decide (e.onDelay ≤ 1000) && decide (1 ≤ e.tPg) && decide (e.tPg ≤ 100) && decide (1 ≤ e.tDis) &&
           decide (e.tDis ≤ 200) && zeroAt r.pay (8 * n + 6) 2) &&
         decide (900 ≤ r.f 20 16 16) && decide (r.f 20 16 16 ≤ 1080) && decide (r.f 20 16 16 + 60 ≤ r.f 20 0 16) &&
         decide (r.f 20 0 16 ≤ 1140)
  | 10 => r.only 0 0x771
  | 11 => (List.range 3).all (fun g =>
            decide (r.f g 0 8 < r.f g 8 8) && decide (r.f g 8 8 < r.f g 16 8) && decide (r.f g 16 8 < r.f g 24 8) &&
            decide (r.f g 24 8 ≤ lat 0 [120, 90, 100] g)) &&
          decide (r.f 3 0 8 ≤ 85) && decide (r.f 3 8 8 ≤ 85) && decide (r.f 3 16 8 ≤ 70) && decide (r.f 3 24 8 ≤ 70) &&
          decide (1 ≤ r.f 4 0 4) && r.only 4 0xF
  | 12 => wmOk (r.f 0 0 8) (r.f 0 8 8) && wmOk (r.f 0 16 8) (r.f 0 24 8) && wmOk (r.f 1 0 8) (r.f 1 8 8) && r.only 1 0xFFFF
  | 13 => r.only 0 0x13
  | _ => false

/-- A record is skipped: 1 an unknown optional record (R67), 0 a record for a part the variant lacks (R77). -/
def ndxSkip (s : State) (r : NdxRec) : Option Nat :=
  if ndxLen r.type = 0 ∨ 1 < r.rver then (if r.flags % 2 = 1 then some 1 else none)
  else if r.type = 2 ∧ r.inst ≤ 3 ∧ !(fusedPorts s).testBit r.inst then some 0
  else if r.type = 12 ∧ r.inst ≤ 3 ∧ !(fusedPorts s).testBit r.inst then some 0
  else if r.type = 3 ∧ r.inst ≤ 255 ∧ !(fusedPorts s).testBit (r.inst / 64) then some 0
  else if r.type = 8 ∧ r.inst = 0 ∧ fusedNrw s = false then some 0
  else none

/-- Step 7 of R73 for one record: unknown, duplicate, out of range (R67, R68, R725, R69; their order: log entry 14). DESIGN
CHOICE (log entry 155): a known TYPE with RVER 0, which the spec does not speak of, fails with FIELD_RANGE. -/
def ndxCheckRec (s : State) (before : List NdxRec) (r : NdxRec) : Option NdxErr :=
  if before.any (fun q => q.type == r.type && q.inst == r.inst) then some (0x0D, r.idx)
  else if (ndxSkip s r).isSome then none
  else if ndxLen r.type = 0 ∨ 1 < r.rver then some (0x0C, r.idx)
  else if r.raw.length ≠ ndxLen r.type ∨ ndxInst r.type < r.inst ∨ r.flags / 2 ≠ 0 ∨ r.rver ≠ 1 ∨ !ndxFields s r then
    some (0x0F, r.idx)
  else none

def ndxCheckRecs (s : State) (before : List NdxRec) (l : List NdxRec) : Option NdxErr :=
  match l with
  | [] => none
  | r :: rest => match ndxCheckRec s before r with
    | some e => some e
    | none => ndxCheckRecs s (before ++ [r]) rest

/-- A region of a REGION record. -/
def NdxRec.region (r : NdxRec) : Region :=
  ⟨r.inst / 64, r.inst % 64, r.f 0 0 16, r.f 0 16 16, r.f 1 0 12, r.f 1 16 4, r.f 1 20 1 == 1, r.f 1 21 1 == 1⟩

/-- Two regions overlap. -/
def Region.overlaps (a b : Region) : Bool := decide (a.base < b.base + b.len) && decide (b.base < a.base + a.len)

/-- Overlapping regions that R75 refuses: of one head, or of two heads that do not share under one key. -/
def Region.clash (a b : Region) : Bool :=
  a.overlaps b && (a.head == b.head || !(a.share.testBit b.head && b.share.testBit a.head && a.key == b.key))

/-- Exported capacity in 256 MiB units (R2, R92). -/
def capacityUnits (s : State) : Nat := if s.variant = 0 then 24576 else 12288

/-- The rail ordering of R70. -/
def railsOrdered (l : List RailEnt) : Bool :=
  let r := fun n => lat ⟨0, 0, 0, 0, 0⟩ l n
  ((List.range 10).filter (fun n => n != 4)).all (fun n => decide ((r 4).up < (r n).up) && decide ((r n).down < (r 4).down)) &&
  [5, 6, 7, 8, 2, 3].all (fun n => decide ((r 0).up < (r n).up) && decide ((r 1).up < (r n).up))

/-- Step 8 of R73: the cross-checks of R75 in its order; the index is that of the later record of a conflict. -/
def ndxCross (s : State) (l : List NdxRec) : Option NdxErr :=
  let rec1 := fun t => l.find? (fun r => r.type == t)
  let regs := l.filter (fun r => r.type == 3)
  let bad := fun (c : Bool) (i : Nat) => if c then some ((0x10, i) : NdxErr) else none
  let u := rec1 1
  let c1 := u.bind (fun r => bad (r.f 0 0 16 &&& 0x7F7F != 0x7F7F) r.idx)
  let c2 := u.bind (fun r => bad (fusedSeal s && r.f 0 20 1 == 1 && r.f 0 7 1 == 0) r.idx)
  let c3 := (regs.find? (fun r => decide (capacityUnits s < r.region.base + r.region.len))).map (fun r => ((0x10, r.idx) : NdxErr))
  let c4 := (regs.find? (fun r => regs.any (fun q => decide (q.idx < r.idx) && q.region.clash r.region))).map
    (fun r => ((0x10, r.idx) : NdxErr))
  let b := rec1 7
  let topo := match b with | some r => r.f 0 0 1 | none => 0
  let cnt := match b with | some r => r.f 0 4 4 | none => 1
  let pos := match b with | some r => r.f 0 8 3 | none => 0
  let c5 := (rec1 8).bind (fun r =>
    let ms := [r.f 0 16 3, r.f 0 20 3] ++ (if r.f 0 8 2 = 3 then [r.f 0 24 3] else [])
    let both := max r.idx ((b.map (·.idx)).getD 0)
    match bad (ms.any (fun m => decide (cnt ≤ m))) both with
    | some e => some e
    | none => (bad (!ms.Nodup) r.idx).orElse (fun _ => bad (!ms.contains pos) both))
  let c6 := if topo = 0 then
      (match (rec1 8).bind (fun r => bad (r.f 0 0 2 != 0) (max r.idx ((b.map (·.idx)).getD 0))) with
       | some e => some e
       | none => b.bind (fun r => bad (r.f 0 11 1 == 1 || r.f 0 12 2 != 0) r.idx))
    else none
  let c7 := (rec1 9).bind (fun r => bad (!railsOrdered ((List.range 10).map r.rail)) r.idx)
  [c1, c2, c3, c4, c5, c6, c7].findSome? id

/-- The settings of an image whose records are all good, with the defaults of R69. -/
def ndxCfg (s : State) (b : List Byte) (all : List NdxRec) : ImageCfg :=
  let l := all.filter (fun r => (ndxSkip s r).isNone)
  let rec1 := fun t => l.find? (fun r => r.type == t)
  let fld1 := fun t w lo n d => match rec1 t with | some (r : NdxRec) => r.f w lo n | none => d
  { version := at' b 0x10 4, totalLen := at' b 8 4, nrec := at' b 0x0C 2, digest := sha384 b,
    enable := fld1 1 0 0 16 0, ports := fld1 1 0 16 4 0, sealOn := fld1 1 0 20 1 0 == 1, plumb := fld1 1 0 21 1 0 == 1,
    nrw := fld1 1 0 22 1 0 == 1, sounding := fld1 1 0 23 1 0 == 1,
    portCfg := (l.filter (fun r => r.type == 2)).foldl (fun t r => tput r.inst (r.f 0 0 32) t) [],
    regions := ((l.filter (fun r => r.type == 3)).map NdxRec.region),
    wayMask := (List.range 4).map (fun n => fld1 5 (n / 2) (n % 2 * 16) 16 0xFFFF),
    seeds := (List.range 48).map (fun k => fld1 5 (2 + k) 0 32 0),
    shallows := fld1 6 0 0 16 (if s.variant = 0 then 96 else 48),
    topo := fld1 7 0 0 1 0, count := fld1 7 0 4 4 1, pos := fld1 7 0 8 3 0, seiche := fld1 7 0 11 1 0 == 1,
    role := fld1 7 0 12 2 0,
    narrows := (rec1 8).map (fun r => ⟨r.f 0 0 2, r.f 0 4 2, r.f 0 8 2,
      [r.f 0 16 3, r.f 0 20 3] ++ (if r.f 0 8 2 = 3 then [r.f 0 24 3] else []), r.f 0 28 1 == 1⟩),
    rails := match rec1 9 with | some r => (List.range 10).map r.rail | none => defaultRails,
    vWarn := fld1 9 20 0 16 1060, vFail := fld1 9 20 16 16 960,
    erase := fld1 10 0 0 1 0 == 1, evlogMin := fld1 10 0 4 3 3, alertMin := fld1 10 0 8 3 4,
    thermal := match rec1 11 with
      | some r => (List.range 16).map (fun i => byteAt r.pay i)
      | none => defaultThermal,
    hyst := fld1 11 4 0 4 3,
    marks := (l.filter (fun r => r.type == 12)).foldl (fun t r => tput r.inst (r.f 0 0 32, r.f 1 0 32) t) [],
    levelMax := fld1 13 0 0 2 2, tokenReq := fld1 13 0 4 1 0 == 1,
    skipped := all.filterMap (fun r => (ndxSkip s r).map (fun k => (r.type, r.inst, k))),
    railsRaw := match rec1 9 with | some r => r.pay | none => [],
    fixedRaw := (all.filter (fun r => [1, 2, 3, 5, 6, 7, 8, 9].contains r.type)).map (fun r => r.raw) }

/-- Validate an image in the order of R73. -/
def ndxValidate (s : State) (b : List Byte) : Except NdxErr ImageCfg :=
  let err := fun (c : Nat) => (.error (c, noRec) : Except NdxErr ImageCfg)
  match ndxHeader b with
  | some e => .error e
  | none =>
    let n := b.length
    if sha384 (sub b 0x30 96) ≠ imageKeyDigest s then err 0x04
    else if !ecdsaVerify (sub b 0x30 96) (sub b (n - 96) 96) (b.take (n - 96)) then err 0x05
    else if at' b 0x1C 2 ≠ 0xFFFF ∧ at' b 0x1C 2 ≠ partNo s then err 0x06
    else if 0xB1 < byteAt b 0x1E then err 0x07
    else if devid s &&& (at' b 0x22 2 % 4096) ≠ at' b 0x20 2 &&& (at' b 0x22 2 % 4096) then err 0x08
    else if at' b 0x28 8 ≠ 0 ∧ at' b 0x28 8 ≠ serialNo s then err 0x09
    else if at' b 0x10 4 < gCounter s (.dev 1) then err 0x0A
    else
      match ndxFrames b (n - 96) 8192 256 0 with
      | .error e => .error e
      | .ok recs =>
        if recs.length ≠ at' b 0x0C 2 then err 0x03
        else
          match ndxCheckRecs s [] recs with
          | some e => .error e
          | none =>
            let live := recs.filter (fun r => (ndxSkip s r).isNone)
            let has := fun t i => live.any (fun (r : NdxRec) => r.type == t && r.inst == i)
            let ports := match live.find? (fun r => r.type == 1) with | some r => r.f 0 16 4 | none => 0
            if !has 1 0 || !has 9 0 ||
                (List.range 4).any (fun p => ports.testBit p && (fusedPorts s).testBit p && !has 2 p) then err 0x0E
            else match ndxCross s live with
              | some e => .error e
              | none => .ok (ndxCfg s b recs)

/-- Return code of a refused image (R80). -/
def ndxCode (reason : Nat) : Nat :=
  if reason = 4 ∨ reason = 5 then rcAuthFail else if reason = 0x0A then rcStale else rcInvalid

/-! ### Staging (R79 to R81) -/

/-- The image bytes in a slot: as many as the header's TOTAL_LEN says, at most the 64 KiB of the slot. -/
def slotImage (s : State) (slot : Nat) : List Byte :=
  let a := 0x0100000 + 0x10000 * slot
  flashBytes s a (min (leVal (flashBytes s (a + 8) 4)) 65536)

/-- NDX_SKIPPED records for the records an image skips (R727). -/
def ndxSaySkipped (c : ImageCfg) (s : State) : State :=
  forEach c.skipped (fun k s => sed 0x0A84 sNOTICE 10 k.1 k.2.1 k.2.2 s) s

/-- The buffer is owned by another path (R79). -/
def ndxOther (s : State) (path : Nat) : Bool :=
  match s.ndx.owner with | some (_, p) => p != pathCode path | none => false

def ndxOwn (path : Nat) (s : State) : State :=
  setF F.MGMT_NDX_STAT_OWNER (pathCode path) { s with ndx := { s.ndx with owner := some (s.tick.count, pathCode path) } }

/-- A command of the owner, whatever it is answered, keeps the ownership (R79). -/
def ndxTouch (path : Nat) (s : State) : State :=
  match s.ndx.owner with
  | some (_, p) => if p = pathCode path then { s with ndx := { s.ndx with owner := some (s.tick.count, p) } } else s
  | none => s

/-- Both commands are refused in INTEGRITY_HALT and in RETIRED (R89). -/
def ndxRefused (s : State) : Bool := inHalt s || lifecycle s == 3

/-- NDX_STAGE's output payload. -/
def ndxOut (reason rec version : Nat) : List Byte := le 1 reason ++ [0] ++ le 2 rec ++ le 4 version

/-- The chunk with LAST set: validate the staged image (R80). DESIGN CHOICE (log entry 157): NDX_SKIPPED is written when the
image validates; R727 does not say whether an image refused after records were skipped writes them, and it writes none. -/
def ndxLast (path : Nat) (s : State) : State :=
  let b := s.ndx.staged
  let ver := at' b 0x10 4
  match ndxValidate s b with
  | .ok c =>
    let s := setF F.MGMT_NDX_STAT_STAGE 2 { s with ndx := { s.ndx with stagedCfg := some c } }
    let s := ndxSaySkipped c s |> sed 0x0A80 sINFO 10 ver c.totalLen c.nrec
    answer path 0xC001 rcSuccess (ndxOut 0 noRec ver) s
  | .error (reason, rec) =>
    let s := setF F.MGMT_NDX_STAT_STAGE 3 { s with ndx := { s.ndx with stagedCfg := none, owner := none } }
    let s := setF F.MGMT_NDX_ERR_REASON reason s |> setF F.MGMT_NDX_ERR_RECORD rec |> setF F.MGMT_NDX_ERR_WHERE 0
    let s := sed 0x0A81 sNOTICE 10 reason rec ver s
    answer path 0xC001 (ndxCode reason) (ndxOut reason rec ver) s

/-- NDX_STAGE's effect (R79 to R81). DESIGN CHOICE: a chunk that goes on with a LOADING buffer whose ownership has timed out
is taken from any path, which becomes the owner (log entry 156); while a commit runs the answer is BUSY (log entry 158). -/
def doNdxStage (path : Nat) (inp : List Byte) (s : State) : State :=
  let s := ndxTouch path s
  let off := at' inp 0 4
  let n := at' inp 4 2
  let last := byteAt inp 6
  let data := inp.drop 8
  if n < 4 ∨ 4096 < n ∨ n % 4 ≠ 0 ∨ 1 < last ∨ byteAt inp 7 ≠ 0 then answer path 0xC001 rcInvalid [] s
  else if ndxRefused s then answer path 0xC001 rcRefused [] s
  else if ndxOther s path || s.ndx.commit.isSome then answer path 0xC001 rcBusy [] s
  else
    let s := if off = 0 then
        setF F.MGMT_NDX_STAT_STAGE 1 { s with ndx := { s.ndx with staged := [], stagedCfg := none } }
      else s
    if fld s F.MGMT_NDX_STAT_STAGE ≠ 1 ∨ off ≠ s.ndx.staged.length ∨ 65536 < off + n then
      answer path 0xC001 rcInvalid [] s
    else
      let s := ndxOwn path { s with ndx := { s.ndx with staged := s.ndx.staged ++ data } }
      if last = 1 then ndxLast path s
      else answer path 0xC001 rcSuccess (ndxOut 0 noRec 0) s

/-- NDX_STAGE (R81). -/
def execNdxStage (path : Nat) (input : List Byte) (s : State) : Host.Outcome State Fault Refusal :=
  run (cmd path 0xC001 input (decide (8 ≤ input.length) && input.length == 8 + at' input 4 2) (doNdxStage path input)) s

/-- Staging ownership ends after 2 epochs without a command from the owner (R79). -/
def doNdxTimeout (s : State) : State :=
  match s.ndx.owner with
  | some (t, _) => if t + 2 * 262144 ≤ s.tick.count then { s with ndx := { s.ndx with owner := none } } else s
  | none => s

/-- NDX_STAGE_OWNER_TIMEOUT (R79). -/
def execNdxStageOwnerTimeout (s : State) : Host.Outcome State Fault Refusal := run doNdxTimeout s

/-! ### Commit (R82 to R88, R729) -/

/-- The region of a region-mode head that maps a 256 MiB unit. -/
def unitRegion (regions : List Region) (isTagged : Nat → Bool) (h unit : Nat) : Option Region :=
  regions.find? (fun r => r.head == h && !isTagged h && decide (r.base ≤ unit) && decide (unit < r.base + r.len))

/-- Units of 256 MiB in which the translation layer holds a mapped line: 4,096 reaches of 1,024 lines each, or lines of the
fine map. -/
def mappedUnits (s : State) : List Nat :=
  s.mtl.map.reachMap.map (fun e => e.1 / 4096) ++
  s.mtl.map.fine.flatMap (fun e => e.2.map (fun x => fineLine s e.1 x.tag / 2 ^ 22))

/-- A unit conflicts (R86): a region-mode head that the active image maps it under would stop mapping it or take another key
index, or a region-mode head would map it under another index than the active image does. The region of the new image that
does so, if there is one. -/
def unitConflict (s : State) (c : ImageCfg) (unit : Nat) : Option (Option Region) :=
  let newTag := fun h => (tget 0 c.portCfg h).testBit 4
  let old := (List.range 4).filterMap (fun h => unitRegion (cfgRegions s) (tagged s) h unit)
  let new := (List.range 4).filterMap (fun h => unitRegion c.regions newTag h unit)
  match new.find? (fun r => old.any (fun o => o.key != r.key)) with
  | some r => some (some r)
  | none => if old.any (fun o => !new.any (fun r => r.head == o.head)) then some none else none

/-- RANGE_IN_USE (R86): some unit that holds a mapped line conflicts. -/
def rangeInUse (s : State) (c : ImageCfg) : Option (Option Region) := (mappedUnits s).findSome? (unitConflict s c)

/-- The record index of a region in an image's bytes (R726). DESIGN CHOICE (log entry 159): where no REGION record of the new
image maps the range, the reason names no record. -/
def regionRec (b : List Byte) (r : Option Region) : Nat :=
  match r, ndxFrames b (b.length - 96) 8192 256 0 with
  | some x, .ok l => ((l.find? (fun q => q.type == 3 && q.inst == x.head * 64 + x.idx)).map (·.idx)).getD noRec
  | _, _ => noRec

/-- A firmware update is writing Spring flash (R88). -/
def fwWriting (s : State) : Bool := s.flash.op.isSome || fld s F.SF_FW_STAT_STATE == 1

/-- The slot a commit writes (R82): the slot not run from; in the safe configuration, the one not named by NDXSEL. -/
def ndxTarget (s : State) : Nat :=
  let src := fld s F.MGMT_NDX_STAT_SOURCE
  if src = 2 then 1 - (gNdxsel s).1 else 1 - src

/-- A commit is refused, or its re-verification fails: MGMT_NDX_ERR with WHERE 0 (R726, R729). -/
def ndxCommitErr (reason rec : Nat) (s : State) : State :=
  setF F.MGMT_NDX_ERR_REASON reason s |> setF F.MGMT_NDX_ERR_RECORD rec |> setF F.MGMT_NDX_ERR_WHERE 0

/-- The same records, in whatever order (R84). -/
def sameRecords (a b : List (List Byte)) : Bool := a.length == b.length && a.all b.contains

/-- NDX_COMMIT's effect up to its commit point: checks, slot write and read-back (R82 steps 1 and 2), then the Gauge write of
step 3 is queued. `wrong` are bytes of the slot, by offset, that read back other than they were written. DESIGN CHOICE (log
entry 158): of several grounds the reserved bytes come first and CONFLICT comes before R88's BUSY; a second commit while one
runs is a CONFLICT. -/
def doNdxCommit (path : Nat) (inp : List Byte) (wrong : List (Nat × Byte)) (s : State) : State :=
  let s := ndxTouch path s
  let apply := byteAt inp 0
  let raise := byteAt inp 1
  let no := fun code => answer path 0xC002 code [] s
  if 1 < apply ∨ 1 < raise ∨ !zeroAt inp 2 2 then no rcInvalid
  else if ndxRefused s then no rcRefused
  else if ndxOther s path then no rcBusy
  else if fld s F.MGMT_NDX_STAT_STAGE ≠ 2 ∨ s.ndx.commit.isSome then no rcConflict
  else if fwWriting s || inGuard s || inFlush s then no rcBusy
  else
    match s.ndx.stagedCfg with
    | none => no rcConflict
    | some c =>
      if apply = 1 ∧ !(match s.cfg with | some k => sameRecords c.fixedRaw k.fixedRaw | none => false) then no rcConflict
      else match rangeInUse s c with
      | some r => answer path 0xC002 rcConflict [] (ndxCommitErr 0x11 (regionRec s.ndx.staged r) s)
      | none =>
        let slot := ndxTarget s
        let a := 0x0100000 + 0x10000 * slot
        let s := flashPut a s.ndx.staged (flashErase a 0x10000 s)
        let s := forEach wrong (fun w s => flashPut (a + w.1 % 0x10000) [w.2] s) s
        match ndxValidate s (slotImage s slot) with
        | .error (reason, rec) =>
          ndxCommitErr reason rec s |> sed 0x0A87 sWARNING 10 c.version 1 0 |> answer path 0xC002 rcInternal []
        | .ok _ =>
          let (_, rails, dig, _) := gNdxsel s
          let k : NdxCommit := ⟨path, apply, raise == 1, slot, c.version, 2, gCounter s (.dev 1), c, false⟩
          startCmd path 0xC002 true { s with ndx := { s.ndx with owner := none, commit := some k } }
            |> gPut G.ndxsel (.ndxsel slot rails dig (if raise = 1 then some c.version else none)) false (some path) (.ndx 4)

/-- NDX_COMMIT's output payload. -/
def ndxCommitOut (k : NdxCommit) : List Byte := le 1 k.slot ++ zeros 3 ++ le 4 k.version

/-- A committed image awaits the next reset (R82), or none does any more. -/
def ndxPend (on : Bool) (version : Nat) (s : State) : State :=
  setB F.MGMT_NDX_STAT_PENDING on s |> setF F.MGMT_NDX_PENDING_VER_VERSION (if on then version else 0)

/-- The end of a commit: every step durable (R82). One to apply live leaves no image waiting for a reset (R84). -/
def ndxFinish (k : NdxCommit) (s : State) : State :=
  let s := { s with ndx := { s.ndx with
    commit := none
    live := if k.apply = 1 then some (k.cfg, k.slot) else s.ndx.live } }
  let s := ndxPend (k.apply == 0) k.version s
  let s := sed 0x0A82 sNOTICE 10 k.version k.slot k.apply s
  endCmd k.path 0xC002 rcSuccess (ndxCommitOut k) s

/-- A commit stops after step 3 (R729): the image is committed and awaits the next reset; R72 and R728 do the rest at the next
start. DESIGN CHOICE (log entry 160): an image to apply live is then applied at the next start as well, and PENDING reads 1. -/
def ndxCut (k : NdxCommit) (s : State) : State :=
  let s := ndxPend true k.version { s with ndx := { s.ndx with commit := none } }
  endCmd k.path 0xC002 rcSuccess (ndxCommitOut k) (sed 0x0A87 sWARNING 10 k.version k.step 0 s)

/-- The next step of a commit after a durable Gauge write (R82 steps 3 to 5). -/
def ndxCont (step : Nat) (s : State) : State :=
  match s.ndx.commit with
  | some k =>
    if step = 4 then
      let k := { k with step := 3 }
      let s := commitCmd k.path { s with ndx := { s.ndx with commit := some k } }
      if k.cut then ndxCut k s else
      let (sel, _, _, req) := gNdxsel s
      gPut G.ndxsel (.ndxsel sel (k.cfg.railsRaw ++ zeros (96 - k.cfg.railsRaw.length)) k.cfg.digest req) false none (.ndx 5) s
    else if step = 5 && k.raise then
      let s := { s with ndx := { s.ndx with commit := some { k with step := 4 } } }
      gEnq (.raise (.dev 1) k.version) false none (.ndx 6) s
    else ndxFinish k (if step = 6 ∧ k.floor < k.version then sed 0x0A89 sNOTICE 10 k.floor k.version 0 s else s)
  | none => s

/-- A step of a commit ends WORN (R530): before the commit point the command fails; after it the image is committed. -/
def ndxWorn (s : State) : State :=
  match s.ndx.commit with
  | none => s
  | some k =>
    let s := { s with ndx := { s.ndx with commit := none } }
    endCmd k.path 0xC002 rcWorn [] (if k.step < 3 then s else ndxPend true k.version s)

/-- The Gauge is writing NDXSEL for step 3 of a commit. -/
def ndxWriting (s : State) : Bool :=
  match s.gauge.cur with | some w => (match w.req.cont with | .ndx 4 => true | _ => false) | none => false

/-- A flush stops a commit (R88, R729): before step 3 nothing is applied; after it the image is committed. A write of NDXSEL
that has started completes (R525), and the commit ends there. `step` of the commit is the last step completed. -/
def ndxStop (s : State) : State :=
  match s.ndx.commit with
  | none => s
  | some k =>
    let g := s.gauge
    let drop := fun (l : List GReq) => l.filter (fun r => match r.cont with | .ndx _ => false | _ => true)
    let t := { s with gauge := { g with normQ := drop g.normQ, waiting := drop g.waiting } }
    if 3 ≤ k.step then ndxCut k t
    else if ndxWriting s then { s with ndx := { s.ndx with commit := some { k with cut := true } } }
    else
      endCmd k.path 0xC002 rcBusy [] (sed 0x0A87 sWARNING 10 k.version k.step 0 { t with ndx := { t.ndx with commit := none } })

/-- NDX_COMMIT (R82). -/
def execNdxCommit (path : Nat) (input : List Byte) (wrong : List (Nat × Byte)) (s : State) : Host.Outcome State Fault Refusal :=
  run (cmd path 0xC002 input (input.length == 4) (doNdxCommit path input wrong)) s

/-! ### Adopting an image -/

/-- Show an image as the running one: MGMT_NDX_ACTIVE_VER, DIGEST, SKIPPED and SOURCE, and the registers that take
their value from it (R84, R93, R476, R626, R170). -/
def ndxShow (c : ImageCfg) (slot : Nat) (s : State) : State :=
  let s := setF F.MGMT_NDX_STAT_SOURCE slot s |> setF F.MGMT_NDX_ACTIVE_VER_VERSION c.version
    |> setF F.MGMT_NDX_SKIPPED_COUNT c.skipped.length
  let s := forEach (List.range 12) (fun n s => setF (F.MGMT_NDX_DIGEST_VALUE n) (at' c.digest (4 * n) 4) s) s
  { s with cfg := some c }

/-- The records that a live commit applies: ALARM, THERMAL, WATERMARK and OBSCAP together (R84). The slot that the device then
runs from is the one that the selector names. -/
def ndxLive (s : State) : State :=
  match s.ndx.live with
  | none => s
  | some (c, slot) =>
    let s := setF F.MGMT_NDX_STAT_FALLBACK 0 (ndxShow c slot { s with ndx := { s.ndx with live := none } })
    sed 0x0A83 sINFO 10 c.version (s.tick.count % 2 ^ 32) 0 s

end Sys2Proof.Machine
end

