-- ==== Sys2Proof/Machine/MtlCore.lean ====
section
/-! DEFINITION. The translation layer's shared operations (chapter 07): block sets and their pages (R274, R286 to R289),
the journal (R307 to R310), the map's entries (R272 to R282), and what a durable row and a failed set bring about. -/

namespace Sys2Proof.Machine

/-! ### Free blocks and sets (R212, R287, R289, R296) -/

def kLOG : Nat := 0
def kDEEPS : Nat := 1
def kJOURNAL : Nat := 2
def kCKPT : Nat := 3
def kNODE : Nat := 4

/-- Channels that count for the width of new sets: those not fenced or retired (R245). -/
def widthChans (s : State) : List Nat := (List.range 16).filter (fun c => chanOn s c && chanState s c != 4 && chanState s c != 6)

/-- Channels on which new sets of a die number have members (R245, R302): a retired member is excluded. -/
def memberChans (s : State) (die : Nat) : List Nat := (widthChans s).filter (fun c => dieState s (c * 8 + die) != 4)

/-- Members W of sets created now (R245). -/
def widthNow (s : State) : Nat := (widthChans s).length

/-- A set can be formed in a die number now: no member is without service for a time (log entry 175). -/
def laneReady (s : State) (die : Nat) : Bool := (memberChans s die).all (fun c => dieOnline s (c * 8 + die))

/-- Blocks of a plane of a die that sets use. -/
def usedBlocks (s : State) (ch die plane : Nat) : List Nat :=
  s.mtl.map.sets.flatMap (fun e =>
    if e.2.die = die ∧ e.2.plane = plane then e.2.members.filterMap (fun m => if m.1 = ch then some m.2 else none) else [])

/-- Retired blocks of a plane and those of the factory bad-block list (R212). -/
def badBlocks (s : State) (ch die plane : Nat) : List Nat :=
  let base := blockKey ch die plane 0
  (s.mtl.map.retired.filter (fun e => decide (base ≤ e.1) && decide (e.1 < base + 8192))).map (fun e => e.1 - base) ++
  (dieOf s (ch * 8 + die)).badList.filterMap (fun b => if b / 8192 = plane then some (b % 8192) else none)

def wearOf (s : State) (ch die plane b : Nat) : Nat := tget 0 s.mtl.map.wear (blockKey ch die plane b)

/-- The free good block of lowest wear from block b on; the first of those that are equal. -/
def lowFree (s : State) (ch die plane : Nat) (taken : List Nat) (fuel b : Nat) (best : Option (Nat × Nat)) : Option (Nat × Nat) :=
  match fuel with
  | 0 => best
  | n + 1 =>
    if taken.contains b then lowFree s ch die plane taken n (b + 1) best
    else
      let w := wearOf s ch die plane b
      if w = 0 then (match best with | some (0, _) => best | _ => some (0, b))
      else lowFree s ch die plane taken n (b + 1) (match best with | some (v, _) => if w < v then some (w, b) else best | none => some (w, b))

/-- Block to take for a new set on a channel. -/
def pickBlock (s : State) (die plane ch : Nat) : Option Nat :=
  (lowFree s ch die plane (usedBlocks s ch die plane ++ badBlocks s ch die plane) 5502 2 none).map (·.2)

/-- Free good blocks of a plane of a die. -/
def freeCount (s : State) (ch die plane : Nat) : Nat :=
  5502 - ((usedBlocks s ch die plane ++ badBlocks s ch die plane).eraseDups).length

/-- Free sets (R296): over the 32 lanes, the smallest number of free good blocks among the channels. -/
def freeSets (s : State) : Nat :=
  ((List.range 32).map (fun lane =>
    match memberChans s (lane % 8) with
    | [] => 0
    | c :: r => r.foldl (fun m c => min m (freeCount s c (lane % 8) (lane / 8))) (freeCount s c (lane % 8) (lane / 8)))).sum

/-- Good blocks of the device. -/
def goodBlocks (s : State) : Nat :=
  goodShip s - s.mtl.map.retired.length

/-- User capacity of LOG sets in service, MiB (R289): 256 data pages a member of 4 KiB. -/
def logMiB (s : State) : Nat := ((s.mtl.map.sets.filter (fun e => e.2.kind == kLOG)).map (fun e => e.2.members.length - 1)).sum

/-- Lowest number that no element of a list holds. -/
def firstFree (used : List Nat) : Nat := ((List.range (used.length + 1)).find? (fun k => !used.contains k)).getD 0

/-! ### The journal (R307, R308) -/

/-- Append a record. -/
def jAppend (b : JBody) (s : State) : State :=
  { s with mtl := { s.mtl with
      jopen := s.mtl.jopen ++ [⟨s.mtl.jseq, b⟩], jseq := s.mtl.jseq + 1
      jfirst := if s.mtl.jopen.isEmpty then s.tick.count else s.mtl.jfirst } }

/-- A record is durable (R309): it is in no open page and in no page whose row is not complete. -/
def jDurable (s : State) (n : Nat) : Bool :=
  decide (n < s.mtl.jseq) && !s.mtl.jopen.any (fun r => r.jseq == n) && !s.mtl.jpend.any (fun p => p.2.2.any (fun r => r.jseq == n))

/-- A set of a kind may be opened in a die number (R287): at most eight LOG and eight DEEPS sets are open, one of each a die
number, and one JOURNAL set. -/
def mayOpen (s : State) (kind die : Nat) : Bool :=
  let l := s.mtl.map.sets.filter (fun e => e.2.kind == kind && e.2.st == SetSt.opened)
  if kind = kLOG ∨ kind = kDEEPS then decide (l.length < 8) && !l.any (fun e => e.2.die == die)
  else if kind = kJOURNAL then l.isEmpty
  else true

/-- Open a set of a kind (R287): the lane rotates across opens (log entry 38), a block of lowest wear on each channel. -/
def openSet (kind : Nat) (s : State) : Option (State × Nat) :=
  if kind = kLOG ∧ s.mtl.size * 1024 ≤ logMiB s then none else
  let lane := ((List.range 32).find? (fun i =>
    laneReady s ((s.mtl.nextSet + i) % 8) && mayOpen s kind ((s.mtl.nextSet + i) % 8))).getD 0 + s.mtl.nextSet
  let die := lane % 8
  let plane := lane % 32 / 8
  let picks := (memberChans s die).map (fun c => (c, pickBlock s die plane c))
  let members := picks.filterMap (fun p => p.2.map (fun b => (p.1, b)))
  if members.length < 3 ∨ members.length ≠ picks.length ∨ !laneReady s die ∨ !mayOpen s kind die then none
  else
    let n := firstFree (s.mtl.map.sets.map (·.1))
    let sset := if kind = kLOG then firstFree ((s.mtl.map.sets.filter (fun e => e.2.kind == kLOG)).map (fun e => e.2.sset)) else 0
    let b : BlockSet :=
      { kind := kind, die := die, plane := plane, members := members, st := .opened, sset := sset, assigned := 0, programmed := []
        rows := [], dead := [], lastProg := epoch s, firstClose := none, toErase := [], eraseBad := [] }
    let s := { s with mtl := { s.mtl with nextSet := lane + 1, map := { s.mtl.map with sets := tput n b s.mtl.map.sets } } }
    let mask := members.foldl (fun m e => m + 2 ^ e.1) 0
    let s := jAppend (.setForm n die plane kind members.length mask) s
    let s := jAppend (.setMembers n 0 (members.take 8)) s
    let s := if 8 < members.length then jAppend (.setMembers n 8 (members.drop 8)) s else s
    some (s, n)

/-- A page buffer is free for a page that is neither EMPTY nor parity (R286). -/
def bufRoom (s : State) (n : Nat) : Bool := decide (s.mtl.wbuf.length + n ≤ 960)

/-- The open set of a kind with n unassigned data pages, opening one if there is none. -/
def setWithRoom (kind n : Nat) (s : State) : Option (State × Nat) :=
  match s.mtl.map.sets.find? (fun e => e.2.kind == kind && e.2.st == SetSt.opened && decide (e.2.assigned + n ≤ setPages e.2)) with
  | some e => some (s, e.1)
  | none => openSet kind s

/-- Hold a page in the write buffer. -/
def putWbuf (k : Nat) (p : PageBody) (s : State) : State := { s with mtl := { s.mtl with wbuf := tput k p s.mtl.wbuf } }

/-- Assign the next data page of a set to a page held in the write buffer. -/
def assignPage (n : Nat) (p : PageBody) (s : State) : State × Nat :=
  match setOf s n with
  | none => (s, 0)
  | some b => (putWbuf (wbKey n b.assigned) p (modSet n (fun b => { b with assigned := b.assigned + 1 }) s), b.assigned)

/-! ### Programs (R214, R225, R246) -/

/-- Rows of a word line of a set: one in Shallows mode, three in Deeps mode (R214). -/
def wlRows (b : BlockSet) (wl : Nat) : List Nat := if setDeeps b then [3 * wl, 3 * wl + 1, 3 * wl + 2] else [wl]

/-- Parity member of a row of set n (R244). -/
def parityOf (b : BlockSet) (n p : Nat) : Nat := (p + n) % b.members.length

/-- Data page of member m in row p, where m does not hold the row's parity (R274). -/
def dataPage (b : BlockSet) (n m p : Nat) : Nat :=
  p * (b.members.length - 1) + (if m < parityOf b n p then m else m - 1)

/-- Data pages of a row. -/
def rowPages (b : BlockSet) (p : Nat) : List Nat := (List.range (b.members.length - 1)).map (fun i => p * (b.members.length - 1) + i)

/-- A data page is assigned and its contents will not change. -/
def closedPage (s : State) (n : Nat) (b : BlockSet) (q : Nat) : Bool :=
  let open_ := fun (l : Option LogPage) => match l with | some x => x.set == n && x.page == q | none => false
  decide (q < b.assigned) && !open_ s.mtl.logPage && !open_ s.mtl.relocPage

/-- A data page has programmed: codes 2q for a data page and 2p + 1 for a row's parity, until the row is complete. -/
def programmedPage (b : BlockSet) (q : Nat) : Bool :=
  b.rows.contains (q / (b.members.length - 1)) || b.programmed.contains (2 * q)

/-- The word line that a member's block takes next (R214). -/
def nextWl (s : State) (b : BlockSet) (m : Nat) : Nat :=
  let (ch, blk) := lat (0, 0) b.members m
  match tfind s.media.blocks (blockKey ch b.die b.plane blk) with | some x => x.nextWl | none => 0

/-- Member m may program its next word line: its data pages are closed, and where it holds a row's parity, every data
page of the row has programmed, but for pages that share their word line with another row's parity (R246; log entry 39). -/
def canProgram (s : State) (n : Nat) (b : BlockSet) (m wl : Nat) : Bool :=
  let rows := wlRows b wl
  let parities := rows.map (parityOf b n)
  rows.all (fun p =>
    if parityOf b n p = m then
      (rowPages b p).all (fun q =>
        closedPage s n b q && (programmedPage b q || parities.contains (memberOf b n q).1))
    else closedPage s n b (dataPage b n m p))

/-- Queue every program of a set that has become possible, one word line of a block at a time. -/
def queueProgs (n : Nat) (s : State) : State :=
  match setOf s n with
  | none => s
  | some b =>
    if b.st ≠ .opened then s else
    forEach (List.range b.members.length) (fun m s =>
      let wl := nextWl s b m
      let k := (lat (0, 0) b.members m).1 * 8 + b.die
      let d := dieOf s k
      let busy := d.progq.any (fun x => x.set == n) ||
        (match d.op with | some (.prog x _) => x.set == n | _ => false) ||
        (match d.susp with | some (.prog x _) => x.set == n | _ => false)
      let parities := ((wlRows b wl).filter (fun p => parityOf b n p == m && !s.mtl.wbuf.any (fun e => e.1 == wbParity n p))).length
      if busy || decide (256 ≤ wl) || !canProgram s n b m wl || decide (1024 < s.mtl.wbuf.length + parities) then s
      else
        let s := forEach (wlRows b wl) (fun p s =>
          if parityOf b n p = m then putWbuf (wbParity n p) (.parity n p) s else s) s
        modDie k (fun d => { d with progq := d.progq ++ [⟨n, wl, setDeeps b, 8 * (wlRows b wl).length⟩] }) s) s

/-- Queue what has become possible in every open set. -/
def queueAll (s : State) : State :=
  forEach ((s.mtl.map.sets.filter (fun e => e.2.st == .opened)).map (·.1)) queueProgs s

/-- A data page of a set closes: the open row's first page starts its time (R285), and programs may follow. -/
def pageClosed (n : Nat) (s : State) : State :=
  queueProgs n (modSet n (fun b => { b with firstClose := some (b.firstClose.getD s.tick.count) }) s)

/-- Fill the open row of a set with EMPTY pages (R285); a set in Deeps mode up to the end of the word line, which holds
three rows (R214). Pages beyond the 960 draw from the reserve of 64, which completes one row at a time (R286). -/
def fillRow (n : Nat) (s : State) : State :=
  match setOf s n with
  | none => s
  | some b =>
    let w := (b.members.length - 1) * (if setDeeps b then 3 else 1)
    let need := if w = 0 then 0 else (w - b.assigned % w) % w
    if !bufRoom s need && decide (960 < s.mtl.wbuf.length) then s else
    let s := forEach (List.range need) (fun _ s =>
      let (s, _) := assignPage n (.filler s.mtl.pageSeq) s
      { s with mtl := { s.mtl with pageSeq := s.mtl.pageSeq + 1 } }) s
    queueProgs n (modSet n (fun b => { b with firstClose := none }) s)

/-- Close the open journal page (R307). -/
def jClose (s : State) : State :=
  if s.mtl.jopen.isEmpty || !bufRoom s 1 then s else
  match setWithRoom kJOURNAL 1 s with
  | none => s
  | some (s, n) =>
    let recs := s.mtl.jopen.take 127
    let (s, q) := assignPage n (.journal recs) s
    let s := { s with mtl := { s.mtl with
      jopen := s.mtl.jopen.drop 127, jfirst := s.tick.count, jpend := s.mtl.jpend ++ [(n, q, recs)] } }
    pageClosed n s

/-- Append records, closing the journal page when it holds 127. -/
def jPut (b : JBody) (s : State) : State :=
  let s := jAppend b s
  if 127 ≤ s.mtl.jopen.length then jClose s else s

/-! ### Map entries -/

def modMap (f : MapState → MapState) (s : State) : State := { s with mtl := { s.mtl with map := f s.mtl.map } }

/-- Put a bucket of the fine map; an empty one is not listed. -/
def putBucket (k : Nat) (l : List FineEnt) (s : State) : State :=
  modMap (fun m => { m with fine := if l.isEmpty then tdel k m.fine else tput k l m.fine }) s

def bucketOf (s : State) (l : Nat) : List FineEnt := tget [] s.mtl.map.fine (fineBucket s l)

def putReach (r : Nat) (e : Option ReachEnt) (s : State) : State :=
  modMap (fun m => { m with reachMap := match e with | some e => tput r e m.reachMap | none => tdel r m.reachMap }) s

def putMerge (k : Nat) (r : MergeRec) (s : State) : State := modMap (fun m => { m with merge := tput k r m.merge }) s

/-- Merge records (R270). -/
def mergeLimit (s : State) : Nat := if s.variant = 0 then 2 ^ 22 else 2 ^ 21

/-- The merge record of a reach. -/
def mergeOf (s : State) (reach : Nat) : Option (Nat × MergeRec) :=
  match tfind s.mtl.map.reachMap reach with
  | some (.merge k) => (tfind s.mtl.map.merge k).map (fun r => (k, r))
  | _ => none

/-- Remove a line's entry from its reach's merge record. -/
def dropMergeEnt (l : Nat) (s : State) : State :=
  match mergeOf s (reachOf l) with
  | some (k, r) => putMerge k { r with ents := r.ents.filter (fun e => e.off != l % 1024) } s
  | none => s

/-- Enter a line as HOT or POISON in a bucket with room. -/
def fineAdd (l wseq : Nat) (poison : Bool) (sset slot : Nat) (s : State) : State :=
  putBucket (fineBucket s l) (bucketOf s l ++ [⟨fineTag s l, poison, wseq, sset, slot⟩]) s

/-- Enter a line in a merge record, replacing its entry; MARK is written 0 (R294). -/
def mergeAdd (k : Nat) (r : MergeRec) (l wseq : Nat) (poison : Bool) (sset slot : Nat) (s : State) : State :=
  putMerge k { r with ents := r.ents.filter (fun e => e.off != l % 1024) ++ [⟨l % 1024, poison, false, wseq, sset, slot⟩] } s

/-- The merge record of a reach, created where the reach has none and a record is free (R280). -/
def mergeFor (l key : Nat) (s : State) : Option (State × Nat × MergeRec) :=
  match mergeOf s (reachOf l) with
  | some (k, r) => some (s, k, r)
  | none =>
    if mergeLimit s ≤ s.mtl.map.merge.length then none
    else
      let k := firstFree (s.mtl.map.merge.map (·.1))
      let old := match tfind s.mtl.map.reachMap (reachOf l) with | some (.deeps a b) => some (a, b) | _ => none
      let r : MergeRec := ⟨reachOf l, old, key, false, false, epoch s, []⟩
      some (putReach (reachOf l) (some (.merge k)) (putMerge k r s), k, r)

/-- Map a placed line (R280, R281): the answer's second part is none when it has to wait, otherwise whether it is HOT. -/
def mapPut (l key wseq : Nat) (poison : Bool) (sset slot : Nat) (s : State) : State × Option Bool :=
  let b := bucketOf s l
  let room := decide (b.length < 8)
  if b.any (fun e => e.tag == fineTag s l) then
    (putBucket (fineBucket s l) (b.map (fun e => if e.tag = fineTag s l then ⟨e.tag, poison, wseq, sset, slot⟩ else e)) s, some true)
  else if isInternal s l then (if room then (fineAdd l wseq poison sset slot s, some true) else (s, none))
  else if poison && room then (fineAdd l wseq true sset slot (dropMergeEnt l s), some true)
  else
    match mergeFor l key s with
    | none => if room then (fineAdd l wseq poison sset slot s, some true) else (s, none)
    | some (t, k, r) =>
      let has := r.ents.any (fun e => e.off == l % 1024)
      if poison then
        if has || decide (r.ents.length < 30) then (mergeAdd k r l wseq true sset slot t, some false)
        else (putMerge k { r with foldNow := true } t, none)
      else if has then
        if room then (fineAdd l wseq false sset slot (dropMergeEnt l t), some true)
        else (mergeAdd k r l wseq false sset slot t, some false)
      else if r.ents.length < 30 then (mergeAdd k r l wseq false sset slot t, some false)
      else
        let t := putMerge k { r with foldNow := true } t
        if room then (fineAdd l wseq false sset slot t, some true) else (t, none)

/-- The map entry of a line refers to a line slot of a Shallows set. -/
def refersTo (s : State) (l sset slot : Nat) : Bool :=
  match fineFind s l with
  | some e => !e.poison && e.sset == sset && e.slot == slot
  | none =>
    match mergeOf s (reachOf l) with
    | some (_, r) => r.ents.any (fun e => e.off == l % 1024 && !e.poison && e.sset == sset && e.slot == slot)
    | none => false

/-- Re-point a line's entry from one line slot to another, where it still refers to the first (R298). `cold`: a HOT line
moves into its merge record under the rules of R280 (R282). -/
def rePoint (l key o so n sn : Nat) (cold : Bool) (s : State) : State :=
  match fineFind s l with
  | some e =>
    if e.sset ≠ o ∨ e.slot ≠ so then s
    else
      let b := bucketOf s l
      let stay := putBucket (fineBucket s l) (b.map (fun x => if x.tag = e.tag then { x with sset := n, slot := sn } else x)) s
      if !cold || isInternal s l || e.poison then stay
      else
        let s' := putBucket (fineBucket s l) (b.filter (fun x => x.tag != e.tag)) s
        (match mergeFor l key s' with
         | some (t, k, r) => if r.ents.length < 30 then mergeAdd k r l e.wseq false n sn t else stay
         | none => stay)
  | none =>
    match mergeOf s (reachOf l) with
    | some (k, r) =>
      putMerge k { r with ents := r.ents.map (fun e =>
        if e.off = l % 1024 ∧ e.sset = o ∧ e.slot = so then { e with sset := n, slot := sn } else e) } s
    | none => s

/-! ### Log pages (R283 to R285) -/

def logBody (p : LogPage) : PageBody := .log p.slots p.man p.pageSeq p.wseqBase p.epoch p.reloc

/-- Close a log page. -/
def closeLog (reloc : Bool) (s : State) : State :=
  match (if reloc then s.mtl.relocPage else s.mtl.logPage) with
  | none => s
  | some p =>
    let s := { s with mtl := if reloc then { s.mtl with relocPage := none } else { s.mtl with logPage := none } }
    pageClosed p.set s

/-- The page that takes a line of a sequence: the open one, or a new one when it is full or cannot hold the sequence. -/
def logPageFor (reloc : Bool) (wseq : Nat) (s : State) : Option (State × LogPage) :=
  let cur := if reloc then s.mtl.relocPage else s.mtl.logPage
  let usable := match cur with
    | some p => decide (p.slots.length < 56) && (reloc || (decide (p.wseqBase ≤ wseq) && decide (wseq < p.wseqBase + 65536)))
    | none => false
  match cur, usable with
  | some p, true => some (s, p)
  | _, _ =>
    let s := closeLog reloc s
    if !bufRoom s 1 then none
    else match setWithRoom kLOG 1 s with
      | none => none
      | some (s, n) =>
        let p : LogPage :=
          { set := n, page := 0, slots := [], man := [], pageSeq := s.mtl.pageSeq, wseqBase := if reloc then 0 else wseq - 1024
            epoch := epoch s, firstTick := s.tick.count, reloc := reloc }
        let (s, q) := assignPage n (logBody p) s
        let p := { p with page := q }
        let s := { s with mtl := { s.mtl with pageSeq := s.mtl.pageSeq + 1 } }
        some ({ s with mtl := if reloc then { s.mtl with relocPage := some p } else { s.mtl with logPage := some p } }, p)

/-- Put a sealed line into a slot of a log page. -/
def addSlot (reloc : Bool) (p : LogPage) (x : Sealed) (e : ManEnt) (s : State) : State :=
  let p := { p with slots := p.slots ++ [x], man := p.man ++ [e], firstTick := if p.slots.isEmpty then s.tick.count else p.firstTick }
  let s := putWbuf (wbKey p.set p.page) (logBody p) s
  let s := { s with mtl := if reloc then { s.mtl with relocPage := some p } else { s.mtl with logPage := some p } }
  if 56 ≤ p.slots.length then closeLog reloc s else s

/-- Shallows set index of a set. -/
def ssetOf (s : State) (n : Nat) : Nat := match setOf s n with | some b => b.sset | none => 0

/-- Place one sealed write-back (R279, R280): true when it has been placed. -/
def placeOne (x : SealedWb) (s : State) : State × Bool :=
  match logPageFor false x.wseq s with
  | none => (s, false)
  | some (s, p) =>
    let newer := match s.mtl.unplaced.find? (fun u => u.wseq == x.wseq) with | some u => u.superseded | none => false
    let slot := 56 * p.page + p.slots.length
    let (s, r) := if newer then (s, some false) else mapPut x.line x.key x.wseq x.poison (ssetOf s p.set) slot s
    match r with
    | none => (s, false)
    | some hot =>
      let s := addSlot false p x.body ⟨x.line, x.wseq, hot, x.poison, newer, false⟩ s
      let s := { s with mtl := { s.mtl with
        sealedQ := s.mtl.sealedQ.filter (fun b => b.wseq != x.wseq)
        unplaced := (s.mtl.unplaced.filter (fun u => u.wseq != x.wseq)).map (fun u =>
          if u.line = x.line ∧ u.wseq < x.wseq then { u with superseded := true } else u) } }
      (s, true)

/-! ### Placing whole reaches (R291, R298) -/

/-- Place the 16 pages of a reach into the next reach slot of an open DEEPS set: the set and slot. -/
def placeReach (reach : Nat) (lines : List Sealed) (s : State) : Option (State × Nat × Nat) :=
  if !bufRoom s 16 then none else
  match setWithRoom kDEEPS 16 s with
  | none => none
  | some (s, n) =>
    let slot := match setOf s n with | some b => b.assigned / 16 | none => 0
    let s := forEach (List.range 16) (fun k s => (assignPage n (.reach reach k ((lines.drop (64 * k)).take 64)) s).1) s
    some (pageClosed n s, n, slot)

/-- The 1,024 sealed lines of a reach slot. -/
def reachLines (s : State) (set slot : Nat) : List Sealed :=
  (List.range 1024).map (fun o => (sealedAt s set (16 * slot + o / 64) (o % 64)).getD ⟨0, 0, 0, 0⟩)

/-- Every page of a reach slot is durable (R309). -/
def reachDurable (s : State) (set slot : Nat) : Bool :=
  match setOf s set with
  | some b => (List.range 16).all (fun k => b.rows.contains ((16 * slot + k) / (b.members.length - 1)))
  | none => false

/-- A data page of a set is durable. -/
def pageDurable (s : State) (set q : Nat) : Bool :=
  match setOf s set with | some b => b.rows.contains (q / (b.members.length - 1)) | none => false

/-! ### What becomes durable (R309, R310) -/

/-- Append the commit records of copies that have become durable (R310 item 1): folds, the Shoreline stride, Dredge moves. -/
def commitCopies (s : State) : State :=
  let s := forEach s.mtl.folds (fun f s =>
    match f.jseq, f.target with
    | none, some (n, k) =>
      if reachDurable s n k then
        let j := s.mtl.jseq
        let s := jPut (.foldCommit f.reach n k f.old f.foldSeq) s
        { s with mtl := { s.mtl with folds := s.mtl.folds.map (fun g => if g.reach = f.reach then { g with jseq := some j } else g) } }
      else s
    | _, _ => s) s
  let s := match s.icu.shore.jseq, s.icu.shore.target with
    | none, some (n, k) =>
      if reachDurable s n k then
        let j := s.mtl.jseq
        let old := match tfind s.mtl.map.reachMap (reachOf s.icu.shore.b) with
          | some (.deeps a b) => some (a, b)
          | some (.merge r) => (tfind s.mtl.map.merge r).bind (·.deeps)
          | none => none
        let s := jPut (.foldCommit (reachOf s.icu.shore.b) n k old s.icu.shore.foldSeq) s
        { s with icu := { s.icu with shore := { s.icu.shore with jseq := some j } } }
      else s
    | _, _ => s
  match s.mtl.dredge with
  | none => s
  | some d =>
    let (s, moves) := d.moves.foldl (fun (p : State × List (Nat × JBody)) m =>
      let s := p.1
      let ready := m.1 == 0 && (match m.2 with
        | .reachMove _ n k _ _ => reachDurable s n k
        | .relocCommit dst q _ => pageDurable s dst q
        | _ => false)
      if ready then (jPut m.2 s, p.2 ++ [(s.mtl.jseq + 1, m.2)]) else (s, p.2 ++ [m])) (s, [])
    { s with mtl := { s.mtl with dredge := some { d with moves := moves } } }

/-- A journal record has become durable: erases follow ERASE_INTENT, MAP_ROOT follows CKPT_END (R310, R312). -/
def recDurable (r : JRec) (s : State) : State :=
  match r.body with
  | .eraseIntent n =>
    (match setOf s n with
     | some b =>
       let s := modSet n (fun b => { b with st := .erasing, toErase := List.range b.members.length, eraseBad := [] }) s
       forEach b.members (fun m s =>
         modDie (m.1 * 8 + b.die) (fun d => { d with eraseq := d.eraseq ++ [(n, b.plane, m.2)] }) s) s
     | none => s)
  | .ckptEnd gen _ locator =>
    (match s.mtl.ckptRun with
     | some c => gPut G.mapRoot (.mapRoot ⟨gen, c.jseq, c.pageSeq, locator⟩) false none (.mapRoot gen) s
     | none => s)
  | _ => s

/-- Journal pages of a set whose row is complete become durable, in JSEQ order. -/
def journalRows (n : Nat) (s : State) : State :=
  let (done, rest) := s.mtl.jpend.partition (fun p => p.1 == n && pageDurable s n p.2.1)
  let recs := (done.map (fun p => p.2.2)).flatten
  let s := { s with mtl := { s.mtl with jpend := rest, jdone := s.mtl.jdone ++ recs } }
  forEach recs recDurable s

/-- A row is complete when its data pages and its parity have programmed (R246, R309): its pages leave the write
buffer, and the last row fills the set (R288). -/
def rowsComplete (n : Nat) (rows : List Nat) (s : State) : State :=
  let s := forEach rows (fun p s =>
    match setOf s n with
    | none => s
    | some b =>
      if (rowPages b p).all (fun q => b.programmed.contains (2 * q)) && b.programmed.contains (2 * p + 1) then
        let s := modSet n (fun b => { b with
          rows := b.rows ++ [p]
          programmed := b.programmed.filter (fun c =>
            if c % 2 = 0 then !(rowPages b p).contains (c / 2) else c != 2 * p + 1)
          firstClose := if b.assigned ≤ (p + 1) * (b.members.length - 1) then none else b.firstClose }) s
        let keys := (rowPages b p).map (wbKey n) ++ [wbParity n p]
        let s := { s with mtl := { s.mtl with wbuf := s.mtl.wbuf.filter (fun e => !keys.contains e.1) } }
        let total := if setDeeps b then 768 else 256
        if b.rows.length + 1 = total then modSet n (fun b => { b with st := .full }) s else s
      else s) s
  let s := match setOf s n with
    | some b => if b.kind = kJOURNAL then journalRows n s else s
    | none => s
  commitCopies s

/-! ### A set that fails (R249, R251, R288, R295, R299) -/

/-- Place the pages of a reach again in another set: its new home. -/
def moveReach (reach n k : Nat) (s : State) : Option (State × Nat × Nat) := placeReach reach (reachLines s n k) s

/-- Close a set with its complete rows, and place what its other rows hold again: log pages and their lines, journal
records, and the copies of folds and of Dredge. -/
def failSet (n : Nat) (s : State) : State :=
  match setOf s n with
  | none => s
  | some b =>
    if b.st ≠ .opened then s else
    let live := (List.range b.assigned).filter (fun q => !b.rows.contains (q / (b.members.length - 1)))
    let mine := fun (l : Option LogPage) => match l with | some p => if p.set = n then none else some p | none => none
    let s := { s with mtl := { s.mtl with logPage := mine s.mtl.logPage, relocPage := mine s.mtl.relocPage } }
    let s := modSet n (fun b => { b with st := .full, firstClose := none }) s
    -- programs of the set leave the dies' queues
    let s := forEach b.members (fun m s => modDie (m.1 * 8 + b.die) (fun d => { d with progq := d.progq.filter (fun x => x.set != n) }) s) s
    -- journal records are appended again in order
    let back := ((s.mtl.jpend.filter (fun p => p.1 == n)).map (fun p => p.2.2)).flatten
    let s := { s with mtl := { s.mtl with jpend := s.mtl.jpend.filter (fun p => p.1 != n), jopen := back ++ s.mtl.jopen } }
    -- copies in progress whose target lies here start again from their placing
    let s := forEach s.mtl.folds (fun f s =>
      match f.target with
      | some (t, k) =>
        if t = n ∧ f.jseq = none then
          (match moveReach f.reach t k s with
           | some (s, n', k') =>
             sed 0x0510 sWARNING 6 f.reach n n' { s with mtl := { s.mtl with
               folds := s.mtl.folds.map (fun g => if g.reach = f.reach then { g with target := some (n', k') } else g) } }
           | none => s)
        else s
      | none => s) s
    let s := match s.icu.shore.target with
      | some (t, k) =>
        if t = n ∧ s.icu.shore.jseq = none then
          (match moveReach (reachOf s.icu.shore.b) t k s with
           | some (s, n', k') => { s with icu := { s.icu with shore := { s.icu.shore with target := some (n', k') } } }
           | none => s)
        else s
      | none => s
    let s := match s.mtl.dredge with
      | none => s
      | some d =>
        let (s, moves) := d.moves.foldl (fun (p : State × List (Nat × JBody)) m =>
          match m with
          | (0, .reachMove r t k o so) =>
            if t = n then
              (match moveReach r t k p.1 with
               | some (s, n', k') => (s, p.2 ++ [(0, JBody.reachMove r n' k' o so)])
               | none => (p.1, p.2 ++ [m]))
            else (p.1, p.2 ++ [m])
          | _ => (p.1, p.2 ++ [m])) (s, [])
        { s with mtl := { s.mtl with dredge := some { d with moves := moves } } }
    -- log and node pages are placed again whole
    let s := forEach live (fun q s =>
      match tfind s.mtl.wbuf (wbKey n q) with
      | some (.log slots man ps wb ep reloc) =>
        (match setWithRoom kLOG 1 s with
         | some (s, t) =>
           let (s, q') := assignPage t (.log slots man ps wb ep reloc) s
           let s := forEach man.zipIdx (fun e s =>
             rePoint e.1.line 0 b.sset (56 * q + e.2) (ssetOf s t) (56 * q' + e.2) false s) s
           let s := match s.mtl.dredge with
             | some d => { s with mtl := { s.mtl with dredge := some { d with moves := d.moves.map (fun m =>
                 match m with
                 | (0, .relocCommit dst pg src) => if dst = n ∧ pg = q then (0, JBody.relocCommit t q' src) else m
                 | _ => m) } } }
             | none => s
           pageClosed t s
         | none => s)
      | some (.node sq gs) =>
        (match setWithRoom kNODE 1 s with
         | some (s, t) => let (s, _) := assignPage t (.node sq gs) s; pageClosed t s
         | none => s)
      | _ => s) s
    let keys := live.map (wbKey n) ++ (List.range 768).map (wbParity n)
    { s with mtl := { s.mtl with wbuf := s.mtl.wbuf.filter (fun e => !keys.contains e.1) } }

/-! ### Spare blocks (R301, R304) -/

/-- A quotient rounded up. -/
def ceilDiv (a b : Nat) : Nat := (a + b - 1) / b

/-- Headroom H (R304). -/
def headroom (s : State) : Int :=
  let w := widthNow s
  let cap := ceilDiv (ceilDiv (capacityUnits s * 256) 3 * w) (w - 1)
  let sh := ceilDiv (s.mtl.size * 1024 * w) (w - 1)
  (goodBlocks s : Int) - cap - sh - 8192

/-- Shrink the effective Shallows size, or enter READ_ONLY (R304); `fuel` bounds the steps of 4 GiB. -/
def spareEval (fuel : Nat) (s : State) : State :=
  match fuel with
  | 0 => s
  | n + 1 =>
    let h := headroom s
    let least := if s.variant = 0 then 32 else 16
    if h < 16384 ∧ least < s.mtl.size then
      let s := { s with mtl := { s.mtl with size := s.mtl.size - 4 } }
      spareEval n (jPut (.shallowsSize s.mtl.size) s |> sed 0x0530 sWARNING 6 s.mtl.size (h.toNat) 0)
    else if h < 4096 ∧ s.mtl.size ≤ least ∧ fld s F.MTL_STAT_STATE = 1 then
      setF F.MTL_STAT_STATE 2 s |> sed 0x0531 sCRITICAL 6 h.toNat (goodBlocks s) 0
    else s

/-- Retire a block (R301). `cause` 0 erase failure, 1 SUSPECT, 2 end of life. -/
def retireBlock (ch die plane blk cause : Nat) (s : State) : State :=
  let s := modMap (fun m => { m with retired := tput (blockKey ch die plane blk) cause m.retired }) s
  let s := jPut (.blockRetire ch die plane blk cause) (satInc F.MTL_ERR_RETIRED s)
  spareEval 64 (sed 0x0520 sWARNING 6 (ch * 8 + die) (plane * 8192 + blk) cause s)

/-! ### UNMAP (R308) -/

/-- Release the reaches of a range: journal UNMAP and set every reach UNWRITTEN, with the fine entries and merge records
of their lines. -/
def unmapReaches (first n : Nat) (s : State) : State :=
  let inR := fun r => decide (first ≤ r) && decide (r < first + n)
  let recs := s.mtl.map.reachMap.filterMap (fun e => match e.2 with | .merge k => if inR e.1 then some k else none | _ => none)
  let lineOf := fun (bucket tag : Nat) => (bucket ^^^ (tag * 2 ^ (fineBits s - 12))) + tag * 2 ^ fineBits s
  let s := modMap (fun m => { m with
    reachMap := m.reachMap.filter (fun e => !inR e.1)
    merge := m.merge.filter (fun e => !recs.contains e.1)
    fine := (m.fine.map (fun e => (e.1, e.2.filter (fun x => !inR (reachOf (lineOf e.1 x.tag)))))).filter (fun e => !e.2.isEmpty) }) s
  jPut (.unmap first n) s

end Sys2Proof.Machine
end

