-- ==== Sys2Proof/Machine/IcuNode.lean ====
section
/-! DEFINITION. Node groups on the media (R335, R336, R342), lost nodes and the quarantine list (R347 to R351). -/

namespace Sys2Proof.Machine

/-! ### Node groups -/

/-- A page locator: set and data page (R336). -/
def pageLoc (set q : Nat) : Nat := set * 2 ^ 14 + q

/-- The next page of an open node set other than `avoid`, one being formed where none has room; a page on channel `ch` is
passed over with an EMPTY one (R336). -/
def nodePage (avoid : Option Nat) (ch : Option Nat) (body : PageBody) (s : State) : Option (State × Nat × Nat × Nat) :=
  let pick := match s.mtl.map.sets.find? (fun e => e.2.kind == kNODE && e.2.st == SetSt.opened && some e.1 != avoid &&
      decide (e.2.assigned + 2 ≤ setPages e.2)) with
    | some e => some (s, e.1)
    | none => openSet kNODE s
  match pick with
  | none => none
  | some (s, n) =>
    let chOf := fun (s : State) => match setOf s n with
      | some b => (lat (0, 0) b.members (memberOf b n b.assigned).1).1
      | none => 0
    let s := if ch = some (chOf s) then (assignPage n (.filler s.mtl.pageSeq) s).1 else s
    let c := chOf s
    let (s, q) := assignPage n body s
    some (pageClosed n s, n, q, c)

/-- Nodes of the group whose upper node is of level `up` and index `i` (R335). -/
def groupNodes (up i : Nat) : List (Nat × Nat) := (up, i) :: (List.range 16).map (fun k => (up - 1, 16 * i + k))

/-- The group's nodes as they stand become their media images. -/
def groupImage (up i : Nat) (s : State) : State :=
  forEach (groupNodes up i) (fun n s =>
    let t := s.icu.mediaTree
    let t' := if n.1 = 0 then
        (match tfind s.icu.tree.leaves n.2 with | some l => { t with leaves := tput n.2 l t.leaves } | none => t)
      else
        (match tfind s.icu.tree.uppers (nodeKey n.1 n.2) with
         | some u => { t with uppers := tput (nodeKey n.1 n.2) u t.uppers }
         | none => t)
    { s with icu := { s.icu with mediaTree := t' } }) s

/-- Node pages between two locator checkpoints (R337). -/
def locatorEvery : Nat := 4194304

/-- Write a dirty group whole, as two node pages in two node sets (R336); it is dirty no more. Nothing is written while
no page buffer or node set is free. -/
def groupWrite (g : Nat) (s : State) : State :=
  if !bufRoom s 2 then s else
  let up := g / 2 ^ 40
  let i := g % 2 ^ 40
  let body := PageBody.node s.icu.nodeSeq [(up, i)]
  match nodePage none none body s with
  | none => s
  | some (s, na, qa, ca) =>
    match nodePage (some na) (some ca) body s with
    | none => s
    | some (s, nb, qb, _) =>
      let s := groupImage up i s
      let n := s.icu.nodeSeq + 1
      let s := { s with icu := { s.icu with
        nodeSeq := n
        groups := tput g ⟨n - 1, pageLoc na qa, pageLoc nb qb⟩ s.icu.groups
        dirtyGroups := s.icu.dirtyGroups.filter (fun x => x != g) } }
      if n % locatorEvery = 0 then
        match nodePage none none (.node n []) s with
        | some (s, nl, ql, _) => { s with icu := { s.icu with locSeq := n, locator := some (pageLoc nl ql) } }
        | none => s
      else s

/-- Dirty G1 groups (R342). -/
def dirtyG1 (s : State) : Nat := (s.icu.dirtyGroups.filter (fun g => g / 2 ^ 40 == 1)).length

/-- One of the list's nodes is written back (R341, R342): where its G1 group would be the 8,193rd dirty one, the group dirty
longest is written first; while that finds no room, the node waits for the next tick. -/
def nodeTurn (k : Nat) (s : State) : State :=
  let level := k / 2 ^ 40
  if 1 < level || dirtyG1 s < 8192 || s.icu.dirtyGroups.contains (groupOf level (k % 2 ^ 40)) then nodeWriteback k s else
  let s := match s.icu.dirtyGroups.find? (fun g => g / 2 ^ 40 == 1) with
    | some g => groupWrite g s
    | none => s
  if dirtyG1 s < 8192 then nodeWriteback k s else touchNode level (k % 2 ^ 40) s

/-- A boundary's node writebacks (R341, R342, R33 step 8). -/
def nodeWritebacks (s : State) : State :=
  let l := s.icu.writeback
  forEach l nodeTurn { s with icu := { s.icu with writeback := [] } }

/-! ### Quarantine (R349 to R351) -/

/-- The line range of a node. -/
def nodeFirst (level index : Nat) : Nat := index * 2 ^ (6 + 4 * level)

/-- Write the QUARANTINE records and load the registers. -/
def quarSave (s : State) : State :=
  let l := s.icu.quar.map (fun q => (q.level, q.index))
  gPut (G.quarantine 0) (.quarantine (l.take 32)) false none .quarantine s
    |> gPut (G.quarantine 1) (.quarantine (l.drop 32)) false none .quarantine

/-- Replace every entry by its L7 ancestor (R351). -/
def widen (l : List QuarEnt) : List QuarEnt :=
  (l.map (fun q => if q.level < 7 then ⟨7, q.index / 2 ^ (4 * (7 - q.level))⟩ else q)).eraseDups

/-- A node is lost: its subtree is quarantined (R349). `cause` 0 media, 1 Pond DRAM, 2 on-die, 3 locator. -/
def quarantine (level index cause : Nat) (s : State) : State :=
  if s.icu.quar.any (fun q => decide (level ≤ q.level) && q.index == index / 2 ^ (4 * (q.level - level))) then s else
  let old := s.icu.quar.length
  let full := decide (64 ≤ old)
  let e : QuarEnt := if full && decide (level < 7) then ⟨7, index / 2 ^ (4 * (7 - level))⟩ else ⟨level, index⟩
  let l := if full then (widen s.icu.quar ++ [e]).eraseDups else s.icu.quar ++ [e]
  let s := quarSave { s with icu := { s.icu with quar := l } }
  let s := if full then setF F.ICU_QUAR_STAT_WIDENED 1 s |> sed 0x0623 sALERT 3 old l.length 0 else s
  let (s, dirty, _) := purgeWhere (fun _ line => nodeCovers e.level e.index line) s
  satInc F.ICU_ERR_QUAR s |> sed 0x0621 sCRITICAL 3 (level * 2 ^ 28 + index % 2 ^ 28) dirty cause

/-- No line under a node is mapped. -/
def subtreeEmpty (s : State) (level index : Nat) : Bool :=
  let a := nodeFirst level index
  let b := nodeFirst level (index + 1)
  let lineIn := fun l => decide (a ≤ l) && decide (l < b)
  s.mtl.map.reachMap.all (fun e => !(decide (a < (e.1 + 1) * 1024) && decide (e.1 * 1024 < b))) &&
  s.mtl.map.fine.all (fun e => e.2.all (fun x =>
    !lineIn ((e.1 ^^^ (x.tag * 2 ^ (fineBits s - 12))) + x.tag * 2 ^ fineBits s)))

/-- A quarantine ends when every line under its node has been released by UNMAP (R350): the subtree starts again with
every counter zero, under its parent's counter advanced. -/
def quarEnds (s : State) : State :=
  forEach s.icu.quar (fun q s =>
    if 8 ≤ q.level || !subtreeEmpty s q.level q.index then s
    else
      let under := fun level i => decide (level ≤ q.level) && i / 2 ^ (4 * (q.level - level)) == q.index
      let p := upperOf s.icu.tree (q.level + 1) (q.index / 16)
      let c := tget 0 p.counters (q.index % 16) + 1
      let p' : Upper := { p with counters := tput (q.index % 16) c p.counters }
      let s := modTree (fun t =>
        { leaves := t.leaves.filter (fun e => !under 0 e.1)
          uppers := tput (nodeKey (q.level + 1) (q.index / 16)) p'
            (t.uppers.filter (fun e => !under (e.1 / 2 ^ 40) (e.1 % 2 ^ 40))) }) s
      let s := if q.level = 0 then
          let l : Leaf := { Leaf.init with mac := nodeMac s 0 q.index (leafBytes Leaf.init) c }
          modTree (fun t => { t with leaves := tput q.index l t.leaves }) s
        else
          let u : Upper := { Upper.init with mac := nodeMac s q.level q.index (upperBytes Upper.init) c }
          modTree (fun t => { t with uppers := tput (nodeKey q.level q.index) u t.uppers }) s
      let s := touchNode (q.level + 1) (q.index / 16) s
      -- the media groups under the node are those of the old subtree; its own group is written anew
      let g := groupOf q.level q.index
      let s : State := { s with icu := { s.icu with
        groups := s.icu.groups.filter (fun e => !under (e.1 / 2 ^ 40) (e.1 % 2 ^ 40))
        mediaTree := { leaves := s.icu.mediaTree.leaves.filter (fun e => !under 0 e.1)
                       uppers := s.icu.mediaTree.uppers.filter (fun e => !under (e.1 / 2 ^ 40) (e.1 % 2 ^ 40)) }
        dirtyGroups := s.icu.dirtyGroups.filter (fun e => !under (e / 2 ^ 40) (e % 2 ^ 40) && e != g) ++ [g] } }
      let s := { s with icu := { s.icu with quar := s.icu.quar.filter (fun x => x != q) } }
      sed 0x0622 sNOTICE 3 (q.level * 2 ^ 28 + q.index % 2 ^ 28) 0 0 (quarSave s)) s

/-! ### Copies that fail (R347) -/

/-- One media copy of a leaf's group failed its ladder and another has been read: the group is rewritten (R347). -/
def nodeCopyBad (leaf copy how : Nat) (s : State) : State :=
  let g := nodeKey 1 (leaf / 16)
  let ch := ((nodePsa s leaf copy).map psaDie).getD 0 / 8
  satInc F.ICU_ERR_NODE_COPY (groupWrite g s)
    |> sed 0x0620 sWARNING 3 (nodeIdent 0 leaf % 2 ^ 32) ch how |> faultStallFree 4 6

/-- Neither copy of a leaf's group rebuilds: the node is lost (R347, R349). -/
def nodeLost (leaf : Nat) (s : State) : State := quarantine 1 (leaf / 16) 0 s

end Sys2Proof.Machine
end

