-- ==== Sys2Proof/Machine/PageBytes.lean ====
section
/-! DEFINITION. The bytes of pages: sectors (R215, R216), log pages (R283), journal pages (R307, R308), node pages (R335)
and parity pages (R244). -/

namespace Sys2Proof.Machine

/-! ### Sectors (R215, R216) -/

/-- Add or remove the scrambling sequence of a sector (R216). -/
def scrambled (psa : Nat) (info : List Byte) : List Byte := xorBytes info (sub (Config.scramble psa) 0 576)

/-- A physical sector of 640 bytes from its information bytes: scrambled, then encoded (R215, R216). -/
def encodeSector (psa : Nat) (info : List Byte) : List Byte :=
  let x := scrambled psa info
  x ++ sub (Config.ldpcParity x) 0 64

/-- Information bytes of a raw sector that decodes (R216): those it holds where they and its parity are a codeword. -/
def decodeSector (psa : Nat) (raw : List Byte) : List Byte :=
  let x := sub raw 0 576
  scrambled psa (if sub raw 576 64 = sub (Config.ldpcParity x) 0 64 then x else sub (Config.ldpcDecode raw) 0 576)

/-- Information bytes of up to eight sealed lines and their metadata words (R215). -/
def sealedInfo (l : List Sealed) : List Byte :=
  sub ((l.map (fun x => lineBytes x.ct)).flatten ++ zeros (64 * (8 - l.length)) ++
    (l.map (fun x => le 1 x.cls ++ le 1 x.gen ++ le 6 x.mac.toNat)).flatten) 0 576

/-- Information bytes of a sector of a page that carries 4,096 bytes and zero line metadata. -/
def plainInfo (page : List Byte) (i : Nat) : List Byte := sub page (512 * i) 512 ++ zeros 64

/-! ### Log pages (R283) -/

/-- A manifest entry: VALID, HOT, POISON, SUPERSEDED and RELOC in bits 0 to 4. -/
def manEntry (e : ManEnt) : List Byte :=
  let f := fun (b : Bool) (n : Nat) => if b then 2 ^ n else 0
  le 1 (1 + f e.hot 1 + f e.poison 2 + f e.superseded 3 + f e.reloc 4) ++ le 2 e.wseq ++ le 5 e.line

/-- The manifest: KIND 1 LOG, 2 RELOC, 3 EMPTY. -/
def manifestBytes (man : List ManEnt) (pageSeq wseqBase epoch kind : Nat) : List Byte :=
  let b := sub ((man.map manEntry).flatten) 0 448 ++ le 8 pageSeq ++ le 8 wseqBase ++ le 4 epoch ++ le 1 man.length ++
    le 1 kind ++ zeros 102
  b ++ le 4 (crc32c b).toNat

/-! ### Journal pages (R307, R308) -/

/-- A Deeps locator (R272). -/
def locatorWord (l : Option (Nat × Nat)) : Nat :=
  match l with | some (set, slot) => 2 ^ 30 + set * 2 ^ 10 + slot | none => 0

/-- TYPE and payload of a record (R308); node sets are of kind CKPT (R336). -/
def jPayload (b : JBody) : Nat × List Byte :=
  match b with
  | .foldCommit r n k old fs => (1, le 4 r ++ le 4 (locatorWord (some (n, k))) ++ le 4 (locatorWord old) ++ le 8 fs)
  | .reachMove r n k o so => (2, le 4 r ++ le 4 (locatorWord (some (n, k))) ++ le 4 (locatorWord (some (o, so))) ++ zeros 8)
  | .relocCommit d q src => (3, le 4 d ++ le 2 q ++ zeros 2 ++ le 4 src ++ zeros 8)
  | .setForm n die plane kind w mask =>
    (4, le 4 n ++ le 1 (die + plane * 16) ++ le 1 (min kind 3) ++ le 1 w ++ zeros 1 ++ le 2 mask ++ zeros 10)
  | .setMembers n first l =>
    (5, le 4 n ++ le 1 first ++ le 13 (l.zipIdx.foldl (fun a e => a + e.1.2 * 2 ^ (13 * e.2)) 0) ++ zeros 2)
  | .pageDead n q cause => (6, le 4 n ++ le 2 q ++ le 1 cause ++ zeros 13)
  | .eraseIntent n => (7, le 4 n ++ zeros 16)
  | .eraseDone n mask => (8, le 4 n ++ le 2 mask ++ zeros 14)
  | .blockRetire c d p b cause => (9, le 1 c ++ le 1 d ++ le 1 p ++ zeros 1 ++ le 2 b ++ le 1 cause ++ zeros 13)
  | .ckptBegin gen ps ws => (10, le 4 gen ++ le 8 ps ++ le 8 ws)
  | .ckptEnd gen pages loc => (11, le 4 gen ++ le 4 pages ++ le 4 loc ++ zeros 8)
  | .unmap first n => (12, le 4 first ++ le 4 n ++ zeros 12)
  | .flushEnd ps ws => (13, le 8 ps ++ le 8 ws ++ zeros 4)
  | .shallowsSize gib => (14, le 2 gib ++ zeros 18)

/-- A record of 32 bytes. -/
def jRecord (r : JRec) : List Byte :=
  let p := jPayload r.body
  le 1 p.1 ++ zeros 3 ++ le 8 r.jseq ++ p.2

/-- A journal page of 4,096 bytes. -/
def jPage (l : List JRec) : List Byte :=
  let head := [0x4A, 0x4E, 0x4C, 0x31] ++ le 8 ((l.head?.map (·.jseq)).getD 0) ++ le 2 l.length ++ zeros 14
  let recs := sub ((l.map jRecord).flatten) 0 4064
  head ++ le 4 (crc32c (head ++ recs)).toNat ++ recs

/-! ### Node pages (R331, R335) -/

/-- The 128 bytes of a node of the media images (R331). -/
def nodeImage (s : State) (level i : Nat) : List Byte :=
  if level = 0 then
    match tfind s.icu.mediaTree.leaves i with | some l => leafBytes l ++ le 8 l.mac.toNat | none => zeros 128
  else
    match tfind s.icu.mediaTree.uppers (nodeKey level i) with | some u => upperBytes u ++ le 8 u.mac.toNat | none => zeros 128

/-- A sector of a node page: header and upper node, then four children a sector. The header's widths are not given (log
entry 5). -/
def nodeInfo (s : State) (seq up i k : Nat) : List Byte :=
  if k = 0 then
    sub ([0x4E, 0x50, 0x47, 0x31] ++ Config.bytes "node page header" seq) 0 64 ++ nodeImage s up i ++ zeros 384
  else if k ≤ 4 then ((List.range 4).map (fun c => nodeImage s (up - 1) (16 * i + 4 * (k - 1) + c))).flatten ++ zeros 64
  else zeros 576

/-! ### Pages -/

/-- The 576 information bytes of sector i of a page that holds no parity; a checkpoint page's are not laid out (log
entry 5). `psa` is the address of the page's first sector. -/
def dataInfo (s : State) (psa : Nat) (p : PageBody) (i : Nat) : List Byte :=
  match p with
  | .log slots man ps wb ep reloc =>
    if i < 7 then sealedInfo ((slots.drop (8 * i)).take 8) else manifestBytes man ps wb ep (if reloc then 2 else 1)
  | .reach _ _ lines => sealedInfo ((lines.drop (8 * i)).take 8)
  | .journal recs => plainInfo (jPage recs) i
  | .ckpt gen part => plainInfo (sub (Config.bytes "checkpoint page" (gen * 2 ^ 32 + part)) 0 4096) i
  | .node seq groups => (match groups.head? with | some (up, g) => nodeInfo s seq up g i | none => plainInfo (sub (Config.bytes "locator page" seq) 0 4096) i)
  | .filler ps => if i < 7 then zeros 576 else manifestBytes [] ps 0 0 3
  | .parity _ _ => zeros 576
  | .raw b => decodeSector (psa + i) (sub b (640 * i) 640)

/-- Information bytes of sector i of the page of member m in row p of a set (R274). -/
def memberInfo (s : State) (n : Nat) (b : BlockSet) (p m i : Nat) : List Byte :=
  let (ch, blk) := lat (0, 0) b.members m
  let a := psaOf ch b.die b.plane blk p 0
  let pm := (p + n) % b.members.length
  let q := p * (b.members.length - 1) + (if m < pm then m else m - 1)
  let body := match tfind s.mtl.wbuf (wbKey n q) with | some x => some x | none => tfind s.media.pages (a / 8)
  match body with | some x => dataInfo s a x i | none => zeros 576

/-- Information bytes of a parity page's sector: the XOR of the same sector of the data members (R244). -/
def parityInfo (s : State) (n : Nat) (b : BlockSet) (p i : Nat) : List Byte :=
  ((List.range b.members.length).filter (fun m => m != (p + n) % b.members.length)).foldl
    (fun a m => xorBytes a (memberInfo s n b p m i)) (zeros 576)

/-- The 576 information bytes of sector i of a page. -/
def sectorInfo (s : State) (psa : Nat) (p : PageBody) (i : Nat) : List Byte :=
  match p with
  | .parity n row => (match setOf s n with | some b => parityInfo s n b row i | none => zeros 576)
  | p => dataInfo s psa p i

/-- The raw bytes of sector i of a page as the cells hold them (R216, R264). -/
def sectorRaw (s : State) (psa : Nat) (p : PageBody) (i : Nat) : List Byte :=
  match p with
  | .raw b => sub b (640 * i) 640
  | p => encodeSector (psa + i) (sectorInfo s psa p i)

/-- A sector as the XOR of the same sector on every other member of its row (R247). -/
def rebuiltInfo (s : State) (psa : Nat) : List Byte :=
  match psaSet s psa with
  | none => zeros 576
  | some (n, b, m) =>
    let p := psaPage psa
    let i := psa % 8
    ((List.range b.members.length).filter (fun k => k != m)).foldl (fun a k =>
      xorBytes a (if k = (p + n) % b.members.length then parityInfo s n b p i else memberInfo s n b p k i)) (zeros 576)

end Sys2Proof.Machine
end

