-- ==== Sys2Proof/Machine/Media.lean ====
section
/-! DEFINITION. The channel engines (chapter 06): senses and the retry ladder (R217, R221 to R242), reconstruction (R247,
R248), bus slots (R227, R734), programs and erases (R225, R249 to R251), die and channel loss (R252 to R259) and the
direct-access interface (R263 to R265). -/

namespace Sys2Proof.Machine

/-! ### Read references (R237, R238) -/

/-- Age class of an age in epochs (R237). -/
def ageClass (e : Nat) : Nat := min 27 (Nat.log2 (e + 1))

/-- Key of LEARN for a die, mode and age class. -/
def learnKey (k : Nat) (deeps : Bool) (a : Nat) : Nat := (k * 2 + (if deeps then 1 else 0)) * 28 + a
def learnOf (s : State) (k : Nat) (deeps : Bool) (a : Nat) : Int := tget 0 s.media.learn (learnKey k deeps a)

/-- Move LEARN one step, within -32 to 32 (R238, R239, R242). -/
def learnMove (k : Nat) (deeps : Bool) (a : Nat) (d : Int) (s : State) : State :=
  let v := max (-32) (min 32 (learnOf s k deeps a + d))
  { s with media := { s.media with learn := tput (learnKey k deeps a) v s.media.learn } }

/-- A signed 8-bit value. -/
def signed8 (n : Nat) : Int := if n < 128 then n else (n : Int) - 256


/-- Calibration bytes BASE, SLOPE and TC of boundary j (0 the Shallows boundary, 1 to 7 the Deeps ones; R483). -/
def calEntry (s : State) (k j i : Nat) : Nat := leVal (flashBytes s (calRow + 0x100 + 32 * k + 3 * j + i) 1)

/-- Offset of boundary j for a die, mode and age class (R238). -/
def refOffset (s : State) (k : Nat) (deeps : Bool) (a j : Nat) : Int :=
  let v := signed8 (calEntry s k j 0) + ((calEntry s k j 1 : Int) * a) / 4 +
    (signed8 (calEntry s k j 2) * (stackTemp s (k / 8) - 40)) / 16 + learnOf s k deeps a
  min 127 (max (-128) v)

/-- Mode and segment age of a sector's page (R237). -/
def psaMode (s : State) (p : Nat) : Bool × Nat :=
  match tfind s.media.blocks (psaBlockKey p) with
  | some b =>
    let wl := if b.deeps then psaPage p / 3 else psaPage p
    (b.deeps, ageClass (epoch s - lat (epoch s) b.segs (wl / 64)))
  | none => (false, 0)

/-- Shift of a sense's attempt in steps (R241): `dir` is d, `fewer` that retry 1 ended with fewer unsatisfied checks. -/
def senseShift (s : State) (x : Sense) : Int :=
  let st : Int := fld s (F.MED_CH_RETRY_STEP (psaDie x.psa / 8))
  let d : Int := if x.dir then 1 else -1
  if x.step = 0 then 0 else if x.step = 1 then d * st else if x.fewer then 2 * d * st else -(d * st)

/-- Show the age class and LEARN of a die's last sense (R266). -/
def showRef (k a : Nat) (s : State) : State :=
  let u := fun (v : Int) => (v % 256).toNat
  setF (F.MED_CH_D_REF_AGE (k / 8) (k % 8)) a s
    |> setF (F.MED_CH_D_REF_LEARN_S (k / 8) (k % 8)) (u (learnOf s k false a))
    |> setF (F.MED_CH_D_REF_LEARN_D (k / 8) (k % 8)) (u (learnOf s k true a))

/-- A refresh hint for the segment of a sector (R217): 0 HIGH, 1 retry step 2, 2 reconstruction. -/
def refreshHint (psa why : Nat) (s : State) : State :=
  let deeps := (psaMode s psa).1
  let wl := (if deeps then psaPage psa / 3 else psaPage psa) / 64 * 64
  let first := (psa / 2 ^ 13) * 2 ^ 13 + (if deeps then 3 * wl else wl) * 8
  let s := if s.mtl.hints.contains first then s else { s with mtl := { s.mtl with hints := s.mtl.hints ++ [first] } }
  sed 0x0423 sDEBUG 5 (psaDie psa) (first % 2 ^ 32) why s

/-- A MEDIA frame of Sounding (R683): operation 0 sense, 1 program, 2 erase, 3 suspend, 4 resume; its duration is free. -/
def sndMedia (k op cls psa outcome : Nat) (s : State) : State :=
  let (t, s) := draw 32 s
  sndPush 3 5 (le 1 (k / 8) ++ le 1 (k % 8) ++ le 1 op ++ le 1 cls ++ le 5 psa ++ le 4 t.toNat ++ le 1 outcome ++ zeros 2) s

/-! ### Die operations in time (R31, R218, R225, R229 to R231) -/

/-- The engine starts operations: PD_CORE on, no halt (R262). -/
def engineRuns (s : State) (ch : Nat) : Bool := coreOn s && !inHalt s && chanOn s ch

/-- Times of R218 in core cycles: a sense, a program, an erase, a suspension and what a resume adds. -/
def senseCyc (deeps : Bool) : Nat := if deeps then 1350 else 900
def progCyc (deeps : Bool) : Nat := if deeps then 13500 else 3750
def eraseCyc : Nat := 750000
def suspCyc : Nat := 1200
def resumeCyc : Nat := 300

/-- Planned end of an operation, and an operation with its planned end moved later. -/
def DieOp.endAt (o : DieOp) : Nat := match o with | .prog _ e => e | .erase _ _ _ e => e | .held e => e
def DieOp.later (o : DieOp) (n : Nat) : DieOp :=
  match o with | .prog p e => .prog p (e + n) | .erase a b c e => .erase a b c (e + n) | .held e => .held e

/-- A die programs or erases. -/
def dieBusy (d : Die) : Bool := match d.op with | some (.prog _ _) => true | some (.erase _ _ _ _) => true | _ => false

/-- A die may be given a program or an erase: none is in progress, suspended or holding it (R31, R230). -/
def dieFree (s : State) (k : Nat) : Bool :=
  let d := dieOf s k
  d.susp.isNone && (match d.op with | none => true | some (.held e) => decide (e ≤ cycNow s (k / 8)) | _ => false)

/-- An operation has ended (R225): one that spans ticks holds its die until its planned end. -/
def opEnds (k e : Nat) (s : State) : State :=
  modDie k (fun y => { y with op := if cycNow s (k / 8) / 6000 < e / 6000 then some (.held e) else none }) s

/-- Suspend a die's operation (R229). -/
def dieSuspend (k : Nat) (s : State) : State :=
  modDie k (fun y => { y with op := none, susp := y.op, suspAt := cycNow s (k / 8) }) s

/-- Resume a die's operation at a cycle: its planned end moves by the suspended time and 0.2 µs (R225). -/
def dieUnsuspend (k now : Nat) (s : State) : State :=
  modDie k (fun y => { y with op := y.susp.map (fun o => o.later (now - y.suspAt + resumeCyc)), susp := none }) s

/-! ### Host senses (R221 to R230, R733) -/

/-- A sector outside the geometry, or of a system block: the engine refuses it (R211, R213): the reason of MED_REFUSED_OP. -/
def psaRefused (s : State) (p : Nat) : Option Nat :=
  let deeps := (psaMode s p).1
  if 5504 ≤ psaBlock p ∨ (if deeps then 768 else 256) ≤ psaPage p ∨ 2 ^ 35 ≤ p then some 2
  else if psaBlock p < 2 then some 3 else none

/-- The next sense due at a die: reconstruction entries before the HRQ, in the order in which the attempts became due
(R235, R254). -/
def senseDue (d : Die) : Option Sense :=
  match d.recon.find? (fun x => !x.busy) with
  | some x => some x
  | none => d.hrq.find? (fun x => !x.busy)

/-- Change the entry of a sense in the HRQ or the reconstruction entries. -/
def modSense (k : Nat) (x : Sense) (f : Sense → Sense) (s : State) : State :=
  let is := fun (y : Sense) => y == x
  modDie k (fun d => { d with hrq := lmod is f d.hrq, recon := lmod is f d.recon }) s

/-- An attempt begins (R241): the die senses at its offsets, and its data are in the page register after the time of R218. -/
def senseStart (k wait : Nat) (x : Sense) (s : State) : State :=
  let c := k / 8
  let (deeps, a) := psaMode s x.psa
  let offs := (if deeps then [1, 2, 3, 4, 5, 6, 7] else [0]).map (fun j => refOffset s k deeps a j + senseShift s x)
  let y := { x with busy := true }
  let s := modDie k (fun d => { d with page := some ⟨y, cycNow s c + wait + senseCyc deeps⟩ }) (modSense k x (fun _ => y) s)
  emit (.sense k x.psa offs) (showRef k a s)

/-- A sense that the engine refuses without a die operation (R211, R213): its ladder is at its end. -/
def senseRefused (k why : Nat) (x : Sense) (s : State) : State :=
  let is := fun (y : Sense) => y == x
  let s := sed 0x0433 sERROR 5 k (x.psa % 2 ^ 32) why s
  let s := modDie k (fun d => { d with hrq := ldel is d.hrq, recon := ldel is d.recon }) s
  match x.why with
  | .recon j _ => modRecon j (fun r => { r with failed := some (k / 8), wait := [] }) s
  | _ => reconStart x s

/-- Start the sense due at a die (R229, R231, R733). -/
def doHostSense (c d : Nat) (s : State) : State :=
  let k := c * 8 + d
  let x := dieOf s k
  let now := cycNow s c
  if !engineRuns s c || 8 ≤ d || !dieOnline s k || x.page.isSome then s else
  match senseDue x with
  | none => s
  | some h =>
    match psaRefused s h.psa with
    | some why => senseRefused k why h s
    | none =>
      let host := match h.why with | .recon _ _ => false | _ => true
      let go := fun (wait : Nat) (s : State) =>
        senseStart k wait h (if host && h.step == 0 then satInc (F.MED_CH_CNT_READ_COUNT c) s |> count 0x20 c 1 else s)
      match x.op with
      | some o =>
        if !dieBusy x then go 0 s
        else if now < x.window || x.susp.isSome || o.endAt ≤ now + suspCyc then s
        else go suspCyc (dieSuspend k (satInc (F.MED_CH_CNT_SUSP_COUNT c) s |> count 0x27 c 1 |> sndMedia k 3 0 h.psa 0))
      | none => go 0 s

/-- HOST_SENSE_START (R229, R733). -/
def execHostSenseStart (chan die : Nat) (s : State) : Host.Outcome State Fault Refusal :=
  run (doHostSense chan die) s

/-- ADMISSION_ENTER (R222). -/
def execAdmissionEnter (chan die : Nat) (s : State) : Host.Outcome State Fault Refusal :=
  run (fun s =>
    let d := dieOf s (chan * 8 + die)
    if chanOn s chan && decide (die < 8) then moveUp (d.adm.length + d.held.length + 1) (chan * 8 + die) s else s) s

/-- DIE_RESUME (R230): no host or reconstruction sense is pending, and the page register is free. In a power-fail flush an
erase is not resumed (R261). -/
def doDieResume (c d : Nat) (s : State) : State :=
  let k := c * 8 + d
  let x := dieOf s k
  let isErase := match x.susp with | some (.erase _ _ _ _) => true | _ => false
  if !chanOn s c || 8 ≤ d || x.susp.isNone || dieBusy x || x.page.isSome || (senseDue x).isSome || (isErase && inFlush s) then s
  else dieUnsuspend k (cycNow s c) s |> sndMedia k 4 1 0 0

def execDieResume (chan die : Nat) (s : State) : Host.Outcome State Fault Refusal := run (doDieResume chan die) s

/-! ### Delivering a sector -/

/-- A leaf has come from the media: the fills that wait for it open (R343). -/
def nodeCame (leaf : Nat) (s : State) : State :=
  match tfind s.icu.nodeReads leaf with
  | none => s
  | some r =>
    let s := { s with icu := { s.icu with nodeReads := tput leaf { r with came := true } s.icu.nodeReads } }
    let s := forEach r.wait (fun w s => openFillWith w.got w.line w.path w.auth s) s
    { s with icu := { s.icu with nodeReads := tdel leaf s.icu.nodeReads } }

/-- A copy of a leaf's group decodes: the group is rewritten where a copy failed before (R347). -/
def nodeGot (leaf copy how : Nat) (s : State) : State :=
  match tfind s.icu.nodeReads leaf with
  | none => s
  | some r =>
    let s := { s with icu := { s.icu with nodeReads := tput leaf { r with copy := copy } s.icu.nodeReads } }
    nodeCame leaf (match r.failed.head? with | some c => nodeCopyBad leaf c how s | none => s)

/-- A copy of a leaf's group fails its ladder (R347): the other copy is read at once; when it fails too, both are rebuilt. -/
def nodeFails (leaf copy : Nat) (s : State) : State :=
  match tfind s.icu.nodeReads leaf with
  | none => s
  | some r =>
    let put := fun (r : NodeRead) (s : State) => { s with icu := { s.icu with nodeReads := tput leaf r s.icu.nodeReads } }
    if r.failed.isEmpty then
      match nodePsa s leaf (1 - copy) with
      | some p => enqHost (nodeSense s leaf (1 - copy) p) (put { r with failed := [copy], copy := 1 - copy } s)
      | none => s
    else
      forEach [0, 1] (fun c s => match nodePsa s leaf c with | some p => reconStart (nodeSense s leaf c p) s | none => s)
        (put { r with failed := r.failed ++ [copy] } s)

/-- A copy of a leaf's group cannot be rebuilt either; when neither can, the node is lost (R347, R349). -/
def nodeDead (leaf copy : Nat) (s : State) : State :=
  match tfind s.icu.nodeReads leaf with
  | none => s
  | some r =>
    let l := if r.lost.contains copy then r.lost else r.lost ++ [copy]
    let s := { s with icu := { s.icu with nodeReads := tput leaf { r with lost := l } s.icu.nodeReads } }
    if 2 ≤ l.length then nodeCame leaf (nodeLost leaf s) else s

/-- Give a decoded sector to what asked for it: a line opens once its leaf is there (R328, R343). -/
def deliver (got : Option (Nat × List Byte)) (x : Sense) (path auth : Nat) (s : State) : State :=
  match x.why with
  | .line l => openOrWait got l path auth s
  | .node leaf c => nodeGot leaf c (if got.isSome then 1 else 0) s
  | .recon j m => reconFill (modRecon j (fun r => { r with busy := r.busy.filter (fun y => y != m) }) s)
  | .background _ => s

/-- The sense leaves its die, and waiting ones move up. -/
def senseLeaves (k : Nat) (x : Sense) (s : State) : State :=
  let is := fun (y : Sense) => y == x
  let d := dieOf s k
  moveUp (d.adm.length + d.held.length + 1) k (modDie k (fun d => { d with hrq := ldel is d.hrq, recon := ldel is d.recon }) s)

/-- Note the path of the host reads that wait for a line (R677): a retry or a reconstruction. -/
def pathOf (x : Sense) (path : Nat) (s : State) : State :=
  match x.why with
  | .line l =>
    { s with obs := { s.obs with flying := s.obs.flying.map (fun f => if f.line / 64 = l / 64 ∧ (f.path = 5 ∨ f.path = 6) then
        { f with path := path, media := f.media % 256 + x.step * 256 + (if x.admitted then 2048 else 0) } else f) } }
  | _ => s

/-- A die or channel of the die number is being recovered: held senses are being rebuilt (R254). -/
def recovering (s : State) (k : Nat) : Bool :=
  s.media.recons.any (fun e => e.2.die % 8 == k % 8 && dieState s e.2.die != 0)

/-- The longest measured read of a channel (R236). -/
def latMax (c lat : Nat) (s : State) : State :=
  if fld s (F.MED_CH_LAT_MAX c) < lat then setF (F.MED_CH_LAT_MAX c) (min lat 65535) s else s

/-- A host miss's data sense was measured (R236): `lat` in 10 ns units; a read without reconstruction that exceeds 3 ticks
is counted, but for peers of a die or channel in recovery (R254). -/
def latNote (k lat : Nat) (x : Sense) (s : State) : State :=
  match x.why with
  | .line _ =>
    let s := latMax (k / 8) lat s
    if 1200 < lat && !recovering s k then satInc (F.MED_CH_LAT_OVER (k / 8)) s |> sed 0x0460 sERROR 5 k lat (x.psa % 2 ^ 32) else s
  | _ => s

/-- What the engine makes of a decoder's report (R217). -/
inductive Decoded where
  | clean | corrected | high | erased | fail
deriving DecidableEq, Repr

/-- The outcome of a sector: `high` is the threshold MED_CHc_RETRY.HIGH (R217). -/
def decodeOf (high : Nat) (r : SenseRes) : Decoded :=
  match r with
  | .codeword ones bits iters _ =>
    if 5018 ≤ ones then .erased else if high ≤ bits ∨ 12 < iters then .high else if bits = 0 then .clean else .corrected
  | .noCodeword ones _ => if 5018 ≤ ones then .erased else .fail

/-- A sector decodes (R217, R241, R242): `lat` is the read's measured time in 10 ns units (R236). -/
def senseGood (k : Nat) (x : Sense) (out : Decoded) (auth lat : Nat) (s : State) : State :=
  let c := k / 8
  let (deeps, a) := psaMode s x.psa
  let sh := senseShift s x
  let s := if x.step = 0 then s else
    let s := (if x.step = 1 then satInc (F.MED_CH_CNT_RETRY1_COUNT c) s |> count 0x22 c 1
      else satInc (F.MED_CH_CNT_RETRY2_COUNT c) s |> count 0x23 c 1)
    let s := learnMove k deeps a (if 0 < sh then 1 else -1) s
    pathOf x 7 (setF (F.MED_CH_D_REF_LAST_SHIFT c (k % 8)) ((sh % 256).toNat) (showRef k a s)
      |> sed 0x0420 sDEBUG 5 k (x.psa % 2 ^ 32) x.step)
  let s := if out = .corrected then { s with media := { s.media with corrected := s.media.corrected + 1 } } else s
  let s := if out = .high then refreshHint x.psa 0 s else s
  let s := if x.step = 2 then refreshHint x.psa 1 s else s
  let s := latNote k lat x s
  let s := sndMedia k 0 0 x.psa ((if out = .high then 2 else if out = .corrected then 1 else 0) * 16 + x.step) s
  deliver none x 0 auth (senseLeaves k x s)

/-- A sense's ladder is at its end: a member of a row fails the rebuilding, a copy of a node group gives way to the other,
any other sector is reconstructed (R241, R247, R248, R347). -/
def ladderEnds (k lat : Nat) (x : Sense) (s : State) : State :=
  let s := senseLeaves k x s
  match x.why with
  | .recon j m =>
    reconFill (modRecon j (fun r => { r with failed := some (k / 8), wait := [], busy := r.busy.filter (fun y => y != m) }) s)
  | .node leaf copy => nodeFails leaf copy s
  | .line _ => reconStart { x with busy := false } (latMax (k / 8) lat s)
  | .background _ => reconStart { x with busy := false } s

/-- A sector that decodes FAIL takes the next retry (R241): d is -1 when fewer than 2,496 of the raw bits are 1, and retry 2
goes on in that direction when retry 1 ended with fewer unsatisfied checks. A page that reads erased takes no retry (log
entry 43). -/
def senseFail (k ones checks lat : Nat) (x : Sense) (erased : Bool) (s : State) : State :=
  if erased || 2 ≤ x.step then ladderEnds k lat x s
  else
    let y := { x with busy := false }
    let y := if x.step = 0 then { y with step := 1, dir := decide (2496 ≤ ones), checks := checks }
      else { y with step := 2, fewer := decide (checks < x.checks) }
    let is := fun (z : Sense) => z == x
    match x.why with
    | .recon _ _ => modDie k (fun d => { d with recon := ldel is d.recon ++ [y] }) s
    | .background cls => modDie k (fun d => { d with bgq := y :: d.bgq, plan := d.plan ++ [.sense cls] }) s
    | _ => modDie k (fun d => { d with hrq := ldel is d.hrq ++ [y] }) s

/-- A host sense's decode with an injection of point 0x20 (R435): MODE 1 fails attempt 0 alone, MODE 2 all three. The ones
and the checks of a failure that is injected are free values. -/
def senseInj (k : Nat) (x : Sense) (res : SenseRes) (s : State) : State × SenseRes :=
  let host := match x.why with | .line _ => true | _ => false
  let mine := fun (e : Nat × Nat × Nat × Nat) => e.1 == 0x20 && e.2.1 == k && e.2.2.1 == x.psa
  let bad := fun (s : State) =>
    let (v, s) := draw 24 s
    (s, SenseRes.noCodeword (v.toNat % 4096) (v.toNat / 4096))
  if !host then (s, res)
  else if x.step = 0 then
    if injArmed s 0x20 k then
      let mode := fld s F.MEMP_INJ_CTL_MODE
      let s := injFire agRequest (x.psa % 2 ^ 32) s
      bad (if mode = 2 then { s with memp := { s.memp with planted := (0x20, k, x.psa, 2) :: s.memp.planted } } else s)
    else (s, res)
  else if s.memp.planted.any mine then
    bad (if x.step = 1 then s else { s with memp := { s.memp with planted := s.memp.planted.filter (fun e => !mine e) } })
  else (s, res)

/-- A decoder takes the oldest of a die's sectors among the four that the channel's decoders hold (R217). -/
def decodeTake (c d : Nat) (s : State) : Option (Sense × State) :=
  let l := (chanOf s c).decoding
  (l.take 4).find? (fun e => e.1 == d) |>.map (fun e =>
    (e.2, modChan c (fun x => { x with decoding := ldel (fun y => y == e) x.decoding }) s))

/-- SENSE_DONE's effect. -/
def doSenseDone (c d : Nat) (res : SenseRes) (lat : Nat) (s : State) : State :=
  let k := c * 8 + d
  match decodeTake c d s with
  | none => s
  | some (x, s) =>
    let (s, res) := senseInj k x res s
    let out := decodeOf (fld s (F.MED_CH_RETRY_HIGH c)) res
    match res, out with
    | .codeword ones _ _ _, .erased => senseFail k ones 0 lat x true s
    | .codeword _ _ _ a, o => senseGood k x o a lat s
    | .noCodeword ones checks, o => senseFail k ones checks lat x (o == .erased) s

/-- SENSE_DONE (R217, R236, R241, R328). -/
def execSenseDone (chan die : Nat) (res : SenseRes) (lat : Nat) (s : State) : Host.Outcome State Fault Refusal :=
  run (fun s => if inHalt s then ((decodeTake chan die s).map (·.2)).getD s else doSenseDone chan die res lat s) s

/-! ### Reconstruction (R247, R248) -/

/-- The oldest sector of a die whose rebuilding has ended: a member failed, or every member has been read. -/
def reconDone (s : State) (k : Nat) : Option (Nat × Recon) :=
  s.media.recons.find? (fun e => e.2.die == k && (e.2.failed.isSome || (e.2.wait.isEmpty && e.2.busy.isEmpty)))

/-- A rebuilding ends (R247, R248, R41): `auth` is how the rebuilt sector's line authenticates, `lat` the read's measured
time in 10 ns units. -/
def doRecon (c d auth lat : Nat) (s : State) : State :=
  let k := c * 8 + d
  match reconDone s k with
  | none => s
  | some (j, r) =>
    let x := r.sense
    let ticks := s.tick.count - r.start
    let s := { s with media := { s.media with recons := tdel j s.media.recons } }
    match r.failed with
    | some ch =>
      let s := sed 0x0422 sCRITICAL 5 k (x.psa % 2 ^ 32) ch s
      (match x.why with
       | .line l => fillResult l .poisoned (pathOf x 8 (mediaEvent l (poisonAdd l 1 s)))
       | .node leaf copy => nodeDead leaf copy s
       | _ => s)
    | none =>
      let s := satInc (F.MED_CH_CNT_RECON_COUNT c) s |> count 0x24 c 1 |> sed 0x0421 sWARNING 5 k (x.psa % 2 ^ 32) ticks
      let s := faultStall 1 ticks 10 (refreshHint x.psa 2 s)
      let s := if x.step = 2 then (match x.why with | .line _ => latMax c lat s | _ => s) else s
      deliver (some (x.psa, rebuiltInfo s x.psa)) x 4 auth (pathOf x 8 s)

/-- MED_RECON (R247, R248). -/
def execMedRecon (chan die auth lat : Nat) (s : State) : Host.Outcome State Fault Refusal :=
  run (fun s => if engineRuns s chan && decide (die < 8) then doRecon chan die auth lat s else s) s

/-! ### Bus slots (R227, R734) -/

/-- A word line of a set holds a page of the slot that the Shoreline stride builds (R361 step 7). -/
def shoreProg (s : State) (b : BlockSet) (x : Prog) : Bool :=
  match s.icu.shore.target with
  | some (n, slot) => n == x.set && (wlRows b x.wl).any (fun p =>
      decide (p * (b.members.length - 1) < 16 * (slot + 1)) && decide (16 * slot < (p + 1) * (b.members.length - 1)))
  | none => false

/-- Class of a program's data-in (R34): 1 writeback, 2 Overturn, 3 Dredge, 6 Shoreline (R361 step 7). A word line that holds
pages of several works goes by the first that applies, Dredge, then Shoreline (log entry 195). -/
def progClass (s : State) (x : Prog) : Nat :=
  match setOf s x.set with
  | some b =>
    let dredge := match s.mtl.dredge with
      | some d => d.moves.any (fun m => match m.2 with
        | .reachMove _ n _ _ _ => n == x.set
        | .relocCommit n q _ => n == x.set && (wlRows b x.wl).contains (q / (b.members.length - 1))
        | _ => false)
      | none => false
    if dredge then 3 else if shoreProg s b x then 6 else if b.kind = kDEEPS then 2 else 1
  | none => 1

/-- The class of a sense's sector on the bus: none for those that count as host-read sectors (R228). -/
def senseClass (x : Sense) : Option Nat := match x.why with | .background cls => some cls | _ => none

/-- The first program of a die waits for data-in: it is in the tick's plan, or a power-fail flush runs (R225, R261). -/
def dataInWaits (s : State) (d : Die) : Bool :=
  match d.progq with
  | x :: _ => decide (0 < x.sectors) && (inFlush s || d.plan.contains .prog)
  | [] => false

/-- Dies of a channel that have a sector ready for a class but host reads (R734): a background sense whose data are there,
or data-in of a program. -/
def slotWants (s : State) (c : Nat) : List (Nat × Nat) :=
  (List.range 8).flatMap (fun d =>
    let k := c * 8 + d
    let x := dieOf s k
    (match x.page with
     | some p => (match senseClass p.sense with
        | some cls => if p.ready ≤ cycNow s c then [(k, cls)] else []
        | none => [])
     | none => []) ++
    (match x.progq with
     | p :: _ => if dataInWaits s x then [(k, progClass s p)] else []
     | [] => []))

/-- The oldest waiting host-read sector of a channel: the die in whose page register it has been longest (R227). -/
def slotHost (s : State) (c : Nat) : Option Nat :=
  ((List.range 8).foldl (fun (best : Option (Nat × Nat)) d =>
    let k := c * 8 + d
    match (dieOf s k).page with
    | some p =>
      if (senseClass p.sense).isSome || decide (cycNow s c < p.ready) then best
      else (match best with | some b => if p.ready < b.2 then some (k, p.ready) else best | none => some (k, p.ready))
    | none => best) none).map (·.1)

/-- The class that takes a slot: in a minimum slot the largest positive minimum credit; elsewhere the earliest class with
a positive entitlement credit, and failing that the earliest (R734). -/
def slotClass (s : State) (c : Nat) (minimum : Bool) : Option Nat :=
  let ready := (List.range 8).filter (fun k => (slotWants s c).any (fun w => w.2 == k))
  let ch := chanOf s c
  if minimum then
    ready.foldl (fun best k =>
      let v := lat 0 ch.minCred k
      if v ≤ 0 then best else match best with | some b => if lat 0 ch.minCred b < v then some k else best | none => some k) none
  else
    match ready.find? (fun k => decide (0 < lat 0 ch.entCred k)) with
    | some k => some k
    | none => ready.head?

/-- A sector of the page register crosses the bus; with the last one the register is free, and a decoder takes the sector
(R217, R228). -/
def pageOut (k : Nat) (s : State) : State :=
  match (dieOf s k).page with
  | none => s
  | some p =>
    if 1 < p.sense.xfer then
      modDie k (fun d => { d with page := some { p with sense := { p.sense with xfer := p.sense.xfer - 1 } } }) s
        |> modSense k p.sense (fun x => { x with xfer := x.xfer - 1 })
    else
      modChan (k / 8) (fun x => { x with decoding := x.decoding ++ [(k % 8, p.sense)] })
        (modDie k (fun d => { d with page := none }) s)

/-- A background sense that heads its class in the die's plan starts: the die is idle, its page register free and no host or
reconstruction sense is due (R224, R229, R230, R261). -/
def bgStart (k : Nat) (s : State) : State :=
  let d := dieOf s k
  if !engineRuns s (k / 8) || inFlush s || !dieOnline s k || d.page.isSome || dieBusy d || d.susp.isSome || (senseDue d).isSome then s
  else
    match d.plan.findSome? (fun p => match p with | .sense cls => some cls | _ => none) with
    | none => s
    | some cls =>
      match (d.bgq.take 16).find? (fun x => x.why == .background cls) with
      | none => modDie k (fun d => { d with plan := d.plan.erase (.sense cls) }) s
      | some x =>
        let t : Int := 64 * senseCyc (psaMode s x.psa).1
        let s := modDie k (fun d => { d with
          bgq := ldel (fun y => y == x) d.bgq, plan := d.plan.erase (.sense cls)
          credit := d.credit.set cls (lat 0 d.credit cls - t) }) s
        match psaRefused s x.psa with
        | some why => sed 0x0433 sERROR 5 k (x.psa % 2 ^ 32) why s
        | none => senseStart k 0 x (count 0x21 (k / 8) 1 s)

/-- One bus slot of the tick's 30 (R227): a minimum slot goes to the class of the largest unmet minimum; any other slot, or a
minimum slot that no class claims, to the oldest host-read sector and then to the classes (R734). In a power-fail flush the
flush's programs take every slot (R261). -/
def doBusSlot (c : Nat) (s : State) : State :=
  let ch := chanOf s c
  if !chanOn s c || 30 ≤ ch.slot then s else
  let minimum := ch.slot % 5 == 0
  let cls := if inFlush s then ((slotWants s c).find? (fun w => dataInWaits s (dieOf s w.1))).map (·.2)
    else match (if minimum then slotClass s c true else none) with
      | some k => some k
      | none => if (slotHost s c).isSome then none else slotClass s c false
  let s := match cls with
    | none => (match slotHost s c with | some k => pageOut k s | none => s)
    | some cl =>
      match (slotWants s c).find? (fun w => w.2 == cl) with
      | none => s
      | some w =>
        let s := modChan c (fun x => { x with
          minCred := x.minCred.set cl (lat 0 x.minCred cl - 64), entCred := x.entCred.set cl (lat 0 x.entCred cl - 64) }) s
        let d := dieOf s w.1
        let bg := match d.page with
          | some p => senseClass p.sense == some cl && decide (p.ready ≤ cycNow s c)
          | none => false
        if bg && !inFlush s then pageOut w.1 s
        else modDie w.1 (fun d => { d with progq := match d.progq with
          | x :: r => { x with sectors := x.sectors - 1 } :: r
          | [] => [] }) s
  let s := modChan c (fun x => { x with slot := x.slot + 1 }) s
  forEach (List.range 8) (fun d s => bgStart (c * 8 + d) s) s

/-- BUS_SLOT (R227, R734). -/
def execBusSlot (chan : Nat) (s : State) : Host.Outcome State Fault Refusal := run (doBusSlot chan) s

/-- A tick's accrual of bus credits, in 64ths of a slot (R734). -/
def accrueCredits (s : State) : State :=
  forEach ((List.range 16).filter (chanOn s)) (fun c s =>
    modChan c (fun x => { x with
      slot := 0
      minCred := (List.range 8).map (fun k => let g : Int := 30 * lat 0 minShares k; min (lat 0 x.minCred k + g) (g + 128))
      entCred := (List.range 8).map (fun k => let g : Int := 30 * effShare s k; min (lat 0 x.entCred k + g) (g + 128)) }) s) s

/-! ### Programs and erases (R225, R249 to R251, R260) -/

/-- Programs and erases are held on a channel: its stack is outside the programming window (R260). -/
def windowHeld (s : State) (c : Nat) : Bool := !(fld s F.THM_WINDOW_MPROG).testBit c

/-- A die is inside a throttle pause (R260, R622): by the highest level of the controller, its own stack and the DRAM. -/
def paused (s : State) (k : Nat) : Bool :=
  let l := max s.therm.levelC (max (tget 0 s.therm.levelM (k / 8)) s.therm.levelD)
  let n := if l = 0 then 0 else if l = 1 then 1 else if l = 2 then 4 else 16
  match (dieOf s k).lastStart with
  | some t => decide (s.tick.count < t + n)
  | none => false

/-- Member of a set on a channel. -/
def memberOn (b : BlockSet) (c : Nat) : Nat := b.members.findIdx (fun x => x.1 == c)

/-- A block is marked SUSPECT: 0 after a failure, 1 at a rejoin. -/
def suspect (key why : Nat) (s : State) : State :=
  let c := key / 2 ^ 18
  let d := key / 2 ^ 15 % 8
  satInc (F.MED_CH_D_ERR_SUSPECT c d) { s with media := { s.media with suspect := tput key why s.media.suspect } }

/-- First sector of a member's word line. -/
def wlPsa (b : BlockSet) (c wl : Nat) : Nat :=
  psaOf c b.die b.plane (lat (0, 0) b.members (memberOn b c)).2 (if setDeeps b then 3 * wl else wl) 0

/-- Why the engine refuses a program without a die operation (R211, R214): 0 ORDER, 1 MODE, 2 BADADDR, 3 a system block. -/
def progRefused (s : State) (c : Nat) (p : Prog) : Option Nat :=
  match setOf s p.set with
  | none => none
  | some b =>
    let blk := (lat (0, 0) b.members (b.members.findIdx (fun x => x.1 == c))).2
    if 5504 ≤ blk ∨ 256 ≤ p.wl then some 2 else if blk < 2 then some 3 else
    match tfind s.media.blocks (blockKey c b.die b.plane blk) with
    | none => if p.wl ≠ 0 then some 0 else none
    | some x => if x.deeps ≠ p.deeps then some 1 else if p.wl ≠ x.nextWl then some 0 else none

/-- A program or an erase may start: no halt, the die ONLINE and free, its stack's window open and no pause (R230, R260). -/
def mayStart (s : State) (k : Nat) : Bool :=
  engineRuns s (k / 8) && dieOnline s k && dieFree s k && !windowHeld s (k / 8) && !paused s k

/-- Work that a die's plan may take, by class of R34 (R224): its background senses in order, its first program and its first
erase, with the array time of each. -/
def planWork (s : State) (k cls : Nat) : List (Planned × Nat) :=
  let d := dieOf s k
  ((d.bgq.take 16).filter (fun x => x.why == .background cls)).map (fun x => (Planned.sense cls, senseCyc (psaMode s x.psa).1)) ++
  (match d.progq with
   | p :: _ => if mayStart s k && progClass s p == cls then [(Planned.prog, progCyc p.deeps)] else []
   | [] => []) ++
  (if mayStart s k && cls == 3 && !d.eraseq.isEmpty && !inFlush s then [(Planned.erase, eraseCyc)] else [])

/-- Take work into a plan: senses that fit into the tick (R29), and one program or erase, which may span ticks (R31). -/
def planFit (l : List (Planned × Nat)) (used : Nat) (op : Bool) : List Planned :=
  match l with
  | [] => []
  | (.sense cls, t) :: r => if used + t ≤ 6000 then .sense cls :: planFit r (used + t) op else planFit r used op
  | (p, t) :: r => if op then planFit r used op else p :: planFit r (used + t) true

/-- Release a die's plan for the tick (R224): each class accrues array time in proportion to its share and keeps at most a
tick's; classes with time left come first, in the order of R34, then the others (R37). A program whose data-in has not all
arrived moves to the next plan (R225). -/
def planDie (k : Nat) (s : State) : State :=
  let d := dieOf s k
  let credit := (List.range 8).map (fun c => min (lat 0 d.credit c + 6000 * (effShare s c : Int)) (6000 * 64))
  let s := modDie k (fun d => { d with
    credit := credit, op := match d.op with | some (.held e) => if e ≤ cycNow s (k / 8) then none else d.op | o => o }) s
  let carried := match d.progq with
    | p :: _ => if d.plan.contains .prog && mayStart s k then [(Planned.prog, progCyc p.deeps)] else []
    | [] => []
  let order := ((List.range 8).filter (fun c => decide (0 < lat 0 credit c))) ++
    ((List.range 8).filter (fun c => decide (lat 0 credit c ≤ 0)))
  let l := planFit (carried ++ order.flatMap (planWork s k)) 0 false
  bgStart k (modDie k (fun d => { d with plan := l }) s)

/-- The first program of a die starts, or is refused (R214, R225). -/
def progBegin (k : Nat) (p : Prog) (rest : List Prog) (s : State) : State :=
  let c := k / 8
  match progRefused s c p with
  | some why =>
    let psa := match setOf s p.set with
      | some b => wlPsa b c p.wl
      | none => 0
    failSet p.set (sed 0x0433 sERROR 5 k (psa % 2 ^ 32) why (modDie k (fun y => { y with progq := rest }) s))
  | none =>
    let cls := progClass s p
    modDie k (fun y => { y with
      progq := rest, op := some (.prog p (cycNow s c + progCyc p.deeps)), lastStart := some s.tick.count
      plan := y.plan.erase .prog, credit := y.credit.set cls (lat 0 y.credit cls - 64 * (progCyc p.deeps : Int)) }) s

/-- The first erase of a die starts; in a power-fail flush none does (R261). -/
def eraseBegin (k : Nat) (s : State) : State :=
  match (dieOf s k).eraseq with
  | (n, pl, b) :: rest =>
    if inFlush s then s
    else modDie k (fun y => { y with
      eraseq := rest, op := some (.erase n pl b (cycNow s (k / 8) + eraseCyc)), lastStart := some s.tick.count
      plan := y.plan.erase .erase, credit := y.credit.set 3 (lat 0 y.credit 3 - 64 * (eraseCyc : Int)) }) s
  | [] => s

/-- Start the operation that the die's plan names: its first program, once its data-in has arrived, or its first erase. -/
def doProgramStart (c d : Nat) (s : State) : State :=
  let k := c * 8 + d
  let x := dieOf s k
  if !engineRuns s c || 8 ≤ d || !dieOnline s k || !dieFree s k || paused s k then s else
  if windowHeld s c then
    sed 0x0440 sNOTICE 5 c ((stackTemp s c) % 2 ^ 32).toNat (x.progq.length + x.eraseq.length) s
  else
    let may := fun (p : Planned) => x.plan.contains p
    match x.progq, x.eraseq with
    | p :: rest, _ =>
      if may .prog || inFlush s then (if 0 < p.sectors then s else progBegin k p rest s)
      else if may .erase then eraseBegin k s else s
    | [], _ => if may .erase then eraseBegin k s else s

/-- A program verified: its pages are on the media, the block's mode and next word line follow (R214), rows may complete. -/
def progOk (c : Nat) (p : Prog) (b : BlockSet) (s : State) : State :=
  let m := memberOn b c
  let rows := wlRows b p.wl
  let blk := (lat (0, 0) b.members m).2
  let bk := blockKey c b.die b.plane blk
  let s := forEach rows (fun r s =>
    let code := if parityOf b p.set r = m then 2 * r + 1 else 2 * dataPage b p.set m r
    let body := match tfind s.mtl.wbuf (p.set * 2 ^ 21 + code) with | some x => x | none => .parity p.set r
    let s := { s with media := { s.media with pages := tput (psaOf c b.die b.plane blk r 0 / 8) body s.media.pages } }
    modSet p.set (fun b => { b with programmed := b.programmed ++ [code], lastProg := epoch s }) s) s
  let old := (tfind s.media.blocks bk).getD ⟨p.deeps, 0, []⟩
  let segs := if p.wl % 64 = 0 then old.segs ++ [epoch s] else old.segs
  let s := { s with media := { s.media with blocks := tput bk ⟨p.deeps, p.wl + 1, segs⟩ s.media.blocks } }
  let s := if b.kind = kJOURNAL then count 0x32 0 1 s else s
  queueAll (queueProgs p.set (rowsComplete p.set rows s))

/-- A program failed (R249, R250, R288, R301): the block is SUSPECT, log pages are dead, the set closes. -/
def progBad (c : Nat) (p : Prog) (b : BlockSet) (notErased : Bool) (s : State) : State :=
  let k := c * 8 + b.die
  let m := memberOn b c
  let psa := wlPsa b c p.wl
  let s := suspect (psaBlockKey psa) 0 s
  let s := if notErased then satInc (F.MED_CH_ERR_NOT_ERASED c) s |> sed 0x0432 sERROR 5 k (psa % 2 ^ 32) 0
    else satInc (F.MED_CH_ERR_PROG_FAIL c) s |> sed 0x0430 sERROR 5 k (psa % 2 ^ 32) (if p.deeps then 1 else 0)
  let qs := ((wlRows b p.wl).filter (fun r => parityOf b p.set r != m)).map (dataPage b p.set m)
  let s := forEach qs (fun q s =>
    let s := if notErased then sed 0x0521 sERROR 6 k p.set q s else s
    let s := modSet p.set (fun b => { b with dead := b.dead ++ [q] }) s
    if b.kind = kLOG then
      jPut (.pageDead p.set q (if notErased then 1 else 0)) s |> sed 0x0512 sERROR 6 p.set q (if notErased then 1 else 0)
    else s) s
  failSet p.set s

/-- PROGRAM_DONE's effect; `res` 0 verified, 1 PROG_FAIL, 2 PROG_NOT_ERASED. -/
def doProgramDone (c d res : Nat) (s : State) : State :=
  let k := c * 8 + d
  match (dieOf s k).op with
  | some (.prog p e) =>
    let s := opEnds k e s
    let s := satInc (F.MED_CH_CNT_PROG_COUNT c) s |> count 0x25 c 1
    (match setOf s p.set with
     | none => s
     | some b =>
       let s := sndMedia k 1 (progClass s p) (wlPsa b c p.wl) 0 s
       if b.st ≠ .opened then s
       else if res = 0 then progOk c p b s else progBad c p b (res == 2) s)
  | _ => s

/-- PROGRAM_DONE (R214, R246, R249, R250, R288, R295). -/
def execProgramDone (chan die res : Nat) (s : State) : Host.Outcome State Fault Refusal := run (doProgramDone chan die res) s

/-- Contents of a block leave the media with its erase. -/
def dropBlock (key : Nat) (s : State) : State :=
  { s with media := { s.media with
      blocks := tdel key s.media.blocks
      pages := s.media.pages.filter (fun e => e.1 / 1024 != key) } }

/-- Every member of a set is erased or failed (R288, R301): ERASE_DONE, retirements, and the set is free. -/
def setErased (n : Nat) (b : BlockSet) (s : State) : State :=
  let mask := b.eraseBad.foldl (fun a m => a + 2 ^ m) 0
  let s := jPut (.eraseDone n mask) s
  let s := modMap (fun m => { m with sets := tdel n m.sets }) s
  let s := satInc F.MTL_CNT_DREDGE_COUNT s |> count 0x31 0 1
  forEach b.members.zipIdx (fun e s =>
    let key := blockKey e.1.1 b.die b.plane e.1.2
    if b.eraseBad.contains e.2 then retireBlock e.1.1 b.die b.plane e.1.2 0 s
    else if tfind s.media.suspect key = some 0 then
      retireBlock e.1.1 b.die b.plane e.1.2 1 { s with media := { s.media with suspect := tdel key s.media.suspect } }
    else
      let s := { s with media := { s.media with suspect := tdel key s.media.suspect } }
      let cost := if setDeeps b then 10 else 1
      if 300000 ≤ tget 0 s.mtl.map.wear key + cost then retireBlock e.1.1 b.die b.plane e.1.2 2 s else s) s

/-- ERASE_DONE's effect; `blank`: every page of a block marked SUSPECT at a rejoin reads back ERASED (R301). -/
def doEraseDone (c d : Nat) (ok blank : Bool) (s : State) : State :=
  let k := c * 8 + d
  match (dieOf s k).op with
  | some (.erase n plane blk e) =>
    let s := opEnds k e s
    let s := satInc (F.MED_CH_CNT_ERASE_COUNT c) s |> count 0x26 c 1
    let key := blockKey c d plane blk
    let psa := psaOf c d plane blk 0 0
    let s := sndMedia k 2 3 psa 0 s
    (match setOf s n with
     | none => s
     | some b =>
       let m := memberOn b c
       let cost := if setDeeps b then 10 else 1
       let s := modMap (fun x => { x with wear := tmod 0 key (· + cost) x.wear }) s
       let s := if setDeeps b then { s with mtl := { s.mtl with lifeD := s.mtl.lifeD + 1 } }
         else { s with mtl := { s.mtl with lifeS := s.mtl.lifeS + 1 } }
       let s := if tfind s.media.suspect key = some 1 ∧ !blank then { s with media := { s.media with suspect := tput key 0 s.media.suspect } } else s
       let s := if ok then dropBlock key s
         else satInc (F.MED_CH_ERR_ERASE_FAIL c) (suspect key 0 s) |> sed 0x0431 sERROR 5 k (psa % 2 ^ 32) 0
       let s := modSet n (fun b => { b with
         toErase := b.toErase.filter (fun x => x != m), eraseBad := if ok then b.eraseBad else b.eraseBad ++ [m] }) s
       match setOf s n with
       | some b => if b.toErase.isEmpty then setErased n b s else s
       | none => s)
  | _ => s

/-- ERASE_DONE (R249, R288, R301, R304). -/
def execEraseDone (chan die : Nat) (ok blank : Bool) (s : State) : Host.Outcome State Fault Refusal :=
  run (doEraseDone chan die ok blank) s

/-! ### Drift sampling (R239) -/

/-- Modes and age classes that hold programmed segments of a die, in order, with a sector of each. -/
def sampleClasses (s : State) (k : Nat) : List ((Bool × Nat) × Nat) :=
  let l := (s.media.blocks.filter (fun e => e.1 / 2 ^ 15 == k)).flatMap (fun e =>
    e.2.segs.zipIdx.map (fun g =>
      let page := 64 * g.2 * (if e.2.deeps then 3 else 1)
      ((e.2.deeps, ageClass (epoch s - g.1)), e.1 * 2 ^ 13 + page * 8)))
  ([false, true].flatMap (fun m => (List.range 28).map (fun a => (m, a)))).filterMap (fun c => l.find? (fun x => x.1 == c))

/-- The class sampled next: the one after the last sampled, in rotation. -/
def sampleNext (s : State) (k : Nat) : Option ((Bool × Nat) × Nat) :=
  let l := sampleClasses s k
  match (dieOf s k).sampled with
  | none => l.head?
  | some c =>
    let after := fun (x : (Bool × Nat) × Nat) => decide ((if c.1 then 28 else 0) + c.2 < (if x.1.1 then 28 else 0) + x.1.2)
    match l.find? after with | some x => some x | none => l.head?

/-- A sample page's corrected bits at off - 1, off and off + 1, 64 ticks after the die's last sample: its three senses take
the refresh share, and LEARN moves toward the offset that corrected the fewest bits. -/
def doDriftSample (c d lo mid hi : Nat) (s : State) : State :=
  let k := c * 8 + d
  let early := match (dieOf s k).lastSample with | some t => decide (s.tick.count < t + 64) | none => false
  if !engineRuns s c || 8 ≤ d || !dieOnline s k || early then s else
  match sampleNext s k with
  | none => s
  | some ((deeps, a), psa) =>
    let s := modDie k (fun y => { y with lastSample := some s.tick.count, sampled := some (deeps, a) }) s
    let s := forEach (List.range 3) (fun _ s => bgSense (some psa) 4 1 s) s
    let step : Int := if lo < mid ∧ lo < hi then -1 else if hi < mid ∧ hi < lo then 1 else 0
    showRef k a (if step = 0 then s else learnMove k deeps a step s)

/-- DRIFT_SAMPLE (R239). -/
def execDriftSample (chan die lo mid hi : Nat) (s : State) : Host.Outcome State Fault Refusal :=
  run (doDriftSample chan die lo mid hi) s

/-! ### Die and channel loss (R251 to R259) -/

/-- The expected incarnation numbers of a parameter record with one changed (R256): PARAM13 to PARAM15. -/
def incRecord (s : State) (k v : Nat) : Nat × GPayload :=
  let n := 13 + k / 48
  let old := gParam s n
  let o := 4 * (k % 48)
  (G.param n, .param (old.take o ++ le 4 v ++ old.drop (o + 4)))

def expectedInc (s : State) (k : Nat) : Nat := fld s (F.MED_CH_D_INC_VALUE (k / 8) (k % 8))

/-- Raise a die's expected incarnation and write it to Gauge; the die stays FENCED until the write completes. -/
def raiseInc (k : Nat) (s : State) : State :=
  let v := (expectedInc s k + 1) % 2 ^ 32
  let s := setF (F.MED_CH_D_INC_VALUE (k / 8) (k % 8)) v s
  let (a, p) := incRecord s k v
  gPut a p false none (.dieInc (k / 8) (k % 8)) (modDie k (fun d => { d with incWait := true, attempts := 0, missed := 0 }) s)

/-- A sense held for a die that is fenced (R252): its sector is reconstructed, at its retry step; a member of a row fails the
rebuilding, a copy of a node group gives way to the other (R248, R347). -/
def senseToRecon (x : Sense) (s : State) : State :=
  match x.why with
  | .recon j _ => modRecon j (fun r => { r with failed := some (psaDie x.psa / 8), wait := [] }) s
  | .node leaf copy => nodeFails leaf copy s
  | _ => reconStart { x with busy := false } s

/-- What a fenced die leaves behind (R251, R252): its operations are lost, its erases cancelled until it rejoins, the open
sets with a member on it close, its senses become reconstructions. -/
def fenceDie (k : Nat) (s : State) : State :=
  let d := dieOf s k
  let lost := fun (o : Option DieOp) (s : State) => match o with
    | some (.prog p _) =>
      (match setOf s p.set with
       | some b => sed 0x0434 sWARNING 5 k (wlPsa b (k / 8) p.wl % 2 ^ 32) 0 s
       | none => s)
    | some (.erase n pl blk _) =>
      let s := suspect (blockKey (k / 8) (k % 8) pl blk) 0 s
      modDie k (fun y => { y with eraseq := (n, pl, blk) :: y.eraseq }) s |> sed 0x0434 sWARNING 5 k (psaOf (k / 8) (k % 8) pl blk 0 0 % 2 ^ 32) 1
    | _ => s
  let s := lost d.susp (lost d.op s)
  let s := modChan (k / 8) (fun x => { x with decoding := x.decoding.filter (fun e => e.1 != k % 8) }) s
  let s := modDie k (fun y => { y with
    op := none, susp := none, page := none, plan := [], progq := [], bgq := [], hrq := [], adm := [], held := [], recon := [] }) s
  let s := satInc (F.MED_CH_ERR_FENCES (k / 8)) (setDieState k 1 s)
  let s := forEach (d.hrq ++ d.adm ++ d.held ++ d.recon) senseToRecon s
  let sets := (s.mtl.map.sets.filter (fun e => e.2.st == SetSt.opened && e.2.die == k % 8 && e.2.members.any (fun m => m.1 == k / 8))).map (·.1)
  forEach sets failSet s

/-- Senses held for a die. -/
def heldSenses (s : State) (k : Nat) : Nat := let d := dieOf s k; d.hrq.length + d.adm.length + d.held.length

/-- Fence a channel (R253): 0 bus lost, 1 all dies silent. -/
def fenceChannel (c cause : Nat) (s : State) : State :=
  let online := (List.range 8).filter (fun d => dieState s (c * 8 + d) == 0)
  let held := (online.map (fun d => heldSenses s (c * 8 + d))).sum
  let s := setF (F.MED_CH_STAT_STATE c) 4 s
  let s := forEach online (fun d s => raiseInc (c * 8 + d) (fenceDie (c * 8 + d) s)) s
  let s := modChan c (fun x => { x with fencedWhole := true, attempts := 0 }) s
  sed 0x0402 sCRITICAL 5 c cause held s |> faultStallFree 3 125

/-- DIE_FENCED's effect: `cause` 0 polls missed, 1 operation overdue. The last online die of a channel takes the channel
with it (R253). -/
def doDieFenced (c d cause : Nat) (s : State) : State :=
  let k := c * 8 + d
  let x := dieOf s k
  let late := match x.op with | some o => dieBusy x && decide (o.endAt + 12000 < cycNow s c) | none => false
  if !chanOn s c || 8 ≤ d || !dieOnline s k || !(if cause = 0 then decide (1 ≤ x.missed) else late) then s else
  let held := heldSenses s k
  let s := sed 0x0410 sERROR 5 k cause held (raiseInc k (fenceDie k s)) |> faultStallFree 2 45
  if (List.range 8).all (fun e => dieState s (c * 8 + e) != 0) && (List.range 8).any (fun e => e != d && dieState s (c * 8 + e) == 1) then
    let s := setF (F.MED_CH_STAT_STATE c) 4 s
    sed 0x0402 sCRITICAL 5 c 1 held (modChan c (fun x => { x with fencedWhole := true, attempts := 0 }) s) |> faultStallFree 3 125
  else s

/-- DIE_FENCED (R252, R253, R256). -/
def execDieFenced (chan die cause : Nat) (s : State) : Host.Outcome State Fault Refusal := run (doDieFenced chan die cause) s

/-- CHANNEL_TRAINING_LOST (R253): one retraining attempt; the channel's senses wait. -/
def execChannelTrainingLost (chan : Nat) (s : State) : Host.Outcome State Fault Refusal :=
  run (fun s => if chanOn s chan && chanState s chan == 2 then
    setF (F.MED_CH_STAT_STATE chan) 3 s |> setF (F.MED_CH_BUS_TRAINED chan) 0 |> satInc (F.MED_CH_BUS_RETRAINS chan)
    else s) s

/-- Data of a retired die or channel starts moving (R302): `unit` names it as MTL_REBUILD does. -/
def startRebuild (unit : Nat) (s : State) : State :=
  let n := (s.mtl.map.sets.filter (fun e => e.2.members.any (fun m =>
    if 256 ≤ unit then m.1 == unit - 256 else m.1 * 8 + e.2.die == unit))).length
  setF F.MTL_STAT_REBUILD 1 s |> sed 0x0522 sERROR 6 0 unit n

/-- A retraining attempt ends (R253, R257): at success the channel serves again, or its fenced dies are reset; at failure
it is fenced, and retired after three attempts. The ticks taken are a free value. -/
def doRetrainDone (c : Nat) (ok : Bool) (s : State) : State :=
  let st := chanState s c
  if !chanOn s c || !(st == 3 || st == 4) then s else
  let (t, s) := drawLe 50 s
  let s := sed 0x0401 sWARNING 5 c (if ok then 1 else 0) t s
  if ok then
    let s := setF (F.MED_CH_STAT_STATE c) 2 s |> setF (F.MED_CH_BUS_TRAINED c) 1
    let s := if st = 4 then
        forEach (List.range 8) (fun d s => if dieState s (c * 8 + d) = 1 ∧ !(dieOf s (c * 8 + d)).incWait then setDieState (c * 8 + d) 2 s else s) s
      else s
    modChan c (fun x => { x with fencedWhole := false, attempts := 0 }) s
  else if st = 3 && !(chanOf s c).fencedWhole then fenceChannel c 0 s
  else
    let n := (chanOf s c).attempts + 1
    let s := modChan c (fun x => { x with attempts := n }) (satInc (F.MED_CH_BUS_RETRAINS c) s)
    if 3 ≤ n then
      let s := setF (F.MED_CH_STAT_STATE c) 6 s
      let s := forEach (List.range 8) (fun d s => setDieState (c * 8 + d) 4 s) s
      startRebuild (c + 256) (sed 0x0403 sCRITICAL 5 c n 0 s)
    else setF (F.MED_CH_STAT_STATE c) 4 s

/-- CHANNEL_RETRAIN_DONE (R253, R257). -/
def execChannelRetrainDone (chan : Nat) (ok : Bool) (s : State) : Host.Outcome State Fault Refusal := run (doRetrainDone chan ok) s

/-- A die is ONLINE again: erases that its sets still wait for are queued. -/
def dieOnlineAgain (k : Nat) (s : State) : State :=
  let s := setDieState k 0 s
  let l := s.mtl.map.sets.flatMap (fun e =>
    if e.2.st = .erasing ∧ e.2.die = k % 8 then
      e.2.members.zipIdx.filterMap (fun m => if m.1.1 = k / 8 ∧ e.2.toErase.contains m.2 then some (e.1, e.2.plane, m.1.2) else none)
    else [])
  modDie k (fun d => { d with eraseq := l, attempts := 0 }) s

/-- The information page of a die that answers is read (R258): `inc` is the stored incarnation. -/
def infoRead (k inc : Nat) (s : State) : State :=
  let e := expectedInc s k
  let s := modDie k (fun d => { d with stored := inc }) s
  if inc = e then dieOnlineAgain k s
  else
    let s := setDieState k 3 s
    if e < inc then sed 0x0414 sERROR 5 k inc e s else s

/-- The information page of a die is read at a start: one that was in direct-access mode before power was lost is treated as
stale (R258, R263). -/
def infoFirst (k : Nat) (s : State) : State :=
  if (dieOf s k).da = 2 then setDieState k 3 (modDie k (fun d => { d with da := 0 }) s) else infoRead k (dieOf s k).stored s

/-- A reset attempt on a fenced die (R257). -/
def doDieReset (c d : Nat) (answered : Bool) (inc : Nat) (s : State) : State :=
  let k := c * 8 + d
  let x := dieOf s k
  if !chanOn s c || 8 ≤ d || !(dieState s k == 1 || dieState s k == 2) || x.incWait || chanState s c ≠ 2 then s else
  let n := x.attempts + 1
  let s := satInc (F.MED_CH_D_ERR_RESETS c d) (setDieState k 2 (modDie k (fun y => { y with attempts := n }) s))
  let s := sed 0x0411 sNOTICE 5 k n (if answered then 1 else 0) s
  if answered then infoRead k inc s
  else if 3 ≤ n then startRebuild k (sed 0x0413 sCRITICAL 5 k (expectedInc s k) 0 (setDieState k 4 s))
  else s

/-- DIE_RESET_ATTEMPT (R256 to R258). -/
def execDieResetAttempt (chan die : Nat) (answered : Bool) (inc : Nat) (s : State) : Host.Outcome State Fault Refusal :=
  run (doDieReset chan die answered inc) s

/-- A stale die rejoins (R259): its open blocks are SUSPECT, its information pages take the expected number; `bad` is the
number of pages reported. -/
def doRejoin (c d bad : Nat) (s : State) : State :=
  let k := c * 8 + d
  if !chanOn s c || 8 ≤ d || dieState s k ≠ 3 then s else
  let open_ := s.media.blocks.filter (fun e => e.1 / 2 ^ 15 == k && decide (e.2.nextWl < 256))
  let s := forEach open_ (fun e s => suspect e.1 1 s) s
  let s := satAdd (F.MED_CH_D_ERR_PAGES_BAD c d) bad s
  let stored := (dieOf s k).stored
  let e := expectedInc s k
  let s := dieOnlineAgain k (modDie k (fun y => { y with stored := e }) s)
  sed 0x0412 sNOTICE 5 k stored e s |> sed 0x0415 sNOTICE 5 k open_.length bad

/-- MED_DIE_REJOIN (R259). -/
def execMedDieRejoin (chan die bad : Nat) (s : State) : Host.Outcome State Fault Refusal := run (doRejoin chan die bad) s

/-- A write of MED_CHc_CTL with RETRAIN (R257): one further attempt on a RETIRED channel, from the management side. -/
def doRetrainReq (path c : Nat) (v : BitVec 32) (s : State) : State :=
  if !isMgmt path || !chanOn s c || !v.getLsbD 4 || chanState s c ≠ 6 then s else
  let s := modChan c (fun x => { x with attempts := 2 }) (setF (F.MED_CH_STAT_STATE c) 4 s)
  forEach (List.range 8) (fun d s => setDieState (c * 8 + d) 1 s) s

/-- MED_CH_RETRAIN_REQUEST (R257). -/
def execMedChRetrainRequest (path chan : Nat) (v : BitVec 32) (s : State) : Host.Outcome State Fault Refusal :=
  run (doRetrainReq path chan v) s

/-! ### Direct access (R263 to R265) -/

/-- A write of MED_CHc_CTL with DA (R263). -/
def doDaEnter (path c : Nat) (v : BitVec 32) (s : State) : State :=
  if !isMgmt path || !chanOn s c || !v.getLsbD 0 || chanState s c = 5 then s
  else if path = tuten ∧ lifecycle s = 0 ∧ s.mtl.map.reachMap = [] ∧ s.mtl.map.fine = [] then
    forEach (List.range 8) (fun d s => modDie (c * 8 + d) (fun x => { x with da := 1 }) s) s
      |> setF (F.MED_CH_CTL_DA c) 1 |> setF (F.MED_CH_STAT_STATE c) 5 |> sed 0x0450 sNOTICE 5 c 0 0
  else setF (F.MED_CH_DA_STAT_RESULT c) 10 s

/-- MED_DA_ENTER (R263). -/
def execMedDaEnter (path chan : Nat) (v : BitVec 32) (s : State) : Host.Outcome State Fault Refusal := run (doDaEnter path chan v) s

/-- Put bytes into the direct-access buffer. -/
def daBuf (c : Nat) (l : List Byte) (s : State) : State := modChan c (fun x => { x with buf := mputs 0 x.buf 0 l }) s

/-- One direct-access operation: `f` gives the result code and the state after it. -/
def daOp (path c op : Nat) (v : BitVec 32) (f : Nat → Bool → State → Nat × State) (s : State) : State :=
  if !isMgmt path || !chanOn s c || chanState s c ≠ 5 || !v.getLsbD 8 then s else
  let deeps := v.getLsbD 4
  let s := setF (F.MED_CH_DA_CMD_OP c) op s |> setB (F.MED_CH_DA_CMD_MODE c) deeps
  let psa := c * 2 ^ 31 + fld s (F.MED_CH_DA_ADDR_PSA c)
  let bad := decide (5504 ≤ psaBlock psa) || decide ((if deeps then 768 else 256) ≤ psaPage psa)
  let (r, s) := if bad then (6, s) else f psa deeps s
  let s := match r with
    | 4 => sed 0x0433 sERROR 5 (psaDie psa) (psa % 2 ^ 32) 0 s
    | 5 => sed 0x0433 sERROR 5 (psaDie psa) (psa % 2 ^ 32) 1 s
    | 6 => sed 0x0433 sERROR 5 (psaDie psa) (psa % 2 ^ 32) 2 s
    | 10 => sed 0x0433 sERROR 5 (psaDie psa) (psa % 2 ^ 32) 3 s
    | _ => s
  setF (F.MED_CH_DA_STAT_RESULT c) r s |> sed 0x0451 sDEBUG 5 c (op * 256 + r) (psa % 2 ^ 31)

/-- The offsets of a direct-access sense (R264): OFF1 alone in Shallows mode, OFF1 to OFF7 in Deeps mode. -/
def daOffsets (s : State) (c : Nat) (deeps : Bool) : List Int :=
  let o := fun (f : Fld) => signed8 (fld s f)
  if deeps then [o (F.MED_CH_DA_REF_LO_OFF1 c), o (F.MED_CH_DA_REF_LO_OFF2 c), o (F.MED_CH_DA_REF_LO_OFF3 c), o (F.MED_CH_DA_REF_LO_OFF4 c),
    o (F.MED_CH_DA_REF_HI_OFF5 c), o (F.MED_CH_DA_REF_HI_OFF6 c), o (F.MED_CH_DA_REF_HI_OFF7 c)]
  else [o (F.MED_CH_DA_REF_LO_OFF1 c)]

/-- The bytes of a die's information page (R211). -/
def infoBytes (s : State) (k : Nat) : List Byte := sub (Config.infoPage k (dieOf s k).badList (dieOf s k).stored) 0 4608

/-- A page holds a copy of the die information page (R211; which page of the block is the first, log entry 5). -/
def isInfoPage (psa : Nat) : Bool := psaPlane psa == 0 && decide (psaBlock psa < 2) && psaPage psa == 0

/-- READ: the 576 information bytes of each sector, descrambled and decoded; `ok`: every sector decoded. -/
def daRead (c : Nat) (ok : Bool) (psa : Nat) (deeps : Bool) (s : State) : Nat × State :=
  let a := psa / 8 * 8
  let s := emit (.sense (psaDie psa) psa (daOffsets s c deeps)) s
  let body := if isInfoPage psa then some (infoBytes s (psaDie psa))
    else (tfind s.media.pages (psa / 8)).map (fun p => (List.range 8).flatMap (sectorInfo s a p))
  match body, ok with
  | some l, true =>
    let (b, s) := draw 16 s
    (0, setF (F.MED_CH_DA_STAT_BITS c) b.toNat (daBuf c l s))
  | _, _ => (7, s)

/-- READ_RAW: the page as stored; an erased page reads all ones. -/
def daReadRaw (c : Nat) (ok : Bool) (psa : Nat) (deeps : Bool) (s : State) : Nat × State :=
  let a := psa / 8 * 8
  let s := emit (.sense (psaDie psa) psa (daOffsets s c deeps)) s
  if !ok then (9, s) else
  (0, daBuf c (if isInfoPage psa then
      (List.range 8).flatMap (fun i => encodeSector (a + i) (sub (infoBytes s (psaDie psa)) (576 * i) 576))
    else match tfind s.media.pages (psa / 8) with
    | none => List.replicate 5120 0xFF
    | some p => (List.range 8).flatMap (sectorRaw s a p)) s)

/-- Plane 0 blocks 0 and 1 may be neither programmed nor erased (R264). -/
def daSystem (psa : Nat) : Bool := psaPlane psa == 0 && decide (psaBlock psa < 2)

/-- One page, or the three of a word line (R214, R260); `ok`: the die verified. -/
def daProgram (c : Nat) (ok : Bool) (psa : Nat) (deeps : Bool) (s : State) : Nat × State :=
  let key := psaBlockKey psa
  let wl := if deeps then psaPage psa / 3 else psaPage psa
  let b := (tfind s.media.blocks key).getD ⟨deeps, 0, []⟩
  if daSystem psa then (10, s)
  else if b.deeps ≠ deeps then (5, s)
  else if wl ≠ b.nextWl then (4, s)
  else if windowHeld s c then (8, s)
  else if !ok then (1, s)
  else
    let first := if deeps then 3 * wl else wl
    let s := forEach (List.range (if deeps then 3 else 1)) (fun i s =>
      { s with media := { s.media with
          pages := tput (key * 1024 + first + i) (.raw (mbytes 0 (chanOf s c).buf (5120 * i) 5120)) s.media.pages } }) s
    let segs := if wl % 64 = 0 then b.segs ++ [epoch s] else b.segs
    (0, { s with media := { s.media with blocks := tput key ⟨deeps, wl + 1, segs⟩ s.media.blocks } })

/-- An erase: it ends a cycle in the mode of the block's first program (R219). -/
def daErase (c : Nat) (ok : Bool) (psa : Nat) (_deeps : Bool) (s : State) : Nat × State :=
  if daSystem psa then (10, s)
  else if windowHeld s c then (8, s)
  else if !ok then (2, s)
  else
    let key := psaBlockKey psa
    let cost := match tfind s.media.blocks key with | some b => if b.deeps then 10 else 1 | none => 0
    (0, dropBlock key (modMap (fun x => { x with wear := tmod 0 key (· + cost) x.wear }) s))

/-- The die information page, whose layout the spec does not give (log entry 5). -/
def daInfo (c : Nat) (ok : Bool) (psa : Nat) (_deeps : Bool) (s : State) : Nat × State :=
  if !ok then (7, s) else (0, daBuf c (infoBytes s (psaDie psa)) s)

/-- The operation that OP names; a code of no operation of the table has no effect but its own code. -/
def daGo (path c op : Nat) (v : BitVec 32) (ok : Bool) (s : State) : State :=
  if op = 1 then daOp path c 1 v (daRead c ok) s
  else if op = 2 then daOp path c 2 v (daReadRaw c ok) s
  else if op = 3 then daOp path c 3 v (daProgram c ok) s
  else if op = 4 then daOp path c 4 v (daErase c ok) s
  else if op = 5 then daOp path c 5 v (daInfo c ok) s
  else s

/-- DA_READ (R264). -/
def execDaRead (path chan : Nat) (v : BitVec 32) (ok : Bool) (s : State) : Host.Outcome State Fault Refusal :=
  run (daGo path chan 1 v ok) s
/-- DA_READ_RAW (R264). -/
def execDaReadRaw (path chan : Nat) (v : BitVec 32) (ok : Bool) (s : State) : Host.Outcome State Fault Refusal :=
  run (daGo path chan 2 v ok) s
/-- DA_PROGRAM_RAW (R264). -/
def execDaProgramRaw (path chan : Nat) (v : BitVec 32) (ok : Bool) (s : State) : Host.Outcome State Fault Refusal :=
  run (daGo path chan 3 v ok) s
/-- DA_ERASE (R264). -/
def execDaErase (path chan : Nat) (v : BitVec 32) (ok : Bool) (s : State) : Host.Outcome State Fault Refusal :=
  run (daGo path chan 4 v ok) s
/-- DA_READ_INFO (R264). -/
def execDaReadInfo (path chan : Nat) (v : BitVec 32) (ok : Bool) (s : State) : Host.Outcome State Fault Refusal :=
  run (daGo path chan 5 v ok) s

end Sys2Proof.Machine
end

