-- ==== Sys2Proof/Machine/Mtl.lean ====
section
/-! DEFINITION. The translation layer's commands (chapter 07): placing write-backs (R278 to R286), Overturn (R290 to
R295), Dredge (R296 to R301), the share table (R305, R306), the journal and checkpoints (R307 to R312), the flush (R313)
and recovery (R314 to R316). -/

namespace Sys2Proof.Machine

/-- The translation layer serves: RUN, READ_ONLY or FLUSHING, with PD_CORE on. -/
def mtlRuns (s : State) : Bool :=
  coreOn s && !inHalt s && [1, 2, 4].contains (fld s F.MTL_STAT_STATE)

/-- Background work runs: in RUN only (R560), outside a flush (R313). -/
def mtlBackground (s : State) : Bool := mtlRuns s && s.pwr.st == 0 && !inFlush s

/-! ### Placing (R279, R280, R286) -/

/-- Place a sealed write-back, or leave it waiting (R280, R286). -/
def placeTry (x : SealedWb) (s : State) : State :=
  let room := (logPageFor false x.wseq s).isSome
  let (t, ok) := placeOne x s
  if ok || x.waiting then t
  else
    let s := { t with mtl := { t.mtl with
      sealedQ := t.mtl.sealedQ.map (fun b => if b.wseq = x.wseq then { b with waiting := true } else b) } }
    if room then satInc F.MTL_MERGE_WAITS s else s

/-- MTL_PLACE (R280). -/
def execMtlPlace (s : State) : Host.Outcome State Fault Refusal :=
  run (fun s => if !mtlRuns s then s else
    match s.mtl.sealedQ.find? (fun x => !x.waiting) with
    | some x => placeTry x s
    | none => s) s

/-- MTL_PLACE_WAIT_END (R280, R286). -/
def execMtlPlaceWaitEnd (s : State) : Host.Outcome State Fault Refusal :=
  run (fun s => if !mtlRuns s then s else
    match s.mtl.sealedQ.find? (fun x => x.waiting) with
    | some x => placeTry x s
    | none => s) s

/-- LOG_PAGE_TIMEOUT (R285): 64 ticks since the first slot of an open log page. -/
def execLogPageTimeout (s : State) : Host.Outcome State Fault Refusal :=
  run (fun s =>
    let late := fun (l : Option LogPage) => match l with | some p => !p.slots.isEmpty && decide (p.firstTick + 64 ≤ s.tick.count) | none => false
    let s := if mtlRuns s && late s.mtl.logPage then closeLog false s else s
    if mtlRuns s && late s.mtl.relocPage then closeLog true s else s) s

/-- ROW_FILL_TIMEOUT (R285): 256 ticks since the first page of the open row closed. -/
def execRowFillTimeout (set : Nat) (s : State) : Host.Outcome State Fault Refusal :=
  run (fun s =>
    match setOf s set with
    | some b =>
      (match b.firstClose with
       | some t => if mtlRuns s && decide (t + 256 ≤ s.tick.count) && b.st == .opened then fillRow set s else s
       | none => s)
    | none => s) s

/-- JOURNAL_PAGE_TIMEOUT (R307): a record of the open page has waited 4 ticks. -/
def execJournalPageTimeout (s : State) : Host.Outcome State Fault Refusal :=
  run (fun s => if mtlRuns s && !s.mtl.jopen.isEmpty && decide (s.mtl.jfirst + 4 ≤ s.tick.count) then jClose s else s) s

/-! ### Overturn (R290 to R295) -/

/-- A write-back of the reach waits under R280. -/
def placeWaits (s : State) (reach : Nat) : Bool := s.mtl.sealedQ.any (fun x => x.waiting && reachOf x.line == reach)

/-- Overturn may capture a record (R290). -/
def foldable (s : State) (r : MergeRec) : Bool :=
  !r.captured && shoreHeld s != some r.reach && !(r.ents.all (·.poison) && r.deeps.isSome)

/-- The earlier of two records by a key, ties to the first. -/
def bestBy (le_ : MergeRec → MergeRec → Bool) (l : List (Nat × MergeRec)) : Option (Nat × MergeRec) :=
  l.foldl (fun b x => match b with | none => some x | some y => if le_ y.2 x.2 then some y else some x) none

/-- The record that Overturn takes next (R290). -/
def foldPick (s : State) : Option (Nat × MergeRec) :=
  let l := s.mtl.map.merge.filter (fun e => foldable s e.2)
  let now := l.filter (fun e => e.2.foldNow || placeWaits s e.2.reach)
  let aged := l.filter (fun e => decide (e.2.created + fld s F.MTL_CTL_AGE < epoch s))
  match now.head? with
  | some x => some x
  | none =>
    match bestBy (fun a b => decide (a.created ≤ b.created)) aged with
    | some x => some x
    | none => bestBy (fun a b => decide (b.ents.length < a.ents.length ∨ (b.ents.length = a.ents.length ∧ a.created ≤ b.created))) l

/-- FOLD_SEQ at a capture (R291): the lowest assigned, unplaced sequence, or the next one. -/
def foldSeqNow (s : State) : Nat := s.mtl.unplaced.foldl (fun m u => min m u.wseq) s.mtl.wseq

/-- Mark the entries that a capture copies. -/
def markCaptured (k : Nat) (r : MergeRec) (s : State) : State :=
  putMerge k { r with captured := true, ents := r.ents.map (fun e => if e.poison then e else { e with mark := true }) } s

/-- The sealed copy that a captured entry names. -/
def entSealed (s : State) (e : MergeEnt) : Option Sealed :=
  match shallowsLoc s.mtl.map e.sset e.slot with | .at_ n q i => sealedAt s n q i | _ => none

/-- Seal zeros as a write-back of a line would be (R292). -/
def sealZero (line key : Nat) (s : State) : Option (State × Sealed) :=
  if majorWaits s line then none else
  match sealGen s line key with
  | none => none
  | some g =>
    let s := advanceCounters line s
    let x := sealWith g line 2 false 0 s
    some (count 0x40 0 1 (satInc F.ICU_CNT_SEAL_COUNT s), x)

/-- The 1,024 sealed lines of a fold (R291 step 3, R292); none while a line to be sealed has to wait. -/
def foldLines (r : MergeRec) (caps : List MergeEnt) (s : State) : Option (State × List Sealed) :=
  (List.range 1024).foldl (fun (a : Option (State × List Sealed)) o =>
    match a with
    | none => none
    | some (s, l) =>
      match caps.find? (fun e => e.off == o), r.deeps with
      | some e, _ => some (s, l ++ [(entSealed s e).getD ⟨0, 0, 0, 6⟩])
      | none, some (n, k) => some (s, l ++ [(sealedAt s n (16 * k + o / 64) (o % 64)).getD ⟨0, 0, 0, 6⟩])
      | none, none =>
        match sealZero (r.reach * 1024 + o) r.key s with
        | some (s, x) => some (s, l ++ [x])
        | none => none) (some (s, []))

/-- Senses of a fold (R291 step 2): the Deeps pages not wholly captured, and the captured entries' sectors. -/
def foldSenses (r : MergeRec) (caps : List MergeEnt) (s : State) : State :=
  let s := match r.deeps with
    | none => s
    | some (n, k) =>
      forEach (List.range 16) (fun p s =>
        if (caps.filter (fun e => e.off / 64 == p)).length = 64 then s
        else bgSense (locPsa s (.at_ n (16 * k + p) 0)) 2 8 s) s
  forEach caps (fun e s => bgSense (locPsa s (shallowsLoc s.mtl.map e.sset e.slot)) 2 1 s) s

/-- FOLD_CAPTURE's effect: capture, read, assemble and place. The capture waits while no page buffers or DEEPS set are
free, or a line's seal has to wait. -/
def doFoldCapture (s : State) : State :=
  if !mtlBackground s then s else
  match foldPick s with
  | none => s
  | some (k, r) =>
    let caps := r.ents.filter (fun e => !e.poison)
    let fs := foldSeqNow s
    match foldLines r caps (foldSenses r caps (markCaptured k r s)) with
    | none => s
    | some (t, lines) =>
      match placeReach r.reach lines t with
      | none => s
      | some (t, n, slot) =>
        { t with mtl := { t.mtl with folds := t.mtl.folds ++ [⟨r.reach, k, fs, caps, r.deeps, some (n, slot), none⟩] } }

/-- FOLD_CAPTURE (R290 to R292). -/
def execFoldCapture (s : State) : Host.Outcome State Fault Refusal := run doFoldCapture s

/-- The map update of a fold's commit (R294). -/
def foldApply (reach : Nat) (target : Nat × Nat) (s : State) : State :=
  match mergeOf s reach with
  | some (k, r) =>
    let ents := r.ents.filter (fun e => !e.mark)
    if ents.isEmpty then
      putReach reach (some (.deeps target.1 target.2)) (modMap (fun m => { m with merge := tdel k m.merge }) s)
    else putMerge k { r with ents := ents, deeps := some target, captured := false, foldNow := false } s
  | none => putReach reach (some (.deeps target.1 target.2)) s

/-- The Shoreline stride's commit (R294, R363): the map, and the counters of the lines sealed into the slot, but for
those sealed again since (R362; log entry 48). -/
def shoreApply (target : Nat × Nat) (s : State) : State :=
  let sh := s.icu.shore
  let r := reachOf sh.b
  let s := foldApply r target s
  let s := forEach (sh.adv.filter (fun o => !sh.again.contains o && !sh.resets.contains ((r * 1024 + o) / 64))) (fun o s => advanceCounters (r * 1024 + o) s) s
  let s := forEach sh.resets (fun i s =>
    let l := leafOf s.icu.tree i
    let l := { l with major := 0, oldMajor := 0, reseal := 0, exhausted := false, minors := l.minors.map (fun e => (e.1, 1)) }
    touchNode 0 i (modTree (fun t => { t with leaves := tput i l t.leaves }) s)) s
  count 0x43 0 1 { s with icu := { s.icu with shore := { s.icu.shore with step := 4 } } }

/-- FOLD_COMMIT's effect: the fold, or the Shoreline stride, of a reach whose commit record is durable. -/
def doFoldCommit (reach : Nat) (s : State) : State :=
  if !coreOn s || inHalt s then s else
  match s.mtl.folds.find? (fun f => f.reach == reach) with
  | some f =>
    (match f.jseq, f.target with
     | some j, some t =>
       if jDurable s j then
         let s := foldApply reach t s
         let s := { s with mtl := { s.mtl with folds := s.mtl.folds.filter (fun g => g.reach != reach) } }
         count 0x30 0 1 (satInc F.MTL_CNT_FOLD_COUNT s)
       else s
     | _, _ => s)
  | none =>
    match s.icu.shore.jseq, s.icu.shore.target with
    | some j, some t => if s.icu.shore.step = 3 ∧ reachOf s.icu.shore.b = reach ∧ jDurable s j then shoreApply t s else s
    | _, _ => s

/-- FOLD_COMMIT (R294). -/
def execFoldCommit (reach : Nat) (s : State) : Host.Outcome State Fault Refusal := run (doFoldCommit reach) s

/-! ### Dredge (R296 to R300) -/

/-- Valid line slots of a LOG set: line, slot and sequence of every entry that refers to it (R297). -/
def validLines (s : State) (sset : Nat) : List (Nat × Nat × Nat) :=
  (s.mtl.map.fine.flatMap (fun b => b.2.filterMap (fun e =>
    if !e.poison && e.sset == sset then some (fineLine s b.1 e.tag, e.slot, e.wseq) else none))) ++
  (s.mtl.map.merge.flatMap (fun m => m.2.ents.filterMap (fun e =>
    if !e.poison && e.sset == sset then some (m.2.reach * 1024 + e.off, e.slot, e.wseq) else none)))

/-- Valid reach slots of a DEEPS set: reach and slot. -/
def validReaches (s : State) (n : Nat) : List (Nat × Nat) :=
  s.mtl.map.reachMap.filterMap (fun e =>
    match e.2 with
    | .deeps a k => if a = n then some (e.1, k) else none
    | .merge r =>
      match (tfind s.mtl.map.merge r).bind (·.deeps) with
      | some (a, k) => if a = n then some (e.1, k) else none
      | none => none)

/-- Number of valid slots and capacity of a set (R297). -/
def validCount (s : State) (n : Nat) (b : BlockSet) : Nat :=
  if b.kind = kLOG then (validLines s b.sset).length else (validReaches s n).length
def setCapacity (b : BlockSet) : Nat :=
  if b.kind = kLOG then 256 * (b.members.length - 1) * 56 else 48 * (b.members.length - 1)

/-- The score of a set from its valid slots, capacity, age and most-worn member (R297). -/
def scoreOf (valid capacity age wear : Nat) : Nat :=
  let u := valid * 1024 / capacity
  (1024 - u) * (32 + min age 224) / 256 - wear / 1024

def setScore (s : State) (n : Nat) (b : BlockSet) : Nat :=
  scoreOf (validCount s n b) (setCapacity b) (epoch s - b.lastProg)
    ((b.members.map (fun m => wearOf s m.1 b.die b.plane m.2)).foldl max 0)

/-- FULL sets of kind LOG or DEEPS, in ascending number. -/
def fullSets (s : State) : List (Nat × BlockSet) :=
  s.mtl.map.sets.filter (fun e => e.2.st == .full && (e.2.kind == kLOG || e.2.kind == kDEEPS))

/-- A set has a member on a RETIRED die or channel (R296 rule 1). -/
def onRetired (s : State) (b : BlockSet) : Bool :=
  b.members.any (fun m => chanState s m.1 == 6 || dieState s (m.1 * 8 + b.die) == 4)

/-- A set has a SUSPECT member (R296 rule 2). -/
def hasSuspect (s : State) (b : BlockSet) : Bool :=
  b.members.any (fun m => (tfind s.media.suspect (blockKey m.1 b.die b.plane m.2)).isSome)

/-- Lowest and highest wear among the good blocks of a die. -/
def wearRange (s : State) (k : Nat) : Nat × Nat :=
  let good := s.mtl.map.wear.filter (fun e => e.1 / 2 ^ 15 == k && (tfind s.mtl.map.retired e.1).isNone)
  let bad := (s.mtl.map.retired.filter (fun e => e.1 / 2 ^ 15 == k)).length
  let hi := good.foldl (fun m e => max m e.2) 0
  (if good.length < 4 * 5502 - bad then 0 else good.foldl (fun m e => min m e.2) hi, hi)

/-- The static levelling choice (R300): a FULL set that holds the least-worn block of a die whose gap is too wide. -/
def levelPick (s : State) : Option (Nat × BlockSet) :=
  if 0 < s.mtl.picks then none else
  (fullSets s).find? (fun e => e.2.members.any (fun m =>
    let (lo, hi) := wearRange s (m.1 * 8 + e.2.die)
    decide (fld s F.MTL_DREDGE_CTL_LEVEL * 1000 < hi - lo) && wearOf s m.1 e.2.die e.2.plane m.2 == lo))

/-- Dredge runs for want of free sets, from START until STOP (R296). -/
def dredgeWants (s : State) : Bool :=
  let f := freeSets s
  decide (f < fld s F.MTL_DREDGE_CTL_START) || (s.mtl.dredgeOn && decide (f < fld s F.MTL_DREDGE_CTL_STOP))

/-- The next set and the rule that picks it (R296). -/
def dredgeChoose (s : State) : Option (Nat × BlockSet × Nat) :=
  match (fullSets s).find? (fun e => onRetired s e.2) with
  | some (n, b) => some (n, b, 1)
  | none =>
    match (fullSets s).find? (fun e => hasSuspect s e.2) with
    | some (n, b) => some (n, b, 2)
    | none =>
      match levelPick s with
      | some (n, b) => some (n, b, 3)
      | none =>
        if !dredgeWants s then none else
        ((fullSets s).foldl (fun (best : Option (Nat × BlockSet × Nat)) e =>
          let v := setScore s e.1 e.2
          match best with
          | some (_, _, w) => if w < v then some (e.1, e.2, v) else best
          | none => some (e.1, e.2, v)) none).map (fun x => (x.1, x.2.1, 4))

/-- Key index of a line that no cached copy names (log entry 46): its region-mode region's, else its merge record's. -/
def lineKeyOf (s : State) (line : Nat) : Nat :=
  match (cfgRegions s).find? (fun r => headOn s r.head && !tagged s r.head && r.has line) with
  | some r => r.key
  | none => match mergeOf s (reachOf line) with | some (_, r) => r.key | none => 0

/-- Lines of a RELOC page whose commit is outstanding. -/
def movingLines (s : State) (d : Dredge) : List Nat :=
  d.moves.flatMap (fun m => match m.2 with
    | .relocCommit dst q _ => (match pageBody s dst q with | some (.log _ man _ _ _ _) => man.map (·.line) | _ => [])
    | _ => [])

/-- The log page of a slot was placed more than COOL epochs ago (R282). -/
def isCold (s : State) (n slot : Nat) : Bool :=
  match pageBody s n (slot / 56) with
  | some (.log _ _ _ _ ep _) => decide (ep + fld s F.MTL_CTL_COOL < epoch s)
  | _ => false

/-- The line's entry is HOT (R275). -/
def isHot (s : State) (l : Nat) : Bool := match fineFind s l with | some e => !e.poison | none => false

/-- Copy up to 56 valid lines of a LOG set into a RELOC page (R298). -/
def relocPageOut (n : Nat) (l : List (Nat × Nat × Nat)) (s : State) : State :=
  match logPageFor true 0 (closeLog true s) with
  | none => s
  | some (s, p0) =>
    let s := forEach (l.take 56) (fun x s =>
      match logPageFor true x.2.2 s, sealedAt s n (x.2.1 / 56) (x.2.1 % 56) with
      | some (s, p), some y =>
        addSlot true p y ⟨x.1, x.2.2, isHot s x.1 && !isCold s n x.2.1, false, false, true⟩
          (bgSense (locPsa s (.at_ n (x.2.1 / 56) (x.2.1 % 56))) 3 1 s)
      | _, _ => s) s
    let s := closeLog true s
    { s with mtl := { s.mtl with
        dredge := s.mtl.dredge.map (fun d => { d with moves := d.moves ++ [(0, .relocCommit p0.set p0.page n)] }) } }

/-- Copy what the set still holds, while page buffers are free; `fuel` bounds the pages copied. -/
def dredgeCopy (fuel : Nat) (s : State) : State :=
  match fuel with
  | 0 => s
  | f + 1 =>
    match s.mtl.dredge with
    | none => s
    | some d =>
      match setOf s d.set with
      | none => s
      | some b =>
        if b.kind = kLOG then
          let busy := movingLines s d
          let l := (validLines s b.sset).filter (fun x => !busy.contains x.1)
          if l.isEmpty || !bufRoom s 1 || (logPageFor true 0 s).isNone then s
          else dredgeCopy f (relocPageOut d.set l s)
        else
          let busy := d.moves.filterMap (fun m => match m.2 with | .reachMove r _ _ _ _ => some r | _ => none)
          -- R298: a reach that the Shoreline engine holds waits for its release
          match (validReaches s d.set).find? (fun x => !busy.contains x.1 && shoreHeld s != some x.1) with
          | none => s
          | some (r, k) =>
            match placeReach r (reachLines s d.set k) s with
            | none => s
            | some (t, n, slot) =>
              let t := forEach (List.range 16) (fun p t => bgSense (locPsa t (.at_ d.set (16 * k + p) 0)) 3 8 t) t
              dredgeCopy f { t with mtl := { t.mtl with dredge := some { d with
                moves := d.moves ++ [(0, .reachMove r n slot d.set k)] } } }

/-- The set has nothing left to copy or to commit: it is DREDGED (R288). -/
def dredgeEnd (s : State) : State :=
  match s.mtl.dredge with
  | none => s
  | some d =>
    match setOf s d.set with
    | none => { s with mtl := { s.mtl with dredge := none } }
    | some b =>
      if d.moves.isEmpty && validCount s d.set b == 0 then
        modSet d.set (fun b => { b with st := .dredged }) { s with mtl := { s.mtl with dredge := none } }
      else s

/-- DREDGE_PICK's effect: with no copy in progress, a pick; then the copy goes on. -/
def doDredgePick (s : State) : State :=
  if !mtlBackground s then s else
  match s.mtl.dredge with
  | some _ => dredgeEnd (dredgeCopy 2048 s)
  | none =>
    let s := { s with mtl := { s.mtl with dredgeOn := dredgeWants s } }
    match dredgeChoose s with
    | none => s
    | some (n, b, rule) =>
      let score := setScore s n b
      let s := { s with mtl := { s.mtl with
        dredge := some ⟨n, rule, []⟩
        picks := if rule = 3 then 15 else s.mtl.picks - 1 } }
      dredgeEnd (dredgeCopy 2048 (sed 0x0511 sDEBUG 6 n score rule s))

/-- DREDGE_PICK (R296 to R300). -/
def execDredgePick (s : State) : Host.Outcome State Fault Refusal := run doDredgePick s

/-- Re-point the entries of a RELOC page that still refer to the source set (R298); a line no longer HOT becomes cold. -/
def relocApply (dst q src : Nat) (s : State) : State :=
  match pageBody s dst q with
  | some (.log _ man _ _ _ _) =>
    forEach man.zipIdx (fun e s =>
      let o := ssetOf s src
      let slot := match fineFind s e.1.line with
        | some x => if !x.poison && x.sset == o && x.wseq == e.1.wseq then some x.slot else none
        | none => match mergeOf s (reachOf e.1.line) with
          | some (_, r) => (r.ents.find? (fun x => x.off == e.1.line % 1024 && !x.poison && x.sset == o && x.wseq == e.1.wseq)).map (·.slot)
          | none => none
      match slot with
      | some so => rePoint e.1.line (lineKeyOf s e.1.line) o so (ssetOf s dst) (56 * q + e.2) (!e.1.hot) s
      | none => s) s
  | _ => s

/-- Re-point a reach from one Deeps slot to another where it still refers to the first. -/
def moveApply (r n k o so : Nat) (s : State) : State :=
  match tfind s.mtl.map.reachMap r with
  | some (.deeps a b) => if a = o ∧ b = so then putReach r (some (.deeps n k)) s else s
  | some (.merge m) =>
    (match tfind s.mtl.map.merge m with
     | some x => if x.deeps = some (o, so) then putMerge m { x with deeps := some (n, k) } s else s
     | none => s)
  | none => s

/-- DREDGE_COMMIT's effect: every durable move is applied, the copy goes on, and the set may be done. -/
def doDredgeCommit (s : State) : State :=
  if !coreOn s || inHalt s then s else
  match s.mtl.dredge with
  | none => s
  | some d =>
    let ready := d.moves.filter (fun m => m.1 != 0 && jDurable s (m.1 - 1))
    let s := forEach ready (fun m s => match m.2 with
      | .reachMove r n k o so => moveApply r n k o so s
      | .relocCommit dst q src => relocApply dst q src s
      | _ => s) s
    let s := { s with mtl := { s.mtl with dredge := s.mtl.dredge.map (fun d => { d with moves := d.moves.filter (fun m => !ready.contains m) }) } }
    dredgeEnd (if mtlBackground s then dredgeCopy 2048 s else s)

/-- DREDGE_COMMIT (R298, R310). -/
def execDredgeCommit (s : State) : Host.Outcome State Fault Refusal := run doDredgeCommit s

/-- A capture refers to a set, or a sense on its members is outstanding (R310 item 3). -/
def setInUse (s : State) (n : Nat) (b : BlockSet) : Bool :=
  s.mtl.folds.any (fun f => (match f.old with | some (a, _) => a == n | none => false) ||
    (b.kind == kLOG && f.caps.any (fun e => e.sset == b.sset))) ||
  (b.kind == kLOG && s.icu.shore.caps.any (fun e => e.sset == b.sset)) ||
  b.members.any (fun m =>
    let key := blockKey m.1 b.die b.plane m.2
    let d := dieOf s (m.1 * 8 + b.die)
    let here := fun (x : Sense) => psaBlockKey x.psa == key
    d.hrq.any here || d.adm.any here || d.held.any here || d.recon.any here || d.bgq.any here ||
    d.page.any (fun p => here p.sense) || (chanOf s m.1).decoding.any (fun e => here e.2) ||
    s.media.recons.any (fun e => here e.2.sense))

/-- An ERASE_INTENT of the set is in the journal and not yet durable. -/
def intentPending (s : State) (n : Nat) : Bool :=
  let is := fun (r : JRec) => r.body == .eraseIntent n
  s.mtl.jopen.any is || s.mtl.jpend.any (fun p => p.2.2.any is)

/-- ERASE_INTENT (R288, R310 item 3). The erases follow when the record is durable. -/
def execEraseIntent (set : Nat) (s : State) : Host.Outcome State Fault Refusal :=
  run (fun s =>
    match setOf s set with
    | some b =>
      if mtlRuns s && b.st == .dredged && !setInUse s set b && !intentPending s set then jPut (.eraseIntent set) s else s
    | none => s) s

/-! ### Checkpoints (R311, R312) -/

/-- Pages of a checkpoint: the structures of R270 in pages of 4,064 bytes. -/
def ckptPages (s : State) : Nat :=
  let e := internalEnd s / 1024 + 1
  ceilDiv (4 * e) 4064 + ceilDiv (64 * 2 ^ fineBits s) 4064 + ceilDiv (256 * mergeLimit s) 4064 +
  ceilDiv (64 * 2 ^ 18) 4064 + ceilDiv (4 * (fusedChans s * 8 * 4 * 5504)) 4064

/-- CKPT sets for a number of pages: they are formed as the structures are copied (R287, R311), and each is programmed whole
(log entry 41); fewer where no free blocks are left. -/
def ckptForm (fuel pages : Nat) (s : State) : State × List Nat :=
  match fuel with
  | 0 => (s, [])
  | f + 1 =>
    if pages = 0 then (s, []) else
    match openSet kCKPT s with
    | none => (s, [])
    | some (s, n) =>
      let size := match setOf s n with | some b => setPages b | none => 0
      let s := modSet n (fun b => { b with
        st := .full, assigned := min pages size, rows := List.range (ceilDiv (min pages size) (b.members.length - 1)), lastProg := epoch s }) s
      let s := if 127 ≤ s.mtl.jopen.length then jClose s else s
      let r := ckptForm f (pages - size) s
      (r.1, n :: r.2)

/-- CKPT_BEGIN (R311): every open log page closes, CKPT_BEGIN is appended, and the structures are copied (log entry 41). -/
def doCkptBegin (s : State) : State :=
  if !mtlRuns s || inFlush s || s.mtl.ckptRun.isSome then s else
  let s := closeLog true (closeLog false s)
  let gen := (match s.mtl.ckpt with | some c => c.gen | none => 0) + 1
  let pages := ckptPages s
  let c : Ckpt := ⟨gen, s.mtl.jseq, s.mtl.pageSeq, s.mtl.wseq, epoch s, s.tick.count, pages, s.mtl.map, []⟩
  let s := jPut (.ckptBegin gen s.mtl.pageSeq s.mtl.wseq) s
  let (s, sets) := ckptForm 256 pages s
  { s with mtl := { s.mtl with ckptRun := some { c with sets := sets } } }

def execCkptBegin (s : State) : Host.Outcome State Fault Refusal := run doCkptBegin s

/-- CKPT_END has been appended for a generation. -/
def ckptEnded (s : State) (gen : Nat) : Bool :=
  let is := fun (r : JRec) => match r.body with | .ckptEnd g _ _ => g == gen | _ => false
  s.mtl.jopen.any is || s.mtl.jpend.any (fun p => p.2.2.any is) || s.mtl.jdone.any is

/-- CKPT_END (R311, R312): its record is appended; MAP_ROOT follows when it is durable, and the release of the previous
generation when MAP_ROOT is. -/
def doCkptEnd (s : State) : State :=
  match s.mtl.ckptRun with
  | none => s
  | some c =>
    if !mtlRuns s || ckptEnded s c.gen then s
    else
      let (v, s) := draw 32 s
      jPut (.ckptEnd c.gen c.pages v.toNat) s

def execCkptEnd (s : State) : Host.Outcome State Fault Refusal := run doCkptEnd s

/-- MAP_ROOT names a generation (R312): it is the last complete one; the CKPT sets of the generation before it and the JOURNAL
sets whose records all precede its CKPT_BEGIN are released. -/
def mapRootDone (gen : Nat) (s : State) : State :=
  match s.mtl.ckptRun with
  | none => s
  | some c =>
    if c.gen ≠ gen then s else
    let old := match s.mtl.ckpt with | some p => p.sets | none => []
    let s := forEach old (fun n s => modSet n (fun b => { b with st := .dredged }) s) s
    let s := { s with mtl := { s.mtl with ckpt := some c, ckptRun := none } }
    let s := forEach (s.mtl.map.sets.filter (fun e => e.2.kind == kJOURNAL && e.2.st == .full)) (fun e s =>
      let recs := (List.range e.2.assigned).flatMap (fun q => match pageBody s e.1 q with | some (.journal l) => l | _ => [])
      if recs.all (fun r => decide (r.jseq < c.jseq)) then modSet e.1 (fun b => { b with st := .dredged }) s else s) s
    let s := { s with mtl := { s.mtl with jdone := s.mtl.jdone.filter (fun r => decide (c.jseq ≤ r.jseq)) } }
    sed 0x0540 sINFO 6 gen c.pages (s.tick.count - c.tick) s

/-! ### The share table (R305, R306) -/

/-- Data pages assigned in LOG sets in service, and the effective Shallows size in data pages. -/
def shallowsUsed (s : State) : Nat := ((s.mtl.map.sets.filter (fun e => e.2.kind == kLOG)).map (fun e => e.2.assigned)).sum
def shallowsPages (s : State) : Nat := s.mtl.size * 262144

/-- Free fraction F in percent, rounded down (R305). -/
def freePercent (s : State) : Nat :=
  if shallowsPages s = 0 then 100 else (shallowsPages s - shallowsUsed s) * 100 / shallowsPages s

/-- The row in force from the row before (R305, R306): a row is left only past its margin. -/
def shareRow (s : State) : Nat :=
  let old := fld s F.MTL_SHARE_ROW
  let free := freeSets s
  let p := shallowsPages s
  let u := p - shallowsUsed s
  let below := fun (pc : Nat) => decide (u * 100 < pc * p)
  if free < 64 ∨ (old = 0 ∧ free < 96) then 0
  else if inGuard s || bit s F.LC_CLEAN_CTL_FORCE then 1
  else if below 25 || (old == 2 && below 30) then 2
  else if below 50 || (old == 3 && below 55) then 3
  else 4

/-- Writeback, Overturn and Dredge shares of a row from the committed ones (R305). -/
def rowShares (row w o d : Nat) : Nat × Nat × Nat :=
  match row with
  | 0 => (8, 0, w + o + d - 8)
  | 1 => (w + o, 0, d)
  | 2 => (8, o + w - 8, d)
  | 3 => (w - (w - 8) / 2, o + (w - 8) / 2, d)
  | _ => (w, o, d)

/-- At a boundary the row, F and the effective shares follow (R305, R306). -/
def shareTick (s : State) : State :=
  let s := if mtlRuns s then spareEval 64 s else s
  let row := shareRow s
  let f := freePercent s
  let old := fld s F.MTL_SHARE_ROW
  let s := setF F.MTL_SHARE_ROW row s |> setF F.MTL_SHARE_F f
  let lo := s.reg Reg.TICK_BUDGET_LO
  let c := shares lo (s.reg Reg.TICK_BUDGET_HI)
  let (w, o, d) := rowShares row (lat 0 c 1) (lat 0 c 2) (lat 0 c 3)
  let s := s.putReg Reg.TICK_BUDGET_EFF_LO (BitVec.ofNat 32 (lat 0 c 0 + w * 2 ^ 8 + o * 2 ^ 16 + d * 2 ^ 24))
  if row = old then s else sed 0x0532 sDEBUG 6 row f (freeSets s) s

/-! ### Power-fail flush (R313) -/

/-- A record whose capture is abandoned: its marks are cleared (R294). -/
def unmark (r : MergeRec) : MergeRec := { r with captured := false, ents := r.ents.map (fun e => { e with mark := false }) }

/-- A stride abandoned: the engine holds nothing. -/
def Shore.dropStride (x : Shore) : Shore :=
  { x with step := 0, delay := false, caps := [], again := [], target := none, jseq := none, waitSeqs := [], adv := [], hotLeft := [], resets := [] }

/-- Abandon every capture and every copy that is not committed; their unprogrammed pages are dropped. -/
def mtlAbandon (s : State) : State :=
  let gone := s.mtl.folds.filter (fun f => f.jseq.isNone)
  let s := forEach gone (fun f s =>
    match tfind s.mtl.map.merge f.mrec with
    | some r => putMerge f.mrec (unmark r) s
    | none => s) s
  let sh := s.icu.shore
  let s : State := match sh.jseq, mergeOf s (reachOf sh.b) with
    | none, some (k, r) => if 3 ≤ sh.step then putMerge k (unmark r) s else s
    | _, _ => s
  let moves : List (Nat × JBody) := match s.mtl.dredge with | some d => d.moves.filter (fun m => m.1 != 0) | none => []
  let m : Mtl := { s.mtl with
    folds := s.mtl.folds.filter (fun f => f.jseq.isSome)
    dredge := s.mtl.dredge.map (fun d => { d with moves := moves }) }
  { s with mtl := m, icu := { s.icu with shore := if sh.jseq.isNone then sh.dropStride else sh } }

/-- Close every log page, complete every open row, append FLUSH_END and pad the journal row. -/
def mtlFlushEnd (s : State) : State :=
  let s := closeLog true (closeLog false s)
  -- the journal set is there before FLUSH_END, so that no record of its forming follows
  let s := jClose s
  let s := match setWithRoom kJOURNAL 1 s with | some (t, _) => t | none => s
  let s := jPut (.flushEnd (s.mtl.pageSeq - 1) s.mtl.wseq) s
  let s := forEach (List.range 4) (fun _ s => jClose s) s
  forEach (s.mtl.map.sets.filter (fun e => e.2.st == .opened)) (fun e s => fillRow e.1 s) s

/-! ### Recovery (R314 to R316) -/

/-- What replay notes beside the map: FOLD_SEQ by reach, relocations, pages that are dead, intents and endings. -/
structure Replay where
  foldSeq : Tbl Nat
  relocs : List (Nat × Nat × Nat)
  dead : List (Nat × Nat)
  intents : List Nat
  size : Nat
  flushed : Bool
deriving DecidableEq, Repr

/-- Replay one journal record onto the map. -/
def replayRec (p : State × Replay) (r : JRec) : State × Replay :=
  let (s, x) := p
  let x := { x with flushed := false }
  match r.body with
  | .foldCommit reach n k _ fs =>
    let s := match mergeOf s reach with
      | some (i, m) =>
        let ents := m.ents.filter (fun e => e.poison || decide (fs ≤ e.wseq))
        if ents.isEmpty then putReach reach (some (.deeps n k)) (modMap (fun y => { y with merge := tdel i y.merge }) s)
        else putMerge i { m with deeps := some (n, k), captured := false, foldNow := false, ents := ents } s
      | none => putReach reach (some (.deeps n k)) s
    (s, { x with foldSeq := tput reach fs x.foldSeq })
  | .reachMove reach n k o so => (moveApply reach n k o so s, x)
  | .relocCommit dst q src => (s, { x with relocs := x.relocs ++ [(dst, q, src)] })
  | .setForm n die plane kind _ _ =>
    let sset := if kind = kLOG then firstFree ((s.mtl.map.sets.filter (fun e => e.2.kind == kLOG)).map (fun e => e.2.sset)) else 0
    let b : BlockSet :=
      { kind := kind, die := die, plane := plane, members := [], st := .opened, sset := sset, assigned := 0, programmed := []
        rows := [], dead := [], lastProg := epoch s, firstClose := none, toErase := [], eraseBad := [] }
    (modMap (fun m => { m with sets := tput n b m.sets }) s, x)
  | .setMembers n _ l => (modSet n (fun b => { b with members := b.members ++ l }) s, x)
  | .pageDead n q _ => (s, { x with dead := x.dead ++ [(n, q)] })
  | .eraseIntent n => (s, { x with intents := x.intents ++ [n] })
  | .eraseDone n _ =>
    (match setOf s n with
     | some b =>
       let cost := if setDeeps b then 10 else 1
       let s := forEach b.members (fun m s => modMap (fun y => { y with
         wear := tmod 0 (blockKey m.1 b.die b.plane m.2) (· + cost) y.wear }) s) s
       (modMap (fun y => { y with sets := tdel n y.sets }) s, { x with intents := x.intents.filter (· != n) })
     | none => (s, x))
  | .blockRetire c d pl b cause => (modMap (fun m => { m with retired := tput (blockKey c d pl b) cause m.retired }) s, x)
  | .unmap first n =>
    let old := s.mtl
    let t := unmapReaches first n s
    ({ t with mtl := { old with map := t.mtl.map } }, x)
  | .flushEnd _ _ => (s, { x with flushed := true })
  | .shallowsSize g => (s, { x with size := g })
  | .ckptBegin _ _ _ | .ckptEnd _ _ _ => (s, x)

/-- Rows of a set that lie whole on the media. -/
def mediaRows (s : State) (b : BlockSet) : List Nat :=
  (List.range (if setDeeps b then 768 else 256)).filter (fun p =>
    b.members.all (fun m =>
      match tfind s.media.blocks (blockKey m.1 b.die b.plane m.2) with
      | some x => decide ((if setDeeps b then p / 3 else p) < x.nextWl)
      | none => false))

/-- A set's state after a start: its durable rows; it stays OPEN when every page programmed lies in one of them. -/
def setRestart (n : Nat) (s : State) : State :=
  modSet n (fun b =>
    if b.kind = kCKPT then
      -- sets of the loaded generation stay; those of one that did not end are released (R315)
      { b with st := if s.mtl.ckpt.any (fun c => c.sets.contains n) then .full else .dredged, toErase := [], eraseBad := [] }
    else
    let rows := mediaRows s b
    let words := b.members.map (fun m => match tfind s.media.blocks (blockKey m.1 b.die b.plane m.2) with | some x => x.nextWl | none => 0)
    let total := if setDeeps b then 768 else 256
    let even := words.all (fun w => w == lat 0 words 0)
    { b with
      rows := rows, programmed := [], firstClose := none, toErase := [], eraseBad := []
      assigned := rows.length * (b.members.length - 1)
      st := if b.st = .opened ∧ (rows.length = total ∨ !even) then .full
            else if b.st = .erasing ∨ b.st = .dredged then .full else b.st }) s

/-- Copies that the manifests of a set give: line, sequence, poison, hot and slot (R314 step 3). -/
def manifest (s : State) (from_ : Nat) (dead : List (Nat × Nat)) (n : Nat) (b : BlockSet) :
    List (Nat × Nat × Bool × Bool × Nat × Nat) :=
  (List.range b.assigned).flatMap (fun q =>
    match tfind s.media.pages (pagePsa b n q 0 / 8) with
    | some (.log _ man ps _ _ reloc) =>
      if reloc || decide (ps < from_) || dead.contains (n, q) then []
      else man.zipIdx.filterMap (fun e =>
        if e.1.superseded then none else some (e.1.line, e.1.wseq, e.1.poison, e.1.hot, b.sset, 56 * q + e.2))
    | _ => [])

/-- Sequence of the entry that the map holds for a line. -/
def entrySeq (s : State) (l : Nat) : Option Nat :=
  match fineFind s l with
  | some e => some e.wseq
  | none => match mergeOf s (reachOf l) with
    | some (_, r) => (r.ents.find? (fun e => e.off == l % 1024)).map (·.wseq)
    | none => none

/-- Apply a LOG copy (R314 step 4). -/
def applyCopy (fs : Tbl Nat) (c : Nat × Nat × Bool × Bool × Nat × Nat) (s : State) : State :=
  let (line, w, poison, hot, sset, slot) := c
  let late := match tfind fs (reachOf line) with | some f => decide (f ≤ w) | none => true
  let same := match entrySeq s line with | some v => decide (w ≤ v) | none => false
  if !late || same then s
  else if hot && (fineFind s line).isNone && decide ((bucketOf s line).length < 8) then
    fineAdd line w poison sset slot (dropMergeEnt line s)
  else (mapPut line (lineKeyOf s line) w poison sset slot s).1

/-- A page reads ERASED at a start: the part reports it, or it never reached the media. -/
def pageGone (s : State) (erased : List (Nat × Nat)) (n q : Nat) : Bool := erased.contains (n, q) || (pageBody s n q).isNone

/-- Lines whose Shallows entry refers to a page: line, slot and sequence. -/
def pageLines (s : State) (n q : Nat) : List (Nat × Nat × Nat) :=
  (validLines s (ssetOf s n)).filter (fun x => x.2.1 / 56 == q)

/-- Pages that the map refers to: of LOG sets by their valid lines, of DEEPS sets by their reaches (R316). -/
def referredPages (s : State) : List (Nat × Nat) :=
  s.mtl.map.sets.flatMap (fun e =>
    if e.2.kind = kLOG then ((validLines s e.2.sset).map (fun x => (e.1, x.2.1 / 56))).eraseDups
    else if e.2.kind = kDEEPS then (validReaches s e.1).flatMap (fun x => (List.range 16).map (fun k => (e.1, 16 * x.2 + k)))
    else [])

/-- A page can be rebuilt from its row (R247): every other member's page is on the media of a die in service. -/
def pageRebuilds (s : State) (erased : List (Nat × Nat)) (n q : Nat) : Bool :=
  match setOf s n with
  | none => false
  | some b =>
    let (m, p) := memberOf b n q
    (List.range b.members.length).all (fun k =>
      k == m ||
      (let (ch, blk) := lat (0, 0) b.members k
       dieOnline s (ch * 8 + b.die) && (tfind s.media.pages (psaOf ch b.die b.plane blk p 0 / 8)).isSome &&
       (k == parityOf b n p || !erased.contains (n, dataPage b n k p))))

/-- Enter a line as POISON after it could not be rebuilt (R316, R41). -/
def lineLost (line : Nat) (s : State) : State :=
  let (t, r) := mapPut line (lineKeyOf s line) s.mtl.wseq true 0 0 s
  mediaEvent line (poisonAdd line 1 (if r.isNone then s else t))

/-- The sealed line at an index of a page, rebuilt from the page's row (R247). -/
def rebuiltLine (s : State) (n q i : Nat) : Sealed :=
  match setOf s n with
  | some b => sealedOf (rebuiltInfo s (pagePsa b n q (i / 8))) (i % 8)
  | none => ⟨0, 0, 0, 0⟩

/-- Relocate the lines of a rebuilt log page: each goes into a RELOC page and its entry follows (R316). -/
def relocRebuilt (n q : Nat) (s : State) : State :=
  let s := forEach (pageLines s n q) (fun x s =>
    match logPageFor true x.2.2 s with
    | none => s
    | some (s, p) =>
      let s' := addSlot true p (rebuiltLine s n q (x.2.1 % 56)) ⟨x.1, x.2.2, isHot s x.1, false, false, true⟩ s
      rePoint x.1 0 (ssetOf s n) x.2.1 (ssetOf s p.set) (56 * p.page + p.slots.length) false s') s
  closeLog true s

/-- Relocate the reach of a rebuilt Deeps page whole (R316). -/
def moveRebuilt (erased : List (Nat × Nat)) (n q : Nat) (s : State) : State :=
  forEach ((validReaches s n).filter (fun x => x.2 == q / 16)) (fun x s =>
    let lines := (List.range 1024).map (fun o =>
      let pg := 16 * x.2 + o / 64
      if pageGone s erased n pg then rebuiltLine s n pg (o % 64) else (sealedAt s n pg (o % 64)).getD ⟨0, 0, 0, 0⟩)
    match placeReach x.1 lines s with
    | some (s, m, k) => moveApply x.1 m k n x.2 s
    | none => s) s

/-- Lines that the map finds on a page. -/
def linesOn (s : State) (n q : Nat) : List Nat :=
  match setOf s n with
  | none => []
  | some b =>
    if b.kind = kLOG then (pageLines s n q).map (·.1)
    else
      ((validReaches s n).filter (fun x => x.2 == q / 16)).flatMap (fun x =>
        ((List.range 64).map (fun o => x.1 * 1024 + q % 16 * 64 + o)).filter (fun l =>
          match mtlLookup s l with | .at_ a p _ => a == n && p == q | _ => false))

/-- A page that the map refers to reads ERASED (R316): it is rebuilt and relocated; lines that cannot be rebuilt are entered
as POISON. -/
def erasedRef (erased : List (Nat × Nat)) (e : Nat × Nat) (s : State) : State :=
  let (n, q) := e
  if !pageGone s erased n q || (linesOn s n q).isEmpty then s
  else if pageRebuilds s erased n q then
    let log := match setOf s n with | some b => b.kind == kLOG | none => false
    sed 0x0502 sCRITICAL 6 n q 0 (if log then relocRebuilt n q s else moveRebuilt erased n q s)
  else
    let l := linesOn s n q
    forEach l lineLost (sed 0x0502 sCRITICAL 6 n q l.length s)

/-- MTL_RECOVERY's effect: Pond DRAM is rebuilt from the checkpoint, the journal and the manifests; `erased` lists pages
that read ERASED (R316). The layer runs when the inline crypt unit has recovered too (R339). -/
def doMtlRecovery (erased : List (Nat × Nat)) (s : State) : State :=
  if !coreOn s || s.mtl.ready || fld s F.MTL_STAT_STATE ≠ 0 then s else
  let c := s.mtl.ckpt
  let from_ := match c with | some c => c.pageSeq | none => 0
  let jfrom := match c with | some c => c.jseq | none => 0
  let s := { s with mtl := { s.mtl with
    map := match c with | some c => c.map | none => MapState.init
    lost := [], unplaced := [], sealedQ := [], logPage := none, relocPage := none, wbuf := [], folds := [], dredge := none
    dredgeOn := false, jopen := [], jpend := [], ckptRun := none } }
  let recs := s.mtl.jdone.filter (fun r => decide (jfrom ≤ r.jseq))
  let x0 : Replay := ⟨[], [], [], [], 0, false⟩
  let (s, x) := recs.foldl replayRec (s, x0)
  let s := forEach (s.mtl.map.sets.map (·.1)) setRestart s
  let s := modMap (fun m => { m with merge := m.merge.map (fun e => (e.1, { e.2 with captured := false, ents := e.2.ents.map (fun y => { y with mark := false }) })) }) s
  -- step 3 and 4: the LOG copy of the highest sequence of each line
  let copies := (s.mtl.map.sets.filter (fun e => e.2.kind == kLOG && !x.intents.contains e.1)).flatMap (fun e => manifest s from_ x.dead e.1 e.2)
  let newest := copies.filter (fun a => !copies.any (fun b => b.1 == a.1 && decide (a.2.1 < b.2.1)))
  let s := forEach newest (applyCopy x.foldSeq) s
  let s := forEach x.relocs (fun r s => relocApply r.1 r.2.1 r.2.2 s) s
  -- step 5: erases named by an intent without an ending
  let s := forEach x.intents (fun n s => recDurable ⟨0, .eraseIntent n⟩ s) s
  -- step 7: the counters resume
  let high := copies.foldl (fun m a => max m a.2.1) (match c with | some c => c.wseq | none => 0)
  let high := max high s.mtl.wseq
  let jnext := recs.foldl (fun m r => max m (r.jseq + 1)) (max jfrom s.mtl.jseq)
  let orphans := (copies.filter (fun a => !refersTo s a.1 a.2.2.2.2.1 a.2.2.2.2.2)).length
  let size := match s.cfg with | some i => i.shallows | none => (if s.mtl.size = 0 then (if s.variant = 0 then 96 else 48) else s.mtl.size)
  let eff := if s.mtl.committed = size ∧ 0 < x.size then x.size else if s.mtl.committed = size ∧ 0 < s.mtl.size then s.mtl.size else size
  let s := { s with mtl := { s.mtl with wseq := high + (if copies.isEmpty ∧ c.isNone then 0 else 65536), jseq := jnext
                                        committed := size, size := eff, ready := true } }
  let s := forEach (referredPages s) (erasedRef erased) s
  let (t, s) := draw 16 s
  let s := setF F.MTL_RECOVERY_TIME t.toNat s |> setB F.MTL_RECOVERY_FLUSHED x.flushed
  sed 0x0500 sINFO 6 t.toNat orphans (if x.flushed then 1 else 0) s

/-- MTL_RECOVERY (R314 to R316). -/
def execMtlRecovery (erased : List (Nat × Nat)) (s : State) : Host.Outcome State Fault Refusal := run (doMtlRecovery erased) s

/-! ### Register writes (R318) -/

/-- A write of MTL_DREDGE_CTL from the management side (R318): LEVEL outside its range is kept (log entry 131). -/
def doMtlDredgeCtl (path : Nat) (v : BitVec 32) (s : State) : State :=
  if !isMgmt path then s
  else if F.MTL_DREDGE_CTL_STOP.get v ≤ F.MTL_DREDGE_CTL_START.get v then setF F.MTL_ERR_CFG 1 s
  else
    let l := F.MTL_DREDGE_CTL_LEVEL.get v
    let keep := fld s F.MTL_DREDGE_CTL_LEVEL
    setF F.MTL_DREDGE_CTL_LEVEL (if 5 ≤ l ∧ l ≤ 100 then l else keep) (s.putReg Reg.MTL_DREDGE_CTL (v &&& 0xFF3FF3FF))

/-! ### Data moved off a retired unit (R302) -/

/-- The rebuild ends when no set has a member on a RETIRED die or channel. -/
def rebuildEnds (s : State) : State :=
  if bit s F.MTL_STAT_REBUILD && !s.mtl.map.sets.any (fun e => onRetired s e.2) then
    let unit := match (List.range 16).find? (fun c => chanState s c == 6) with
      | some c => c + 256
      | none => ((List.range 128).find? (fun k => dieState s k == 4)).getD 0
    setF F.MTL_STAT_REBUILD 0 s |> sed 0x0522 sERROR 6 1 unit 0
  else s

end Sys2Proof.Machine
end

