-- ==== Sys2Proof/Machine/Icu.lean ====
section
/-! DEFINITION. The inline crypt unit's commands (chapter 08): sealing write-backs (R323 to R327), re-MAC (R345), node
sets (R336), recovery and the halt (R339, R354 to R357), and Shoreline (R358 to R368). -/

namespace Sys2Proof.Machine

/-! ### Sealing (R323 to R327) -/

/-- The unit seals: it has recovered, no halt is in force and PD_CORE is on (R353). -/
def icuRuns (s : State) : Bool := coreOn s && !inHalt s && (fld s F.ICU_STAT_STATE == 1 || fld s F.ICU_STAT_STATE == 3)

/-- TREE_ROOT waits in the Gauge's queue. -/
def rootQueued (s : State) : Bool :=
  let is := fun (r : GReq) => r.op.block == G.treeRoot
  s.gauge.prioQ.any is || s.gauge.waiting.any is || (match s.gauge.cur with | some w => is w.req | none => false)

/-- An eviction-buffer entry may be sealed now: no earlier write-back of its line waits (R326), no re-MAC holds its leaf
(R344), and Shoreline does not delay its reach (R361). -/
def sealable (s : State) (x : Slice) (e : EbEnt) : Bool :=
  !x.eb.any (fun b => b.line == e.line && decide (b.wseq < e.wseq) && !b.passed) && !majorWaits s e.line &&
  !(s.icu.shore.delay && shoreHeld s == some (reachOf e.line))

/-- The entries of a slice of the kind that may be issued next (R194, R195): eviction write-backs before the cleaner's,
or one for one at raised priority. -/
def sealCands (s : State) (x : Slice) : List EbEnt :=
  let l := x.eb.filter (fun e => !e.passed && sealable s x e)
  let ev := l.filter (fun e => !e.cleaner)
  let cl := l.filter (fun e => e.cleaner)
  if ev.isEmpty then cl else if cl.isEmpty then ev
  else if raised s && !x.lastCleaner then cl else ev

/-- The write-back that is sealed next: the lowest write sequence of those the slices may issue (R323, R326). -/
def sealNext (s : State) : Option (Nat × EbEnt) :=
  (s.slices.flatMap (fun n => (sealCands s n.2).map (fun e => (n.1, e)))).foldl
    (fun (b : Option (Nat × EbEnt)) e => match b with | some y => if e.2.wseq < y.2.wseq then some e else b | none => some e) none

/-- A write-back is discarded: its sequence is withdrawn (R204, R326, R735). -/
def dropWb (n : Nat) (e : EbEnt) (s : State) : State :=
  let s := modSlice n (fun x => { x with eb := x.eb.filter (fun b => b.wseq != e.wseq) }) s
  retryWays n { s with mtl := { s.mtl with unplaced := s.mtl.unplaced.filter (fun u => u.wseq != e.wseq) } }

/-- Hand a sealed line to the translation layer (R323 step 6), counting it. -/
def handOver (line wseq key : Nat) (poison : Bool) (x : Sealed) (s : State) : State :=
  let s := count 0x40 0 1 (satInc F.ICU_CNT_SEAL_COUNT s)
  let sh := s.icu.shore
  let again := if shoreHeld s = some (reachOf line) ∧ sh.step = 3 ∧ !sh.again.contains (line % 1024) then sh.again ++ [line % 1024] else sh.again
  { s with
    mtl := { s.mtl with sealedQ := s.mtl.sealedQ ++ [⟨line, wseq, key, poison, x, false⟩] }
    icu := { s.icu with shore := { sh with again := again } } }

/-- A seal pipe's armed injection (R434 point 0x24): the number of mismatches it makes. -/
def sealInj (s : State) : State × Nat :=
  match (List.range 4).find? (fun p => injArmed s 0x24 p) with
  | some _ => (injFire 2 0 s, fld s F.MEMP_INJ_CTL_MODE)
  | none => (s, 0)

/-- SEAL_WRITEBACK's effect; `mism` is the number of comparison mismatches the seal meets in its pipes. -/
def doSeal (mism : Nat) (s : State) : State :=
  if !icuRuns s then s else
  match sealNext s with
  | none => s
  | some (n, e) =>
    if quarantined s e.line then dropWb n e s                          -- R349
    else if !isInternal s e.line && s.icu.purged.contains e.key then dropWb n e s
    else if !s.icu.rootOpen then (if rootQueued s then s else putTreeRoot false s)   -- R337
    else
      let (s, inj) := sealInj s
      let m := max mism inj
      let s := pipeMismatch 0 (min m 8) e.line s
      if 0 < m ∧ cfgErase s then dropWb n e s                          -- R735
      else if 8 ≤ m then integrityFail ⟨6, 0, if isInternal s e.line then 0x8000 else e.key, e.line, none, 0, 0, 0, 0, 0, none⟩ s
      else
        match sealGen s e.line e.key with
        | none => dropWb n e s
        | some g =>
          let (s, bad) := verifyPath 4 0 e.line false s
          match bad with
          | some level =>
            integrityFail ⟨2, 0, if isInternal s e.line then 0x8000 else e.key,
              nodeIdent level (e.line / 2 ^ (6 + 4 * level)), failedPsa s e.line level, 0, 0, 0, 0, 0, none⟩ s
          | none =>
            let s := advanceCounters e.line s
            let x := sealWith g e.line (if isInternal s e.line then 5 else 1) e.poison e.data s
            let s := modSlice n (fun y => { y with
              lastCleaner := e.cleaner, eb := y.eb.map (fun b => if b.wseq = e.wseq then { b with passed := true } else b) }) s
            handOver e.line e.wseq e.key e.poison x s

/-- SEAL_WRITEBACK (R323 to R327, R735). -/
def execSealWriteback (mism : Nat) (s : State) : Host.Outcome State Fault Refusal := run (doSeal mism) s

/-! ### Scan Media (R114, R116) -/

/-- Lines of a range that the map holds on the media, in ascending order of their map entries. -/
def mappedLines (s : State) (a b : Nat) : List Nat :=
  let inside := fun (l : Nat) => decide (a ≤ l) && decide (l < b)
  let reach := (s.mtl.map.reachMap.map (·.1)).flatMap (fun r =>
    if r * 1024 < b ∧ a < (r + 1) * 1024 then ((List.range 1024).map (fun o => r * 1024 + o)).filter inside else [])
  let fine := (s.mtl.map.fine.flatMap (fun e => e.2.map (fun x => fineLine s e.1 x.tag))).filter inside
  (reach ++ fine.filter (fun l => !reach.contains l)).filter (scanReads s)

/-- The scan opens a line of its range and verifies its MAC (R328), under the key index that the device knows for it (log
entry 46); a halt ends the scan's reads. -/
def scanOpen (auth line : Nat) (s : State) : State :=
  if inHalt s then s else
  match mtlLookup s line with
  | .at_ n q i =>
    (match sealedAt s n q i with
     | some x =>
       let psa := locPsa s (.at_ n q i)
       (openLine line (lineKeyOf s line) x psa 1 auth none (bgSense psa 5 1 s)).1
     | none => s)
  | _ => s

/-- The scan ends (R114, R116): `bad` are the lines of its range found uncorrectable, `fail` a line whose open fails with
what it meets (R352). A scan that was aborted has opened no line but that one (DESIGN CHOICE, log entry 166: how far it came
is no operand). -/
def doScanDone (bad : List Nat) (fail : Option (Nat × Nat)) (s : State) : State :=
  match s.mgmt.bg with
  | some (.scan path h a b _ quiet abort _) =>
    let good := if abort then [] else (mappedLines s a b).filter (fun l => !bad.contains l && (fail.map (·.1)) != some l)
    let s := forEach good (scanOpen 0) s
    let s := match fail with
      | some (line, auth) => if decide (a ≤ line) && decide (line < b) && scanReads s line then scanOpen auth line s else s
      | none => s
    let found := (bad.filter (fun l => decide (a ≤ l) && decide (l < b) && scanReads s l)).eraseDups
    let s := forEach found (fun l s => let s := poisonAdd l 1 s; if quiet then s else mediaEvent l s) s
    let s := modHead h (fun x => { x with scanLeft := found }) s
    let s := bgSet path 0x4304 100 rcSuccess { s with mgmt := { s.mgmt with bg := none } }
    emit (.bgDone path 0x4304 rcSuccess) s |> sed 0x0142 sINFO 0 h found.length (if abort then 1 else 0)
  | _ => s

/-- SCAN_DONE (R114, R116). -/
def execScanDone (bad : List Nat) (fail : Option (Nat × Nat)) (s : State) : Host.Outcome State Fault Refusal :=
  run (doScanDone bad fail) s

/-! ### Write-backs that the unit makes itself (R345, R361 step 6) -/

/-- Seal a line from its plaintext as a write-back of a class, with the next write sequence and an eviction-buffer entry
already passed: the sequence, where a key and an entry are there. -/
def ownWb (line key cls : Nat) (poison : Bool) (d : Line) (s : State) : Option (State × Nat) :=
  let n := sliceNo line
  if 16 ≤ (sliceOf s n).eb.length || majorWaits s line then none else
  match sealGen s line key with
  | none => none
  | some g =>
    let w := s.mtl.wseq
    let s := ebEnter line key poison d true s
    let s := modSlice n (fun y => { y with eb := y.eb.map (fun b => if b.wseq = w then { b with passed := true } else b) }) s
    let s := advanceCounters line s
    some (handOver line w key poison (sealWith g line cls poison d s) s, w)

/-- The bit of a line in its leaf's RESEAL mask. -/
def resealSet (s : State) (line : Nat) : Bool := (leafOf s.icu.tree (line / 64)).reseal.getLsbD (line % 64)

/-- Clear a line's RESEAL bit without a write (R345). -/
def resealClear (line : Nat) (s : State) : State :=
  let l := leafOf s.icu.tree (line / 64)
  let l : Leaf := { l with reseal := l.reseal &&& ~~~ ((1 : BitVec 64) <<< (line % 64)) }
  touchNode 0 (line / 64) (modTree (fun t => { t with leaves := tput (line / 64) l t.leaves }) s)

/-- REMAC_REWRITE's effect (R345): it takes its turn when no operation on the line is queued before it. -/
def doRemac (line : Nat) (s : State) : State :=
  if !icuRuns s || !resealSet s line || inAmq s line || quarantined s line then s else
  let counted := fun (s : State) => satInc F.ICU_CNT_REMAC_COUNT s
  let own := fun key poison d (s : State) => match ownWb line key 4 poison d s with | some (t, _) => counted t | none => s
  match findWay s line, findEb s line, findMerge s line, findCove s line with
  | some (_, w), none, none, _ =>
    if w.st = .clean then own w.key w.poison w.data s else s
  | none, none, none, some c => own c.key c.poison c.data s
  | none, none, none, none =>
    (match mtlLookup s line with
     | .at_ n q i =>
       (match sealedAt s n q i with
        | some x =>
          let key := lineKeyOf s line
          let psa := locPsa s (.at_ n q i)
          let (t, r) := openLine line key x psa 3 0 none (bgSense psa 1 1 s)
          (match r with
           | .ok d p => own key p d t
           | _ => t)
        | none => s)
     | _ => resealClear line s)
  | _, _, _, _ => s

/-- REMAC_REWRITE (R345). -/
def execRemacRewrite (line : Nat) (s : State) : Host.Outcome State Fault Refusal := run (doRemac line) s

/-! ### Node sets (R336) -/

/-- Valid pages of a node set: copies that the group locator table names. -/
def nodeValid (s : State) (n : Nat) : List Nat :=
  s.icu.groups.filterMap (fun e => if e.2.pageA / 2 ^ 14 = n ∨ e.2.pageB / 2 ^ 14 = n then some e.1 else none)

/-- NODESET_COMPACT's effect. -/
def doCompact (s : State) : State :=
  if !mtlBackground s then s else
  let sets := s.mtl.map.sets.filter (fun e => e.2.kind == kNODE && (e.2.st == .opened || e.2.st == .full))
  let valid := s.icu.groups.length * 2
  let per := match sets.head? with | some e => setPages e.2 | none => 1
  if sets.length * 4 ≤ 5 * ceilDiv valid per then s else
  let best := (sets.filter (fun e => e.2.st == .full)).foldl (fun (b : Option (Nat × Nat)) e =>
    let v := (nodeValid s e.1).length
    match b with | some (_, w) => if v < w then some (e.1, v) else b | none => some (e.1, v)) none
  match best with
  | none => s
  | some (n, v) =>
    let s := forEach (nodeValid s n) groupWrite s
    if (nodeValid s n).isEmpty then
      sed 0x0660 sDEBUG 3 n v 0 (modSet n (fun b => { b with st := .dredged }) s)
    else s

/-- NODESET_COMPACT (R336). -/
def execNodesetCompact (s : State) : Host.Outcome State Fault Refusal := run doCompact s

/-! ### Recovery and the halt (R339, R354 to R357) -/

/-- Every pinned node that the groups hold verifies against the root counters (R339 step 4, R352). -/
def pinnedGood (s : State) : Bool :=
  s.icu.tree.uppers.all (fun e =>
    let level := e.1 / 2 ^ 40
    !(decide (4 ≤ level) && decide (level ≤ 7)) || nodeGood s level (e.1 % 2 ^ 40))

/-- Release every host reach (R357): the reaches unmapped. -/
def discardAll (s : State) : State × Nat :=
  let n := ceilDiv (lineEnd s) 1024
  let used := (s.mtl.map.reachMap.filter (fun e => decide (e.1 < n))).length
  (unmapReaches 0 n s, used)

/-- ICU_RECOVERY's effect; `lost` lists groups of which no copy rebuilds, as level * 2^40 + number (R339, R347, R349). -/
def doIcuRecovery (lost : List Nat) (s : State) : State :=
  if !coreOn s || !s.mtl.ready || fld s F.ICU_STAT_STATE ≠ 0 || inHalt s then s else
  let root := gTreeRoot s
  let quar := (gQuar s).map (fun q => (⟨q.1, q.2⟩ : QuarEnt))
  let rootNode : Upper := { Upper.init with counters := (List.range 16).filterMap (fun k =>
    let v := lat 0 root.counters k
    if v = 0 then none else some (k, v)) }
  let loaded : Tree := { leaves := s.icu.mediaTree.leaves, uppers := tput (nodeKey 8 0) rootNode s.icu.mediaTree.uppers }
  let fresh := root.clean && root.nodeSeq == 0 && root.locator.isNone
  let discard := s.icu.discardArmed
  let s := { s with icu := { s.icu with
    tree := if fresh || discard then ⟨[], []⟩ else loaded
    groups := if fresh || discard then [] else s.icu.groups
    mediaTree := if fresh || discard then ⟨[], []⟩ else s.icu.mediaTree
    nodeSeq := if fresh then 0 else max s.icu.nodeSeq root.nodeSeq
    locator := root.locator, onDie := [], pond := [], writeback := [], dirtyGroups := [], quar := quar
    report := root.report, deferred := root.deferred, rootOpen := false, purged := [] } }
  let s := if discard then
      let (s, n) := discardAll s
      let s := setF F.ICU_HALT_CTL_DISCARD 0 { s with icu := { s.icu with discardArmed := false } }
      sed 0x0602 sCRITICAL 3 (n % 2 ^ 32) 0 0 (quarEnds s)
    else s
  let s := setF F.ICU_QUAR_STAT_COUNT quar.length s |> setB F.ICU_STAT_ROOT_UNCLEAN (!root.clean && !discard)
  let s := forEach lost (fun g s => quarantine (g / 2 ^ 40) (g % 2 ^ 40) 0 s) s
  let s := setF F.ICU_STAT_STATE 1 (setF F.MTL_STAT_STATE 1 s)
  let s := doCkptBegin (spareEval 64 s)   -- R314 step 7
  let (t, s) := drawLe 500 s
  let s := sed 0x0600 sINFO 3 t s.icu.groups.length 0 s
  if !root.clean && !discard then
    -- R357: the replay question is open
    let s := sed 0x0601 sALERT 3 (root.nodeSeq % 2 ^ 32) 0 0 s
    integrityFail ⟨4, 5, 0, 0, none, 0, 0, 0, 0, 0, none⟩ s
  else
    match s.icu.deferred with
    | some (k, p, i) =>
      -- R354: the halt that the flush deferred is entered now
      let s := setF F.ICU_HALT_CAUSE_KIND k s |> setF F.ICU_HALT_CAUSE_PATH p |> setF F.ICU_HALT_ID_LO_ID (i % 2 ^ 32)
        |> setF F.ICU_HALT_ID_HI_ID (i / 2 ^ 32)
      haltEnter k p i 0 (putTreeRoot false { s with icu := { s.icu with deferred := none } })
    | none =>
      if !fresh && !discard && !pinnedGood s then integrityFail ⟨5, 5, 0, 0, none, 0, 0, 0, 0, 0, none⟩ s
      else putTreeRoot false s

/-- ICU_RECOVERY (R339, R357). -/
def execIcuRecovery (lost : List Nat) (s : State) : Host.Outcome State Fault Refusal := run (doIcuRecovery lost) s

/-- A write of ICU_HALT_CTL (R357, R369): only from the Tuten port in a ROOT_UNCLEAN halt. -/
def doDiscard (path : Nat) (v : BitVec 32) (s : State) : State :=
  if path = tuten ∧ fld s F.ICU_HALT_CAUSE_KIND = 4 ∧ v.getLsbD 0 = true then
    setF F.ICU_HALT_CTL_DISCARD 1 { s with icu := { s.icu with discardArmed := true } }
  else s

/-- ICU_HALT_CTL_DISCARD (R357, R369). -/
def execIcuHaltCtlDiscard (path : Nat) (v : BitVec 32) (s : State) : Host.Outcome State Fault Refusal := run (doDiscard path v) s

/-- HALT_REPORT (R356). -/
def doHaltReport (path : Nat) (input : List Byte) (s : State) : State :=
  cmd path 0xC080 input input.isEmpty (fun s =>
    answer path 0xC080 rcSuccess (if s.icu.report.isEmpty then (gTreeRoot s).report else s.icu.report) s) s

def execHaltReport (path : Nat) (input : List Byte) (s : State) : Host.Outcome State Fault Refusal := run (doHaltReport path input) s

/-! ### Shoreline (R358 to R368) -/

/-- Ranges of a command's payload, as first line and line count: base and length pairs at an offset. -/
def rangesAt (input : List Byte) (o n : Nat) : List (Nat × Nat) :=
  (List.range n).map (fun r => (at' input (o + 16 * r) 8 / 64, at' input (o + 8 + 16 * r) 8 / 64))

/-- Ranges aligned to 64 KiB, not empty, apart and within the exported capacity (R359). -/
def rangesOk (s : State) (input : List Byte) (o n : Nat) : Bool :=
  let l := rangesAt input o n
  (List.range n).all (fun r =>
    at' input (o + 16 * r) 8 % 65536 == 0 && at' input (o + 8 + 16 * r) 8 % 65536 == 0 && decide (0 < at' input (o + 8 + 16 * r) 8)) &&
  l.all (fun r => decide (r.1 + r.2 ≤ lineEnd s)) &&
  l.zipIdx.all (fun a => l.zipIdx.all (fun b => a.2 == b.2 || decide (a.1.1 + a.1.2 ≤ b.1.1) || decide (b.1.1 + b.1.2 ≤ a.1.1)))

/-- A line range lies wholly inside a union of ranges; fuel is their number. -/
def coveredBy (l : List (Nat × Nat)) (fuel a b : Nat) : Bool :=
  if b ≤ a then true else
  match fuel with
  | 0 => false
  | n + 1 => match l.find? (fun r => decide (r.1 ≤ a) && decide (a < r.1 + r.2)) with
    | some r => coveredBy l n (r.1 + r.2) b
    | none => false

/-- Region-mode regions of enabled heads. -/
def regionMode (s : State) : List Region := (cfgRegions s).filter (fun r => headOn s r.head && !tagged s r.head)

/-- The ranges cover every region of the index and touch none of another (R359). -/
def rangesFit (s : State) (key : Nat) (l : List (Nat × Nat)) : Bool :=
  (regionMode s).all (fun r =>
    let a := r.base * unitLines
    let b := (r.base + r.len) * unitLines
    if r.key = key then coveredBy l l.length a b
    else l.all (fun x => decide (x.1 + x.2 ≤ a) || decide (b ≤ x.1)))

/-- Reaches of a job. -/
def rangeReaches (l : List (Nat × Nat)) : Nat := (l.map (fun r => r.2 / 1024)).sum

/-- The estimate of R368, in ms, for a number of reaches at the share in force. -/
def shoreEstimate (s : State) (reaches : Nat) : Nat :=
  let w := widthNow s
  let share := effShare s 6
  let chans := ((List.range 16).filter (fun c => chanOn s c)).length
  if share = 0 ∨ w < 2 ∨ chans = 0 then 0xFFFFFFFF
  else min 0xFFFFFFFF (reaches * (256 * (w - 1) + 128) * 64 * 4 / ((w - 1) * share * 30 * chans * 1000))

/-- Ranges in ascending order (R358: from the lowest line number to the highest). -/
def sortRanges (l : List (Nat × Nat)) : List (Nat × Nat) :=
  l.foldl (fun a r => a.filter (fun x => decide (x.1 < r.1)) ++ [r] ++ a.filter (fun x => !decide (x.1 < r.1))) []

/-- A job is RUNNING or PAUSED. -/
def shoreBusy (s : State) : Bool := s.icu.shore.st == 1 || s.icu.shore.st == 2

/-- SHORELINE_START's effect (R358, R359): the job's record is written to Gauge; the job starts when it is durable. -/
def doShoreStart (path : Nat) (input : List Byte) (s : State) : State :=
  let n := byteAt input 2
  let key := at' input 0 2
  cmd path 0xC022 input (decide (8 ≤ input.length) && input.length == 8 + 16 * n) (fun s =>
    let fail := fun rc => answer path 0xC022 rc [] s
    let l := rangesAt input 8 n
    if n = 0 ∨ 64 < n ∨ !zeroAt input 3 5 ∨ 4096 ≤ key ∨ !rangesOk s input 8 n then fail rcInvalid
    else if (ctxOf s key).st ≠ .rotating ∨ !rangesFit s key l then fail rcConflict
    else if shoreBusy s || s.mgmt.inflight.any (fun e => e.op == 0xC022) || tgtBusy s 0 key path then fail rcBusy
    else if inHalt s ∨ lifecycle s = 3 then fail rcRefused
    else
      gPut G.shore (.shore (some ⟨key, sortRanges l⟩)) false (some path) (.shore path) (tgtHold 0 key path (startCmd path 0xC022 true s))) s

/-- SHORELINE_START (R358 to R360). -/
def execShorelineStart (path : Nat) (input : List Byte) (s : State) : Host.Outcome State Fault Refusal := run (doShoreStart path input) s

/-- Generation numbers of a context, 0 for none. -/
def curNum (s : State) (k : Nat) : Nat := match (ctxOf s k).cur with | some g => g.num | none => 0
def newNum (s : State) (k : Nat) : Nat := match (ctxOf s k).new with | some g => g.num | none => 0

/-- The job starts when its Gauge record is durable (R359, R366). -/
def shoreBegin (path : Nat) (s : State) : State :=
  match gShore s with
  | none => s
  | some r =>
    let b := match r.ranges.head? with | some x => x.1 | none => 0
    let sh : Shore := { Shore.init with st := 1, key := r.key, ranges := r.ranges, b := b, startTick := s.tick.count }
    let s := { s with
      icu := { s.icu with shore := sh }
      vault := { s.vault with ctxs := tmod Ctx.init r.key (fun c => { c with job := true }) s.vault.ctxs } }
    let n := rangeReaches r.ranges
    let s := sed 0x0650 sNOTICE 3 r.key (curNum s r.key * 256 + newNum s r.key) (n % 2 ^ 32) s
    endCmd path 0xC022 rcSuccess (le 8 n ++ le 4 (shoreEstimate s n)) (tgtFree path s)

/-- SHORELINE_STATUS (R367). -/
def doShoreStatus (path : Nat) (input : List Byte) (s : State) : State :=
  cmd path 0xC023 input input.isEmpty (fun s =>
    let x := s.icu.shore
    let left := rangeReaches x.ranges - x.reachesDone - x.skipped
    answer path 0xC023 rcSuccess
      (le 1 x.st ++ [0] ++ le 2 x.key ++ le 1 (curNum s x.key) ++ le 1 (newNum s x.key) ++ zeros 2 ++ le 8 x.b ++
       le 8 x.reachesDone ++ le 4 x.skipped ++ le 4 (if x.st = 1 ∨ x.st = 2 then shoreEstimate s left else 0)) s) s

def execShorelineStatus (path : Nat) (input : List Byte) (s : State) : Host.Outcome State Fault Refusal := run (doShoreStatus path input) s

def modShore (f : Shore → Shore) (s : State) : State := { s with icu := { s.icu with shore := f s.icu.shore } }

/-- First line of the next reach of the job after B; none past the last range. -/
def shoreNext (x : Shore) : Option Nat :=
  let b := (x.b / 1024 + 1) * 1024
  match x.ranges.find? (fun r => decide (x.b < r.1 + r.2)) with
  | some r =>
    if b < r.1 + r.2 then some (max b r.1)
    else (x.ranges.find? (fun y => decide (b ≤ y.1))).map (·.1)
  | none => none

/-- The job ends (R363, R376): NEW is CUR, the old generation is erased, and a PROMOTE entry follows. -/
def shoreFinish (s : State) : State :=
  let x := s.icu.shore
  let n := newNum s x.key
  let s := { s with vault := { s.vault with ctxs := tmod Ctx.init x.key (fun c =>
    { c with st := .active, cur := c.new, new := none, job := false }) s.vault.ctxs } }
  let lseq := ledgerNext s
  let e : LedgerEnt := { LedgerEnt.of lkPromote x.key with gen := n }
  let s := sed 0x0704 sNOTICE 4 x.key n lseq (ledgerAppend e none .keyRoot s)
  let s := gPut G.shore (.shore none) false none .none (modShore (fun x => { x with st := 3, step := 0 }) s)
  sed 0x0651 sNOTICE 3 x.key (x.reachesDone % 2 ^ 32) ((s.tick.count - x.startTick) * 4 / 1000) s

/-- B advances to the next reach, and the reach held is released (R363, R33 step 6). -/
def shoreAdvance (s : State) : State :=
  let x := s.icu.shore
  match shoreNext x with
  | some b => modShore (fun x => { x.dropStride with b := b, waited := 0 }) s
  | none =>
    let last := match x.ranges.getLast? with | some r => r.1 + r.2 | none => x.b
    shoreFinish (modShore (fun x => { x.dropStride with b := last }) s)

/-- Offsets of a reach whose lines the fine map holds as HOT. -/
def hotOffsets (s : State) (r : Nat) : List Nat := (List.range 1024).filter (fun o => isHot s (r * 1024 + o))

/-- A reach has a written line or a HOT one (R363). -/
def reachWritten (s : State) (r : Nat) : Bool :=
  (tfind s.mtl.map.reachMap r).isSome || (List.range 1024).any (fun o => (fineFind s (r * 1024 + o)).isSome)

/-- The reach's L1 node or an ancestor is quarantined (R365). -/
def strideQuarantined (s : State) (r : Nat) : Bool :=
  s.icu.quar.any (fun q => decide (1 ≤ q.level) && nodeCovers q.level q.index (r * 1024))

/-- Reseal the HOT lines of the held reach that wait for it, each from its current copy, as a write-back of class SHORE
(R361 step 6); one with an assigned write-back not yet placed is skipped, one without a free entry waits. -/
def shoreHot (s : State) : State :=
  let x := s.icu.shore
  let r := reachOf x.b
  forEach x.hotLeft (fun o s =>
    let line := r * 1024 + o
    let gone := fun (s : State) => modShore (fun z => { z with hotLeft := z.hotLeft.filter (· != o) }) s
    if inHalt s then s
    else if s.mtl.unplaced.any (fun u => u.line == line) || !isHot s line then gone s
    else if 16 ≤ (sliceOf s (sliceNo line)).eb.length || majorWaits s line then s
    else
      match mtlLookup s line with
      | .at_ n q i =>
        (match sealedAt s n q i with
         | some y =>
           let psa := locPsa s (.at_ n q i)
           let (t, res) := openLine line x.key y psa 2 0 none (bgSense psa 6 1 s)
           (match res with
            | .ok d p =>
              (match ownWb line x.key 3 p d t with
               | some (u, w) => gone (modShore (fun z => { z with waitSeqs := z.waitSeqs ++ [w] }) u)
               | none => t)
            | _ => gone t)
         | none => gone s)
      | _ => gone s) s

/-- The Shoreline step of a boundary (R33 step 6, R361 step 1, R363, R365): pause and resume, hold, advance. -/
def shoreTick (s : State) : State :=
  let x := s.icu.shore
  let can := s.pwr.st == 0 && decide (0 < effShare s 6) && !inFlush s
  if inHalt s || !mtlRuns s then s
  else if x.st = 2 then
    if can && lifecycle s != 3 && (ctxOf s x.key).st == .rotating then
      sed 0x0653 sNOTICE 3 x.key 0 (x.b % 2 ^ 32) (modShore (fun x => { x with st := 1 }) s)
    else s
  else if x.st ≠ 1 then s
  else if 3 ≤ x.step ∧ x.hotLeft ≠ [] then shoreHot s
  else if x.step = 4 then
    if x.waitSeqs.any (fun w => s.mtl.unplaced.any (fun u => u.wseq == w)) then s
    else shoreAdvance (modShore (fun x => { x with reachesDone := x.reachesDone + 1 }) s)
  else if x.step = 3 then s
  else if !can then sed 0x0653 sNOTICE 3 x.key 1 (x.b % 2 ^ 32) (modShore (fun x => { x.dropStride with st := 2 }) s)
  else if x.step = 0 then
    let r := reachOf x.b
    if strideQuarantined s r then
      shoreAdvance (sed 0x0652 sWARNING 3 x.key (r % 2 ^ 32) 0 (satInc F.ICU_SHORE_SKIP_REACHES (modShore (fun x => { x with skipped := x.skipped + 1 }) s)))
    else if !reachWritten s r then shoreAdvance (modShore (fun x => { x with reachesDone := x.reachesDone + 1 }) s)
    else modShore (fun x => { x with step := 1, waited := 0 }) s
  else modShore (fun x => { x with step := 2, waited := x.waited + 1 }) s

/-- SHORE_WAIT_TIMEOUT (R361 step 2): 16 ticks waited; seals of the reach are delayed until the capture. -/
def execShoreWaitTimeout (s : State) : Host.Outcome State Fault Refusal :=
  run (fun s =>
    let x := s.icu.shore
    if x.st = 1 ∧ (x.step = 1 ∨ x.step = 2) ∧ 16 ≤ x.waited then modShore (fun x => { x with delay := true }) s else s) s

/-- The copy of an offset that the stride reads: a captured entry's, or the Deeps copy's. -/
def strideCopy (s : State) (caps : List MergeEnt) (old : Option (Nat × Nat)) (o : Nat) : Option (Sealed × Option Nat) :=
  let loc := match caps.find? (fun e => e.off == o) with
    | some e => shallowsLoc s.mtl.map e.sset e.slot
    | none => reachLoc old o
  match loc with
  | .at_ n q i => (sealedAt s n q i).map (fun x => (x, locPsa s loc))
  | _ => none

/-- The senses of a stride's reads, within the Shoreline share (R361 step 4): the 16 pages of the reach's Deeps copy and the
sectors of the captured entries. -/
def strideSenses (caps : List MergeEnt) (old : Option (Nat × Nat)) (s : State) : State :=
  let s := match old with
    | some (n, k) => forEach (List.range 16) (fun p s => bgSense (locPsa s (.at_ n (16 * k + p) 0)) 6 8 s) s
    | none => s
  forEach caps (fun e s => bgSense (locPsa s (shallowsLoc s.mtl.map e.sset e.slot)) 6 1 s) s

/-- What the build of a slot has made so far (R362): the slot's lines, the offsets sealed, the tree with their counters,
the state, and whether an open failed. -/
structure Build where
  lines : List Sealed
  adv : List Nat
  ahead : State
  st : State
  bad : Bool
deriving DecidableEq, Repr

/-- One offset of the slot (R362, R364); `resets` are the leaves that start again. The counters of lines sealed into the
slot advance in `ahead` and take effect at the commit (log entry 48). -/
def buildOffset (key : Nat) (g : KeyGen) (r : Nat) (caps : List MergeEnt) (old : Option (Nat × Nat)) (poisoned : List Nat)
    (resets : List Nat) (b : Build) (o : Nat) : Build :=
  if b.bad then b else
  let line := r * 1024 + o
  let blank := { b with lines := b.lines ++ [⟨0, 0, 0, 6⟩] }
  let put := fun (cls : Nat) (poison : Bool) (d : Line) (b : Build) =>
    let t := advanceCounters line b.ahead
    { b with lines := b.lines ++ [sealWith g line cls poison d t], adv := b.adv ++ [o], ahead := t }
  if quarantined b.st line || poisoned.contains o || isHot b.st line then blank
  else
    match strideCopy b.st caps old o with
    | none => put 2 false 0 b
    | some (x, psa) =>
      if x.gen = g.num && !resets.contains (line / 64) then { b with lines := b.lines ++ [x] }
      else
        let (t, res) := openLine line key x psa 2 0 none b.st
        match res with
        | .ok d p => put 3 p d { b with st := t }
        | .failed => { b with st := t, bad := true }
        | _ => { blank with st := t }

/-- SHORE_CAPTURE's effect (R361 steps 3 to 7, R362, R364). -/
def doShoreCapture (s : State) : State :=
  let x := s.icu.shore
  let r := reachOf x.b
  if !mtlBackground s || !icuRuns s || x.st ≠ 1 || !(x.step == 1 || x.step == 2) then s
  else if s.mtl.folds.any (fun f => f.reach == r) || s.mtl.sealedQ.any (fun b => reachOf b.line == r) then s
  else
    match (ctxOf s x.key).new with
    | none => s
    | some g =>
      let rec_ := mergeOf s r
      let caps := match rec_ with | some (_, m) => m.ents.filter (fun e => !e.poison) | none => []
      let fineP := (List.range 1024).filter (fun o => match fineFind s (r * 1024 + o) with | some e => e.poison | none => false)
      let poisoned := fineP ++ (match rec_ with | some (_, m) => (m.ents.filter (·.poison)).map (·.off) | none => [])
      let old := match tfind s.mtl.map.reachMap r with | some (.deeps a b) => some (a, b) | _ => rec_.bind (fun m => m.2.deeps)
      let resets := ((List.range 16).map (16 * r + ·)).filter (fun i => (leafOf s.icu.tree i).exhausted)
      let fs := foldSeqNow s
      let s0 := strideSenses caps old (match rec_ with | some (k, m) => markCaptured k m s | none => s)
      -- the leaves that start again do so in the tree that the commit brings into effect
      let ahead := modTree (fun t => { t with leaves := resets.foldl (fun l i =>
        tput i { leafOf t i with major := 0, oldMajor := 0, reseal := 0, minors := [] } l) t.leaves }) s0
      let b := (List.range 1024).foldl (buildOffset x.key g r caps old poisoned resets) ⟨[], [], ahead, s0, false⟩
      if b.bad then b.st
      else
        let hot := (hotOffsets b.st r).filter (fun o => !b.st.mtl.unplaced.any (fun u => u.line == r * 1024 + o))
        let s1 := modShore (fun y => { y with step := 3, delay := false, again := [], caps := caps, foldSeq := fs, adv := b.adv, resets := resets }) b.st
        match placeReach r b.lines s1 with
        | none => s
        | some (s2, n, slot) =>
          let s2 := modShore (fun y => { y with target := some (n, slot), jseq := none, waitSeqs := [], hotLeft := hot }) s2
          shoreHot s2

/-- SHORE_CAPTURE (R361 to R364). -/
def execShoreCapture (s : State) : Host.Outcome State Fault Refusal := run doShoreCapture s

end Sys2Proof.Machine
end

