-- ==== Sys2Proof/Machine/Vault.lean ====
section
/-! DEFINITION. The key vault (R371 to R383, R389 to R391, R403, R421): key commands, the ledger's replay and compaction,
the random source. -/

namespace Sys2Proof.Machine

/-! ### Targets -/

/-- TARGET and INDEX as records give them: bits 31 to 24 and 11 to 0 (R406). -/
def tgtIdx (t i : Nat) : Nat := t * 2 ^ 24 + i % 4096

def Kek.init : Kek := { key := none, lost := false, seq := 0 }
def kekOf (s : State) (k : Nat) : Kek := tget Kek.init s.vault.keks k
def modKek (k : Nat) (f : Kek → Kek) (s : State) : State := { s with vault := { s.vault with keks := tmod Kek.init k f s.vault.keks } }
def modCtx (k : Nat) (f : Ctx → Ctx) (s : State) : State := { s with vault := { s.vault with ctxs := tmod Ctx.init k f s.vault.ctxs } }

/-- The newest SEQ recorded for a target (R378). -/
def newestSeq (s : State) (t i : Nat) : Nat :=
  if t = 2 then (slotOf s i).seq else if t = 3 then (kekOf s i).seq else (ctxOf s i).seq

/-- Keys from bytes of 32 each. -/
def keyAt (m : List Byte) (k : Nat) : BitVec 256 := BitVec.ofNat 256 (beVal (sub m (32 * k) 32))

/-- A context generation from key material. -/
def genOf (num : Nat) (m : List Byte) : KeyGen := ⟨num, keyAt m 0, keyAt m 1, keyAt m 2⟩

/-- Key material of an entry, unwrapped under K_vault. -/
def entryKey (s : State) (e : LedgerEnt) : List Byte := (kwUnwrap s.vault.kVault e.wrapped).getD []

/-! ### KEY_INSTALL (R378) -/

/-- The code of the first check of R378 that fails, or the unwrapped key material. -/
def installCheck (s : State) (path : Nat) (d : List Byte) : Nat × List Byte :=
  let t := byteAt d 0
  let kek := byteAt d 1
  let i := at' d 2 2
  let gen := byteAt d 4
  let usage := byteAt d 5
  let owner := byteAt d 6
  let klen := byteAt d 7
  let wlen := at' d 16 2
  let need := if t = 2 then (if klen = 1 then 88 else 56) else if t = 3 then 56 else 120
  let fail := fun rc => (rc, ([] : List Byte))
  if 4 < t ∨ zeroAt d 18 6 = false ∨ wlen ≠ need ∨ (t = 2 ∧ usage = 0) ∨ (klen = 1 ∧ usage ||| 0x0C ≠ 0x0C) ∨
      (t ≠ 4 ∧ gen ≠ 0) ∨ (t = 4 ∧ gen = 0) ∨ (t ≠ 2 ∧ (usage ≠ 0 ∨ owner ≠ 0)) ∨ 64 ≤ usage ∨ 64 ≤ owner ∨ 15 < kek ∨
      (t = 2 ∧ 255 < i) ∨ (t = 3 ∧ 15 < i) ∨ 4095 < i ∨ 1 < klen ∨ (klen = 1 ∧ t ≠ 2) then fail rcInvalid
  else if (t ≠ 2 ∧ t ≠ 3 ∧ keyLimit s ≤ i) ∨ (t = 2 ∧ sealOn s = false) then fail rcUnsupported
  else if lifecycle s = 0 ∨ lifecycle s = 3 ∨ inHalt s = true ∨ (t = 3 ∧ i = 0) then fail rcRefused
  else
    match (kekOf s kek).key with
    | none => fail rcConflict
    | some k =>
      match kwUnwrap k (sub d 24 wlen) with
      | none => fail rcAuthFail
      | some m =>
        let state := (ctxOf s i).st
        if m.take 16 ≠ d.take 16 then fail rcAuthFail
        else if at' d 8 8 ≤ newestSeq s t i then fail rcStale
        else if (t = 0 ∧ state ≠ .empty) ∨ (t = 1 ∧ state ≠ .active) ∨ (t = 4 ∧ state ≠ .lost) ∨
            (t = 2 ∧ (slotOf s i).st = .ready) ∨ (t = 3 ∧ (kekOf s i).key.isSome = true) then fail rcConflict
        else if t = 2 ∧ 2 ^ 28 - 1 ≤ slotInst s i then fail 0x0014
        else if tgtBusy s t i path then fail rcBusy
        else (rcSuccess, m.drop 16)

/-- Generation that an install gives a context (R376). -/
def installGen (s : State) (t i gen : Nat) : Nat :=
  if t = 0 then 1 else if t = 1 then curNum s i % 255 + 1 else if t = 4 then gen else 0

/-- The ledger entry of an install. -/
def installEntry (s : State) (d m : List Byte) : LedgerEnt :=
  let t := byteAt d 0
  let i := at' d 2 2
  { LedgerEnt.of (if t = 0 then lkCur else if t = 1 then lkNew else if t = 2 then lkSlot else if t = 3 then lkKek else lkRestore) i with
    gen := installGen s t i (byteAt d 4), seq := at' d 8 8, usage := byteAt d 5, owner := byteAt d 6, klen := byteAt d 7
    target := 0, wrapped := kwWrap s.vault.kVault m }

/-- KEY_INSTALL's effect up to its first durable write: a slot's install number first, else the ledger (R372, R384). -/
def doKeyInstall (path : Nat) (d : List Byte) (s : State) : State :=
  cmd path 0xC020 d (decide (24 ≤ d.length) && d.length == 24 + at' d 16 2) (fun s =>
    let t := byteAt d 0
    let i := at' d 2 2
    let (rc, m) := installCheck s path d
    if rc ≠ rcSuccess then
      answer path 0xC020 rc [] (sed 0x0702 sWARNING 4 (tgtIdx t i) rc path s)
    else
      let e := installEntry s d m
      let s := tgtHold t i path (startCmd path 0xC020 true s)
      if t = 2 then
        gEnq (.incr (.slotI i)) false (some path) (.key path 0xC020 1)
          { s with vault := { s.vault with installs := tput path e s.vault.installs } }
      else ledgerFor path 0xC020 e s) s

/-- KEY_INSTALL (R378, R379, R384). -/
def execKeyInstall (path : Nat) (input : List Byte) (s : State) : Host.Outcome State Fault Refusal := run (doKeyInstall path input) s

/-- Number and TARGET byte that name an entry's target. -/
def entryTarget (e : LedgerEnt) : Nat :=
  if e.kind = lkNew then 1 else if e.kind = lkSlot then 2 else if e.kind = lkKek then 3 else if e.kind = lkRestore then 4 else 0

/-- Apply an install entry to the vault's keys (R376, R384). `resumed`: a PAUSED Shoreline job of the context goes on. -/
def applyInstall (e : LedgerEnt) (s : State) : State :=
  let m := entryKey s e
  let s := { s with icu := { s.icu with purged := s.icu.purged.filter (· != e.index) } }
  if e.kind = lkSlot then
    modSlot e.index (fun _ => { Slot.init with
      st := .ready, usage := e.usage, owner := e.owner, klen := e.klen, key1 := keyAt m 0
      key2 := if e.klen = 1 then keyAt m 1 else 0, c := 0, seq := e.seq }) s
  else if e.kind = lkKek then modKek e.index (fun _ => ⟨some (keyAt m 0), false, e.seq⟩) s
  else if e.kind = lkNew then
    let job := s.icu.shore.st == 2 && s.icu.shore.key == e.index
    modCtx e.index (fun c => { c with st := .rotating, new := some (genOf e.gen m), seq := e.seq, job := job }) s
  else
    modCtx e.index (fun _ => { st := .active, cur := some (genOf e.gen m), new := none, job := false, seq := e.seq }) s

/-! ### KEY_RETIRE (R380 to R383) -/

/-- The code of the first check of R380 that fails. -/
def retireCheck (s : State) (path : Nat) (d : List Byte) : Nat :=
  let t := byteAt d 0
  let i := at' d 2 2
  let n := byteAt d 4
  let c := ctxOf s i
  let holds := if t = 0 then c.st != .empty else if t = 1 then c.st == .rotating
    else if t = 2 then (slotOf s i).st != .empty else (kekOf s i).key.isSome
  if 3 < t ∨ byteAt d 1 ≠ 0 ∨ zeroAt d 5 3 = false ∨ 64 < n ∨ (0 < n ∧ t ≠ 0) ∨ 4095 < i ∨ (t = 2 ∧ 255 < i) ∨ (t = 3 ∧ 15 < i) ∨
      (0 < n ∧ rangesOk s d 8 n = false) then rcInvalid
  else if t = 2 ∧ sealOn s = false then rcUnsupported
  else if lifecycle s = 0 ∨ lifecycle s = 3 ∨ inHalt s = true ∨ (t = 3 ∧ i = 0) then rcRefused
  else if t = 0 ∧ (if n = 0 then (regionMode s).any (fun r => r.key == i) else !rangesFit s i (rangesAt d 8 n)) = true then rcConflict
  else if t = 0 ∧ (shoreBusy s && s.icu.shore.key == i && c.st != .lost) = true then rcConflict
  else if t = 1 ∧ c.job = true then rcConflict
  else if !holds then rcConflict
  else if tgtBusy s t i path ∨ (0 < n ∧ bgBusy s = true) then rcBusy
  else rcSuccess

/-- A LOST context's paused job ends ABORTED as its retirement starts (R376, R380). -/
def abortLostJob (i : Nat) (s : State) : State :=
  if s.icu.shore.st = 2 ∧ s.icu.shore.key = i ∧ (ctxOf s i).st = .lost then
    gPut G.shore (.shore none) false none .none (modShore (fun x => { x with st := 4, step := 0 }) s)
  else s

/-- The caches purge an index (R381 step 1): the lines purged. -/
def retirePurge (i : Nat) (s : State) : State × Nat :=
  let (_, dirty, clean) := purgeWhere (fun key line => key == i && !isInternal s line) s
  let s := { s with icu := { s.icu with purged := if s.icu.purged.contains i then s.icu.purged else s.icu.purged ++ [i] } }
  (purgeKey i s, dirty + clean)

/-- Release the ranges (R381 step 2): the reaches released. -/
def retireUnmap (l : List (Nat × Nat)) (s : State) : State × Nat :=
  let n := (s.mtl.map.reachMap.filter (fun e => l.any (fun r => decide (r.1 / 1024 ≤ e.1) && decide (e.1 < (r.1 + r.2) / 1024)))).length
  (quarEnds (forEach l (fun r s => unmapReaches (r.1 / 1024) (r.2 / 1024) s) s), n)

/-- The RETIRE entry of a target, carrying the newest SEQ recorded; `target` is R380's TARGET. -/
def retireEntry (s : State) (t i : Nat) : LedgerEnt := { LedgerEnt.of lkRetire i with target := t, seq := newestSeq s t i }

/-- What a retirement reports when it ends: reaches released and lines purged, kept in the entry's fields that RETIRE does
not use (USAGE and GEN are zero in the ledger's copy). -/
def retireReport (reaches lines : Nat) (e : LedgerEnt) : LedgerEnt := { e with usage := reaches, gen := lines }

/-- KEY_RETIRE's effect up to its ledger write. -/
def doKeyRetire (path : Nat) (d : List Byte) (s : State) : State :=
  cmd path 0xC021 d (decide (8 ≤ d.length) && d.length == 8 + 16 * byteAt d 4) (fun s =>
    let t := byteAt d 0
    let i := at' d 2 2
    let n := byteAt d 4
    let rc := retireCheck s path d
    if rc ≠ rcSuccess then answer path 0xC021 rc [] s
    else
      let e := retireEntry s t i
      if t = 2 then
        -- R383: a slot's retirement waits for its running job
        retireGo i (tgtHold t i path { startCmd path 0xC021 true s with
          vault := { s.vault with installs := tput path e s.vault.installs } })
      else if t ≠ 0 then ledgerFor path 0xC021 e (tgtHold t i path (startCmd path 0xC021 true s))
      else
        let s := abortLostJob i s
        let ranges := rangesAt d 8 n
        let s := if n = 0 then startCmd path 0xC021 true s
          else answer path 0xC021 rcBackground [] { s with
            mgmt := { s.mgmt with bg := some (.retire path t i ranges 1), bgStat := tput path ⟨0xC021, 0, 0⟩ s.mgmt.bgStat } }
        let (s, lines) := retirePurge i s
        let (s, reaches) := if n = 0 then (s, 0) else retireUnmap ranges s
        let s := ledgerFor path 0xC021 e (tgtHold t i path s)
        { s with vault := { s.vault with installs := tmod (LedgerEnt.of 0 0) path (retireReport reaches lines) s.vault.installs } }) s

/-- KEY_RETIRE (R380 to R383). -/
def execKeyRetire (path : Nat) (input : List Byte) (s : State) : Host.Outcome State Fault Refusal := run (doKeyRetire path input) s
/-- KEY_RETIRE_RANGES (R381): the same command with ranges. -/
def execKeyRetireRanges (path : Nat) (input : List Byte) (s : State) : Host.Outcome State Fault Refusal :=
  run (doKeyRetire path input) s

/-- Apply a RETIRE entry: the target's keys are erased (R376, R380). -/
def applyRetire (e : LedgerEnt) (s : State) : State :=
  if e.target = 0 then
    modCtx e.index (fun c => { Ctx.init with seq := max c.seq e.seq })
      { s with icu := { s.icu with purged := s.icu.purged.filter (· != e.index) } }
  else if e.target = 1 then modCtx e.index (fun c => { c with st := if c.cur.isSome then .active else c.st, new := none, job := false }) s
  else if e.target = 2 then modSlot e.index (fun x => { Slot.init with seq := max x.seq e.seq }) s
  else modKek e.index (fun k => ⟨none, false, max k.seq e.seq⟩) s

/-! ### What follows a durable write of a key command -/

/-- The next step of a path's key command (R372, R378, R381, R384): 1 the slot's install number is written, 2 its
reservation counter has started again, 9 KEYROOT covers the entry. -/
def keyStep (path op step : Nat) (s : State) : State :=
  match tfind s.vault.installs path with
  | none => s
  | some e =>
    if step = 1 then gEnq (.reset (.slotR e.index)) false (some path) (.key path op 2) s
    else if step = 2 then ledgerFor path op { e with inst := slotInst s e.index } s
    else if op = 0xC020 then
      let s := tgtFree path (applyInstall e s)
      let s := sed 0x0701 sNOTICE 4 (tgtIdx (entryTarget e) e.index) e.gen e.lseq s
      endCmd path op rcSuccess (le 1 e.gen ++ zeros 3 ++ le 4 e.lseq) s
    else
      let s := tgtFree path (applyRetire e s)
      let s := sed 0x0703 sNOTICE 4 (tgtIdx e.target e.index) (e.usage % 2 ^ 32) e.gen s
      match s.mgmt.bg with
      | some (.retire p t i _ _) =>
        if p = path ∧ t = e.target ∧ i = e.index then
          emit (.bgDone path op rcSuccess) { s with
            mgmt := { s.mgmt with bg := none, bgStat := tput path ⟨op, 100, rcSuccess⟩ s.mgmt.bgStat } }
        else endCmd path op rcSuccess (le 8 e.usage ++ le 4 e.gen) s
      | _ => endCmd path op rcSuccess (le 8 e.usage ++ le 4 e.gen) s

/-- A key command's durable write failed with WORN: nothing changed (R379, R530). -/
def keyFail (path op code : Nat) (s : State) : State :=
  let s := endCmd path op code [] (tgtFree path s)
  match s.mgmt.bg with
  | some (.retire p _ _ _ _) =>
    if p = path then emit (.bgDone path op code) { s with
      mgmt := { s.mgmt with bg := none, bgStat := tput path ⟨op, 100, code⟩ s.mgmt.bgStat } } else s
  | _ => s

/-! ### The ledger at a start (R374) and its compaction (R373) -/

/-- What the replay has found: the state, the first lost LSEQ, and targets changed by a verified entry after it. -/
structure LReplay where
  st : State
  lost : Option Nat
  after : List (Nat × Nat)
deriving DecidableEq, Repr

/-- One entry of the replay. -/
def replayEntry (r : LReplay) (e : LedgerEnt) : LReplay :=
  let s := r.st
  if !(e.goodA || e.goodB) then { r with lost := some (r.lost.getD e.lseq) }
  else
    let s := if e.goodA && e.goodB then s
      else satInc F.KV_LEDGER_COPY_BAD s |> sed 0x0706 sWARNING 4 e.lseq (if e.goodA then 1 else 0) 0
    let after := fun t i => if r.lost.isSome then r.after ++ [(t, i)] else r.after
    if e.kind = lkCur ∨ e.kind = lkNew ∨ e.kind = lkRestore then
      -- a Shoreline job started for NEW is the one that SHORE names
      let mine := match gShore s with | some x => x.key == e.index | none => false
      let s := modCtx e.index (fun c => { c with job := e.kind == lkNew && mine }) (applyInstall e s)
      { r with st := s, after := after 0 e.index }
    else if e.kind = lkSlot then
      { r with st := modSlot e.index (fun x => { x with c := slotV s e.index }) (applyInstall e s), after := after 1 e.index }
    else if e.kind = lkKek then { r with st := applyInstall e s, after := after 2 e.index }
    else if e.kind = lkPromote then
      { r with st := modCtx e.index (fun c => { c with st := .active, cur := c.new, new := none, job := false }) s, after := after 0 e.index }
    else if e.kind = lkRetire then { r with st := applyRetire e s, after := after (tgtKind e.target) e.index }
    else if e.kind = lkEraseAll then
      let v := s.vault
      { r with
        st := setF F.KV_ALARM_ERASED 1 { s with vault := { v with
          ctxs := v.ctxs.map (fun x => if x.2.cur.isSome then (x.1, { x.2 with st := .lost, cur := none, new := none }) else x)
          slots := v.slots.map (fun x => (x.1, { Slot.init with seq := x.2.seq }))
          keks := v.keks.map (fun x => if x.1 = 0 then x else (x.1, { x.2 with key := none })) } } }
    else r

/-- Contexts that are LOST. -/
def lostCtxs (s : State) : List Nat := (s.vault.ctxs.filter (fun e => e.2.st == .lost)).map (·.1)

/-- A target that may have been changed by a lost entry is LOST (R374), with its record. -/
def markLost (lseq : Nat) (r : LReplay) : State :=
  let s := forEach (List.range (keyLimit r.st)) (fun i s =>
    if r.after.contains (0, i) then s
    else modCtx i (fun c => { c with st := .lost, cur := none, new := none }) s |> sed 0x0705 sCRITICAL 4 (tgtIdx 0 i) lseq 0) r.st
  let s := forEach (if sealOn s then List.range 256 else []) (fun i s =>
    if r.after.contains (1, i) then s
    else modSlot i (fun x => { Slot.init with seq := x.seq }) s |> sed 0x0705 sCRITICAL 4 (tgtIdx 2 i) lseq 0) s
  forEach (List.range 16) (fun i s =>
    if r.after.contains (2, i) then s
    else modKek i (fun k => { k with key := none, lost := true }) s |> sed 0x0705 sCRITICAL 4 (tgtIdx 3 i) lseq 0) s

/-- Exhausted slots resume EXHAUSTED: their reservation has reached the counter's end (R385, R387). -/
def slotsResume (s : State) : State :=
  { s with vault := { s.vault with slots := s.vault.slots.map (fun e =>
      if e.2.st == .ready && e.2.c == ctrEnd then (e.1, { e.2 with st := .exhausted }) else e) } }

/-- Replay the ledger up to the count in KEYROOT (R374, R387); entries below the count that the area does not hold are
lost. -/
def ledgerReplay (s : State) : State :=
  let k := gKeyroot s
  let s := { s with vault := { s.vault with ctxs := [], slots := [], keks := [], installs := [], busy := [] } }
  let es := (ledger s).filter (fun e => decide (e.lseq ≤ k.count))
  let r := es.foldl replayEntry ⟨s, none, []⟩
  let last := match es.getLast? with | some e => e.lseq | none => 0
  let lost := if last < k.count then some (r.lost.getD (last + 1)) else r.lost
  let s := match lost with | some n => markLost n r | none => r.st
  let s := slotsResume s
  let s := forEach ((s.vault.slots.filter (fun e => e.2.st == .ready)).map (·.1)) reserve s
  let lostN := (lostCtxs s).length
  let s := setF F.KV_STAT_LOST lostN (setF F.KV_STAT_VAULT 1 s)
  sed 0x0700 sINFO 4 ((s.vault.ctxs.filter (fun e => e.2.cur.isSome)).length)
    ((s.vault.slots.filter (fun e => e.2.st == .ready)).length) (lostN + (s.vault.keks.filter (fun e => e.2.lost)).length) s

/-- First start in BLANK (R403): K_vault, K_tree and the device context are drawn, once. -/
def firstKeys (s : State) : State :=
  if (gKeyroot s).isSet || lifecycle s ≠ 0 || fld s F.KV_STAT_RNG ≠ 1 then s else
  let (a, s) := draw 256 s
  let (b, s) := draw 256 s
  let (c, s) := draw 256 s
  let (d, s) := draw 256 s
  let (e, s) := draw 256 s
  let k : KeyRoot := { KeyRoot.init with isSet := true, kVault := a, kTree := b, kDev := c }
  gPut G.keyroot (.keyroot k) false none .keyRoot
    { s with vault := { s.vault with kVault := a, kTree := b, dev := some ⟨1, c, d, e⟩ } }

/-- Entries that one ledger area holds: 8 MiB of two copies of 256 bytes each (R372, flash map). -/
def ledgerRoom : Nat := 16384

/-- The live entries (R373): each key still held, LOST contexts under an ERASE_ALL entry in force, and the newest SEQ of
each other target. -/
def liveEntries (s : State) : List LedgerEnt :=
  let wrap := kwWrap s.vault.kVault
  let kb := fun (k : BitVec 256) => be 32 k.toNat
  let gk := fun (g : KeyGen) => wrap (kb g.k1 ++ kb g.k2 ++ kb g.kmac)
  let lostE := s.vault.ctxs.filterMap (fun e => if e.2.st == .lost then some { LedgerEnt.of lkCur e.1 with gen := 1, seq := e.2.seq, wrapped := zeros 112 } else none)
  let all := if bit s F.KV_ALARM_ERASED then [LedgerEnt.of lkEraseAll 0] else []
  let ctx := s.vault.ctxs.flatMap (fun e =>
    let cur := match e.2.cur with | some g => [{ LedgerEnt.of lkCur e.1 with gen := g.num, seq := e.2.seq, wrapped := gk g }] | none => []
    let new := match e.2.new with | some g => [{ LedgerEnt.of lkNew e.1 with gen := g.num, seq := e.2.seq, wrapped := gk g }] | none => []
    let none_ := if e.2.st == .empty && e.2.seq != 0 then [{ LedgerEnt.of lkRetire e.1 with target := 0, seq := e.2.seq }] else []
    cur ++ new ++ none_)
  let slot := s.vault.slots.flatMap (fun e =>
    if e.2.st == .empty then (if e.2.seq = 0 then [] else [{ LedgerEnt.of lkRetire e.1 with target := 2, seq := e.2.seq }])
    else
      let w := wrap (kb e.2.key1 ++ (if e.2.klen = 1 then kb e.2.key2 else []))
      let i := slotInst s e.1
      [{ LedgerEnt.of lkSlot e.1 with seq := e.2.seq, usage := e.2.usage, owner := e.2.owner, klen := e.2.klen, inst := i, wrapped := w }])
  let kek := s.vault.keks.flatMap (fun e =>
    match e.2.key with
    | some k => [{ LedgerEnt.of lkKek e.1 with seq := e.2.seq, wrapped := wrap (kb k) }]
    | none => if e.2.seq = 0 then [] else [{ LedgerEnt.of lkRetire e.1 with target := 3, seq := e.2.seq }])
  (lostE ++ all ++ ctx ++ slot ++ kek).zipIdx.map (fun e => { e.1 with lseq := e.2 + 1 })

/-- LEDGER_COMPACT's effect: at three-quarters full, or early for a weak area (R373, R496), with no key command under way;
KEYROOT switches to the other area in one write. -/
def doCompactLedger (s : State) : State :=
  let k := gKeyroot s
  if !(decide (ledgerRoom * 3 / 4 ≤ (ledger s).length) || s.vault.weak) || !k.isSet || fld s F.KV_STAT_VAULT ≠ 1 ||
      !s.vault.installs.isEmpty then s
  else
    let l := liveEntries s
    let s := { s with vault := if k.area = 0 then { s.vault with area1 := l, weak := false } else { s.vault with area0 := l, weak := false } }
    let mac := match l.getLast? with | some e => ledgerMac s e | none => 0
    gPut G.keyroot (.keyroot { k with count := l.length, area := 1 - k.area, mac := mac }) false none .keyRoot
      (sed 0x0707 sINFO 4 l.length (1 - k.area) 0 s)

/-- LEDGER_COMPACT (R373). -/
def execLedgerCompact (s : State) : Host.Outcome State Fault Refusal := run doCompactLedger s

/-- A KEYROOT write that no command waits for is durable: the area it does not name is erased (R373). -/
def keyRootDone (s : State) : State :=
  { s with vault := if (gKeyroot s).area = 0 then { s.vault with area1 := [] } else { s.vault with area0 := [] } }

/-- KEY_SRAM_RELOAD's effect (R421): a key uncorrectable in both copies is read from the ledger again; a target whose
newest entry does not verify, or has none, becomes LOST. Kind 0 context, 1 slot, 2 KEK. -/
def doKeyReloadBy (ag kind index : Nat) (s : State) : State :=
  if !coreOn s || fld s F.KV_STAT_VAULT ≠ 1 then s else
  let s := mempUe 7 0 index ag s
  let mine := (ledger s).filter (fun e => e.index == index && decide (e.lseq ≤ (gKeyroot s).count) &&
    (if kind = 0 then [lkCur, lkNew, lkPromote, lkRestore].contains e.kind || (e.kind == lkRetire && decide (e.target ≤ 1))
     else if kind = 1 then e.kind == lkSlot || (e.kind == lkRetire && e.target == 2)
     else e.kind == lkKek || (e.kind == lkRetire && e.target == 3)))
  let bad := mine.find? (fun e => !(e.goodA || e.goodB))
  let holds := if kind = 0 then (ctxOf s index).cur.isSome else if kind = 1 then (slotOf s index).st != .empty else (kekOf s index).key.isSome
  match holds, bad with
  | true, some e =>
    let s := if kind = 0 then
        let s := modCtx index (fun c => { c with st := .lost, cur := none, new := none }) (purgeKey index s)
        setF F.KV_STAT_LOST (lostCtxs s).length s
      else if kind = 1 then modSlot index (fun x => { Slot.init with seq := x.seq }) s
      else modKek index (fun k => { k with key := none, lost := true }) s
    sed 0x0705 sCRITICAL 4 (tgtIdx (if kind = 0 then 0 else kind + 1) index) e.lseq 0 s
  | _, _ => s

/-- The same at an access that serves a request or a job. -/
def doKeyReload (kind index : Nat) (s : State) : State := doKeyReloadBy agRequest kind index s

/-- KEY_SRAM_RELOAD (R421). -/
def execKeySramReload (kind index : Nat) (s : State) : Host.Outcome State Fault Refusal := run (doKeyReload kind index) s

/-! ### The random source (R389 to R391) -/

/-- A test fails: the source stops and the start-up test runs again; `again` says that it fails too. After three failures
in a row the source is FAILED (R391). -/
def doRngFail (test : Nat) (again : Bool) (s : State) : State :=
  if !coreOn s || fld s F.KV_STAT_RNG = 2 then s else
  let one := fun (t : Nat) (s : State) =>
    let n := s.vault.rngFails + 1
    let s := { s with vault := { s.vault with rngFails := n, rngStopped := some (s.vault.rngStopped.getD s.tick.count) } }
    let s := if t = 0 then satInc F.KV_RNG_RCT_FAIL s else if t = 1 then satInc F.KV_RNG_APT_FAIL s else s
    sed 0x0710 sERROR 4 t n 0 s
  let dead := fun (s : State) => setF F.KV_STAT_RNG 2 s |> sed 0x0711 sCRITICAL 4 s.vault.rngFails 0 0
  let s := one test s
  if 3 ≤ s.vault.rngFails then dead s
  else if again then
    let s := one 2 s
    if 3 ≤ s.vault.rngFails then dead s else setF F.KV_STAT_RNG 0 s
  else
    let t := s.tick.count - s.vault.rngStopped.getD s.tick.count
    setF F.KV_STAT_RNG 1 { s with vault := { s.vault with rngFails := 0, rngStopped := none } } |> sed 0x0712 sNOTICE 4 t 0 0

/-- RNG_HEALTH_FAIL (R391). -/
def execRngHealthFail (test : Nat) (again : Bool) (s : State) : Host.Outcome State Fault Refusal := run (doRngFail test again) s

/-- The retry of a FAILED source at an epoch boundary (R391); `ok`: its start-up test passes. -/
def rngRetry (ok : Bool) (s : State) : State :=
  if fld s F.KV_STAT_RNG ≠ 2 then s
  else if ok then
    let t := s.tick.count - s.vault.rngStopped.getD s.tick.count
    firstKeys (setF F.KV_STAT_RNG 1 { s with vault := { s.vault with rngFails := 0, rngStopped := none } } |> sed 0x0712 sNOTICE 4 t 0 0)
  else s

/-- DRBG_RESEED (R390): at an epoch boundary, or after 2^20 generate requests. -/
def doReseed (s : State) : State :=
  if coreOn s && fld s F.KV_STAT_RNG == 1 && (tickInEpoch s == 0 || decide (2 ^ 20 ≤ s.vault.drbgReqs)) then
    satInc F.KV_RNG_RESEEDS { s with vault := { s.vault with drbgReqs := 0 } }
  else s

def execDrbgReseed (s : State) : Host.Outcome State Fault Refusal := run doReseed s

/-! ### ZPEND at a start (R399) -/

/-- Zero the recorded ranges and clear ZPEND; a range whose key index holds no key was purged and is skipped. -/
def zpendZero (s : State) : State :=
  let l := gZpend s
  if l.isEmpty then s else
  let s := forEach l (fun r s =>
    let s := if keyHolds s r.key then
        forEach (List.range r.count) (fun i s =>
          submit { kind := .zero, line := r.line + i, key := r.key, poison := false, data := 0, mask := 0, src := .internal
                   waiting := false, persisted := false } s) s
      else s
    sed 0x0733 sNOTICE 4 r.queue r.count 0 s) s
  gPut G.zpend (.zpend []) false none .none s

end Sys2Proof.Machine
end

