-- ==== Sys2Proof/Machine/Mgmt.lean ====
section
/-! DEFINITION. The management complex (R440 to R475): watchdog and restart, observation tokens, RESET_DEVICE, the Tuten
port's bus and MCTP, PLDM monitoring and SPDM. -/

namespace Sys2Proof.Machine

/-! ### Secured sessions (R443) -/

/-- A path has an established SPDM session. -/
def sessionOpen (s : State) (path : Nat) : Bool :=
  match tfind s.mgmt.spdm path with | some x => x.sessions.any (fun e => e.2 == 1) | none => false

/-- A message said to come inside a secured session does so. -/
def isSecured (s : State) (path : Nat) (secured : Bool) : Bool := secured && sessionOpen s path

/-- The lifecycle state asks for a secured session on the Tuten port (R443); `lc`: the command is LIFECYCLE_ADVANCE. -/
def needsSession (s : State) (lc : Bool) : Bool :=
  lifecycle s == 1 || lifecycle s == 2 || (lc && lifecycle s == 0)

/-- SECURE_REQUIRED (R443). -/
def secureRequired (op : Nat) (s : State) : State := sed 0x0922 sNOTICE 9 op 0 0 s

/-- The Tuten port's protocols are served (R456): the cores run, or Wellhead recovery does. -/
def tutServes (s : State) : Bool := !mgmtHeld s && decide (s.pwr.st ≤ 2) && !railFailed s 4 && fld s F.MGMT_STAT_CORES != 0

/-! ### Restart (R459 to R462) -/

/-- Restarts that began within the 64 epochs up to now. -/
def recentRestarts (s : State) : List Nat := s.mgmt.restarts.filter (fun e => decide (epoch s < e + 64))

/-- SPDM sessions open, as MGMT_SPDM shows them. -/
def spdmCount (s : State) (path : Nat) : Nat :=
  match tfind s.mgmt.spdm path with | some x => (x.sessions.filter (fun e => e.2 == 1)).length | none => 0
def spdmShow (s : State) : State :=
  setF F.MGMT_SPDM_SESSIONS ((List.range 4).foldl (fun a h => a + (spdmCount s h % 4) * 4 ^ h) 0 + spdmCount s tuten * 256) s

/-- Every SPDM session ends, on every path (R455). -/
def spdmEndAll (s : State) : State :=
  let open_ := s.mgmt.spdm.flatMap (fun e => (e.2.sessions.filter (fun x => x.2 == 1)).map (fun x => (e.1, x.1)))
  let s := { s with mgmt := { s.mgmt with spdm := [] } }
  spdmShow (forEach open_ (fun e s => sed 0x0920 sNOTICE 9 e.1 e.2 0 s) s)

/-- Each foreground command in flight ends (R461): Success once past its commit point, else BUSY with no effect. -/
def endForeground (s : State) : State :=
  forEach s.mgmt.inflight (fun e s =>
    if e.committed then
      answer e.path e.op rcSuccess (if e.op = 0xC002 then (s.ndx.commit.map ndxCommitOut).getD [] else []) s
    else answer e.path e.op rcBusy [] (sed 0x0903 sWARNING 9 e.op e.path 0 (abortCmd e.path s)))
    s |> fun s => { s with mgmt := { s.mgmt with inflight := [] } }

/-- The Nebadex staging buffer returns to EMPTY with no owner (R461). DESIGN CHOICE (log entry 161): with no owner
MGMT_NDX_STAT.OWNER, for which R93 gives no such code, shows the last owner, and 0 after a restart as after reset. -/
def stagingEmpty (s : State) : State :=
  setF F.MGMT_NDX_STAT_STAGE 0 (setF F.MGMT_NDX_STAT_OWNER 0 { s with ndx := { s.ndx with staged := [], owner := none, stagedCfg := none } })

/-- Step 1 of a restart: the cores are held, the cause is latched, and MGMT_RESTART is written (R460). A fourth within 64
epochs of the first of three earlier ones enters recovery mode instead (R462). A trial ends (R511). -/
def restartBegin (cause core : Nat) (s : State) : State :=
  let recent := recentRestarts s
  let s := { s with mgmt := { s.mgmt with restarts := recent ++ [epoch s], restartDue := some (cause, core) } }
  let s := setF F.MGMT_STAT_CORES 0 s |> satInc F.MGMT_WDT_RESTARTS |> setF F.MGMT_WDT_WINDOW (min 15 (recent.length + 1))
    |> setF F.MGMT_WDT_CORE core |> setF F.MGMT_WDT_CAUSE cause
  fwTrialDrop 1 (sed 0x0901 sERROR 9 cause core (recent.length + 1) s)

/-- The cores leave reset: all four, MGC0 alone in recovery mode, none once Wellhead is lost (R497, R499). -/
def coresRun (s : State) : State :=
  setF F.MGMT_STAT_CORES (if bit s F.SF_STAT_WELLHEAD_LOST then 0 else if inRecovery s then 1 else 15) s

/-- Wellhead recovery mode with its cause (R462, R499): only MGC0 runs. -/
def enterRecovery (cause : Nat) (s : State) : State :=
  setF F.MGMT_STAT_MODE 2 (coresRun { s with mgmt := { s.mgmt with recovery := some cause, restartDue := none } })

/-- Recovery mode with its record (R499). -/
def fwRecover (cause : Nat) (s : State) : State :=
  enterRecovery cause (sed 0x0A20 sCRITICAL 10 cause (fwSlotReason s 0 * 256 + fwSlotReason s 1) 0 s)

/-- Steps 2 to 5 (R460, R461): sessions end, commands in flight are ended, and the cores run again; `reloadOk` is whether
the running half of instruction SRAM could be reloaded after a trap. CXL.mem does not wait on the cores, so the stall that R42
measures is 0 ticks (R39, R40). -/
def restartEnd (reloadOk : Bool) (s : State) : State :=
  match s.mgmt.restartDue with
  | none => s
  | some (cause, _) =>
    let s := faultStall 6 0 0 (stagingEmpty (endForeground (spdmEndAll s)))
    let n := s.mgmt.restarts.length
    if 4 ≤ n then
      let first := lat 0 s.mgmt.restarts 0
      sed 0x0902 sCRITICAL 9 n (epoch s - first) 0 { enterRecovery 2 s with mgmt := { (enterRecovery 2 s).mgmt with limited := true } }
    else if cause = 2 && !reloadOk then fwRecover 3 s
    else setF F.MGMT_STAT_MODE 1 (coresRun { s with mgmt := { s.mgmt with restartDue := none } })

/-- WATCHDOG_EXPIRY (R459): a running core's watchdog expires. -/
def execWatchdogExpiry (core : Nat) (s : State) : Host.Outcome State Fault Refusal :=
  run (fun s => if (fld s F.MGMT_STAT_CORES).testBit core && decide (core < 4) && !inRecovery s && s.mgmt.restartDue.isNone then
    restartBegin 1 core s else s) s

/-- MGMT_RESTART (R460, R461): the restart that has begun runs to its end; with none begun it begins for the cause given. -/
def execMgmtRestart (cause core : Nat) (reloadOk : Bool) (s : State) : Host.Outcome State Fault Refusal :=
  run (fun s =>
    if inRecovery s then s
    else if s.mgmt.restartDue.isSome then restartEnd reloadOk s
    else if fld s F.MGMT_STAT_CORES = 0 then s
    else restartEnd reloadOk (restartBegin cause core s)) s

/-- A trap on an uncorrectable word (R419): MEMP_FETCH_TRAP, and the restart it starts. -/
def fetchTrap (core addr cls : Nat) (s : State) : State :=
  if fld s F.MGMT_STAT_CORES = 0 || inRecovery s then s
  else restartBegin 2 core (sed 0x0806 sCRITICAL 8 core (addr % 2 ^ 32) cls s)

/-- MEMP_FETCH_TRAP (R419): an address below 2^24 is Spring flash bank 0 (class 14), else instruction SRAM (class 8) or data
SRAM (class 9); the address map of the cores is not part of the register map (log entry 65). -/
def execMempFetchTrap (core addr : Nat) (s : State) : Host.Outcome State Fault Refusal :=
  run (fun s =>
    let cls := if addr < 2 ^ 26 then 14 else if addr / 2 ^ 20 % 2 = 0 then 8 else 9
    fetchTrap core addr cls (mempUe cls 0 addr agRequest s)) s

/-! ### Observation tokens (R472 to R474) -/

/-- The code of the first check of R473 that fails. -/
def tokenCheck (s : State) (d : List Byte) : Nat :=
  let pub := sub d 32 96
  if d.take 4 ≠ [0x4F, 0x42, 0x54, 0x31] ∨ zeroAt d 5 3 = false ∨ 3 < byteAt d 4 then rcInvalid
  else if lifecycle s = 0 ∨ lifecycle s = 3 then rcRefused
  else if bit s F.TICK_CAL_STAT_VALID = false ∨ s.tick.cal < at' d 16 6 ∨ at' d 22 6 ≤ s.tick.cal then rcConflict
  else if at' d 8 8 ≠ serialNo s ∨ sha384 pub ≠ (gLcrec s).1 ∨ ecdsaVerify pub (sub d 128 96) (d.take 128) = false then rcAuthFail
  else if at' d 28 4 ≤ gCounter s (.dev 3) then rcStale
  else rcSuccess

/-- OBS_TOKEN_INSTALL's effect: the token floor is raised in Gauge; the token is held when that is durable. -/
def doToken (path : Nat) (d : List Byte) (s : State) : State :=
  cmd path 0xC051 d (d.length == 224) (fun s =>
    let rc := tokenCheck s d
    if rc ≠ rcSuccess then answer path 0xC051 rc [] (sed 0x0932 sWARNING 9 rc (at' d 28 4) 0 s)
    else if s.mgmt.tokenNew.isSome then answer path 0xC051 rcBusy [] s
    else
      let t : Token := ⟨byteAt d 4, at' d 22 6, at' d 28 4⟩
      gEnq (.raise (.dev 3) t.tseq) false (some path) (.token path)
        (startCmd path 0xC051 true { s with mgmt := { s.mgmt with tokenNew := some (path, t) } })) s

/-- OBS_TOKEN_INSTALL (R473). -/
def execObsTokenInstall (path : Nat) (input : List Byte) (s : State) : Host.Outcome State Fault Refusal := run (doToken path input) s

/-- Show the held token. -/
def tokenShow (s : State) : State :=
  match s.mgmt.token with
  | some t => setF F.MGMT_OBS_TOKEN 1 s |> setF F.MGMT_OBS_TOKEN_LEVEL t.level |> setF F.MGMT_OBS_EXP_LO_MS (t.notAfter % 2 ^ 32)
      |> setF F.MGMT_OBS_EXP_HI_MS (t.notAfter / 2 ^ 32)
  | none => setF F.MGMT_OBS_TOKEN 0 s |> setF F.MGMT_OBS_TOKEN_LEVEL 3 |> setF F.MGMT_OBS_EXP_LO_MS 0 |> setF F.MGMT_OBS_EXP_HI_MS 0

/-- The held token goes: 0 at its time, 1 at a lifecycle advance, 2 replaced (R474). -/
def tokenDrop (why : Nat) (s : State) : State :=
  match s.mgmt.token with
  | none => s
  | some t => tokenShow { s with mgmt := { s.mgmt with token := none } } |> sed 0x0933 sNOTICE 9 t.level t.tseq why

/-- The floor is durable: the token is held in place of any other (R473). -/
def tokenDone (path : Nat) (s : State) : State :=
  match s.mgmt.tokenNew with
  | none => s
  | some (p, t) =>
    let s := { s with mgmt := { s.mgmt with tokenNew := none } }
    if p ≠ path then s
    else
      let s := tokenDrop 2 s
      let s := tokenShow { s with mgmt := { s.mgmt with token := some t } }
      endCmd path 0xC051 rcSuccess [] (sed 0x0931 sNOTICE 9 t.level t.tseq (t.notAfter % 2 ^ 32) s)

/-! ### RESET_DEVICE (R475) -/

/-- RESET_DEVICE's effect: Success, then the sequence of MR_N, which the next tick boundary starts. -/
def doResetDevice (path : Nat) (secured : Bool) (d : List Byte) (s : State) : State :=
  cmd path 0xC081 d (d.length == 1) (fun s =>
    if d ≠ [0] then answer path 0xC081 rcInvalid [] s
    else if needsSession s false && !isSecured s path secured then answer path 0xC081 rcRefused [] (secureRequired 0xC081 s)
    else answer path 0xC081 rcSuccess [] { s with mgmt := { s.mgmt with resetDue := true } }) s

/-- RESET_DEVICE (R475). -/
def execResetDevice (path : Nat) (secured : Bool) (input : List Byte) (s : State) : Host.Outcome State Fault Refusal :=
  run (doResetDevice path secured input) s

/-! ### The bus of the Tuten port (R444 to R446) -/

/-- The port's static address (R444). -/
def statAddr (s : State) : Nat := 0x58 + s.devid % 8

/-- The port is powered (R456). -/
def tutBus (s : State) : Bool := decide (s.pwr.st ≤ 3)

/-- Change the bus mode, with TUT_BUS_MODE (R445). -/
def busMode (i3c : Bool) (addr : Nat) (s : State) : State :=
  setB F.MGMT_TUT_STAT_BUSMODE i3c s |> setF F.MGMT_TUT_STAT_DYNADDR addr |> setF F.MGMT_TUT_STAT_STATADDR (statAddr s)
    |> sed 0x0910 sINFO 9 (if i3c then 1 else 0) addr (statAddr s)

/-- I3C_DYNAMIC_ADDRESS (R444, R445): ENTDAA or SETDASA assigns an unassigned port its address. -/
def execI3cDynamicAddress (_setdasa : Bool) (addr : Nat) (s : State) : Host.Outcome State Fault Refusal :=
  run (fun s => if tutBus s && !bit s F.MGMT_TUT_STAT_BUSMODE then busMode true (addr % 128) s else s) s

/-- I3C_RSTDAA (R445). -/
def execI3cRstdaa (s : State) : Host.Outcome State Fault Refusal :=
  run (fun s => if tutBus s && bit s F.MGMT_TUT_STAT_BUSMODE then busMode false 0 s else s) s

/-- A supported common command code (R444); PID, BCR, DCR and the lengths that the spec does not state are the I3C
standard's (log entry 5). -/
def doCcc (code : Nat) (s : State) : State :=
  if !tutBus s || !bit s F.MGMT_TUT_STAT_BUSMODE then s else
  let give := fun b => emit (.tuten 2 b) s
  if code = 0x00 ∨ code = 0x80 then { s with mgmt := { s.mgmt with ibiOn := true } }
  else if code = 0x01 ∨ code = 0x81 then { s with mgmt := { s.mgmt with ibiOn := false } }
  else if code = 0x8D then
    give (be 6 (beVal (sub (Config.bytes "I3C provisioned ID" 0) 0 6) / 2 ^ 12 * 2 ^ 12 + s.devid % 2 ^ 12))
  else if code = 0x8E then give (sub (Config.bytes "I3C BCR" 0) 0 1)
  else if code = 0x8F then give (sub (Config.bytes "I3C DCR" 0) 0 1)
  else if code = 0x8B then give (sub (Config.bytes "I3C MWL" 0) 0 2)
  else if code = 0x8C then give (sub (Config.bytes "I3C MRL" 0) 0 3)
  else if code = 0x90 then give (be 2 (if bit s F.MGMT_ALERT_PENDING then 1 else 0))
  else s

/-- I3C_CCC (R444). -/
def execI3cCcc (code : Nat) (_arg : List Byte) (s : State) : Host.Outcome State Fault Refusal := run (doCcc code) s

/-- SMBUS_ALERT_RESPONSE (R446): in SMBus mode with an alert pending the port answers with its static address. -/
def execSmbusAlertResponse (s : State) : Host.Outcome State Fault Refusal :=
  run (fun s => if tutBus s && !bit s F.MGMT_TUT_STAT_BUSMODE && bit s F.MGMT_ALERT_PENDING then
    emit (.tuten 3 (le 1 (2 * statAddr s))) s else s) s

/-! ### MCTP (R447, R448) -/

/-- Message types that the port accepts (R448). -/
def mctpTypes : List Nat := [0x00, 0x01, 0x05, 0x06, 0x08, 0x7E]

/-- The endpoint ID is assigned: messages other than control are answered (R447). -/
def hasEid (s : State) : Bool := fld s F.MGMT_TUT_STAT_EID != 0

/-- A message that its packets spoil: an SMBus PEC error, or one that passes the 8,192 bytes of the assembly (R447). -/
def tutDropped (pec : Bool) (n : Nat) (s : State) : Option State :=
  if pec && !bit s F.MGMT_TUT_STAT_BUSMODE then
    let s := satInc F.MGMT_TUT_ERR_PEC s
    some (sed 0x0912 sNOTICE 9 0 (fld s F.MGMT_TUT_ERR_PEC) 0 s)
  else if 8192 < n then
    let s := satInc F.MGMT_TUT_ERR_ASSEMBLY s
    some (sed 0x0912 sNOTICE 9 1 (fld s F.MGMT_TUT_ERR_ASSEMBLY) 0 s)
  else none

/-- An MCTP control request's answer: command and completion code, then data (DSP0236). -/
def doMctpControl (c : Nat) (arg : List Byte) (s : State) : State :=
  if !tutBus s then s else
  let give := fun (b : List Byte) (s : State) => emit (.tuten 0 ([0x00, 0x00] ++ le 1 c ++ b)) s
  if c = 0x01 then
    let op := byteAt arg 0 % 4
    let eid := byteAt arg 1
    if arg.length ≠ 2 then give [0x03] s
    else if 2 ≤ op ∨ eid < 8 ∨ eid = 255 then give [0x02] s
    else give ([0x00, 0x00] ++ le 1 eid ++ [0x00]) (setF F.MGMT_TUT_STAT_EID eid s |> sed 0x0911 sINFO 9 eid 0 0)
  else if c = 0x02 then give ([0x00] ++ le 1 (fld s F.MGMT_TUT_STAT_EID) ++ [0x00, 0x00]) s
  else if c = 0x04 then
    if mctpTypes.contains (byteAt arg 0) ∨ byteAt arg 0 = 0xFF then
      give ([0x00, 0x01] ++ sub (Config.bytes "MCTP version" (byteAt arg 0)) 0 4) s
    else give [0x80] s
  else if c = 0x05 then give ([0x00, 0x05] ++ ((mctpTypes.drop 1).map (fun t => BitVec.ofNat 8 t))) s
  else give [0x05] s

/-- MCTP_CONTROL (R447). -/
def execMctpControl (pec : Bool) (cmd : Nat) (arg : List Byte) (s : State) : Host.Outcome State Fault Refusal :=
  run (fun s => if !tutBus s then s else (tutDropped pec arg.length s).getD (doMctpControl cmd arg s)) s

/-- MCTP_UNSUPPORTED_TYPE (R448). -/
def execMctpUnsupportedType (type : Nat) (s : State) : Host.Outcome State Fault Refusal :=
  run (fun s =>
    if !tutServes s || mctpTypes.contains type then s
    else
      let s := satInc F.MGMT_TUT_ERR_TYPE s
      sed 0x0912 sNOTICE 9 2 (fld s F.MGMT_TUT_ERR_TYPE) 0 s) s

/-! ### PLDM types 0 and 2 (R450) -/


/-- A sensor's reading (R450); none for a sensor that the repository lacks. -/
def sensorValue (s : State) (id : Nat) : Option Int :=
  match id with
  | 1 => some (groupC s / 10)
  | 2 => some (groupM s / 10)
  | 3 => some (groupD s / 10)
  | 4 => some (chanValue s 31 * 10)
  | 5 => some (Int.ofNat (s.sup.resV * 10))
  | 6 => some (Int.ofNat s.mgmt.powerAvg)
  | 7 => some (Int.ofNat (lifeUsed s))
  | 20 => some (Int.ofNat (mode s))
  | 21 => some (Int.ofNat (lifecycle s))
  | 22 => some (Int.ofNat s.pwr.st)
  | _ => none

def sensorIds : List Nat := [1, 2, 3, 4, 5, 6, 7, 20, 21, 22]

/-- Thresholds of a numeric sensor: warning, critical, fatal (R450); unit 4's are lower limits. -/
def sensorLimits (s : State) (id : Nat) : List Nat :=
  let t := cfgThermal s
  if 1 ≤ id ∧ id ≤ 3 then [lat 0 t (4 * (id - 1)), lat 0 t (4 * (id - 1) + 2), lat 0 t (4 * (id - 1) + 3)]
  else if id = 4 then [s.sup.vWarn, s.sup.vFail] else []

/-- A PDR of the repository: its header and what R450 says of the sensor; the rest is DSP0248's. -/
def pdr (s : State) (id : Nat) : List Byte :=
  le 4 id ++ [0x01] ++ le 1 (if id < 20 then 2 else 4) ++ le 2 0 ++ le 2 id ++ (sensorLimits s id).flatMap (le 2) ++
  Config.bytes "PLDM PDR" id

/-- A PLDM type 0 or 2 request's answer: completion code, then data (DSP0240, DSP0248). -/
def doPldm (type c : Nat) (arg : List Byte) (s : State) : State :=
  if !tutServes s || !hasEid s || inRecovery s then s else
  let give := fun (b : List Byte) (s : State) => emit (.tuten 1 (le 1 type ++ le 1 c ++ b)) s
  if type = 0 then
    if c = 0x01 then give [0x00] { s with mgmt := { s.mgmt with pldmTid := byteAt arg 0 } }
    else if c = 0x02 then give ([0x00] ++ le 1 s.mgmt.pldmTid) s
    else if c = 0x03 then give ([0x00] ++ le 4 0 ++ [0x05] ++ sub (Config.bytes "PLDM version" (byteAt arg 5)) 0 8) s
    else if c = 0x04 then give ([0x00] ++ le 8 0x25) s
    else if c = 0x05 then give ([0x00] ++ sub (Config.bytes "PLDM commands" (byteAt arg 0)) 0 32) s
    else give [0x05] s
  else if type = 2 then
    if c = 0x04 then
      -- SetEventReceiver: global enable, transport, endpoint
      give [0x00] { s with mgmt := { s.mgmt with evReceiver := if byteAt arg 0 = 0 then none else some (byteAt arg 2) } }
    else if c = 0x05 then give ([0x00, 0x00] ++ le 1 (s.mgmt.evReceiver.getD 0xFF)) s
    else if c = 0x11 ∨ c = 0x21 then
      (match sensorValue s (at' arg 0 2) with
       | some v => give ([0x00] ++ (if c = 0x11 then [0x05] else [0x01]) ++ [0x00] ++ le 4 (v % 2 ^ 32).toNat) s
       | none => give [0x80] s)
    else if c = 0x50 then give ([0x00, 0x00] ++ zeros 26 ++ le 4 sensorIds.length ++ zeros 8) s
    else if c = 0x51 then
      let i := at' arg 0 4
      (match sensorIds[i - 1]? with
       | some id => if i = 0 then give ([0x00] ++ pdr s (lat 0 sensorIds 0)) s else give ([0x00] ++ pdr s id) s
       | none => give [0x82] s)
    else give [0x05] s
  else s

/-- PLDM_MONITORING (R450). -/
def execPldmMonitoring (type cmd : Nat) (arg : List Byte) (s : State) : Host.Outcome State Fault Refusal := run (doPldm type cmd arg) s

/-! ### SPDM (R452 to R455) -/

def spdmOf (s : State) (path : Nat) : Spdm := tget ⟨0, [], 0⟩ s.mgmt.spdm path
def putSpdm (path : Nat) (x : Spdm) (s : State) : State := { s with mgmt := { s.mgmt with spdm := tput path x s.mgmt.spdm } }

/-- Words of the identity registers as fused (R57). -/
def glbWords (s : State) : List Byte := le 4 (partNo s) ++ le 4 (s.reg Reg.GLB_UNITS_FUSED).toNat ++ le 4 (capFused s)

/-- Measurement n (R454). Wellhead's code is the first 256 KiB of bank 0. -/
def measurement (s : State) (n : Nat) : List Byte :=
  match n with
  | 1 => sha384 (flashBytes s 0 0x40000)
  | 2 => if inRecovery s then zeros 48 else match runningImage s with | some f => f.digest | none => zeros 48
  | 3 => (List.range 12).flatMap (fun k => le 4 (s.reg (Reg.MGMT_NDX_DIGEST 0 + 4 * k)).toNat)
  | 4 => sha384 (le 1 (lifecycle s) ++ le 1 (fld s F.MGMT_OBS_EFFECTIVE))
  | 5 => sha384 (glbWords s)
  | 6 => sha384 (le 4 (match runningImage s with | some f => f.svn | none => 0) ++ le 4 (gCounter s (.dev 1)) ++ le 4 (gCounter s (.dev 2)))
  | _ => []

/-- A measurement block of DMTF form: index, specification 1, size, type and size of the digest, the digest. -/
def measBlock (s : State) (n : Nat) : List Byte := le 1 n ++ [0x01] ++ le 2 51 ++ le 1 (if n = 1 then 0 else if n = 3 ∨ n = 4 then 3 else 1) ++ le 2 48 ++ measurement s n

/-- A certificate slot's chain (R453); slots 2 to 7 are empty. -/
def certChain (slot : Nat) : List Byte := if slot ≤ 1 then Config.bytes "certificate chain" slot else []

/-- Sessions a path may hold (R452). -/
def sessionLimit (path : Nat) : Nat := if path = tuten then 4 else 2

/-- A request fails: an ERROR response; a handshake's failure is counted (R477). -/
def spdmErr (path code : Nat) (handshake : Bool) (give : List Byte → State → State) (s : State) : State :=
  let s := if handshake then satInc F.MGMT_SPDM_FAILS s |> sed 0x0921 sWARNING 9 path code 0 else s
  give [0x13, 0x7F, BitVec.ofNat 8 code, 0] s

/-- Random bytes, and bytes of a signature under the alias key. -/
def spdmSign (n : Nat) (s : State) : State × List Byte := drawBytes n s

/-- An SPDM 1.3 request's answer (DSP0274): version, code, then the response. -/
def doSpdm (path : Nat) (m : List Byte) (s : State) : State :=
  let serves := if isHead path then headOn s path && (headOf s path).released && fld s F.MGMT_STAT_CORES != 0
    else path == tuten && tutServes s && hasEid s
  if !serves then s else
  let give := fun (b : List Byte) (s : State) => if isHead path then emit (.doe path b) s else emit (.tuten 5 b) s
  let x := spdmOf s path
  let code := byteAt m 1
  let p1 := byteAt m 2
  let p2 := byteAt m 3
  let early := spdmErr path 0x04 false give s          -- UnexpectedRequest
  if m.length < 4 then spdmErr path 0x01 false give s
  else if code = 0x84 then give ([0x10, 0x04, 0, 0, 0, 1] ++ [0x00, 0x13]) (putSpdm path { x with stage := 1 } s)
  else if byteAt m 0 ≠ 0x13 then spdmErr path 0x41 false give s
  else if code = 0xE1 then
    if x.stage = 1 then give ([0x13, 0x61, 0, 0] ++ sub (Config.bytes "SPDM capabilities" 0) 0 16) (putSpdm path { x with stage := 2 } s) else early
  else if code = 0xE3 then
    if x.stage = 2 then give ([0x13, 0x63, 0, 0] ++ sub (Config.bytes "SPDM algorithms" 0) 0 32) (putSpdm path { x with stage := 3 } s) else early
  else if x.stage < 3 then early
  else if code = 0x81 then
    give ([0x13, 0x01, 0, 0x03] ++ sha384 (certChain 0) ++ sha384 (certChain 1)) s
  else if code = 0x82 then
    let c := certChain (p1 % 16)
    if c.isEmpty then spdmErr path 0x01 false give s
    else
      let part := (c.drop (at' m 4 2)).take (at' m 6 2)
      give ([0x13, 0x02] ++ le 1 p1 ++ [0] ++ le 2 part.length ++ le 2 (c.length - at' m 4 2 - part.length) ++ part) s
  else if code = 0x83 then
    if (certChain (p1 % 16)).isEmpty then spdmErr path 0x01 false give s
    else
      let (s, n) := drawBytes 32 s
      let (s, sig) := spdmSign 96 s
      let sum := if p2 = 0 then [] else sha384 ((List.range 6).flatMap (fun k => measBlock s (k + 1)))
      give ([0x13, 0x03] ++ le 1 p1 ++ [0] ++ sha384 (certChain (p1 % 16)) ++ n ++ sum ++ [0, 0] ++ sig) s
  else if code = 0xE0 then
    let l := if p2 = 0 then [] else if p2 = 0xFF then [1, 2, 3, 4, 5, 6] else [p2]
    if 6 < p2 ∧ p2 ≠ 0xFF then spdmErr path 0x01 false give s
    else
      let rec_ := l.flatMap (measBlock s)
      let (s, n) := drawBytes 32 s
      let (s, sig) := if p1 % 2 = 1 then spdmSign 96 s else (s, [])
      give ([0x13, 0x60] ++ le 1 (if p2 = 0 then 6 else 0) ++ [0] ++ le 1 l.length ++ le 3 rec_.length ++ rec_ ++ n ++ [0, 0] ++ sig) s
  else if code = 0xE4 then
    -- KEY_EXCHANGE opens a handshake
    if sessionLimit path ≤ x.sessions.length then spdmErr path 0x08 true give s      -- SessionLimitExceeded
    else
      let (s, n) := drawBytes 32 s
      let (s, dh) := drawBytes 96 s
      let (s, sig) := spdmSign 144 s
      let id := at' m 4 2 + 65536 * x.nextId
      give ([0x13, 0x64, 0, 0] ++ le 2 x.nextId ++ [0, 0] ++ n ++ dh ++ [0, 0] ++ sig)
        (putSpdm path { x with sessions := x.sessions ++ [(id, 0)], nextId := (x.nextId + 1) % 65536 } s)
  else if code = 0xE5 then
    -- FINISH: whether the requester's verify data is right rests on keys the model does not derive, a free bit
    (match x.sessions.find? (fun e => e.2 == 0) with
     | none => early
     | some (id, _) =>
       let (ok, s) := draw 1 s
       if ok = 1 then
         give [0x13, 0x65, 0, 0] (spdmShow (putSpdm path { x with sessions := x.sessions.map (fun e => if e.1 = id then (id, 1) else e) } s)
           |> sed 0x0920 sNOTICE 9 path id 1)
       else spdmErr path 0x06 true give (putSpdm path { x with sessions := x.sessions.filter (fun e => e.1 != id) } s))
  else if code = 0xE8 ∨ code = 0xE9 then
    if x.sessions.any (fun e => e.2 == 1) then give [0x13, BitVec.ofNat 8 (code % 128), BitVec.ofNat 8 p1, BitVec.ofNat 8 p2] s else early
  else if code = 0xEC then
    (match x.sessions.find? (fun e => e.2 == 1) with
     | none => early
     | some (id, _) =>
       give [0x13, 0x6C, 0, 0] (spdmShow (putSpdm path { x with sessions := x.sessions.filter (fun e => e.1 != id) } s)
         |> sed 0x0920 sNOTICE 9 path id 0))
  else spdmErr path 0x07 false give s                  -- UnsupportedRequest

/-- SPDM_MESSAGE (R452). -/
def execSpdmMessage (path : Nat) (msg : List Byte) (s : State) : Host.Outcome State Fault Refusal := run (doSpdm path msg) s

end Sys2Proof.Machine
end

