-- ==== Sys2Proof/Machine/Flash.lean ====
section
/-! DEFINITION. Spring flash's command port (R478 to R497). -/

namespace Sys2Proof.Machine

/-- Bank and sector of a byte address (R478). -/
def sfBank (a : Nat) : Nat := a / 2 ^ 24
def sfSector (a : Nat) : Nat := a / 2 ^ 16

/-- The 64-bit word stored at an address, and its 72-bit codeword; an erased word is all ones (R407, R409). -/
def sfWord (s : State) (a : Nat) : BitVec 64 := BitVec.ofNat 64 (leVal (flashBytes s a 8))
def codeword (d : BitVec 64) : BitVec 72 := (eccCheck d).zeroExtend 72 <<< 64 ||| d.zeroExtend 72
def storedWord (d : BitVec 64) : BitVec 72 := if d = BitVec.allOnes 64 then BitVec.allOnes 72 else codeword d

/-- Sectors of Wellhead, its mirror and the calibration row (R482). -/
def sfProtected (a : Nat) : Bool :=
  let k := sfSector a
  decide (k < 16) || k == 255 || (decide (768 ≤ k) && decide (k < 784))

/-- No program or erase may start (R494). -/
def sfLowV (s : State) : Bool := inGuard s || inFlush s || railFailed s 4

/-- A core may use the port: the flash is powered, the cores run. -/
def sfThere (s : State) (core : Nat) : Bool := decide (core < 4) && s.pwr.st != 4 && s.pwr.st != 3 && !railFailed s 4

def modFlash (f : Flash → Flash) (s : State) : State := { s with flash := f s.flash }

/-- A sequence is discarded with SEQ_ERR (R484). -/
def sfSeqErr (s : State) : State := setF F.SF_OPSTAT_SEQ_ERR 1 (modFlash (fun f => { f with seq := none }) s)

/-- Show the banks at work. -/
def sfShow (s : State) : State :=
  let bank : Option SfOp → Nat := fun o => match o with | some x => 2 ^ sfBank x.addr | none => 0
  let m := (if s.flash.suspended then 0 else bank s.flash.op) ||| bank s.flash.nested
  setF F.SF_STAT_BANK_BUSY m s |> setB F.SF_OPSTAT_BUSY ((s.flash.op.isSome && !s.flash.suspended) || s.flash.nested.isSome)
    |> setB F.SF_OPSTAT_SUSPENDED s.flash.suspended |> setB F.SF_OPSTAT_NESTED s.flash.nested.isSome

/-- Start a program or an erase (R482, R487, R489, R491, R492, R494): the first condition that refuses it names the bit it
sets; `fetch` is the issuing core's instruction-fetch address. -/
def sfStart (x : SfOp) (fetch : Nat) (s : State) : State :=
  let addrBad := decide (2 ^ 26 ≤ x.addr) || x.addr % 8 != 0
  let busy := match s.flash.op with
    | none => false
    | some o => !s.flash.suspended || s.flash.nested.isSome || x.erase || sfSector o.addr == sfSector x.addr
  -- the spec gives these refusals no order; DESIGN CHOICE, log entry 209
  if addrBad then setF F.SF_OPSTAT_ADDR_ERR 1 s
  else if busy then sfSeqErr s
  else if sfProtected x.addr then setF F.SF_OPSTAT_PROTECTED 1 s
  else if !x.self && decide (fetch < 2 ^ 26) && sfBank fetch == sfBank x.addr then
    setF F.SF_OPSTAT_CONFLICT 1 s |> sed 0x0A02 sWARNING 10 x.addr x.core fetch
  else if sfLowV s then setF F.SF_OPSTAT_LOWV 1 s
  else if x.erase then sfShow (modFlash (fun f => { f with op := some x, autoSusp := false, forcedTick := none }) s)
  else
    let old := storedWord (sfWord s x.addr)
    let new := codeword x.data
    if new = old then setF F.SF_OPSTAT_DONE 1 s
    else if new &&& ~~~ old ≠ 0 then setF F.SF_OPSTAT_NOT_ERASED 1 s |> sed 0x0A01 sERROR 10 x.addr x.core 0
    else sfShow (modFlash (fun f => if f.op.isSome then { f with nested := some x } else { f with op := some x }) s)

/-- SUSPEND (R490, R491, R493). -/
def sfSuspend (s : State) : State :=
  match s.flash.nested, s.flash.op with
  | some _, _ => setF F.SF_OPSTAT_SUSPEND_IGNORED 1 s
  | none, some o =>
    if s.flash.suspended then sfSeqErr s
    else if !o.erase || o.self then setF F.SF_OPSTAT_SUSPEND_IGNORED 1 s
    else sfShow (modFlash (fun f => { f with suspended := true, autoSusp := false, forcedTick := none }) s)
  | none, none => sfSeqErr s

/-- RESUME (R491). -/
def sfResume (s : State) : State :=
  if !s.flash.suspended then s
  else if s.flash.nested.isSome then modFlash (fun f => { f with resumeHeld := true }) s
  else sfShow (modFlash (fun f => { f with suspended := false, resumeHeld := false }) s)

/-- BLANK_CHECK of a sector (R485, R487); its 12 to 20 µs are not shown. -/
def sfBlank (a : Nat) (s : State) : State :=
  if 2 ^ 26 ≤ a ∨ a % 8 ≠ 0 then setF F.SF_OPSTAT_ADDR_ERR 1 s
  else if s.flash.op.isSome then sfSeqErr s
  else
    let k := sfSector a
    setB F.SF_OPSTAT_BLANK (!s.flash.mem.any (fun c => sfSector c.1 == k)) s |> setF F.SF_OPSTAT_DONE 1

/-- The W1C bits of SF_OPSTAT clear (R485). -/
def sfClear (s : State) : State := s.putReg Reg.SF_OPSTAT (s.reg Reg.SF_OPSTAT &&& ~~~ 0x27DE)

/-- A sequence takes its next step. -/
def sfStep (q : SfSeq) (s : State) : State := modFlash (fun f => { f with seq := some q }) s

/-- A command register is written by another core than the sequence's owner: ignored (R486). -/
def sfOwned (core : Nat) (s : State) : Bool := match s.flash.seq with | some q => q.core != core | none => false

/-- A write of SF_UNLOCK (R484): 0xAA, then 0x55. -/
def sfUnlock (core : Nat) (v : Nat) (s : State) : State :=
  match s.flash.seq with
  | none => if v = 0xAA then sfStep ⟨core, 1, 0, false, 0, 0⟩ s else sfSeqErr s
  | some q => if q.step = 1 ∧ v = 0x55 then sfStep { q with step := 2 } s else sfSeqErr s

/-- A write of SF_CMD (R484, R485). -/
def sfCmd (core : Nat) (v : Nat) (s : State) : State :=
  let op := v % 256
  let note := fun s => setF F.SF_OPSTAT_OP op s |> setF F.SF_OPSTAT_CORE core
  match s.flash.seq with
  | some q =>
    if op = 0xF0 then note (modFlash (fun f => { f with seq := none }) s)
    else if q.step = 2 ∧ (op = 0x10 ∨ op = 0x20) then note (sfStep { q with step := 3, cmd := op, self := v / 256 % 2 == 1 } s)
    else sfSeqErr s
  | none =>
    if op = 0x30 then note (sfStep ⟨core, 3, 0x30, false, 0, 0⟩ s)
    else if op = 0x50 then sfClear (note s)
    else if op = 0xB0 then sfSuspend (note s)
    else if op = 0xD0 then sfResume (note s)
    else if op = 0xF0 then note s
    else sfSeqErr s

/-- A write of SF_ADDR (R484, R485). -/
def sfAddr (v : Nat) (s : State) : State :=
  let s := setF F.SF_ADDR_ADDR (v / 8) s
  match s.flash.seq with
  | some q =>
    if q.step ≠ 3 then sfSeqErr s
    else if q.cmd = 0x30 then sfBlank v (modFlash (fun f => { f with seq := none }) s)
    else if q.cmd = 0x20 ∧ v % 65536 ≠ 0 then sfSeqErr s
    else sfStep { q with step := 4, addr := v } s
  | none => sfSeqErr s

/-- A write of SF_DATA_LO, and of SF_DATA_HI, which starts the operation (R484). -/
def sfLo (v : Nat) (s : State) : State :=
  match s.flash.seq with
  | some q => if q.step = 4 ∧ (q.cmd ≠ 0x20 ∨ v = 0xD0) then sfStep { q with step := 5, lo := v } s else sfSeqErr s
  | none => sfSeqErr s

def sfHi (v fetch : Nat) (s : State) : State :=
  match s.flash.seq with
  | some q =>
    if q.step = 5 ∧ (q.cmd ≠ 0x20 ∨ v = 0) then
      sfStart ⟨q.cmd == 0x20, q.addr, BitVec.ofNat 64 (v * 2 ^ 32 + q.lo), q.self, q.core⟩ fetch
        (modFlash (fun f => { f with seq := none }) s)
    else sfSeqErr s
  | none => sfSeqErr s

/-- What a data read of a bank does at once (R480, R495); none where it has to wait. It waits for a program or a SELF
operation, and while a forced erase has not run for 500 µs; another running erase of the bank is suspended for it; the sector
being erased reads as ones. -/
def sfReadNow (a : Nat) (s : State) : Option State :=
  let give := fun (s : State) =>
    let s := mempReadWith 14 (sfBank a) (a % 2 ^ 24 / 8) 1 agInternal
      (fun w s => satInc F.SF_ERR_UE s |> mempUe 14 (sfBank a) w agInternal) s
    let s := if s.flash.badWords.contains (a / 8) then
        satInc F.SF_ERR_UE s |> mempUe 14 (sfBank a) (a / 8) agRequest
      else s
    emit (.flash (sfWord s (a / 8 * 8))) s
  let blocked := fun (o : Option SfOp) => match o with | some x => sfBank x.addr == sfBank a && (!x.erase || x.self) | none => false
  let forced := match s.flash.forcedTick with | some t => decide (s.tick.count < t + 125) | none => false
  if blocked s.flash.nested || (blocked s.flash.op && !s.flash.suspended) then none
  else
    match s.flash.op with
    | some x =>
      if sfBank x.addr ≠ sfBank a then some (give s)
      else if forced && !s.flash.suspended && !s.flash.autoSusp then none
      else
        let s := if s.flash.suspended then s else modFlash (fun f => { f with autoSusp := true }) s
        if sfSector x.addr = sfSector a then some (emit (.flash (BitVec.allOnes 64)) (setF F.SF_ERR_READ_ERASING 1 s))
        else some (give s)
    | none => some (give s)

/-- A data read is served, or waits. -/
def sfRead (a : Nat) (s : State) : State :=
  if 2 ^ 26 ≤ a ∨ s.pwr.st = 4 then s
  else (sfReadNow a s).getD (modFlash (fun f => { f with reads := f.reads ++ [a] }) s)

/-- The reads that wait are tried again, oldest first. -/
def sfServe (s : State) : State := forEach s.flash.reads sfRead (modFlash (fun f => { f with reads := [] }) s)

/-- A core's write of a command register (R486): 0 SF_UNLOCK, 1 SF_CMD, 2 SF_ADDR, 3 SF_DATA_LO, 4 SF_DATA_HI. -/
def sfWrite (core reg_ : Nat) (v : BitVec 32) (fetch : Nat) (s : State) : State :=
  if !sfThere s core then s
  else if sfOwned core s then setF F.SF_OPSTAT_OWNED 1 s
  else if reg_ = 0 then sfUnlock core v.toNat s
  else if reg_ = 1 then sfCmd core v.toNat s
  else if reg_ = 2 then sfAddr v.toNat s
  else if reg_ = 3 then sfLo v.toNat s
  else sfHi v.toNat fetch s

/-- SF_UNLOCK_WRITE (R484). -/
def execSfUnlockWrite (core : Nat) (v : BitVec 32) (s : State) : Host.Outcome State Fault Refusal := run (sfWrite core 0 v 0) s
/-- SF_PROGRAM (R489): the SF_DATA_HI write that starts a program. -/
def execSfProgram (core : Nat) (v : BitVec 32) (fetch : Nat) (s : State) : Host.Outcome State Fault Refusal := run (sfWrite core 4 v fetch) s
/-- SF_SECTOR_ERASE (R484): the SF_DATA_HI write that starts an erase. -/
def execSfSectorErase (core : Nat) (v : BitVec 32) (fetch : Nat) (s : State) : Host.Outcome State Fault Refusal := run (sfWrite core 4 v fetch) s
/-- SF_BLANK_CHECK (R485): the SF_ADDR write that starts a check. -/
def execSfBlankCheck (core : Nat) (v : BitVec 32) (s : State) : Host.Outcome State Fault Refusal := run (sfWrite core 2 v 0) s
/-- SF_CLEAR_STATUS (R485): SF_CMD is written 0x50. -/
def execSfClearStatus (core : Nat) (v : BitVec 32) (s : State) : Host.Outcome State Fault Refusal :=
  run (sfWrite core 1 ((v &&& 0xFFFFFF00) ||| 0x50) 0) s
/-- SF_SUSPEND (R490): SF_CMD is written 0xB0. -/
def execSfSuspend (core : Nat) (v : BitVec 32) (s : State) : Host.Outcome State Fault Refusal :=
  run (fun s => sfServe (sfWrite core 1 ((v &&& 0xFFFFFF00) ||| 0xB0) 0 s)) s
/-- SF_RESUME (R491): SF_CMD is written 0xD0. -/
def execSfResume (core : Nat) (v : BitVec 32) (s : State) : Host.Outcome State Fault Refusal :=
  run (sfWrite core 1 ((v &&& 0xFFFFFF00) ||| 0xD0) 0) s
/-- SF_RESET (R485): SF_CMD is written 0xF0. -/
def execSfReset (core : Nat) (v : BitVec 32) (s : State) : Host.Outcome State Fault Refusal :=
  run (sfWrite core 1 ((v &&& 0xFFFFFF00) ||| 0xF0) 0) s
/-- SF_UNKNOWN_COMMAND (R485): SF_CMD is written a code that the table does not name; 0 stands for one that it does. -/
def execSfUnknownCommand (core : Nat) (v : BitVec 32) (s : State) : Host.Outcome State Fault Refusal :=
  run (sfWrite core 1 (if [0x10, 0x20, 0x30, 0x50, 0xB0, 0xD0, 0xF0].contains (v.toNat % 256) then 0 else v) 0) s

/-- SF_SEQUENCE_TIMEOUT (R484). -/
def execSfSequenceTimeout (s : State) : Host.Outcome State Fault Refusal :=
  run (fun s => if s.flash.seq.isSome then sfSeqErr s else s) s

/-- The running operation ends (R488, R489): a program that verifies has stored its word, an erase has set its sector to
ones; one that does not verify sets FAIL and leaves a free value in the word, the sector as it was. -/
def sfDone (ok : Bool) (s : State) : State :=
  let fin := fun (x : SfOp) (s : State) =>
    if ok then
      let s := if x.erase then flashErase (x.addr / 65536 * 65536) 65536 s else flashPut x.addr (le 8 x.data.toNat) s
      setF F.SF_OPSTAT_DONE 1 s
    else
      let s := if x.erase then s else
        let (v, s) := draw 64 s
        flashPut x.addr (le 8 v.toNat) s
      let s := setF F.SF_OPSTAT_FAIL 1 s
      sed 0x0A00 sERROR 10 (if x.erase then 0x20 else 0x10) x.addr (s.reg Reg.SF_OPSTAT).toNat s
  match s.flash.nested, s.flash.op with
  | some x, _ =>
    let s := fin x (modFlash (fun f => { f with nested := none }) s)
    sfShow (if s.flash.resumeHeld then modFlash (fun f => { f with suspended := false, resumeHeld := false }) s else s)
  | none, some x =>
    if s.flash.suspended || s.flash.autoSusp then s
    else sfShow (fin x (modFlash (fun f => { f with op := none }) s))
  | none, none => s

/-- SF_OP_DONE (R488, R489). -/
def execSfOpDone (ok : Bool) (s : State) : Host.Outcome State Fault Refusal := run (fun s => sfServe (sfDone ok s)) s

/-- SF_READ_AUTO_SUSPEND (R480). -/
def execSfReadAutoSuspend (addr : Nat) (s : State) : Host.Outcome State Fault Refusal := run (sfRead addr) s

/-- SF_AUTO_RESUME (R480): no read has been pending for 10 µs. -/
def execSfAutoResume (s : State) : Host.Outcome State Fault Refusal :=
  run (modFlash (fun f => { f with autoSusp := false })) s
/-- SF_ERASE_FORCED_RESUME (R480): the erase runs for 500 µs though reads are pending. -/
def execSfEraseForcedResume (s : State) : Host.Outcome State Fault Refusal :=
  run (fun s => modFlash (fun f => if f.autoSusp then { f with autoSusp := false, forcedTick := some s.tick.count } else f) s) s

/-- An instruction fetch from Wellhead meets an uncorrectable word (R497). -/
def wellheadUe (addr : Nat) (mirrorOk : Bool) (s : State) : State :=
  let a := addr % 0x100000 / 8
  let s := mempUe 14 0 a agRequest s
  if mirrorOk then satInc F.SF_ERR_MIRROR s |> sed 0x0A04 sWARNING 10 a 0 0
  else
    setF F.SF_STAT_WELLHEAD_LOST 1 (setF F.MGMT_STAT_CORES 0 s) |> sed 0x0A05 sALERT 10 a 0 0

/-- SF_WELLHEAD_MIRROR (R497). -/
def execSfWellheadMirror (addr : Nat) (mirrorOk : Bool) (s : State) : Host.Outcome State Fault Refusal :=
  run (fun s => if s.pwr.st = 4 then s else wellheadUe addr mirrorOk s) s

/-- Class-14 scrubbing found a corrected word (R496): more than 8 in one sector in a pass report it once. -/
def sfCorrected (addr : Nat) (s : State) : State :=
  let k := sfSector addr
  let n := tget 0 s.flash.corrected k + 1
  let s := modFlash (fun f => { f with corrected := tput k n f.corrected }) s
  if n = 9 then
    let s := satInc F.SF_ERR_WEAK s |> sed 0x0A03 sNOTICE 10 k n 0
    let area := if 0x180 ≤ k ∧ k < 0x200 then some 0 else if 0x280 ≤ k ∧ k < 0x300 then some 1 else none
    if area = some (gKeyroot s).area then { s with vault := { s.vault with weak := true } } else s
  else s

/-- At the start of a flush a running program completes and an erase is abandoned: its sector is neither erased nor intact,
free bytes (R494). -/
def sfFlush (s : State) : State :=
  let put := fun (o : Option SfOp) (s : State) => match o with
    | some x => if x.erase then s else setF F.SF_OPSTAT_DONE 1 (flashPut x.addr (le 8 x.data.toNat) s)
    | none => s
  let s := put s.flash.nested (put s.flash.op s)
  let s := match s.flash.op with
    | some x =>
      if x.erase then
        let (s, b) := drawBytes 65536 s
        flashPut (x.addr / 65536 * 65536) b s
      else s
    | none => s
  sfServe (sfShow (modFlash (fun f => { f with
    op := none, nested := none, suspended := false, autoSusp := false, forcedTick := none, resumeHeld := false }) s))

end Sys2Proof.Machine
end

