-- ==== Sys2Proof/Machine/Fw.lean ====
section
/-! DEFINITION. Firmware update: blocks, verification, activation, the trial and its confirmation, settings migration, Get
FW Info, and PLDM type 5 (R498 to R514, R451). -/

namespace Sys2Proof.Machine

/-! ### Ownership (R502) -/

/-- Another path owns the update. -/
def fwOther (s : State) (path : Nat) : Bool :=
  fld s F.SF_FW_STAT_OWNER != 7 && fld s F.SF_FW_STAT_OWNER != pathCode path
def fwUnowned (s : State) : Bool := fld s F.SF_FW_STAT_OWNER == 7

/-- A command of the owner. -/
def fwOwn (path : Nat) (s : State) : State :=
  setF F.SF_FW_STAT_OWNER (pathCode path) { s with flash := { s.flash with ownerTick := s.tick.count } }
def fwDisown (s : State) : State := setF F.SF_FW_STAT_OWNER 7 s

/-- A command of a path that owns the update keeps it: any of FW_BLOCK, FW_VERIFY and FW_ACTIVATE, accepted or refused, and
any PLDM type 5 request (R502: "a command from the owner"; DEDUCED, log entry 210). -/
def fwTouch (path : Nat) (s : State) : State := if fwUnowned s || fwOther s path then s else fwOwn path s

/-- FW_OWNER_TIMEOUT (R502). -/
def execFwOwnerTimeout (s : State) : Host.Outcome State Fault Refusal :=
  run (fun s => if !fwUnowned s && decide (s.flash.ownerTick + 2 * 262144 ≤ s.tick.count) then
    fwDisown { s with mgmt := { s.mgmt with pldmFw := 0 } } else s) s

/-! ### FW_BLOCK (R502 to R504) -/

/-- FW_BLOCK's output: REASON and BLOCKS. -/
def fwOut (reason : Nat) (s : State) : List Byte := le 1 reason ++ zeros 3 ++ le 4 (fld s F.SF_FW_STAT_BLOCKS)

/-- A failure of the update path is shown (R515). -/
def fwErr (reason : Nat) (s : State) : State := setF F.SF_FW_ERR_REASON reason s |> setF F.SF_FW_ERR_WHERE 0

/-- What stops a transfer with BUSY (R502, R504). -/
def fwBusy (s : State) (path : Nat) : Bool := fwOther s path || s.ndx.commit.isSome || inGuard s || inFlush s

/-- The transfer starts again with INDEX 0 (R502). -/
def fwStart (path : Nat) (s : State) : State :=
  let slot := fwTarget s
  let s := fwOwn path { s with flash := { s.flash with received := 0, verified := none } }
  setF F.SF_FW_STAT_STATE 1 s |> setF F.SF_FW_STAT_SLOT slot |> setF F.SF_FW_STAT_BLOCKS 0
    |> setF (if slot = 0 then F.SF_FW_VER0_VERSION else F.SF_FW_VER1_VERSION) 0

/-- Program an accepted block and read it back (R503 steps 3 and 4); `readOk` is whether the read-back matched. -/
def fwProgram (path index : Nat) (last : Bool) (data : List Byte) (readOk : Bool) (s : State) : State × Nat × Nat :=
  let slot := fld s F.SF_FW_STAT_SLOT
  let base := fwBase slot
  let sector := base + 65536 * (index / 16)
  let s := fwOwn path s
  let s := if index % 16 = 0 then flashErase sector 65536 s else s
  let s := flashPut (base + 4096 * index) data s
  if !readOk then
    (setF F.SF_FW_STAT_BLOCKS (index / 16 * 16) (fwErr 0x0B (flashErase sector 65536 s)), rcInternal, 0x0B)
  else
    let s := setF F.SF_FW_STAT_BLOCKS (index + 1) { s with flash := { s.flash with
      received := 4096 * index + data.length } }
    let ver := leVal (flashBytes s (base + 0x10) 4)
    let s := if index = 0 then sed 0x0A10 sINFO 10 slot ver (pathCode path) s else s
    let s := if last then setF F.SF_FW_STAT_STATE 2 s |> sed 0x0A11 sINFO 10 slot ver (index + 1) else s
    (s, rcSuccess, 0)

/-- Take a block (R502, R503): the state, the return code and the reason. -/
def fwBlock (path index : Nat) (last : Bool) (crc : Nat) (data : List Byte) (readOk : Bool) (s : State) : State × Nat × Nat :=
  let st := fld s F.SF_FW_STAT_STATE
  let blocks := fld s F.SF_FW_STAT_BLOCKS
  let resend := decide (index ≠ 0) && index + 1 == blocks && (st == 1 || st == 2)
  let next := index == 0 || (index == blocks && st == 1)
  if index ≠ 0 ∧ fwUnowned s then (s, rcInvalid, 0)
  else if !next && !resend then (fwTouch path s, rcInvalid, 0)
  else if crc ≠ (crc32c data).toNat then (fwErr 0x0A (fwTouch path s), rcInvalid, 0x0A)
  else if fwMax < 4096 * index + data.length then (fwErr 3 (fwTouch path s), rcInvalid, 3)
  else if resend && !next then
    let a := fwBase (fld s F.SF_FW_STAT_SLOT) + 4096 * index
    let diff := (List.range (data.length / 8)).find? (fun k => flashBytes s (a + 8 * k) 8 != sub data (8 * k) 8)
    match diff with
    | none => (fwOwn path s, rcSuccess, 0)
    | some k =>
      -- R489; the core that programs the slot is MGC0 (DESIGN CHOICE, log entry 210)
      (setF F.SF_OPSTAT_NOT_ERASED 1 (fwOwn path s) |> sed 0x0A01 sERROR 10 (a + 8 * k) 0 0, rcNotErased, 0)
  else if index = 0 then
    let s := fwStart path s
    let r := fwHeader data
    if r ≠ 0 then (fwErr r (setF F.SF_FW_STAT_STATE 4 s), rcInvalid, r)
    else fwProgram path 0 last data readOk s
  else fwProgram path index last data readOk s

/-- FW_BLOCK's effect. -/
def doFwBlock (path : Nat) (d : List Byte) (readOk : Bool) (s : State) : State :=
  let n := at' d 6 2
  cmd path 0xC010 d (decide (16 ≤ d.length) && d.length == 16 + n) (fun s =>
    let s := fwTouch path s
    let last := byteAt d 4
    if n % 8 ≠ 0 ∨ n < 8 ∨ 4096 < n ∨ 1 < last ∨ (last = 0 ∧ n ≠ 4096) ∨ !zeroAt d 5 1 ∨ !zeroAt d 12 4 then
      answer path 0xC010 rcInvalid (fwOut 0 s) s
    else if fwBusy s path || s.mgmt.pldmFw != 0 then answer path 0xC010 rcBusy (fwOut 0 s) s
    else
      let (s, rc, reason) := fwBlock path (at' d 0 4) (last == 1) (at' d 8 4) (d.drop 16) readOk s
      answer path 0xC010 rc (fwOut reason s) s) s

/-- FW_BLOCK (R503). -/
def execFwBlock (path : Nat) (input : List Byte) (readOk : Bool) (s : State) : Host.Outcome State Fault Refusal :=
  run (doFwBlock path input readOk) s

/-! ### FW_VERIFY (R505) -/

/-- Verify the loaded image, or whatever the target slot holds when nobody owns the update. -/
def fwVerify (path : Nat) (s : State) : State × Nat × Nat :=
  let s := fwTouch path s
  let loaded := fld s F.SF_FW_STAT_STATE == 2 && !fwUnowned s
  if !loaded && !fwUnowned s then (s, rcConflict, 0)
  else
    let slot := if loaded then fld s F.SF_FW_STAT_SLOT else fwTarget s
    let b := fwBytes s slot
    let r := fwCheck s b (if loaded then s.flash.received else b.length)
    let f := fwParse slot b
    let s := fwShowVer slot (setF F.SF_FW_STAT_SLOT slot s)
    if r = 0 then
      let s := setF F.SF_FW_STAT_STATE 3 { s with flash := { s.flash with verified := some f } }
      let s := forEach (List.range 12) (fun k s => setF (F.SF_FW_DIGEST_VALUE k) (at' f.digest (4 * k) 4) s) s
      (sed 0x0A12 sNOTICE 10 slot f.version f.svn s, rcSuccess, 0)
    else
      let s := setF F.SF_FW_STAT_STATE 4 (fwErr r (fwDisown { s with flash := { s.flash with verified := none } }))
      (sed 0x0A13 sWARNING 10 slot r f.version s, if r = 4 ∨ r = 5 then rcAuthFail else if r = 9 then rcStale else rcInvalid, r)

/-- FW_VERIFY's effect. -/
def doFwVerify (path : Nat) (d : List Byte) (s : State) : State :=
  cmd path 0xC011 d (d.length == 0) (fun s =>
    if fwOther s path || s.mgmt.pldmFw != 0 then answer path 0xC011 rcBusy [] s
    else
      let (s, rc, reason) := fwVerify path s
      let b := fwBytes s (fld s F.SF_FW_STAT_SLOT)
      answer path 0xC011 rc (le 1 reason ++ zeros 3 ++ le 4 (at' b 0x10 4) ++ le 2 (at' b 0x14 2)) s) s

/-- FW_VERIFY (R505). -/
def execFwVerify (path : Nat) (input : List Byte) (s : State) : Host.Outcome State Fault Refusal := run (doFwVerify path input) s

/-! ### FW_ACTIVATE (R506 to R509) -/

/-- The code of the first check of R506 that fails. -/
def fwActCheck (s : State) (mode : Nat) (reserved : Bool) : Nat :=
  let v := s.flash.verified
  let reads := match runningImage s, v with
    | some r, some f => decide (f.hoReadMin ≤ r.hoWrite) && decide (r.hoWrite ≤ f.hoReadMax)
    | _, _ => false
  if 1 < mode ∨ reserved = false then rcInvalid
  else if mode = 1 ∧ (inRecovery s || inHalt s) then rcRefused
  else if fld s F.SF_FW_STAT_STATE ≠ 3 ∨ v.isNone ∨ fld s F.SF_FW_SEL_TSTATE = 2 ∨ (mode = 1 ∧ !reads) then rcConflict
  else if mode = 1 ∧ (bgBusy s || inGuard s || inFlush s || s.pwr.st != 0) then rcBusy
  else rcSuccess

/-- FW_ACTIVATE's effect up to its commit point: the live handover's digest check and copy (R508 step 1), then the write of
FWSEL. -/
def fwActivate (path mode : Nat) (s : State) : State :=
  match s.flash.verified with
  | none => s
  | some f =>
    let c := fld s F.SF_FW_SEL_CONFIRMED
    if mode = 1 ∧ sha384 (fwBytes s f.slot) ≠ f.digest then endCmd path 0xC012 rcAuthFail [] s
    else
      let s := if mode = 1 then putHalf (1 - fld s F.MGMT_STAT_HALF) (some f) s else s
      gPut G.fwsel (.fwsel c f.slot (mode + 1)) false (some path) (.fwArm path mode) s

def doFwActivate (path : Nat) (d : List Byte) (s : State) : State :=
  cmd path 0xC012 d (d.length == 4) (fun s =>
    if fwOther s path || s.mgmt.pldmFw != 0 then answer path 0xC012 rcBusy [] s
    else
      let s := fwTouch path s
      let rc := fwActCheck s (byteAt d 0) (zeroAt d 1 3)
      if rc ≠ rcSuccess then answer path 0xC012 rc [] s
      else fwActivate path (byteAt d 0) (startCmd path 0xC012 true s)) s

/-- FW_ACTIVATE (R506). -/
def execFwActivate (path : Nat) (input : List Byte) (s : State) : Host.Outcome State Fault Refusal := run (doFwActivate path input) s

/-- FW_ACTIVATE's answer: slot and VERSION. -/
def fwActOut (s : State) : List Byte :=
  match s.flash.verified with
  | some f => le 1 f.slot ++ zeros 3 ++ le 4 f.version
  | none => zeros 8

/-- The running image arms the handover once each foreground command in flight on another path has completed (R508 step 3). -/
def hoArm (s : State) : State :=
  match s.flash.handover with
  | some path => if s.mgmt.inflight.any (fun e => e.path != path) then s else setF F.SF_HO_CTL_ARM 1 s
  | none => s

/-- The write of FWSEL is durable (R507, R508 steps 2 and 3): the commit point. -/
def fwArmed (path mode : Nat) (s : State) : State :=
  match s.flash.verified with
  | none => s
  | some f =>
    let s := fwDisown (commitCmd path s)
    let s := fwShowSel (fld s F.SF_FW_SEL_CONFIRMED) f.slot (mode + 1) s |> sed 0x0A14 sNOTICE 10 f.slot f.version mode
    let s := { s with mgmt := { s.mgmt with pldmFw := 0 } }
    if mode = 0 then endCmd path 0xC012 rcSuccess (fwActOut s) s
    else
      let s := setF F.SF_HO_CTL_HALF (1 - fld s F.MGMT_STAT_HALF) s |> setF F.SF_FW_TRIAL_EPOCHS 0 |> setF F.SF_FW_TRIAL_HEALTHY 0
      hoArm { s with flash := { s.flash with handover := some path } }

/-! ### Trial (R510, R511) and settings migration (R513) -/

/-- Rewrite the settings records of a format older than the image's (R513). -/
def fwMigrate (s : State) : State :=
  match runningImage s with
  | none => s
  | some f =>
    let old := (List.range 12).filter (fun n => decide (gFmt s (G.param n) < f.settingsFmt) && !gBad s (G.param n))
    match old with
    | [] => s
    | n :: _ =>
      let was := gFmt s (G.param n)
      let s := forEach old (fun n s => gEnq (.put (G.param n) f.settingsFmt (gRead s (G.param n))) false none .none s) s
      sed 0x0A1A sINFO 10 was f.settingsFmt old.length s

/-- Records of a format newer than the image's take its defaults (R513). -/
def fwDefaulted (s : State) : State :=
  match runningImage s with
  | none => s
  | some f => forEach ((List.range 12).filter (fun n => decide (f.settingsFmt < gFmt s (G.param n)))) (fun n s =>
      sed 0x0A1B sWARNING 10 n (gFmt s (G.param n)) f.settingsFmt s) s

/-- A write of SF_FW_TRIAL (R510): accepted from a core that runs the trial image once an epoch boundary has passed. -/
def doHealthy (path : Nat) (v : BitVec 32) (s : State) : State :=
  if !isCore path || !v.getLsbD 8 || !fwSwitched s || bit s F.SF_FW_TRIAL_HEALTHY || fld s F.SF_FW_TRIAL_EPOCHS = 0 ||
      fld s F.MGMT_STAT_CORES = 0 then s
  else
    let t := fld s F.SF_FW_SEL_TRIAL
    gPut G.fwsel (.fwsel t t 0) false none .fwConfirm (setF F.SF_FW_TRIAL_HEALTHY 1 s)

/-- FW_TRIAL_HEALTHY (R510). -/
def execFwTrialHealthy (path : Nat) (v : BitVec 32) (s : State) : Host.Outcome State Fault Refusal := run (doHealthy path v) s

/-- CONFIRMED is durable (R510 steps 2 and 3). -/
def fwConfirmed (s : State) : State :=
  if fld s F.SF_FW_SEL_TSTATE ≠ 2 then s else
  let t := fld s F.SF_FW_SEL_TRIAL
  let s := fwMigrate (fwShowSel t t 0 s)
  sed 0x0A16 sNOTICE 10 t ((runningImage s).elim 0 FwImage.version) (fld s F.SF_FW_TRIAL_EPOCHS) s

/-- The restart of a fallback: R460 and R461 without a cause of MGMT_WDT (log entry 67). -/
def fwFallback (cause : Nat) (s : State) : State :=
  if fld s F.SF_FW_SEL_TSTATE ≠ 2 then s else stagingEmpty (endForeground (spdmEndAll (fwTrialDrop cause s)))

/-- Step 7 of a tick boundary: an armed handover switches the cores (R508 steps 4 and 5). Armed by the Tuten port with no
handover under way (R19, R515), the cores go on in the half that HALF names. Whether the new image's check of the handover block, whose contents are the firmware's own, passes is a free value
(log entry 67); where it does not, the trial falls back (R511). -/
def fwSwitch (s : State) : State :=
  let s := hoArm s
  if !bit s F.SF_HO_CTL_ARM then s else
  match s.flash.handover with
  | none => setF F.MGMT_STAT_HALF (fld s F.SF_HO_CTL_HALF) s |> setF F.SF_HO_CTL_ARM 0
  | some path =>
    let old := (runningImage s).elim 0 FwImage.version
    let s := setF F.MGMT_STAT_HALF (fld s F.SF_HO_CTL_HALF) s |> setF F.SF_HO_CTL_ARM 0
      |> setF F.SF_FW_SEL_RUNNING (fld s F.SF_FW_SEL_TRIAL)
    let s := setF F.SF_FW_FLOOR_SVN ((runningImage s).elim 0 FwImage.svn) { s with flash := { s.flash with handover := none } }
    let (good, s) := draw 1 s
    if good = 0 then fwFallback 4 s
    else
      let s := sed 0x0A15 sNOTICE 10 old ((runningImage s).elim 0 FwImage.version) (s.tick.count % 2 ^ 32) s
      endCmd path 0xC012 rcSuccess (fwActOut s) s

/-- FW_TRIAL_TIMEOUT (R511): EPOCHS has reached 30 without HEALTHY. -/
def execFwTrialTimeout (s : State) : Host.Outcome State Fault Refusal :=
  run (fun s => if decide (30 ≤ fld s F.SF_FW_TRIAL_EPOCHS) && !bit s F.SF_FW_TRIAL_HEALTHY then fwFallback 0 s else s) s

/-- An epoch boundary counts while the cores run (R510). -/
def fwEpoch (s : State) : State :=
  if fwSwitched s && fld s F.MGMT_STAT_CORES != 0 then satInc F.SF_FW_TRIAL_EPOCHS s else s

/-! ### FW_CONFIRM (R512) -/

def fwConfOut (s : State) : List Byte := le 2 (gCounter s (.dev 2)) ++ le 1 (fld s F.SF_FW_SEL_TSTATE)

def doFwConfirm (path : Nat) (d : List Byte) (s : State) : State :=
  cmd path 0xC013 d (d.length == 4) (fun s =>
    let act := byteAt d 0
    let trial := fld s F.SF_FW_SEL_TSTATE == 2
    if 1 < act ∨ !zeroAt d 1 3 then answer path 0xC013 rcInvalid [] s
    else if act = 0 then
      if trial then answer path 0xC013 rcConflict [] s
      else
        let svn := (runningImage s).elim 0 FwImage.svn
        let old := gCounter s (.dev 2)
        if svn ≤ old then answer path 0xC013 rcSuccess (fwConfOut s) s
        else gEnq (.raise (.dev 2) svn) false (some path) (.fwFloor path old svn) (startCmd path 0xC013 true s)
    else if !trial then answer path 0xC013 rcConflict [] s
    else
      let s := startCmd path 0xC013 true s
      fwFallback 2 (endCmd path 0xC013 rcSuccess (le 2 (gCounter s (.dev 2)) ++ [0]) s)) s

/-- FW_CONFIRM (R512). -/
def execFwConfirm (path : Nat) (input : List Byte) (s : State) : Host.Outcome State Fault Refusal := run (doFwConfirm path input) s

/-- The raised floor is durable (R512). -/
def fwFloorDone (path old new : Nat) (s : State) : State :=
  let s := setF F.SF_FW_FLOOR_FLOOR new s |> sed 0x0A19 sNOTICE 10 old new 0
  endCmd path 0xC013 rcSuccess (fwConfOut s) s

/-! ### The start's choice of a slot (R498, R499) -/

/-- Run a slot's image in half 0. -/
def fwRun (slot : Nat) (s : State) : State :=
  let f := fwParse slot (fwBytes s slot)
  let s := putHalf 0 (some f) { s with flash := { s.flash with half1 := none } }
  setF F.MGMT_STAT_HALF 0 s |> setF F.SF_FW_SEL_RUNNING slot |> setF F.SF_FW_FLOOR_SVN f.svn
    |> setF F.MGMT_STAT_MODE 1 |> setF F.MGMT_STAT_CORES 15

/-- The slot tried first passes, or the start takes the other one (R498). -/
def fwTry (slot : Nat) (s : State) : State :=
  let r := fwSlotReason s slot
  if r = 0 then fwRun slot s
  else
    let s := setF F.SF_FW_ERR_REASON r s |> setF F.SF_FW_ERR_WHERE (slot + 1)
    if fwSlotReason s (1 - slot) = 0 then
      fwRun (1 - slot) (setF F.SF_FW_SEL_BOOT_FALLBACK 1 s) |> sed 0x0A18 sERROR 10 slot r 0
    else fwRecover 1 s

/-- Steps 2 and 3 of R457 (R498): the table by TSTATE. The Gauge writes it names are queued before the image starts. A
trial that starts here leaves the confirmed image in the other half for the fallback (log entry 67). -/
def fwBoot (s : State) : State :=
  let (c, t, st) := fwsel s
  let s := fwShowSel c t st (setF F.SF_FW_SEL_BOOT_FALLBACK 0 s)
  let s := fwShowVer 0 (fwShowVer 1 (setF F.SF_FW_FLOOR_FLOOR (gCounter s (.dev 2)) s))
  if s.mgmt.recoverPin then fwRecover 0 s
  else if st = 1 then
    if fwSlotReason s t = 0 then
      let old := if fwSlotReason s c = 0 then some (fwParse c (fwBytes s c)) else none
      gPut G.fwsel (.fwsel c t 2) false none .none (fwShowSel c t 2 (putHalf 1 old (fwRun t s)))
        |> setF F.SF_FW_TRIAL_EPOCHS 0 |> setF F.SF_FW_TRIAL_HEALTHY 0
    else
      let r := fwSlotReason s t
      let s := setF F.SF_FW_ERR_REASON r s |> setF F.SF_FW_ERR_WHERE (t + 1) |> setF F.SF_FW_TRIAL_CAUSE 5
      let s := sed 0x0A17 sERROR 10 t 5 (fwSlotVersion s c) s
      fwTry c (gPut G.fwsel (.fwsel c t 0) false none .none (fwShowSel c t 0 s))
  else if st = 2 then
    let s := setF F.SF_FW_TRIAL_CAUSE 3 s |> sed 0x0A17 sERROR 10 t 3 (fwSlotVersion s c)
    fwTry c (gPut G.fwsel (.fwsel c t 0) false none .none (fwShowSel c t 0 s))
  else fwTry c s

/-! ### Get FW Info (R514) -/

/-- An upper-case hexadecimal digit. -/
def hexDigit (n : Nat) : Byte := BitVec.ofNat 8 (if n < 10 then 48 + n else 55 + n)

/-- A version as 8 hexadecimal digits padded to 16 bytes. -/
def fwText (v : Nat) : List Byte := ((List.range 8).map (fun i => hexDigit (v / 16 ^ (7 - i) % 16))) ++ zeros 8

/-- Get FW Info's 80 bytes of the CXL layout: slots supported, active and staged slot, live activation, the revisions. -/
def fwInfo (s : State) : List Byte :=
  let staged := if fld s F.SF_FW_SEL_TSTATE = 0 then 0 else fld s F.SF_FW_SEL_TRIAL + 1
  let rev := fun k => if fwSlotReason s k = 0 then fwText (fwSlotVersion s k) else zeros 16
  [0x02] ++ le 1 (fld s F.SF_FW_SEL_CONFIRMED + 1 + 8 * staged) ++ [0x01] ++ zeros 13 ++ rev 0 ++ rev 1 ++ zeros 32

/-- GET_FW_INFO (R514). -/
def execGetFwInfo (path : Nat) (input : List Byte) (s : State) : Host.Outcome State Fault Refusal :=
  run (cmd path 0x0200 input (input.length == 0) (fun s => answer path 0x0200 rcSuccess (fwInfo s) s)) s

/-! ### PLDM type 5 (R451, DSP0267) -/

/-- An answer or a request of the firmware device on the Tuten port. -/
def pldm5 (c : Nat) (b : List Byte) (s : State) : State := emit (.tuten 1 ([0x05] ++ le 1 c ++ b)) s
def putPldm (n : Nat) (s : State) : State := { s with mgmt := { s.mgmt with pldmFw := n } }

/-- The update agent's answer to RequestFirmwareData is the next block: it is written as FW_BLOCK would write it; the last
block is the one that completes TOTAL_LEN, after which the image is verified and applied. -/
def pldmData (data : List Byte) (s : State) : State :=
  let index := if s.mgmt.pldmFw = 2 then 0 else fld s F.SF_FW_STAT_BLOCKS
  let total := if index = 0 then at' data 8 4 else leVal (flashBytes s (fwBase (fld s F.SF_FW_STAT_SLOT) + 8) 4)
  let last := decide (total ≤ 4096 * index + data.length)
  if fwBusy s tuten then pldm5 0x16 [0x0A] s
  else if data.length % 8 ≠ 0 ∨ data.isEmpty ∨ 4096 < data.length ∨ (!last && data.length != 4096) then pldm5 0x16 [0x02] s
  else
    let (s, rc, _) := fwBlock tuten index last (crc32c data).toNat data true s
    if rc ≠ rcSuccess then pldm5 0x16 [0x09] (putPldm 2 s)
    else if !last then pldm5 0x15 (le 4 (4096 * (index + 1)) ++ le 4 4096) (putPldm 3 s)
    else
      let (s, rc, _) := fwVerify tuten (pldm5 0x16 [0x00] s)
      if rc = rcSuccess then pldm5 0x18 ([0x00] ++ le 2 0) (pldm5 0x17 [0x00] (putPldm 2 s))
      else pldm5 0x17 [0x01] (putPldm 0 s)

/-- A PLDM type 5 request. The completion code of a refusal is the low byte of the return code (log entry 68). -/
def doPldmFw (c : Nat) (arg : List Byte) (s : State) : State :=
  if !tutServes s || !hasEid s || inRecovery s || s.flash.handover.isSome then s else
  let st := s.mgmt.pldmFw
  if c = 0x01 then pldm5 c ([0x00] ++ Config.bytes "PLDM firmware identifiers" 0) s
  else if c = 0x02 then
    pldm5 c ([0x00] ++ le 4 1 ++ le 2 1 ++
      fwText (fwSlotVersion s (fld s F.SF_FW_SEL_RUNNING)) ++ fwText (fwSlotVersion s (fwTarget s))) s
  else if c = 0x10 then
    if fwBusy s tuten || (!fwUnowned s && st == 0) then pldm5 c [0x10] s
    else if st ≠ 0 then pldm5 c [0x81] s
    else pldm5 c ([0x00] ++ zeros 3) (fwOwn tuten (putPldm 1 s))
  else if c = 0x1B then pldm5 c ([0x00] ++ le 1 st ++ le 1 st ++ zeros 5) s
  else if st = 0 then pldm5 c [0x80] s
  else
    let s := fwTouch tuten s
    if c = 0x13 then (if st = 1 then pldm5 c [0x00, 0x00, 0x00] (putPldm 2 s) else pldm5 c [0x84] s)
    else if c = 0x14 then
      (if st = 2 then pldm5 0x15 (le 4 0 ++ le 4 4096) (pldm5 c ([0x00, 0x00, 0x00] ++ zeros 6) s) else pldm5 c [0x84] s)
    else if c = 0x15 then (if (st = 2 ∨ st = 3) ∧ byteAt arg 0 = 0 then pldmData (arg.drop 1) s else s)
    else if c = 0x1A then
      let mode := if byteAt arg 0 = 1 then 1 else 0
      let rc := fwActCheck s mode true
      if st ≠ 2 then pldm5 c [0x84] s
      else if rc ≠ rcSuccess then pldm5 c (le 1 rc) s
      else fwActivate tuten mode (pldm5 c ([0x00] ++ le 2 0) s)
    else if c = 0x1C then pldm5 c [0x00] (putPldm 2 s)
    else if c = 0x1D then pldm5 c ([0x00, 0x00] ++ zeros 8) (fwDisown (putPldm 0 s))
    else pldm5 c [0x05] s

/-- PLDM_FW_UPDATE (R451). -/
def execPldmFwUpdate (cmd : Nat) (arg : List Byte) (s : State) : Host.Outcome State Fault Refusal := run (doPldmFw cmd arg) s

end Sys2Proof.Machine
end

