-- ==== Sys2Proof/Machine/Memp.lean ====
section
/-! DEFINITION. The error-injection directory's arming (R433 to R436) and the stuck-bit table (R418). -/

namespace Sys2Proof.Machine

/-- Number of instances of a SEC-DED class in the variant (R415). -/
def injInsts (s : State) (point inst : Nat) : Bool :=
  let heads := fun q => (fusedPorts s).testBit q
  match point with
  | 0x00 => decide (inst < 48)
  | 0x01 => decide (inst < 96)
  | 0x02 => decide (inst < 192)
  | 0x03 => (decide (inst < 16) && heads (inst / 4)) || ((inst == 16 || inst == 17) && fusedNrw s) || inst == 18
  | 0x04 => decide (inst < 4) && heads inst
  | 0x05 => inst == 0
  | 0x06 => inst == 0
  | 0x07 => inst == 0
  | 0x08 => decide (inst < 2)
  | 0x09 => decide (inst < 2)
  | 0x0A => decide (inst < 16)
  | 0x0B => inst == 0
  | 0x0C => decide (inst < 2)
  | 0x0D => decide (inst < 4)
  | 0x0E => decide (inst < 4)
  | 0x0F => inst == 0
  | 0x20 => decide (inst < 8 * fusedChans s)
  | 0x21 => decide (inst < 8 * fusedChans s)
  | 0x22 => inst == 0
  | 0x23 => inst == 0
  | 0x24 => decide (inst < 8)
  | 0x25 => decide (inst < 4) && fusedSeal s
  | 0x26 => decide (inst < 2)
  | 0x27 => decide (inst < 13)
  | _ => false

/-- MODE, BIT0 and BIT1 satisfy the point's row (R434, R435). -/
def injModeOk (point mode bit0 bit1 : Nat) : Bool :=
  if point < 16 then (mode == 1 && decide (bit0 < 72)) || (mode == 2 && decide (bit0 < 72) && decide (bit1 < 72) && bit0 != bit1)
  else if point = 0x20 ∨ point = 0x24 ∨ point = 0x25 then mode == 1 || mode == 2
  else mode == 3

/-- The reason for which an arming is refused (R433, R437); 0 when it is taken. -/
def injReason (s : State) (path : Nat) (v : BitVec 32) : Nat :=
  let point := fld s F.MEMP_INJ_SEL_POINT
  let inst := fld s F.MEMP_INJ_SEL_INST
  let w := v.toNat
  if path ≠ tuten then 6
  else if 2 ≤ lifecycle s then 1
  else if !injInsts s point inst then 2
  else if !injModeOk point (w % 4) (w / 2 ^ 8 % 128) (w / 2 ^ 16 % 128) then 3
  else if v.getLsbD 2 ∧ 13 ≤ point then 4
  else if bit s F.MEMP_INJ_CTL_ARM then 5
  else 0

/-- A write of MEMP_INJ_CTL: its RW fields, then ARM with a MODE (R433), or with MODE 0 (R436). -/
def doInjCtl (path : Nat) (v : BitVec 32) (s : State) : State :=
  if !isMgmt path || !coreOn s then s else
  let why := injReason s path v
  let armed := s.reg Reg.MEMP_INJ_CTL &&& 0x80000000
  let s := s.putReg Reg.MEMP_INJ_CTL ((v &&& 0x007F7F1F) ||| armed)
  let ci := classInst (fld s F.MEMP_INJ_SEL_POINT) (fld s F.MEMP_INJ_SEL_INST)
  if !v.getLsbD 31 then s
  else if v.toNat % 4 = 0 then setF F.MEMP_INJ_CTL_ARM 0 s
  else if why = 0 then
    let s := setF F.MEMP_INJ_CTL_ARM 1 s
    sed 0x0810 sNOTICE 8 ci (s.reg Reg.MEMP_INJ_CTL).toNat (fld s F.MEMP_INJ_ADDR_WORD) s
  else setF F.MEMP_INJ_STAT_REFUSED 1 s |> setF F.MEMP_INJ_STAT_REASON why |> sed 0x0812 sNOTICE 8 ci why 0

/-- MEMP_INJ_ARM (R433): the write sets ARM with a MODE that is not 0. -/
def execMempInjArm (path : Nat) (v : BitVec 32) (s : State) : Host.Outcome State Fault Refusal :=
  run (doInjCtl path (v ||| 0x80000000)) s
/-- MEMP_INJ_DISARM (R436): the write sets ARM with MODE 0. -/
def execMempInjDisarm (path : Nat) (v : BitVec 32) (s : State) : Host.Outcome State Fault Refusal :=
  run (doInjCtl path ((v ||| 0x80000000) &&& 0xFFFFFFFC)) s

/-- A bit that is still wrong after a scrub write-back (R418): its entry in the stuck-bit table, with the hits counted. -/
def stuckBit (cls inst word bit_ : Nat) (s : State) : State :=
  let n := fld s F.MEMP_STUCK_STAT_COUNT
  let isIt := fun k => fld s (F.MEMP_STUCK_LO_WORD k) == word && fld s (F.MEMP_STUCK_HI_CLASS k) == cls &&
    fld s (F.MEMP_STUCK_HI_INST k) == inst && fld s (F.MEMP_STUCK_HI_BIT k) == bit_ && bit s (F.MEMP_STUCK_HI_VALID k)
  match (List.range n).find? isIt with
  | some k => satInc (F.MEMP_STUCK_HI_HITS k) s
  | none =>
    if n < 256 then
      setF (F.MEMP_STUCK_LO_WORD n) word s |> setF (F.MEMP_STUCK_HI_CLASS n) cls |> setF (F.MEMP_STUCK_HI_INST n) inst
        |> setF (F.MEMP_STUCK_HI_BIT n) bit_ |> setF (F.MEMP_STUCK_HI_HITS n) 1 |> setF (F.MEMP_STUCK_HI_VALID n) 1
        |> setF F.MEMP_STUCK_STAT_COUNT (n + 1) |> sed 0x0803 sNOTICE 8 (classInst cls inst) word bit_
    else
      let s := setF F.MEMP_STUCK_STAT_OVERFLOW 1 s
      if s.memp.stuckFullSaid then s
      else sed 0x0804 sWARNING 8 (classInst cls inst) word bit_ { s with memp := { s.memp with stuckFullSaid := true } }

end Sys2Proof.Machine
end

