-- ==== Sys2Proof/Machine/Gauge.lean ====
section
/-! DEFINITION. What the Gauge store writes (R521, R524 to R534), and its parameter commands (R537, R538). -/

namespace Sys2Proof.Machine

/-! ### One block write -/

/-- WCNT of a block: a block whose CRC fails is taken at 950,000 (R530). -/
def gWcnt (b : GBlock) : Nat := if b.good then b.wcnt else 950000

/-- Lowest-numbered spare not taken (R528). -/
def gSpare (s : State) : Option Nat := ((List.range 16).map (· + 240)).find? (fun n => !s.gauge.spareUsed.contains n)

/-- Unit that owns a record (R523), as GAU_WORN names it. -/
def gUnit (b : Nat) : Nat :=
  if b ≤ 4 ∨ b = 9 ∨ b = 10 then 9 else if b ≤ 8 then 10 else if b ≤ 12 then 4 else if b ≤ 14 then 6 else if b ≤ 20 then 3
  else if b ≤ 22 then 4 else if b ≤ 24 then 11 else if b ≤ 26 then 14 else if b ≤ 36 then 3 else if b ≤ 41 then 12
  else if b ≤ 65 then 9 else if b ≤ 67 then 15 else if b ≤ 73 then 5 else 4

/-- Both directory copies are written under R521 (R528 step 2): the older sequence first, B where they are equal. What the
directory says of a block stands in the block's `phys` and in `spareUsed`. -/
def gDirectory (s : State) : State :=
  let k := if (gBlock s 0).seq < (gBlock s 1).seq then 0 else 1
  let n := max (gBlock s 0).seq (gBlock s 1).seq
  let put := fun (b seq : Nat) (s : State) => putBlock b { gBlock s b with seq := seq, wcnt := (gBlock s b).wcnt + 1, good := true } s
  put (1 - k) (n + 2) (put k (n + 1) s)

/-- A counted write of a logical block, with the migration of R528; the answer is false when the block is or becomes frozen
(R529). A migration's three writes are one here (log entry 69). -/
def gWrite (b : Nat) (v : GBlock) (s : State) : State × Bool :=
  let old := gBlock s b
  let worn := fun (s : State) =>
    (satInc F.GAU_ERR_WORN (putBlock b { old with frozen := true } s) |> sed 0x0B12 sCRITICAL 11 b (gWcnt old) (gUnit b), false)
  if old.frozen then worn s
  else if gWcnt old < 950000 then
    (satInc F.GAU_CNT_WRITE_COUNT (putBlock b { v with phys := old.phys, wcnt := old.wcnt + 1, good := true, frozen := false } s), true)
  else
    match gSpare s with
    | none => worn s
    | some p =>
      let s := { s with gauge := { s.gauge with spareUsed := s.gauge.spareUsed ++ [p] } }
      let s := gDirectory s
      let s := satAdd F.GAU_CNT_WRITE_COUNT 3 (putBlock b { v with phys := p, wcnt := 1, good := true, frozen := false } s)
      let s := sed 0x0B10 sNOTICE 11 b old.phys p s
      let left := 16 - s.gauge.spareUsed.length
      (if left ≤ 4 then sed 0x0B11 sWARNING 11 left 0 0 s else s, true)

/-- A write of a two-copy record (R521): the copy with the older sequence, or one whose CRC fails, takes the newer copy's
sequence plus 1; equal sequences replace B (log entry 7). -/
def gWriteCopy (a fmt : Nat) (p : GPayload) (s : State) : State × Bool :=
  let k := match gPick s a with | some 0 => 1 | some _ => 0 | none => 0
  gWrite (a + k) { gBlock s (a + k) with fmt := fmt, seq := gSeq s a + 1, payload := p } s

/-- A tally program: no counted write (R527). -/
def gProgram (b i : Nat) (f : Tally → Tally) (s : State) : State :=
  match (gBlock s b).payload with
  | .tally l => putBlock b { gBlock s b with payload := .tally (l.set i (f (lat Tally.clear l i))) } s
  | _ => s

/-- Clear one tally of a tally block: a counted write that keeps the others (R532). -/
def gClear (b i : Nat) (s : State) : State × Bool :=
  let l := match (gBlock s b).payload with | .tally l => l | _ => List.replicate 8 Tally.clear
  gWrite b { gBlock s b with seq := (gBlock s b).seq + 1, payload := .tally (l.set i Tally.clear) } s

/-! ### Requests as sequences of block writes (R532) -/

/-- What one block write of a request did: the write failed, the request goes on at a phase, or it is durable. -/
inductive GStep where
  | failed
  | more (phase : Nat)
  | finished
deriving DecidableEq, Repr

/-- The newest high part of a counter. -/
def gHigh (s : State) (c : Ctr) : High := c.high (gRead s c.home.1)

/-- Write the older copy of a counter's record with a new high part. -/
def gPutHigh (c : Ctr) (h : High) (s : State) : State × Bool :=
  gWriteCopy c.home.1 (gFmt s c.home.1) (c.withHigh h (gRead s c.home.1)) s

/-- The next step of a carry that has begun: clear the tally, then the other copy with CARRY clear. -/
def gCarryOn (c : Ctr) (s : State) : State × Bool :=
  if (c.tally s).value ≠ 0 then gClear c.home.2.1 c.home.2.2 s
  else gPutHigh c { gHigh s c with carry := false } s

/-- One block write of a request. -/
def gOpStep (op : GOp) (phase : Nat) (s : State) : State × GStep :=
  let fin := fun (r : State × Bool) (t : GStep) => (r.1, if r.2 then t else GStep.failed)
  match op with
  | .put a fmt p => fin (gWriteCopy a fmt p s) .finished
  | .mirror k r =>
    let b := G.mirror (k / 7)
    let l := match (gBlock s b).good, (gBlock s b).payload with | true, .mirror l => l | _, _ => List.replicate 7 none
    fin (gWrite b { gBlock s b with seq := (gBlock s b).seq + 1, payload := .mirror (l.set (k % 7) (some r)) } s) .finished
  | .incr c =>
    if (gHigh s c).carry then fin (gCarryOn c s) (.more 1)
    else if (c.tally s).value = 64 then fin (gPutHigh c ⟨(gHigh s c).h + 1, true⟩ s) (.more 1)
    else (gProgram c.home.2.1 c.home.2.2 (fun t => t.setLow 1) s, .finished)
  | .raise c x =>
    let done := fun (s : State) => if (gHigh s c).carry || decide (gCounter s c < x) then GStep.more 1 else GStep.finished
    if (gHigh s c).carry then let r := gCarryOn c s; (r.1, if r.2 then done r.1 else .failed)
    else if x ≤ gCounter s c then (s, .finished)
    else if x / 64 = (gHigh s c).h then
      (gProgram c.home.2.1 c.home.2.2 (fun t => t.setLow (x % 64 - t.value)) s, .finished)
    else let r := gPutHigh c ⟨x / 64, true⟩ s; (r.1, if r.2 then done r.1 else .failed)
  | .reset c =>
    if phase < 2 then fin (gPutHigh c ⟨0, false⟩ s) (.more (phase + 1))
    else fin (gClear c.home.2.1 c.home.2.2 s) .finished

/-- The image holds the requested value of some records after a WORN failure (R530). -/
def gImage (op : GOp) (s : State) : State :=
  match op with
  | .put a _ p =>
    if a = G.shadow ∨ a = G.supsnap ∨ (42 ≤ a ∧ a ≤ 73) then
      { s with gauge := { s.gauge with image := tput a p s.gauge.image } }
    else s
  | _ => s

/-- The write in progress ends (R524): a torn block fails its CRC and its write is made again (log entry 69). The answer is
what follows the request, and whether it is durable; nothing when more writes remain. -/
def gWriteEnd (torn : Bool) (s : State) : State × Option (Cont × Bool) :=
  match s.gauge.cur with
  | none => (s, none)
  | some w =>
    if torn then
      let b := match w.req.op with
        | .put a _ _ => (match gPick s a with | some 0 => a + 1 | _ => a)
        | o => o.block
      (putBlock b { gBlock s b with good := false } s, none)
    else
      let (s, r) := gOpStep w.req.op w.phase s
      match r with
      | .more p => ({ s with gauge := { s.gauge with cur := some { w with phase := p } } }, none)
      | .finished => ({ s with gauge := { s.gauge with cur := none } }, some (w.req.cont, true))
      | .failed => (gImage w.req.op { s with gauge := { s.gauge with cur := none } }, some (w.req.cont, false))

/-! ### Holds and withdrawals (R525, R526) -/

/-- The hold in force ends with its record, unless a flush has reported it. -/
def gHoldEnd (s : State) : State :=
  match s.gauge.held with
  | none => s
  | some (t, b, why) =>
    let s := { s with gauge := { s.gauge with held := none } }
    if why < 2 then sed 0x0B20 sNOTICE 11 b why (s.tick.count - t) s else s

/-- A flush begins while a hold is in force: it is reported now (R525). -/
def gHoldReport (s : State) : State :=
  match s.gauge.held with
  | some (t, b, why) =>
    if why < 2 then sed 0x0B20 sNOTICE 11 b why (s.tick.count - t) { s with gauge := { s.gauge with held := some (t, b, why + 2) } }
    else s
  | none => s

/-- GAU_WRITE_HELD's effect: a held write starts once its conditions hold. -/
def doWriteHeld (s : State) : State :=
  if s.gauge.held.isNone || s.gauge.cur.isSome then s else
  match s.gauge.prioQ, s.gauge.normQ with
  | _ :: _, _ => if (gGrant s true).isNone then gStart (gHoldEnd s) else s
  | [], _ :: _ => if (gGrant s false).isNone then gStart (gHoldEnd s) else s
  | [], [] => gHoldEnd s

/-- GAU_WRITE_HELD (R525). -/
def execGauWriteHeld (s : State) : Host.Outcome State Fault Refusal := run doWriteHeld s

/-- A mailbox write that has waited 50 ms (12,500 ticks) is withdrawn (R526). -/
def doWithdraw (path : Nat) (s : State) : State :=
  let due := fun (l : List GReq) => l.any (fun r => r.mailbox == some path && decide (r.since + 12500 ≤ s.tick.count))
  let g := s.gauge
  if due g.prioQ || due g.normQ || due g.waiting then
    match s.mgmt.inflight.find? (fun e => e.path == path && !e.committed) with
    | some e => answer path e.op rcBusy [] (abortCmd path s)
    | none => s
  else s

/-- GAU_MAILBOX_WITHDRAW (R526). -/
def execGauMailboxWithdraw (path : Nat) (s : State) : Host.Outcome State Fault Refusal := run (doWithdraw path) s

/-! ### Parameter commands -/

/-- The 240 bytes of the Narrows group record (R645; layout: log entry 15). -/
def groupBytes (g : GroupRec) : List Byte :=
  let b := le 4 g.ginc ++ le 1 g.primary ++
    le 1 ((if g.isPrimary then 1 else 0) + (if g.solo then 2 else 0) + (if g.synced then 4 else 0)) ++ zeros 2 ++
    (g.serials.flatMap (le 8)) ++ le 1 g.sync.length ++ g.sync.flatMap (le 1)
  sub b 0 240

/-- Payload of a parameter record as bytes. -/
def paramBytes (s : State) (n : Nat) : List Byte :=
  match gRead s (G.param n) with
  | .param l => sub l 0 240
  | .group g => groupBytes g
  | _ => zeros 240

/-- GAU_PARAM_READ (R537). -/
def execGauParamRead (path : Nat) (input : List Byte) (s : State) : Host.Outcome State Fault Refusal :=
  run (cmd path 0xC070 input (input.length == 4) (fun s =>
    let n := byteAt input 0
    if 15 < n ∨ !zeroAt input 1 3 then answer path 0xC070 rcInvalid [] s
    else
      answer path 0xC070 rcSuccess (le 2 (gFmt s (G.param n)) ++ le 1 (if gBad s (G.param n) then 1 else 0) ++ [0] ++
        le 4 (gSeq s (G.param n)) ++ paramBytes s n) s)) s

/-- During a trial only the confirmed image's format may be written (R513). -/
def paramTrialBusy (s : State) (fmt : Nat) : Bool :=
  fwSwitched s && fmt != (fwParse (fld s F.SF_FW_SEL_CONFIRMED) (fwBytes s (fld s F.SF_FW_SEL_CONFIRMED))).settingsFmt

/-- GAU_PARAM_WRITE's effect (R443, R538). -/
def doParamWrite (path : Nat) (secured : Bool) (d : List Byte) (s : State) : State :=
  cmd path 0xC071 d (d.length == 244) (fun s =>
    let n := byteAt d 0
    let fmt := at' d 2 2
    if needsSession s false && !isSecured s path secured then answer path 0xC071 rcRefused [] (secureRequired 0xC071 s)
    else if 15 < n ∨ !zeroAt d 1 1 then answer path 0xC071 rcInvalid [] s
    else if inHalt s || decide (12 ≤ n) then answer path 0xC071 rcRefused [] s
    else if paramTrialBusy s fmt then answer path 0xC071 rcBusy [] s
    else gEnq (.put (G.param n) fmt (.param (d.drop 4))) false (some path) (.param path n fmt) (startCmd path 0xC071 true s)) s

/-- GAU_PARAM_WRITE (R538). -/
def execGauParamWrite (path : Nat) (secured : Bool) (input : List Byte) (s : State) : Host.Outcome State Fault Refusal :=
  run (doParamWrite path secured input) s

/-- The parameter record is durable, or its block is worn. -/
def paramDone (path n : Nat) (ok : Bool) (s : State) : State :=
  if ok then endCmd path 0xC071 rcSuccess (le 4 (gSeq s (G.param n))) s else endCmd path 0xC071 rcWorn [] s

/-! ### Power-up (R522, R534) -/

/-- Resolve the two-copy records of the catalogue, with the records of R522. -/
def gResolve (s : State) : State :=
  let firsts := [2, 5, 7, 9, 11, 13, 15, 17, 19, 21, 23, 25] ++ (List.range 5).map (fun k => 27 + 2 * k) ++
    (List.range 16).map G.param ++ (List.range 32).map G.nonce
  let s := { s with gauge := { s.gauge with image := [], bad := [] } }
  forEach firsts (fun a s =>
    let x := gBlock s a
    let y := gBlock s (a + 1)
    if x.good && y.good then
      if x.seq = y.seq && (x.payload != y.payload || x.fmt != y.fmt) then
        satInc F.GAU_ERR_TIE s |> sed 0x0B01 sWARNING 11 a x.seq 0
      else s
    else if x.good then satInc F.GAU_ERR_COPY_BAD s |> sed 0x0B00 sWARNING 11 (a + 1) 1 x.seq
    else if y.good then satInc F.GAU_ERR_COPY_BAD s |> sed 0x0B00 sWARNING 11 a 0 y.seq
    else
      let s := { s with gauge := { s.gauge with bad := s.gauge.bad ++ [a, a + 1] } }
      satInc F.GAU_ERR_BOTH_BAD s |> sed 0x0B02 sERROR 11 a 2 0) s

/-- Counters of a tally block: the device counters or a group's eight I or R counters. -/
def tallyCtrs (b : Nat) : List Ctr :=
  if b = G.counterTally then (List.range 4).map Ctr.dev
  else
    let g := (b - 74) / 4
    (List.range 8).map (fun k => if b % 4 = 0 then Ctr.slotI (8 * g + k) else Ctr.slotR (8 * g + k))

/-- Finish the carry of one counter at power-up. -/
def gRedo (c : Ctr) (s : State) : State :=
  let s := if (c.tally s).value ≠ 0 then (gClear c.home.2.1 c.home.2.2 s).1 else s
  (gPutHigh c { gHigh s c with carry := false } s).1

/-- R534: lost tallies count as full and carry; carries that had begun are finished. -/
def gRecover (s : State) : State :=
  let tallies := [G.counterTally] ++ (List.range 32).flatMap (fun g => [76 + 4 * g, 77 + 4 * g])
  forEach tallies (fun b s =>
    if !(gBlock s b).good then
      let cs := tallyCtrs b
      let begun := cs.filter (fun c => (gHigh s c).carry)
      let lost := cs.filter (fun c => !(gHigh s c).carry)
      let s := forEach lost (fun c s => (gPutHigh c ⟨(gHigh s c).h + 1, true⟩ s).1) s
      let s := (gWrite b { gBlock s b with payload := .tally (List.replicate 8 Tally.clear) } s).1
      let s := forEach cs (fun c s => (gPutHigh c { gHigh s c with carry := false } s).1) s
      let s := forEach begun (fun c s => sed 0x0B03 sNOTICE 11 b c.home.2.2 ((gHigh s c).h % 2 ^ 32) s) s
      sed 0x0B04 sERROR 11 b lost.length 0 s
    else
      forEach ((tallyCtrs b).filter (fun c => (gHigh s c).carry)) (fun c s =>
        let s := gRedo c s
        sed 0x0B03 sNOTICE 11 b c.home.2.2 ((gHigh s c).h % 2 ^ 32) s) s) s

end Sys2Proof.Machine
end

