-- ==== Sys2Proof/Machine/SedRegion.lean ====
section
/-! DEFINITION. The Sediment region: flush and placement (R542, R543), the scan at start (R547), the mark and reading
(R544, R549). -/

namespace Sys2Proof.Machine

/-! ### Sequences -/

/-- The newest sequence, and how far a sequence lies behind it modulo 2^32 (R544). -/
def sedNewest (s : State) : Nat := (s.sed.next + 2 ^ 32 - 1) % 2 ^ 32
def sedAge (s : State) (n : Nat) : Nat := (sedNewest s + 2 ^ 32 - n % 2 ^ 32) % 2 ^ 32

/-- A record is marked: its sequence is at or below the mark (R544). -/
def sedMarked (s : State) (n : Nat) : Bool := decide (sedAge s s.sed.mark ≤ sedAge s n)

/-- Insert a record in ascending sequence order, oldest first. -/
def sedSortIn (s : State) (r : SedRec) (l : List SedRec) : List SedRec :=
  match l with
  | [] => [r]
  | x :: t => if sedAge s x.seq < sedAge s r.seq then r :: x :: t else x :: sedSortIn s r t

/-- Records in ascending sequence order. -/
def sedSort (s : State) (l : List SedRec) : List SedRec := l.foldl (fun a r => sedSortIn s r a) []

/-! ### Placement (R543) -/

/-- The oldest of a list of region slots. -/
def sedOldest (s : State) (l : List (Nat × SedRec)) : Option (Nat × SedRec) :=
  l.foldl (fun b e => match b with
    | none => some e
    | some x => if sedAge s x.2.seq < sedAge s e.2.seq then some e else some x) none

/-- Put a ring record into the region, or drop it. -/
def sedPlace (r : SedRec) (s : State) : State :=
  let put := fun (k : Nat) (s : State) =>
    { s with sed := { s.sed with region := tput k r s.sed.region, dirtySlots := k :: ldel (· == k) s.sed.dirtySlots } }
  if s.sed.fresh < 131072 then put s.sed.fresh { s with sed := { s.sed with fresh := s.sed.fresh + 1 } }
  else
    match sedOldest s (s.sed.region.filter (fun e => sedMarked s e.2.seq)) with
    | some (k, _) => put k s
    | none =>
      let m := s.sed.region.foldl (fun a e => min a e.2.sev) 8
      match sedOldest s (s.sed.region.filter (fun e => e.2.sev == m)) with
      | some (k, _) => if m ≤ r.sev then put k (satInc F.SED_CNT_DROP_UNMARKED s) else sedDrop r.sev s
      | none => sedDrop r.sev s

/-- A flush's records (R542): SED_DROPPED for what was dropped since the last one, then every ring entry goes to the region,
and the region lines changed wait to enter their slices. Before the scan there is no region to write, and INTEGRITY_HALT
allows only the flush of a power fail (R547, R548). -/
def sedRingOut (s : State) : State :=
  if !bit s F.SED_STAT_READY || (inHalt s && !inFlush s) then s else
  let s := if 0 < s.sed.dropped then
      let d := s.sed
      sed 0x0B80 sWARNING 12 d.dropped d.dropLow d.dropHigh { s with sed := { s.sed with dropped := 0, dropLow := 0, dropHigh := 0 } }
    else s
  let l := s.sed.ring.zipIdx
  let s := forEach l (fun e s =>
    let (s, up, w) := mempReadRow 11 0 (4 * e.2) 4 agInternal s
    match up with
    | .ue => satInc F.SED_ERR_UE (mempUe 11 0 w agInternal s)
    | .ce => sedPlace e.1 (mempCe 11 0 w s)
    | _ => sedPlace e.1 s) { s with sed := { s.sed with ring := [] } }
  let lines := ((s.sed.dirtySlots.reverse.map (fun k => lineEnd s + 0x4000 + k / 2)).eraseDups).filter (fun l => !s.mtl.internalQ.contains l)
  { s with sed := { s.sed with flushDue := false, dirtySlots := [] }, mtl := { s.mtl with internalQ := s.mtl.internalQ ++ lines } }

/-! ### The scan (R546, R547) -/

/-- SED_REGION_SCAN's effect: once the translation layer has recovered, the sequence resumes above every sequence found,
and the ring's records are renumbered. `bad`: the slots whose CRC fails, skipped and counted. Log entry 70. -/
def doSedScan (bad : List Nat) (s : State) : State :=
  if bit s F.SED_STAT_READY || !s.mtl.ready then s else
  let fails := bad.eraseDups.filter (fun k => decide (k < 131072))
  let s := { s with sed := { s.sed with region := s.sed.region.filter (fun e => !fails.contains e.1) } }
  let top := fun (l : List Nat) => l.foldl (fun m n => max m (n + 1)) 0
  let found := max (top (s.sed.region.map (fun e => e.2.seq)))
    (max (top ((gMirror s).filterMap (fun r => r.map (·.seq)))) (if s.sed.gap then 0 else (gShadow s).sedNext))
  let base := (found + (if s.sed.gap then 512 else 0)) % 2 ^ 32
  let k := s.sed.ring.length
  let ring := (List.zip s.sed.ring (List.range k)).map (fun p => { p.1 with seq := (base + p.2) % 2 ^ 32 })
  let newest := match s.sed.newest, ring.getLast? with
    | some (r, e), some x => if (s.sed.ring.getLast?).map (·.seq) = some r.seq then some (x, e) else some (r, e)
    | n, _ => n
  let gap := s.sed.gap
  let lost := s.sed.lost
  let s := { s with sed := { s.sed with ring := ring, newest := newest, next := (base + k) % 2 ^ 32, gap := false, lost := 0 } }
  let s := setF F.SED_STAT_READY 1 s
  let s := match fails with
    | [] => s
    | k :: _ => satAdd F.SED_ERR_CRC_BAD fails.length s |> sed 0x0B82 sWARNING 12 fails.length (fails.foldl min k) 0
  let s := if gap then sed 0x0B84 sNOTICE 12 ((found + 2 ^ 32 - 1) % 2 ^ 32) base 0 s else s
  if lost ≠ 0 then sed 0x0B81 sERROR 12 lost 0 0 s else s

/-- SED_REGION_SCAN (R547). -/
def execSedRegionScan (bad : List Nat) (s : State) : Host.Outcome State Fault Refusal := run (doSedScan bad) s

/-! ### Commands -/

/-- SED_RECORD (R539): a unit raises an event. -/
def execSedRecord (code sev unit p0 p1 p2 : Nat) (s : State) : Host.Outcome State Fault Refusal :=
  run (fun s => if decide (sev < 8) && decide (unit ≤ 16) then sed code sev unit p0 p1 p2 s else s) s

/-- SED_MARK (R544). -/
def execSedMark (path : Nat) (input : List Byte) (s : State) : Host.Outcome State Fault Refusal :=
  run (cmd path 0xC031 input (input.length == 8) (fun s =>
    let n := at' input 0 4
    if !zeroAt input 4 4 ∨ 2 ^ 31 ≤ sedAge s n then answer path 0xC031 rcInvalid [] s
    else if sedAge s s.sed.mark < sedAge s n then answer path 0xC031 rcStale [] s
    else answer path 0xC031 rcSuccess (le 4 s.sed.mark) { s with sed := { s.sed with mark := n } })) s

/-- Records of a source (R549): the region, once scanned, with the ring; in INTEGRITY_HALT the newest 4,096 region records;
or the mirror. -/
def sedSource (s : State) (src : Nat) : List SedRec :=
  if src = 1 then sedSort s ((gMirror s).filterMap id)
  else
    let region := if bit s F.SED_STAT_READY then sedSort s (s.sed.region.map (·.2)) else []
    let region := if inHalt s then region.drop (region.length - 4096) else region
    sedSort s (region ++ s.sed.ring ++ s.pwr.buffer)

/-- SED_READ's effect. -/
def doSedRead (path : Nat) (d : List Byte) (s : State) : State :=
  cmd path 0xC030 d (d.length == 8) (fun s =>
    let src := byteAt d 0
    let sev := byteAt d 1
    let n := at' d 2 2
    let start := at' d 4 4
    if 1 < src ∨ 7 < sev ∨ n = 0 ∨ 255 < n then answer path 0xC030 rcInvalid [] s
    else
      let all := sedSource s src
      let from_ := fun (r : SedRec) => start == 0xFFFFFFFF || decide (sedAge s r.seq ≤ sedAge s start)
      let l := all.filter (fun r => from_ r && decide (sev ≤ r.sev))
      let got := l.take n
      let more := decide (n < l.length)
      -- sequences between START and the first record returned, and how many of them are held
      let span := match got with
        | r :: _ => sedAge s start - sedAge s r.seq
        | [] => sedAge s start + 1
      let held := (all.filter (fun r => decide (sedAge s r.seq ≤ sedAge s start) &&
        (match got with | g :: _ => decide (sedAge s g.seq < sedAge s r.seq) | [] => true))).length
      let gap := start != 0xFFFFFFFF && decide (sedAge s start < 2 ^ 31) && decide (held < span)
      let next := match got.getLast? with
        | some r => (r.seq + 1) % 2 ^ 32
        | none => if start = 0xFFFFFFFF then s.sed.next else start
      answer path 0xC030 rcSuccess (le 2 got.length ++ le 1 ((if more then 1 else 0) + (if gap then 2 else 0)) ++ [0] ++
        le 4 next ++ got.flatMap recBytes) s) s

/-- SED_READ (R549). -/
def execSedRead (path : Nat) (input : List Byte) (s : State) : Host.Outcome State Fault Refusal := run (doSedRead path input) s

end Sys2Proof.Machine
end

