-- ==== Sys2Proof/Machine/Lifecycle.lean ====
section
/-! DEFINITION. The security lifecycle (R463 to R467). -/

namespace Sys2Proof.Machine

/-! ### LIFECYCLE_ADVANCE (R464, R465) -/

/-- Draw the challenge (R465). -/
def chalDraw (s : State) : State :=
  let (c, s) := draw 64 s
  setF F.MGMT_LC_CHAL_LO_VALUE (c.toNat % 2 ^ 32) { s with mgmt := { s.mgmt with challenge := c } }
    |> setF F.MGMT_LC_CHAL_HI_VALUE (c.toNat / 2 ^ 32)

/-- Advances that R463 permits. -/
def lcMay (a b : Nat) : Bool := (a == 0 && (b == 1 || b == 3)) || (a == 1 && (b == 2 || b == 3)) || (a == 2 && b == 3)

/-- The code of the first check of R465 that fails. -/
def advCheck (s : State) (secured : Bool) (d : List Byte) : Nat :=
  let t := byteAt d 0
  let pub := sub d 104 96
  let holder := if t = 1 then sub d 24 48 else imageKeyDigest s
  if t = 0 ∨ 3 < t ∨ !zeroAt d 1 7 ∨ (t ≠ 1 ∧ !zeroAt d 24 80) then rcInvalid
  else if needsSession s true && !secured then rcRefused
  else if inHalt s && t != 3 then rcRefused
  else if !lcMay (lifecycle s) t ∨ (t = 1 ∧ fld s F.KV_STAT_VAULT ≠ 1) then rcConflict
  else if at' d 16 8 ≠ s.mgmt.challenge.toNat then rcStale
  else if at' d 8 8 ≠ serialNo s ∨ sha384 pub ≠ holder ∨ ecdsaVerify pub (sub d 200 96) (d.take 200) = false then rcAuthFail
  else if inGuard s ∨ inFlush s ∨ bgBusy s then rcBusy
  else rcSuccess

/-- LIFECYCLE_ADVANCE's effect: the background command is accepted; LC_ADVANCED runs it. -/
def doAdvance (path : Nat) (secured : Bool) (d : List Byte) (s : State) : State :=
  cmd path 0xC050 d (d.length == 296) (fun s =>
    let sec := isSecured s path secured
    let rc := advCheck s sec d
    let t := byteAt d 0
    if rc ≠ rcSuccess then
      let s := if rc = rcRefused && needsSession s true && !sec then secureRequired 0xC050 s else s
      answer path 0xC050 rc [] (sed 0x0051 sWARNING 16 t rc 0 s)
    else
      let s := chalDraw s
      let s := setF F.MGMT_LC_BUSY 1 { s with mgmt := { s.mgmt with
        bg := some (.advance path t (sub d 24 48) (BitVec.ofNat 256 (beVal (sub d 72 32))) 1)
        bgStat := tput path ⟨0xC050, 0, 0⟩ s.mgmt.bgStat } }
      answer path 0xC050 rcBackground (le 1 t ++ zeros 3 ++ le 8 s.mgmt.challenge.toNat) s) s

/-- LIFECYCLE_ADVANCE (R465). -/
def execLifecycleAdvance (path : Nat) (secured : Bool) (input : List Byte) (s : State) : Host.Outcome State Fault Refusal :=
  run (doAdvance path secured input) s

/-! ### The steps (R466) -/

/-- The step that the running advance has reached. -/
def advAt (n : Nat) (s : State) : State :=
  match s.mgmt.bg with
  | some (.advance p t d k _) => { s with mgmt := { s.mgmt with bg := some (.advance p t d k n) } }
  | _ => s

/-- LC_ADVANCED's effect: the first step of an accepted advance: the KEK0 entry, or the write that raises the counter. -/
def doAdvanceRun (s : State) : State :=
  match s.mgmt.bg with
  | some (.advance _ t _ kek0 1) =>
    if t = 1 then
      let e := { LedgerEnt.of lkKek 0 with wrapped := kwWrap s.vault.kVault (be 32 kek0.toNat) }
      ledgerAppend e none (.advance 2) (advAt 2 s)
    else gEnq (.raise (.dev 0) t) false none (.advance 4) (advAt 4 s)
  | _ => s

/-- LC_ADVANCED (R466). -/
def execLcAdvanced (s : State) : Host.Outcome State Fault Refusal := run doAdvanceRun s

/-- The background command ends with a code. -/
def advEnd (path code : Nat) (s : State) : State :=
  emit (.bgDone path 0xC050 code) (setF F.MGMT_LC_BUSY 0 { s with
    mgmt := { s.mgmt with bg := none, bgStat := tput path ⟨0xC050, 100, code⟩ s.mgmt.bgStat } })

/-- Channels leave direct-access mode (R263). -/
def daLeave (s : State) : State :=
  forEach ((List.range 16).filter (fun c => chanState s c == 5)) (fun c s =>
    setF (F.MED_CH_CTL_DA c) 0 (setF (F.MED_CH_STAT_STATE c) 2 s)) s

/-- The vault erases keys and ledger, the job ends ABORTED, the caches purge, and every host reach is released (R403, R466);
the counts are those of LC_RETIRE_DONE. -/
def retireErase (s : State) : State × Nat × Nat :=
  let live := (s.vault.ctxs.filter (fun e => e.2.st != .empty)).map (·.1)
  let s := if shoreBusy s then
      gPut G.shore (.shore none) false none .none
        (sed 0x0653 sNOTICE 3 s.icu.shore.key 1 (s.icu.shore.b % 2 ^ 32) (modShore (fun x => { x with st := 4, step := 0, delay := false }) s))
    else s
  let s := forEach live purgeKey s
  let s := { s with vault := { s.vault with
    ctxs := [], slots := [], keks := [], kVault := 0, kTree := 0, dev := none, area0 := [], area1 := [], busy := [], installs := [] } }
  let reaches := s.mtl.map.reachMap.length
  let s := quarEnds (unmapReaches 0 (capacityUnits s * 4096) s)
  (s, live.length, reaches)

/-- KEYROOT erased, then RETIRE_DONE. -/
def retireWrites (s : State) : State :=
  let (d, _, p) := gLcrec s
  gPut G.keyroot (.keyroot KeyRoot.init) false none .none s
    |> gPut G.lcrec (.lcrec d true p) false none (.advance 6)

/-- The steps that follow the commit point of an advance. -/
def advCommitted (t : Nat) (kek0 : BitVec 256) (s : State) : State :=
  let old := lifecycle s
  let s := setF F.MGMT_LC_STATE t s |> sed 0x0050 sNOTICE 16 old t 0
  let s := tokenDrop 1 s
  let s := daLeave s
  if t = 1 then
    let (d, r, _) := gLcrec s
    gPut G.lcrec (.lcrec d r false) false none (.advance 6) (modKek 0 (fun k => { k with key := some kek0, lost := false }) s)
  else if t = 2 then setF F.MEMP_INJ_CTL_ARM 0 s
  else
    let (s, ctxs, reaches) := retireErase s
    let (ms, s) := drawLe 5000 s
    retireWrites (sed 0x0052 sNOTICE 16 ctxs (reaches % 2 ^ 32) ms s)

/-- An advance's Gauge write is durable (R466): 2 the KEK0 entry, 3 the digest, 4 the counter, 6 the last record. -/
def advanceStep (step : Nat) (ok : Bool) (s : State) : State :=
  match s.mgmt.bg with
  | some (.advance p t d k _) =>
    if !ok then advEnd p rcWorn s
    else if step = 2 then
      let (_, r, _) := gLcrec s
      gPut G.lcrec (.lcrec d r true) false none (.advance 3) (advAt 3 s)
    else if step = 3 then gEnq (.raise (.dev 0) 1) false none (.advance 4) (advAt 4 s)
    else if step = 4 then
      let s := advCommitted t k (advAt 6 s)
      if t = 2 then advEnd p rcSuccess s else s
    else
      let s := if t = 3 then setF F.MGMT_LC_RETIRE_DONE 1 s else s
      advEnd p rcSuccess s
  | _ => if step = 6 && lifecycle s == 3 then setF F.MGMT_LC_RETIRE_DONE 1 s else s

/-! ### At a start (R463, R467) -/

/-- A start that finds RETIRED without RETIRE_DONE repeats the retirement steps (R467). -/
def retireRedo (s : State) : State :=
  if lifecycle s = 3 ∧ (gLcrec s).2.1 = false then
    let (s, ctxs, reaches) := retireErase s
    let (ms, s) := drawLe 5000 s
    retireWrites (sed 0x0052 sNOTICE 16 ctxs (reaches % 2 ^ 32) ms s)
  else s

/-- An advance interrupted in BLANK: its KEK0 entry and digest are erased (R463). No other key stands in a BLANK ledger. -/
def blankDiscard (s : State) : State :=
  let (d, _, p) := gLcrec s
  if lifecycle s ≠ 0 ∨ (d = zeros 48 ∧ p = false ∧ ledger s = []) then s
  else
    let k := gKeyroot s
    let s := { s with vault := { s.vault with keks := [], area0 := [], area1 := [] } }
    gPut G.keyroot (.keyroot { k with count := 0, mac := 0 }) false none .none s
      |> gPut G.lcrec (.lcrec (zeros 48) false false) false none .none |> sed 0x0053 sNOTICE 16 0 0 0

end Sys2Proof.Machine
end

