-- ==== Sys2Proof/Machine/Narrows.lean ====
section
/-! DEFINITION. Narrows replication (chapter 16): sessions and the group (R630 to R634, R645 to R650), frames received
(R635 to R642), resync (R651 to R655), its commands (R656 to R659), and power, flush and halt (R660 to R663). -/

namespace Sys2Proof.Machine

/-! ### The group -/

def modNrw (f : Narrows → Narrows) (s : State) : State := { s with nrw := f s.nrw }

/-- Board position that link n faces (R628). -/
def facing (s : State) (n : Nat) : Nat :=
  let c := boardCount s
  if n = 0 then (ownPos s + 1) % c else (ownPos s + c - 1) % c

/-- Two positions are wired to each other (R628). -/
def faces (s : State) (a b : Nat) : Bool :=
  let c := boardCount s
  (a + 1) % c == b || (b + 1) % c == a

/-- Members that link n leads to. -/
def behind (s : State) (n : Nat) : List Nat := (peers s).filter (fun p => linkTo s p 0 == n || linkTo s p 1024 == n)

/-- What the configuration lacks for a group (R630): 0 positions, 1 links, 2 a head in tagged mode. -/
def nrwConfigBad (s : State) : Option Nat :=
  match cfgNrw s with
  | none => none
  | some c =>
    let n := boardCount s
    let inRow := (List.zip c.members (c.members.drop 1)).all (fun p => p.2 == (p.1 + 1) % n)
    let want := (if c.members.contains (facing s 0) && facing s 0 != ownPos s then 1 else 0) +
      (if c.members.contains (facing s 1) && facing s 1 != ownPos s then 2 else 0)
    if !inRow || !c.members.contains (ownPos s) then some 0
    else if c.linkEn ≠ want then some 1
    else if (headsOn s).any (tagged s) then some 2
    else none

/-- SHA-384 over an image's REGION records in head and region order (R630). -/
def regionDigest (image : List Byte) : List Byte :=
  let last := image.length - 96
  match ndxFrames image last image.length 256 0 with
  | .error _ => zeros 48
  | .ok l =>
    let r := l.filter (fun r => r.type == 3)
    sha384 (((List.range 256).filterMap (fun i => r.find? (fun x => x.inst == i))).flatMap (·.raw))

/-- The device's own state as STATUS gives it: IN_SYNC, or RESYNC while it is stale. -/
def nrwOwnState (s : State) : Nat := if s.nrw.stale then 2 else if 2 ≤ s.nrw.group then 1 else 0

/-- Send STATUS on a link, and on every link (R635, R647). -/
def nrwStatus (n : Nat) (s : State) : State :=
  if !linkRuns s n then s else
  match cfgNrw s with
  | none => s
  | some c =>
    let g := s.nrw.grp
    let s := modLink n (fun l => { l with txFrames := l.txFrames + 1 }) (satInc (F.NRW_LINK_CNT_FRAMES n) (count 0x60 n 1 s))
    emit (.status n g.ginc g.isPrimary (nrwOwnState s) g.synced c.group c.nmem c.async) s
def nrwStatusAll (s : State) : State := nrwStatus 1 (nrwStatus 0 s)

/-- Take a new group record and write it to Gauge without holding traffic (R647). -/
def putGroup (g : GroupRec) (s : State) : State :=
  gPut (G.param 12) (.group g) false none .none (modNrw (fun x => { x with grp := g }) s)

/-- NRW_STAT.GROUP of a formed group (R649). -/
def groupEval (s : State) : State :=
  if s.nrw.group < 2 then s else
  let inSync := (peers s).any (fun p => (memOf s p).st == 1)
  let g := if !s.nrw.grp.isPrimary || inSync then 2 else if s.nrw.grp.solo then 3 else 4
  if g = s.nrw.group then s
  else
    let s := modNrw (fun x => { x with group := g }) s
    let s := if g = 3 then sed 0x0F12 sWARNING 15 s.nrw.grp.ginc 0 0 s
      else if g = 4 then sed 0x0F11 sCRITICAL 15 s.nrw.grp.ginc 0 0 s else s
    pump s

/-- This device sends a stale member its frames (R652): the PRIMARY where it faces the member, else the member between. -/
def amSource (s : State) (p : Nat) : Bool :=
  !s.nrw.stale && faces s (ownPos s) p && (s.nrw.grp.isPrimary || !faces s s.nrw.grp.primary p)

/-- Regions of the exported capacity, and the set ones of a member's bitmap (R651). -/
def regionsAll (s : State) : Nat := lineEnd s / 16384
def regionsSet (s : State) (m : NMem) : Nat :=
  (m.bits.getD []).length + (match m.full with | some n => regionsAll s - n | none => 0)

/-- A member's walk ends. -/
def dropWalk (p : Nat) (s : State) : State := modNrw (fun x => { x with walk := x.walk.filter (fun w => w.1 != p) }) s

/-- A member starts its resync (R646, R651): in full where no bitmap is held. -/
def resyncStart (p : Nat) (full : Bool) (s : State) : State :=
  let m := memOf s p
  let all := full || m.bits.isNone
  let m := { m with st := 2, bits := if all then some [] else m.bits, full := if all then some 0 else m.full,
                    resyncStart := s.tick.count, regionEnd := [] }
  let n := regionsSet s m
  let s := modMem p (fun _ => { m with startRegions := n }) s
  let s := dropWalk p s
  if amSource s p then sed 0x0F20 sNOTICE 15 p n (if all then 1 else 0) s else s

/-! ### Completions, acknowledgements and fences -/

/-- Completions no longer wait on a member for RSEQ up to r (R640, R648). -/
def unwait (p r : Nat) (s : State) : State :=
  let l := s.nrw.waits.map (fun w => if w.rseq ≤ r then { w with on := w.on.filter (fun q => q != p) } else w)
  let s := modNrw (fun x => { x with waits := l.filter (fun w => !w.on.isEmpty) }) s
  forEach (l.filter (fun w => w.on.isEmpty)) (fun w s => respondNdr w.head w.tag s) s

/-- A member's share of the send cells up to RSEQ r ends; cells that serve nobody are freed (R637). -/
def freeCells (p r : Nat) (s : State) : State :=
  let f : SendCell → SendCell := fun c => if c.rseq ≤ r then { c with serves := c.serves.filter (fun q => q != p) } else c
  forEach [0, 1] (fun n s => modLink n (fun l => { l with send := (l.send.map f).filter (fun c => !c.serves.isEmpty) }) s) s

/-- RSEQ bound above every frame. -/
def rseqTop : Nat := 2 ^ 56

/-- Cancel the fetch entries: the reads behind them are served from the device's own data (R655). -/
def cancelFetches (s : State) : State :=
  let l := s.nrw.fetches
  forEach l (fun line s => amqRun 64 line s) (modNrw (fun x => { x with fetches := [], recvBits := [] }) s)

/-- A PROMOTE without the old primary (R657), or the last step of a handoff: its commit point is the Gauge write. -/
def promoteWrite (path : Nat) (s : State) : State :=
  let g := { s.nrw.grp with ginc := (s.nrw.grp.ginc + 1) % 2 ^ 32, isPrimary := true, primary := ownPos s }
  gPut (G.param 12) (.group g) false (some path) (.group path 1) s

/-- Fence a member (R647, R648): GINC rises, completions that waited only on it are presented, its bitmap starts. -/
def nrwFence (p cause : Nat) (s : State) : State :=
  let m := memOf s p
  if !(peers s).contains p || !(m.st == 1 || m.st == 2) then s else
  let unacked := [0, 1].flatMap (fun n => ((linkOf s n).send.filter (fun c => c.serves.contains p)).filterMap (fun c =>
    match c.body with | .bitmap _ _ => none | b => some (b.line / 16384)))
  let keep := (m.bits.getD []) ++ unacked
  let m' := { m with st := 3, cause := cause, seen := false, bits := if s.nrw.stale then none else some keep.eraseDups,
                     full := if s.nrw.stale then none else m.full, regionEnd := [] }
  let s := modMem p (fun _ => m') s
  let s := dropWalk p s
  let g := { s.nrw.grp with ginc := (s.nrw.grp.ginc + 1) % 2 ^ 32 }
  let s := putGroup g s |> sed 0x0F10 sERROR 15 p cause g.ginc
  let s := faultStallFree 7 150 (unwait p rseqTop (freeCells p rseqTop s))
  -- R655: a member being resynced has lost its source
  let s := if s.nrw.stale && !(peers s).any (fun q => (memOf s q).st == 1) then
      let n := s.nrw.recvBits.length
      let s := cancelFetches (modNrw (fun x => { x with diverged := true }) s)
      sed 0x0F22 sCRITICAL 15 p n 0 s
    else s
  let s := match s.nrw.handoff with
    | some (path, true) => if p = s.nrw.grp.primary then promoteWrite path (modNrw (fun x => { x with handoff := none }) s) else s
    | _ => s
  pump (nrwStatusAll (groupEval s))

/-- A link goes down (R648, R634): its session ends, and the members that it leads to are fenced. -/
def linkLost (n cause st : Nat) (s : State) : State :=
  if (linkOf s n).st = 0 then s else
  let s := modLink n (fun l => { l with st := st, holdIn := false }) s
  let s := sed 0x0F01 sWARNING 15 n cause 0 s
  forEach (behind s n) (fun p s => nrwFence p cause s) s

/-- NRW_TAG_FAIL (R634, R648). -/
def execNrwTagFail (link : Nat) (s : State) : Host.Outcome State Fault Refusal :=
  run (fun s => if !linkRuns s link then s else
    let s := satInc (F.NRW_LINK_ERR_TAG link) s |> satInc (F.NRW_LINK_ERR_RETRAIN link)
    linkLost link 5 1 (sed 0x0F03 sWARNING 15 link 2 (facing s link) s)) s

/-- A trigger of R648 holds: `cause` 1 link, 2 ACK timeout, 3 120 ticks, 4 hold, 6 cell. -/
def fenceDue (s : State) (p cause : Nat) : Bool :=
  let old := fun (t : Nat) => [0, 1].any (fun n => (linkOf s n).send.any (fun c => c.serves.contains p &&
    (match c.sent with | some k => decide (k + t ≤ s.tick.count) | none => false)))
  let held := [0, 1].any (fun n => (behind s n).contains p && (linkOf s n).holdIn)
  if cause = 2 then old (fld s F.NRW_CTL_ACK_TIMEOUT) && !held
  else if cause = 3 then old 120
  else if cause = 4 then [0, 1].any (fun n => (behind s n).contains p && (linkOf s n).holdIn &&
    decide ((linkOf s n).holdSince + 100 ≤ s.tick.count))
  else cause == 1 || cause == 6

/-- NRW_FENCE (R648); cause 1 takes the link with it. -/
def execNrwFence (pos cause : Nat) (s : State) : Host.Outcome State Fault Refusal :=
  run (fun s => if !nrwOn s || inHalt s || !fenceDue s pos cause then s else
    if cause = 1 then
      let n := linkTo s pos 0
      linkLost n 1 1 (satInc (F.NRW_LINK_ERR_RETRAIN n) s)
    else nrwFence pos cause s) s

/-! ### Sessions and STATUS (R633, R646, R647) -/

/-- A serial is accepted for a position (R633). -/
def serialOk (s : State) (p serial : Nat) : Bool :=
  let i := match cfgNrw s with | some c => c.members.idxOf p | none => 0
  let want := lat 0 s.nrw.grp.serials i
  if want = 0 then decide (lifecycle s ≤ 1) else want == serial

/-- NRW_SESSION's effect: the link has trained, and the two ends have authenticated or not. -/
def doSession (n width serial : Nat) (chainOk : Bool) (s : State) : State :=
  if !linkEnabled s n || 2 ≤ n || inHalt s || inFlush s || !coreOn s || s.pwr.stopped.contains 15 ||
      !(width == 4 || width == 2) || (linkOf s n).st == 3 then s else
  let p := facing s n
  if !chainOk then sed 0x0F03 sWARNING 15 n 0 p (modLink n (fun l => { l with st := 0 }) s)
  else if !serialOk s p serial then sed 0x0F03 sWARNING 15 n 1 p (modLink n (fun l => { l with st := 0 }) s)
  else
    let s := modLink n (fun l => { l with
      st := 3, width := width, session := l.session + 1, txFrames := 0, peer := p, send := [] }) s
    let s := forEach (behind s n) (fun q s => modMem q (fun m => { m with seen := false }) s) s
    nrwStatus n (sed 0x0F00 sINFO 15 n width p s)

/-- NRW_SESSION (R629, R633). -/
def execNrwSession (link width serial : Nat) (chainOk : Bool) (s : State) : Host.Outcome State Fault Refusal :=
  run (doSession link width serial chainOk) s

/-- The group forms when every other member has shown the same configuration; M0 is PRIMARY when every record holds
GINC 0 (R630, R631). -/
def groupForm (s : State) : State :=
  match cfgNrw s with
  | none => s
  | some c =>
    if s.nrw.group ≠ 1 || (nrwConfigBad s).isSome || !(peers s).all (fun p => (memOf s p).seen) then s
    else
      let first := s.nrw.grp.ginc == 0 && (peers s).all (fun p => (memOf s p).ginc == 0)
      let m0 := lat 0 c.members 0
      let s := modNrw (fun x => { x with group := 2 }) s
      if first then putGroup { s.nrw.grp with isPrimary := m0 == ownPos s, primary := m0 } s else s

/-- Two members meet: which side is stale (R647), and the member's next state (R646). -/
def nrwMeet (p ginc : Nat) (primary synced : Bool) (s : State) : State :=
  let g := s.nrw.grp
  let unsynced := !synced || !g.synced
  let selfStale := g.ginc < ginc ∨ (g.ginc = ginc ∧ !g.isPrimary ∧ primary ∧ unsynced)
  let peerStale := ginc < g.ginc ∨ (g.ginc = ginc ∧ g.isPrimary ∧ !primary ∧ unsynced)
  if selfStale then
    let s := putGroup { g with ginc := ginc, isPrimary := false, primary := if primary then p else g.primary } s
    let s := modNrw (fun x => { x with stale := true, applySet := false, recvBits := [], fetches := [], walk := none }) s
    let s := sed 0x0F31 sWARNING 15 g.ginc ginc (if g.ginc < ginc then 0 else 1) s
    modMem p (fun m => { m with st := 1, bits := none, full := none }) s
  else if peerStale then resyncStart p false s
  else modMem p (fun m => { m with st := 1, bits := none, full := none })
    (if primary then modNrw (fun x => { x with applySet := false }) s else s)

/-- A member whose resync ends (R646). -/
def resyncDone (p : Nat) (s : State) : State :=
  let m := memOf s p
  let s := modMem p (fun m => { m with st := 1, bits := none, full := none, regionEnd := [] }) s
  let s := dropWalk p s
  let s := if amSource s p then sed 0x0F21 sNOTICE 15 p m.startRegions ((s.tick.count - m.resyncStart) / 250) s else s
  nrwStatusAll (groupEval s)

/-- NRW_STATUS_FRAME's effect. -/
def doStatus (n p ginc : Nat) (primary : Bool) (st : Nat) (synced : Bool) (group nmem : Nat) (ack : Bool)
    (members : List Nat) (digest : List Byte) (s : State) : State :=
  match cfgNrw s with
  | none => s
  | some c =>
    if !linkRuns s n || !(behind s n).contains p then s
    else if (nrwConfigBad s).isSome then s
    else if group ≠ c.group ∨ nmem ≠ c.nmem ∨ members.take c.nmem ≠ c.members ∨ ack ≠ c.async then
      sed 0x0F02 sERROR 15 3 p 0 (modNrw (fun x => { x with group := 1 }) s)
    else if digest ≠ s.nrw.digest then sed 0x0F02 sERROR 15 4 p 0 (modNrw (fun x => { x with group := 1 }) s)
    else
      let met := !(memOf s p).seen
      let s := modMem p (fun m => { m with seen := true, ginc := ginc, isPrimary := primary, synced := synced, pos := p }) s
      let s := groupForm s
      if s.nrw.group < 2 then s
      else if met then pump (groupEval (nrwMeet p ginc primary synced s))
      else
        let g := s.nrw.grp
        let s := if g.ginc < ginc then putGroup { g with ginc := ginc } s else s
        let s := if primary && !s.nrw.grp.isPrimary && s.nrw.grp.primary ≠ p then
            putGroup { s.nrw.grp with primary := p } s else s
        if (memOf s p).st = 2 ∧ !amSource s p ∧ st = 1 then resyncDone p s else groupEval s

/-- The members that have shown their STATUS since the last start are met together once the group forms. -/
def meetAll (s0 s : State) : State :=
  if s0.nrw.group < 2 && 2 ≤ s.nrw.group then
    forEach (peers s) (fun p s =>
      let m := memOf s p
      if m.st = 0 then groupEval (nrwMeet p m.ginc m.isPrimary m.synced s) else s) s
  else s

/-- NRW_STATUS_FRAME (R630, R646, R647); `pos` is the member whose STATUS it is (log entry 75). -/
def execNrwStatusFrame (link pos ginc : Nat) (primary : Bool) (st : Nat) (synced : Bool) (group nmem : Nat) (ack : Bool)
    (members : List Nat) (digest : List Byte) (s : State) : Host.Outcome State Fault Refusal :=
  run (fun s => meetAll s (doStatus link pos ginc primary st synced group nmem ack members digest s)) s

/-- NRW_LEAVE_FRAME (R660): the sender is fenced. -/
def execNrwLeaveFrame (link : Nat) (s : State) : Host.Outcome State Fault Refusal :=
  run (fun s => if linkRuns s link then nrwFence (facing s link) 7 s else s) s

/-! ### Frames that a member applies (R638, R639, R653) -/

/-- The highest RSEQ that has persisted together with every earlier one (R638). -/
def ackable (s : State) : Nat :=
  s.slices.foldl (fun m e => e.2.amq.foldl (fun m a =>
    match a.src with | .replica _ r => if !a.persisted && r ≤ m then r - 1 else m | _ => m) m) s.nrw.persisted

/-- Send ACK for what has persisted since the last one (R638; log entry 76). -/
def nrwAck (s : State) : State :=
  if !nrwReplica s || s.nrw.unacked = 0 then s else
  let n := linkTo s s.nrw.grp.primary 0
  if !linkRuns s n then s else
  nrwFrame n 0x08 (ownPos s) (ackable s) false none (modNrw (fun x => { x with unacked := 0 }) s)

/-- RELEASE at its place (R653): UNMAP of the reach, and every cached copy of its lines goes without write-back. -/
def applyRelease (l : Nat) (e : QEntry) (s : State) : State :=
  let s := takeEntry (16 + l) (fun _ => true) s
  let s := modNrw (fun x => { x with nextApply := e.rseq + 1 }) s
  let (s, _, _) := purgeWhere (fun _ line => reachOf line == reachOf e.line) s
  let s := bitmapMark e.line (nrwUnsync (unmapReaches (reachOf e.line) 1 s))
  recvDone (reachOf e.line * 1024 + 1023) (replicaDone e.rseq s)

/-- BITMAP at its place (R652). -/
def applyBitmap (l : Nat) (e : QEntry) (s : State) : State :=
  let s := takeEntry (16 + l) (fun _ => true) s
  let set := ((List.range 512).filter (fun i => e.data.getLsbD i)).map (fun i => e.line + i)
  replicaDone e.rseq (modNrw (fun x => { x with
    nextApply := e.rseq + 1, recvBits := x.recvBits ++ set.filter (fun r => !x.recvBits.contains r) }) s)

/-- Apply every replica entry whose turn has come, in RSEQ order (R638). -/
def nrwApply (fuel : Nat) (s : State) : State :=
  match fuel with
  | 0 => s
  | n + 1 =>
    let s := issueReplica ((queueOf s 16).occ + (queueOf s 17).occ + 1) s
    match if slicesServe s && s.mtl.ready then replicaRead s else (s, none) with
    | (s, none) => s
    | (s, some (l, e)) =>
      if e.kind = .release then nrwApply n (applyRelease l e s)
      else if e.kind = .bitmap then nrwApply n (applyBitmap l e s)
      else s

/-- Apply, then acknowledge. -/
def nrwTake (s : State) : State := nrwAck (pump (nrwApply ((queueOf s 16).occ + (queueOf s 17).occ + 1) s))

/-- Members that get a received frame from this one: those on the other link that the primary does not face (R639). -/
def relayTo (s : State) (n : Nat) : List Nat :=
  (behind s (1 - n)).filter (fun p => !faces s s.nrw.grp.primary p && p != s.nrw.grp.primary && !(behind s n).contains p)

/-- A change arrives on a link (R638, R639). -/
def nrwRecv (n : Nat) (e : QEntry) (b : FrameBody) (ue : Bool) (s : State) : State :=
  if 2 ≤ n || !linkRuns s n || !nrwReplica s || inFlush s || decide (512 ≤ (queueOf s (16 + n)).occ) then s else
  let s := if s.nrw.applySet then s else modNrw (fun x => { x with applySet := true, nextApply := e.rseq }) s
  let s := modNrw (fun x => { x with rseq := max x.rseq (e.rseq + 1) }) s
  let far := (relayTo s n).filter (fun p => (memOf s p).st == 1 || (memOf s p).st == 2)
  let s := nrwQueue e.rseq b far s
  let s := enqueue (16 + n) e s
  let s := if ue then doRingUe (16 + n) ((queueOf s (16 + n)).occ - 1) 2 s else s
  nrwTake s

/-- A replica entry. -/
def repEntry (k : QKind) (rseq key line : Nat) (d : Line) (poison resync : Bool) : QEntry :=
  { QEntry.blank k 0 with rseq := rseq, key := key, line := line, data := d, poison := poison, resync := resync }

/-- NRW_WRITE_FRAME (R636, R638); an uncorrectable word of its replica entry is R155's. -/
def execNrwWriteFrame (link rseq key line : Nat) (data : Line) (poison resync _relay : Bool) (up : Upset) (s : State) :
    Host.Outcome State Fault Refusal :=
  run (nrwRecv link (repEntry .write rseq key line data poison resync) (.write key line data poison resync) (up == .ue)) s

/-- NRW_ZERO_FRAME (R638). -/
def execNrwZeroFrame (link rseq key line : Nat) (resync _relay : Bool) (s : State) : Host.Outcome State Fault Refusal :=
  run (nrwRecv link (repEntry .zero rseq key line 0 false resync) (.zero key line resync) false) s

/-- NRW_RELEASE_FRAME (R653). -/
def execNrwReleaseFrame (link rseq line : Nat) (_relay : Bool) (s : State) : Host.Outcome State Fault Refusal :=
  run (nrwRecv link (repEntry .release rseq 0 line 0 false true) (.release line) false) s

/-- NRW_BITMAP_FRAME (R652). -/
def execNrwBitmapFrame (link rseq first : Nat) (bits : BitVec 512) (s : State) : Host.Outcome State Fault Refusal :=
  run (nrwRecv link (repEntry .bitmap rseq 0 first bits false true) (.bitmap first bits) false) s

/-! ### Frames between members (R635, R640, R650) -/

/-- A handoff goes on once every send list is acknowledged (R658): HANDOFF goes back, and the device is a REPLICA. -/
def handoffCheck (s : State) : State :=
  match s.nrw.handoff with
  | some (n, false) =>
    if [0, 1].any (fun k => !(linkOf s k).send.isEmpty) then s
    else
      let g := { s.nrw.grp with isPrimary := false, primary := facing s n }
      let s := putGroup g (modNrw (fun x => { x with handoff := none, applySet := false }) s)
      nrwFrame n 0x0E (ownPos s) (s.nrw.rseq - 1) false none (pump (groupEval s))
  | _ => s

/-- Regions whose frames a member has acknowledged lose their bit; with the last one the resync ends (R646, R652). -/
def regionsAcked (p : Nat) (s : State) : State :=
  let m := memOf s p
  if m.st ≠ 2 ∨ !amSource s p then s else
  let done := (m.regionEnd.filter (fun e => decide (e.2 ≤ m.ack))).map (·.1)
  let s := modMem p (fun m => { m with
    bits := m.bits.map (fun l => l.filter (fun r => !done.contains r)), regionEnd := m.regionEnd.filter (fun e => !done.contains e.1) }) s
  let walked := match s.nrw.walk with | some (q, k, _) => q == p && k == 12289 | none => false
  if walked && (memOf s p).regionEnd.isEmpty then resyncDone p s else s

/-- NRW_ACK_FRAME's effect: with RELAY set the ACK is the far member's (R639). -/
def doNrwAck (n rseq : Nat) (relay : Bool) (pos : Nat) (s : State) : State :=
  if !linkRuns s n then s else
  let p := if relay then pos else facing s n
  if !(peers s).contains p then s else
  let s := modMem p (fun m => { m with ack := max m.ack rseq }) s
  let s := regionsAcked p (unwait p rseq (freeCells p rseq s))
  let s := if nrwReplica s && !faces s s.nrw.grp.primary p then
      nrwFrame (linkTo s s.nrw.grp.primary 0) 0x08 p rseq true none s else s
  pump (handoffCheck s)

/-- NRW_ACK_FRAME (R640, R644, R646, R652). -/
def execNrwAckFrame (link rseq : Nat) (relay : Bool) (pos : Nat) (s : State) : Host.Outcome State Fault Refusal :=
  run (doNrwAck link rseq relay pos) s

/-- NRW_RESEND_FRAME (R650): every frame from RSEQ on is sent again; a cell that cannot be resent fences its members. -/
def execNrwResendFrame (link rseq : Nat) (s : State) : Host.Outcome State Fault Refusal :=
  run (fun s => if !linkRuns s link then s else
    let s := satInc (F.NRW_LINK_ERR_RESEND link) s
    let bad := ((linkOf s link).send.filter (fun c => c.bad && decide (rseq ≤ c.rseq))).flatMap (·.serves)
    let s := forEach bad.eraseDups (fun p s => nrwFence p 6 s) s
    nrwSend link (modLink link (fun l => { l with send := l.send.map (fun c => if rseq ≤ c.rseq then { c with sent := none } else c) }) s)) s

/-- NRW_HEARTBEAT_FRAME (R635): it names the highest RSEQ sent, from which a member that has had no frame yet counts. -/
def execNrwHeartbeatFrame (link rseq : Nat) (s : State) : Host.Outcome State Fault Refusal :=
  run (fun s => if linkRuns s link && nrwReplica s && !s.nrw.applySet then
      nrwTake (modNrw (fun x => { x with applySet := true, nextApply := rseq + 1, rseq := max x.rseq (rseq + 1) }) s)
    else s) s

/-- NRW_HEARTBEAT_SEND (R635). `replays`: the flits the link has replayed since the last one, which it counts (R632). -/
def execNrwHeartbeatSend (link replays : Nat) (s : State) : Host.Outcome State Fault Refusal :=
  run (fun s => let s := satAdd (F.NRW_LINK_ERR_CRC link) replays s; nrwFrame link 0x0A (ownPos s) ((s.nrw.rseq + 2 ^ 56 - 1) % 2 ^ 56) false none s) s

/-- NRW_HOLD_IN (R643). -/
def execNrwHoldIn (link : Nat) (low : Bool) (s : State) : Host.Outcome State Fault Refusal :=
  run (fun s => if !linkEnabled s link then s else
    let s := modLink link (fun l => { l with holdIn := low, holdSince := if low && !l.holdIn then s.tick.count else l.holdSince }) s
    if low then s else nrwSend link s) s

/-- NRW_HANDOFF_FRAME (R658): the primary gives up its role, or the new primary takes it. -/
def doHandoff (n rseq : Nat) (s : State) : State :=
  if !linkRuns s n then s else
  match s.nrw.handoff with
  | some (path, true) =>
    if nrwReplica s then promoteWrite path (modNrw (fun x => { x with rseq := rseq + 1 }) s) else s
  | some _ => s
  | none => if nrwPrimary s then handoffCheck (modNrw (fun x => { x with handoff := some (n, false) }) s) else s

/-- NRW_HANDOFF_FRAME (R658). -/
def execNrwHandoffFrame (link rseq : Nat) (s : State) : Host.Outcome State Fault Refusal := run (doHandoff link rseq) s

/-! ### Resync (R652, R654) -/

/-- Key index under which the device reads a host line for a frame: its region's. -/
def nrwKey (s : State) (line : Nat) : Nat :=
  match (cfgRegions s).find? (fun r => r.has line) with | some r => r.key | none => lineKeyOf s line

/-- Place a frame with a line's contents for a member, stamped with the next RSEQ (R652); none while the line has to be
waited for. -/
def placeFrame (p line : Nat) (s : State) : Option (State × Nat) :=
  let key := nrwKey s line
  (readNow line key 5 s).map (fun x =>
    let s := x.1
    let r := s.nrw.rseq
    let s := modNrw (fun y => { y with rseq := (r + 1) % 2 ^ 56 }) s
    let b := if x.2.1 = 0 ∧ x.2.2 = false then FrameBody.zero key line true else .write key line x.2.1 x.2.2 true
    (nrwQueue r b [p] s, r))

/-- NRW_FETCH_FRAME (R654). -/
def execNrwFetchFrame (link line : Nat) (s : State) : Host.Outcome State Fault Refusal :=
  run (fun s =>
    let p := facing s link
    if !linkRuns s link || (memOf s p).st ≠ 2 || !amSource s p || !slicesServe s || decide (lineEnd s ≤ line) then s
    else match placeFrame p line s with | some (t, _) => pump t | none => s) s

/-- The next set region of a member's bitmap from a region on. -/
def nextRegion (s : State) (m : NMem) (r : Nat) : Option Nat :=
  let l := (m.bits.getD []).filter (fun x => decide (r ≤ x) && !m.regionEnd.any (fun e => e.1 == x))
  let a := l.foldl (fun (b : Option Nat) x => match b with | some y => some (min x y) | none => some x) none
  let f := match m.full with | some n => if max n r < regionsAll s then some (max n r) else none | none => none
  match a, f with
  | some x, some y => some (min x y)
  | some x, none => some x
  | none, y => y

/-- The reach of a line is UNWRITTEN (R272). -/
def unwritten (s : State) (reach : Nat) : Bool :=
  (tfind s.mtl.map.reachMap reach).isNone &&
  !s.mtl.map.fine.any (fun e => e.2.any (fun x => reachOf (fineLine s e.1 x.tag) == reach))

/-- A line that the walk reads and the cache does not hold takes a sense of the resync class (R34, R221, R652). -/
def walkSense (line : Nat) (s : State) : State :=
  if (findWay s line).isSome || (findEb s line).isSome || (findCove s line).isSome then s else
  match mtlLookup s line with
  | .at_ n q i => if inWbuf s n q then s else bgSense (locPsa s (.at_ n q i)) 7 1 s
  | _ => s

/-- One step of the walk (R652): a BITMAP frame, then the lines of the set regions in ascending order, a RELEASE for an
UNWRITTEN reach. -/
def walkStep (p k line : Nat) (s : State) : State :=
  let m := memOf s p
  let put := fun (w : Option (Nat × Nat × Nat)) (s : State) => modNrw (fun x => { x with walk := w }) s
  if decide (512 ≤ (linkOf s (linkTo s p line)).send.length) then s
  else if k < 12288 then
    let set := fun (r : Nat) => (m.bits.getD []).contains r || (match m.full with | some n => decide (n ≤ r) | none => false)
    let bits : BitVec 512 := (List.range 512).foldl (fun (b : BitVec 512) i => if set (512 * k + i) then b ||| ((1 : BitVec 512) <<< i) else b) 0
    let r := s.nrw.rseq
    let s := modNrw (fun x => { x with rseq := (r + 1) % 2 ^ 56 }) s
    put (some (p, k + 1, 0)) (nrwQueue r (.bitmap (512 * k) bits) [p] s)
  else if k = 12288 then
    let region := if line % 16384 = 0 then nextRegion s m (line / 16384) else some (line / 16384)
    match region with
    | none => regionsAcked p (put (some (p, 12289, 0)) s)
    | some g =>
      let line := if line % 16384 = 0 then g * 16384 else line
      -- the region's bit stays set beside `full` until its frames are acknowledged
      let s := match m.full with
        | some n => if n ≤ g then modMem p (fun m => { m with full := some (g + 1), bits := m.bits.map (fun l => if l.contains g then l else l ++ [g]) }) s else s
        | none => s
      let ended := fun (last r : Nat) (s : State) =>
        let s := if last % 16384 = 16383 then modMem p (fun m => { m with regionEnd := tput g r m.regionEnd }) s else s
        put (some (p, 12288, last + 1)) s
      if line % 1024 = 0 && unwritten s (reachOf line) &&
          !(List.range 1024).any (fun i => (findWay s (line + i)).isSome || (findEb s (line + i)).isSome || inAmq s (line + i)) then
        let r := s.nrw.rseq
        let s := modNrw (fun x => { x with rseq := (r + 1) % 2 ^ 56 }) s
        ended (line + 1023) r (nrwQueue r (.release line) [p] s)
      else
        match placeFrame p line s with
        | none => s
        | some (t, r) => ended line r (if inAmq s line then t else walkSense line t)
  else s

/-- NRW_RESYNC_STEP (R652): within the resync share of the effective budget. -/
def execNrwResyncStep (s : State) : Host.Outcome State Fault Refusal :=
  run (fun s =>
    if !nrwOn s || s.nrw.group < 2 || inHalt s || inFlush s || effShare s 7 = 0 || !slicesServe s || !s.mtl.ready then s else
    match s.nrw.walk with
    | some (p, k, l) => if linkRuns s (linkTo s p l) then pump (walkStep p k l s) else s
    | none =>
      match (peers s).find? (fun p => (memOf s p).st == 2 && amSource s p) with
      | some p => if linkRuns s (linkTo s p 0) then pump (walkStep p 0 0 s) else s
      | none => s) s

/-! ### Commands (R656 to R659) -/

/-- NRW_GROUP_SET's answer. -/
def groupOut (s : State) : List Byte :=
  le 4 s.nrw.grp.ginc ++ le 1 (if s.nrw.grp.isPrimary then 1 else 0) ++ le 1 s.nrw.group ++ zeros 2

/-- The checks of R656. -/
def groupCheck (s : State) (d : List Byte) : Nat :=
  let act := byteAt d 0
  let ser := (List.range 3).map (fun i => at' d (8 + 8 * i) 8)
  let twin := (lat 0 ser 0 ≠ 0 ∧ (lat 0 ser 0 = lat 0 ser 1 ∨ lat 0 ser 0 = lat 0 ser 2)) ∨ (lat 0 ser 1 ≠ 0 ∧ lat 0 ser 1 = lat 0 ser 2)
  let force := byteAt d 1 % 2 = 1
  if 2 < act ∨ 4 ≤ byteAt d 1 ∨ !zeroAt d 2 2 ∨ (force ∧ act ≠ 1) ∨ twin then rcInvalid
  else if !nrwOn s || (match cfgNrw s with | some c => c.linkEn == 0 | none => true) then rcUnsupported
  else if inHalt s || lifecycle s = 3 then rcRefused
  else if s.nrw.group < 2 ∨ (act = 1 ∧ (s.nrw.grp.isPrimary ∨ (s.nrw.stale ∧ !(force ∧ s.nrw.diverged)))) then rcConflict
  else if at' d 4 4 ≠ s.nrw.grp.ginc then rcStale
  else if s.nrw.handoff.isSome || s.mgmt.inflight.any (fun e => e.op == 0xC060) then rcBusy
  else rcSuccess

/-- NRW_GROUP_SET's effect; the commit point is the Gauge write (R656). -/
def doGroupSet (path : Nat) (d : List Byte) (s : State) : State :=
  let code := groupCheck s d
  let act := byteAt d 0
  let g := s.nrw.grp
  if code ≠ rcSuccess then answer path 0xC060 code [] s
  else
    let s := startCmd path 0xC060 true s
    if act = 0 then
      gPut (G.param 12) (.group { g with serials := (List.range 3).map (fun i => at' d (8 + 8 * i) 8) }) false (some path) (.group path 0) s
    else if act = 2 then
      gPut (G.param 12) (.group { g with solo := (byteAt d 1).testBit 1 }) false (some path) (.group path 2) s
    else if (memOf s g.primary).st = 1 ∧ !s.nrw.stale then
      let s := modNrw (fun x => { x with handoff := some (path, true) }) s
      nrwFrame (linkTo s g.primary 0) 0x0E (ownPos s) s.nrw.persisted false none s
    else promoteWrite path s

/-- The group record has become durable, or its block is worn (R529, R656). -/
def groupDone (path act : Nat) (ok : Bool) (s : State) : State :=
  let old := s.nrw.grp
  if !ok then endCmd path 0xC060 rcWorn [] (modNrw (fun x => { x with handoff := none }) s) else
  let g := gGroup s
  if act = 1 then
    let kind := if s.nrw.handoff.isSome then 1 else if s.nrw.stale && s.nrw.diverged then 2 else 0
    let s := modNrw (fun x => { x with grp := g, handoff := none, stale := false, diverged := false, recvBits := [], fetches := [] }) s
    let s := sed 0x0F30 sNOTICE 15 old.primary g.ginc kind s |> sed 0x0F32 sNOTICE 15 1 g.ginc 0
    let s := groupEval s
    pump (nrwStatusAll (endCmd path 0xC060 rcSuccess (groupOut s) s))
  else
    let s := modNrw (fun x => { x with grp := { g with ginc := old.ginc } }) s
    let s := sed 0x0F32 sNOTICE 15 act g.ginc 0 s
    -- SERIALS ends every session, and each is set up again under R633
    let s := if act = 0 then forEach [0, 1] (fun n s => if (linkOf s n).st = 3 then modLink n (fun l => { l with st := 2 }) s else s) s else s
    let s := groupEval s
    endCmd path 0xC060 rcSuccess (groupOut s) s

/-- The input with the row's ACTION; the SOLO row also carries the ACTION values above 2. -/
def withAction (act : Nat) (d : List Byte) : List Byte :=
  if act = 2 ∧ 2 < byteAt d 0 then d else BitVec.ofNat 8 act :: d.drop 1

def execNrwGroupSetSerials (path : Nat) (input : List Byte) (s : State) : Host.Outcome State Fault Refusal :=
  run (cmd path 0xC060 input (input.length == 32) (doGroupSet path (withAction 0 input))) s

def execNrwGroupSetPromote (path : Nat) (input : List Byte) (s : State) : Host.Outcome State Fault Refusal :=
  run (cmd path 0xC060 input (input.length == 32) (doGroupSet path (withAction 1 input))) s

def execNrwGroupSetSolo (path : Nat) (input : List Byte) (s : State) : Host.Outcome State Fault Refusal :=
  run (cmd path 0xC060 input (input.length == 32) (doGroupSet path (withAction 2 input))) s

/-- NRW_RESYNC's effect (R659); the estimate has no formula in the spec and is a free value. -/
def doNrwResync (path : Nat) (d : List Byte) (s : State) : State :=
  let p := byteAt d 0
  let act := byteAt d 1
  let out := fun (s : State) =>
    let m := memOf s p
    let (t, s) := draw 32 s
    answer path 0xC061 rcSuccess (le 1 m.st ++ zeros 3 ++ le 4 (regionsSet s m) ++ le 4 t.toNat) s
  if 1 < act ∨ !zeroAt d 2 2 then answer path 0xC061 rcInvalid [] s
  else if !nrwOn s then answer path 0xC061 rcUnsupported [] s
  else if !(peers s).contains p then answer path 0xC061 rcInvalid [] s
  else if act = 0 then out s
  else if !amSource s p || s.nrw.group < 2 || !((memOf s p).st == 1 || (memOf s p).st == 2) then answer path 0xC061 rcConflict [] s
  else out (groupEval (resyncStart p true s))

/-- The input with the row's ACTION; the FULL row also carries the ACTION values above 1. -/
def withAction2 (act : Nat) (d : List Byte) : List Byte :=
  if act = 1 ∧ 1 < byteAt d 1 then d else d.take 1 ++ [BitVec.ofNat 8 act] ++ d.drop 2

def execNrwResyncStatus (path : Nat) (input : List Byte) (s : State) : Host.Outcome State Fault Refusal :=
  run (cmd path 0xC061 input (input.length == 4) (doNrwResync path (withAction2 0 input))) s

def execNrwResyncFull (path : Nat) (input : List Byte) (s : State) : Host.Outcome State Fault Refusal :=
  run (cmd path 0xC061 input (input.length == 4) (doNrwResync path (withAction2 1 input))) s

/-! ### Start, power and flush (R591, R660 to R662) -/

/-- Narrows at start-up (R630, R645, R651): the record from Gauge, no bitmap, the group in CONFIG. -/
def nrwStart (image : List Byte) (s : State) : State :=
  let on := nrwOn s && (match cfgNrw s with | some c => c.linkEn != 0 | none => false)
  let s := modNrw (fun _ => { Narrows.init with
    grp := gGroup s, group := if on then 1 else 0, digest := if on then regionDigest image else [] }) s
  match if on then nrwConfigBad s else none with
  | some r => sed 0x0F02 sERROR 15 r (ownPos s) 0 s
  | none => s

/-- LEAVE goes out on every enabled link, once (R660). -/
def nrwLeave (s : State) : State :=
  if s.nrw.leaving then s
  else forEach [0, 1] (fun n s => nrwFrame n 0x0D (ownPos s) 0 false none s) (modNrw (fun x => { x with leaving := true }) s)

/-- Frames of the send lists are not acknowledged yet. -/
def nrwUnacked (s : State) : Bool := [0, 1].any (fun n => !(linkOf s n).send.isEmpty)

/-- Narrows must stay in service (R660): the source of a running resync, or frames not acknowledged within 10 ms of the tick
at which it was asked. -/
def nrwMustStay (asked : Nat) (s : State) : Bool :=
  (peers s).any (fun p => (memOf s p).st == 2 && amSource s p) || (nrwUnacked s && decide (asked + 2500 ≤ s.tick.count))

/-- Links at rest: sessions end, frames are no longer sent. -/
def nrwRest (s : State) : State :=
  modNrw (fun x => { x with leaving := false, links := x.links.map (fun e => (e.1, { e.2 with st := 0, holdIn := false })) }) s

/-- Narrows stops at the end of a flush's first tick (R661): regions with unacknowledged frames keep their bits for the
resync that follows a ride-through (log entry 77). -/
def nrwFlushStop (s : State) : State :=
  if s.nrw.group < 2 then nrwRest s else
  let s := forEach (peers s) (fun p s =>
    let m := memOf s p
    if m.st = 1 ∨ m.st = 2 then
      let regions := [0, 1].flatMap (fun n => ((linkOf s n).send.filter (fun c => c.serves.contains p)).map (fun c => c.body.line / 16384))
      modMem p (fun m => { m with st := 3, seen := false, bits := some ((m.bits.getD []) ++ regions).eraseDups }) s
    else s) s
  let s := forEach (peers s) (fun p s => unwait p rseqTop (freeCells p rseqTop s)) s
  nrwRest s

/-- SYNCED 1 in flush step 3 (R662): every member was IN_SYNC with nothing unacknowledged, and non-priority writes are
granted. -/
def nrwFlushSync (clean : Bool) (s : State) : State :=
  if nrwOn s && 2 ≤ s.nrw.group && clean && gGrant s false = none then putGroup { s.nrw.grp with synced := true } s else s

end Sys2Proof.Machine
end

