-- ==== Sys2Proof/Machine/Observe.lean ====
section
/-! DEFINITION. Observation (R666 to R688): the programmable counters and the epoch latch, the Plumb sampler's end and
control, the Sounding port, and the effective level at a tick boundary. -/

namespace Sys2Proof.Machine

def modObs (f : Obs → Obs) (s : State) : State := { s with obs := f s.obs }

/-- The OBS block answers: unit 15 is on and PD_CORE is ON (R667, R672). -/
def obsThere (s : State) : Bool := unitOn s 15 && coreOn s

/-! ### Counters -/

/-- The bank of a path (R668): a head's own, the Tuten port's for the management side. -/
def pcKey (path j : Nat) : Nat := pathCode path * 8 + j

/-- A write of OBS_PCj_CFG: the count and flag clear, the new event counts from now on, and the epoch in progress is
PARTIAL (R671). -/
def doPcCfg (path j : Nat) (v : BitVec 32) (s : State) : State :=
  if !obsThere s || decide (8 ≤ j) then s else
  modObs (fun o => { o with pc := tmod Counter.init (pcKey path j) (fun c =>
    { c with ev := v.toNat % 256, qual := v.toNat / 256 % 256, n := 0, ov := false, part := true }) o.pc }) s

/-- OBS_PC_CFG_WRITE (R671). -/
def execObsPcCfgWrite (path j : Nat) (v : BitVec 32) (s : State) : Host.Outcome State Fault Refusal := run (doPcCfg path j v) s

/-- A counter at the epoch latch (R670). -/
def Counter.latch (c : Counter) : Counter :=
  { c with sh := c.n, sov := c.ov, spart := c.part, n := 0, ov := false, part := false }

/-- The epoch latch at step 5 of tick 0 (R670): skipped while PD_CORE is not ON; the first latch after covers every epoch
since the last. -/
def epochLatch (s : State) : State :=
  if !coreOn s then modObs (fun o => { o with missed := o.missed + 1 }) s
  else if !unitOn s 15 then s
  else
    let span := s.obs.missed + 1
    let s := modObs (fun o => { o with
      pc := o.pc.map (fun e => (e.1, e.2.latch)), fixed := o.fixed.map (fun e => (e.1, e.2.latch))
      epoch := epoch s, span := min span 255, missed := 0 }) s
    if 1 < span then sed 0x1020 sDEBUG 15 span (epoch s % 2 ^ 32) 0 s else s

/-! ### Plumb -/

/-- A sample's 32 bytes (R677). -/
def Sample.bytes (x : Sample) : List Byte :=
  let flags := x.head + 4 * x.kind + (if x.poison then 16 else 0) + (if x.ide then 32 else 0) + (if x.sync then 64 else 0) +
    (if x.level = 1 then 128 else 0)
  let media := if (5 ≤ x.path ∧ x.path ≤ 8) ∨ x.path = 12 then x.media else 0
  le 2 x.seq ++ le 1 flags ++ le 1 x.path ++ le 2 x.key ++ le 6 x.line ++ le 6 (x.hpa % 2 ^ 46) ++
    le 4 (min x.latency (2 ^ 32 - 1)) ++ le 4 x.tick ++ le 2 x.cycle ++ le 2 media ++ le 2 x.occ

/-- Word n of the oldest sample; an empty ring reads zero (R679). -/
def plumbWord (s : State) (n : Nat) : BitVec 32 :=
  match s.obs.ring with
  | [] => 0
  | x :: _ => BitVec.ofNat 32 (at' x.bytes (4 * n) 4)

/-- A path is the one that OBS_PLUMB_CTL.OWNER names (R679). -/
def plumbOwner (s : State) (path : Nat) : Bool := pathCode path == fld s F.OBS_PLUMB_CTL_OWNER

/-- A selected request's first response flit, or its completion flit, ends the sample: it is kept when its latency is at
least MIN_LAT (R676). -/
def doPlumbSample (h tag latency : Nat) (s : State) : State :=
  let p : Sample → Bool := fun x => x.head == h && x.seq == tag && x.ended
  match s.obs.flying.find? p with
  | none => s
  | some x =>
    let s := modObs (fun o => { o with flying := ldel p o.flying }) s
    if latency < fld s F.OBS_PLUMB_LAT_MIN_LAT then s else plumbKeep { x with latency := latency } s

/-- PLUMB_SAMPLE (R676 to R679). -/
def execPlumbSample (h tag latency : Nat) (s : State) : Host.Outcome State Fault Refusal := run (doPlumbSample h tag latency) s

/-- The oldest sample leaves the ring (R679). -/
def plumbDrop (s : State) : State :=
  modObs (fun o => { o with ring := o.ring.drop 1, fullSaid := o.fullSaid && decide (1 < o.ring.length) }) s

/-- A read of OBS_PLUMB_DATA7: the owner's removes the oldest sample, any other path's reads zero and removes nothing
(R679). -/
def doPlumbPop (path : Nat) (s : State) : State :=
  let a := Reg.OBS_PLUMB_DATA 7
  if !obsThere s || !plumbOn s || !plumbOwner s path then emit (.value path a 0) s
  else plumbDrop (emit (.value path a (plumbWord s 7)) s)

/-- PLUMB_DATA_POP (R679). -/
def execPlumbDataPop (path : Nat) (s : State) : Host.Outcome State Fault Refusal := run (doPlumbPop path) s

/-- Plumb stops (R680): cause 0 EN cleared, 1 level, 2 power state, 3 flush. Samples in flight are kept only when EN was
cleared. -/
def plumbStop (cause : Nat) (s : State) : State :=
  if !s.obs.active then s else
  let s := modObs (fun o => { o with active := false, flying := if cause = 0 then o.flying else [] }) s
  sed 0x1001 sINFO 15 cause s.obs.kept (fld s F.OBS_PLUMB_STAT_LOST) s

/-- The port stops (R686), with the causes of R688; it drives its pins low. -/
def sndStop (cause : Nat) (s : State) : State :=
  if !s.obs.sndActive then s else
  let s := modObs (fun o => { o with sndActive := false }) s
  sed 0x1011 sINFO 15 cause (s.obs.framesSent % 2 ^ 32) (fld s F.OBS_SND_STAT_DROPPED) s

/-- The reason of a stop holds (R680): EN is 0, the level is SUMMARY or NONE, an entry or a low state, or a flush. -/
def plumbStopDue (s : State) (cause : Nat) : Bool :=
  if cause = 0 then !bit s F.OBS_PLUMB_CTL_EN
  else if cause = 1 then decide (2 ≤ obsLevel s)
  else if cause = 2 then s.pwr.entry.isSome || decide (2 ≤ s.pwr.st)
  else inFlush s

/-- PLUMB_STOP (R680). -/
def execPlumbStop (cause : Nat) (s : State) : Host.Outcome State Fault Refusal :=
  run (fun s => when (plumbStopDue s cause) (plumbStop cause) s) s

/-- The value that a control register reads: the one written last, though it takes effect at the next boundary. -/
def ctlRead (s : State) (a : Nat) : BitVec 32 :=
  match s.obs.pendingCtl.reverse.find? (fun e => e.1 == a) with
  | some e => e.2
  | none => s.reg a

/-- A write of a Plumb or Sounding control register (R675, R680, R683, R687): a management path's alone; a value out of
range is ignored; clearing EN stops at once, everything of Plumb's but MIN_LAT waits for the next boundary. -/
def doPlumbCtl (path a : Nat) (v : BitVec 32) (s : State) : State :=
  if !isMgmt path || !obsThere s then s
  else if a = Reg.OBS_PLUMB_CTL then
    let old := ctlRead s a
    if !plumbOn s then s else
    let w := if 20 < F.OBS_PLUMB_CTL_RATE.get v ∨ 4 < F.OBS_PLUMB_CTL_OWNER.get v then old else v &&& 0x1F71
    if w = old then s else
    let s := modObs (fun o => { o with pendingCtl := o.pendingCtl ++ [(a, w)] }) s
    if F.OBS_PLUMB_CTL_EN.get w = 0 then plumbStop 0 (setF F.OBS_PLUMB_CTL_EN 0 s) else s
  else if a = Reg.OBS_PLUMB_FILT then
    if !plumbOn s then s else modObs (fun o => { o with pendingCtl := o.pendingCtl ++ [(a, v &&& 0x0FFF017F)] }) s
  else if a = Reg.OBS_PLUMB_LAT then
    if !plumbOn s then s else s.putReg a (v &&& 0xFFFFFF)
  else if a = Reg.OBS_SND_CTL then
    if !soundingOn s then s else
    let s := s.putReg a ((v &&& 0x103FF) ||| 3)
    if bit s F.OBS_SND_CTL_EN then s else sndStop 0 s
  else if a = Reg.OBS_SND_FILT then
    if !soundingOn s || decide (20 < F.OBS_SND_FILT_RATE.get v) then s else s.putReg a (v &&& 0x1F7F)
  else if a = Reg.OBS_SND_LAT then
    if !soundingOn s then s else s.putReg a (v &&& 0xFFFFFF)
  else s

/-- OBS_PLUMB_CTL_WRITE (R675, R683, R687). -/
def execObsPlumbCtlWrite (path a : Nat) (v : BitVec 32) (s : State) : Host.Outcome State Fault Refusal := run (doPlumbCtl path a v) s

/-- Plumb at a boundary (R675, R680): what was written takes effect, an OWNER change empties the ring, and Plumb starts
when EN is 1 and the level and the states permit it. -/
def plumbBoundary (s : State) : State :=
  let owner := fld s F.OBS_PLUMB_CTL_OWNER
  let s := s.obs.pendingCtl.foldl (fun s e => s.putReg e.1 e.2) s
  let s := modObs (fun o => { o with pendingCtl := [] }) s
  let s := if fld s F.OBS_PLUMB_CTL_OWNER ≠ owner then modObs (fun o => { o with ring := [], fullSaid := false }) s else s
  if !s.obs.active && plumbOn s && coreOn s && bit s F.OBS_PLUMB_CTL_EN && decide (obsLevel s ≤ 1) && !inFlush s && s.pwr.entry.isNone then
    let s := modObs (fun o => { o with active := true, kept := 0 }) s
    sed 0x1000 sINFO 15 (fld s F.OBS_PLUMB_CTL_OWNER) (fld s F.OBS_PLUMB_CTL_RATE) (obsLevel s) (plumbReload s)
  else s

/-! ### Sounding -/

/-- A frame's 24 bytes (R682). -/
def frameBytes (kind unit cycle tick : Nat) (payload : List Byte) (dropped seq : Nat) : List Byte :=
  let b := le 1 kind ++ le 1 unit ++ le 2 (cycle + tick % 8 * 8192) ++ sub payload 0 16 ++ le 2 dropped ++ le 1 seq
  b ++ [crc8 b]

/-- Send a frame: the drops of its kind are told, and the sequence advances. -/
def sndSend (f : SndFrame) (s : State) : State :=
  let b := frameBytes f.kind f.unit f.cycle f.tick f.payload (tget 0 s.obs.sndDrops f.kind) s.obs.sndSeq
  emit (.sounding b) (modObs (fun o => { o with
    sndDrops := tdel f.kind o.sndDrops, sndSeq := (o.sndSeq + 1) % 256, framesSent := o.framesSent + 1 }) s)

/-- Frame a comes before frame b: the older event, ties to the lower kind (R685). -/
def frameBefore (a b : SndFrame) : Bool :=
  decide (a.tick * 8192 + a.cycle < b.tick * 8192 + b.cycle) ||
  (a.tick * 8192 + a.cycle == b.tick * 8192 + b.cycle && decide (a.kind < b.kind))

/-- The oldest waiting frame: the first of each FIFO stands for its kind. -/
def oldestFrame (s : State) : Option SndFrame :=
  s.obs.fifos.foldl (fun m e =>
    match m, e.2 with
    | none, x :: _ => some x
    | some y, x :: _ => if frameBefore x y then some x else some y
    | m, [] => m) none

/-- Take the frame that a slot carries; frames 7 or more ticks old are discarded and counted (R685). -/
def nextFrame (fuel : Nat) (s : State) : State × Option SndFrame :=
  match fuel with
  | 0 => (s, none)
  | n + 1 =>
    match oldestFrame s with
    | none => (s, none)
    | some f =>
      let s := modObs (fun o => { o with fifos := tmod [] f.kind (fun l => l.drop 1) o.fifos }) s
      if f.tick + 7 ≤ s.tick.count then
        nextFrame n (modObs (fun o => { o with epochStale := o.epochStale + 1 }) (satInc F.OBS_SND_STAT_STALE s))
      else (s, some f)

/-- A 24-byte slot of the port (R681): the TICK frame in slot 0, then the oldest waiting frame or an IDLE frame. -/
def doFrameSlot (s : State) : State :=
  if !s.obs.sndActive || decide (125 ≤ s.obs.slot) then s else
  let slot := s.obs.slot
  let s := modObs (fun o => { o with slot := o.slot + 1 }) s
  if slot = 0 then
    sndSend ⟨1, 16, 0, s.tick.count, le 8 s.tick.count ++ le 6 s.tick.cal ++ le 1 (obsLevel s) ++ le 1 (devid s % 256), obsLevel s⟩ s
  else
    match nextFrame ((s.obs.fifos.map (fun e => e.2.length)).foldl (· + ·) 0 + 1) s with
    | (s, some f) => sndSend f s
    | (s, none) => emit (.sounding (zeros 24)) s

/-- SOUNDING_FRAME_SLOT (R681, R682, R685). -/
def execSoundingFrameSlot (s : State) : Host.Outcome State Fault Refusal := run doFrameSlot s

/-- A write of OBS_SND_MARK from any path produces a MARK frame (R683, R686). -/
def doSndMark (path : Nat) (v : BitVec 32) (s : State) : State :=
  if !obsThere s || !soundingOn s then s else sndPush 9 15 (le 1 (pathCode path) ++ le 4 v.toNat ++ zeros 11) s

/-- OBS_SND_MARK_WRITE (R686). -/
def execObsSndMarkWrite (path : Nat) (v : BitVec 32) (s : State) : Host.Outcome State Fault Refusal := run (doSndMark path v) s

/-- QUEUE frames of a tick, one for each enabled head (R683). -/
def queueFrames (s : State) : State :=
  forEach (headsOn s) (fun h s =>
    let qs := [iqReq h, iqRwd h, eqNdr h, eqDrs h].map (queueOf s)
    let occ := (qs.map (fun q => le 2 q.occ)).flatten
    let states := (qs.zipIdx).foldl (fun a e => a + (if e.1.paced then 2 ^ e.2 else 0)) 0
    sndPush 7 0 (le 1 h ++ occ ++ le 2 ((qs.map (·.withheld)).foldl (· + ·) 0) ++ le 1 states ++ zeros 4) s) s

/-- The port at a boundary (R681, R686): its slots begin anew, and it starts when EN is 1 and the level and the domain
permit it. -/
def sndBoundary (s : State) : State :=
  let s := modObs (fun o => { o with slot := 0 }) s
  let s := if !s.obs.sndActive && soundingOn s && coreOn s && bit s F.OBS_SND_CTL_EN && decide (obsLevel s ≤ 1) && s.pwr.entry.isNone then
      let s := modObs (fun o => { o with sndActive := true, framesSent := 0 }) s
      sed 0x1010 sINFO 15 (fld s F.OBS_SND_CTL_KINDS ||| 3) (obsLevel s) 0 s
    else s
  queueFrames s

/-- The end of an epoch: OBS_SND_DROP tells the epoch's first drop, drops and stale frames (R685). -/
def sndEpoch (s : State) : State :=
  let s := if 0 < s.obs.epochDrops + s.obs.epochStale then
      sed 0x1012 sNOTICE 15 (s.obs.epochDrop.getD 0) s.obs.epochDrops s.obs.epochStale s
    else s
  modObs (fun o => { o with epochDrop := none, epochDrops := 0, epochStale := 0 }) s

/-! ### The effective level (R468 to R471) -/

/-- The matrix of R469: the level without a token and the highest level with one. -/
def obsMatrix (lc pw : Nat) : Nat × Nat :=
  if pw = 2 then (2, 2) else if 3 ≤ pw then (3, 3)
  else if lc = 0 ∨ lc = 3 then (0, 0) else if lc = 1 then (1, 0) else (2, 0)

/-- The level without a token, p0 (R470). -/
def levelNoToken (s : State) : Nat :=
  let l := (obsMatrix (lifecycle s) s.pwr.st).1
  if cfgTokenReq s then max l 2 else l

/-- The effective level (R470). -/
def levelNow (s : State) : Nat :=
  let p0 := levelNoToken s
  let p := match s.mgmt.token with | some t => min p0 (max (obsMatrix (lifecycle s) s.pwr.st).2 t.level) | none => p0
  max p (cfgLevelMax s)

/-- What the level was computed from. -/
def levelInputs (s : State) : List Nat :=
  [lifecycle s, s.pwr.st, cfgLevelMax s, if cfgTokenReq s then 1 else 0, if s.mgmt.token.isSome then 1 else 0]

/-- The cause that OBS_LEVEL gives: 0 token, 1 expiry, 2 power, 3 lifecycle, 4 image. -/
def levelCause (old new : List Nat) : Nat :=
  if lat 0 old 0 ≠ lat 0 new 0 then 3
  else if lat 0 old 1 ≠ lat 0 new 1 then 2
  else if lat 0 old 2 ≠ lat 0 new 2 ∨ lat 0 old 3 ≠ lat 0 new 3 then 4
  else if lat 0 new 4 = 0 ∧ lat 0 old 4 = 1 then 1 else 0

/-- A boundary sets the level; a fall discards what was captured above it and not yet read or sent (R471, R678). -/
def levelBoundary (s : State) : State :=
  let old := obsLevel s
  let new := levelNow s
  let cause := levelCause s.obs.inputs (levelInputs s)
  let s := modObs (fun o => { o with inputs := levelInputs s }) s
  if new = old then s else
  let s := setF F.MGMT_OBS_EFFECTIVE new s |> sed 0x0930 sINFO 9 old new cause
  if new < old then s else
  let stop := if cause = 2 then 2 else 1
  let s := modObs (fun o => { o with
    fullSaid := o.fullSaid && o.ring.any (fun x => decide (new ≤ x.level))
    ring := o.ring.filter (fun x => decide (new ≤ x.level)), flying := o.flying.filter (fun x => decide (new ≤ x.level))
    fifos := o.fifos.map (fun e => (e.1, e.2.filter (fun x => decide (new ≤ x.level)))) }) s
  if 2 ≤ new then sndStop stop (plumbStop stop s) else s

end Sys2Proof.Machine
end

