-- ==== Sys2Proof/Machine/Conts.lean ====
section
/-! DEFINITION. The end of a Gauge write (R524): what follows its durability for each requester, and the next write. -/

namespace Sys2Proof.Machine

/-- What follows a Gauge request that has ended: `ok` false after a WORN failure (R530). -/
def contRun (k : Cont) (ok : Bool) (s : State) : State :=
  match k with
  | .none => s
  | .reply path op code body => endCmd path op (if ok then code else rcWorn) body s
  | .ndx step =>
    if ok then ndxCont step s else ndxWorn s
  | .advance step => advanceStep step ok s
  | .fwArm path mode => if ok then fwArmed path mode s else endCmd path 0xC012 rcWorn [] s
  | .fwConfirm => if ok then fwConfirmed s else s
  | .fwFloor path old new => if ok then fwFloorDone path old new s else endCmd path 0xC013 rcWorn [] s
  | .nonce v => nonceDone v ok s
  | .key path op step => if ok then keyStep path op step s else keyFail path op rcWorn s
  | .dieInc c d => modDie (c * 8 + d) (fun x => { x with incWait := !ok }) s
  | .shore path => if ok then shoreBegin path s else endCmd path 0xC022 rcWorn [] (tgtFree path s)
  | .quarantine => s
  | .zpend _ => s
  | .group path act => groupDone path act ok s
  | .treeRoot => { s with icu := { s.icu with rootOpen := !(gTreeRoot s).clean } }
  | .mapRoot gen => if ok then mapRootDone gen s else { s with mtl := { s.mtl with ckptRun := none } }
  | .keyRoot => keyRootDone s
  | .token path =>
    if ok then tokenDone path s else endCmd path 0xC051 rcWorn [] { s with mgmt := { s.mgmt with tokenNew := none } }
  | .param path n _ => paramDone path n ok s
  | .flush _ => s

/-- A block write ends: the request goes on or ends, and the next one starts (R524). -/
def gDone (torn : Bool) (s : State) : State :=
  let (s, k) := gWriteEnd torn s
  let s := match k with | some (c, ok) => contRun c ok s | none => s
  gStart { s with gauge := gAdmit s.gauge }

/-- GAUGE_WRITE_DONE (R517 to R533). -/
def execGaugeWriteDone (torn : Bool) (s : State) : Host.Outcome State Fault Refusal :=
  run (fun s => if s.gauge.cur.isSome then gDone torn s else s) s

/-- Run the Gauge queue until it is empty or held. -/
def gRun (fuel : Nat) (s : State) : State :=
  match fuel with
  | 0 => s
  | n + 1 =>
    let s := gStart s
    if s.gauge.cur.isSome then gRun n (gDone false s) else s

/-- Writes that the queue may still need: each request several block writes. -/
def gFuel (s : State) : Nat := 16 * (s.gauge.prioQ.length + s.gauge.normQ.length + s.gauge.waiting.length) + 32

end Sys2Proof.Machine
end

