-- ==== Sys2Proof/Machine/Drain.lean ====
section
/-! DEFINITION. Making every dirty structure durable (R206, R261, R313, R338), as a power-fail flush and an entry to SLEEP
or DEEP do: the cache through the ICU and the translation layer, the tree, the journal, and the programs. -/

namespace Sys2Proof.Machine

/-! ### Programs and erases -/

/-- Run a program of a die to its end: the operation in progress is put aside. -/
def progNow (k : Nat) (p : Prog) (s : State) : State :=
  let keep := (dieOf s k).op
  let s := doProgramDone (k / 8) (k % 8) 0 (modDie k (fun d => { d with op := some (.prog p 0) }) s)
  modDie k (fun d => { d with op := keep }) s

/-- A die's operation in progress or suspended: a program is completed; an erase is completed, or goes back to its queue
when erases are not resumed (R261). -/
def endOps (erases : Bool) (k : Nat) (s : State) : State :=
  let d := dieOf s k
  let one := fun (o : Option DieOp) (s : State) => match o with
    | some (.prog p _) => progNow k p s
    | some (.erase n pl b _) =>
      if erases then
        let keep := (dieOf s k).op
        let s := doEraseDone (k / 8) (k % 8) true true (modDie k (fun d => { d with op := some (.erase n pl b 0) }) s)
        modDie k (fun d => { d with op := keep }) s
      else modDie k (fun d => { d with eraseq := (n, pl, b) :: d.eraseq }) s
    | _ => s
  let s := modDie k (fun d => { d with op := none, susp := none }) s
  one d.susp (one d.op s)

/-- A die may program: it is online and its stack's window is open (R260). -/
def dieMay (s : State) (k : Nat) : Bool := chanOn s (k / 8) && dieOnline s k && !windowHeld s (k / 8)

/-- Complete every program that waits in a die's queue. -/
def progQueue (k : Nat) (s : State) : State :=
  if !dieMay s k then s else
  forEach (dieOf s k).progq (fun p s => progNow k p (modDie k (fun d => { d with progq := d.progq.drop 1 }) s)) s

/-- Every die's operation and programs. -/
def progAll (s : State) : State :=
  forEach (s.media.dies.map (·.1)) (fun k s => progQueue k (if dieMay s k then endOps false k s else s)) s

/-- Every erase that waits, for an entry to SLEEP or DEEP (R563 order 10). -/
def eraseAllDies (s : State) : State :=
  forEach (s.media.dies.map (·.1)) (fun k s =>
    if !dieMay s k then s else
    forEach (dieOf s k).eraseq (fun e s =>
      doEraseDone (k / 8) (k % 8) true true (modDie k (fun d => { d with
        eraseq := d.eraseq.drop 1, op := some (.erase e.1 e.2.1 e.2.2 0) }) s)) (endOps true k s)) s

/-! ### The cache and what lies behind it -/

/-- Fills that pending merge buffers and waiting operations need (R206 step 1). -/
def fillsNow (s : State) : State :=
  forEach (s.fills.map (·.1)) (fun line s =>
    let s := match tfind s.fills line with
      | some f => if f.ready.isNone then openFill line 0 0 s else s
      | none => s
    fillReturn line s) s

/-- Re-MAC what the leaves hold back whose major counter must advance (R344, R345). -/
def remacNow (s : State) : State :=
  let wait := ((s.slices.flatMap (fun e => e.2.eb)).filter (fun e => !e.passed && majorWaits s e.line)).map (fun e => e.line / 64)
  forEach wait.eraseDups (fun leaf s =>
    forEach ((List.range 64).map (fun o => leaf * 64 + o)) (fun l s => if resealSet s l then doRemac l s else s) s) s

/-- Seal every write-back that may be issued; the first waits for TREE_ROOT CLEAN 0 (R337). -/
def sealsNow (s : State) : State :=
  forEach (List.range ((s.slices.map (fun e => e.2.eb.length)).foldl (· + ·) 0 + 1)) (fun _ s =>
    let s := doSeal 0 s
    if s.icu.rootOpen then s else gRun (gFuel s) s) s

/-- Place what is sealed, and release the eviction-buffer entries. -/
def placeNow (s : State) : State :=
  let s := forEach s.mtl.sealedQ (fun x s => placeTry x s) s
  forEach (s.slices.flatMap (fun e => e.2.eb.map (fun b => (e.1, b.line)))) (fun p s => doEbDone p.1 p.2 s) s

/-- Copy dirty lines to the free eviction-buffer entries of every slice (R206 step 3). -/
def cleanNow (s : State) : State :=
  forEach s.ways (fun e s =>
    match tfind s.ways e.1 with
    | some w =>
      let line := lineOfWay e.1 w
      if w.st == .dirty && !inAmq s line && decide ((sliceOf s (e.1 / 65536)).eb.length < 16) then
        (writeBack e.1 true s).1
      else s
    | none => s) s

/-- One pass over the data path. -/
def drainPass (s : State) : State :=
  let s := forEach (s.slices.map (·.1)) (fun n s => retryWays n s) (fillsNow s)
  progAll (placeNow (sealsNow (remacNow (cleanNow s))))

/-- A Sediment flush (R542): its lines enter the slices as full-line writes of internal lines. -/
def sedFlush (s : State) : State := internalServe (sedRingOut s)

/-- The flush of a power fail (R546): no line waits outside its slice. -/
def sedFlushNow (s : State) : State :=
  let s := sedRingOut s
  forEach s.mtl.internalQ (fun line s => internalPut line (when (amqFull s line) drainPass s))
    { s with mtl := { s.mtl with internalQ := [] } }

/-- No line is DIRTY and no buffer of the cache holds anything (R563 order 7). -/
def cacheClean (s : State) : Bool :=
  s.ways.all (fun e => e.2.st != .dirty) && s.slices.all (fun e => e.2.amq.isEmpty && e.2.merge.isEmpty && e.2.eb.isEmpty) &&
  s.fills.isEmpty

/-- Passes over the data path until it is clean. -/
def drainData (fuel : Nat) (s : State) : State :=
  match fuel with
  | 0 => s
  | n + 1 => if cacheClean s && s.mtl.sealedQ.isEmpty then s else drainData n (drainPass s)

/-- Passes that the cache's contents may need. -/
def drainFuel (s : State) : Nat := s.ways.length + (s.slices.map (fun e => e.2.amq.length + e.2.eb.length)).foldl (· + ·) 0 + 128

/-- Every dirty node level by level, then every dirty group (R338, R341). -/
def drainTree (s : State) : State :=
  let s := forEach (List.range 9) (fun _ s => nodeWritebacks s) s
  forEach s.icu.dirtyGroups (fun g s => groupWrite g (progAll s)) s

/-- Deeps pages of copies that are not committed are dropped; their sets close (R313). -/
def dropDeeps (s : State) : State :=
  forEach (s.mtl.map.sets.filter (fun e => e.2.kind == kDEEPS && e.2.st == .opened)) (fun e s =>
    let n := e.1
    let b := e.2
    let left := (List.range b.assigned).filter (fun q => !programmedPage b q && !b.dead.contains q)
    if left.isEmpty then s else
    let s := { s with
      mtl := { s.mtl with wbuf := s.mtl.wbuf.filter (fun x => x.1 / 2 ^ 21 != n) }
      media := { s.media with dies := s.media.dies.map (fun d => (d.1, { d.2 with progq := d.2.progq.filter (fun p => p.set != n) })) } }
    modSet n (fun b => { b with st := .full, dead := b.dead ++ left }) s) s

/-- Uncommitted captures and copies are abandoned (R313). -/
def drainAbandon (s : State) : State := dropDeeps (mtlAbandon s)

/-- Every open row is completed with EMPTY pages, one set after the other, with the programs that return their buffers (R286,
R313). -/
def fillOpen (s : State) : State :=
  forEach ((s.mtl.map.sets.filter (fun e => e.2.st == .opened)).map (·.1)) (fun n s => progAll (fillRow n s)) s

/-- Passes over the dies until every page is programmed. -/
def drainPages (fuel : Nat) (s : State) : State :=
  match fuel with
  | 0 => s
  | n + 1 => if s.mtl.wbuf.isEmpty && s.mtl.jopen.isEmpty then s else drainPages n (progAll (fillOpen (jClose s)))

/-- The journal's end, and every page and parity (R313). -/
def drainMtl (s : State) : State := drainPages 1024 (progAll (mtlFlushEnd s))

/-- Everything is durable. -/
def drained (s : State) : Bool :=
  cacheClean s && s.mtl.sealedQ.isEmpty && s.mtl.wbuf.isEmpty && s.mtl.jopen.isEmpty && s.mtl.jpend.isEmpty &&
  s.icu.dirtyGroups.isEmpty && s.icu.writeback.isEmpty &&
  s.media.dies.all (fun d => d.2.progq.isEmpty && (match d.2.op, d.2.susp with | some (.prog _ _), _ => false | _, some (.prog _ _) => false | _, _ => true))

/-- The whole of it, in the flush's order; in INTEGRITY HALT the freezes give way to the flush's own writes (R599). -/
def drain (s : State) : State :=
  let m := mode s
  let s := if m = 4 then setF F.GLB_STATE_MODE 0 s else s
  let s := drainAbandon s
  let s := drainData (drainFuel s) s
  let s := drainMtl (drainTree s)
  if m = 4 then setF F.GLB_STATE_MODE 4 s else s

end Sys2Proof.Machine
end

