-- ==== Sys2Proof/Machine/Boot.lean ====
section
/-! DEFINITION. Device reset and start-up (R58, R90, R457, R602): what a reset leaves, the start-up steps from T0, and
Memory_Active. -/

namespace Sys2Proof.Machine

/-! ### What a reset leaves -/

/-- Registers that stand in PD_AON (R554): the GLB block but MODE and SCRATCH, TICK, GAU, PWR, SUP and THM. -/
def aonReg (a : Nat) : Bool :=
  let b := a % bankStride
  (decide (b < 0x20000) && decide (a < bankStride) && b != Reg.GLB_STATE && b != Reg.GLB_SCRATCH 0 &&
    !(decide (Reg.TICK_CAL_SET_LO ≤ b) && b != Reg.TICK_CAL_STAT && b != Reg.TICK_SYNC_CTL && b != Reg.TICK_SYNC_STAT)) ||
  (decide (0xC00000 ≤ b) && decide (b < 0xD00000)) || (decide (0xE00000 ≤ b) && decide (b < 0x1100000))

/-- Every domain but PD_AON is reset (R602): Gauge, Spring flash cells, the media, the tick logic and the supervisor keep
what they hold; everything else starts from its reset value. Of the TICK block, the fields that R724 names stay, of the GLB
block those of PD_AON (R57). -/
def domainsReset (s : State) : State :=
  let failed := fld s F.GLB_STATE_FAILED_RAILS
  let s0 := State.reset
  let heads := s.heads.map (fun e => (e.1, { Head.init with perst := e.2.perst, lsa := e.2.lsa }))
  let dies := s.media.dies.map (fun e => (e.1, { Die.init with badList := e.2.badList, stored := e.2.stored, da := e.2.da }))
  let media : Media := { s0.media with dies := dies, pages := s.media.pages, blocks := s.media.blocks, suspect := s.media.suspect }
  let mtl : Mtl := { s.mtl with
    ready := false, map := MapState.init, lost := [], unplaced := [], sealedQ := [], internalQ := [], logPage := none, relocPage := none, wbuf := []
    folds := [], dredge := none, dredgeOn := false, jopen := [], jpend := [], ckptRun := none, hints := [] }
  let icu : Icu := { Icu.init with
    mediaTree := s.icu.mediaTree, groups := s.icu.groups, nodeSeq := s.icu.nodeSeq, locSeq := s.icu.locSeq
    locator := s.icu.locator, discardArmed := s.icu.discardArmed }
  let vault : Vault := { Vault.init with
    kVault := s.vault.kVault, kTree := s.vault.kTree, dev := s.vault.dev, area0 := s.vault.area0, area1 := s.vault.area1 }
  let mgmt : Mgmt := { Mgmt.init with recoverPin := s.mgmt.recoverPin, dirtyShutdowns := s.mgmt.dirtyShutdowns }
  let flash : Flash := { Flash.init with mem := s.flash.mem, badWords := s.flash.badWords }
  let pwr : Power := { Power.init with buffer := s.pwr.buffer }
  let tick : Tick := { s.tick with forcedFollower := false, listen := none, heard := false, calSet := none, budgetSet := none }
  let sedm : Sediment := { s.sed with ring := [], dirtySlots := [], dropped := 0, flushDue := false }
  let s := { s with
    regs := s.regs.filter (fun e => aonReg e.1), staged := [], captured := [], cfg := none, tick := tick, sed := sedm
    ndx := Ndx.init, heads := heads, queues := [], tracker := [], ways := [], slices := [], fills := [], lcmds := []
    media := media, mtl := mtl, icu := icu, vault := vault, memp := Memp.init, movers := [], mgmt := mgmt, flash := flash
    pwr := pwr, nrw := Narrows.init, obs := Obs.init
    sup := { s.sup with resetTick := s.tick.count, issued := [] } }
  setF F.GLB_STATE_FAILED_RAILS failed s |> setF F.TICK_CAL_STAT_REFUSED 0 |> setF F.TICK_SYNC_STAT_LOST 0
    |> setF F.TICK_SYNC_STAT_CONFLICT 0 |> setF F.TICK_SYNC_STAT_FRAME_ERR 0

/-! ### Start-up -/

/-- The calibration row is good (R483). -/
def calOk (s : State) : Bool :=
  flashBytes s calRow 4 == [0x43, 0x41, 0x4C, 0x31] && at' (flashBytes s (calRow + 4) 2) 0 2 == 1 &&
  leVal (flashBytes s (calRow + 0xFFFC) 4) == (crc32c (flashBytes s calRow 0xFFFC)).toNat

/-- Run an image: its registers, skipped records, slice seeds, its part in SEICHE and Narrows group. `slot` 2 is the safe
configuration. -/
def ndxAdopt (c : ImageCfg) (slot : Nat) (s : State) : State :=
  let s := { s with sup := { s.sup with part := c.seiche, leader := c.seiche && c.pos == 0 } }
  nrwStart (slotImage s slot) (setF F.TICK_SYNC_CTL_ROLE c.role (ndxSaySkipped c (ndxShow c slot s)))

/-- A recorded raise-floor request for the image adopted raises the floor (R728). -/
def ndxFloorRedo (c : ImageCfg) (s : State) : State :=
  let (_, _, _, req) := gNdxsel s
  let floor := gCounter s (.dev 1)
  if req = some c.version ∧ floor < c.version then
    gEnq (.raise (.dev 1) c.version) false none .none s |> sed 0x0A89 sNOTICE 10 floor c.version 0
  else s

/-- The rail copy is rewritten when its digest differs from the image's (R72). -/
def railCopyRedo (c : ImageCfg) (s : State) : State :=
  let (sel, _, dig, req) := gNdxsel s
  if dig = c.digest then s
  else gPut G.ndxsel (.ndxsel sel (c.railsRaw ++ zeros (96 - c.railsRaw.length)) c.digest req) false none .none s
    |> sed 0x0A88 sNOTICE 10 c.version 0 0

/-- Where and why a slot's image failed. -/
def ndxBootErr (slot : Nat) (e : NdxErr) (s : State) : State :=
  setF F.MGMT_NDX_ERR_REASON e.1 s |> setF F.MGMT_NDX_ERR_RECORD e.2 |> setF F.MGMT_NDX_ERR_WHERE (slot + 1)

/-- Step 5: the selected image, the other slot's, or the safe configuration (R90, R91). -/
def ndxBoot (s : State) : State :=
  let sel := (gNdxsel s).1
  match ndxValidate s (slotImage s sel) with
  | .ok c => railCopyRedo c (ndxFloorRedo c (ndxAdopt c sel s))
  | .error e =>
    let s := ndxBootErr sel e s
    let o := 1 - sel
    match ndxValidate s (slotImage s o) with
    | .ok c =>
      let s := sed 0x0A85 sERROR 10 sel e.1 e.2 (setF F.MGMT_NDX_STAT_FALLBACK 1 s)
      railCopyRedo c (ndxAdopt c o s)
    | .error f =>
      let (a, b) := if sel = 0 then (e.1, f.1) else (f.1, e.1)
      let s := setF F.TICK_SYNC_CTL_ROLE 0 (setF F.MGMT_NDX_STAT_SOURCE 2 (ndxBootErr o f { s with cfg := none, sup := { s.sup with part := false, leader := false } }))
      nrwStart [] (sed 0x0A86 sCRITICAL 10 a b 0 s)

/-- The slices' LFSRs at device reset (R178, R391). -/
def seedSlices (s : State) : State :=
  let seeds := match s.cfg with | some c => c.seeds | none => []
  forEach (List.range 48) (fun n s =>
    let v := lat 0 seeds n
    let (w, s) :=
      if v ≠ 0 then (BitVec.ofNat 32 v, s)
      else if fld s F.KV_STAT_RNG = 2 then (BitVec.ofNat 32 (serialNo s) ^^^ BitVec.ofNat 32 (n * 256), s)
      else
        let (x, s) := draw 32 s
        (BitVec.ofNat 32 (1 + x.toNat % (2 ^ 32 - 1)), s)
    modSlice n (fun x => { x with lfsr := w }) s) s

/-- Step 8 for the channels: trained ones serve and each die's information page is read; the others are fenced; `silent`
names dies that do not answer (R253, R258). -/
def channelsUp (trained silent : List Nat) (s : State) : State :=
  forEach ((List.range 16).filter (chanOn s)) (fun c s =>
    let ks := (List.range 8).map (fun d => c * 8 + d)
    let s := forEach ks (fun k s =>
      let o := 4 * (k % 48)
      let s := setF (F.MED_CH_D_INC_VALUE c (k % 8)) (at' (gParam s (13 + k / 48)) o 4) s
      setDieState k 0 s) s
    let s := setF (F.MED_CH_RETRY_STEP c) (let n := leVal (flashBytes s (calRow + 0x100 + 32 * (8 * c) + 24) 1); if 1 ≤ n ∧ n ≤ 32 then n else 6) s
    if !trained.contains c then fenceChannel c 0 s
    else if ks.all (fun k => silent.contains k) then fenceChannel c 1 s
    else
      let s := setF (F.MED_CH_STAT_STATE c) 2 s |> setF (F.MED_CH_BUS_TRAINED c) 1
      let s := forEach ks (fun k s =>
        if silent.contains k then doDieFenced c (k % 8) 0 (modDie k (fun d => { d with missed := 2 }) s) else infoFirst k s) s
      let (t, s) := draw 16 s
      sed 0x0400 sINFO 5 c (ks.filter (fun k => dieState s k == 0)).length t.toNat s) s

/-- The mode that start-up leaves BOOT for (R58, R585). -/
def bootMode (s : State) : Nat :=
  if railFailed s 0 || railFailed s 1 || railFailed s 4 then 3 else if s.sup.failed ≠ 0 then 2 else 1

/-- The running Shoreline job resumes from the saved B (R366). -/
def shoreResume (s : State) : State :=
  match gShore s with
  | none => s
  | some r =>
    let first := match r.ranges.head? with | some x => x.1 | none => 0
    let b := max first (gShadow s).shoreB
    let sh : Shore := { Shore.init with st := 2, key := r.key, ranges := r.ranges, b := b, startTick := s.tick.count }
    { s with icu := { s.icu with shore := sh } }

/-- Leaving BOOT (R457 step 7): the mode with its record, the ports, MGMT_BOOT_DONE. DEVICE_RESET is written here, with the
mode that BOOT is left for, and so not by a start that stops in Wellhead recovery (R60 gives its parameters and no time:
DESIGN CHOICE, log entry 149). -/
def leaveBoot (s : State) : State :=
  let m := bootMode s
  let s := setF F.GLB_STATE_MODE m s
  let s := sed 0x0001 sINFO 16 (s.reg Reg.GLB_RESET_CAUSE).toNat m 0 s
  let s := if m = 2 then sed 0x0002 sERROR 16 s.sup.failed.toNat 0 0 s
    else if m = 3 then sed 0x0003 sCRITICAL 16 s.sup.failed.toNat 0 0 s else s
  let s := if m = 3 then s else forEach (headsOn s) (fun h s => modHead h (fun x => { x with released := true }) s) s
  -- times within the maxima of R457, step 7 after step 3
  let (a, s) := drawLe 110 s
  let (b, s) := drawLe (160 - a) s
  let s := setF F.MGMT_BOOT_FW_MS a s |> setF F.MGMT_BOOT_PORT_MS (a + b)
  sed 0x0900 sINFO 9 a (a + b) (fld s F.MGMT_STAT_HALF) s

/-- The steps from T0 up to the recovery of step 9 (R457). -/
def bootRun (trained silent : List Nat) (rngOk : Bool) (s : State) : State :=
  let s := setF F.MGMT_LC_STATE (min 3 (gCounter s (.dev 0))) s |> setB F.MGMT_LC_RETIRE_DONE (gLcrec s).2.1
  let s := if calOk s then fwBoot s else fwRecover 2 s
  if inRecovery s then { s with mgmt := { s.mgmt with boot := 2 } } else
  let s := ndxBoot (fwDefaulted s)
  let s := if (gFwsel s).2.2 = 0 then fwMigrate s else s
  let s := if coreOn s then
      let s := chalDraw (blankDiscard (ledgerReplay s))
      shoreResume s
    else s
  let s := leaveBoot s
  if mgmtOnly s then { s with mgmt := { s.mgmt with boot := 7 } } else
  let s := if rngOk then setF F.KV_STAT_RNG 1 s else doRngFail 2 true s
  let s := seedSlices (firstKeys s)
  let s := modObs (fun o => { o with countdown := 1 }) (plumbReload s)
  let s := channelsUp trained silent s
  let ways := activeMask s
  let s := if ways ≠ 0xFFFF then sed 0x0332 sNOTICE 2 ways 0 0 s else s
  let s := setF F.LC_STAT_READY 1 s
  { s with mgmt := { s.mgmt with boot := 9 } }

/-- MGMT_BOOT's effect: with VMGMT FAILED no core runs (R585), and a start that has lost Wellhead stops at step 1 (R497). -/
def doBoot (trained silent : List Nat) (rngOk : Bool) (s : State) : State :=
  if !s.sup.t0 || s.mgmt.boot ≠ 0 || s.sup.mrLow || bit s F.SF_STAT_WELLHEAD_LOST then s else
  if railFailed s 4 then leaveBoot { s with mgmt := { s.mgmt with boot := 7 } }
  else bootRun trained silent rngOk s

/-- MGMT_BOOT (R457). -/
def execMgmtBoot (trained silent : List Nat) (rngOk : Bool) (s : State) : Host.Outcome State Fault Refusal :=
  run (doBoot trained silent rngOk) s

/-- Memory_Active may be set (R314, R391, R457, R585): the recoveries have ended, the rings are tested, the keys drawn. -/
def activeDue (s : State) : Bool :=
  s.mgmt.boot == 9 && (mode s == 1 || mode s == 2) && s.mtl.ready && fld s F.MTL_STAT_STATE != 0 && fld s F.ICU_STAT_STATE != 0 &&
  bit s F.QF_CTL_READY && s.vault.dev.isSome && unitOn s 5 && unitOn s 6

/-- The rest of step 9 and step 10: a retirement in progress and the pending zeroing, then the heads with regions (R399,
R466, R467). -/
def doMemActive (s : State) : State :=
  if !activeDue s then s else
  let s := zpendZero (retireRedo s)
  let p := fld s F.MGMT_BOOT_PORT_MS
  let (t, s) := drawLe (2200 - p) s
  let s := setF F.MGMT_BOOT2_ACTIVE_MS (p + t) { s with mgmt := { s.mgmt with boot := 10 } }
  forEach ((headsOn s).filter (fun h => (cfgRegions s).any (fun r => r.head == h))) (fun h s =>
    modHead h (fun x => { x with memoryActive := true }) s) s

/-- MEMORY_ACTIVE (R457 step 10). -/
def execMemoryActive (s : State) : Host.Outcome State Fault Refusal := run doMemActive s

end Sys2Proof.Machine
end

