-- ==== Sys2Proof/Machine/Power.lean ====
section
/-! DEFINITION. The power controller (R552 to R578): IDLE, requests for a state, agreement of the units, retention and
wake. -/

namespace Sys2Proof.Machine

def modPwr (f : Power → Power) (s : State) : State := { s with pwr := f s.pwr }

/-! ### IDLE (R559, R560) -/

/-- Enter IDLE: cause 0 autonomous, 1 request. A requested IDLE pauses a running Shoreline job (R559, R365). -/
def idleEnter (cause : Nat) (s : State) : State :=
  let s := modPwr (fun p => { p with st := 1, idleAsked := cause == 1, idleSince := s.tick.count }) s
  let s := if s.icu.shore.st = 1 then { s with icu := { s.icu with shore := { s.icu.shore with st := 2 } } } else s
  sed 0x0C20 sDEBUG 13 1 cause 0 (satInc F.PWR_CNT_ENTRIES s)

/-- Work that IDLE does not plan (R559): the share row leaves NORMAL, a slice's dirty count reaches START, a Shoreline job
or a background command starts. -/
def idleNeeds (s : State) : Bool :=
  fld s F.MTL_SHARE_ROW != 4 || (s.slices.map (·.1)).any (fun n => decide (fld s F.LC_CLEAN_CTL_START * 1024 ≤ dirtyIn s n)) ||
  s.icu.shore.st == 1 || bgBusy s

/-- Autonomous entry is permitted (R559). -/
def idleMay (s : State) : Bool :=
  bit s F.PWR_CTL_AUTO_IDLE && s.pwr.st == 0 && s.pwr.entry.isNone && decide (fld s F.PWR_CTL_IDLE_TICKS ≤ s.pwr.quietTicks) &&
  fld s F.MTL_SHARE_ROW == 4 && s.mtl.folds.isEmpty && s.mtl.dredge.isNone && s.icu.shore.st != 1 && !bgBusy s &&
  s.sup.st == 2 && !inHalt s

/-- IDLE at a boundary: the quiet ticks are counted, and IDLE is entered or left. -/
def idleBoundary (s : State) : State :=
  let s := modPwr (fun p => { p with quietTicks := p.quietTicks + 1 }) s
  if s.pwr.st = 1 then (if idleNeeds s then idleLeave 3 s else s)
  else if idleMay s then idleEnter 0 s else s

/-- IDLE_EXIT (R559): a host flit, or work that IDLE does not plan. -/
def execIdleExit (cause : Nat) (s : State) : Host.Outcome State Fault Refusal :=
  run (fun s => if cause = 2 ∨ cause = 3 then idleLeave cause s else s) s

/-- A write of PWR_CTL (R577). -/
def doPwrCtl (path : Nat) (v : BitVec 32) (s : State) : State :=
  let i := F.PWR_CTL_IDLE_TICKS.get v
  let a := F.PWR_CTL_AGREE_MS.get v
  if !isMgmt path || i < 1 || i > 4095 || a < 10 || a > 250 then s else s.putReg Reg.PWR_CTL (v &&& 0x03FFFFF1)

/-- PWR_CTL_WRITE (R577). -/
def execPwrCtlWrite (path : Nat) (v : BitVec 32) (s : State) : Host.Outcome State Fault Refusal := run (doPwrCtl path v) s

/-! ### Requests (R561, R562) -/

/-- PWR_STAT.STATE: 5 ENTERING, 6 EXITING. -/
def pwrShown (s : State) : Nat := if s.pwr.entry.isSome then 5 else if s.pwr.exit.isSome then 6 else s.pwr.st

/-- Payload of the answer: STATE, CAUSE, UNIT, POINT. -/
def pwrOut (s : State) : List Byte :=
  le 1 (pwrShown s) ++ le 1 (fld s F.PWR_STAT_ABORT_CAUSE) ++ le 1 (fld s F.PWR_STAT_ABORT_UNIT) ++ le 1 (fld s F.PWR_STAT_POINT)

/-- The return code of the first check that fails (R561); Success asks for no more. -/
def pwrCheck (s : State) (path target : Nat) (reserved : Bool) : Nat :=
  if 4 < target || reserved then rcInvalid
  else if (isHead path && decide (2 ≤ target)) || inHalt s || (mgmtOnly s && decide (1 ≤ target) && decide (target ≤ 3)) || inRecovery s then rcRefused
  else if s.pwr.entry.isSome || s.pwr.exit.isSome || inGuard s || inFlush s || bgBusy s || bit s F.SF_HO_CTL_ARM || !fwUnowned s ||
      s.ndx.commit.isSome then rcBusy
  else rcSuccess

/-- An entry begins: abort point A1 is passed (R563, R564). -/
def entryStart (path target : Nat) (s : State) : State :=
  let e : Entry := ⟨target, path, 0, some 0, s.pwr.st, s.tick.count, s.tick.count, 0, none, false⟩
  let s := setF F.PWR_STAT_POINT 0 s |> setF F.PWR_STAT_ABORT_CAUSE 0 |> setF F.PWR_STAT_ABORT_UNIT 0
  modPwr (fun p => { p with entry := some e }) (startCmd path 0xC040 false s)

/-- The request once its checks have passed. OFF is answered before the supervisor's power-down takes it: `off` starts
that. -/
def pwrGo (path target : Nat) (s : State) : State :=
  if target = s.pwr.st then answer path 0xC040 rcSuccess (pwrOut s) s
  else
    let s := setF F.PWR_STAT_TARGET target s
    if target = 4 then
      answer path 0xC040 rcSuccess (pwrOut s) { s with sup := { s.sup with offAsked := true } }
    else if 2 ≤ target then
      -- from one low-power state to another, and the wake source of a request: DESIGN CHOICE, log entry 214
      (if 2 ≤ s.pwr.st then answer path 0xC040 rcConflict (pwrOut s) s else entryStart path target s)
    else if s.pwr.st = 2 then wakeStart 3 (startCmd path 0xC040 false s)
    else
      let s := if target = 0 then idleLeave 1 s else idleEnter 1 s
      answer path 0xC040 rcSuccess (pwrOut s) s

/-- PWR_STATE_REQ with a TARGET. -/
def doPwrReq (path target : Nat) (inp : List Byte) (s : State) : State :=
  cmd path 0xC040 (le 1 target ++ inp.drop 1) (inp.length == 4) (fun s =>
    let rc := pwrCheck s path target (!zeroAt inp 1 3)
    if rc = rcSuccess then pwrGo path target s
    else sed 0x0C06 sNOTICE 13 target rc (pathCode path) (answer path 0xC040 rc (pwrOut s) s)) s

/-- PWR_STATE_REQ, TARGET RUN (R561, R562). -/
def execPwrStateReqRun (path : Nat) (inp : List Byte) (s : State) : Host.Outcome State Fault Refusal := run (doPwrReq path 0 inp) s
/-- PWR_STATE_REQ, TARGET IDLE. -/
def execPwrStateReqIdle (path : Nat) (inp : List Byte) (s : State) : Host.Outcome State Fault Refusal := run (doPwrReq path 1 inp) s
/-- PWR_STATE_REQ, TARGET SLEEP. -/
def execPwrStateReqSleep (path : Nat) (inp : List Byte) (s : State) : Host.Outcome State Fault Refusal := run (doPwrReq path 2 inp) s
/-- PWR_STATE_REQ, TARGET DEEP. -/
def execPwrStateReqDeep (path : Nat) (inp : List Byte) (s : State) : Host.Outcome State Fault Refusal := run (doPwrReq path 3 inp) s
/-- PWR_STATE_REQ, TARGET OFF. -/
def execPwrStateReqOff (path : Nat) (inp : List Byte) (s : State) : Host.Outcome State Fault Refusal := run (doPwrReq path 4 inp) s
/-- PWR_STATE_REQ with a TARGET above 4 (R561): the byte sent, or 5 where it is none. -/
def execPwrStateReqBadTarget (path : Nat) (inp : List Byte) (s : State) : Host.Outcome State Fault Refusal :=
  run (doPwrReq path (if 4 < byteAt inp 0 then byteAt inp 0 else 5) inp) s

/-! ### Abandoning an entry (R565 to R569) -/

/-- Units that have agreed resume, and the request is answered CONFLICT. -/
def entryAbandon (cause unit : Nat) (s : State) : State :=
  match s.pwr.entry with
  | none => s
  | some e =>
    let s := setF F.PWR_STAT_ABORT_CAUSE cause s |> setF F.PWR_STAT_ABORT_UNIT unit |> satInc F.PWR_CNT_ABORTS
    let s := if 10 < e.agreed then coresRun s else s
    let s := modNrw (fun x => { x with leaving := false }) (modPwr (fun p => { p with entry := none, stopped := [] }) s)
    pump (endCmd e.path 0xC040 rcConflict (pwrOut s) s)

/-- PWR_ENTRY_ABANDONED for a flush (cause 4) or INTEGRITY HALT (cause 5) (R568, R569). -/
def entryCut (cause : Nat) (s : State) : State :=
  match s.pwr.entry with
  | none => s
  | some e => entryAbandon cause 0 (sed 0x0C05 sNOTICE 13 e.target cause (e.point.getD 0) s)

/-- The last abort point is passed and a wake event is latched: the entry ends there (R567). -/
def entryWake (s : State) : State :=
  match s.pwr.entry with
  | some e =>
    (match e.wake with
     | some src => entryAbandon 2 0 (sed 0x0C03 sDEBUG 13 e.target src (e.point.getD 0) s)
     | none => s)
  | none => s

/-- Order of agreement (R563). -/
def agreeOrder (target : Nat) : List Nat := [15, 7, 4, 0, 1, 12, 2, 3, 6, 5] ++ (if target = 3 then [9] else [])

/-- The unit asked now. -/
def askedUnit (s : State) : Option Nat := s.pwr.entry.bind (fun e => (agreeOrder e.target)[e.agreed]?)

/-- PWR_ENTRY_TIMEOUT (R566): the unit asked has not answered within AGREE_MS. -/
def doEntryTimeout (unit : Nat) (s : State) : State :=
  match s.pwr.entry with
  | some e =>
    if askedUnit s = some unit ∧ e.asked + fld s F.PWR_CTL_AGREE_MS * 250 ≤ s.tick.count then
      entryAbandon 3 unit (sed 0x0C04 sWARNING 13 e.target unit (fld s F.PWR_CTL_AGREE_MS) s)
    else s
  | none => s

/-- PWR_ENTRY_TIMEOUT (R566). -/
def execPwrEntryTimeout (unit : Nat) (s : State) : Host.Outcome State Fault Refusal := run (doEntryTimeout unit) s

/-! ### Agreement of the units (R563) -/

/-- A unit is absent or its domain is clamped: it agrees by its clamp (R555). -/
def unitClamped (s : State) (u : Nat) : Bool := !unitOn s u || (u == 9 && railFailed s 4)

/-- The unit's own reason to refuse (R563). -/
def unitRefuses (s : State) (e : Entry) (u : Nat) : Bool :=
  let dieBusy := fun (c : Nat) => (List.range 8).any (fun d => dieState s (c * 8 + d) == 2 || dieState s (c * 8 + d) == 3)
  if u = 15 then nrwMustStay e.asked s
  else if u = 7 then !s.movers.isEmpty
  else if u = 4 then !s.vault.jobs.isEmpty || s.vault.slots.any (fun x => x.2.reserving)
  else if u = 0 then
    !s.tracker.isEmpty || (headsOn s).any (fun h =>
      !(queueOf s (iqReq h)).entries.isEmpty || !(queueOf s (iqRwd h)).entries.isEmpty ||
      (bit s (F.HP_LINK_STAT_UP h) && ((headOf s h).lowPower == 0 || (e.target == 3 && (headOf s h).lowPower != 2))))
  else if u = 1 then (queuesOn s).any (fun q => !(queueOf s q).entries.isEmpty || (queueOf s q).test != .none)
  else if u = 2 then !s.lcmds.isEmpty || bit s F.LC_STAT_PURGING || ((List.range 16).filter (chanOn s)).any (windowHeld s)
  else if u = 3 then s.icu.tree.leaves.any (fun l => l.2.reseal != 0)
  else if u = 6 then fld s F.MTL_STAT_STATE == 0 || bit s F.MTL_STAT_REBUILD || fld s F.MTL_SHARE_ROW == 0
  else if u = 5 then ((List.range 16).filter (chanOn s)).any (fun c => chanState s c == 3 || chanState s c == 5 || dieBusy c)
  else false

/-- The values that PD_AON keeps for SHADOW (R535). -/
def shadowNow (s : State) : ShadowRec :=
  { cal := s.tick.cal, sub := fld s F.TICK_CAL_STAT_SUBMS, sedNext := s.sed.next, mark := s.sed.mark, lost := s.sed.lost
    shoreB := s.icu.shore.b, trialEpochs := fld s F.SF_FW_TRIAL_EPOCHS }

/-- SHADOW and then TREE_ROOT with CLEAN 1, as priority writes (R535, R570). -/
def shadowRoot (clean : Bool) (s : State) : State :=
  putTreeRoot clean (gPut G.shadow (.shadow (shadowNow s)) true none .none s)

/-- What a unit does to agree (R563): the state, and whether it has come to rest. -/
def unitStops (e : Entry) (u : Nat) (s : State) : State × Bool :=
  if u = 15 then
    let s := nrwLeave (sndStop 2 (plumbStop 2 s))
    if nrwUnacked s then (s, false) else (nrwRest s, true)
  else if u = 12 then (sedFlushNow s, true)
  else if u = 2 then
    let n := dirtyLines s
    let s := drainData (drainFuel s) s
    (modPwr (fun p => { p with entry := p.entry.map (fun x => { x with cleaned := n }) }) s, cacheClean s)
  else if u = 3 then
    let sh := s.icu.shore
    let s := drainTree { s with icu := { s.icu with shore := { sh with st := if sh.st = 1 then 2 else sh.st } } }
    if e.target = 3 then
      let s := shadowRoot true s
      let s := gRun (gFuel s) s
      (s, s.icu.dirtyGroups.isEmpty && !rootQueued s)
    else (s, s.icu.dirtyGroups.isEmpty)
  else if u = 6 then
    let s := drainMtl (drainAbandon s)
    (s, s.mtl.wbuf.isEmpty && s.mtl.jopen.isEmpty)
  else if u = 5 then (eraseAllDies (progAll s), true)
  else if u = 9 then (setF F.MGMT_STAT_CORES 0 s, true)
  else (s, true)

/-- SLEEP is reached: PD_CORE goes to RET and the media off (R554, R556); the request is answered. -/
def sleepReached (e : Entry) (s : State) : State :=
  let ms := (s.tick.count - e.startTick) / 250
  let s := satInc F.PWR_CNT_ENTRIES (setF F.PWR_TIME_ENTRY_MS ms s)
  let s := modPwr (fun p => { p with st := 2, entry := none }) s
  let s := endCmd e.path 0xC040 rcSuccess (pwrOut s) s
  sed 0x0C00 sINFO 13 2 ms e.cleaned s

/-- A unit has agreed: the abort points that follow it (R564), and the end of the list. -/
def agreed (u : Nat) (s : State) : State :=
  match s.pwr.entry with
  | none => s
  | some e =>
    let point := if u = 1 then some 1 else if u = 5 then some 2 else none
    let e := { e with agreed := e.agreed + 1, asked := s.tick.count, point := if point.isSome then point else e.point, signing := u == 9 }
    let s := setF F.PWR_STAT_POINT (e.point.getD 0) (modPwr (fun p => { p with entry := some e, stopped := p.stopped ++ [u] }) s)
    if point.isSome ∧ e.wake.isSome then entryWake s
    else if u = 5 then
      (if e.target = 2 then sleepReached e s
       else endCmd e.path 0xC040 rcSuccess (pwrOut s) s)
    else s

/-- UNIT_AGREE's effect; `busy` is a refusal of the unit's own that the model does not see. -/
def doUnitAgree (unit : Nat) (busy : Bool) (s : State) : State :=
  if inHalt s then entryCut 5 s else
  match s.pwr.entry with
  | none => s
  | some e =>
    if askedUnit s ≠ some unit then s
    else if unitClamped s unit then agreed unit s
    else if busy || unitRefuses s e unit then
      entryAbandon 1 unit (sed 0x0C02 sNOTICE 13 e.target unit (e.point.getD 0) s)
    else
      let (s, rest) := unitStops e unit s
      if rest then agreed unit s else s

/-- UNIT_AGREE (R563 to R565). -/
def execUnitAgree (unit : Nat) (busy : Bool) (s : State) : Host.Outcome State Fault Refusal := run (doUnitAgree unit busy) s

/-! ### Retention (R571 to R573) -/

/-- What PD_CORE and PD_MGMT lose in DEEP (R571): slice structures, rings, write buffers, unpinned nodes, mover buffers;
links that were in L2 are down. -/
def deepLoss (s : State) : State :=
  let s := forEach (headsOn s) (fun h s => linkDown h 0 s) s
  let slices := s.slices.map (fun e => (e.1, { Slice.init with lfsr := e.2.lfsr, cleanPos := e.2.cleanPos }))
  let obs : Obs := { s.obs with ring := [], flying := [], fifos := [] }
  let s := { s with ways := [], slices := slices, fills := [], tracker := [], icu := { s.icu with onDie := [] }, obs := obs }
  { s with mtl := { s.mtl with wbuf := [] } }

/-- Banks that the device has (R571): the Pond DRAM banks go with unit 6. -/
def bankThere (s : State) (b : Nat) : Bool := decide (b < 9) && (b != 6 && b != 7 || unitOn s 6)

/-- RETENTION_SIGN_DONE's effect: signatures stored, A4 passed, then DEEP (R572). -/
def doSign (crcs : List (BitVec 32)) (s : State) : State :=
  match s.pwr.entry with
  | none => s
  | some e =>
    if !e.signing || e.agreed ≠ 11 then s else
    let banks := (List.range 9).filter (bankThere s)
    let s := forEach banks (fun b s => setF (F.PWR_SIG_CRC b) (lat 0 crcs b).toNat s) s
    let s := setF F.PWR_RET_STAT_SIGNED (banks.foldl (fun a b => a + 2 ^ b) 0) s |> setF F.PWR_STAT_POINT 3
    let e := { e with point := some 3 }
    let s := modPwr (fun p => { p with entry := some e }) s
    if e.wake.isSome then entryWake s else
    let ms := (s.tick.count - e.startTick) / 250
    let s := satInc F.PWR_CNT_ENTRIES (setF F.PWR_TIME_ENTRY_MS ms s)
    let s := deepLoss (modPwr (fun p => { p with st := 3, entry := none }) s)
    sed 0x0C00 sINFO 13 3 ms e.cleaned s

/-- RETENTION_SIGN_DONE (R572). -/
def execRetentionSignDone (crcs : List (BitVec 32)) (s : State) : Host.Outcome State Fault Refusal := run (doSign crcs) s

/-- The translation layer and the tree are recovered again (R314, R339): both read RECOVERING. -/
def recoverAgain (s : State) : State :=
  let s := setF F.MTL_STAT_STATE 0 s |> setF F.ICU_STAT_STATE 0
  { s with mtl := { s.mtl with ready := false } }

/-- Registers of units in PD_CORE (R554). -/
def coreReg (a : Nat) : Bool :=
  let b := a % bankStride
  (decide (0x200000 ≤ b) && decide (b < 0xA00000)) || (decide (0xD00000 ≤ b) && decide (b < 0xE00000)) || decide (0x1100000 ≤ b)

/-- Rebuild a lost bank from its persistent home (R571). -/
def rebuildBank (b : Nat) (other : Bool) (s : State) : State :=
  let (src, s) :=
    if b ≤ 1 then (1, ledgerReplay s)
    else if b = 2 then
      let ups := s.icu.mediaTree.uppers
      let pinned := fun (k : Nat) => decide (4 ≤ k / 2 ^ 40) && decide (k / 2 ^ 40 ≤ 7)
      let l := s.icu.tree.uppers.map (fun e => if pinned e.1 then (e.1, (tfind ups e.1).getD e.2) else e)
      (2, modTree (fun t => { t with uppers := l }) s)
    else if b = 3 then
      let slot := fld s F.SF_FW_SEL_RUNNING
      let words := s.flash.badWords.filter (fun w => decide (fwBase slot ≤ 8 * w) && decide (8 * w < fwBase slot + (fwBytes s slot).length))
      (4, if words.isEmpty then s else fwRecover 3 s)
    else if b = 4 then (5, stagingEmpty (endForeground (spdmEndAll s)))
    else if b = 5 then (5, { s with sed := { s.sed with ring := [] } })
    else if b = 8 then
      let trained := (List.range 16).filter (fun c => chanState s c == 2)
      let slices := s.slices.map (fun e => (e.1, Slice.init))
      let s := { s with regs := s.regs.filter (fun e => !coreReg e.1), queues := [], slices := slices }
      (3, recoverAgain (setF F.LC_STAT_READY 1 (channelsUp trained [] (seedSlices (setF F.KV_STAT_RNG 1 s)))))
    else if other then (0, s) else (3, recoverAgain s)
  let (ms, s) := draw 12 s
  sed 0x0C11 sINFO 13 b src ms.toNat s

/-- The banks' signatures at wake (R573): those that differ are lost and rebuilt. -/
def bankCheck (crcs : List (BitVec 32)) (s : State) : State :=
  let lost := (List.range 9).filter (fun b => (fld s F.PWR_RET_STAT_SIGNED).testBit b && decide (fld s (F.PWR_SIG_CRC b) ≠ (lat 0 crcs b).toNat))
  let s := setF F.PWR_RET_STAT_MISMATCH (lost.foldl (fun a b => a ||| 2 ^ b) (fld s F.PWR_RET_STAT_MISMATCH)) s
  let s := forEach lost (fun b s => sed 0x0C10 sERROR 13 b (fld s (F.PWR_SIG_CRC b)) (lat 0 crcs b).toNat s) s
  forEach lost (fun b s => rebuildBank b (!lost.contains (if b = 6 then 7 else if b = 7 then 6 else b)) s) s

/-- Records held in PD_AON enter the Sediment ring, in sequence order (R558). -/
def bufferToRing (s : State) : State :=
  let l := s.pwr.buffer
  forEach l (fun r s =>
    let (ring, lost) := sedInsert 512 r s.sed.ring
    let s := { s with sed := { s.sed with ring := ring } }
    match lost with | some v => sedDrop v s | none => s) (modPwr (fun p => { p with buffer := [] }) s)

/-! ### Wake (R574, R575) -/

/-- WAKE_EVENT (R567, R574): sources 0 to 3, 5 and 6; the timer has its own command. -/
def execWakeEvent (src : Nat) (s : State) : Host.Outcome State Fault Refusal :=
  run (fun s => if src = 4 then s else wakeStart src s) s

/-- PWR_WAKE_TIMER: TICK_COUNT has reached PWR_TIMER, which is not 0 (R574 source 4). -/
def doWakeTimer (s : State) : State :=
  let t := fld s F.PWR_TIMER_HI_TICK * 2 ^ 32 + fld s F.PWR_TIMER_LO_TICK
  if t ≠ 0 ∧ t ≤ s.tick.count then wakeStart 4 s else s

/-- PWR_WAKE_TIMER (R574). -/
def execPwrWakeTimer (s : State) : Host.Outcome State Fault Refusal := run doWakeTimer s

/-- The exit ends: banks checked, units resumed, RUN (R575); requests for RUN or IDLE are answered. -/
def doWake (crcs : List (BitVec 32)) (s : State) : State :=
  match s.pwr.exit with
  | none => s
  | some (left, src, t) =>
    let s := if left = 3 then bankCheck crcs (coresRun s) else s
    let s := modPwr (fun p => { p with st := 0, exit := none, stopped := [], quietTicks := 0 }) s
    let s := forEach (headsOn s) (fun h s => modHead h (fun x => { x with lowPower := 0 }) s) s
    let ms := (s.tick.count - t) / 250
    let s := bufferToRing (setF F.PWR_TIME_EXIT_MS ms s)
    let s := sed 0x0C01 sINFO 13 left src ms s
    let asked := (s.mgmt.inflight.filter (fun e => e.op == 0xC040)).map (·.path)
    let s := if asked.isEmpty || fld s F.PWR_STAT_TARGET ≠ 1 then s else idleEnter 1 s
    pump (forEach asked (fun p s => endCmd p 0xC040 rcSuccess (pwrOut s) s) s)

/-- PWR_WAKE (R573, R575). -/
def execPwrWake (crcs : List (BitVec 32)) (s : State) : Host.Outcome State Fault Refusal := run (doWake crcs) s

/-- A trained link enters L1 or L2 (R563 order 4); level 3 is reduced-width L0p, level 0 the return to L0 (R95). -/
def execLinkL1L2Entry (head level : Nat) (s : State) : Host.Outcome State Fault Refusal :=
  run (fun s => if headOn s head && linkTrained s head then
    setB (F.HP_LINK_STAT_L0P head) (level == 3) (modHead head (fun x => { x with lowPower := level % 3 }) s) else s) s

end Sys2Proof.Machine
end

