-- ==== Sys2Proof/Machine/Flush.lean ====
section
/-! DEFINITION. The supervisor's flush (R598 to R602): its start, its first tick, its end, and what follows: ride-through,
device reset or power-down; the power-down and power-up sequences (R582 to R590). -/

namespace Sys2Proof.Machine

def modSup (f : Sup → Sup) (s : State) : State := { s with sup := f s.sup }

/-- Charged dirty bytes in MiB (R595). -/
def dMib (s : State) : Nat := chargedBytes s / 2 ^ 20

/-! ### Rails (R71, R583) -/

/-- The rail table in the bytes of the Gauge copy (R69, R71). -/
def railsOf (b : List Byte) : List RailEnt :=
  (List.range 10).map (fun n => ⟨byteAt b (8 * n), byteAt b (8 * n + 1), at' b (8 * n + 2) 2, byteAt b (8 * n + 4), byteAt b (8 * n + 5)⟩)

/-- The table that governs since the last power-up (R71). -/
def railsNow (s : State) : List RailEnt := s.sup.rails

def railEnt (s : State) (n : Nat) : RailEnt := lat ⟨0, 0, 0, 0, 0⟩ (railsNow s) n

/-- A set of rails as a mask. -/
def railMask (l : List Nat) : BitVec 10 := BitVec.ofNat 10 (l.foldl (fun a n => a ||| 2 ^ n) 0)

/-- Rails whose UP_STEP, or DOWN_STEP, is n. -/
def upRails (s : State) (n : Nat) : List Nat := (List.range 10).filter (fun k => (railEnt s k).up == n)
def downRails (s : State) (n : Nat) : List Nat := (List.range 10).filter (fun k => (railEnt s k).down == n)

/-! ### Reservoir (R603) -/

/-- VRES is up (R597, R603). -/
def vresUp (s : State) : Bool := s.sup.up.getLsbD 9 && s.sup.pg.getLsbD 9 && !railFailed s 9

/-- What charging needs (R603). -/
def resMay (s : State) : Bool :=
  s.sup.st == 2 && vresUp s && bit s F.THM_WINDOW_RES && !s.sup.testing && !s.sup.faulted

/-- TARGET in 10 mV. -/
def resTarget (s : State) : Nat := fld s F.SUP_RES_CTL_TARGET * 10

/-- RES_CHG (R603): to TARGET, and again below TARGET less 1.0 V. -/
def chargeEval (s : State) : State :=
  let full := s.sup.everCharged || (s.sup.charging && decide (resTarget s ≤ s.sup.resV))
  if !resMay s || decide (resTarget s ≤ s.sup.resV) then modSup (fun x => { x with charging := false, everCharged := full }) s
  else if s.sup.charging then s
  else if !full || decide (s.sup.resV + 100 < resTarget s) then modSup (fun x => { x with charging := true, everCharged := false }) s
  else s

/-! ### SUPSNAP (R607, R608) -/

/-- The SEICHE state number that the device reports. -/
def seicheShown (s : State) : Nat :=
  if s.sup.part && s.sup.solo then 23
  else match s.sup.st with
    | 1 => s.sup.step
    | 2 => 13
    | 3 => 13
    | 4 => 22
    | 5 => s.sup.step
    | _ => 0

/-- Lowest VIN of the last second; none seen reads as 0xFFFF. -/
def vinLow (s : State) : Nat := s.sup.vinHist.foldl min 0xFFFF

/-- A VIN value seen by a round or a detector. -/
def vinSeen (v : Nat) (s : State) : State :=
  modSup (fun x => { x with
    vinHist := (v :: x.vinHist).take 977, vinMin := min x.vinMin v
    guardMin := if x.st = 3 ∨ x.st = 4 then min x.guardMin v else x.guardMin }) s

/-- The snapshot as it would be written now. -/
def snapNow (cause : Nat) (completed ride fromVaon : Bool) (s : State) : SupSnap :=
  let (r0, dur, d) := match s.sup.flush with | some f => (f.startRes, f.dur, f.startD) | none => (s.sup.resV, 0, dMib s)
  { cal := s.tick.cal, cause := cause, completed := completed, ride := ride, fromVaon := fromVaon, solo := s.sup.solo
    vinMin := vinLow s, resStart := r0, resEnd := s.sup.resV, dur := dur, dMib := d
    failed := s.sup.failed.toNat, nodis := s.sup.nodis.toNat
    temps := [groupC s / 10, groupM s / 10, groupD s / 10], seiche := seicheShown s, cEff := s.sup.cEff }

/-- Queue a snapshot as a priority write. -/
def putSnap (x : SupSnap) (s : State) : State :=
  gPut G.supsnap (.supsnap x) true none .none (modSup (fun u => { u with snap := x }) s)

/-! ### Step 2: heads, rings, Spring flash, Sediment (R167, R398, R431, R494, R546) -/

/-- Drive a head's queued writes to their slices in order; a slice that has no room makes some by the flush's own work
(R167, R206). -/
def flushDrive (fuel h : Nat) (s : State) : State :=
  match fuel with
  | 0 => s
  | n + 1 =>
    match (queueOf s (iqRwd h)).entries with
    | [] => s
    | e :: _ =>
      flushDrive n h
        (if (queueOf s (iqRwd h)).stopped then doCopySwitch (iqRwd h) s
         else if writeReady s h e then issueHead 1 h s else drainPass s)

/-- A head's ingress at the start of a flush: writes with their data and IDE check go to the slices, the rest is discarded,
queued reads complete with poison; the answer counts the three. -/
def flushHead (h : Nat) (p : State × Nat × Nat × Nat) : State × Nat × Nat × Nat :=
  let (s, w, d, r) := p
  let real := fun (e : QEntry) => e.ideOk && e.rej == 0 && !(e.kind == .partialWrite && e.bad)
  let all := (queueOf s (iqRwd h)).entries
  let reads := (queueOf s (iqReq h)).entries.length
  let s := poisonReads 7 h (dropWrites h (fun e => !e.ideOk) s)
  let s := flushDrive (8 * all.length + 8) h s
  let left := ((queueOf s (iqRwd h)).entries.filter real).length
  let good := (all.filter real).length
  (s, w + (good - left), d + (all.length - good), r + reads)

/-- The replica entries whose turn comes go to the slices, the others are discarded; the answer counts the writes driven. -/
def flushReplicas (fuel : Nat) (p : State × Nat) : State × Nat :=
  match fuel with
  | 0 => p
  | n + 1 =>
    match replicaRead p.1 with
    | (s, none) => (s, p.2)
    | (s, some (l, e)) =>
      match e.kind with
      | .release => flushReplicas n (applyRelease l e s, p.2)
      | .bitmap => flushReplicas n (applyBitmap l e s, p.2)
      | _ => if amqFull s e.line then flushReplicas n (drainPass s, p.2) else flushReplicas n (applyReplica l e s, p.2 + 1)

/-- The fabric's part (R167), with QF_PF_DRAIN: RELEASE and BITMAP entries are no writes, and are not counted. -/
def flushFabric (s : State) : State :=
  let (s, w, d, r) := (headsOn s).foldl (fun p h => flushHead h p) (s, 0, 0, 0)
  let n := (queueOf s 16).occ + (queueOf s 17).occ
  let (s, k) := flushReplicas (2 * n) (s, 0)
  let left := (queueOf s 16).occ + (queueOf s 17).occ
  let s := removeEntries 17 (fun _ => true) (removeEntries 16 (fun _ => true) s)
  sed 0x0221 sNOTICE 1 (w + k) (d + left) r s

/-- Seal jobs are abandoned without a completion; the output of a running GCM_DEC is zeroed (R398). -/
def flushSeal (s : State) : State :=
  let jobs := s.vault.jobs
  let s := { s with vault := { s.vault with jobs := [], charged := 0 } }
  let s := forEach jobs (fun e s => setF (rgBusy (jq e.1)) 0 s) s
  forEach (jobs.filter (fun e => e.2.op == 2)) (fun e s =>
    forEach (List.range ((e.2.len + 63) / 64)) (fun i s =>
      let line := e.2.dst / 64 + i
      submit (moverOp .zero line e.2.dstKey (rgPath s (jq e.1)) 0 0 false) (when (amqFull s line) drainPass s)) s) s

/-- Data movers abandon their descriptors without a completion (R431). -/
def flushMovers (s : State) : State :=
  forEach s.movers (fun e s => setF (rgBusy (dmv e.1)) 0 s) { s with movers := [] }

/-- Line commands end ABORTED after their lines in flight (R200). -/
def flushLcmds (s : State) : State :=
  lcPumpAll { s with lcmds := s.lcmds.map (fun e => (e.1, { e.2 with stop := 7 })) }

/-- A firmware transfer is abandoned (R504). -/
def flushFw (s : State) : State :=
  if fwUnowned s || fld s F.SF_FW_STAT_STATE ≠ 1 then s
  else setF F.SF_FW_STAT_STATE 0 (fwDisown { s with
    flash := { s.flash with received := 0, verified := none }, mgmt := { s.mgmt with pldmFw := 0 } })

/-- Step 2 where PD_CORE is on. -/
def flushCore (s : State) : State :=
  let s := setF F.LC_STAT_FLUSHING 1 s
  let s := when (fld s F.MTL_STAT_STATE != 0) (setF F.MTL_STAT_STATE 4) s
  let s := when (fld s F.ICU_STAT_STATE != 0) (setF F.ICU_STAT_STATE 3) s
  let s := flushLcmds (flushMovers (flushSeal (flushFabric s)))
  sedFlushNow (plumbStop 3 s)

/-! ### The start (R568, R581, R598) -/

/-- Power states give way to a flush (R568): an entry is abandoned, IDLE and SLEEP end. -/
def flushPower (s : State) : State :=
  let s := idleLeave 3 (entryCut 4 s)
  if s.pwr.st = 2 then bufferToRing (modPwr (fun p => { p with st := 0, exit := none, stopped := [], quietTicks := 0 }) s)
  else s

/-- A flush starts in RUN or GUARD (R581): causes as SUPSNAP byte 6. -/
def flushBegin (cause : Nat) (s : State) : State :=
  if s.sup.st ≠ 2 ∧ s.sup.st ≠ 3 then s else
  let s := flushPower (testReset s)
  let deep := s.pwr.st == 3
  let f : Flush :=
    { cause := cause, step := 2, startTick := s.tick.count, startD := dMib s, startRes := s.sup.resV, from_ := s.sup.st
      off := cause == 1 || cause == 2 || cause == 5, deep := deep, dur := 0, vinOk := false
      mtlSt := fld s F.MTL_STAT_STATE, icuSt := fld s F.ICU_STAT_STATE }
  let s := modSup (fun x => { x with
    st := 4, flush := some f, cause := cause, charging := false, resSw := x.resSw || cause == 0 || cause == 6
    toOff := x.toOff || f.off, testing := false, testPending := x.testPending || x.testing
    guardTick := if x.st = 3 then x.guardTick else s.tick.count, guardMin := if x.st = 3 then x.guardMin else vinLow s }) s
  let s := setF F.SUP_RES_CTL_TEST 0 (satInc F.SUP_CNT_FLUSHES s)
  let s := sed 0x0D12 sNOTICE 14 cause f.startD f.startRes s
  let s := flushFw (sfFlush (ndxStop (gHoldReport s)))
  if deep || !coreOn s then s else flushCore s

/-- The end of the flush's first tick: Narrows stops (R661, R662), and records are cut (R546). -/
def flushCut (s : State) : State :=
  match s.sup.flush with
  | none => s
  | some f =>
    if f.step ≠ 2 || f.deep then s else
    let s := modSup (fun x => { x with flush := some { f with step := 3 } }) s
    if !coreOn s then s else
    let s := sedFlushNow s
    let clean := (peers s).all (fun p => (memOf s p).st == 1) && [0, 1].all (fun n => (linkOf s n).send.isEmpty)
    let s := nrwFlushSync clean (nrwFlushStop s)
    setF F.SED_STAT_CUT 1 s

/-! ### Power-down (R587 to R590) -/

/-- Step 21 or its like is complete (R588, R590): OFF, or WAIT. -/
def downEnd (s : State) : State :=
  let off := s.sup.toOff && !s.sup.onLatched
  let s := modSup (fun x => { x with
    st := if off then 6 else 0, toOff := false, offAsked := false, onLatched := false, reverse := false, resSw := false
    offTick := s.tick.count, forced := x.forced && off, seiche := 0, seicheDone := false }) s
  if off then modPwr (fun p => { p with st := 4 }) s else s

/-- Disable rails; those that are up have yet to discharge. VRES takes RES_SW with it. -/
def disable (l : List Nat) (s : State) : State :=
  modSup (fun x => { x with
    en := x.en &&& ~~~ railMask l, up := x.up &&& ~~~ railMask l, pg := x.pg &&& ~~~ (railMask l &&& x.failed)
    resSw := x.resSw && !l.contains 9 }) s

/-- Rails of the present step that have not discharged yet. -/
def discharging (s : State) : BitVec 10 := s.sup.pg &&& ~~~ s.sup.en &&& ~~~ s.sup.failed

/-- A participant that follows the group's announcements (R612, R617). -/
def inGroup (s : State) : Bool := s.sup.part && !s.sup.solo

/-- Begin power-down step n and run through the steps that complete at once; a group's member waits after each. -/
def downStep (fuel n : Nat) (s : State) : State :=
  match fuel with
  | 0 => s
  | k + 1 =>
    let l := (downRails s n).filter (fun r => s.sup.en.getLsbD r)
    let s := disable l (modSup (fun x => { x with step := n, seicheDone := false }) s)
    if discharging s ≠ 0 then s
    else if inGroup s then modSup (fun x => { x with seicheDone := true }) s
    else if 21 ≤ n then downEnd s
    else downStep k (n + 1) s

/-- R589: the enabled rails one at a time, in the reverse of their UP_STEP. -/
def reverseStep (fuel : Nat) (s : State) : State :=
  match fuel with
  | 0 => s
  | k + 1 =>
    let on := (List.range 10).filter (fun r => s.sup.en.getLsbD r)
    match on.foldl (fun (b : Option Nat) r => match b with
        | some x => if (railEnt s x).up < (railEnt s r).up then some r else b
        | none => some r) none with
    | none => downEnd s
    | some r =>
      let s := disable [r] s
      if discharging s ≠ 0 then s else reverseStep k s

/-- Every domain but PD_AON loses its power (R581, R587). -/
def domainsDown (s : State) : State :=
  let s := testReset (domainsReset s)
  modSup (fun x => { x with t0 := false, st := 5, flush := none, nodis := 0, charging := false, testing := false, dCap := none }) s

/-- Step 14 starts (R598, R600). -/
def goDown (s : State) : State := downStep 8 14 (domainsDown s)

/-- An off request, or VIN below V_FAIL, during power-up: once the current step is complete (R589). -/
def upCancel (s : State) : State :=
  reverseStep 11 (testReset <| modSup (fun x => { x with st := 5, reverse := true, nodis := 0, toOff := x.toOff || x.offAsked }) s)

/-! ### Power-up (R583 to R586) -/

/-- SHADOW may be taken as current (R536). -/
def shadowCurrent (s : State) : Bool :=
  let sh := gShadow s
  let sn := gSupsnap s
  (gTreeRoot s).clean && !gBad s G.shadow && !(sn.cause == 8 && !gBad s G.supsnap && decide (sh.cal < sn.cal))

/-- T0: PD_MGMT leaves reset (R586). What the recorder will find of the sequence is settled here (R547). -/
def releaseT0 (s : State) : State :=
  bufferToRing (modSup (fun x => { x with t0 := true, st := 2, step := 12, flush := none, seiche := 13, seicheDone := true })
    { s with sed := { s.sed with gap := !shadowCurrent s } })

/-- Bytes 0 to 7 of a snapshot as SUP_SNAPSHOT gives them (R608). -/
def snapFlags (x : SupSnap) : Nat :=
  (if x.completed then 1 else 0) + (if x.ride then 2 else 0) + (if x.fromVaon then 4 else 0) + (if x.solo then 8 else 0)

/-- Step 12 is complete (R586, R608; R57 and R610 for the cause of the start). -/
def upDone (s : State) : State :=
  let ms := (s.tick.count - s.sup.upTick) / 250
  let s := when s.sup.flushed.isSome (setF F.GLB_RESET_CAUSE_PFAIL 1) s
  let s := when (s.sup.forced || s.sup.flushed == some 2) (setF F.GLB_RESET_CAUSE_FORCEOFF 1) s
  let s := releaseT0 (modSup (fun x => { x with flushed := none, forced := false }) s)
  let s := sed 0x0D00 sINFO 14 ms s.sup.failed.toNat (if s.sup.part then 1 else 0) s
  let sn := gSupsnap s
  chargeEval (sed 0x0D30 sINFO 14 (sn.cal % 2 ^ 32) (sn.cal / 2 ^ 32 % 65536 + sn.cause * 65536 + snapFlags sn * 2 ^ 24) 0 s)

/-- Begin power-up step n and run through the steps that complete at once. -/
def upStep (fuel n : Nat) (s : State) : State :=
  match fuel with
  | 0 => s
  | k + 1 =>
    let l := upRails s n
    let s := modSup (fun x => { x with step := n, seicheDone := false, en := x.en ||| railMask l }) s
    if !l.isEmpty then s
    else if s.sup.offAsked || s.sup.vinBad then upCancel s
    else if inGroup s then modSup (fun x => { x with seicheDone := true }) s
    else if 12 ≤ n then upDone s
    else upStep k (n + 1) s

/-- The current power-up step is complete. -/
def upNext (s : State) : State :=
  if s.sup.offAsked || s.sup.vinBad then upCancel s
  else if inGroup s then modSup (fun x => { x with seicheDone := true }) s
  else if 12 ≤ s.sup.step then upDone s
  else upStep 12 (s.sup.step + 1) s

/-- Step 1 starts (R582), with the rail table of the Gauge copy (R71); what the last power-up left ends (R604, R605). -/
def upStart (s : State) : State :=
  let b := (gNdxsel s).2.1
  let s := modSup (fun x => { x with
    st := 1, rails := railsOf b, vWarn := at' b 80 2, vFail := at' b 82 2, en := 0, pg := 0, up := 0, failed := 0
    upTick := s.tick.count, vinBad := false, refclk := true, offAsked := false, reverse := false
    faulted := false, everCharged := false, firstTarget := false, testing := false, testPending := false
    budget := 0, dCap := none, solo := false, guardMin := 0xFFFF }) s
  let s := setF F.GLB_STATE_FAILED_RAILS 0 s |> setF F.SUP_RES_TEST_FAULT 0 |> setF F.SUP_RES_CTL_TEST 0
  upStep 12 1 (modPwr (fun p => { p with st := 0 }) s)

/-! ### What follows a flush (R601, R602) -/

/-- Device reset with the rails up (R602): every domain but PD_AON, then a new T0. -/
def deviceReset (cause dur : Nat) (s : State) : State :=
  let s := releaseT0 (domainsReset s)
  let s := if cause = 3 then setF F.GLB_RESET_CAUSE_MR 1 s else setF F.GLB_RESET_CAUSE_MBOX 1 s
  chargeEval (sed 0x0D42 sNOTICE 14 (if cause = 3 then 0 else 1) dur 0 (modSup (fun x => { x with resSw := false }) s))

/-- No rail has been dropped, VIN is back, and no off request came (R590, R601). -/
def rideMay (f : Flush) (s : State) : Bool :=
  f.vinOk && !f.off && !s.sup.toOff && s.sup.up &&& ~~~ s.sup.pg == 0

/-- The input is back: GUARD again, and every unit leaves its flush behaviour (R601). -/
def rideThrough (f : Flush) (s : State) : State :=
  let s := modSup (fun x => { x with st := 3, resSw := false, flush := none, flushed := none, vinBad := false, seiche := 13, seicheDone := true }) s
  let s := setF F.SUP_FLUSH_RIDE 1 (satInc F.SUP_CNT_RIDES s)
  if f.deep then
    let s := sed 0x0D15 sWARNING 14 f.dur s.sup.guardMin 0 s
    modPwr (fun p => { p with exit := some (3, 0, s.tick.count) }) s
  else if !coreOn s then sed 0x0D15 sWARNING 14 f.dur s.sup.guardMin 0 s
  else
    let s := setF F.LC_STAT_FLUSHING 0 s |> setF F.SED_STAT_CUT 0 |> setF F.MTL_STAT_STATE f.mtlSt |> setF F.ICU_STAT_STATE f.icuSt
    pump (raiseEval 0 (sed 0x0D15 sWARNING 14 f.dur s.sup.guardMin 0 s))

/-- Step 4 is durable: FLUSH_DONE, then what the cause asks for. A SEICHE group's member waits for the next
announcement, but for MR_N and RESET_DEVICE, which are its own (R614, R616). -/
def flushEnd (f : Flush) (s : State) : State :=
  let s := modSup (fun x => { x with flushed := some f.cause, flush := some { f with step := 5 } }) s
  let s := setF F.SUP_FLUSH_RIDE 0 (sed 0x0D13 sNOTICE 14 f.cause f.dur s.sup.resV s)
  let s := when (f.cause == 3) testPin s
  if (f.cause = 3 ∨ f.cause = 4) ∧ !f.off ∧ !s.sup.toOff then
    deviceReset f.cause f.dur (modSup (fun x => { x with flushed := none }) s)
  else if inGroup s then modSup (fun x => { x with seicheDone := true }) s
  else if f.cause = 0 ∧ rideMay f s then rideThrough f s
  else goDown s

/-! ### Steps 3 and 4 (R598, R599) -/

/-- TREE_ROOT is written with CLEAN 1, but in a ROOT_UNCLEAN halt without DISCARD (R338). -/
def rootClean (s : State) : Bool := !(inHalt s && bit s F.ICU_STAT_ROOT_UNCLEAN && !s.icu.discardArmed)

/-- The closing Gauge writes, in order (R535, R337, R608). A tree that has not been recovered yet is not written. -/
def flushClose (f : Flush) (s : State) : State :=
  let ride := f.cause == 0 && rideMay f s
  let s := modSup (fun x => { x with flush := some { f with step := 4 } }) s
  let s := gPut G.shadow (.shadow (shadowNow s)) true none .none s
  let s := if f.deep then putTreeRoot true s else if f.icuSt != 0 && coreOn s then putTreeRoot (rootClean s) s else s
  putSnap (snapNow f.cause true ride false s) s

/-- No priority write waits in the Gauge. -/
def prioIdle (s : State) : Bool := s.gauge.cur.isNone && s.gauge.prioQ.isEmpty && s.gauge.waiting.all (fun r => !r.prio)

/-- FLUSH_DONE's effect: steps 3 and 4 run; the flush ends when they are durable. -/
def doFlushDone (vinOk : Bool) (dur : Nat) (s : State) : State :=
  match s.sup.flush with
  | none => s
  | some f =>
    if s.sup.st ≠ 4 ∨ 5 ≤ f.step then s else
    let s := flushCut s
    let busy := !f.deep && coreOn s && f.mtlSt != 0
    let s := if busy && f.step ≤ 3 then lcPumpAll (drain s) else s
    if busy && !drained s then s else
    let s := if f.step ≤ 3 then flushClose { f with dur := dur, vinOk := vinOk } s else s
    let s := gRun (gFuel s) s
    match s.sup.flush with
    | some g => if prioIdle s then flushEnd g s else s
    | none => s

/-- FLUSH_DONE (R598, R601, R602): `vinOk` is VIN at or above V_FAIL + 0.30 V for 500 microseconds, `dur` the flush's
duration in 10 microseconds. -/
def execFlushDone (vinOk : Bool) (dur : Nat) (s : State) : Host.Outcome State Fault Refusal := run (doFlushDone vinOk dur) s

/-- FLUSH_INCOMPLETE's effect (R600, R122): 0 the Reservoir at 13 V, 1 a closed window. -/
def doFlushIncomplete (why : Nat) (s : State) : State :=
  match s.sup.flush with
  | none => s
  | some f =>
    if s.sup.st ≠ 4 ∨ 4 ≤ f.step ∨ 2 ≤ why then s
    else if why = 1 && (List.range (fusedChans s)).all (fun c => !windowHeld s c) then s
    else
      let s := modSup (fun x => { x with flushed := some f.cause }) s
      let s := { s with mgmt := { s.mgmt with dirtyShutdowns := s.mgmt.dirtyShutdowns + 1 } }
      let s := sed 0x0D14 sCRITICAL 14 f.cause why (dMib s) s
      let s := putSnap (snapNow f.cause false false false s) s
      goDown (gRun (gFuel s) s)

/-- FLUSH_INCOMPLETE (R600). -/
def execFlushIncomplete (why : Nat) (s : State) : Host.Outcome State Fault Refusal := run (doFlushIncomplete why) s

end Sys2Proof.Machine
end

