-- ==== Sys2Proof/Machine/Supervisor.lean ====
section
/-! DEFINITION. The supervisor's commands (chapter 15): sequencing, GUARD, the Reservoir, SEICHE, buttons and resets, the
detectors of VAUX, and REFCLK loss (R704). -/

namespace Sys2Proof.Machine

/-! ### PD_AON leaves reset (R520, R535, R536, R580, R705) -/

/-- PD_AON starts: its logic from reset, Gauge resolved, the shadowed values taken back. Log entry 84. -/
def aonStart (s : State) : State :=
  let s := domainsReset s
  let s := if s.gauge.cur.isSome then (gWriteEnd true s).1 else s
  let old := s.sup
  let g : Gauge := { s.gauge with cur := none, prioQ := [], normQ := [], waiting := [], held := none }
  let sup : Sup := { Sup.init with
    st := 0, step := 0, t0 := false, en := 0, pg := 0, up := 0, part := old.part, leader := old.leader, seiche := 0
    seicheDone := false, forced := old.forced, mrLow := old.mrLow }
  let sedm : Sediment := { Sediment.init with region := s.sed.region, fresh := s.sed.fresh }
  let s := { s with
    regs := [], gauge := g, tick := Tick.init, sup := sup, therm := Therm.init, sed := sedm, pwr := Power.init, jtag := Jtag.init }
  let sh := gShadow s
  let sn := gSupsnap s
  let ok := shadowCurrent s
  let shThere := !gBad s G.shadow
  let cal := if ok then sh.cal else max (if shThere then sh.cal else 0) (if gBad s G.supsnap then 0 else sn.cal)
  let snapped := !gBad s G.supsnap && gSeq s G.supsnap != 0
  let sedm : Sediment := { s.sed with
    next := if shThere then sh.sedNext else 0, mark := if ok then sh.mark else 0, lost := if ok then sh.lost else 0, gap := !ok }
  let s := { s with sed := sedm, tick := { s.tick with cal := cal } }
  let s := modSup (fun x => { x with
    snap := sn, cEff := if snapped && sn.cEff != 0 then sn.cEff else 220
    flushed := if snapped && sn.cause != 8 then some sn.cause else none }) s
  let s := { s with media := { s.media with dies := s.media.dies.map (fun e => (e.1, { e.2 with da := if e.2.da = 1 then 2 else e.2.da })) } }
  let s := setF F.TICK_CAL_STAT_SUBMS (if ok then sh.sub else 0) s |> setF F.GLB_RESET_CAUSE_POR 1
  let s := setF F.GLB_DEVID_DEVID (s.devid % 4096) s |> setB F.GLB_DEVID_RECOVER s.mgmt.recoverPin
  gRecover (gResolve s)

/-- PD_AON_RELEASE's effect: DEVID in bits 11:0 of the straps, BOOT_RECOVER_N in bit 12. -/
def doAonRelease (straps : Nat) (s : State) : State :=
  if s.sup.st ≠ 7 then s else
  aonStart { s with devid := straps % 4096, mgmt := { s.mgmt with recoverPin := !straps.testBit 12 } }

/-- PD_AON_RELEASE (R520, R580, R705). -/
def execPdAonRelease (straps : Nat) (s : State) : Host.Outcome State Fault Refusal := run (doAonRelease straps) s

/-- VAUX_POR's effect: PD_AON and every domain are reset, with a Gauge write in progress torn. -/
def doVauxPor (s : State) : State :=
  let s := if s.gauge.cur.isSome then (gWriteEnd true s).1 else s
  let g : Gauge := { s.gauge with cur := none, prioQ := [], normQ := [], waiting := [], held := none }
  domainsReset { s with gauge := g, sup := { Sup.init with
    st := 7, step := 0, t0 := false, en := 0, pg := 0, up := 0, part := s.sup.part, leader := s.sup.leader, forced := s.sup.forced
    mrLow := s.sup.mrLow }, therm := Therm.init }

/-- VAUX_POR (R580). -/
def execVauxPor (s : State) : Host.Outcome State Fault Refusal := run doVauxPor s

/-- VAUX_LOSS_SNAPSHOT's effect: SUPSNAP alone is written, from VAON (R607). -/
def doVauxLoss (s : State) : State :=
  if 6 ≤ s.sup.st then s else
  let x := snapNow 8 false false true s
  (gWriteCopy G.supsnap (gFmt s G.supsnap) (.supsnap x) (modSup (fun u => { u with snap := x }) s)).1

/-- VAUX_LOSS_SNAPSHOT (R607). -/
def execVauxLossSnapshot (s : State) : Host.Outcome State Fault Refusal := run doVauxLoss s

/-- WAKE_N in OFF: PD_AON is powered (R574, R581). -/
def execWakeNOff (s : State) : Host.Outcome State Fault Refusal := run (fun s => if s.sup.st = 6 then aonStart s else s) s

/-! ### Sequencing (R582 to R590) -/

/-- POWER_UP_START's effect: the conditions of R582 hold; a SEICHE participant releases the line and waits for the leader's
state 1. -/
def doUpStart (s : State) : State :=
  if s.sup.st ≠ 0 ∨ (s.sup.offTick ≠ 0 ∧ s.tick.count < s.sup.offTick + 25000) then s
  else if s.sup.part then modSup (fun x => { x with solo := false, vinBad := false, seicheDone := true }) s
  else upStart s

/-- POWER_UP_START (R582). -/
def execPowerUpStart (s : State) : Host.Outcome State Fault Refusal := run doUpStart s

/-- RAIL_STEP_DONE's effect: `pg` names the rails of the step that are up; with each up or FAILED the step is complete. -/
def doStepDone (pg : BitVec 10) (s : State) : State :=
  if s.sup.st ≠ 1 ∨ s.sup.seicheDone then s else
  let m := railMask (upRails s s.sup.step)
  let new := pg &&& m &&& ~~~ s.sup.failed
  let s := modSup (fun x => { x with pg := x.pg ||| new, up := x.up ||| new }) s
  if m &&& ~~~ (s.sup.up ||| s.sup.failed) = 0 then upNext s else s

/-- RAIL_STEP_DONE (R583, R586). -/
def execRailStepDone (pg : BitVec 10) (s : State) : Host.Outcome State Fault Refusal := run (doStepDone pg) s

/-- RAIL_PG_TIMEOUT's effect: the rail becomes FAILED with its enable kept (R584). -/
def doPgTimeout (rail : Nat) (s : State) : State :=
  if s.sup.st ≠ 1 ∨ !(upRails s s.sup.step).contains rail ∨ s.sup.up.getLsbD rail ∨ s.sup.failed.getLsbD rail then s else
  let s := modSup (fun x => { x with failed := x.failed ||| railMask [rail] }) s
  let s := setF F.GLB_STATE_FAILED_RAILS s.sup.failed.toNat s
  sed 0x0D01 sERROR 14 rail s.sup.step (railEnt s rail).tPg s

/-- RAIL_PG_TIMEOUT (R584). -/
def execRailPgTimeout (rail : Nat) (s : State) : Host.Outcome State Fault Refusal := run (doPgTimeout rail) s

/-- RAIL_DISCHARGE_DONE's effect: `left` names the rails of the step that had not discharged after T_DIS (R587). -/
def doDischarge (left : BitVec 10) (s : State) : State :=
  if s.sup.st ≠ 5 ∨ discharging s = 0 then s else
  let left := left &&& discharging s
  let s := modSup (fun x => { x with nodis := x.nodis ||| left, pg := x.pg &&& ~~~ discharging s }) s
  let s := forEach ((List.range 10).filter (fun n => left.getLsbD n)) (fun n s =>
    let (v, s) := draw 16 s
    sed 0x0D02 sWARNING 14 n v.toNat s.sup.step s) s
  if s.sup.reverse then reverseStep 11 s
  else if inGroup s then modSup (fun x => { x with seicheDone := true }) s
  else if 21 ≤ s.sup.step then downEnd s
  else downStep 8 (s.sup.step + 1) s

/-- RAIL_DISCHARGE_DONE (R587, R588). -/
def execRailDischargeDone (left : BitVec 10) (s : State) : Host.Outcome State Fault Refusal := run (doDischarge left) s

/-- ON_REQUEST_LATCHED's effect: 0 WAKE_N, 1 VIN back, 2 SEICHE state 1 (R590). -/
def doOnRequest (src : Nat) (s : State) : State :=
  if src < 3 ∧ (s.sup.st = 5 ∨ (s.sup.st = 4 ∧ s.sup.toOff)) then modSup (fun x => { x with onLatched := true }) s else s

/-- ON_REQUEST_LATCHED (R590). -/
def execOnRequestLatched (src : Nat) (s : State) : Host.Outcome State Fault Refusal := run (doOnRequest src) s

/-! ### SEICHE (R612 to R617) -/

/-- State 23 (R617): `cause` 0 frame, 1 leader silent, 2 barrier timeout, 3 announced. A leader announces it; what the
device has under way it finishes alone. -/
def seicheFault (cause : Nat) (s : State) : State :=
  if !inGroup s then s else
  let old := seicheShown s
  let pos := match s.cfg with | some c => c.pos | none => 0
  let s := when s.sup.leader (emit (.seicheFrame 23)) s
  let s := setF F.SUP_SEICHE_FAULT 1 (modSup (fun x => { x with solo := true, seiche := 23 }) s)
  let s := sed 0x0D51 sERROR 14 old cause pos s
  if !s.sup.seicheDone then s
  else if s.sup.st = 1 then upNext s
  else if s.sup.st = 5 then (if 21 ≤ s.sup.step then downEnd s else downStep 8 (s.sup.step + 1) s)
  else if s.sup.st = 4 then
    (match s.sup.flush with | some f => if f.step = 5 then goDown s else s | none => s)
  else s

/-- SEICHE_FAULT (R617). -/
def execSeicheFault (cause : Nat) (s : State) : Host.Outcome State Fault Refusal :=
  run (fun s => if (cause = 1 ∧ !s.sup.leader) ∨ (cause = 2 ∧ s.sup.leader) ∨ cause = 0 ∨ cause = 3 then seicheFault cause s else s) s

/-- A long press or a thermal shutdown takes its participant out of the group (R616, R617); the record's cause has no code
for it and is a free value. -/
def seicheLeave (s : State) : State :=
  if !inGroup s then s else
  let (c, s) := draw 8 s
  seicheFault c.toNat s

/-- A flush with a cause of the device's own (R581, R614 to R617): a leader announces 22, a follower asks for it. A
follower's off request waits for the leader's announcement. -/
def flushStart (cause : Nat) (s : State) : State :=
  if s.sup.st ≠ 2 ∧ s.sup.st ≠ 3 then s
  else if cause = 2 ∨ cause = 5 then flushBegin cause (seicheLeave s)
  else if !inGroup s || cause == 3 || cause == 4 || cause == 7 then flushBegin cause s
  else if s.sup.leader then
    flushBegin cause (emit (.seicheFrame 22) (modSup (fun x => { x with seiche := 22, seicheDone := false }) s))
  else
    let s := emit .seichePulse s
    if cause = 1 then modSup (fun x => { x with offAsked := true }) s else flushBegin cause s

/-- Begin the board state n that was announced (R614); the answer is none where it may not come next. -/
def seicheBegin (n : Nat) (s : State) : Option State :=
  let c := s.sup.seiche
  let st := s.sup.st
  let at_ := fun (s : State) => modSup (fun x => { x with seiche := n, seicheDone := false }) s
  let rec_ := fun (s : State) => sed 0x0D50 sDEBUG 14 c n (if s.sup.leader then 1 else 0) s
  if c = 0 ∧ n = 1 ∧ st = 0 then
    some (let s := rec_ (at_ s); if s.sup.vinBad then s else modSup (fun x => { x with seiche := 1 }) (upStart s))
  else if 1 ≤ c ∧ c < 12 ∧ n = c + 1 ∧ st = 1 then some (upStep 1 n (rec_ (at_ s)))
  else if c = 12 ∧ n = 13 ∧ st = 1 then some (upDone (rec_ (at_ s)))
  else if c = 13 ∧ n = 22 then
    let s := rec_ (at_ s)
    if st = 2 ∨ st = 3 then some (flushBegin (if s.sup.offAsked then 1 else 7) s)
    else
      let done := match s.sup.flush with | some f => f.step == 5 | none => false
      some (modSup (fun x => { x with seicheDone := done }) s)
  else if c = 22 ∧ n = 13 ∧ st = 4 then
    match s.sup.flush with
    | some f =>
      if !f.vinOk || f.off || s.sup.toOff then none
      else some (rideThrough f (rec_ (at_ s)))
    | none => none
  else if c = 22 ∧ n = 14 ∧ st = 4 then some (downStep 1 14 (rec_ (at_ (domainsDown s))))
  else if 14 ≤ c ∧ c < 21 ∧ n = c + 1 ∧ st = 5 then some (downStep 1 n (rec_ (at_ s)))
  else if c = 21 ∧ n = 0 ∧ st = 5 then some (downEnd (rec_ (at_ s)))
  else none

/-- SEICHE_FRAME's effect: a frame with bad parity, a state above 23 or out of turn is a fault (R617). A change of state is
wake source 6. -/
def doSeicheFrame (num : Nat) (parityOk : Bool) (s : State) : State :=
  if !inGroup s || s.sup.leader then s
  else if !parityOk || 23 < num then seicheFault 0 (satInc F.SUP_SEICHE_FRAME_ERR s)
  else if num = 23 then seicheFault 3 s
  else
    match seicheBegin num s with
    | some t => wakeStart 6 t
    | none => seicheFault 0 (satInc F.SUP_SEICHE_FRAME_ERR s)

/-- SEICHE_FRAME (R613, R614). -/
def execSeicheFrame (num : Nat) (parityOk : Bool) (s : State) : Host.Outcome State Fault Refusal := run (doSeicheFrame num parityOk) s

/-- The state that the leader announces next (R614): after 22, 13 when R601 holds for it. -/
def seicheNext (s : State) : Option Nat :=
  let c := s.sup.seiche
  if c < 13 then some (c + 1)
  else if c = 22 then
    match s.sup.flush with
    | some f => some (if f.cause == 0 && rideMay f s then 13 else 14)
    | none => some 14
  else if c < 13 + 8 ∧ 14 ≤ c then some (c + 1)
  else if c = 21 then some 0
  else none

/-- SEICHE_BARRIER's effect: the line has been high for 20 microseconds; `vinOk` is R601's condition on the leader's VIN. -/
def doSeicheBarrier (vinOk : Bool) (s : State) : State :=
  if !inGroup s || !s.sup.leader || !s.sup.seicheDone then s else
  let s := modSup (fun x => { x with flush := x.flush.map (fun f => { f with vinOk := f.vinOk && vinOk }) }) s
  match seicheNext s with
  | none => s
  | some n =>
    match seicheBegin n s with
    | some t => emit (.seicheFrame n) t
    | none => s

/-- SEICHE_BARRIER (R612 to R614). -/
def execSeicheBarrier (vinOk : Bool) (s : State) : Host.Outcome State Fault Refusal := run (doSeicheBarrier vinOk) s

/-- SEICHE_REQUEST's effect: a follower's pulse of 200 to 1,000 microseconds in state 13 (R615). -/
def doSeicheRequest (us : Nat) (s : State) : State :=
  if !inGroup s || !s.sup.leader || us < 200 || 1000 < us || s.sup.seiche ≠ 13 then s else
  match seicheBegin 22 s with
  | some t => emit (.seicheFrame 22) t
  | none => s

/-- SEICHE_REQUEST (R614, R615). -/
def execSeicheRequest (us : Nat) (s : State) : Host.Outcome State Fault Refusal := run (doSeicheRequest us) s

/-! ### VIN, power-good and REFCLK (R579, R591 to R595, R704) -/

/-- GUARD_ENTER's effect (R592). -/
def doGuardEnter (vin : Nat) (s : State) : State :=
  if s.sup.st ≠ 2 then s else
  let s := modSup (fun x => { x with st := 3, charging := false, guardTick := s.tick.count, guardMin := vin }) (vinSeen vin s)
  let s := sed 0x0D10 sNOTICE 14 vin (dMib s) s.sup.budget (satInc F.SUP_GUARD_COUNT s)
  if coreOn s then raiseEval 0 s else s

/-- GUARD_ENTER (R592). -/
def execGuardEnter (vin : Nat) (s : State) : Host.Outcome State Fault Refusal := run (doGuardEnter vin) s

/-- GUARD_END's effect (R594). -/
def doGuardEnd (vin : Nat) (s : State) : State :=
  if s.sup.st ≠ 3 then s else
  let low := s.sup.guardMin
  let ms := (s.tick.count - s.sup.guardTick) / 250
  let s := modSup (fun x => { x with st := 2, vinBad := false }) (vinSeen vin s)
  let s := sed 0x0D11 sWARNING 14 low ms 0 s
  let s := chargeEval (if coreOn s then raiseEval 0 s else s)
  pump s

/-- GUARD_END (R594). -/
def execGuardEnd (vin : Nat) (s : State) : Host.Outcome State Fault Refusal := run (doGuardEnd vin) s

/-- VIN_FAIL (R581, R589, R598): a flush in RUN or GUARD; in power-up the sequence turns round after its step. -/
def execVinFail (vin : Nat) (s : State) : Host.Outcome State Fault Refusal :=
  run (fun s => if 6 ≤ s.sup.st then s else flushStart 0 (modSup (fun x => { x with vinBad := true }) (vinSeen vin s))) s

/-- FLUSH_START (R581, R598): a cause of SUPSNAP byte 6 in RUN or GUARD. -/
def execFlushStart (cause : Nat) (s : State) : Host.Outcome State Fault Refusal :=
  run (fun s => if cause < 8 then flushStart cause s else s) s

/-- RAIL_PG_LOST's effect (R591). -/
def doPgLost (rail : Nat) (s : State) : State :=
  if (s.sup.st ≠ 2 ∧ s.sup.st ≠ 3) ∨ !s.sup.up.getLsbD rail ∨ !s.sup.pg.getLsbD rail then s else
  let s := modSup (fun x => { x with pg := x.pg &&& ~~~ railMask [rail] }) s
  let s := setF F.SUP_RAIL_LOST_LOST (fld s F.SUP_RAIL_LOST_LOST ||| 2 ^ rail) s
  let s := sed 0x0D03 sERROR 14 rail s.sup.st 0 s
  if rail = 2 ∨ rail = 3 then
    let s := forEach (headsOn s) (fun h s => modHead h (fun x => { x with released := false }) (linkDown h 0 s)) s
    if rail = 2 then forEach [0, 1] (fun n s => linkLost n 1 0 s) s else s
  else if rail = 9 then modSup (fun x => { x with budget := 0, charging := false }) s
  else flushStart 6 s

/-- RAIL_PG_LOST (R591). -/
def execRailPgLost (rail : Nat) (s : State) : Host.Outcome State Fault Refusal := run (doPgLost rail) s

/-- REFCLK_LOST's effect (R704). -/
def doRefclkLost (s : State) : State :=
  if 6 ≤ s.sup.st || !s.sup.refclk then s else
  let run_ := s.sup.st == 2 || s.sup.st == 3
  let s := modSup (fun x => { x with refclk := false }) s
  let s := sed 0x0060 sCRITICAL 16 (min s.sup.st 5) (s.tick.count % 2 ^ 32) (if run_ then 1 else 0) s
  let s := if isFollower s && bit s F.TICK_SYNC_STAT_LOCKED then doSyncLost 0 s else s
  flushStart 6 s

/-- REFCLK_LOST (R704). -/
def execRefclkLost (s : State) : Host.Outcome State Fault Refusal := run doRefclkLost s

/-! ### The Reservoir (R603 to R606) -/

/-- B in MiB at a Reservoir voltage in 10 mV (R596): 0.85 E less 0.170 J, in units of 1.2 mJ, with E from C_eff in 10 µF. -/
def budgetAt (s : State) (v : Nat) : Nat := ((425 * s.sup.cEff * (v * v - 1690000)) - 170000000000) / 1200000000

/-- The Reservoir becomes FAULTED (R604, R605). -/
def resFault (code v : Nat) (s : State) : State :=
  let s := modSup (fun x => { x with faulted := true, charging := false, budget := 0 }) s
  sed 0x0D21 sCRITICAL 14 code v 0 (setF F.SUP_RES_TEST_FAULT code s)

/-- A self-test may run (R605). -/
def testMay (s : State) : Bool := s.sup.st == 2 && s.pwr.st == 0 && bit s F.THM_WINDOW_RES && !s.sup.testing

/-- A self-test starts, or is deferred (R605). -/
def testStart (s : State) : State :=
  let s := setF F.SUP_RES_CTL_TEST 1 s
  if testMay s then modSup (fun x => { x with testing := true, testPending := false, charging := false }) s
  else modSup (fun x => { x with testPending := true }) s

/-- RES_CHARGED's effect (R603, R605): the Reservoir is at TARGET; the first arrival writes its record and asks for a
self-test. -/
def doResCharged (ms : Nat) (s : State) : State :=
  let first := !s.sup.firstTarget
  if !s.sup.charging && !(s.sup.everCharged && first && s.sup.st == 2) then s else
  let s := modSup (fun x => { x with charging := false, everCharged := true, firstTarget := true, resV := max x.resV (resTarget s) }) s
  if first then testStart (sed 0x0D20 sINFO 14 ms (fld s F.SUP_RES_CTL_TARGET) 0 s) else s

/-- RES_CHARGED (R603). -/
def execResCharged (ms : Nat) (s : State) : Host.Outcome State Fault Refusal := run (doResCharged ms) s

/-- RES_FAULT (R604): 1 CHG_TIMEOUT below 28.0 V, 2 OV above 31.5 V. -/
def execResFault (why v : Nat) (s : State) : Host.Outcome State Fault Refusal :=
  run (fun s =>
    if 6 ≤ s.sup.st ∨ s.sup.faulted then s
    else if (why = 1 ∧ v < 2800) ∨ (why = 2 ∧ 3150 < v) then resFault why v (modSup (fun x => { x with resV := v }) s)
    else s) s

/-- RES_TEST_START (R605): 0 the first charge, 1 the period of 4,096 epochs, 2 SUP_RES_CTL.TEST. -/
def execResTestStart (cause : Nat) (s : State) : Host.Outcome State Fault Refusal :=
  run (fun s =>
    if 6 ≤ s.sup.st ∨ s.sup.testing then s
    else if cause = 1 ∧ epoch s < s.sup.testEpoch + 4096 then s
    else if cause < 3 then testStart s else s) s

/-- D_MAX in quarter MiB (R606): 16 MiB for each seal queue. -/
def dMax (s : State) : Nat := 4 * 261 + 1 + (if fusedSeal s then 4 * 16 * 8 else 0)

/-- RES_TEST's effect: C_eff in 10 µF and ESR in mΩ, as measured (R605). -/
def doResTest (cEff esr : Nat) (s : State) : State :=
  if !s.sup.testing then s else
  let s := modSup (fun x => { x with testing := false, cEff := cEff, esr := esr, testEpoch := epoch s }) s
  let s := setF F.SUP_RES_CTL_TEST (if s.sup.testPending then 1 else 0) s
  let b := budgetAt s (resTarget s)
  let s := sed 0x0D22 sINFO 14 cEff esr b s
  let s := if cEff < 100 then resFault 3 s.sup.resV s else if 1000 < esr then resFault 4 s.sup.resV s else s
  let s := if 4 * b < dMax s then sed 0x0D23 sWARNING 14 b (dMax s / 4) cEff s else s
  chargeEval s

/-- RES_TEST (R605). -/
def execResTest (cEff esr : Nat) (s : State) : Host.Outcome State Fault Refusal := run (doResTest cEff esr) s

/-! ### Registers (R625) -/

/-- A write of a SUP register: a management path's alone. TARGET outside 250 to 310 and RATE outside 4 to 56 are ignored. -/
def doSupWrite (path addr : Nat) (v : BitVec 32) (s : State) : State :=
  if !isMgmt path then s
  else if addr = Reg.SUP_RES_CTL then
    let t := F.SUP_RES_CTL_TARGET.get v
    let s := if 250 ≤ t ∧ t ≤ 310 then setF F.SUP_RES_CTL_TARGET t s else s
    let s := if v.getLsbD 16 && !bit s F.SUP_RES_CTL_TEST then testStart s else s
    chargeEval s
  else if addr = Reg.SUP_GUARD then
    let r := F.SUP_GUARD_RATE.get v
    if 4 ≤ r ∧ r ≤ 56 then setF F.SUP_GUARD_RATE r s else s
  else if addr = Reg.SUP_RAIL_LOST then setF F.SUP_RAIL_LOST_LOST (fld s F.SUP_RAIL_LOST_LOST &&& (1023 - F.SUP_RAIL_LOST_LOST.get v)) s
  else if addr = Reg.SUP_SEICHE ∧ F.SUP_SEICHE_FAULT.get v = 1 then setF F.SUP_SEICHE_FAULT 0 s
  else s

/-- SUP_REG_WRITE (R625). -/
def execSupRegWrite (path addr : Nat) (v : BitVec 32) (s : State) : Host.Outcome State Fault Refusal := run (doSupWrite path addr v) s

/-! ### Buttons and MR_N (R609 to R611) -/

/-- BTN_PRESS's effect: a press of 50 ms up to 8.0 s. -/
def doBtn (ms : Nat) (s : State) : State :=
  if ms < 50 ∨ 8000 ≤ ms ∨ 6 ≤ s.sup.st then s else
  let s := satInc F.SUP_BTN_PRESSES s
  if s.pwr.st = 2 ∨ s.pwr.st = 3 then wakeStart 1 s
  else if s.sup.st = 2 ∨ s.sup.st = 3 then sed 0x0D40 sINFO 14 ms s.sup.st 0 s
  else s

/-- BTN_PRESS (R609). -/
def execBtnPress (ms : Nat) (s : State) : Host.Outcome State Fault Refusal := run (doBtn ms) s

/-- FORCE_OFF's effect: nothing refuses it (R610). -/
def doForceOff (s : State) : State :=
  if 6 ≤ s.sup.st then s else
  let s := sed 0x0D41 sWARNING 14 (dMib s) 0 0 (setF F.SUP_BTN_HELD 1 s)
  let s := modSup (fun x => { x with forced := true, toOff := true, onLatched := false }) s
  if s.sup.st = 0 then modPwr (fun p => { p with st := 4 }) (modSup (fun x => { x with st := 6 }) s)
  else if s.sup.st = 1 then modSup (fun x => { x with offAsked := true }) s
  else if s.sup.st = 4 then
    modSup (fun x => { x with cause := 2, flush := x.flush.map (fun f => { f with off := true, cause := if f.step < 4 then 2 else f.cause }) }) s
  else flushStart 2 s

/-- FORCE_OFF (R610). -/
def execForceOff (s : State) : Host.Outcome State Fault Refusal := run doForceOff s

/-- MR_N_ASSERT (R611). -/
def execMrNAssert (s : State) : Host.Outcome State Fault Refusal :=
  run (fun s => if 6 ≤ s.sup.st then s else
    flushStart 3 (testPin <| setF F.SUP_BTN_MR 1 (modSup (fun x => { x with mrLow := true }) s))) s

/-- MR_N_RELEASE (R611): the PD_MGMT reset that it held ends, so that start-up runs from this T0. -/
def execMrNRelease (s : State) : Host.Outcome State Fault Refusal :=
  run (fun s => testReset (setF F.SUP_BTN_MR 0 (modSup (fun x => { x with mrLow := false }) s))) s

end Sys2Proof.Machine
end

