-- ==== Sys2Proof/Machine/Thermal.lean ====
section
/-! DEFINITION. Thermocline's housekeeping round (R596, R597, R619 to R624): readings, sensor failures, levels, windows,
the dirty budget, charging and the shutdown. -/

namespace Sys2Proof.Machine

def modTherm (f : Therm → Therm) (s : State) : State := { s with therm := f s.therm }

/-! ### Readings (R619, R620) -/

/-- A channel's sensor lies in a domain that is ON, and the part has it. -/
def chanLive (s : State) (n : Nat) : Bool :=
  if n < 12 then coreOn s
  else if n < 28 then coreOn s && decide (n - 12 < fusedChans s) && unitOn s 5
  else if n < 30 then coreOn s && unitOn s 6
  else decide (n < 47)

/-- UNIT of a channel (R619, R626): 0 0.1 °C, 1 10 mV, 2 mA, 3 mW. -/
def chanUnit (n : Nat) : Nat := if n ≤ 30 then 0 else if n ≤ 44 then 1 else if n = 45 then 2 else 3

/-- A sensor of the three groups in the round: out of range, or the same raw count for 64 rounds, marks it failed. -/
def senseCheck (n : Nat) (v : Int) (s : State) : State :=
  let raw := (v + 32768).toNat
  let k := if tfind s.therm.raw n = some raw then tget 0 s.therm.same n + 1 else 1
  let s := modTherm (fun x => { x with raw := tput n raw x.raw, same := tput n (min k 64) x.same }) s
  let range := decide (v < -400) || decide (1500 < v)
  if s.therm.failed.contains n || !(range || decide (64 ≤ k)) then s
  else
    let s := modTherm (fun x => { x with failed := x.failed ++ [n] }) s
    setF F.THM_SENS_FAIL_MASK (fld s F.THM_SENS_FAIL_MASK ||| 2 ^ n) s
      |> sed 0x0E02 sERROR 14 n ((v % 2 ^ 32).toNat) (if range then 0 else 1)

/-- The round's readings. -/
def takeReadings (raw : List Int) (valid : List Bool) (s : State) : State :=
  let live := (List.range 64).filter (fun n => lat false valid n && chanLive s n)
  let s := modTherm (fun x => { x with
    value := live.map (fun n => (n, lat 0 raw n)), raw := x.raw.filter (fun e => live.contains e.1)
    same := x.same.filter (fun e => live.contains e.1) }) s
  forEach (live.filter (fun n => decide (n < 30))) (fun n s => senseCheck n (lat 0 raw n) s) s

/-! ### Levels (R621) -/

/-- Level for a reading in 0.1 °C: up to the highest threshold reached, down while below the level's threshold less
HYST. `t` lists T1, T2 and T3. -/
def levelFor (t : List Nat) (hyst : Nat) (old : Nat) (v : Int) : Nat :=
  let reach := ((List.range 3).filter (fun k => decide (Int.ofNat (10 * lat 0 t k) ≤ v))).length
  if old < reach then reach
  else
    let below := fun (k : Nat) => decide (v < Int.ofNat (10 * lat 0 t (k - 1)) - Int.ofNat (10 * hyst))
    let a := if old = 3 && below 3 then 2 else old
    let b := if a = 2 && below 2 then 1 else a
    if b = 1 && below 1 then 0 else b

/-- Thresholds of group g. -/
def groupT (s : State) (g : Nat) : List Nat := (List.range 4).map (fun k => lat 0 (cfgThermal s) (4 * g + k))

/-- The highest level of the media stacks. -/
def levelMax (s : State) : Nat := s.therm.levelM.foldl (fun m e => max m e.2) 0

/-- THM_LEVEL for a group whose level changed. -/
def sayLevel (g old new : Nat) (v : Int) (s : State) : State :=
  if old = new then s else sed 0x0E00 sNOTICE 14 g new ((v % 2 ^ 32).toNat) s

/-- The levels of the three groups, a media stack each its own (R621, R622). -/
def levelsRound (s : State) : State :=
  let h := cfgHyst s
  let c := match highGood s chansC with | some v => levelFor (groupT s 0) h s.therm.levelC v | none => s.therm.levelC
  let d := match highGood s chansD with | some v => levelFor (groupT s 2) h s.therm.levelD v | none => s.therm.levelD
  let m := (List.range 16).foldl (fun l n => match stackRead s n with
    | some v => tput n (levelFor (groupT s 1) h (tget 0 l n) v) l
    | none => l) s.therm.levelM
  let (oc, om, od) := (s.therm.levelC, levelMax s, s.therm.levelD)
  let s := modTherm (fun x => { x with levelC := c, levelM := m, levelD := d }) s
  let s := setF F.THM_STAT_LEVEL_C c s |> setF F.THM_STAT_LEVEL_M (levelMax s) |> setF F.THM_STAT_LEVEL_D d
  sayLevel 2 od d (groupD s) (sayLevel 1 om (levelMax s) (groupM s) (sayLevel 0 oc c (groupC s) s))

/-! ### Windows (R623) -/

/-- A window's next state for a reading in 0.1 °C. -/
def windowFor (lo hi hyst : Nat) (old : Bool) (v : Int) : Bool :=
  if decide (v < Int.ofNat (10 * lo)) || decide (Int.ofNat (10 * hi) < v) then false
  else old || (decide (Int.ofNat (10 * (lo + hyst)) ≤ v) && decide (v ≤ Int.ofNat (10 * hi) - Int.ofNat (10 * hyst)))

/-- The media windows of every stack, and the charging window. -/
def windowsRound (s : State) : State :=
  let t := cfgThermal s
  let h := cfgHyst s
  let s := forEach (List.range 16) (fun n s =>
    match stackRead s n with
    | none => s
    | some v =>
      let old := (fld s F.THM_WINDOW_MPROG).testBit n
      let new := windowFor (lat 0 t 12) (lat 0 t 13) h old v
      if old = new then s
      else setF F.THM_WINDOW_MPROG (fld s F.THM_WINDOW_MPROG ^^^ 2 ^ n) s |> sed 0x0E01 sWARNING 14 0 n (if new then 1 else 0)) s
  match chanRead s 30 with
  | none => s
  | some v =>
    let old := bit s F.THM_WINDOW_RES
    let new := windowFor (lat 0 t 14) (lat 0 t 15) h old v
    if old = new then s else setB F.THM_WINDOW_RES new s |> sed 0x0E01 sWARNING 14 1 0 (if new then 1 else 0)

/-- A media stack's window is closed (R597, R626). -/
def anyClosed (s : State) : Bool := ((List.range 16).filter (chanOn s)).any (fun c => windowHeld s c)

/-! ### The budget (R596, R597) -/

def budgetRound (s : State) : State :=
  let v := (chanValue s 34).toNat
  let b := if !vresUp s || s.sup.faulted || anyClosed s then 0 else budgetAt s v
  let t3 := s.therm.levelM.any (fun e => e.2 == 3)
  modSup (fun x => { x with
    budget := b, resV := if (chanRead s 34).isSome then v else x.resV
    dCap := if t3 then some (match x.dCap with | some c => min c (chargedBytes s) | none => chargedBytes s) else none }) s

/-! ### PLDM thresholds (R450) -/

/-- Which side of its thresholds a numeric sensor is on: how many it has reached, or for VIN how many it is below. -/
def sensorSide (s : State) (id : Nat) : Nat :=
  let v := (sensorValue s id).getD 0
  ((sensorLimits s id).filter (fun t => if id = 4 then decide (v < Int.ofNat (10 * t)) else decide (Int.ofNat t ≤ v))).length

/-- PlatformEventMessage for each crossing. -/
def crossings (s : State) : State :=
  forEach [1, 2, 3, 4] (fun id s =>
    let new := sensorSide s id
    let old := tget 0 s.mgmt.crossed id
    if old = new then s else
    let s := { s with mgmt := { s.mgmt with crossed := tput id new s.mgmt.crossed } }
    match s.mgmt.evReceiver with
    | some e => if tutServes s then emit (.platformEvent e (le 2 id ++ le 1 old ++ le 1 new)) s else s
    | none => s) s

/-! ### Shutdown (R624) -/

/-- A group at or above CRIT for the second round running: THM_SHUTDOWN and a thermal flush. -/
def shutdownRound (s : State) : State :=
  let hot := fun (g : Nat) (v : Option Int) => match v with
    | some x => decide (Int.ofNat (10 * lat 0 (groupT s g) 3) ≤ x)
    | none => false
  let media := (List.range 16).foldl (fun (m : Option Int) n => match stackRead s n, m with
    | some v, some w => some (max v w)
    | some v, none => some v
    | none, _ => m) none
  let c := if hot 0 (highGood s chansC) then s.therm.critC + 1 else 0
  let m := if hot 1 media then s.therm.critM + 1 else 0
  let d := if hot 2 (highGood s chansD) then s.therm.critD + 1 else 0
  let s := modTherm (fun x => { x with critC := min c 2, critM := min m 2, critD := min d 2 }) s
  let fire := fun (g n : Nat) (v : Int) (s : State) =>
    if n = 2 then sed 0x0E03 sCRITICAL 14 g ((v % 2 ^ 32).toNat) (lat 0 (groupT s g) 3) s else s
  let live := s.sup.st == 2 || s.sup.st == 3
  if live && (decide (2 ≤ c) || decide (2 ≤ m) || decide (2 ≤ d)) then
    flushStart 5 (fire 2 d (groupD s) (fire 1 m (media.getD 0) (fire 0 c (groupC s) s)))
  else s

/-! ### The round -/

/-- Counters and register readings of a round (R625, R626). -/
def roundCount (s : State) : State :=
  let s := setF F.THM_STAT_ROUND ((fld s F.THM_STAT_ROUND + 1) % 65536) s
  let low := fun (v : Int) => ((v / 10) % 256).toNat
  let s := setF F.THM_MAX_C (low (groupC s)) s |> setF F.THM_MAX_M (low (groupM s)) |> setF F.THM_MAX_D (low (groupD s))
  let s := when (s.therm.levelC != 0 || levelMax s != 0 || s.therm.levelD != 0) (satInc F.THM_CNT_THROTTLE) s
  let s := when (anyClosed s || !bit s F.THM_WINDOW_RES) (satInc F.THM_CNT_CLOSED) s
  { s with mgmt := { s.mgmt with powerSum := s.mgmt.powerSum + (chanValue s 46).toNat, powerRounds := s.mgmt.powerRounds + 1 } }

/-- HOUSEKEEPING_ROUND's effect: `raw` holds the 64 trimmed readings in the units of THM_CHn, `valid` those taken. -/
def doRound (raw : List Int) (valid : List Bool) (s : State) : State :=
  if 6 ≤ s.sup.st then s else
  let s := takeReadings raw valid s
  let s := match chanRead s 31 with | some v => vinSeen v.toNat s | none => s
  let s := budgetRound (windowsRound (levelsRound s))
  let s := if 3150 < s.sup.resV && !s.sup.faulted then resFault 2 s.sup.resV s else s
  let s := chargeEval (roundCount s)
  let s := if s.sup.testPending && testMay s then testStart s else s
  shutdownRound (crossings s)

/-- HOUSEKEEPING_ROUND (R619). -/
def execHousekeepingRound (raw : List Int) (valid : List Bool) (s : State) : Host.Outcome State Fault Refusal :=
  run (doRound raw valid) s

end Sys2Proof.Machine
end

