-- ==== Sys2Proof/Machine/Jtag.lean ====
section
/-! DEFINITION. The test access port (R717 to R721): its instructions and its release. -/

namespace Sys2Proof.Machine

/-- The port honours TMS and TDI (R717): it has VAUX, every PERST_N of a fused port and MR_N are low, no flush runs, and 1 ms
has passed. -/
def testMayRun (s : State) : Bool :=
  s.sup.st != 7 && s.sup.st != 4 && s.sup.mrLow && (List.range 4).all (fun h => !(fusedPorts s).testBit h || (headOf s h).perst) &&
  (s.sup.st == 6 || decide (s.jtag.since + 250 ≤ s.tick.count))

/-- An instruction takes effect: which it is, what the cells hold, and whether they or nothing drive the pins. -/
def testInstr (code : Nat) (driving highz : Bool) (f : State → State) (s : State) : State :=
  if !testMayRun s then s else
  f { s with jtag := { s.jtag with enabled := true, instr := code, driving := driving, highz := highz } }

/-! The boundary chain (R720): a cell for each B33, B18A and B18M signal pin of R689 but the boundary-scan pins, in the order
of R689's table (log entry 86): PERSTn_N 0 to 3, the hold pins 4 to 7, the Tuten port 8 to 10, SEICHE and RIPPLE_SYNC, the
buttons 13 to 15, the straps 16 to 28, RAILn_EN 29 to 38, RAILn_PG 39 to 48, RES_CHG and RES_SW, SND_CLK and SND_D 51 to 59,
FTEST 60 to 67. -/

def cellCount : Nat := 68

/-- Observe-only cells: RAILn_EN, RES_CHG and RES_SW (R720). -/
def cellObserves (k : Nat) : Bool := (decide (29 ≤ k) && decide (k < 39)) || k == 49 || k == 50

/-- The pin belongs to a part that the variant lacks: its levels are ignored and it is never driven (R692). -/
def cellAbsent (s : State) (k : Nat) : Bool :=
  ((k == 2 || k == 3) && !(fusedPorts s).testBit k) || (decide (4 ≤ k) && decide (k < 8) && !fusedNrw s)

/-- The pin's bank has its supply (R690): B18M hangs on VMGMT, the other banks on VAUX, without which the port does not run. -/
def cellPowered (s : State) (k : Nat) : Bool := !(decide (51 ≤ k) && decide (k < 60)) || s.sup.up.getLsbD 4

/-- What a cell captures of its pin (R692, R720). -/
def cellCapture (s : State) (k : Nat) (pin : Bool) : Bool := pin && cellPowered s k && !cellAbsent s k

/-- What the cells drive: nothing at observe-only cells, without the bank's supply, or on an absent part's pin. -/
def cellDrives (s : State) : List (Option Bool) :=
  (List.range cellCount).map (fun k =>
    if cellObserves k || !cellPowered s k || cellAbsent s k then none else tfind s.jtag.cells k)

/-- Put boundary cells, by their place in the chain. -/
def putCells (l : List Bool) (s : State) : State :=
  { s with jtag := { s.jtag with cells := (List.zip (List.range cellCount) l).map (fun p => (p.1, p.2)) } }

/-- IDCODE (R719): stepping B1, GLB_ID.PART, the vendor's JEP106 code, which only the BSDL file gives (log entry 86), 1. -/
def idcode (s : State) : BitVec 32 :=
  BitVec.ofNat 32 (2 ^ 28 + partNo s * 2 ^ 12 + at' (Config.bytes "JEP106" 0) 0 2 % 2048 * 2 + 1)

/-- JTAG_EXTEST (R719, R720): the pins are driven from the cells. -/
def execJtagExtest (cells : List Bool) (s : State) : Host.Outcome State Fault Refusal :=
  run (testInstr 0x00 true false (fun s => let s := putCells cells s; emit (.pads (cellDrives s)) s)) s

/-- JTAG_IDCODE (R719). -/
def execJtagIdcode (s : State) : Host.Outcome State Fault Refusal :=
  run (testInstr 0x01 false false (fun s => emit (.tdo 0x01 (idcode s)) s)) s

/-- JTAG_SAMPLE_PRELOAD (R719): the levels of the pins are captured, and the cells preloaded. -/
def execJtagSamplePreload (pins cells : List Bool) (s : State) : Host.Outcome State Fault Refusal :=
  run (testInstr 0x02 false false (fun s =>
    emit (.cells ((pins.take cellCount).zipIdx.map (fun p => cellCapture s p.2 p.1))) (putCells cells s))) s

/-- JTAG_HIGHZ (R719). -/
def execJtagHighz (s : State) : Host.Outcome State Fault Refusal :=
  run (testInstr 0x08 false true (emit (.tdo 0x08 0))) s

/-- JTAG_CLAMP (R719): the pins are held from the cells. -/
def execJtagClamp (s : State) : Host.Outcome State Fault Refusal :=
  run (testInstr 0x09 true false (fun s => emit (.tdo 0x09 0) (emit (.pads (cellDrives s)) s))) s

/-- JTAG_BYPASS (R719): code 0xFF, or any code that the table does not list. -/
def execJtagBypass (code : Nat) (s : State) : Host.Outcome State Fault Refusal :=
  run (fun s => if decide (256 ≤ code) || [0x00, 0x01, 0x02, 0x08, 0x09].contains code then s
    else testInstr code false false (emit (.tdo code 0)) s) s

/-- JTAG_RELEASE (R718): an enabling condition has ended. -/
def execJtagRelease (s : State) : Host.Outcome State Fault Refusal := run testReset s

end Sys2Proof.Machine
end

