-- ==== Sys2Proof/Machine/Scrub.lean ====
section
/-! DEFINITION. The scrubbers (R415 to R420, R496): the next row of a memory is read, corrected and written back; each
memory's uncorrectable word has the outcome of its class. -/

namespace Sys2Proof.Machine

/-! ### Shallows write buffers (R420) -/

/-- A copy of a reach is abandoned and runs again from its reads; its pages program without an entry that names them. -/
def copyAgain (n slot : Nat) (s : State) : State :=
  let mine := fun (f : Fold) => f.jseq.isNone && f.target == some (n, slot)
  let s := forEach (s.mtl.folds.filter mine) (fun f s =>
    match tfind s.mtl.map.merge f.mrec with | some r => putMerge f.mrec (unmark r) s | none => s) s
  let s := { s with mtl := { s.mtl with folds := s.mtl.folds.filter (fun f => !mine f) } }
  let sh := s.icu.shore
  let s := if sh.jseq.isNone && sh.target == some (n, slot) then
      let s := match mergeOf s (reachOf sh.b) with | some (k, r) => putMerge k (unmark r) s | none => s
      { s with icu := { s.icu with shore := sh.dropStride } }
    else s
  { s with mtl := { s.mtl with dredge := s.mtl.dredge.map (fun d =>
      { d with moves := d.moves.filter (fun m => match m with
          | (0, .reachMove _ t k _ _) => !(t == n && k == slot)
          | _ => true) }) } }

/-- A RELOC page is abandoned: its lines are copied again. -/
def relocAgain (n q : Nat) (s : State) : State :=
  let s := match s.mtl.relocPage with
    | some p => if p.set = n ∧ p.page = q then closeLog true s else s
    | none => s
  { s with mtl := { s.mtl with dredge := s.mtl.dredge.map (fun d =>
      { d with moves := d.moves.filter (fun m => match m with
          | (0, .relocCommit dst p _) => !(dst == n && p == q)
          | _ => true) }) } }

/-- A line slot of a log page: the newest version is in the slice or Cove and is written back again, or else the slot's
map entry becomes POISON. The answer counts the lines poisoned. -/
def slotAgain (n q i : Nat) (e : ManEnt) (s : State) : State × Nat :=
  let supersede := fun (s : State) =>
    let put := fun (m : List ManEnt) => m.zipIdx.map (fun x => if x.2 = i then { x.1 with superseded := true } else x.1)
    match tfind s.mtl.wbuf (wbKey n q) with
    | some (.log sl man ps wb ep r) =>
      let s := putWbuf (wbKey n q) (.log sl (put man) ps wb ep r) s
      { s with mtl := { s.mtl with logPage := s.mtl.logPage.map (fun p => if p.set = n ∧ p.page = q then { p with man := put p.man } else p) } }
    | _ => s
  if !refersTo s e.line (ssetOf s n) (56 * q + i) || e.poison then (s, 0)
  else
    match findWay s e.line, findCove s e.line with
    | some (k, w), _ =>
      if w.st = .fill then (lineLost e.line s, 1) else (supersede (putWay k { w with st := .dirty } s), 0)
    | none, some c =>
      if amqFull s e.line then (s, 0) else
      let s := dropCove e.line s
      (match allocate e.line (activeMask s) none s with
       | some (s, k) =>
         (supersede (putWay k { Way.init with tag := tagNo e.line, key := c.key, poison := c.poison, st := .dirty, data := c.data } s), 0)
       | none =>
         if (sliceOf s (sliceNo e.line)).eb.length < 16 then (supersede (ebEnter e.line c.key c.poison c.data false s), 0)
         else
           -- neither a way nor an entry: the line waits in the AMQ to be installed DIRTY (R179 step 4)
           (supersede (modSlice (sliceNo e.line) (fun x => { x with amq := x.amq ++
             [{ kind := .full, line := e.line, key := c.key, poison := c.poison, data := c.data, mask := 0, src := .internal
                waiting := true, persisted := true }] }) s), 0))
    | none, none => (lineLost e.line s, 1)

/-- An uncorrectable word of a page in the Shallows write buffer (R420). The slot, or the manifest sector, that holds the
word is free. A page that has programmed already is rebuilt from the die. -/
def wbufUe (ag row : Nat) (s : State) : State :=
  let s := mempUe 5 0 row ag s
  match s.mtl.wbuf[row]? with
  | none => s
  | some (key, body) =>
    let n := key / 2 ^ 21
    let q := key % 2 ^ 21 / 2
    let done := key % 2 = 0 && (match setOf s n with | some b => programmedPage b q | none => true)
    if done then s else
    let said := fun (kind lines : Nat) (s : State) => sed 0x0807 sERROR 8 row kind lines s
    match body with
    | .log _ man _ _ _ reloc =>
      if reloc then said 0 0 (relocAgain n q s)
      else
        let (b, s) := draw 6 s
        match man[b.toNat]? with
        | some e => let (s, k) := slotAgain n q b.toNat e s; said 0 k s
        | none => said 0 0 s
    | .reach _ _ _ => said 1 0 (copyAgain n (q / 16) s)
    | .journal _ => said 2 0 s
    | .ckpt _ _ => said 3 0 s
    | .node _ _ => said 4 0 s
    | .parity _ _ => said 6 0 s
    | _ => said 5 0 s

/-- The channel engine reads a page of the program that starts from its write buffer (R420). -/
def wbufRead (chan die : Nat) (s : State) : State :=
  match (dieOf s (chan * 8 + die)).progq with
  | p :: _ =>
    match s.mtl.wbuf.findIdx? (fun e => e.1 / 2 ^ 21 == p.set) with
    | some row => mempReadWith 5 0 (row * 2048) 2048 agInternal (fun _ s => wbufUe agInternal row s) s
    | none => s
  | [] => s

/-- PROGRAM_START (R225). -/
def execProgramStart (chan die : Nat) (s : State) : Host.Outcome State Fault Refusal :=
  run (fun s =>
    let t := doProgramStart chan die s
    if (dieOf s (chan * 8 + die)).op.isNone && (dieOf t (chan * 8 + die)).op.isSome then
      doProgramStart chan die (wbufRead chan die s)
    else t) s

/-! ### The rows of each class (R415) -/

/-- Rows of an instance of a class; one a tick makes the pass (log entry 88). -/
def scrubRows (cls inst : Nat) : Nat :=
  match cls with
  | 0 => 65536
  | 1 => 4096
  | 2 => 128
  | 3 => if inst = 18 then 4096 else 512
  | 4 => 1024
  | 5 => 1024
  | 6 => 65536
  | 7 => 4096
  | 8 => 262144
  | 9 => 262144
  | 10 => 64
  | 11 => 512
  | 12 => 8388608
  | 14 => 2097152
  | 15 => 256
  | _ => 0

/-- The line in a way of a slice's data array, by row. -/
def rowLine (s : State) (inst row : Nat) : Option Nat :=
  (tfind s.ways (inst * 65536 + row)).map (fun w => lineOfWay (inst * 65536 + row) w)

/-- A tag array's row is uncorrectable in one array or in both (R175): the entry that holds the word is free. -/
def scrubTag (inst row : Nat) (up : Upset) (s : State) : State :=
  let (w, s) := draw 4 s
  let k := wayKey (inst / 2) row w.toNat
  tagUpsetAt agScrub k (if up = .tagUe ∧ inst % 2 = 1 then .tagUeB else up) s

/-- A row of Cove, the eviction buffer, the AMQ or the merge buffers (R205). -/
def scrubBuffer (inst row : Nat) (s : State) : State :=
  let x := sliceOf s (inst / 4)
  let line := match inst % 4 with
    | 0 => (x.cove[row]?).map (·.line)
    | 1 => (x.eb[row]?).map (·.line)
    | 2 => (x.amq[row]?).map (·.line)
    | _ => (x.merge[row]?).map (·.line)
  match line with
  | some l => if inst % 4 < 2 then (dataUpsetBy agScrub l s).1 else pendingUpsetBy agScrub l s
  | none => mempUe 2 inst row agScrub s

/-- A node of the on-die cache (R348): a clean one is fetched again; a dirty one is read from its second copy, and is lost
when both are uncorrectable. -/
def scrubNode (row : Nat) (both : Bool) (s : State) : State :=
  let s := mempUe 6 0 row agScrub s
  match s.icu.onDie[row]? with
  | none => s
  | some k =>
    if !s.icu.writeback.contains k then { s with icu := { s.icu with onDie := s.icu.onDie.erase k } }
    else if both then quarantine (k / 2 ^ 40) (k % 2 ^ 40) 2 s
    else s

/-- A word of Pond DRAM that is no map entry (R348): a clean cached node is dropped; a dirty group lost in both copies is
quarantined. -/
def scrubPond (inst row : Nat) (both : Bool) (s : State) : State :=
  let s := mempUe 12 inst row agScrub s
  if both then
    match s.icu.dirtyGroups[row]? with
    | some g => quarantine (g / 2 ^ 40) (g % 2 ^ 40) 1 s
    | none => s
  else match s.icu.pond[row]? with
    | some k => { s with icu := { s.icu with pond := s.icu.pond.erase k } }
    | none => s

/-- What an uncorrectable word found by a scrubber brings about (R415's last column). -/
def scrubUe (cls inst row : Nat) (up : Upset) (s : State) : State :=
  let both := up == .ueBoth || up == .tagBoth || up == .mapBoth
  match cls with
  | 0 => (match rowLine s inst row with
      | some l => (dataUpsetBy agScrub l s).1
      | none => mempUe 0 inst row agScrub s)
  | 1 => scrubTag inst row (if both then .tagBoth else .tagUe) s
  | 2 => scrubBuffer inst row s
  | 3 =>
    if inst = 18 then
      -- a pool cell: the entry that lies in it
      (match (List.range 18).findSome? (fun q =>
          ((queueOf s q).entries.findIdx? (fun e => e.cell == some row)).map (fun i => (q, i))) with
       | some (q, i) => let (w, s) := draw 3 s; doRingUeBy agScrub q i (w.toNat + 2) s
       | none => mempUe 3 18 row agScrub s)
    else
      let ring := (queueOf s inst).entries
      if row < ring.length then let (w, s) := draw 3 s; doRingUeBy agScrub inst row (w.toNat + 2) s
      else mempUe 3 inst row agScrub s
  | 5 => wbufUe agScrub row s
  | 6 => scrubNode row both s
  | 7 => if both then doKeyReloadBy agScrub 0 row s else mempUe 7 0 row agScrub s
  | 10 =>
    let s := mempUe 10 inst row agScrub s
    (match tfind s.movers inst with | some m => dmvHalt inst m s | none => s)
  | 11 =>
    let s := mempUe 11 0 row agScrub s
    if row < s.sed.ring.length then satInc F.SED_ERR_UE { s with sed := { s.sed with ring := s.sed.ring.eraseIdx row } } else s
  | 12 =>
    if up = .mapUe ∨ up = .mapBoth then mapUpsetBy agScrub inst row ((2 * row + inst) * 1024) up s
    else scrubPond inst row both s
  | 14 =>
    let a := inst * 2 ^ 24 + 8 * row
    let s := mempUe 14 inst row agScrub s
    if s.flash.badWords.contains (a / 8) then s else modFlash (fun f => { f with badWords := f.badWords ++ [a / 8] }) s
  | 15 =>
    let s := mempUe 15 0 row agScrub s
    { s with gauge := { s.gauge with blocks := s.gauge.blocks.map (fun e => if e.2.phys = row then (e.1, { e.2 with good := false }) else e) } }
  | _ => mempUe cls inst row agScrub s

/-- A correction (R416 to R418, R496): counted; a class that is written back loses what an injection planted, and a bit
still wrong afterwards enters the stuck-bit table. -/
def scrubCe (cls inst row word : Nat) (stuck : Bool) (s : State) : State :=
  if cls = 14 then sfCorrected (inst * 2 ^ 24 + 8 * row) (mempCe 14 inst row s)
  else if cls = 15 then mempCe 15 inst row s
  else
    let b := ceBit s
    let s := mempWrite cls inst word agScrub (mempCe cls inst word s)
    if stuck then stuckBit cls inst word b s else s

/-- SCRUB_ROW's effect: the row is the next of its memory's pass; scrubbers run in RUN and IDLE (R416). -/
def doScrubRow (cls inst row : Nat) (up : Upset) (stuck : Bool) (s : State) : State :=
  let key := cls * 65536 + inst
  if !coreOn s || decide (1 < s.pwr.st) || decide (scrubRows cls inst ≤ row) || !injInsts s cls inst || tget 0 s.memp.scrubPos key != row then s else
  let s := { s with memp := { s.memp with scrubPos := tput key ((row + 1) % scrubRows cls inst) s.memp.scrubPos } }
  let s := if cls = 14 ∧ row = 0 then
      modFlash (fun f => { f with corrected := f.corrected.filter (fun e => e.1 / 256 != inst) }) s
    else s
  let word := if cls = 0 then (rowLine s inst row).getD row else row
  let (s, up) := mempRead cls inst word agScrub up s
  match up with
  | .none => s
  | .ce => scrubCe cls inst row word stuck s
  | .vote => if cls < 13 then mempVote cls inst row s else s
  | u => scrubUe cls inst row u s

/-- SCRUB_ROW (R416). -/
def execScrubRow (cls inst row : Nat) (up : Upset) (stuck : Bool) (s : State) : Host.Outcome State Fault Refusal :=
  run (doScrubRow cls inst row up stuck) s

end Sys2Proof.Machine
end

