-- ==== Sys2Proof/Machine/Registers.lean ====
section
/-! DEFINITION. What a register reads: the word it holds, with the fields that show the state of the block itself laid
over it (the field tables R57, R59, R142, R170, R208, R266, R318, R369, R404, R437, R438, R476, R515, R550, R577, R625,
R626, R664 and R687), and the registers of absent units and parts, which read zero (R8 to R11). -/

namespace Sys2Proof.Machine

/-! ### Packing fields -/

/-- A word with fields replaced: lowest bit, width and value of each. -/
def pack (w : BitVec 32) (l : List (Nat × Nat × Nat)) : BitVec 32 :=
  l.foldl (fun w f => Fld.put ⟨0, f.1, f.2.1⟩ f.2.2 w) w

/-- A truth value as a bit. -/
def b01 (b : Bool) : Nat := if b then 1 else 0

/-- Bits of the numbers below n that satisfy a test. -/
def maskBy (n : Nat) (p : Nat → Bool) : Nat := (List.range n).foldl (fun a k => if p k then a + 2 ^ k else a) 0

/-- The low 32 bits and the next w bits of a number, as a LO and HI pair shows it. -/
def loWord (n : Nat) : BitVec 32 := BitVec.ofNat 32 n
def hiWord (n : Nat) : BitVec 32 := BitVec.ofNat 32 (n / 2 ^ 32)

/-- A signed value in n bits. -/
def signedBits (n : Nat) (v : Int) : Nat := (BitVec.ofInt n v).toNat

/-! ### The blocks -/

/-- GLB (R57). -/
def showGlb (s : State) (a : Nat) (w : BitVec 32) : BitVec 32 :=
  if a = Reg.GLB_ID then pack w [(16, 16, partNo s)]
  else if a = Reg.GLB_UNITS then BitVec.ofNat 32 (unitsWord s)
  else if a = Reg.GLB_UNITS_FUSED then 0xFFFF
  else if a = Reg.GLB_CAP then BitVec.ofNat 32 (capWord s)
  else if a = Reg.GLB_CAP_FUSED then BitVec.ofNat 32 (capFused s)
  else if a = Reg.GLB_CHMASK then pack w [(0, 16, maskBy 16 (chanOn s)), (16, 16, 2 ^ fusedChans s - 1)]
  else w

/-- TICK (R59). -/
def showTick (s : State) (a : Nat) (w : BitVec 32) : BitVec 32 :=
  if a = Reg.TICK_COUNT_LO then loWord s.tick.count
  else if a = Reg.TICK_COUNT_HI then hiWord s.tick.count
  else if a = Reg.TICK_CYCLE then BitVec.ofNat 32 (Config.cycle s.fresh).val
  else if a = Reg.TICK_CAL_LO then loWord s.tick.cal
  else if a = Reg.TICK_CAL_HI then hiWord s.tick.cal
  else w

/-- The region r of head h (R142). -/
def regionAt (s : State) (h r : Nat) : Option Region := (cfgRegions s).find? (fun x => x.head == h && x.idx == r)

/-- HP of head h; r is the region index (R142). -/
def showHp (s : State) (base h r : Nat) (w : BitVec 32) : BitVec 32 :=
  if !headOn s h then 0
  else if base = Reg.HP_CFG 0 then
    pack w [(0, 7, cfgPort s h), (8, 7, ((cfgRegions s).filter (fun x => x.head == h)).length)]
  else if base = Reg.HP_HDM_STAT 0 then pack w [(16, 15, headCap s h)]
  else if base = Reg.HP_REGION_LO 0 0 then
    (match regionAt s h r with | some x => pack w [(0, 16, x.base), (16, 16, x.len)] | none => 0)
  else if base = Reg.HP_REGION_HI 0 0 then
    (match regionAt s h r with
     | some x => pack w [(0, 12, x.key), (16, 4, x.share), (20, 1, b01 x.dc), (21, 1, b01 x.ro), (31, 1, 1)]
     | none => 0)
  else w

/-- QF; i is the head or queue of the register (R170). -/
def showQf (s : State) (base a i : Nat) (w : BitVec 32) : BitVec 32 :=
  if a = Reg.QF_POOL_STAT then pack w [(0, 13, 4096 - poolUsed s), (16, 13, poolReserved s)]
  else if base = Reg.QF_WM 0 then
    if !headOn s i then 0 else
    let m := (cfgMarks s i).1
    pack 0 [(0, 6, m), (8, 6, m / 2 ^ 8), (16, 6, m / 2 ^ 16), (24, 6, m / 2 ^ 24)]
  else if base = Reg.QF_Q_STAT 0 then
    if !queueOn s i then 0 else
    let q := queueOf s i
    let hi := if i < 16 then (cfgMarks s (i / 4)).2 % 256 else 56
    pack 0 [(0, 2, q.mode), (2, 1, b01 q.paced), (4, 9, q.occ % 512), (13, 1, b01 (decide (512 ≤ q.occ))),
      (16, 10, q.withheld), (26, 6, hi)]
  else if base = Reg.QF_Q_PTR 0 then
    if !queueOn s i then 0 else
    let q := queueOf s i
    if q.mode = 0 then pack 0 [(0, 12, q.wp), (16, 12, q.rp)]
    else
      let cells := q.entries.filterMap (fun e => e.cell)
      pack 0 [(0, 12, cells.headD 0), (16, 12, cells.getLastD 0)]
  else if base = Reg.QF_Q_PEAK 0 then
    if !queueOn s i then 0 else
    pack w [(16, 6, if i < 16 then (cfgMarks s (i / 4)).2 / 2 ^ 8 % 256 else 40)]
  else if base = Reg.QF_Q_ERR 0 then (if queueOn s i then w else 0)
  else w

/-- Ways of slice n that satisfy a test. -/
def waysOf (s : State) (n : Nat) (p : Way → Bool) : Nat :=
  (s.ways.filter (fun e => e.1 / (4096 * 16) == n && p e.2)).length

/-- A purge runs: an eviction-buffer entry under a purged key index has been passed to the inline crypt unit and has not
completed (R204). -/
def purging (s : State) : Bool :=
  s.slices.any (fun e => e.2.eb.any (fun b => b.passed && !isInternal s b.line && !keyHolds s b.key))

/-- LC; i is the head or slice of the register (R208). -/
def showLc (s : State) (path base a i : Nat) (w : BitVec 32) : BitVec 32 :=
  if a = Reg.LC_CFG then pack w [(0, 16, activeMask s)]
  else if a = Reg.LC_STAT then pack w [(3, 1, b01 (purging s))]
  else if a = Reg.LC_PURGE then pack w [(16, 1, b01 (purging s))]
  else if a = Reg.LC_CLEAN_STAT then pack w [(0, 1, b01 ((List.range 48).any (cleanRuns s)))]
  else if a = Reg.LC_LCMD_STAT 0 then
    (match tfind s.lcmds path with | some c => pack w [(16, 16, min c.skipped 65535)] | none => w)
  else if a = Reg.LC_LCMD_DONE 0 then (match tfind s.lcmds path with | some c => pack w [(0, 17, c.done)] | none => w)
  else if a = Reg.LC_DIRTY then BitVec.ofNat 32 (dirtyLines s)
  else if base = Reg.LC_WAYMASK 0 then (if headOn s i then BitVec.ofNat 32 (cfgWayMask s i) else 0)
  else if base = Reg.LC_S_DIRTY 0 then BitVec.ofNat 32 (waysOf s i (fun x => x.st == .dirty))
  else if base = Reg.LC_S_PIN 0 then BitVec.ofNat 32 (waysOf s i (fun x => x.pin && x.st != .invalid))
  else if base = Reg.LC_S_BUF 0 then
    let x := sliceOf s i
    pack 0 [(0, 8, x.cove.length), (8, 5, x.eb.length), (16, 5, x.merge.length), (24, 7, x.amq.length)]
  else if base = Reg.LC_S_LFSR 0 then (if isHead path then 0 else (sliceOf s i).lfsr)
  else w

/-- OP of a die's status: 0 idle, 1 sense, 2 program, 3 erase. -/
def dieOpCode (sensing : Bool) (d : Die) : Nat :=
  match d.op with
  | some (.prog _ _) => 2
  | some (.erase _ _ _ _) => 3
  | _ => if sensing then 1 else 0

/-- MED of channel c; d is the die of the register (R266). -/
def showMed (s : State) (base c d : Nat) (w : BitVec 32) : BitVec 32 :=
  if !chanOn s c then 0
  else if base = Reg.MED_CH_STAT 0 then
    pack w [(8, 8, maskBy 8 (fun k => dieOnline s (c * 8 + k))), (16, 5, widthNow s)]
  else if base = Reg.MED_CH_D_STAT 0 0 then
    let x := dieOf s (c * 8 + d)
    pack w [(4, 2, dieOpCode (x.page.any (fun p => decide (cycNow s c < p.ready))) x), (6, 1, b01 x.susp.isSome), (8, 2, x.hrq.length), (10, 6, x.adm.length),
      (16, 3, x.recon.length)]
  else w

/-- MTL (R318). -/
def showMtl (s : State) (a : Nat) (w : BitVec 32) : BitVec 32 :=
  let m := s.mtl
  if a = Reg.MTL_STAT then pack w [(4, 1, b01 (decide (m.size < m.committed)))]
  else if a = Reg.MTL_SHALLOWS then pack w [(0, 16, m.size), (16, 16, logMiB s / 1024)]
  else if a = Reg.MTL_FREE then
    pack w [(0, 18, freeSets s), (24, 4, (m.map.sets.filter (fun e => e.2.kind < 2 && e.2.st == .opened)).length)]
  else if a = Reg.MTL_SPARE then pack w [(0, 23, min (headroom s).toNat (2 ^ 23 - 1))]
  else if a = Reg.MTL_WSEQ_LO then loWord m.wseq
  else if a = Reg.MTL_WSEQ_HI then hiWord m.wseq
  else if a = Reg.MTL_JSEQ_LO then loWord m.jseq
  else if a = Reg.MTL_JSEQ_HI then hiWord m.jseq
  else if a = Reg.MTL_FINE then pack w [(0, 29, (m.map.fine.map (fun e => e.2.length)).sum)]
  else if a = Reg.MTL_MERGE then pack w [(0, 23, m.map.merge.length)]
  else if a = Reg.MTL_LIFE then pack w [(0, 16, lifeS s), (16, 16, lifeD s)]
  else if a = Reg.MTL_CKPT then
    pack w [(0, 16, (gMapRoot s).gen % 65536), (16, 16, match m.ckpt with | some k => epoch s - k.epoch | none => 0)]
  else w

/-- The line after a Shoreline job's last range. -/
def shoreEnd (s : State) : Nat := match s.icu.shore.ranges.getLast? with | some (a, n) => a + n | none => 0

/-- Number of a context generation; zero for none. -/
def genNum (g : Option KeyGen) : Nat := match g with | some k => k.num | none => 0

/-- ICU; i is the quarantine entry of the register (R369). -/
def showIcu (s : State) (base a i : Nat) (w : BitVec 32) : BitVec 32 :=
  let c := s.icu
  let job := c.shore.st != 0
  let x := ctxOf s c.shore.key
  if a = Reg.ICU_TREE then pack w [(0, 12, (s.mtl.map.sets.filter (fun e => e.2.kind == kNODE)).length), (16, 16, c.onDie.length)]
  else if a = Reg.ICU_DIRTY then pack w [(0, 14, dirtyG1 s), (16, 14, c.writeback.length)]
  else if a = Reg.ICU_SHORE_STAT then
    pack w [(0, 3, c.shore.st), (4, 12, c.shore.key), (16, 8, if job then genNum x.cur else 0),
      (24, 8, if job then genNum x.new else 0)]
  else if a = Reg.ICU_SHORE_CNT then pack w [(0, 27, c.shore.reachesDone)]
  else if a = Reg.ICU_SHORE_POS_LO then loWord c.shore.b
  else if a = Reg.ICU_SHORE_POS_HI then hiWord c.shore.b
  else if a = Reg.ICU_SHORE_END_LO then loWord (shoreEnd s)
  else if a = Reg.ICU_SHORE_END_HI then hiWord (shoreEnd s)
  else if base = Reg.ICU_QUAR_LO 0 then (match c.quar[i]? with | some q => loWord q.index | none => 0)
  else if base = Reg.ICU_QUAR_HI 0 then
    (match c.quar[i]? with | some q => pack 0 [(0, 6, q.index / 2 ^ 32), (8, 4, q.level), (31, 1, 1)] | none => 0)
  else w

/-- Codes of the states of a context and a slot (R404). -/
def ctxCode (x : CtxSt) : Nat := match x with | .empty => 0 | .active => 1 | .rotating => 2 | .lost => 3
def slotCode (x : SlotSt) : Nat := match x with | .empty => 0 | .ready => 1 | .exhausted => 2

/-- KV (R404): context and slot registers show what the path's own selector names; the slot and queue registers read zero
without a seal engine. -/
def showKv (s : State) (path a : Nat) (w : BitVec 32) : BitVec 32 :=
  let c := ctxOf s (fld s (F.KV_CTX_SEL_INDEX path))
  let v := fld s (F.KV_SLOT_SEL_SLOT path)
  let x := slotOf s v
  if a = Reg.KV_STAT then pack w [(8, 1, b01 (cfgErase s)), (9, 1, b01 (sealOn s))]
  else if a = Reg.KV_CTX_INFO then
    if 4096 ≤ keyLimit s || fld s (F.KV_CTX_SEL_INDEX path) < keyLimit s then
      pack 0 [(0, 2, ctxCode c.st), (8, 8, genNum c.cur), (16, 8, genNum c.new), (24, 1, b01 c.job)]
    else 0
  else if a = Reg.KV_KEK then pack w [(0, 16, maskBy 16 (fun k => (kekOf s k).key.isSome))]
  else if a = Reg.KV_LEDGER then pack w [(0, 24, (gKeyroot s).count)]
  else if !sealOn s && (decide (Reg.KV_SLOT_SEL 0 ≤ a) && decide (a ≤ Reg.KV_SLOT_INST) || decide (Reg.KV_JQ_CFG 0 ≤ a)) then 0
  else if a = Reg.KV_SLOT_INFO then pack 0 [(0, 2, slotCode x.st), (8, 6, x.usage), (16, 6, x.owner), (24, 1, x.klen)]
  else if a = Reg.KV_SLOT_CNT_LO then loWord x.c
  else if a = Reg.KV_SLOT_CNT_HI then hiWord x.c
  else if a = Reg.KV_SLOT_RES_LO then loWord (slotV s v)
  else if a = Reg.KV_SLOT_RES_HI then hiWord (slotV s v)
  else if a = Reg.KV_SLOT_INST then pack 0 [(0, 28, slotInst s v)]
  else w

/-- MEMP (R437). -/
def showMemp (s : State) (a : Nat) (w : BitVec 32) : BitVec 32 :=
  if a = Reg.MEMP_STAT then pack w [(0, 1, b01 (coreOn s)), (1, 1, b01 (coreOn s && decide (s.pwr.st ≤ 1)))] else w

/-- DMV; n is the channel (R438): channels that serve the seal engine read OWNER 6. -/
def showDmv (s : State) (base a n : Nat) (w : BitVec 32) : BitVec 32 :=
  let st := fun (k v : Nat) => fld s (rgState (dmv k)) == v
  if a = Reg.DMV_STAT then pack w [(0, 16, maskBy 16 (st · 1)), (16, 16, maskBy 16 (st · 2))]
  else if base = Reg.DMV_CH_CFG 0 && decide (8 ≤ n) && sealOn s then pack w [(0, 3, 6)]
  else w

/-- MGMT (R476). -/
def showMgmt (s : State) (a : Nat) (w : BitVec 32) : BitVec 32 :=
  if a = Reg.MGMT_OBS then
    pack w [(4, 2, levelNoToken s), (16, 2, cfgLevelMax s), (20, 1, b01 (cfgTokenReq s))]
  else if a = Reg.MGMT_OBS_TSEQ then loWord (gCounter s (.dev 3))
  else if a = Reg.MGMT_NDX_FLOOR then loWord (gCounter s (.dev 1))
  else if a = Reg.MGMT_TUT_STAT then pack w [(8, 7, 0x58 + s.devid % 8)]
  else if a = Reg.MGMT_WDT then
    pack w [(8, 4, min 15 (s.mgmt.restarts.filter (fun e => decide (epoch s < e + 64))).length)]
  else w

/-- SF (R515). -/
def showSf (s : State) (a : Nat) (w : BitVec 32) : BitVec 32 :=
  if a = Reg.SF_STAT then pack w [(0, 1, b01 (calOk s && !railFailed s 4))] else w

/-- State of a logical block (R550): 0 HOME, 1 MIGRATED, 2 FROZEN, 3 BAD. -/
def blockState (s : State) (b : Nat) : Nat :=
  let x := gBlock s b
  if !x.good then 3 else if x.frozen then 2 else if x.phys ≠ b then 1 else 0

/-- Logical blocks in service. -/
def gaugeBlocks : List Nat := List.range 202

/-- GAU; n is the word of GAU_BAD (R550). -/
def showGau (s : State) (path base a n : Nat) (w : BitVec 32) : BitVec 32 :=
  let g := s.gauge
  let b := fld s (F.GAU_SEL_BLOCK path)
  if a = Reg.GAU_STAT then
    pack w [(0, 1, 1), (1, 1, b01 g.cur.isSome), (2, 6, g.prioQ.length + g.normQ.length), (8, 1, b01 g.held.isSome),
      (16, 5, 16 - g.spareUsed.length), (24, 8, (g.blocks.filter (fun e => e.2.frozen)).length)]
  else if a = Reg.GAU_INFO then
    let x := gBlock s b
    pack 0 [(0, 8, x.phys), (8, 3, G.kind b), (12, 2, blockState s b), (16, 16, x.seq)]
  else if a = Reg.GAU_WCNT then pack 0 [(0, 20, (gBlock s b).wcnt)]
  else if a = Reg.GAU_WEAR then
    let top := gaugeBlocks.foldl (fun (m : Nat × Nat) k => if m.1 < (gBlock s k).wcnt then ((gBlock s k).wcnt, k) else m) (0, 0)
    pack 0 [(0, 20, top.1), (24, 8, top.2)]
  else if base = Reg.GAU_BAD 0 then BitVec.ofNat 32 (maskBy 32 (fun k => g.bad.contains (32 * n + k)))
  else w

/-- SED (R550). -/
def showSed (s : State) (a : Nat) (w : BitVec 32) : BitVec 32 :=
  if a = Reg.SED_STAT then pack w [(4, 10, s.sed.ring.length)]
  else if a = Reg.SED_SEQ then loWord s.sed.next
  else if a = Reg.SED_MARK then loWord s.sed.mark
  else if a = Reg.SED_SLOTS then pack w [(0, 18, s.sed.fresh)]
  else if a = Reg.SED_MIRROR then pack w [(0, 6, ((gMirror s).filter Option.isSome).length)]
  else w

/-- The domains of R554 in the order of PWR_DOMAIN: MGMT, CORE, PORT0 to PORT3, MEDIA, DRAM, SFLASH, NRW. -/
def domainGone (s : State) (d : Nat) : Bool :=
  let f := railFailed s
  if d = 0 ∨ d = 8 then f 4
  else if d = 1 then f 0 || f 1
  else if d ≤ 5 then !headOn s (d - 2) || f 2 || f 3
  else if d = 6 then f 5 || f 6
  else if d = 7 then f 7 || f 8
  else !nrwOn s || f 2

/-- A domain's code (R554, R577): 0 OFF, 1 ON, 2 RET or SR, 3 FAILED or absent. A port of which SLEEP leaves the L1
substate logic alone reads a code that the spec does not state: a free value (log entry 79). -/
def domainCode (s : State) (d : Nat) : Nat :=
  if domainGone s d then 3
  else if s.pwr.st ≤ 1 then 1
  else if s.pwr.st = 2 then
    (if d = 0 ∨ d = 8 then 1 else if d = 1 ∨ d = 7 then 2 else if d ≤ 5 then (Config.free 2 s.fresh).toNat else 0)
  else if s.pwr.st = 3 then (if d ≤ 1 ∨ d = 7 then 2 else 0)
  else 0

/-- A domain's clamps are engaged (R555): it is not ON. CLAMP leaves PD_SFLASH out. -/
def clamped (s : State) (d : Nat) : Bool :=
  if d = 0 then domainGone s 0 || decide (3 ≤ s.pwr.st) else domainGone s d || decide (2 ≤ s.pwr.st)

/-- PWR (R556, R577). -/
def showPwr (s : State) (a : Nat) (w : BitVec 32) : BitVec 32 :=
  if a = Reg.PWR_STAT then pack w [(0, 3, pwrShown s)]
  else if a = Reg.PWR_WAKE_EN then w ||| 9
  else if a = Reg.PWR_DOMAIN then
    pack 0 ((List.range 10).map (fun d => (2 * d, 2, domainCode s d)) ++
      ([0, 1, 2, 3, 4, 5, 6, 7, 9].zipIdx).map (fun e => (20 + e.2, 1, b01 (clamped s e.1))))
  else if a = Reg.PWR_BIAS then
    pack 0 [(0, 8, if s.pwr.st = 1 then signedBits 8 (-30) else 0), (8, 8, if 2 ≤ s.pwr.st then 62 else 85),
      (16, 1, b01 (decide (s.pwr.st < 2)))]
  else w

/-- VIN of the last round, 10 mV. -/
def vinRead (s : State) : Nat := (chanValue s 31).toNat

/-- SUP (R625). -/
def showSup (s : State) (a : Nat) (w : BitVec 32) : BitVec 32 :=
  let x := s.sup
  if a = Reg.SUP_STAT then
    pack w [(0, 3, min x.st 5), (8, 5, seicheShown s), (16, 5, x.step), (24, 1, b01 x.solo)]
  else if a = Reg.SUP_RAIL then pack 0 [(0, 10, x.en.toNat), (16, 10, x.pg.toNat)]
  else if a = Reg.SUP_RAIL_ERR then pack 0 [(0, 10, x.failed.toNat), (16, 10, x.nodis.toNat)]
  else if a = Reg.SUP_VIN then
    let v := vinRead s
    pack 0 [(0, 16, v), (16, 16, if x.vinMin = 0xFFFF then v else x.vinMin)]
  else if a = Reg.SUP_AUX then pack 0 [(0, 16, (chanValue s 32).toNat * 10), (16, 16, (chanValue s 33).toNat * 10)]
  else if a = Reg.SUP_LEVELS then pack 0 [(0, 16, x.vWarn), (16, 16, x.vFail)]
  else if a = Reg.SUP_RES then
    pack 0 [(0, 16, x.resV), (16, 12, x.cEff), (28, 1, b01 x.charging), (29, 1, b01 x.resSw), (30, 1, b01 x.testing),
      (31, 1, b01 x.faulted)]
  else if a = Reg.SUP_RES_TEST then
    pack w [(0, 16, x.esr), (20, 12, min ((epoch s - x.testEpoch) / 16) 4095)]
  else if a = Reg.SUP_BUDGET then pack 0 [(0, 16, x.budget), (16, 16, dMib s)]
  else if a = Reg.SUP_FLUSH then
    pack w [(0, 16, x.snap.dur), (16, 4, x.snap.cause), (20, 1, b01 x.snap.completed)]
  else if a = Reg.SUP_SEICHE then pack w [(0, 1, b01 x.part), (1, 1, b01 x.leader), (2, 1, b01 x.seicheDone)]
  else w

/-- Thresholds T1, T2, T3 and CRIT of a group. -/
def limWord (s : State) (g : Nat) : BitVec 32 :=
  pack 0 ((List.range 4).map (fun k => (8 * k, 8, lat 0 (cfgThermal s) (4 * g + k))))

/-- THM; n is the channel (R626). -/
def showThm (s : State) (base a n : Nat) (w : BitVec 32) : BitVec 32 :=
  if a = Reg.THM_STAT then pack w [(8, 4, cfgHyst s)]
  else if a = Reg.THM_LIM_C then limWord s 0
  else if a = Reg.THM_LIM_M then limWord s 1
  else if a = Reg.THM_LIM_D then limWord s 2
  else if a = Reg.THM_WIN_LIM then limWord s 3
  else if base = Reg.THM_CH 0 then
    pack 0 [(0, 16, signedBits 16 (chanValue s n)), (16, 4, chanUnit n), (31, 1, b01 (chanRead s n).isSome)]
  else w

/-- Cells that a link's send queue uses. -/
def sendCells (s : State) (n : Nat) : Nat := match tfind s.nrw.links n with | some l => l.send.length | none => 0

/-- NRW; i is the link or the member (R664). The entry of the device's own position reads zero. -/
def showNrw (s : State) (base a i : Nat) (w : BitVec 32) : BitVec 32 :=
  let x := s.nrw
  let mem := (cfgNrw s).bind (fun c => c.members[i]?)
  let m := match mem with | some p => if p = ownPos s then none else tfind x.mems p | none => none
  if !nrwOn s then 0
  else if a = Reg.NRW_STAT then
    pack 0 [(0, 3, x.group), (4, 1, b01 x.grp.isPrimary), (5, 1, b01 x.stale), (6, 1, b01 x.diverged), (7, 1, b01 x.grp.synced),
      (8, 1, b01 x.grp.solo), (12, 3, x.grp.primary), (16, 1, b01 x.handoff.isSome)]
  else if a = Reg.NRW_GINC then loWord x.grp.ginc
  else if a = Reg.NRW_RSEQ_LO then loWord x.rseq
  else if a = Reg.NRW_RSEQ_HI then hiWord x.rseq
  else if base = Reg.NRW_LINK_STAT 0 then
    (match tfind x.links i with
     | some l => pack 0 [(0, 2, l.st), (4, 4, l.width), (8, 1, b01 l.holdIn), (9, 1, b01 l.holdOut), (16, 10, l.send.length)]
     | none => 0)
  else if base = Reg.NRW_MEM_STAT 0 then
    (match mem, m with
     | some p, some y => pack 0 [(0, 2, y.st), (4, 3, p), (8, 4, y.cause)]
     | some p, none => if p = ownPos s then 0 else pack 0 [(4, 3, p)]
     | none, _ => 0)
  else if base = Reg.NRW_MEM_ACK_LO 0 then (match m with | some y => loWord y.ack | none => 0)
  else if base = Reg.NRW_MEM_ACK_HI 0 then (match m with | some y => hiWord y.ack | none => 0)
  else if base = Reg.NRW_MEM_BITS 0 then (match m with | some y => pack 0 [(0, 23, regionsSet s y)] | none => 0)
  else w

/-- A programmable counter of a path's bank, and a fixed one. -/
def pcOf (s : State) (path j : Nat) : Counter := tget Counter.init s.obs.pc (pcKey path j)
def fixOf (s : State) (k : Nat) : Counter := tget Counter.init s.obs.fixed k

/-- OBS; i is the element of the register (R687). At level NONE every counter, shadow and flag reads zero (R672); samples
are read by the owner alone (R679). -/
def showObs (s : State) (path base a i : Nat) (w : BitVec 32) : BitVec 32 :=
  let o := s.obs
  let hidden := obsLevel s == 3
  let num := fun (n : Nat) => if hidden then (0 : BitVec 32) else BitVec.ofNat 32 n
  if a = Reg.OBS_STAT then
    pack 0 [(0, 2, obsLevel s), (4, 1, b01 (plumbOn s)), (5, 1, b01 (soundingOn s)), (8, 1, b01 o.active), (9, 1, b01 o.sndActive)]
  else if a = Reg.OBS_EPOCH then pack 0 [(0, 24, o.epoch), (24, 8, o.span)]
  else if a = Reg.OBS_OVF then num (maskBy 16 (fun k => (fixOf s k).ov) + 2 ^ 16 * maskBy 16 (fun k => (fixOf s k).sov))
  else if base = Reg.OBS_FIX 0 then num (fixOf s i).n
  else if base = Reg.OBS_FIX_SH 0 then num (fixOf s i).sh
  else if base = Reg.OBS_PC_CFG 0 0 then pack 0 [(0, 8, (pcOf s path i).ev), (8, 8, (pcOf s path i).qual)]
  else if base = Reg.OBS_PC 0 0 then num (pcOf s path i).n
  else if base = Reg.OBS_PC_SH 0 0 then num (pcOf s path i).sh
  else if a = Reg.OBS_PC_STAT 0 then
    num (maskBy 8 (fun j => (pcOf s path j).ov) + 2 ^ 8 * maskBy 8 (fun j => (pcOf s path j).sov) +
      2 ^ 16 * maskBy 8 (fun j => (pcOf s path j).spart))
  else if decide (Reg.OBS_PLUMB_CTL ≤ a) && decide (a < Reg.OBS_SND_CTL) then
    if !plumbOn s then 0
    else if a = Reg.OBS_PLUMB_STAT then (if plumbOwner s path then pack w [(0, 9, o.ring.length)] else 0)
    else if base = Reg.OBS_PLUMB_DATA 0 then (if plumbOwner s path then plumbWord s i else 0)
    else ctlRead s a
  else if decide (Reg.OBS_SND_CTL ≤ a) then
    if !soundingOn s then 0
    else if a = Reg.OBS_SND_STAT ∨ a = Reg.OBS_SND_MARK then w
    else ctlRead s a
  else w

/-! ### The whole map -/

/-- The unit whose registers stand in the megabyte of an address (R56); none for GLB and TICK, which are always there. -/
def blockUnit (a : Nat) : Option Nat :=
  match a / 0x100000 with
  | 1 => some 0 | 2 => some 1 | 3 => some 2 | 4 => some 5 | 5 => some 6 | 6 => some 3 | 7 => some 4 | 8 => some 7
  | 9 => some 8 | 0xA => some 9 | 0xB => some 10 | 0xC => some 11 | 0xD => some 12 | 0xE => some 13 | 0xF => some 14
  | 0x10 => some 14 | 0x11 => some 15 | 0x12 => some 15 | _ => none

/-- The unit of an address is present (R8, R10, R11). -/
def blockOn (s : State) (a : Nat) : Bool := match blockUnit a with | some u => unitOn s u | none => true

/-- Element numbers of a register of a row: the two dimensions of R56's maps. -/
def RegDesc.elem (d : RegDesc) (a : Nat) : Nat × Nat :=
  let off := a - d.base
  if d.n2 = 1 then ((if d.n1 = 1 then 0 else off / d.s1), 0) else (off / d.s1, off % d.s1 / d.s2)

/-- Key of a register in the register file: banked registers stand in the path's own bank (R15, R57, R668). -/
def regKey (path a : Nat) (d : RegDesc) : Nat := if d.banked then bankStride * path + a else a

/-- The word that a register holds, with the fields that show other state laid over it. -/
def regNow (s : State) (path a : Nat) (d : RegDesc) : BitVec 32 :=
  let w := s.reg (regKey path a d)
  let (i, j) := d.elem a
  if !blockOn s a then 0 else
  match a / 0x100000 with
  | 0 => if a < 0x10000 then showGlb s a w else showTick s a w
  | 1 => showHp s d.base i j w
  | 2 => showQf s d.base a i w
  | 3 => showLc s path d.base a i w
  | 4 => showMed s d.base i j w
  | 5 => showMtl s a w
  | 6 => showIcu s d.base a i w
  | 7 => showKv s path a w
  | 8 => showDmv s d.base a i w
  | 9 => showMemp s a w
  | 0xA => showMgmt s a w
  | 0xB => showSf s a w
  | 0xC => showGau s path d.base a i w
  | 0xD => showSed s a w
  | 0xE => showPwr s a w
  | 0xF => showSup s a w
  | 0x10 => showThm s d.base a i w
  | 0x11 => showNrw s d.base a i w
  | 0x12 => showObs s path d.base a i w
  | _ => 0

end Sys2Proof.Machine
end

