-- ==== Sys2Proof/Machine/Mmio.lean ====
section
/-! DEFINITION. Register accesses (R14 to R19, R56): what a read gives and clears, what a write does, by path, and the
MMIO window messages of the Tuten port (R443, R449). -/

namespace Sys2Proof.Machine

/-! ### Who reaches a register -/

/-- Blocks whose registers lie in PD_AON (R554): GLB, TICK, GAU, PWR, SUP and THM. -/
def aonBlock (a : Nat) : Bool :=
  match a / 0x100000 with | 0 => true | 0xC => true | 0xE => true | 0xF => true | 0x10 => true | _ => false

/-- Blocks whose registers lie in PD_MGMT (R554): MGMT and SF. -/
def mgmtBlock (a : Nat) : Bool := match a / 0x100000 with | 0xA => true | 0xB => true | _ => false

/-- The registers of an address are clamped in the power state (R555). -/
def blockClamped (s : State) (a : Nat) : Bool :=
  if aonBlock a then false else if mgmtBlock a then decide (s.pwr.st = 3) else decide (2 ≤ s.pwr.st)

/-- The blocks that PD_AON answers with VMGMT FAILED (R585). -/
def aonAnswers (a : Nat) : Bool := aonBlock a

/-- A Tuten-port access is held, and wakes the device (R456, R555): it reaches a clamped domain, or in DEEP is no read of
the PWR block. -/
def tutHeld (s : State) (write : Bool) (a : Nat) : Bool :=
  blockClamped s a || (decide (s.pwr.st = 3) && (write || a / 0x100000 != 0xE))

/-- A path can reach registers at all: a head that is on and out of reset, the Tuten port, a core that runs. -/
def pathReaches (s : State) (path : Nat) : Bool :=
  if mgmtHeld s || s.pwr.st = 4 then false
  else if isHead path then headOn s path && !(headOf s path).perst && (headOf s path).released && decide (s.pwr.st ≤ 1)
  else if path = tuten then true
  else isCore path && decide (s.pwr.st ≤ 2) && !railFailed s 4 && (fld s F.MGMT_STAT_CORES).testBit (path - 5)

/-! ### LO and HI halves (R15, R16) -/

/-- The rows that are the LO half of a 64-bit quantity; its HI half stands 4 bytes above. -/
def loRows : List Nat :=
  [Reg.TICK_COUNT_LO, Reg.TICK_CAL_LO, Reg.TICK_CAL_SET_LO, Reg.TICK_BUDGET_LO, Reg.TICK_BUDGET_EFF_LO,
   Reg.HP_REGION_LO 0 0, Reg.LC_LCMD_DPA_LO 0, Reg.MED_CH_DA_REF_LO 0, Reg.MTL_WSEQ_LO, Reg.MTL_JSEQ_LO,
   Reg.ICU_HALT_ID_LO, Reg.ICU_SHORE_POS_LO] ++
  [Reg.ICU_SHORE_END_LO, Reg.ICU_QUAR_LO 0, Reg.KV_SLOT_CNT_LO, Reg.KV_SLOT_RES_LO, Reg.KV_JQ_DBASE_LO 0, Reg.KV_JQ_CBASE_LO 0,
   Reg.MEMP_STUCK_LO 0, Reg.DMV_CH_DBASE_LO 0, Reg.DMV_CH_CBASE_LO 0, Reg.DMV_CH_FAULT_LO 0, Reg.MGMT_LC_CHAL_LO,
   Reg.MGMT_OBS_EXP_LO, Reg.PWR_TIMER_LO, Reg.NRW_RSEQ_LO, Reg.NRW_MEM_ACK_LO 0]

/-- The row of an address is a LO half, or its HI half. -/
def isLo (d : RegDesc) : Bool := loRows.contains d.base
def isHi (d : RegDesc) : Bool := decide (4 ≤ d.base) && loRows.contains (d.base - 4)

/-- The value a register reads, without the effects of reading it. -/
def peek (s : State) (path a : Nat) : BitVec 32 :=
  match regDesc a with
  | some d => readFields d.fields (regNow s path a d)
  | none => 0

/-- The direct-access buffer of channel c (R266). -/
def daBuffer (a : Nat) : Option (Nat × Nat) :=
  let off := a % 0x10000
  if 0x400000 ≤ a ∧ a < 0x500000 ∧ 0x1000 ≤ off ∧ off < 0x4C00 then some ((a - 0x400000) / 0x10000, off - 0x1000) else none

/-! ### Reads -/

/-- What reading a register changes (R17): RC fields clear; the sample of OBS_PLUMB_DATA7 leaves the ring (R679); the
lowest VIN starts anew (R625). -/
def readEffect (path a : Nat) (d : RegDesc) (s : State) : State :=
  if a = Reg.SUP_VIN then { s with sup := { s.sup with vinMin := 0xFFFF } }
  else if a = Reg.OBS_PLUMB_DATA 7 then (if plumbOn s && plumbOwner s path then plumbDrop s else s)
  else if a = Reg.OBS_PLUMB_STAT && !plumbOwner s path then s
  else if a = Reg.TICK_CYCLE ∨ a = Reg.PWR_DOMAIN then { s with fresh := s.fresh + 1 }
  else if d.fields.any (fun f => f.2.2 == .rc) then
    s.putReg (regKey path a d) (readClear d.fields (s.reg (regKey path a d)))
  else s

/-- A 32-bit read (R14 to R18): its value, and the state after it. A LO read captures the HI half for the path, and the
path's next HI read gives what was captured; each LO register has its own holding register on each path (R16 says 'a holding
register for the same access path': DESIGN CHOICE, log entry 150). -/
def mmioRead (path a : Nat) (s : State) : BitVec 32 × State :=
  if a % 4 ≠ 0 || !blockOn s a then (0, s) else
  match regDesc a with
  | none =>
    (match daBuffer a with
     | some (c, o) => (if chanOn s c then BitVec.ofNat 32 (leVal (mbytes 0 (chanOf s c).buf o 4)) else 0, s)
     | none => (0, s))
  | some d =>
    match (if isHi d then tfind s.captured (stageKey path a) else none) with
    | some v => (v, { s with captured := tdel (stageKey path a) s.captured })
    | none =>
      let v := peek s path a
      let s := if isLo d then { s with captured := tput (stageKey path (a + 4)) (peek s path (a + 4)) s.captured } else s
      (v, readEffect path a d s)

/-! ### Writes -/

/-- The effect of R17 on the stored word. -/
def plainWrite (path a : Nat) (d : RegDesc) (v : BitVec 32) (s : State) : State :=
  s.putReg (regKey path a d) (writeFields d.fields (s.reg (regKey path a d)) v)

/-- The HI write of a plain 64-bit quantity commits both halves (R15). -/
def pairWrite (path a : Nat) (d : RegDesc) (v : BitVec 32) (s : State) : State :=
  let lo := stagedLo s path (a - 4)
  match regDesc (a - 4) with
  | some e => plainWrite path a d v (plainWrite path (a - 4) e lo s)
  | none => s

/-- A write of MED_CHc_CTL: DA and RETRAIN (R257, R263). -/
def medCtlWrite (path c : Nat) (v : BitVec 32) (s : State) : State := doRetrainReq path c v (doDaEnter path c v s)

/-- A write of MED_CHc_RETRY (R266): each field within its range. -/
def medRetryWrite (c : Nat) (v : BitVec 32) (s : State) : State :=
  let st := (F.MED_CH_RETRY_STEP c).get v
  let hi := (F.MED_CH_RETRY_HIGH c).get v
  let s := if 1 ≤ st ∧ st ≤ 32 then setF (F.MED_CH_RETRY_STEP c) st s else s
  if 16 ≤ hi ∧ hi ≤ 400 then setF (F.MED_CH_RETRY_HIGH c) hi s else s

/-- A write of MTL_CTL (R318): each field within its range. -/
def mtlCtlWrite (v : BitVec 32) (s : State) : State :=
  let age := F.MTL_CTL_AGE.get v
  let cool := F.MTL_CTL_COOL.get v
  let s := if 16 ≤ age then setF F.MTL_CTL_AGE age s else s
  if 1 ≤ cool then setF F.MTL_CTL_COOL cool s else s

/-- A write of MED_CHc_DA_CMD (R264): OP and MODE, and with GO the operation, whose outcome on the die is a free value. -/
def daCmdWrite (path c : Nat) (v : BitVec 32) (s : State) : State :=
  let s := setF (F.MED_CH_DA_CMD_OP c) ((F.MED_CH_DA_CMD_OP c).get v) s
    |> setF (F.MED_CH_DA_CMD_MODE c) ((F.MED_CH_DA_CMD_MODE c).get v)
  if !v.getLsbD 8 then s else
  let (ok, s) := draw 1 s
  daGo path c (v.toNat % 8) v (ok == 1) s

/-- The owner of a job queue or channel writes its ring's bases and key index (R392, R438). -/
def ringWrite (path b a : Nat) (d : RegDesc) (v : BitVec 32) (s : State) : State :=
  if !rgOwns s b path then s else if isHi d then pairWrite path a d v s else plainWrite path a d v s

/-- A job queue's registers. -/
def jqWrite (path q a : Nat) (d : RegDesc) (v : BitVec 32) (s : State) : State :=
  if !sealOn s then s
  else if a = jq q then doJqCfg path q v s
  else if a = jq q + 0x18 then doJqTail path q v s
  else ringWrite path (jq q) a d v s

/-- A mover channel's registers; those that serve the seal engine take no writes (R424). -/
def dmvWrite (path n a : Nat) (d : RegDesc) (v : BitVec 32) (s : State) : State :=
  if sealOn s && decide (8 ≤ n) then s
  else if a = dmv n then doDmvCfg path n v s
  else if a = dmv n + 0x18 then doDmvTail path n v s
  else if a = dmv n + 0x28 then doDmvCtl path n (v.toNat % 4) s
  else ringWrite path (dmv n) a d v s

/-- A write of LC_LCMD_CTL (R196): with GO the command its OP names. -/
def lcmdWrite (path a : Nat) (d : RegDesc) (v : BitVec 32) (s : State) : State :=
  if v.getLsbD 3 then doLcmd path (v.toNat % 8) v s
  else if (tfind s.lcmds path).isSome then s
  else plainWrite path a d v s

/-- A write of MGMT_ALERT (R446): clearing PENDING ends the alert, and releases the pin. -/
def alertWrite (v : BitVec 32) (s : State) : State :=
  if v.getLsbD 0 && bit s F.MGMT_ALERT_PENDING then
    let s := setF F.MGMT_ALERT_PENDING 0 s
    if bit s F.MGMT_TUT_STAT_BUSMODE then s else emit (.alertPin false) s
  else s

/-- A write of NRW_CTL (R664). -/
def nrwCtlWrite (v : BitVec 32) (s : State) : State :=
  let t := F.NRW_CTL_ACK_TIMEOUT.get v
  if nrwOn s ∧ 5 ≤ t ∧ t ≤ 120 then setF F.NRW_CTL_ACK_TIMEOUT t s else s

/-- A write of the flash registers (R486, R515): the command registers take it from a core only; the rest take the Tuten
port's too (R19). -/
def sfRegWrite (path a : Nat) (d : RegDesc) (v : BitVec 32) (s : State) : State :=
  let port := if a = Reg.SF_UNLOCK then some 0 else if a = Reg.SF_CMD then some 1 else if a = Reg.SF_ADDR then some 2
    else if a = Reg.SF_DATA_LO then some 3 else if a = Reg.SF_DATA_HI then some 4 else none
  match port with
  | some r => if isCore path then sfWrite (path - 5) r v 0x4000000 s else s
  | none =>
    if a = Reg.SF_FW_TRIAL then doHealthy path v s
    else plainWrite path a d v s

/-- The write of a register by its block; i is its element. -/
def blockWrite (path a i : Nat) (d : RegDesc) (v : BitVec 32) (s : State) : State :=
  if a = Reg.TICK_CAL_SET_HI then doCalSetCommit path v s
  else if a = Reg.TICK_BUDGET_HI then doBudgetCommit path v s
  else if a = Reg.GLB_RESET_CAUSE then (if path = tuten then plainWrite path a d v s else s)
  else
  match a / 0x100000 with
  | 1 =>
    -- R142: HP_ERR_STAT takes no other head's write
    if headOn s i && (d.base != Reg.HP_ERR_STAT 0 || path == i || path == tuten) then plainWrite path a d v s else s
  | 2 =>
    if a = Reg.QF_BIST_CTL then
      (if v.getLsbD 8 then doBistStart path (v.toNat % 32) s else plainWrite path a d v s)
    else if d.base = Reg.QF_Q_STAT 0 && !queueOn s i then s
    else plainWrite path a d v s
  | 3 =>
    if a = Reg.LC_CLEAN_CTL then doCleanCtl v s
    else if d.base = Reg.LC_LCMD_CTL 0 then lcmdWrite path a d v s
    else if isHi d then pairWrite path a d v s
    else plainWrite path a d v s
  | 4 =>
    if !chanOn s i then s
    else if d.base = Reg.MED_CH_CTL 0 then medCtlWrite path i v s
    else if d.base = Reg.MED_CH_RETRY 0 then medRetryWrite i v s
    else if d.base = Reg.MED_CH_DA_CMD 0 then daCmdWrite path i v s
    else if isHi d then pairWrite path a d v s
    else plainWrite path a d v s
  | 5 =>
    if a = Reg.MTL_CTL then mtlCtlWrite v s
    else if a = Reg.MTL_DREDGE_CTL then doMtlDredgeCtl path v s
    else plainWrite path a d v s
  | 6 => if a = Reg.ICU_HALT_CTL then doDiscard path v s else plainWrite path a d v s
  | 7 =>
    if Reg.KV_JQ_CFG 0 ≤ a then jqWrite path i a d v s
    else if d.base = Reg.KV_SLOT_SEL 0 && !sealOn s then s
    else plainWrite path a d v s
  | 8 => if Reg.DMV_CH_CFG 0 ≤ a then dmvWrite path i a d v s else s
  | 9 => if a = Reg.MEMP_INJ_CTL then doInjCtl path v s else plainWrite path a d v s
  | 0xA => if a = Reg.MGMT_ALERT then alertWrite v s else plainWrite path a d v s
  | 0xB => sfRegWrite path a d v s
  | 0xE =>
    if a = Reg.PWR_CTL then doPwrCtl path v s
    else if isHi d then pairWrite path a d v s
    else plainWrite path a d v s
  | 0xF => doSupWrite path a v s
  | 0x11 => if a = Reg.NRW_CTL then nrwCtlWrite v s else plainWrite path a d v s
  | 0x12 =>
    if d.base = Reg.OBS_PC_CFG 0 0 then doPcCfg path i v s
    else if a = Reg.OBS_SND_MARK then doSndMark path v s
    else if d.fields.any (fun f => f.2.2 == .rw) then doPlumbCtl path a v s
    else s
  | _ => plainWrite path a d v s

/-- A 32-bit write (R14, R15, R18, R19): ignored when unaligned, at no register, to an absent unit, or by a host to a
management-only register; a LO write is staged for its path. -/
def mmioWrite (path a : Nat) (v : BitVec 32) (s : State) : State :=
  if a % 4 ≠ 0 || !blockOn s a then s else
  match regDesc a with
  | none =>
    (match daBuffer a with
     | some (c, o) =>
       if chanOn s c && isMgmt path then modChan c (fun x => { x with buf := mputs 0 x.buf o (le 4 v.toNat) }) s else s
     | none => s)
  | some d =>
    if isHead path && !d.hostW then s
    else if isLo d && d.fields.any (fun f => f.2.2 == .rw) then stageLo path a v s
    else blockWrite path a (d.elem a).1 d v s

/-! ### The commands -/

/-- A register write as a path makes it (R14 to R19, R555). -/
def doRegWrite (path a : Nat) (v : BitVec 32) (s : State) : State :=
  if !pathReaches s path || (path == tuten && railFailed s 4) then s
  else if path = tuten && tutHeld s true a then wakeStart 3 s
  else if blockClamped s a then s
  else mmioWrite path a v s

/-- A register read as a path makes it; a clamped domain gives a core zeros. -/
def doRegRead (path a : Nat) (s : State) : State :=
  if !pathReaches s path || (path == tuten && railFailed s 4 && !aonAnswers a) then s
  else if path = tuten && tutHeld s false a then wakeStart 3 s
  else if blockClamped s a then emit (.value path a 0) s
  else
    let (v, s) := mmioRead path a s
    emit (.value path a v) s

/-- A write of a size in bytes (R14): an aligned 64-bit one is two 32-bit writes, the lower address first; any other size
is ignored. -/
def doSizedWrite (path a size : Nat) (v : BitVec 64) (s : State) : State :=
  if size = 4 then doRegWrite path a (BitVec.ofNat 32 v.toNat) s
  else if size = 8 ∧ a % 8 = 0 then
    doRegWrite path (a + 4) (BitVec.ofNat 32 (v.toNat / 2 ^ 32)) (doRegWrite path a (BitVec.ofNat 32 v.toNat) s)
  else s

/-- A read of a size in bytes (R14): an aligned 64-bit one is two 32-bit reads, the lower address first; any other size
returns zero. -/
def doSizedRead (path a size : Nat) (s : State) : State :=
  if size = 4 then doRegRead path a s
  else if size = 8 ∧ a % 8 = 0 then doRegRead path (a + 4) (doRegRead path a s)
  else if !pathReaches s path then s
  else emit (.value path a 0) s

/-- REGISTER_WRITE (R14 to R19). -/
def execRegisterWrite (path addr size : Nat) (v : BitVec 64) (s : State) : Host.Outcome State Fault Refusal :=
  run (doSizedWrite path addr size v) s

/-- REGISTER_HI_WRITE (R15): a write of the HI half of a 64-bit quantity. -/
def execRegisterHiWrite (path addr : Nat) (v : BitVec 32) (s : State) : Host.Outcome State Fault Refusal :=
  run (fun s => if (match regDesc addr with | some d => isHi d | none => false) then doRegWrite path addr v s else s) s

/-- REGISTER_LO_READ (R16): a read of the LO half of a 64-bit quantity. -/
def execRegisterLoRead (path addr : Nat) (s : State) : Host.Outcome State Fault Refusal :=
  run (fun s => if (match regDesc addr with | some d => isLo d | none => false) then doRegRead path addr s else s) s

/-- RC_REGISTER_READ (R17): a read of a register, whose RC fields clear. -/
def execRcRegisterRead (path addr size : Nat) (s : State) : Host.Outcome State Fault Refusal :=
  run (doSizedRead path addr size) s

/-! ### MMIO window messages (R443, R449) -/

/-- Answer an MMIO window message: the response bytes 3 onward of R449 (the type and vendor bytes before them are those of
the request). -/
def mmioAnswer (status count offset : Nat) (data : List (BitVec 32)) (s : State) : State :=
  emit (.tuten 0x7E (le 1 status ++ le 1 count ++ zeros 3 ++ le 4 offset ++ data.flatMap (fun w => le 4 w.toNat))) s

/-- The status of a message before its accesses (R449): 1 BAD_OFFSET, 2 BAD_COUNT, 3 REFUSED. -/
def mmioStatus (count offset : Nat) : Nat :=
  if count < 1 ∨ 16 < count then 2 else if offset % 4 ≠ 0 ∨ 0x4000000 < offset + 4 * count then 1 else 0

/-- The words of a read, in ascending order, with the state after them. -/
def mmioReads (n a : Nat) (s : State) : List (BitVec 32) × State :=
  match n with
  | 0 => ([], s)
  | k + 1 =>
    let (v, s) := mmioRead tuten a s
    let (l, s) := mmioReads k (a + 4) s
    (v :: l, s)

/-- The writes of a message, in ascending order. -/
def mmioWrites (a : Nat) (l : List (BitVec 32)) (s : State) : State :=
  match l with
  | [] => s
  | v :: r => mmioWrites (a + 4) r (mmioWrite tuten a v s)

/-- The addresses that a message touches. -/
def windowAddrs (count offset : Nat) : List Nat := (List.range count).map (fun i => offset + 4 * i)

/-- A message that reaches a clamped domain, or DEEP's gated port, is held and wakes the device (R456, R555). -/
def windowHeldMmio (s : State) (write : Bool) (count offset : Nat) : Bool :=
  (windowAddrs count offset).any (tutHeld s write)

/-- MMIO_WINDOW_READ's effect: no message is answered before the port has its endpoint ID (R447), but for the PD_AON service
of R585. -/
def doWindowRead (count offset : Nat) (s : State) : State :=
  let bad := mmioStatus count offset
  if !pathReaches s tuten then s
  else if railFailed s 4 then
    (if bad ≠ 0 ∨ !(windowAddrs count offset).all aonAnswers then mmioAnswer (if bad = 0 then 3 else bad) count offset [] s
     else
       let (l, s) := mmioReads count offset s
       mmioAnswer 0 count offset l s)
  else if s.pwr.st ≠ 3 && (fld s F.MGMT_STAT_CORES = 0 || fld s F.MGMT_TUT_STAT_EID = 0) then s
  else if inRecovery s && s.pwr.st ≠ 3 then mmioAnswer 3 count offset [] s
  else if bad ≠ 0 then mmioAnswer bad count offset [] s
  else if windowHeldMmio s false count offset then wakeStart 3 s
  else
    let (l, s) := mmioReads count offset s
    mmioAnswer 0 count offset l s

/-- MMIO_WINDOW_READ (R449). -/
def execMmioWindowRead (_secured : Bool) (count offset : Nat) (s : State) : Host.Outcome State Fault Refusal :=
  run (doWindowRead count offset) s

/-- MMIO_WINDOW_WRITE's effect (R443, R449). -/
def doWindowWrite (secured : Bool) (count offset : Nat) (data : List (BitVec 32)) (s : State) : State :=
  let bad := mmioStatus count offset
  if !pathReaches s tuten then s
  else if railFailed s 4 then mmioAnswer 3 count offset [] s
  else if s.pwr.st = 3 then wakeStart 3 s
  else if fld s F.MGMT_STAT_CORES = 0 || fld s F.MGMT_TUT_STAT_EID = 0 then s
  else if inRecovery s then mmioAnswer 3 count offset [] s
  else if needsSession s false && !isSecured s tuten secured then mmioAnswer 3 count offset [] (secureRequired 0xFFFF s)
  else if bad ≠ 0 ∨ data.length ≠ count then mmioAnswer (if bad = 0 then 2 else bad) count offset [] s
  else if windowHeldMmio s true count offset then wakeStart 3 s
  else mmioAnswer 0 count offset [] (mmioWrites offset data s)

/-- MMIO_WINDOW_WRITE (R449). -/
def execMmioWindowWrite (secured : Bool) (count offset : Nat) (data : List (BitVec 32)) (s : State) :
    Host.Outcome State Fault Refusal := run (doWindowWrite secured count offset data) s

end Sys2Proof.Machine
end

