-- ==== Sys2Proof/Machine/Boundary.lean ====
section
/-! DEFINITION. The tick boundary (R27 to R33): its eight steps in their order, and everything the spec lets happen at a
boundary. -/

namespace Sys2Proof.Machine

/-- The armed calendar set is refused at step 3 of the boundary that begins (R54). -/
def calSetRefused (s : State) : Bool :=
  match s.tick.calSet with
  | some ms => bit s F.TICK_CAL_STAT_VALID && decide (ms < (calAdvance s).tick.cal)
  | none => false

/-- Tick-scheduled work of a unit still runs at the boundary (R30): it is counted and recorded, and the cycles that it runs
on are charged to the new tick's share of its class at its die. -/
def overrun (o : Overrun) (s : State) : State :=
  let s := modDie o.die (fun d => { d with credit := d.credit.set o.cls (lat 0 d.credit o.cls - 64 * (o.cycles : Int)) }) s
  satInc F.TICK_OVERRUN_COUNT (setF F.TICK_OVERRUN_UNIT o.unit s) |> sed 0x0010 sWARNING 16 o.unit o.cycles (s.tick.count % 2 ^ 32)

/-- The epoch latch of the protection unit (R417). -/
def mempEpoch (s : State) : State :=
  if !coreOn s then s else
  let s := forEach (List.range 16) (fun c s =>
    let n := tget 0 s.memp.epochCe c
    let s := setF (F.MEMP_CE_EPOCH_COUNT c) n s
    let limit := fld s F.MEMP_CE_THRESH_LIMIT
    if limit < n then sed 0x0801 sWARNING 8 c n limit s else s) s
  { s with memp := { s.memp with epochCe := [] } }

/-- The mean of sensor 6 over the epoch that ends (R450). -/
def powerEpoch (s : State) : State :=
  let m := s.mgmt
  { s with mgmt := { m with
      powerAvg := if m.powerRounds = 0 then m.powerAvg else m.powerSum / m.powerRounds, powerSum := 0, powerRounds := 0 } }

/-- Step 5 at tick 0 of an epoch (R33). -/
def epochStep (rngOk : Bool) (s : State) : State :=
  if tickInEpoch s ≠ 0 then s else
  let s := mempEpoch (epochLatch s)
  let s := powerEpoch (fwEpoch (sndEpoch s))
  if coreOn s then rngRetry rngOk s else s

/-- A status poll with an injection of point 0x21 (R435): the die misses this poll and the next. -/
def pollInj (k : Nat) (s : State) : State × Bool :=
  let mine := fun (e : Nat × Nat × Nat × Nat) => e.1 == 0x21 && e.2.1 == k
  if s.memp.planted.any mine then
    ({ s with memp := { s.memp with planted := s.memp.planted.filter (fun e => !mine e) } }, true)
  else if injArmed s 0x21 k then
    let s := injFire agInternal k s
    ({ s with memp := { s.memp with planted := (0x21, k, 0, 3) :: s.memp.planted } }, true)
  else (s, false)

/-- Accesses that recur without a command: a window of the random source's tests (point 0x26), the cores' instruction
fetches and their data accesses (classes 8 and 9). -/
def recurring (rngOk : Bool) (s : State) : State :=
  let s := forEach [0, 1] (fun t s =>
    if injArmed s 0x26 t && fld s F.KV_STAT_RNG == 1 then doRngFail t (!rngOk) (injFire agInternal 0 s) else s) s
  if fld s F.MGMT_STAT_CORES = 0 || inRecovery s then s else
  let half := fld s F.MGMT_STAT_HALF
  let s := mempReadWith 8 half 0 262144 agInternal (fun w s => fetchTrap 0 w 8 (mempUe 8 half w agInternal s)) s
  mempReadWith 9 0 0 262144 agInternal (fun w s => fetchTrap 0 w 9 (mempUe 9 0 w agInternal s)) s

/-- The status polls of a tick (R226, R252, R253): a die that misses its second poll in a row is fenced; when every
online die of a channel does so at once, the channel is. -/
def diePolls (silent : List Nat) (s : State) : State :=
  forEach ((List.range 16).filter (fun c => chanOn s c && chanState s c == 2)) (fun c s =>
    let on := (List.range 8).filter (fun d => dieOnline s (c * 8 + d))
    let s := forEach on (fun d s =>
      let (s, inj) := pollInj (c * 8 + d) s
      modDie (c * 8 + d) (fun x => { x with missed := if inj || silent.contains (c * 8 + d) then x.missed + 1 else 0 }) s) s
    let out := on.filter (fun d => decide (2 ≤ (dieOf s (c * 8 + d)).missed))
    if out.isEmpty then s
    else if out = on then fenceChannel c 1 s
    else forEach out (fun d s => doDieFenced c d 0 s) s) s

/-- A die's progress window falls in the tick (R231). -/
def windowDue (s : State) (k : Nat) : Bool :=
  (dieOf s k).susp.isSome && s.tick.count % 4 == k % 4 && !inFlush s && dieOnline s k

/-- The progress windows of a tick (R231): each resumes its die's operation for 1.0 µs, once a sense in progress has ended. -/
def progressWindows (s : State) : State :=
  forEach ((s.media.dies.map (·.1)).filter (windowDue s)) (fun k s =>
    let now := cycNow s (k / 8)
    let at_ := match (dieOf s k).page with | some p => max now p.ready | none => now
    sndMedia k 4 1 0 0 (modDie k (fun d => { d with window := at_ + 1500 }) (dieUnsuspend k at_ s))) s

/-- PLAN frames of the tick (R224, R683): one for each online die. -/
def planFrames (s : State) : State :=
  if !sndTakes s 4 then s else
  forEach ((List.range 128).filter (dieOnline s)) (fun k s =>
    let l := (dieOf s k).plan
    let bg := (l.filter (fun p => match p with | .sense _ => true | _ => false)).length
    let w := decide (cycNow s (k / 8) < (dieOf s k).window)
    sndPush 4 5 (le 1 (k / 8) ++ le 1 (k % 8) ++ le 1 (b01 (l.contains .prog)) ++ le 1 (b01 (l.contains .erase)) ++ le 1 bg ++
      le 1 (b01 w) ++ (List.range 8).flatMap (fun c => le 1 (effShare s c)) ++ zeros 2) s) s

/-- Step 8: the die-slot plan and the tree writeback list are released (R33, R224, R341), with the shares of the tick. -/
def planStep (s : State) : State :=
  if !coreOn s then s else
  let s := if unitOn s 6 then shareTick s else s
  let s := accrueCredits s
  let s := if inHalt s then s else nodeWritebacks s
  planFrames (forEach (s.media.dies.map (·.1)) planDie (progressWindows s))

/-- A held token ends (R474). -/
def tokenStep (s : State) : State :=
  match s.mgmt.token with
  | some t => if t.notAfter ≤ s.tick.cal then tokenDrop 0 s else s
  | none => s

/-- Charged bytes that T3 does not let rise (R597). -/
def capStep (s : State) : State :=
  modSup (fun x => { x with dCap := if 3 ≤ levelMax s then some (chargedBytes s) else none }) s

/-- An off request of PWR_STATE_REQ reaches the supervisor (R561, R590), a follower's once (R615). -/
def offStep (s : State) : State :=
  if !s.sup.offAsked then modSup (fun x => { x with offSent := false }) s
  else if s.sup.offSent || !(s.sup.st == 2 || s.sup.st == 3) then s
  else flushStart 1 (modSup (fun x => { x with offSent := true }) s)

/-- RESET_DEVICE's sequence begins (R475). -/
def resetStep (s : State) : State :=
  if s.mgmt.resetDue then flushStart 4 { s with mgmt := { s.mgmt with resetDue := false } } else s

/-- A tick boundary. `overruns`: units whose work still runs; `silent`: dies that miss the poll; `rngOk`: the outcome of
a retry of the random source. Nothing runs before PD_AON is released or in OFF. -/
def doBoundary (overruns : List Overrun) (silent : List Nat) (rngOk : Bool) (s : State) : State :=
  if 6 ≤ s.sup.st then s else
  let refused := calSetRefused s
  let s := tickAdvance (cycleTick s)
  let s := answerTimestamps refused s
  let s := forEach overruns overrun (modSup (fun x => { x with issued := [] }) s)
  if !s.sup.t0 then s else
  let s := epochStep rngOk s
  let s := if coreOn s && (s.sed.flushDue || tickInEpoch s == 0) then sedFlush s else s
  let s := if slicesServe s && !s.mtl.internalQ.isEmpty then internalServe s else s
  let s := if coreOn s then shoreTick s else s
  let s := fwSwitch (sfServe s)
  let s := planStep (when s.ndx.live.isSome reLevel (ndxLive s))
  let s := if coreOn s then recurring rngOk (diePolls silent s) else s
  let s := sndBoundary (plumbBoundary (levelBoundary (tokenStep s)))
  let s := if coreOn s then pump (nrwSend 1 (nrwSend 0 (nrwTake s))) else s
  let s := capStep (idleBoundary (flushCut s))
  let s := if inHalt s then entryCut 5 s else s
  resetStep (offStep s)

/-- TICK_BOUNDARY (R33). -/
def execTickBoundary (overruns : List Overrun) (silent : List Nat) (rngOk : Bool) (s : State) : Host.Outcome State Fault Refusal :=
  run (doBoundary overruns silent rngOk) s

end Sys2Proof.Machine
end

