-- ==== Sys2Proof/Machine/Tuten.lean ====
section
/-! DEFINITION. CXL CCI messages on the Tuten port (R441 to R443, R448): each carries a mailbox command, which the device
runs as it runs the command on the port's own path. -/

namespace Sys2Proof.Machine

/-- The state of an outcome that goes on. -/
def nextOr (s : State) (o : Host.Outcome State Fault Refusal) : State := match o with | .next t => t | _ => s

/-- The standard command of an opcode on the Tuten port (R132); none for one that is not implemented. -/
def cciStandard (op : Nat) (d : List Byte) (s : State) : Option (Host.Outcome State Fault Refusal) :=
  match op with
  | 0x0001 => some (execIdentify tuten d s)
  | 0x0005 => some (execRequestAbortBgOp tuten d s)
  | 0x0100 => some (execGetEventRecords tuten d s)
  | 0x0101 => some (execClearEventRecords tuten d s)
  | 0x0102 => some (execGetEventInterruptPolicy tuten d s)
  | 0x0103 => some (execSetEventInterruptPolicy tuten d s)
  | 0x0200 => some (execGetFwInfo tuten d s)
  | 0x0300 => some (execGetTimestamp tuten d s)
  | 0x0301 => some (execSetTimestamp tuten d s)
  | 0x0400 => some (execGetSupportedLogs tuten d s)
  | 0x0401 => some (execGetLog tuten d s)
  | 0x4000 => some (execIdentifyMemoryDevice tuten d s)
  | 0x4100 => some (execGetPartitionInfo tuten d s)
  | 0x4102 => some (execGetLsa tuten d s)
  | 0x4103 => some (execSetLsa tuten d s)
  | 0x4200 => some (execGetHealthInfo tuten d s)
  | 0x4201 => some (execGetAlertConfiguration tuten d s)
  | 0x4202 => some (execSetAlertConfiguration tuten d s)
  | 0x4203 => some (execGetShutdownState tuten d s)
  | 0x4204 => some (execSetShutdownState tuten d s)
  | 0x4300 => some (execGetPoisonList tuten d s)
  | 0x4301 => some (execInjectPoison tuten d s)
  | 0x4302 => some (execClearPoison tuten d s)
  | 0x4303 => some (execGetScanMediaCapabilities tuten d s)
  | 0x4304 => some (execScanMedia tuten d s)
  | 0x4305 => some (execGetScanMediaResults tuten d s)
  | 0x4800 => some (execGetDcConfiguration tuten d s)
  | 0x4801 => some (execGetDcExtentList tuten d s)
  | _ => none

/-- The vendor command of an opcode on the Tuten port (R135); none for an opcode of no command. What the host's payload
does not tell (whether a slot or a block reads back as written) is a free value. -/
def cciVendor (secured : Bool) (op : Nat) (d : List Byte) (s : State) : Option (Host.Outcome State Fault Refusal) :=
  match op with
  | 0xC001 => some (execNdxStage tuten d s)
  | 0xC002 =>
    let (f, s) := draw 1 s
    let (o, s) := draw 16 s
    let (b, s) := draw 8 s
    some (execNdxCommit tuten d (if f = 1 then [(o.toNat, b)] else []) s)
  | 0xC010 => let (v, s) := draw 1 s; some (execFwBlock tuten d (v == 1) s)
  | 0xC011 => some (execFwVerify tuten d s)
  | 0xC012 => some (execFwActivate tuten d s)
  | 0xC013 => some (execFwConfirm tuten d s)
  | 0xC020 => some (execKeyInstall tuten d s)
  | 0xC021 => some (execKeyRetire tuten d s)
  | 0xC022 => some (execShorelineStart tuten d s)
  | 0xC023 => some (execShorelineStatus tuten d s)
  | 0xC030 => some (execSedRead tuten d s)
  | 0xC031 => some (execSedMark tuten d s)
  | 0xC040 => some (run (doPwrReq tuten (byteAt d 0) d) s)
  | 0xC050 => some (execLifecycleAdvance tuten secured d s)
  | 0xC051 => some (execObsTokenInstall tuten d s)
  | 0xC060 => some (run (cmd tuten 0xC060 d (d.length == 32) (doGroupSet tuten d)) s)
  | 0xC061 => some (run (cmd tuten 0xC061 d (d.length == 4) (doNrwResync tuten d)) s)
  | 0xC070 => some (execGauParamRead tuten d s)
  | 0xC071 => some (execGauParamWrite tuten secured d s)
  | 0xC080 => some (execHaltReport tuten d s)
  | 0xC081 => some (execResetDevice tuten secured d s)
  | _ => none

/-- MCTP_CXL_CCI (R441): a command of the tables, or UNSUPPORTED. -/
def execMctpCxlCci (pec secured : Bool) (opcode : Nat) (input : List Byte) (s : State) : Host.Outcome State Fault Refusal :=
  run (fun s =>
    match (if tutBus s then tutDropped pec input.length s else none) with
    | some s => s
    | none =>
      if decide (s.pwr.st ≤ 2) && !railFailed s 4 && !hasEid s then s else
      match cciStandard opcode input s with
      | some o => nextOr s o
      | none =>
        match cciVendor secured opcode input s with
        | some o => nextOr s o
        | none => unsupported tuten opcode input s) s

end Sys2Proof.Machine
end

