-- ==== Sys2Proof/Machine/Dispatch.lean ====
section
/-! DEFINITION. The dispatch: one arm for each command, each one direct call of its meaning. -/

namespace Sys2Proof.Machine

/-- The effect of a command on everything but the queue. -/
def exec (i : Instr) (s : State) : Host.Outcome State Fault Refusal :=
  match i with
  | .tickBoundary overruns silent rngOk => Sys2Proof.Machine.execTickBoundary overruns silent rngOk s
  | .rippleSyncPulse width gap => Sys2Proof.Machine.execRippleSyncPulse width gap s
  | .rippleSyncFrame => Sys2Proof.Machine.execRippleSyncFrame s
  | .calAdjust => Sys2Proof.Machine.execCalAdjust s
  | .syncLost ticks => Sys2Proof.Machine.execSyncLost ticks s
  | .syncConflict => Sys2Proof.Machine.execSyncConflict s
  | .conflictListenEnd => Sys2Proof.Machine.execConflictListenEnd s
  | .tickCalSetCommit path v => Sys2Proof.Machine.execTickCalSetCommit path v s
  | .tickBudgetCommit path v => Sys2Proof.Machine.execTickBudgetCommit path v s
  | .registerWrite path addr size v => Sys2Proof.Machine.execRegisterWrite path addr size v s
  | .registerHiWrite path addr v => Sys2Proof.Machine.execRegisterHiWrite path addr v s
  | .registerLoRead path addr => Sys2Proof.Machine.execRegisterLoRead path addr s
  | .rcRegisterRead path addr size => Sys2Proof.Machine.execRcRegisterRead path addr size s
  | .ndxStage path input => Sys2Proof.Machine.execNdxStage path input s
  | .ndxCommit path input wrong => Sys2Proof.Machine.execNdxCommit path input wrong s
  | .ndxStageOwnerTimeout => Sys2Proof.Machine.execNdxStageOwnerTimeout s
  | .linkUp head width rate cxl => Sys2Proof.Machine.execLinkUp head width rate cxl s
  | .linkDown head => Sys2Proof.Machine.execLinkDown head s
  | .perstAssert head => Sys2Proof.Machine.execPerstAssert head s
  | .perstDeassert head => Sys2Proof.Machine.execPerstDeassert head s
  | .hotReset head => Sys2Proof.Machine.execHotReset head s
  | .cxlReset head => Sys2Proof.Machine.execCxlReset head s
  | .functionLevelReset head => Sys2Proof.Machine.execFunctionLevelReset head s
  | .hdmDecoderCommit head dec base size skip ways gran => Sys2Proof.Machine.execHdmDecoderCommit head dec base size skip ways gran s
  | .memRd head hpa tag up last => Sys2Proof.Machine.execMemRd head hpa tag up last s
  | .memWr head hpa tag data poison up last => Sys2Proof.Machine.execMemWr head hpa tag data poison up last s
  | .memWrPtl head hpa tag data mask poison up last => Sys2Proof.Machine.execMemWrPtl head hpa tag data mask poison up last s
  | .allocationRetry slice => Sys2Proof.Machine.execAllocationRetry slice s
  | .mergeBufferFreed slice => Sys2Proof.Machine.execMergeBufferFreed slice s
  | .gpfRequest head phase => Sys2Proof.Machine.execGpfRequest head phase s
  | .ideKeyProgram head session stream keys => Sys2Proof.Machine.execIdeKeyProgram head session stream keys s
  | .ideFail head flits => Sys2Proof.Machine.execIdeFail head flits s
  | .spdmMessage path msg => Sys2Proof.Machine.execSpdmMessage path msg s
  | .cdatRead head discovery entry => Sys2Proof.Machine.execCdatRead head discovery entry s
  | .identify path input => Sys2Proof.Machine.execIdentify path input s
  | .requestAbortBgOp path input => Sys2Proof.Machine.execRequestAbortBgOp path input s
  | .getEventRecords path input => Sys2Proof.Machine.execGetEventRecords path input s
  | .clearEventRecords path input => Sys2Proof.Machine.execClearEventRecords path input s
  | .getEventInterruptPolicy path input => Sys2Proof.Machine.execGetEventInterruptPolicy path input s
  | .setEventInterruptPolicy path input => Sys2Proof.Machine.execSetEventInterruptPolicy path input s
  | .getFwInfo path input => Sys2Proof.Machine.execGetFwInfo path input s
  | .getTimestamp path input => Sys2Proof.Machine.execGetTimestamp path input s
  | .setTimestamp path input => Sys2Proof.Machine.execSetTimestamp path input s
  | .getSupportedLogs path input => Sys2Proof.Machine.execGetSupportedLogs path input s
  | .getLog path input => Sys2Proof.Machine.execGetLog path input s
  | .identifyMemoryDevice path input => Sys2Proof.Machine.execIdentifyMemoryDevice path input s
  | .getPartitionInfo path input => Sys2Proof.Machine.execGetPartitionInfo path input s
  | .setPartitionInfo path input => Sys2Proof.Machine.execSetPartitionInfo path input s
  | .getLsa path input => Sys2Proof.Machine.execGetLsa path input s
  | .setLsa path input => Sys2Proof.Machine.execSetLsa path input s
  | .getHealthInfo path input => Sys2Proof.Machine.execGetHealthInfo path input s
  | .getAlertConfiguration path input => Sys2Proof.Machine.execGetAlertConfiguration path input s
  | .setAlertConfiguration path input => Sys2Proof.Machine.execSetAlertConfiguration path input s
  | .getShutdownState path input => Sys2Proof.Machine.execGetShutdownState path input s
  | .setShutdownState path input => Sys2Proof.Machine.execSetShutdownState path input s
  | .getPoisonList path input => Sys2Proof.Machine.execGetPoisonList path input s
  | .injectPoison path input => Sys2Proof.Machine.execInjectPoison path input s
  | .clearPoison path input => Sys2Proof.Machine.execClearPoison path input s
  | .getScanMediaCapabilities path input => Sys2Proof.Machine.execGetScanMediaCapabilities path input s
  | .scanMedia path input => Sys2Proof.Machine.execScanMedia path input s
  | .scanDone bad fail => Sys2Proof.Machine.execScanDone bad fail s
  | .getScanMediaResults path input => Sys2Proof.Machine.execGetScanMediaResults path input s
  | .getDcConfiguration path input => Sys2Proof.Machine.execGetDcConfiguration path input s
  | .getDcExtentList path input => Sys2Proof.Machine.execGetDcExtentList path input s
  | .addDcResponse path input => Sys2Proof.Machine.execAddDcResponse path input s
  | .releaseDynamicCapacity path input => Sys2Proof.Machine.execReleaseDynamicCapacity path input s
  | .unsupportedOpcode path opcode input => Sys2Proof.Machine.execUnsupportedOpcode path opcode input s
  | .ringStartupTestDone queue bad => Sys2Proof.Machine.execRingStartupTestDone queue bad s
  | .qfBistStart path queue => Sys2Proof.Machine.execQfBistStart path queue s
  | .qfBistDone queue bad => Sys2Proof.Machine.execQfBistDone queue bad s
  | .qfRingUe queue index word => Sys2Proof.Machine.execQfRingUe queue index word s
  | .qfCopySwitchDone queue => Sys2Proof.Machine.execQfCopySwitchDone queue s
  | .qfPoolReserved queue => Sys2Proof.Machine.execQfPoolReserved queue s
  | .pacedCreditReturn queue => Sys2Proof.Machine.execPacedCreditReturn queue s
  | .fillReturn line up => Sys2Proof.Machine.execFillReturn line up s
  | .ebWritebackDone slice line => Sys2Proof.Machine.execEbWritebackDone slice line s
  | .cleanerClean slice => Sys2Proof.Machine.execCleanerClean slice s
  | .lcCleanCtlWrite path v => Sys2Proof.Machine.execLcCleanCtlWrite path v s
  | .lcmdZero path v => Sys2Proof.Machine.execLcmdZero path v s
  | .lcmdFlush path v => Sys2Proof.Machine.execLcmdFlush path v s
  | .lcmdPrefetch path v => Sys2Proof.Machine.execLcmdPrefetch path v s
  | .lcmdPin path v => Sys2Proof.Machine.execLcmdPin path v s
  | .lcmdDemote path v => Sys2Proof.Machine.execLcmdDemote path v s
  | .lcmdBadop path v => Sys2Proof.Machine.execLcmdBadop path v s
  | .lcmdDone path => Sys2Proof.Machine.execLcmdDone path s
  | .hostSenseStart chan die => Sys2Proof.Machine.execHostSenseStart chan die s
  | .admissionEnter chan die => Sys2Proof.Machine.execAdmissionEnter chan die s
  | .dieResume chan die => Sys2Proof.Machine.execDieResume chan die s
  | .busSlot chan => Sys2Proof.Machine.execBusSlot chan s
  | .senseDone chan die res lat => Sys2Proof.Machine.execSenseDone chan die res lat s
  | .medRecon chan die auth lat => Sys2Proof.Machine.execMedRecon chan die auth lat s
  | .programStart chan die => Sys2Proof.Machine.execProgramStart chan die s
  | .programDone chan die res => Sys2Proof.Machine.execProgramDone chan die res s
  | .eraseDone chan die ok blank => Sys2Proof.Machine.execEraseDone chan die ok blank s
  | .driftSample chan die lo mid hi => Sys2Proof.Machine.execDriftSample chan die lo mid hi s
  | .dieFenced chan die cause => Sys2Proof.Machine.execDieFenced chan die cause s
  | .channelTrainingLost chan => Sys2Proof.Machine.execChannelTrainingLost chan s
  | .channelRetrainDone chan ok => Sys2Proof.Machine.execChannelRetrainDone chan ok s
  | .dieResetAttempt chan die answered inc => Sys2Proof.Machine.execDieResetAttempt chan die answered inc s
  | .medDieRejoin chan die bad => Sys2Proof.Machine.execMedDieRejoin chan die bad s
  | .medChRetrainRequest path chan v => Sys2Proof.Machine.execMedChRetrainRequest path chan v s
  | .medDaEnter path chan v => Sys2Proof.Machine.execMedDaEnter path chan v s
  | .daRead path chan v ok => Sys2Proof.Machine.execDaRead path chan v ok s
  | .daReadRaw path chan v ok => Sys2Proof.Machine.execDaReadRaw path chan v ok s
  | .daProgramRaw path chan v ok => Sys2Proof.Machine.execDaProgramRaw path chan v ok s
  | .daErase path chan v ok => Sys2Proof.Machine.execDaErase path chan v ok s
  | .daReadInfo path chan v ok => Sys2Proof.Machine.execDaReadInfo path chan v ok s
  | .mtlPlace => Sys2Proof.Machine.execMtlPlace s
  | .mtlPlaceWaitEnd => Sys2Proof.Machine.execMtlPlaceWaitEnd s
  | .logPageTimeout => Sys2Proof.Machine.execLogPageTimeout s
  | .rowFillTimeout set => Sys2Proof.Machine.execRowFillTimeout set s
  | .foldCapture => Sys2Proof.Machine.execFoldCapture s
  | .foldCommit reach => Sys2Proof.Machine.execFoldCommit reach s
  | .dredgePick => Sys2Proof.Machine.execDredgePick s
  | .dredgeCommit => Sys2Proof.Machine.execDredgeCommit s
  | .eraseIntent set => Sys2Proof.Machine.execEraseIntent set s
  | .journalPageTimeout => Sys2Proof.Machine.execJournalPageTimeout s
  | .ckptBegin => Sys2Proof.Machine.execCkptBegin s
  | .ckptEnd => Sys2Proof.Machine.execCkptEnd s
  | .mtlRecovery erased => Sys2Proof.Machine.execMtlRecovery erased s
  | .sealWriteback mism => Sys2Proof.Machine.execSealWriteback mism s
  | .remacRewrite line => Sys2Proof.Machine.execRemacRewrite line s
  | .icuRecovery lost => Sys2Proof.Machine.execIcuRecovery lost s
  | .icuHaltCtlDiscard path v => Sys2Proof.Machine.execIcuHaltCtlDiscard path v s
  | .haltReport path input => Sys2Proof.Machine.execHaltReport path input s
  | .shorelineStart path input => Sys2Proof.Machine.execShorelineStart path input s
  | .shorelineStatus path input => Sys2Proof.Machine.execShorelineStatus path input s
  | .shoreWaitTimeout => Sys2Proof.Machine.execShoreWaitTimeout s
  | .shoreCapture => Sys2Proof.Machine.execShoreCapture s
  | .keyInstall path input => Sys2Proof.Machine.execKeyInstall path input s
  | .keyRetire path input => Sys2Proof.Machine.execKeyRetire path input s
  | .keyRetireRanges path input => Sys2Proof.Machine.execKeyRetireRanges path input s
  | .ledgerCompact => Sys2Proof.Machine.execLedgerCompact s
  | .keySramReload kind index => Sys2Proof.Machine.execKeySramReload kind index s
  | .kvJqTailWrite path queue v => Sys2Proof.Machine.execKvJqTailWrite path queue v s
  | .kvJqEnable path queue v => Sys2Proof.Machine.execKvJqEnable path queue v s
  | .jobNop queue => Sys2Proof.Machine.execJobNop queue s
  | .jobGcmEnc queue mism ue => Sys2Proof.Machine.execJobGcmEnc queue mism ue s
  | .jobGcmDec queue mism ue => Sys2Proof.Machine.execJobGcmDec queue mism ue s
  | .jobXtsEnc queue mism ue => Sys2Proof.Machine.execJobXtsEnc queue mism ue s
  | .jobXtsDec queue mism ue => Sys2Proof.Machine.execJobXtsDec queue mism ue s
  | .jobCmacGen queue mism ue => Sys2Proof.Machine.execJobCmacGen queue mism ue s
  | .jobCmacVer queue mism ue => Sys2Proof.Machine.execJobCmacVer queue mism ue s
  | .jobRandom queue ue => Sys2Proof.Machine.execJobRandom queue ue s
  | .nonceWaitEnd queue => Sys2Proof.Machine.execNonceWaitEnd queue s
  | .rngHealthFail test again => Sys2Proof.Machine.execRngHealthFail test again s
  | .drbgReseed => Sys2Proof.Machine.execDrbgReseed s
  | .scrubRow cls inst row up stuck => Sys2Proof.Machine.execScrubRow cls inst row up stuck s
  | .mempFetchTrap core addr => Sys2Proof.Machine.execMempFetchTrap core addr s
  | .mempInjArm path v => Sys2Proof.Machine.execMempInjArm path v s
  | .mempInjDisarm path v => Sys2Proof.Machine.execMempInjDisarm path v s
  | .dmvTailWrite path chan v => Sys2Proof.Machine.execDmvTailWrite path chan v s
  | .dmvEnable path chan v => Sys2Proof.Machine.execDmvEnable path chan v s
  | .dmvNop chan => Sys2Proof.Machine.execDmvNop chan s
  | .dmvCopy chan ue => Sys2Proof.Machine.execDmvCopy chan ue s
  | .dmvFill chan ue => Sys2Proof.Machine.execDmvFill chan ue s
  | .dmvRetry path chan v => Sys2Proof.Machine.execDmvRetry path chan v s
  | .dmvSkip path chan v => Sys2Proof.Machine.execDmvSkip path chan v s
  | .dmvAbort path chan v => Sys2Proof.Machine.execDmvAbort path chan v s
  | .mgmtBoot trained silent rngOk => Sys2Proof.Machine.execMgmtBoot trained silent rngOk s
  | .memoryActive => Sys2Proof.Machine.execMemoryActive s
  | .watchdogExpiry core => Sys2Proof.Machine.execWatchdogExpiry core s
  | .mgmtRestart cause core reloadOk => Sys2Proof.Machine.execMgmtRestart cause core reloadOk s
  | .lifecycleAdvance path secured input => Sys2Proof.Machine.execLifecycleAdvance path secured input s
  | .lcAdvanced => Sys2Proof.Machine.execLcAdvanced s
  | .obsTokenInstall path input => Sys2Proof.Machine.execObsTokenInstall path input s
  | .resetDevice path secured input => Sys2Proof.Machine.execResetDevice path secured input s
  | .i3cDynamicAddress setdasa addr => Sys2Proof.Machine.execI3cDynamicAddress setdasa addr s
  | .i3cRstdaa => Sys2Proof.Machine.execI3cRstdaa s
  | .i3cCcc code arg => Sys2Proof.Machine.execI3cCcc code arg s
  | .smbusAlertResponse => Sys2Proof.Machine.execSmbusAlertResponse s
  | .mctpControl pec cmd arg => Sys2Proof.Machine.execMctpControl pec cmd arg s
  | .mctpUnsupportedType type => Sys2Proof.Machine.execMctpUnsupportedType type s
  | .mctpCxlCci pec secured opcode input => Sys2Proof.Machine.execMctpCxlCci pec secured opcode input s
  | .mmioWindowRead secured count offset => Sys2Proof.Machine.execMmioWindowRead secured count offset s
  | .mmioWindowWrite secured count offset data => Sys2Proof.Machine.execMmioWindowWrite secured count offset data s
  | .pldmMonitoring type cmd arg => Sys2Proof.Machine.execPldmMonitoring type cmd arg s
  | .pldmFwUpdate cmd arg => Sys2Proof.Machine.execPldmFwUpdate cmd arg s
  | .sfUnlockWrite core v => Sys2Proof.Machine.execSfUnlockWrite core v s
  | .sfProgram core v fetch => Sys2Proof.Machine.execSfProgram core v fetch s
  | .sfSectorErase core v fetch => Sys2Proof.Machine.execSfSectorErase core v fetch s
  | .sfBlankCheck core v => Sys2Proof.Machine.execSfBlankCheck core v s
  | .sfClearStatus core v => Sys2Proof.Machine.execSfClearStatus core v s
  | .sfSuspend core v => Sys2Proof.Machine.execSfSuspend core v s
  | .sfResume core v => Sys2Proof.Machine.execSfResume core v s
  | .sfReset core v => Sys2Proof.Machine.execSfReset core v s
  | .sfUnknownCommand core v => Sys2Proof.Machine.execSfUnknownCommand core v s
  | .sfSequenceTimeout => Sys2Proof.Machine.execSfSequenceTimeout s
  | .sfOpDone ok => Sys2Proof.Machine.execSfOpDone ok s
  | .sfReadAutoSuspend addr => Sys2Proof.Machine.execSfReadAutoSuspend addr s
  | .sfAutoResume => Sys2Proof.Machine.execSfAutoResume s
  | .sfWellheadMirror addr mirrorOk => Sys2Proof.Machine.execSfWellheadMirror addr mirrorOk s
  | .fwBlock path input readOk => Sys2Proof.Machine.execFwBlock path input readOk s
  | .fwOwnerTimeout => Sys2Proof.Machine.execFwOwnerTimeout s
  | .fwVerify path input => Sys2Proof.Machine.execFwVerify path input s
  | .fwActivate path input => Sys2Proof.Machine.execFwActivate path input s
  | .fwTrialHealthy path v => Sys2Proof.Machine.execFwTrialHealthy path v s
  | .fwTrialTimeout => Sys2Proof.Machine.execFwTrialTimeout s
  | .fwConfirm path input => Sys2Proof.Machine.execFwConfirm path input s
  | .gaugeWriteDone torn => Sys2Proof.Machine.execGaugeWriteDone torn s
  | .gauWriteHeld => Sys2Proof.Machine.execGauWriteHeld s
  | .gauMailboxWithdraw path => Sys2Proof.Machine.execGauMailboxWithdraw path s
  | .gauParamRead path input => Sys2Proof.Machine.execGauParamRead path input s
  | .gauParamWrite path secured input => Sys2Proof.Machine.execGauParamWrite path secured input s
  | .sedRecord code sev unit p0 p1 p2 => Sys2Proof.Machine.execSedRecord code sev unit p0 p1 p2 s
  | .sedRegionScan bad => Sys2Proof.Machine.execSedRegionScan bad s
  | .sedMark path input => Sys2Proof.Machine.execSedMark path input s
  | .sedRead path input => Sys2Proof.Machine.execSedRead path input s
  | .pwrStateReqRun path input => Sys2Proof.Machine.execPwrStateReqRun path input s
  | .pwrStateReqIdle path input => Sys2Proof.Machine.execPwrStateReqIdle path input s
  | .pwrStateReqSleep path input => Sys2Proof.Machine.execPwrStateReqSleep path input s
  | .pwrStateReqDeep path input => Sys2Proof.Machine.execPwrStateReqDeep path input s
  | .pwrStateReqOff path input => Sys2Proof.Machine.execPwrStateReqOff path input s
  | .pwrStateReqBadTarget path input => Sys2Proof.Machine.execPwrStateReqBadTarget path input s
  | .unitAgree unit busy => Sys2Proof.Machine.execUnitAgree unit busy s
  | .pwrEntryTimeout unit => Sys2Proof.Machine.execPwrEntryTimeout unit s
  | .retentionSignDone crcs => Sys2Proof.Machine.execRetentionSignDone crcs s
  | .idleExit cause => Sys2Proof.Machine.execIdleExit cause s
  | .wakeEvent src => Sys2Proof.Machine.execWakeEvent src s
  | .pwrWakeTimer => Sys2Proof.Machine.execPwrWakeTimer s
  | .pwrWake crcs => Sys2Proof.Machine.execPwrWake crcs s
  | .pwrCtlWrite path v => Sys2Proof.Machine.execPwrCtlWrite path v s
  | .pdAonRelease straps => Sys2Proof.Machine.execPdAonRelease straps s
  | .vauxPor => Sys2Proof.Machine.execVauxPor s
  | .vauxLossSnapshot => Sys2Proof.Machine.execVauxLossSnapshot s
  | .powerUpStart => Sys2Proof.Machine.execPowerUpStart s
  | .railStepDone pg => Sys2Proof.Machine.execRailStepDone pg s
  | .railPgTimeout rail => Sys2Proof.Machine.execRailPgTimeout rail s
  | .railDischargeDone left => Sys2Proof.Machine.execRailDischargeDone left s
  | .railPgLost rail => Sys2Proof.Machine.execRailPgLost rail s
  | .guardEnter vin => Sys2Proof.Machine.execGuardEnter vin s
  | .guardEnd vin => Sys2Proof.Machine.execGuardEnd vin s
  | .vinFail vin => Sys2Proof.Machine.execVinFail vin s
  | .flushStart cause => Sys2Proof.Machine.execFlushStart cause s
  | .flushDone vinOk dur => Sys2Proof.Machine.execFlushDone vinOk dur s
  | .flushIncomplete why => Sys2Proof.Machine.execFlushIncomplete why s
  | .housekeepingRound raw valid => Sys2Proof.Machine.execHousekeepingRound raw valid s
  | .resCharged ms => Sys2Proof.Machine.execResCharged ms s
  | .resFault why v => Sys2Proof.Machine.execResFault why v s
  | .resTestStart cause => Sys2Proof.Machine.execResTestStart cause s
  | .resTest cEff esr => Sys2Proof.Machine.execResTest cEff esr s
  | .supRegWrite path addr v => Sys2Proof.Machine.execSupRegWrite path addr v s
  | .btnPress ms => Sys2Proof.Machine.execBtnPress ms s
  | .forceOff => Sys2Proof.Machine.execForceOff s
  | .mrNAssert => Sys2Proof.Machine.execMrNAssert s
  | .wakeNOff => Sys2Proof.Machine.execWakeNOff s
  | .seicheFrame num parityOk => Sys2Proof.Machine.execSeicheFrame num parityOk s
  | .seicheBarrier vinOk => Sys2Proof.Machine.execSeicheBarrier vinOk s
  | .seicheRequest us => Sys2Proof.Machine.execSeicheRequest us s
  | .seicheFault cause => Sys2Proof.Machine.execSeicheFault cause s
  | .refclkLost => Sys2Proof.Machine.execRefclkLost s
  | .nrwSession link width serial chainOk => Sys2Proof.Machine.execNrwSession link width serial chainOk s
  | .nrwWriteFrame link rseq key line data poison resync relay up => Sys2Proof.Machine.execNrwWriteFrame link rseq key line data poison resync relay up s
  | .nrwZeroFrame link rseq key line resync relay => Sys2Proof.Machine.execNrwZeroFrame link rseq key line resync relay s
  | .nrwReleaseFrame link rseq line relay => Sys2Proof.Machine.execNrwReleaseFrame link rseq line relay s
  | .nrwFetchFrame link line => Sys2Proof.Machine.execNrwFetchFrame link line s
  | .nrwBitmapFrame link rseq first bits => Sys2Proof.Machine.execNrwBitmapFrame link rseq first bits s
  | .nrwAckFrame link rseq relay pos => Sys2Proof.Machine.execNrwAckFrame link rseq relay pos s
  | .nrwResendFrame link rseq => Sys2Proof.Machine.execNrwResendFrame link rseq s
  | .nrwHeartbeatFrame link rseq => Sys2Proof.Machine.execNrwHeartbeatFrame link rseq s
  | .nrwStatusFrame link pos ginc primary st synced group nmem ack members digest => Sys2Proof.Machine.execNrwStatusFrame link pos ginc primary st synced group nmem ack members digest s
  | .nrwLeaveFrame link => Sys2Proof.Machine.execNrwLeaveFrame link s
  | .nrwHandoffFrame link rseq => Sys2Proof.Machine.execNrwHandoffFrame link rseq s
  | .nrwTagFail link => Sys2Proof.Machine.execNrwTagFail link s
  | .nrwHoldIn link low => Sys2Proof.Machine.execNrwHoldIn link low s
  | .nrwFence pos cause => Sys2Proof.Machine.execNrwFence pos cause s
  | .nrwResyncStep => Sys2Proof.Machine.execNrwResyncStep s
  | .nrwGroupSetSerials path input => Sys2Proof.Machine.execNrwGroupSetSerials path input s
  | .nrwGroupSetPromote path input => Sys2Proof.Machine.execNrwGroupSetPromote path input s
  | .nrwGroupSetSolo path input => Sys2Proof.Machine.execNrwGroupSetSolo path input s
  | .nrwResyncStatus path input => Sys2Proof.Machine.execNrwResyncStatus path input s
  | .nrwResyncFull path input => Sys2Proof.Machine.execNrwResyncFull path input s
  | .obsPcCfgWrite path counter v => Sys2Proof.Machine.execObsPcCfgWrite path counter v s
  | .plumbSample head tag latency => Sys2Proof.Machine.execPlumbSample head tag latency s
  | .plumbDataPop path => Sys2Proof.Machine.execPlumbDataPop path s
  | .plumbStop cause => Sys2Proof.Machine.execPlumbStop cause s
  | .soundingFrameSlot => Sys2Proof.Machine.execSoundingFrameSlot s
  | .obsSndMarkWrite path v => Sys2Proof.Machine.execObsSndMarkWrite path v s
  | .obsPlumbCtlWrite path addr v => Sys2Proof.Machine.execObsPlumbCtlWrite path addr v s
  | .jtagExtest cells => Sys2Proof.Machine.execJtagExtest cells s
  | .jtagIdcode => Sys2Proof.Machine.execJtagIdcode s
  | .jtagSamplePreload pins cells => Sys2Proof.Machine.execJtagSamplePreload pins cells s
  | .jtagHighz => Sys2Proof.Machine.execJtagHighz s
  | .jtagClamp => Sys2Proof.Machine.execJtagClamp s
  | .jtagBypass code => Sys2Proof.Machine.execJtagBypass code s
  | .jtagRelease => Sys2Proof.Machine.execJtagRelease s
  | .hostS2mCreditReturn head ndr drs => Sys2Proof.Machine.execHostS2mCreditReturn head ndr drs s
  | .linkL1L2Entry head level => Sys2Proof.Machine.execLinkL1L2Entry head level s
  | .mrNRelease => Sys2Proof.Machine.execMrNRelease s
  | .nodesetCompact => Sys2Proof.Machine.execNodesetCompact s
  | .nrwHeartbeatSend link replays => Sys2Proof.Machine.execNrwHeartbeatSend link replays s
  | .sfEraseForcedResume => Sys2Proof.Machine.execSfEraseForcedResume s
  | .onRequestLatched src => Sys2Proof.Machine.execOnRequestLatched src s

end Sys2Proof.Machine
end

