-- ==== Sys2Proof/Safety.lean ====
section
/-! DEFINITION. What counts as unchanged and as safe: the parts of the state that the statements speak of as left alone. -/

namespace Sys2Proof.Machine

/-- The state as a command finds it: the outputs of the step before are gone. -/
def State.begun (s : State) : State := { s with out := [] }

/-- The state after a change that a command makes: the step's outputs are the change's own, the queue is as it was. -/
def State.after (s : State) (f : State → State) : State := { f s.begun with pending := s.pending }

/-- No injection is armed, no planted error stands and none is being corrected, so that reading a word of a memory changes
nothing (R434 to R436). -/
def noInjection (s : State) : Bool := !bit s F.MEMP_INJ_CTL_ARM && s.memp.planted.isEmpty && s.memp.flip.isNone

/-- A mailbox command is taken on its path: the path is the Tuten port or a head that is on and runs, T0 has passed, VMGMT stands,
the cores run, the device is in a state that serves the command, its payload is no longer than the mailbox's, no command of
the path is in flight, the unit it is aimed at is present, and neither recovery mode nor INTEGRITY_HALT turns the opcode away
(R8, R131, R135, R140, R441, R456, R462, R499, R555, R585). -/
def taken (path op : Nat) (input : List Byte) (s : State) : Bool :=
  (path == tuten || (isHead path && headOn s path)) && !mgmtHeld s &&
  !(isHead path && (decide (2 ≤ s.pwr.st) || s.pwr.stopped.contains 0)) && !railFailed s 4 && s.pwr.st != 4 &&
  !(decide (s.pwr.st = 3) || (s.pwr.st == 2 && gatedOp op)) && fld s F.MGMT_STAT_CORES != 0 && s.flash.handover.isNone &&
  !(isHead path && decide (8192 < input.length)) && !(isHead path && tutenOnly op) && !unitAbsent s op &&
  !(isHead path && inHalt s && !haltOp op) && !inFlight s path &&
  !(inRecovery s && path == tuten && !recoveryOp op input) && !(inRecovery s && isHead path && !limitedOp op) && noInjection s

/-- The state of a command that only answers. -/
def State.answered (s : State) (path op code : Nat) (body : List Byte) : State := { s with out := [.reply path op code body] }

/-- The registers that recording an event writes: the alert (R446), the recorder's counts (R541, R545, R549) and the count of
dropped Sounding frames (R687). -/
def sedAddr (a : Nat) : Bool :=
  [F.MGMT_ALERT_PENDING, F.OBS_SND_STAT_DROPPED, F.SED_CNT_DROP_DROPPED, F.SED_CNT_REC_COUNT, F.SED_CNT_REPEAT_COUNT,
   F.SED_MIRROR_SKIPPED].any (fun f => f.reg == a)

/-- What recording an event leaves alone: every component but the recorder, the Gauge store's queue, the observation counters,
the outputs and the free values; the heads but for their event logs; the power logic but for PD_AON's record buffer; and every
register but those of `sedAddr`. -/
def unrecorded (s : State) : State × (Nat → BitVec 32) × (Nat → Head) :=
  ({ s with pending := [], out := [], fresh := 0, regs := [], sed := State.reset.sed, gauge := State.reset.gauge, heads := [],
            pwr := { s.pwr with buffer := [] }, obs := State.reset.obs },
   fun a => if sedAddr a then 0 else s.reg a, fun h => { headOf s h with logs := [] })

/-- What lies outside the path of host lines: the tick logic, the running configuration, the staged image, the management
complex, Spring flash, the supervisor but for its count of the lines issued in the tick, the thermal unit, the test port, the identity and the staged register words. -/
def outer (s : State) : State :=
  { s with pending := [], out := [], fresh := 0, regs := [], sed := State.reset.sed, gauge := State.reset.gauge, heads := [], poison := State.reset.poison, queues := [],
           tracker := [], ways := [], slices := [], fills := [], lcmds := [], media := State.reset.media, mtl := State.reset.mtl,
           icu := State.reset.icu, vault := State.reset.vault, memp := State.reset.memp, movers := [], pwr := State.reset.pwr,
           nrw := State.reset.nrw, obs := State.reset.obs, sup := { s.sup with issued := [] } }

/-- Spring flash is in canonical form: its listed bytes rise by address and none is erased (R478). -/
def FlashOk (s : State) : Prop := Memory.wf 0xFF s.flash.mem = true

/-- The commands that can change a byte of Spring flash: the completion of a flash operation, the commands whose boundary or
supply event starts PD_AON again or runs a flush, and those that write a firmware or configuration image. -/
def writesFlash : Instr → Bool
  | .tickBoundary .. | .ndxCommit .. | .mctpCxlCci .. | .pldmFwUpdate .. | .sfOpDone .. | .fwBlock ..
  | .pdAonRelease .. | .railPgLost .. | .vinFail .. | .flushStart .. | .housekeepingRound .. | .forceOff ..
  | .mrNAssert .. | .wakeNOff .. | .seicheFrame .. | .seicheBarrier .. | .seicheRequest .. | .refclkLost .. => true
  | _ => false

/-- The commands on the path of host lines: they act on queues, slices, media, translation, encryption, keys, movers and
replication, and leave what `outer` keeps. -/
def hostPath : Instr → Bool
  | .linkUp .. | .hdmDecoderCommit .. | .memRd .. | .memWr .. | .memWrPtl .. | .allocationRetry ..
  | .mergeBufferFreed .. | .gpfRequest .. | .ideKeyProgram .. | .ideFail .. | .cdatRead .. | .identify ..
  | .getEventRecords .. | .clearEventRecords .. | .getEventInterruptPolicy .. | .setEventInterruptPolicy ..
  | .getFwInfo .. | .getTimestamp .. | .getSupportedLogs .. | .getLog .. | .identifyMemoryDevice ..
  | .getPartitionInfo .. | .setPartitionInfo .. | .getLsa .. | .setLsa .. | .getHealthInfo ..
  | .getAlertConfiguration .. | .setAlertConfiguration .. | .getShutdownState .. | .setShutdownState ..
  | .getPoisonList .. | .injectPoison .. | .clearPoison .. | .getScanMediaCapabilities .. | .getScanMediaResults ..
  | .getDcConfiguration .. | .getDcExtentList .. | .addDcResponse .. | .releaseDynamicCapacity ..
  | .unsupportedOpcode .. | .ringStartupTestDone .. | .qfBistStart .. | .qfBistDone .. | .qfRingUe ..
  | .qfCopySwitchDone .. | .qfPoolReserved .. | .pacedCreditReturn .. | .fillReturn .. | .ebWritebackDone ..
  | .cleanerClean .. | .lcCleanCtlWrite .. | .lcmdZero .. | .lcmdFlush .. | .lcmdPrefetch .. | .lcmdPin ..
  | .lcmdDemote .. | .lcmdBadop .. | .lcmdDone .. | .hostSenseStart .. | .admissionEnter .. | .dieResume ..
  | .busSlot .. | .senseDone .. | .medRecon .. | .programDone .. | .eraseDone .. | .driftSample .. | .dieFenced ..
  | .channelTrainingLost .. | .channelRetrainDone .. | .dieResetAttempt .. | .medDieRejoin .. | .medChRetrainRequest ..
  | .medDaEnter .. | .daRead .. | .daReadRaw .. | .daProgramRaw .. | .daErase .. | .daReadInfo .. | .mtlPlace ..
  | .mtlPlaceWaitEnd .. | .logPageTimeout .. | .rowFillTimeout .. | .dredgePick .. | .dredgeCommit .. | .eraseIntent ..
  | .journalPageTimeout .. | .ckptBegin .. | .ckptEnd .. | .sealWriteback .. | .remacRewrite .. | .icuRecovery ..
  | .icuHaltCtlDiscard .. | .haltReport .. | .shorelineStatus .. | .shoreWaitTimeout .. | .ledgerCompact ..
  | .keySramReload .. | .kvJqTailWrite .. | .kvJqEnable .. | .jobNop .. | .jobGcmEnc .. | .jobGcmDec .. | .jobXtsEnc ..
  | .jobXtsDec .. | .jobCmacGen .. | .jobCmacVer .. | .jobRandom .. | .nonceWaitEnd .. | .rngHealthFail ..
  | .drbgReseed .. | .mempInjArm .. | .mempInjDisarm .. | .dmvTailWrite .. | .dmvEnable .. | .dmvNop .. | .dmvCopy ..
  | .dmvFill .. | .dmvRetry .. | .dmvSkip .. | .dmvAbort .. | .i3cDynamicAddress .. | .i3cRstdaa ..
  | .smbusAlertResponse .. | .mctpControl .. | .mctpUnsupportedType .. | .sfWellheadMirror .. | .fwTrialHealthy ..
  | .gauWriteHeld .. | .gauParamRead .. | .sedRecord .. | .sedRegionScan .. | .sedMark .. | .sedRead .. | .idleExit ..
  | .wakeEvent .. | .pwrWakeTimer .. | .pwrCtlWrite .. | .btnPress .. | .nrwSession .. | .nrwWriteFrame ..
  | .nrwZeroFrame .. | .nrwReleaseFrame .. | .nrwFetchFrame .. | .nrwBitmapFrame .. | .nrwAckFrame ..
  | .nrwResendFrame .. | .nrwHeartbeatFrame .. | .nrwStatusFrame .. | .nrwLeaveFrame .. | .nrwHandoffFrame ..
  | .nrwTagFail .. | .nrwHoldIn .. | .nrwFence .. | .nrwResyncStep .. | .nrwResyncStatus .. | .nrwResyncFull ..
  | .obsPcCfgWrite .. | .plumbSample .. | .plumbDataPop .. | .plumbStop .. | .soundingFrameSlot ..
  | .obsSndMarkWrite .. | .obsPlumbCtlWrite .. | .hostS2mCreditReturn .. | .linkL1L2Entry .. | .nodesetCompact ..
  | .nrwHeartbeatSend .. => true
  | _ => false

end Sys2Proof.Machine
end

