-- ==== Sys2Proof/WellFormed.lean ====
section
/-! DEFINITION. Well-formed commands: every operand lies in the range that the spec gives it (path and unit numbers, address
widths, field widths, payload lengths). The machine itself consults none of this: it is total on every operand. -/

namespace Sys2Proof

/-- What a decoder reports lies in its ranges (R217): 5,120 raw bits, 20 iterations. -/
def senseResOk (r : SenseRes) : Bool :=
  match r with
  | .codeword ones bits iters auth => decide (ones ≤ 5120) && decide (bits ≤ 5120) && decide (iters ≤ 20) && decide (auth ≤ 6)
  | .noCodeword ones checks => decide (ones ≤ 5120) && decide (checks ≤ 5120)

/-- Work that overran: a source unit, a die, a class of R34 and cycles of one tick. -/
def overrunOk (o : Overrun) : Bool :=
  decide (o.unit < 32) && decide (o.die < 128) && decide (o.cls < 8) && decide (o.cycles < 6000)

/-- A command whose operands lie in their ranges: paths 0 to 4 send commands (R441) and 0 to 8 reach registers (log entry 1);
heads 0 to 3, channels 0 to 15, dies 0 to 7, slices 0 to 47, links 0 and 1; host addresses have 52 bits, device lines 40,
register addresses 26; a payload has at most 8,192 bytes (R131, R447). -/
def Instr.wf : Instr → Bool
  | .tickBoundary overruns silent _ => overruns.all overrunOk && silent.all (fun k => decide (k < 128))
  | .rippleSyncPulse width gap => decide (width < 17) && decide (gap < 2 ^ 32)
  | .rippleSyncFrame => true
  | .calAdjust => true
  | .syncLost ticks => decide (ticks < 2 ^ 32)
  | .syncConflict => true
  | .conflictListenEnd => true
  | .tickCalSetCommit path _ => decide (path ≤ 8)
  | .tickBudgetCommit path _ => decide (path ≤ 8)
  | .registerWrite path addr size v => decide (path ≤ 8) && decide (addr < 2 ^ 26) && decide (1 ≤ size) && decide (size ≤ 8) &&
      decide (v.toNat < 2 ^ (8 * size))
  | .registerHiWrite path addr _ => decide (path ≤ 8) && decide (addr < 2 ^ 26)
  | .registerLoRead path addr => decide (path ≤ 8) && decide (addr < 2 ^ 26)
  | .rcRegisterRead path addr size => decide (path ≤ 8) && decide (addr < 2 ^ 26) && decide (1 ≤ size) && decide (size ≤ 8)
  | .ndxStage path input => decide (path ≤ 4) && decide (input.length ≤ 8192)
  | .ndxCommit path input wrong => decide (path ≤ 4) && decide (input.length ≤ 8192) && wrong.all (fun w => decide (w.1 < 65536))
  | .ndxStageOwnerTimeout => true
  | .linkUp head width rate _ => decide (head < 4) && decide (width < 17) && decide (rate < 8)
  | .linkDown head => decide (head < 4)
  | .perstAssert head => decide (head < 4)
  | .perstDeassert head => decide (head < 4)
  | .hotReset head => decide (head < 4)
  | .cxlReset head => decide (head < 4)
  | .functionLevelReset head => decide (head < 4)
  | .hdmDecoderCommit head dec base size skip ways gran => decide (head < 4) && decide (dec < 8) && decide (base < 2 ^ 52) && decide (size < 2 ^ 52) && decide (skip < 2 ^ 52) && decide (ways < 17) && decide (gran < 16385)
  | .memRd head hpa tag _ _ => decide (head < 4) && decide (hpa < 2 ^ 52) && decide (tag < 65536)
  | .memWr head hpa tag _ _ _ _ => decide (head < 4) && decide (hpa < 2 ^ 52) && decide (tag < 65536)
  | .memWrPtl head hpa tag _ _ _ _ _ => decide (head < 4) && decide (hpa < 2 ^ 52) && decide (tag < 65536)
  | .allocationRetry slice => decide (slice < 48)
  | .mergeBufferFreed slice => decide (slice < 48)
  | .gpfRequest head phase => decide (head < 4) && decide (phase < 4)
  | .ideKeyProgram head session stream _ => decide (head < 4) && decide (session < 2) && decide (stream < 256)
  | .ideFail head flits => decide (head < 4) && decide (flits < 2 ^ 32)
  | .spdmMessage path msg => decide (path ≤ 4) && decide (msg.length ≤ 8192)
  | .cdatRead head _ entry => decide (head < 4) && decide (entry < 256)
  | .identify path input => decide (path ≤ 4) && decide (input.length ≤ 8192)
  | .requestAbortBgOp path input => decide (path ≤ 4) && decide (input.length ≤ 8192)
  | .getEventRecords path input => decide (path ≤ 4) && decide (input.length ≤ 8192)
  | .clearEventRecords path input => decide (path ≤ 4) && decide (input.length ≤ 8192)
  | .getEventInterruptPolicy path input => decide (path ≤ 4) && decide (input.length ≤ 8192)
  | .setEventInterruptPolicy path input => decide (path ≤ 4) && decide (input.length ≤ 8192)
  | .getFwInfo path input => decide (path ≤ 4) && decide (input.length ≤ 8192)
  | .getTimestamp path input => decide (path ≤ 4) && decide (input.length ≤ 8192)
  | .setTimestamp path input => decide (path ≤ 4) && decide (input.length ≤ 8192)
  | .getSupportedLogs path input => decide (path ≤ 4) && decide (input.length ≤ 8192)
  | .getLog path input => decide (path ≤ 4) && decide (input.length ≤ 8192)
  | .identifyMemoryDevice path input => decide (path ≤ 4) && decide (input.length ≤ 8192)
  | .getPartitionInfo path input => decide (path ≤ 4) && decide (input.length ≤ 8192)
  | .setPartitionInfo path input => decide (path ≤ 4) && decide (input.length ≤ 8192)
  | .getLsa path input => decide (path ≤ 4) && decide (input.length ≤ 8192)
  | .setLsa path input => decide (path ≤ 4) && decide (input.length ≤ 8192)
  | .getHealthInfo path input => decide (path ≤ 4) && decide (input.length ≤ 8192)
  | .getAlertConfiguration path input => decide (path ≤ 4) && decide (input.length ≤ 8192)
  | .setAlertConfiguration path input => decide (path ≤ 4) && decide (input.length ≤ 8192)
  | .getShutdownState path input => decide (path ≤ 4) && decide (input.length ≤ 8192)
  | .setShutdownState path input => decide (path ≤ 4) && decide (input.length ≤ 8192)
  | .getPoisonList path input => decide (path ≤ 4) && decide (input.length ≤ 8192)
  | .injectPoison path input => decide (path ≤ 4) && decide (input.length ≤ 8192)
  | .clearPoison path input => decide (path ≤ 4) && decide (input.length ≤ 8192)
  | .getScanMediaCapabilities path input => decide (path ≤ 4) && decide (input.length ≤ 8192)
  | .scanMedia path input => decide (path ≤ 4) && decide (input.length ≤ 8192)
  | .scanDone bad _ => bad.all (fun k => decide (k < 2 ^ 40))
  | .getScanMediaResults path input => decide (path ≤ 4) && decide (input.length ≤ 8192)
  | .getDcConfiguration path input => decide (path ≤ 4) && decide (input.length ≤ 8192)
  | .getDcExtentList path input => decide (path ≤ 4) && decide (input.length ≤ 8192)
  | .addDcResponse path input => decide (path ≤ 4) && decide (input.length ≤ 8192)
  | .releaseDynamicCapacity path input => decide (path ≤ 4) && decide (input.length ≤ 8192)
  | .unsupportedOpcode path opcode input => decide (path ≤ 4) && decide (opcode < 65536) && decide (input.length ≤ 8192)
  | .ringStartupTestDone queue bad => decide (queue < 18) && decide (bad < 2 ^ 32)
  | .qfBistStart path queue => decide (path ≤ 8) && decide (queue < 18)
  | .qfBistDone queue bad => decide (queue < 18) && decide (bad < 2 ^ 32)
  | .qfRingUe queue index word => decide (queue < 18) && decide (index < 65536) && decide (word < 64)
  | .qfCopySwitchDone queue => decide (queue < 18)
  | .qfPoolReserved queue => decide (queue < 18)
  | .pacedCreditReturn queue => decide (queue < 8)
  | .fillReturn line _ => decide (line < 2 ^ 40)
  | .ebWritebackDone slice line => decide (slice < 48) && decide (line < 2 ^ 40)
  | .cleanerClean slice => decide (slice < 48)
  | .lcCleanCtlWrite path _ => decide (path ≤ 8)
  | .lcmdZero path _ => decide (path ≤ 8)
  | .lcmdFlush path _ => decide (path ≤ 8)
  | .lcmdPrefetch path _ => decide (path ≤ 8)
  | .lcmdPin path _ => decide (path ≤ 8)
  | .lcmdDemote path _ => decide (path ≤ 8)
  | .lcmdBadop path _ => decide (path ≤ 8)
  | .lcmdDone path => decide (path ≤ 4)
  | .hostSenseStart chan die => decide (chan < 16) && decide (die < 8)
  | .admissionEnter chan die => decide (chan < 16) && decide (die < 8)
  | .dieResume chan die => decide (chan < 16) && decide (die < 8)
  | .busSlot chan => decide (chan < 16)
  | .senseDone chan die res lat => decide (chan < 16) && decide (die < 8) && senseResOk res && decide (lat < 2 ^ 16)
  | .medRecon chan die auth lat => decide (chan < 16) && decide (die < 8) && decide (auth ≤ 6) && decide (lat < 2 ^ 16)
  | .programStart chan die => decide (chan < 16) && decide (die < 8)
  | .programDone chan die res => decide (chan < 16) && decide (die < 8) && decide (res < 4)
  | .eraseDone chan die _ _ => decide (chan < 16) && decide (die < 8)
  | .driftSample chan die lo mid hi => decide (chan < 16) && decide (die < 8) && decide (lo < 2 ^ 16) && decide (mid < 2 ^ 16) && decide (hi < 2 ^ 16)
  | .dieFenced chan die cause => decide (chan < 16) && decide (die < 8) && decide (cause < 16)
  | .channelTrainingLost chan => decide (chan < 16)
  | .channelRetrainDone chan _ => decide (chan < 16)
  | .dieResetAttempt chan die _ inc => decide (chan < 16) && decide (die < 8) && decide (inc < 2 ^ 32)
  | .medDieRejoin chan die bad => decide (chan < 16) && decide (die < 8) && decide (bad < 2 ^ 32)
  | .medChRetrainRequest path chan _ => decide (path ≤ 8) && decide (chan < 16)
  | .medDaEnter path chan _ => decide (path ≤ 8) && decide (chan < 16)
  | .daRead path chan _ _ => decide (path ≤ 8) && decide (chan < 16)
  | .daReadRaw path chan _ _ => decide (path ≤ 8) && decide (chan < 16)
  | .daProgramRaw path chan _ _ => decide (path ≤ 8) && decide (chan < 16)
  | .daErase path chan _ _ => decide (path ≤ 8) && decide (chan < 16)
  | .daReadInfo path chan _ _ => decide (path ≤ 8) && decide (chan < 16)
  | .mtlPlace => true
  | .mtlPlaceWaitEnd => true
  | .logPageTimeout => true
  | .rowFillTimeout set => decide (set < 2 ^ 16)
  | .foldCapture => true
  | .foldCommit reach => decide (reach < 2 ^ 30)
  | .dredgePick => true
  | .dredgeCommit => true
  | .eraseIntent set => decide (set < 2 ^ 16)
  | .journalPageTimeout => true
  | .ckptBegin => true
  | .ckptEnd => true
  | .mtlRecovery erased => erased.all (fun e => decide (e.1 < 2 ^ 18) && decide (e.2 < 2 ^ 14))
  | .sealWriteback mism => decide (mism < 16)
  | .remacRewrite line => decide (line < 2 ^ 40)
  | .icuRecovery lost => lost.all (fun k => decide (k < 2 ^ 40))
  | .icuHaltCtlDiscard path _ => decide (path ≤ 8)
  | .haltReport path input => decide (path ≤ 4) && decide (input.length ≤ 8192)
  | .shorelineStart path input => decide (path ≤ 4) && decide (input.length ≤ 8192)
  | .shorelineStatus path input => decide (path ≤ 4) && decide (input.length ≤ 8192)
  | .shoreWaitTimeout => true
  | .shoreCapture => true
  | .keyInstall path input => decide (path ≤ 4) && decide (input.length ≤ 8192)
  | .keyRetire path input => decide (path ≤ 4) && decide (input.length ≤ 8192)
  | .keyRetireRanges path input => decide (path ≤ 4) && decide (input.length ≤ 8192)
  | .ledgerCompact => true
  | .keySramReload kind index => decide (kind < 3) && decide (index < 65536)
  | .kvJqTailWrite path queue _ => decide (path ≤ 8) && decide (queue < 8)
  | .kvJqEnable path queue _ => decide (path ≤ 8) && decide (queue < 8)
  | .jobNop queue => decide (queue < 8)
  | .jobGcmEnc queue mism _ => decide (queue < 8) && decide (mism < 16)
  | .jobGcmDec queue mism _ => decide (queue < 8) && decide (mism < 16)
  | .jobXtsEnc queue mism _ => decide (queue < 8) && decide (mism < 16)
  | .jobXtsDec queue mism _ => decide (queue < 8) && decide (mism < 16)
  | .jobCmacGen queue mism _ => decide (queue < 8) && decide (mism < 16)
  | .jobCmacVer queue mism _ => decide (queue < 8) && decide (mism < 16)
  | .jobRandom queue _ => decide (queue < 8)
  | .nonceWaitEnd queue => decide (queue < 8)
  | .rngHealthFail test _ => decide (test < 3)
  | .drbgReseed => true
  | .scrubRow cls inst row _ _ => decide (cls < 16) && decide (inst < 48) && decide (row < 2 ^ 40)
  | .mempFetchTrap core addr => decide (core < 4) && decide (addr < 2 ^ 32)
  | .mempInjArm path _ => decide (path ≤ 8)
  | .mempInjDisarm path _ => decide (path ≤ 8)
  | .dmvTailWrite path chan _ => decide (path ≤ 8) && decide (chan < 16)
  | .dmvEnable path chan _ => decide (path ≤ 8) && decide (chan < 16)
  | .dmvNop chan => decide (chan < 16)
  | .dmvCopy chan _ => decide (chan < 16)
  | .dmvFill chan _ => decide (chan < 16)
  | .dmvRetry path chan _ => decide (path ≤ 8) && decide (chan < 16)
  | .dmvSkip path chan _ => decide (path ≤ 8) && decide (chan < 16)
  | .dmvAbort path chan _ => decide (path ≤ 8) && decide (chan < 16)
  | .mgmtBoot trained silent _ => trained.all (fun k => decide (k < 16)) && silent.all (fun k => decide (k < 128))
  | .memoryActive => true
  | .watchdogExpiry core => decide (core < 4)
  | .mgmtRestart cause core _ => decide (cause < 16) && decide (core < 4)
  | .lifecycleAdvance path _ input => decide (path ≤ 4) && decide (input.length ≤ 8192)
  | .lcAdvanced => true
  | .obsTokenInstall path input => decide (path ≤ 4) && decide (input.length ≤ 8192)
  | .resetDevice path _ input => decide (path ≤ 4) && decide (input.length ≤ 8192)
  | .i3cDynamicAddress _ addr => decide (addr < 128)
  | .i3cRstdaa => true
  | .i3cCcc code arg => decide (code < 256) && decide (arg.length ≤ 8192)
  | .smbusAlertResponse => true
  | .mctpControl _ cmd arg => decide (cmd < 256) && decide (arg.length ≤ 8192)
  | .mctpUnsupportedType type => decide (type < 256)
  | .mctpCxlCci _ _ opcode input => decide (opcode < 65536) && decide (input.length ≤ 8192)
  | .mmioWindowRead _ count offset => decide (count < 1025) && decide (offset < 2 ^ 26)
  | .mmioWindowWrite _ count offset data => decide (count < 1025) && decide (offset < 2 ^ 26) && decide (data.length ≤ 1024)
  | .pldmMonitoring type cmd arg => decide (type < 256) && decide (cmd < 256) && decide (arg.length ≤ 8192)
  | .pldmFwUpdate cmd arg => decide (cmd < 256) && decide (arg.length ≤ 8192)
  | .sfUnlockWrite core _ => decide (core < 4)
  | .sfProgram core _ fetch => decide (core < 4) && decide (fetch < 2 ^ 26)
  | .sfSectorErase core _ fetch => decide (core < 4) && decide (fetch < 2 ^ 26)
  | .sfBlankCheck core _ => decide (core < 4)
  | .sfClearStatus core _ => decide (core < 4)
  | .sfSuspend core _ => decide (core < 4)
  | .sfResume core _ => decide (core < 4)
  | .sfReset core _ => decide (core < 4)
  | .sfUnknownCommand core _ => decide (core < 4)
  | .sfSequenceTimeout => true
  | .sfOpDone _ => true
  | .sfReadAutoSuspend addr => decide (addr < 2 ^ 26)
  | .sfAutoResume => true
  | .sfWellheadMirror addr _ => decide (addr < 2 ^ 26)
  | .fwBlock path input _ => decide (path ≤ 4) && decide (input.length ≤ 8192)
  | .fwOwnerTimeout => true
  | .fwVerify path input => decide (path ≤ 4) && decide (input.length ≤ 8192)
  | .fwActivate path input => decide (path ≤ 4) && decide (input.length ≤ 8192)
  | .fwTrialHealthy path _ => decide (path ≤ 8)
  | .fwTrialTimeout => true
  | .fwConfirm path input => decide (path ≤ 4) && decide (input.length ≤ 8192)
  | .gaugeWriteDone _ => true
  | .gauWriteHeld => true
  | .gauMailboxWithdraw path => decide (path ≤ 4)
  | .gauParamRead path input => decide (path ≤ 4) && decide (input.length ≤ 8192)
  | .gauParamWrite path _ input => decide (path ≤ 4) && decide (input.length ≤ 8192)
  | .sedRecord code sev unit p0 p1 p2 => decide (code < 65536) && decide (sev < 8) && decide (unit < 17) && decide (p0 < 2 ^ 32) && decide (p1 < 2 ^ 32) && decide (p2 < 2 ^ 32)
  | .sedRegionScan bad => bad.all (fun k => decide (k < 2 ^ 40))
  | .sedMark path input => decide (path ≤ 4) && decide (input.length ≤ 8192)
  | .sedRead path input => decide (path ≤ 4) && decide (input.length ≤ 8192)
  | .pwrStateReqRun path input => decide (path ≤ 4) && decide (input.length ≤ 8192)
  | .pwrStateReqIdle path input => decide (path ≤ 4) && decide (input.length ≤ 8192)
  | .pwrStateReqSleep path input => decide (path ≤ 4) && decide (input.length ≤ 8192)
  | .pwrStateReqDeep path input => decide (path ≤ 4) && decide (input.length ≤ 8192)
  | .pwrStateReqOff path input => decide (path ≤ 4) && decide (input.length ≤ 8192)
  | .pwrStateReqBadTarget path input => decide (path ≤ 4) && decide (input.length ≤ 8192)
  | .unitAgree unit _ => decide (unit < 17)
  | .pwrEntryTimeout unit => decide (unit < 17)
  | .retentionSignDone crcs => crcs.length == 9
  | .idleExit cause => decide (cause < 16)
  | .wakeEvent src => decide (src < 7)
  | .pwrWakeTimer => true
  | .pwrWake crcs => crcs.length == 9
  | .pwrCtlWrite path _ => decide (path ≤ 8)
  | .pdAonRelease straps => decide (straps < 2 ^ 13)
  | .vauxPor => true
  | .vauxLossSnapshot => true
  | .powerUpStart => true
  | .railStepDone _ => true
  | .railPgTimeout rail => decide (rail < 10)
  | .railDischargeDone _ => true
  | .railPgLost rail => decide (rail < 10)
  | .guardEnter vin => decide (vin < 2 ^ 16)
  | .guardEnd vin => decide (vin < 2 ^ 16)
  | .vinFail vin => decide (vin < 2 ^ 16)
  | .flushStart cause => decide (cause < 16)
  | .flushDone _ dur => decide (dur < 2 ^ 32)
  | .flushIncomplete why => decide (why < 8)
  | .housekeepingRound raw valid => raw.length == 47 && valid.length == 47
  | .resCharged ms => decide (ms < 2 ^ 32)
  | .resFault why v => decide (why < 8) && decide (v < 2 ^ 16)
  | .resTestStart cause => decide (cause < 16)
  | .resTest cEff esr => decide (cEff < 2 ^ 16) && decide (esr < 2 ^ 16)
  | .supRegWrite path addr _ => decide (path ≤ 8) && decide (addr < 2 ^ 26)
  | .btnPress ms => decide (ms < 2 ^ 32)
  | .forceOff => true
  | .mrNAssert => true
  | .wakeNOff => true
  | .seicheFrame num _ => decide (num < 64)
  | .seicheBarrier _ => true
  | .seicheRequest us => decide (us < 2 ^ 32)
  | .seicheFault cause => decide (cause < 16)
  | .refclkLost => true
  | .nrwSession link width serial _ => decide (link < 2) && decide (width < 5) && decide (serial < 2 ^ 64)
  | .nrwWriteFrame link rseq key line _ _ _ _ _ => decide (link < 2) && decide (rseq < 2 ^ 56) && decide (key < 4096) && decide (line < 2 ^ 40)
  | .nrwZeroFrame link rseq key line _ _ => decide (link < 2) && decide (rseq < 2 ^ 56) && decide (key < 4096) && decide (line < 2 ^ 40)
  | .nrwReleaseFrame link rseq line _ => decide (link < 2) && decide (rseq < 2 ^ 56) && decide (line < 2 ^ 40)
  | .nrwFetchFrame link line => decide (link < 2) && decide (line < 2 ^ 40)
  | .nrwBitmapFrame link rseq first _ => decide (link < 2) && decide (rseq < 2 ^ 56) && decide (first < 2 ^ 20)
  | .nrwAckFrame link rseq _ pos => decide (link < 2) && decide (rseq < 2 ^ 56) && decide (pos < 8)
  | .nrwResendFrame link rseq => decide (link < 2) && decide (rseq < 2 ^ 56)
  | .nrwHeartbeatFrame link rseq => decide (link < 2) && decide (rseq < 2 ^ 56)
  | .nrwStatusFrame link pos ginc _ st _ group nmem _ members digest => decide (link < 2) && decide (pos < 8) && decide (ginc < 2 ^ 32) && decide (st < 4) && decide (group < 4) && decide (nmem < 4) && members.all (fun k => decide (k < 8)) && decide (digest.length ≤ 8192)
  | .nrwLeaveFrame link => decide (link < 2)
  | .nrwHandoffFrame link rseq => decide (link < 2) && decide (rseq < 2 ^ 56)
  | .nrwTagFail link => decide (link < 2)
  | .nrwHoldIn link _ => decide (link < 2)
  | .nrwFence pos cause => decide (pos < 8) && decide (cause < 16)
  | .nrwResyncStep => true
  | .nrwGroupSetSerials path input => decide (path ≤ 4) && decide (input.length ≤ 8192)
  | .nrwGroupSetPromote path input => decide (path ≤ 4) && decide (input.length ≤ 8192)
  | .nrwGroupSetSolo path input => decide (path ≤ 4) && decide (input.length ≤ 8192)
  | .nrwResyncStatus path input => decide (path ≤ 4) && decide (input.length ≤ 8192)
  | .nrwResyncFull path input => decide (path ≤ 4) && decide (input.length ≤ 8192)
  | .obsPcCfgWrite path counter _ => decide (path ≤ 8) && decide (counter < 8)
  | .plumbSample head tag latency => decide (head < 4) && decide (tag < 65536) && decide (latency < 2 ^ 32)
  | .plumbDataPop path => decide (path ≤ 8)
  | .plumbStop cause => decide (cause < 16)
  | .soundingFrameSlot => true
  | .obsSndMarkWrite path _ => decide (path ≤ 8)
  | .obsPlumbCtlWrite path addr _ => decide (path ≤ 8) && decide (addr < 2 ^ 26)
  | .jtagExtest _ => true
  | .jtagIdcode => true
  | .jtagSamplePreload _ _ => true
  | .jtagHighz => true
  | .jtagClamp => true
  | .jtagBypass code => decide (code < 256)
  | .jtagRelease => true
  | .hostS2mCreditReturn head ndr drs => decide (head < 4) && decide (ndr < 2 ^ 16) && decide (drs < 2 ^ 16)
  | .linkL1L2Entry head level => decide (head < 4) && decide (level < 4)
  | .mrNRelease => true
  | .nodesetCompact => true
  | .nrwHeartbeatSend link replays => decide (link < 2) && decide (replays < 256)
  | .sfEraseForcedResume => true
  | .onRequestLatched src => decide (src < 7)

end Sys2Proof
end

