-- ==== Sys2Proof/Certificates/Slice0/Obligations.lean ====
section
/-! DEFINITION. The statements for the provers, by family of commands. A statement's docstring cites the rules it formalises;
`State.begun`, `unrecorded` and `outer` are those of Sys2Proof/Safety.lean. -/

open Sys2Proof Sys2Proof.Machine

/-! ### The machine -/

/-- A step takes the command at the front of the queue and runs it with the queue's rest. -/
def Obligations.StepRunsFront : Prop :=
  ∀ (c : Instr) (rest : List Instr) (s : State), s.pending = c :: rest → step s = exec c { s with pending := rest }

/-- On an empty queue the block idles (the model's choice, log entry 6). -/
def Obligations.StepIdles : Prop := ∀ s : State, s.pending = [] → step s = .next s

/-- No command ends in a fault or a refusal, and none changes the queue it is taken from. -/
def Obligations.EveryCommandAnswers : Prop :=
  ∀ (c : Instr) (s : State), ∃ t, exec c s = .next t ∧ t.pending = s.pending

/-- Spring flash is in canonical form after reset: nothing is listed, every byte reads erased. -/
def Obligations.FlashOkAtReset : Prop := FlashOk State.reset ∧ ∀ a, mbyte 0xFF State.reset.flash.mem a = 0xFF

/-- Every step keeps Spring flash in canonical form, from any state in which it is. -/
def Obligations.FlashOkKept : Prop := ∀ s t : State, FlashOk s → step s = .next t → FlashOk t

/-- No command but those of `writesFlash` changes a byte of Spring flash. -/
def Obligations.FlashFrame : Prop :=
  ∀ (c : Instr) (s t : State), writesFlash c = false → exec c s = .next t →
    ∀ a, mbyte 0xFF t.flash.mem a = mbyte 0xFF s.flash.mem a

/-- A command on the path of host lines leaves the tick logic, the configuration, the management complex, Spring flash, the
supervisor but for its count of the lines issued in the tick, the thermal unit, the test port, the identity and the staged
register words as they are. -/
def Obligations.HostPathFrame : Prop :=
  ∀ (c : Instr) (s t : State), hostPath c = true → exec c s = .next t → outer t = outer s

/-! ### Codes and access types -/

/-- The SEC-DED decoder (R408), by syndrome; and no two-bit error is miscorrected. -/
def Obligations.EccDecoder : Prop :=
  (∀ (d : BitVec 64) (c : BitVec 8), eccCheck d = c → eccDecode d c = .good) ∧
  (∀ (d : BitVec 64) (c : BitVec 8) (b : Nat), b < 64 → (eccCheck d ^^^ c).toNat = lat 0 eccColumns b →
    eccDecode d c = .corrected (d ^^^ ((1 : BitVec 64) <<< b))) ∧
  (∀ (d : BitVec 64) (c : BitVec 8) (i : Nat), i < 8 → (eccCheck d ^^^ c).toNat = 2 ^ i → eccDecode d c = .corrected d) ∧
  (∀ (d : BitVec 64) (c : BitVec 8), weight8 (eccCheck d ^^^ c).toNat % 2 = 1 →
    (∀ b, b < 64 → (eccCheck d ^^^ c).toNat ≠ lat 0 eccColumns b) → (∀ i, i < 8 → (eccCheck d ^^^ c).toNat ≠ 2 ^ i) →
    eccDecode d c = .bad) ∧
  (∀ (d : BitVec 64) (c : BitVec 8), eccCheck d ≠ c → weight8 (eccCheck d ^^^ c).toNat % 2 = 0 → eccDecode d c = .bad) ∧
  (∀ (d : BitVec 64) (a b : Nat), a < b → b < 64 →
    eccDecode (d ^^^ ((1 : BitVec 64) <<< a) ^^^ ((1 : BitVec 64) <<< b)) (eccCheck d) = .bad) ∧
  (∀ (d : BitVec 64) (a i : Nat), a < 64 → i < 8 →
    eccDecode (d ^^^ ((1 : BitVec 64) <<< a)) (eccCheck d ^^^ ((1 : BitVec 8) <<< i)) = .bad) ∧
  (∀ (d : BitVec 64) (i j : Nat), i < j → j < 8 →
    eccDecode d (eccCheck d ^^^ ((1 : BitVec 8) <<< i) ^^^ ((1 : BitVec 8) <<< j)) = .bad) ∧
  eccDecode 0 0 = .good

/-- One flipped bit of a codeword, in its data or in its check byte, is corrected (R407, R408). -/
def Obligations.EccCorrectsOneBit : Prop :=
  (∀ (d : BitVec 64) (b : Nat), b < 64 → eccDecode (d ^^^ ((1 : BitVec 64) <<< b)) (eccCheck d) = .corrected d) ∧
  (∀ (d : BitVec 64) (i : Nat), i < 8 → eccDecode d (eccCheck d ^^^ ((1 : BitVec 8) <<< i)) = .corrected d)

/-- The check matrix (R407): data bits 0 to 55 have the weight-3 columns in ascending order, bits 56 to 63 the weight-5 columns
listed, and the check byte is the XOR of the columns of the data bits that are 1. -/
def Obligations.EccEncoder : Prop :=
  (eccColumns.length = 64 ∧ (eccColumns.take 56).Pairwise (· < ·) ∧
    (∀ n, n ∈ eccColumns.take 56 ↔ n < 256 ∧ weight8 n = 3) ∧
    eccColumns.drop 56 = [0x1F, 0x2F, 0x37, 0x3B, 0x3D, 0x3E, 0x4F, 0x57]) ∧
  eccCheck 0 = 0 ∧
  (∀ (d : BitVec 64) (b : Nat), b < 64 → d.getLsbD b = false →
    eccCheck (d ^^^ ((1 : BitVec 64) <<< b)) = eccCheck d ^^^ BitVec.ofNat 8 (lat 0 eccColumns b)) ∧
  eccCheck 0x21 = 0x12

/-- The access types (R17): what a write and a read leave in each bit of a register, and what a read gives. -/
def Obligations.AccessTypes : Prop :=
  ∀ (fields : List (Nat × Nat × Acc)) (old v : BitVec 32), fields.Pairwise (fun f g => f.1 + f.2.1 ≤ g.1 ∨ g.1 + g.2.1 ≤ f.1) →
    ∀ f ∈ fields, ∀ i, f.1 ≤ i → i < f.1 + f.2.1 → i < 32 →
      (writeFields fields old v).getLsbD i =
        (match f.2.2 with
         | .rw => v.getLsbD i
         | .w1c => old.getLsbD i && !v.getLsbD i
         | .w1s => old.getLsbD i || v.getLsbD i
         | _ => old.getLsbD i) ∧
      (readClear fields old).getLsbD i = (match f.2.2 with | .rc => false | _ => old.getLsbD i) ∧
      (readFields fields old).getLsbD i = (match f.2.2 with | .wo | .rsv => false | _ => old.getLsbD i)

/-! ### The recorder -/

/-- A repeat of the newest record in its epoch merges into it (R540): its repeat count rises wherever it lies, no sequence number is
taken, and neither the Gauge store nor an event log changes. -/
def Obligations.SedMerges : Prop :=
  ∀ (code sev unit p0 p1 p2 : Nat) (s : State) (r : SedRec), s.sed.newest = some (r, epoch s) →
    (SedReq.mk code sev unit p0 p1 p2).same r = true → sedHeld s r.seq = true →
    let t := sed code sev unit p0 p1 p2 s
    t.sed.next = s.sed.next ∧ t.gauge = s.gauge ∧ t.heads = s.heads ∧ t.sed.flushDue = s.sed.flushDue ∧
    t.sed.ring = s.sed.ring.map (fun x => if x.seq = r.seq then { x with repeats := min (x.repeats + 1) 65535 } else x) ∧
    t.pwr.buffer = s.pwr.buffer.map (fun x => if x.seq = r.seq then { x with repeats := min (x.repeats + 1) 65535 } else x) ∧
    (∀ k x, tfind s.sed.region k = some x → tfind t.sed.region k =
      some (if x.seq = r.seq then { x with repeats := min (x.repeats + 1) 65535, merged := true } else x)) ∧
    unrecorded t = unrecorded s

/-- The calendar and the budget are set by commits of 64-bit quantities from the management side (R15, R35, R54). -/
def Obligations.TickCommits : Prop :=
  (∀ (path : Nat) (v : BitVec 32) (s : State), isMgmt path = true →
    ¬ (isFollower s = true ∧ bit s F.TICK_SYNC_STAT_LOCKED = true) →
    ∃ t, exec (.tickCalSetCommit path v) s = .next t ∧
      t.tick = { s.tick with calSet := some (v.toNat % 65536 * 2 ^ 32 + (stagedLo s path Reg.TICK_CAL_SET_LO).toNat) } ∧
      t.reg Reg.TICK_CAL_SET_LO = stagedLo s path Reg.TICK_CAL_SET_LO ∧ t.reg Reg.TICK_CAL_SET_HI = v &&& 0xFFFF ∧
      (∀ a, a ≠ Reg.TICK_CAL_SET_LO → a ≠ Reg.TICK_CAL_SET_HI → t.reg a = s.reg a) ∧
      t = { s.begun with tick := t.tick, regs := t.regs, mgmt := { s.mgmt with
        stamp := s.mgmt.stamp.map (fun x => (x.1, x.2.1, false)) } }) ∧
  (∀ (path : Nat) (v : BitVec 32) (s : State), isMgmt path = true → isFollower s = true →
    bit s F.TICK_SYNC_STAT_LOCKED = true →
    ∃ t, exec (.tickCalSetCommit path v) s = .next t ∧ bit t F.TICK_CAL_STAT_REFUSED = true ∧ t.tick = s.tick) ∧
  (∀ (path : Nat) (v : BitVec 32) (s : State), isMgmt path = true →
    (shares (stagedLo s path Reg.TICK_BUDGET_LO) v).sum = 64 →
    (∀ c, c < 8 → lat 0 minShares c ≤ lat 0 (shares (stagedLo s path Reg.TICK_BUDGET_LO) v) c) →
    ∃ t, exec (.tickBudgetCommit path v) s = .next t ∧
      t.tick = { s.tick with budgetSet := some ((stagedLo s path Reg.TICK_BUDGET_LO).toNat, v.toNat) } ∧
      t.reg Reg.TICK_BUDGET_LO = stagedLo s path Reg.TICK_BUDGET_LO ∧ t.reg Reg.TICK_BUDGET_HI = v ∧
      (∀ a, a ≠ Reg.TICK_BUDGET_LO → a ≠ Reg.TICK_BUDGET_HI → t.reg a = s.reg a) ∧
      t = { s.begun with tick := t.tick, regs := t.regs }) ∧
  (∀ (path : Nat) (v : BitVec 32) (s : State), isMgmt path = true →
    ((shares (stagedLo s path Reg.TICK_BUDGET_LO) v).sum ≠ 64 ∨
      ∃ c, c < 8 ∧ lat 0 (shares (stagedLo s path Reg.TICK_BUDGET_LO) v) c < lat 0 minShares c) →
    ∃ t, exec (.tickBudgetCommit path v) s = .next t ∧ bit t F.TICK_BUDGET_STAT_BAD = true ∧ t.tick = s.tick ∧
      unrecorded t = unrecorded (setF F.TICK_BUDGET_STAT_BAD 1 s.begun))

/-- RIPPLE_SYNC at a follower and at a master (R45 to R52, R55): a pulse while a master listens, at a device that follows nobody,
at a locked and an unlocked follower, as a data bit, as a marker, as the marker of the epoch that the first lock shortens, and out
of its place; the frame, right and wrong; the addition of D in the 81st tick; the loss of the master, a conflict and the end of
its listening time. -/
def Obligations.RippleSync : Prop :=
  (∀ (width gap : Nat) (s : State), s.tick.listen.isSome = true →
    exec (.rippleSyncPulse width gap) s = .next { s with out := [], tick := { s.tick with heard := true } }) ∧
  (∀ (width gap : Nat) (s : State), s.tick.listen = none → isFollower s = false →
    exec (.rippleSyncPulse width gap) s = .next { s with out := [] }) ∧
  (∀ (width gap : Nat) (s : State), s.tick.listen = none → isFollower s = true →
    bit s F.TICK_SYNC_STAT_LOCKED = true → width ≤ 11 → 398 ≤ gap → gap ≤ 402 →
    exec (.rippleSyncPulse width gap) s = .next { s with out := [], tick := { s.tick with
      goodPulses := if gap = 400 then s.tick.goodPulses + 1 else 0
      frame := if s.tick.collecting = true ∧ s.tick.frame.length < 80 then s.tick.frame ++ [decide (5 < width)] else s.tick.frame
      addD := s.tick.addD.map (fun e => (e.1, e.2 - 1)) } }) ∧
  (∀ (width gap : Nat) (s : State), s.tick.listen = none → isFollower s = true →
    bit s F.TICK_SYNC_STAT_LOCKED = true → s.tick.shortPending = false → 12 ≤ width → 398 ≤ gap → gap ≤ 402 →
    exec (.rippleSyncPulse width gap) s = .next { s with out := [], tick := { s.tick with
      goodPulses := if gap = 400 then s.tick.goodPulses + 1 else 0
      frame := [], collecting := true, markCal := s.tick.cal, markSub := fld s F.TICK_CAL_STAT_SUBMS
      addD := s.tick.addD.map (fun e => (e.1, e.2 - 1)) } }) ∧
  (∀ (width gap : Nat) (s : State), s.tick.listen = none → isFollower s = true →
    bit s F.TICK_SYNC_STAT_LOCKED = true → s.tick.shortPending = true → 12 ≤ width → 398 ≤ gap → gap ≤ 402 →
    ∃ t, exec (.rippleSyncPulse width gap) s = .next t ∧ t.tick.shortPending = false ∧ t.tick.collecting = true ∧ t.tick.frame = [] ∧
      t.tick.count = s.tick.count + (262143 - s.tick.count % 262144) ∧ t.tick.markCal = s.tick.cal) ∧
  (∀ (width : Nat) (s : State), s.tick.listen = none → isFollower s = true →
    bit s F.TICK_SYNC_STAT_LOCKED = false → width ≤ 11 →
    ∃ t, exec (.rippleSyncPulse width 400) s = .next t ∧ bit t F.TICK_SYNC_STAT_LOCKED = true ∧
      t.tick.count = s.tick.count ∧ t.tick.everLocked = true ∧
      t.tick.shortPending = (s.tick.shortPending || !s.tick.everLocked)) ∧
  (∀ (width gap : Nat) (s : State), s.tick.listen = none → isFollower s = true →
    bit s F.TICK_SYNC_STAT_LOCKED = true → width ≤ 11 → (gap < 398 ∨ 402 < gap) →
    ∃ t, exec (.rippleSyncPulse width gap) s = .next t ∧ bit t F.TICK_SYNC_STAT_LOCKED = false ∧
      bit t F.TICK_SYNC_STAT_LOST = true ∧ t.tick.frame = [] ∧ t.tick.goodPulses = 0 ∧ t.tick.count = s.tick.count) ∧
  (∀ s : State, s.tick.frame.length = 80 → isFollower s = true →
    frameVal s.tick.frame % 16 = frameCheck (frameVal s.tick.frame) → frameVal s.tick.frame / 16 % 256 = 0 →
    let f := frameVal s.tick.frame
    let d : Int := ((f / 2 ^ 32 % 2 ^ 48) * 250 + f / 2 ^ 24 % 256 : Nat) - (s.tick.markCal * 250 + s.tick.markSub : Nat)
    ∃ t, exec .rippleSyncFrame s = .next t ∧ t.tick.frame = [] ∧ t.tick.collecting = false ∧
      fld t F.TICK_SYNC_STAT_MASTER_DEVID = f / 4096 % 4096 ∧ bit t F.TICK_CAL_STAT_VALID = true ∧
      (0 < d → t.tick.addD = some (d.toNat, 1) ∧ t.tick.hold = s.tick.hold) ∧
      (d < 0 → t.tick.hold = (-d).toNat ∧ bit t F.TICK_CAL_STAT_HOLD = true ∧ t.tick.addD = s.tick.addD) ∧
      (d = 0 → t.tick.hold = s.tick.hold ∧ t.tick.addD = s.tick.addD)) ∧
  (∀ s : State, s.tick.frame.length = 80 → isFollower s = true →
    (frameVal s.tick.frame % 16 ≠ frameCheck (frameVal s.tick.frame) ∨ frameVal s.tick.frame / 16 % 256 ≠ 0) →
    exec .rippleSyncFrame s = .next (s.after (fun s =>
      satInc F.TICK_SYNC_STAT_FRAME_ERR { s with tick := { s.tick with frame := [], collecting := false } }))) ∧
  (∀ (d : Nat) (s : State), s.tick.addD = some (d, 0) → s.tick.cal * 250 + fld s F.TICK_CAL_STAT_SUBMS + d < 2 ^ 48 * 250 →
    ∃ t, exec .calAdjust s = .next t ∧ calTicks t = calTicks s + d ∧ fld t F.TICK_CAL_STAT_SUBMS < 250 ∧ t.tick.addD = none ∧
      t = { s.begun with tick := t.tick, regs := t.regs }) ∧
  (∀ (n : Nat) (s : State), isFollower s = true → bit s F.TICK_SYNC_STAT_LOCKED = true →
    ∃ t, exec (.syncLost n) s = .next t ∧ bit t F.TICK_SYNC_STAT_LOCKED = false ∧ bit t F.TICK_SYNC_STAT_LOST = true ∧
      t.tick = { s.tick with goodPulses := 0, frame := [], collecting := false } ∧
      unrecorded t = unrecorded (setF F.TICK_SYNC_STAT_LOST 1 (setF F.TICK_SYNC_STAT_LOCKED 0
        { s.begun with tick := { s.tick with goodPulses := 0, frame := [], collecting := false } }))) ∧
  (∀ s : State, s.tick.role = 1 → s.tick.forcedFollower = false → s.tick.listen = none →
    ∃ t, exec .syncConflict s = .next t ∧ bit t F.TICK_SYNC_STAT_CONFLICT = true ∧
      t.tick = { s.tick with listen := some (fld s F.GLB_DEVID_DEVID * 4), heard := false } ∧
      unrecorded t = unrecorded (setF F.TICK_SYNC_STAT_CONFLICT 1
        { s.begun with tick := { s.tick with listen := some (fld s F.GLB_DEVID_DEVID * 4), heard := false } })) ∧
  (∀ (s : State), s.tick.listen = some 0 →
    exec .conflictListenEnd s = .next { s with out := [], tick := { s.tick with
      listen := none, forcedFollower := s.tick.heard } })

/-! ### Standard mailbox commands -/

/-- The commands of any path that only answer, or start a calendar set (R116, R132, R133, R514, R732): Identify, Get FW Info, Get
Timestamp, Set Timestamp, Get Supported Logs, Get Log, Request Abort Background Operation and the opcodes that are not
implemented. Each is stated for a command that is taken on its path; nothing else of the state changes. -/
def Obligations.IdentityTimeLogs : Prop :=
  (∀ (path : Nat) (s : State), taken path 0x0001 [] s = true →
    exec (.identify path []) s = .next (s.answered path 0x0001 rcSuccess
      (le 2 (pciVid s) ++ le 2 (partNo s) ++ le 2 (pciVid s) ++ le 2 (partNo s) ++ le 8 (serialNo s) ++ [13, 3]))) ∧
  (∀ (path : Nat) (s : State), taken path 0x0200 [] s = true →
    exec (.getFwInfo path []) s = .next (s.answered path 0x0200 rcSuccess (fwInfo s))) ∧
  (∀ (path : Nat) (s : State), taken path 0x0300 [] s = true →
    exec (.getTimestamp path []) s = .next (s.answered path 0x0300 rcSuccess
      (le 8 ((s.tick.cal + 946684800000) * 1000000 + 4000 * fld s F.TICK_CAL_STAT_SUBMS)))) ∧
  (∀ (path : Nat) (inp : List Byte) (s : State), taken path 0x0301 inp s = true → inp.length = 8 → s.mgmt.stamp = none →
    (at' inp 0 8 / 1000000 < 946684800000 ∨ (isFollower s = true ∧ bit s F.TICK_SYNC_STAT_LOCKED = true)) →
    exec (.setTimestamp path inp) s = .next { s with
      out := []
      mgmt := { s.mgmt with stamp := some (path, at' inp 0 8 / 1000000, false)
                            inflight := s.mgmt.inflight ++ [⟨path, 0x0301, false, false⟩] } }) ∧
  (∀ (path : Nat) (inp : List Byte) (s : State), taken path 0x0301 inp s = true → inp.length = 8 → s.mgmt.stamp = none →
    946684800000 ≤ at' inp 0 8 / 1000000 → ¬ (isFollower s = true ∧ bit s F.TICK_SYNC_STAT_LOCKED = true) →
    exec (.setTimestamp path inp) s = .next { s with
      out := []
      tick := { s.tick with calSet := some ((at' inp 0 8 / 1000000 - 946684800000) % 2 ^ 48) }
      mgmt := { s.mgmt with stamp := some (path, at' inp 0 8 / 1000000, true)
                            inflight := s.mgmt.inflight ++ [⟨path, 0x0301, false, false⟩] } }) ∧
  (∀ (path : Nat) (inp : List Byte) (s : State), taken path 0x0301 inp s = true → inp.length = 8 → s.mgmt.stamp.isSome = true →
    exec (.setTimestamp path inp) s = .next (s.answered path 0x0301 rcBusy [])) ∧
  (∀ (path : Nat) (s : State), taken path 0x0400 [] s = true →
    exec (.getSupportedLogs path []) s = .next (s.answered path 0x0400 rcSuccess
      (le 2 1 ++ zeros 6 ++ effectsUuid ++ le 4 (effectsLog path).length))) ∧
  (∀ (path o n : Nat) (s : State), o < 2 ^ 32 → n < 2 ^ 32 → o + n ≤ (effectsLog path).length → n ≤ 8192 →
    taken path 0x0401 (effectsUuid ++ le 4 o ++ le 4 n) s = true →
    exec (.getLog path (effectsUuid ++ le 4 o ++ le 4 n)) s =
      .next (s.answered path 0x0401 rcSuccess (sub (effectsLog path) o n))) ∧
  (∀ (path : Nat) (s : State), taken path 0x0005 [] s = true → s.mgmt.bg = none →
    exec (.requestAbortBgOp path []) s = .next (s.answered path 0x0005 rcSuccess [])) ∧
  (∀ (path p h a b pos : Nat) (e ab : Bool) (bad : List Nat) (s : State), taken path 0x0005 [] s = true →
    s.mgmt.bg = some (.scan p h a b pos e ab bad) →
    exec (.requestAbortBgOp path []) s = .next ({ s with mgmt := { s.mgmt with
      bg := some (.scan p h a b pos e true bad) } }.answered path 0x0005 rcSuccess [])) ∧
  (∀ (path op : Nat) (inp : List Byte) (s : State), (opcodes tuten).contains op = false → taken path op inp s = true →
    exec (.unsupportedOpcode path op inp) s = .next (s.answered path op rcUnsupported []))

/-- The read-only memory-device commands (R99, R103, R109, R122, R134, R442): Identify Memory Device, Get and Set Partition Info, Get
LSA, Get Health Info, Get Alert Configuration, Get Shutdown State, the Dynamic Capacity commands. Each is stated for a command
that is taken, on a head that is on (on the Tuten port, the one MGMT_TUT_HEAD names); nothing else of the state changes. -/
def Obligations.DeviceReads : Prop :=
  (∀ (path : Nat) (s : State), taken path 0x4000 [] s = true → headOn s (cmdHead s path) = true →
    ∃ rev : List Byte, rev.length = 16 ∧
    exec (.identifyMemoryDevice path []) s = .next (s.answered path 0x4000 rcSuccess
      (rev ++ le 8 (headCap s (cmdHead s path)) ++ le 8 0 ++ le 8 (headCap s (cmdHead s path)) ++ le 8 0 ++ le 2 256 ++ le 2 256 ++
       le 2 256 ++ le 2 256 ++ le 4 (256 * 1024) ++ le 3 1024 ++ le 2 1024 ++ [0, 0] ++ le 2 0))) ∧
  (∀ (path : Nat) (s : State), taken path 0x4000 [] s = true → headOn s (cmdHead s path) = false →
    exec (.identifyMemoryDevice path []) s = .next (s.answered path 0x4000 rcUnsupported [])) ∧
  (∀ (path : Nat) (s : State), taken path 0x4100 [] s = true → headOn s (cmdHead s path) = true →
    exec (.getPartitionInfo path []) s = .next (s.answered path 0x4100 rcSuccess
      (le 8 0 ++ le 8 (headCap s (cmdHead s path)) ++ le 8 0 ++ le 8 0))) ∧
  (∀ (path : Nat) (inp : List Byte) (s : State), taken path 0x4101 inp s = true →
    exec (.setPartitionInfo path inp) s = .next (s.answered path 0x4101 rcUnsupported [])) ∧
  (∀ (path o n : Nat) (s : State), o < 2 ^ 32 → n < 2 ^ 32 → o + n ≤ 256 * 1024 → n ≤ 8192 →
    taken path 0x4102 (le 4 o ++ le 4 n) s = true → headOn s (cmdHead s path) = true →
    exec (.getLsa path (le 4 o ++ le 4 n)) s = .next (s.answered path 0x4102 rcSuccess
      (mbytes 0 (headOf s (cmdHead s path)).lsa o n))) ∧
  (∀ (path o n : Nat) (s : State), o < 2 ^ 32 → n < 2 ^ 32 → 256 * 1024 < o + n →
    taken path 0x4102 (le 4 o ++ le 4 n) s = true → headOn s (cmdHead s path) = true →
    exec (.getLsa path (le 4 o ++ le 4 n)) s = .next (s.answered path 0x4102 rcInvalid [])) ∧
  (∀ (path : Nat) (s : State), taken path 0x4200 [] s = true →
    exec (.getHealthInfo path []) s = .next (s.answered path 0x4200 rcSuccess
      ([if mtlReadOnly s then 2 else 0, if mtlReadOnly s then 1 else 0, 0] ++ le 1 (min 255 (lifeUsed s / 100)) ++ le16 (dieTemp s) ++
       le 4 s.mgmt.dirtyShutdowns ++ le 4 0 ++
       le 4 (min (((List.range 16).map (fun c => fld s (F.MEMP_CE_COUNT c))).sum + s.media.corrected) (2 ^ 32 - 1))))) ∧
  (∀ (path : Nat) (s : State), taken path 0x4201 [] s = true →
    exec (.getAlertConfiguration path []) s = .next (s.answered path 0x4201 rcSuccess (headOf s path).alertCfg)) ∧
  (∀ (path : Nat) (s : State), taken path 0x4203 [] s = true → headOn s (cmdHead s path) = true →
    exec (.getShutdownState path []) s = .next (s.answered path 0x4203 rcSuccess (le 1 (headOf s (cmdHead s path)).shutdown))) ∧
  (∀ (path : Nat) (a b : Byte) (s : State), taken path 0x4800 [a, b] s = true → headOn s (cmdHead s path) = true →
    dcRegions s (cmdHead s path) = [] →
    exec (.getDcConfiguration path [a, b]) s = .next (s.answered path 0x4800 rcSuccess ([0, 0] ++ zeros 6))) ∧
  (∀ (path : Nat) (a b : Byte) (r : Region) (s : State), taken path 0x4800 [a, b] s = true → headOn s (cmdHead s path) = true →
    dcRegions s (cmdHead s path) = [r] →
    exec (.getDcConfiguration path [a, b]) s = .next (s.answered path 0x4800 rcSuccess
      ([1, 1] ++ zeros 6 ++ (le 8 (r.base * unitBytes) ++ le 8 r.len ++ le 8 (r.len * unitBytes) ++ le 8 unitBytes ++ le 4 0 ++ zeros 4) ++
       le 4 1 ++ le 4 0 ++ le 4 0 ++ le 4 0))) ∧
  (∀ (path n o : Nat) (s : State), n < 2 ^ 32 → o < 2 ^ 32 → o ≤ (dcRegions s (cmdHead s path)).length →
    taken path 0x4801 (le 4 n ++ le 4 o) s = true → headOn s (cmdHead s path) = true →
    exec (.getDcExtentList path (le 4 n ++ le 4 o)) s = .next (s.answered path 0x4801 rcSuccess
      (le 4 (((dcRegions s (cmdHead s path)).drop o).take n).length ++ le 4 (dcRegions s (cmdHead s path)).length ++ le 4 0 ++ le 4 0 ++
       ((((dcRegions s (cmdHead s path)).drop o).take n).map (fun r =>
         le 8 (r.base * unitBytes) ++ le 8 (r.len * unitBytes) ++ zeros 16 ++ le 2 0 ++ zeros 6)).flatten))) ∧
  (∀ (path : Nat) (inp : List Byte) (s : State), taken path 0x4802 inp s = true →
    exec (.addDcResponse path inp) s = .next (s.answered path 0x4802 rcUnsupported [])) ∧
  (∀ (path : Nat) (inp : List Byte) (s : State), taken path 0x4803 inp s = true →
    exec (.releaseDynamicCapacity path inp) s = .next (s.answered path 0x4803 rcUnsupported []))

/-- Event logs, the poison list and scans (R112, R115, R116, R119): what is answered, what leaves the head's own log or its
results, and that nothing else changes. Each is stated for a command that is taken, on a head that is on. -/
def Obligations.LogsAndLists : Prop :=
  (∀ (path : Nat) (k : Byte) (s : State), taken path 0x0100 [k] s = true → headOn s (cmdHead s path) = true → k.toNat < 4 →
    let lg := lat ⟨[], 1, 0, 0, 0, none⟩ (headOf s (cmdHead s path)).logs k.toNat
    exec (.getEventRecords path [k]) s = .next (s.answered path 0x0100 rcSuccess
      (le 1 ((if lg.dropped = 0 then 0 else 1) + (if 63 < lg.recs.length then 2 else 0)) ++ [0] ++ le 2 lg.dropped ++
       le 8 lg.firstDrop ++ le 8 lg.lastDrop ++ le 2 (min 63 lg.recs.length) ++ zeros 10 ++
       ((lg.recs.take 63).map (eventBytes s k.toNat)).flatten))) ∧
  (∀ (path : Nat) (k : Byte) (s : State), taken path 0x0100 [k] s = true → headOn s (cmdHead s path) = true → 4 ≤ k.toNat →
    exec (.getEventRecords path [k]) s = .next (s.answered path 0x0100 rcInvalid [])) ∧
  (∀ (path : Nat) (k : Byte) (r : List Byte) (s : State), k.toNat < 4 → r.length = 3 →
    taken path 0x0101 (k :: 1 :: 0 :: r) s = true → headOn s (cmdHead s path) = true →
    (headOf s (cmdHead s path)).logs.length = 4 →
    ∃ t, exec (.clearEventRecords path (k :: 1 :: 0 :: r)) s = .next t ∧ t.out = [.reply path 0x0101 rcSuccess []] ∧
      (lat ⟨[], 1, 0, 0, 0, none⟩ (headOf t (cmdHead s path)).logs k.toNat).recs = [] ∧
      (∀ j, j ≠ k.toNat → lat ⟨[], 1, 0, 0, 0, none⟩ (headOf t (cmdHead s path)).logs j =
        lat ⟨[], 1, 0, 0, 0, none⟩ (headOf s (cmdHead s path)).logs j) ∧
      (∀ g, g ≠ cmdHead s path → headOf t g = headOf s g) ∧ t = { s with out := t.out, heads := t.heads }) ∧
  (∀ (path : Nat) (s : State), taken path 0x0102 [] s = true → headOn s (cmdHead s path) = true →
    exec (.getEventInterruptPolicy path []) s = .next (s.answered path 0x0102 rcSuccess
      ((headOf s (cmdHead s path)).policy.map (BitVec.ofNat 8)))) ∧
  (∀ (path : Nat) (a b c d : Byte) (s : State), taken path 0x0103 [a, b, c, d] s = true → headOn s (cmdHead s path) = true →
    a.toNat % 4 ≤ 1 → b.toNat % 4 ≤ 1 → c.toNat % 4 ≤ 1 → d.toNat % 4 ≤ 1 →
    ∃ t, exec (.setEventInterruptPolicy path [a, b, c, d]) s = .next t ∧ t.out = [.reply path 0x0103 rcSuccess []] ∧
      headOf t (cmdHead s path) = { headOf s (cmdHead s path) with policy := [a.toNat, b.toNat, c.toNat, d.toNat] } ∧
      (∀ g, g ≠ cmdHead s path → headOf t g = headOf s g) ∧ t = { s with out := t.out, heads := t.heads }) ∧
  (∀ (path : Nat) (a b : List Byte) (s : State), a.length = 8 → b.length = 8 → taken path 0x4300 (a ++ b) s = true →
    headOn s (cmdHead s path) = true →
    let hits := s.poison.ents.filter (fun e => decide (leVal a / 64 ≤ e.line) && decide (e.line < leVal a / 64 + leVal b) &&
      (regionOf s (cmdHead s path) e.line).isSome)
    ∃ flags : Byte, exec (.getPoisonList path (a ++ b)) s = .next (s.answered path 0x4300 rcSuccess
      ([flags, 0] ++ le 8 (if s.poison.overflow then s.poison.overflowAt else 0) ++ le 2 (min 510 hits.length) ++ zeros 20 ++
       ((hits.take 510).map (fun e => le 8 (e.line * 64 + e.src + 1) ++ le 4 1 ++ zeros 4)).flatten)) ∧
      (flags.getLsbD 0 = decide (510 < hits.length)) ∧ (flags.getLsbD 1 = s.poison.overflow)) ∧
  (∀ (path a n : Nat) (inp : List Byte) (s : State), inp.length = 16 → taken path 0x4303 inp s = true →
    headOn s (cmdHead s path) = true → scanRange s (cmdHead s path) inp = some (a, n) → 0 < fusedChans s →
    ∃ d : Nat, exec (.getScanMediaCapabilities path inp) s = .next (s.answered path 0x4303 rcSuccess (le 4 d)) ∧
      64 * n ≤ d * (120000 * fusedChans s) ∧ d * (120000 * fusedChans s) < 64 * n + 120000 * fusedChans s) ∧
  (∀ (path : Nat) (inp : List Byte) (s : State), inp.length = 16 → taken path 0x4303 inp s = true →
    headOn s (cmdHead s path) = true → scanRange s (cmdHead s path) inp = none →
    exec (.getScanMediaCapabilities path inp) s = .next (s.answered path 0x4303 rcInvalid [])) ∧
  (∀ (path : Nat) (s : State), taken path 0x4305 [] s = true → headOn s (cmdHead s path) = true →
    let l := (headOf s (cmdHead s path)).scanLeft
    ∃ t, exec (.getScanMediaResults path []) s = .next t ∧
      t.out = [.reply path 0x4305 rcSuccess (le 8 0 ++ le 8 0 ++ [if 256 < l.length then 1 else 0, 0] ++ le 2 (min 256 l.length) ++
        zeros 12 ++ ((l.take 256).map (fun n => le 8 (n * 64 + 2) ++ le 4 1 ++ zeros 4)).flatten)] ∧
      headOf t (cmdHead s path) = { headOf s (cmdHead s path) with scanLeft := l.drop 256 } ∧
      (∀ g, g ≠ cmdHead s path → headOf t g = headOf s g) ∧ t = { s with out := t.out, heads := t.heads })

/-- Commands with an effect (R99, R113, R114, R116, R122): Set LSA, Set Alert Configuration, Set Shutdown State, Scan Media and its end,
Inject and Clear Poison. Each is stated for a command that is taken, on a head that is on. -/
def Obligations.HeadWrites : Prop :=
  (∀ (path o : Nat) (d : List Byte) (s : State), o + d.length ≤ 256 * 1024 → d.length ≤ 8184 →
    taken path 0x4103 (le 4 o ++ zeros 4 ++ d) s = true → headOn s (cmdHead s path) = true →
    let h := cmdHead s path
    let lines := ((List.range d.length).map (fun i => lineEnd s + 0x1000 * h + (o + i) / 64)).eraseDups
    let lsa := mputs 0 (headOf s h).lsa o d
    exec (.setLsa path (le 4 o ++ zeros 4 ++ d)) s = .next (s.after (fun s => answer path 0x4103 rcSuccess []
      (internalServe { modHead h (fun x => { x with lsa := lsa }) s with
        mtl := { s.mtl with internalQ := s.mtl.internalQ ++ lines.filter (fun l => !s.mtl.internalQ.contains l) } }))) ∧
    (∀ i, mbyte 0 lsa i = if o ≤ i ∧ i < o + d.length then lat 0 d (i - o) else mbyte 0 (headOf s h).lsa i)) ∧
  (∀ (path : Nat) (inp : List Byte) (s : State), inp.length = 12 → taken path 0x4202 inp s = true →
    ∃ t cfg, exec (.setAlertConfiguration path inp) s = .next t ∧ t.out = [.reply path 0x4202 rcSuccess []] ∧
      headOf t path = { headOf s path with alertCfg := cfg } ∧
      (∀ k, k < 5 → (byteAt inp 0).testBit k = true → (byteAt cfg 0).testBit k = (byteAt inp 1).testBit k) ∧
      (∀ k, k < 5 → (byteAt inp 0).testBit k = false → (byteAt cfg 0).testBit k = (byteAt (headOf s path).alertCfg 0).testBit k) ∧
      (∀ g, g ≠ path → headOf t g = headOf s g) ∧ t = { s with out := t.out, heads := t.heads }) ∧
  (∀ (path : Nat) (b : Byte) (s : State), taken path 0x4204 [b] s = true → headOn s (cmdHead s path) = true →
    ∃ t, exec (.setShutdownState path [b]) s = .next t ∧ t.out = [.reply path 0x4204 rcSuccess []] ∧
      headOf t (cmdHead s path) = { headOf s (cmdHead s path) with shutdown := b.toNat } ∧
      (∀ g, g ≠ cmdHead s path → headOf t g = headOf s g) ∧ t = { s with out := t.out, heads := t.heads }) ∧
  (∀ (path a n : Nat) (inp : List Byte) (s : State), inp.length = 17 → taken path 0x4304 inp s = true →
    headOn s (cmdHead s path) = true → scanRange s (cmdHead s path) inp = some (a, n) → s.mgmt.bg = none →
    ∃ t, exec (.scanMedia path inp) s = .next t ∧ Out.reply path 0x4304 rcBackground [] ∈ t.out ∧
      t.mgmt = { s.mgmt with bg := some (.scan path (cmdHead s path) a (a + n) a (byteAt inp 16 % 2 == 1) false [])
                             bgStat := tput path ⟨0x4304, 0, 0⟩ s.mgmt.bgStat } ∧
      (headOf t (cmdHead s path)).scanLeft = [] ∧ t.media = s.media ∧ t.ways = s.ways ∧ t.mtl = s.mtl) ∧
  (∀ (path : Nat) (inp : List Byte) (c : BgCmd) (s : State), inp.length = 17 → taken path 0x4304 inp s = true →
    headOn s (cmdHead s path) = true → (scanRange s (cmdHead s path) inp).isSome = true → s.mgmt.bg = some c →
    exec (.scanMedia path inp) s = .next (s.answered path 0x4304 rcBusy [])) ∧
  (∀ (path h a b pos : Nat) (quiet : Bool) (ok bad : List Nat) (fail : Option (Nat × Nat)) (s : State),
    s.mgmt.bg = some (.scan path h a b pos quiet false ok) → (∀ line auth, fail = some (line, auth) → a ≤ line ∧ line < b) →
    exec (.scanDone bad fail) s = .next (s.after (fun s =>
      let opened := (mappedLines s a b).filter (fun l => !bad.contains l && fail.map (·.1) != some l)
      let s := forEach opened (scanOpen 0) s
      let s := match fail with | some (line, auth) => (if scanReads s line then scanOpen auth line s else s) | none => s
      let found := (bad.filter (fun l => decide (a ≤ l) && decide (l < b) && scanReads s l)).eraseDups
      let s := forEach found (fun l s => if quiet then poisonAdd l 1 s else mediaEvent l (poisonAdd l 1 s)) s
      let s := modHead h (fun x => { x with scanLeft := found }) s
      sed 0x0142 sINFO 0 h found.length 0 (emit (.bgDone path 0x4304 rcSuccess) (bgSet path 0x4304 100 rcSuccess
        { s with mgmt := { s.mgmt with bg := none } }))))) ∧
  (∀ (path h a b pos : Nat) (quiet : Bool) (ok : List Nat) (s : State), s.mgmt.bg = some (.scan path h a b pos quiet true ok) →
    exec (.scanDone [] none) s = .next (s.after (fun s => sed 0x0142 sINFO 0 h 0 1 (emit (.bgDone path 0x4304 rcSuccess)
      (bgSet path 0x4304 100 rcSuccess (modHead h (fun x => { x with scanLeft := [] })
        { s with mgmt := { s.mgmt with bg := none } })))))) ∧
  (∀ (path : Nat) (inp : List Byte) (s : State), inp.length = 8 → taken path 0x4301 inp s = true →
    headOn s (cmdHead s path) = true → 2 ≤ lifecycle s →
    exec (.injectPoison path inp) s = .next (s.answered path 0x4301 rcRefused [])) ∧
  (∀ (path : Nat) (inp : List Byte) (s : State), inp.length = 8 → taken path 0x4301 inp s = true →
    headOn s (cmdHead s path) = true → lifecycle s < 2 → at' inp 0 8 % 64 = 0 →
    let h := cmdHead s path
    let line := at' inp 0 8 / 64
    ∀ r key, regionOf s h line = some r → key = (heldKey s line).getD r.key → keyHolds s key = true → roLine s h line = false →
    deviceRo s line = false → slicesServe s = true → amqFull s line = false → admitLine s line = true →
    exec (.injectPoison path inp) s = .next { answer path 0x4301 rcSuccess [] (pump (submit
      { kind := .full, line := line, key := key, poison := true, data := 0, mask := 1, src := .mover path, waiting := false,
        persisted := false } s.begun)) with pending := s.pending }) ∧
  (∀ (path : Nat) (inp : List Byte) (s : State), inp.length = 72 → taken path 0x4302 inp s = true →
    headOn s (cmdHead s path) = true → at' inp 0 8 % 64 = 0 →
    let h := cmdHead s path
    let line := at' inp 0 8 / 64
    ∀ r key, regionOf s h line = some r → key = (heldKey s line).getD r.key → keyHolds s key = true → roLine s h line = false →
    deviceRo s line = false → slicesServe s = true → amqFull s line = false → admitLine s line = true →
    exec (.clearPoison path inp) s = .next { answer path 0x4302 rcSuccess [] (pump (submit
      { kind := .full, line := line, key := key, poison := false, data := bytesLine (inp.drop 8), mask := 1, src := .mover path,
        waiting := false, persisted := false } s.begun)) with pending := s.pending }) ∧
  (∀ (path : Nat) (inp : List Byte) (s : State), inp.length = 72 → taken path 0x4302 inp s = true →
    headOn s (cmdHead s path) = true → (at' inp 0 8 % 64 ≠ 0 ∨ regionOf s (cmdHead s path) (at' inp 0 8 / 64) = none) →
    exec (.clearPoison path inp) s = .next (s.answered path 0x4302 rcInvalid []))

/-! ### Register accesses -/

/-- Register accesses of a path that reaches an unclamped block (R14 to R17, R19): a 32-bit write of a plain register, an ignored
write, a 64-bit access as two 32-bit ones, the lower address first, any other size, the staging of a LO half and the commit by the
HI half, a read that clears RC fields, the capture of a HI half, and the reads and writes of an MMIO window message (R449). -/
def Obligations.RegisterAccess : Prop :=
  (∀ (path a : Nat) (v : BitVec 64) (d : RegDesc) (s : State), pathReaches s path = true → ¬ (path = tuten ∧ railFailed s 4 = true) →
    s.pwr.st ≤ 1 → a % 4 = 0 → blockOn s a = true → regDesc a = some d → (isHead path = true → d.hostW = true) →
    isLo d = false → a < 0x100000 → a ≠ Reg.TICK_CAL_SET_HI → a ≠ Reg.TICK_BUDGET_HI → a ≠ Reg.GLB_RESET_CAUSE →
    ∃ t, exec (.registerWrite path a 4 v) s = .next t ∧
      t.reg (regKey path a d) = writeFields d.fields (s.reg (regKey path a d)) (BitVec.ofNat 32 v.toNat) ∧
      (∀ k, k ≠ regKey path a d → t.reg k = s.reg k) ∧ t = { s with out := [], regs := t.regs }) ∧
  (∀ (path a : Nat) (v : BitVec 64) (s : State), pathReaches s path = true → s.pwr.st ≤ 1 →
    (a % 4 ≠ 0 ∨ blockOn s a = false ∨ (regDesc a = none ∧ daBuffer a = none) ∨
      ∃ d, regDesc a = some d ∧ isHead path = true ∧ d.hostW = false) →
    exec (.registerWrite path a 4 v) s = .next s.begun) ∧
  (∀ (path a : Nat) (v : BitVec 64) (s : State), a % 8 = 0 →
    exec (.registerWrite path a 8 v) s = .next (s.after (fun s =>
      doRegWrite path (a + 4) (BitVec.ofNat 32 (v.toNat / 2 ^ 32)) (doRegWrite path a (BitVec.ofNat 32 v.toNat) s)))) ∧
  (∀ (path a size : Nat) (v : BitVec 64) (s : State), size ≠ 4 → (size ≠ 8 ∨ a % 8 ≠ 0) →
    exec (.registerWrite path a size v) s = .next s.begun) ∧
  (∀ (path a : Nat) (v : BitVec 64) (d : RegDesc) (s : State), pathReaches s path = true → ¬ (path = tuten ∧ railFailed s 4 = true) →
    s.pwr.st ≤ 1 → a % 4 = 0 → blockOn s a = true → regDesc a = some d → (isHead path = true → d.hostW = true) →
    isLo d = true → d.fields.any (fun f => f.2.2 == .rw) = true →
    ∃ t, exec (.registerWrite path a 4 v) s = .next t ∧ stagedLo t path a = BitVec.ofNat 32 v.toNat ∧
      (∀ p b, (p ≠ path ∨ b ≠ a) → b < bankStride → a < bankStride → stagedLo t p b = stagedLo s p b) ∧
      t = { s with out := [], staged := t.staged }) ∧
  (∀ (path : Nat) (v : BitVec 32) (s : State), pathReaches s path = true → isMgmt path = true → railFailed s 4 = false → s.pwr.st ≤ 1 →
    blockOn s Reg.PWR_TIMER_HI = true →
    ∃ t, exec (.registerHiWrite path Reg.PWR_TIMER_HI v) s = .next t ∧ t.reg Reg.PWR_TIMER_HI = v ∧
      t.reg Reg.PWR_TIMER_LO = stagedLo s path Reg.PWR_TIMER_LO ∧ t.staged = s.staged ∧
      (∀ k, k ≠ Reg.PWR_TIMER_HI → k ≠ Reg.PWR_TIMER_LO → t.reg k = s.reg k) ∧ t = { s with out := [], regs := t.regs }) ∧
  (∀ (path : Nat) (s : State), pathReaches s path = true → railFailed s 4 = false → s.pwr.st ≤ 1 →
    blockOn s Reg.TICK_COUNT_LO = true →
    exec (.registerLoRead path Reg.TICK_COUNT_LO) s = .next { s with
      out := [.value path Reg.TICK_COUNT_LO (BitVec.ofNat 32 s.tick.count)]
      captured := tput (stageKey path Reg.TICK_COUNT_HI) (BitVec.ofNat 32 (s.tick.count / 2 ^ 32)) s.captured }) ∧
  (∀ (path : Nat) (w : BitVec 32) (s : State), pathReaches s path = true → railFailed s 4 = false → s.pwr.st ≤ 1 →
    blockOn s Reg.TICK_COUNT_HI = true → tfind s.captured (stageKey path Reg.TICK_COUNT_HI) = some w →
    exec (.rcRegisterRead path Reg.TICK_COUNT_HI 4) s = .next { s with
      out := [.value path Reg.TICK_COUNT_HI w]
      captured := tdel (stageKey path Reg.TICK_COUNT_HI) s.captured }) ∧
  (∀ (path a : Nat) (d : RegDesc) (s : State), pathReaches s path = true → railFailed s 4 = false → s.pwr.st ≤ 1 →
    a % 4 = 0 → blockOn s a = true → regDesc a = some d → d.fields.any (fun f => f.2.2 == .rc) = true → isLo d = false →
    isHi d = false → a ≠ Reg.SUP_VIN → a ≠ Reg.OBS_PLUMB_DATA 7 → a ≠ Reg.OBS_PLUMB_STAT → a ≠ Reg.TICK_CYCLE → a ≠ Reg.PWR_DOMAIN →
    ∃ t, exec (.rcRegisterRead path a 4) s = .next t ∧ t.out = [.value path a (peek s path a)] ∧
      t.reg (regKey path a d) = readClear d.fields (s.reg (regKey path a d)) ∧
      (∀ k, k ≠ regKey path a d → t.reg k = s.reg k) ∧ t = { s with out := t.out, regs := t.regs }) ∧
  (∀ (path a : Nat) (s : State), a % 8 = 0 →
    exec (.rcRegisterRead path a 8) s = .next (s.after (fun s => doRegRead path (a + 4) (doRegRead path a s)))) ∧
  (∀ (path a size : Nat) (s : State), pathReaches s path = true → size ≠ 4 → (size ≠ 8 ∨ a % 8 ≠ 0) →
    exec (.rcRegisterRead path a size) s = .next { s with out := [.value path a 0] }) ∧
  (∀ (sec : Bool) (count offset : Nat) (s : State), pathReaches s tuten = true → railFailed s 4 = false → s.pwr.st ≤ 1 →
    fld s F.MGMT_STAT_CORES ≠ 0 → fld s F.MGMT_TUT_STAT_EID ≠ 0 → inRecovery s = false → 1 ≤ count → count ≤ 16 → offset % 4 = 0 → offset + 4 * count ≤ 0x4000000 →
    exec (.mmioWindowRead sec count offset) s = .next { mmioAnswer 0 count offset (mmioReads count offset s.begun).1
      (mmioReads count offset s.begun).2 with pending := s.pending }) ∧
  (∀ (sec : Bool) (count offset : Nat) (data : List (BitVec 32)) (s : State), pathReaches s tuten = true → railFailed s 4 = false →
    s.pwr.st ≤ 1 → fld s F.MGMT_STAT_CORES ≠ 0 → fld s F.MGMT_TUT_STAT_EID ≠ 0 → inRecovery s = false →
    (needsSession s false = true → isSecured s tuten sec = true) →
    1 ≤ count → count ≤ 16 → offset % 4 = 0 → offset + 4 * count ≤ 0x4000000 → data.length = count →
    exec (.mmioWindowWrite sec count offset data) s = .next { mmioAnswer 0 count offset [] (mmioWrites offset data s.begun) with
      pending := s.pending }) ∧
  (∀ (sec : Bool) (count offset : Nat) (s : State), pathReaches s tuten = true → railFailed s 4 = false → s.pwr.st ≤ 1 →
    fld s F.MGMT_STAT_CORES ≠ 0 → fld s F.MGMT_TUT_STAT_EID ≠ 0 → inRecovery s = false → (count < 1 ∨ 16 < count) →
    exec (.mmioWindowRead sec count offset) s = .next (mmioAnswer 2 count offset [] s.begun))

/-! ### Host ports -/

/-- Links and resets of a head (R95 to R97, R127, R128, R130, R200): training at and below the offered width and rate, a width that
is refused, a link that trains without CXL, the loss of a link, L1, L2 and L0p, what each reset counts, records and does, and what
every reset of a head but a function-level reset leaves: no decoder, no IDE key, no command in flight on its mailbox. -/
def Obligations.LinksAndResets : Prop :=
  (∀ (h width rate : Nat) (cxl : Bool) (s : State), portTrains s h = true → linkTrained s h = false → width < 4 →
    exec (.linkUp h width rate cxl) s = .next (s.after (fun s =>
      sed 0x0103 sERROR 0 h width 0 (setF (F.HP_LINK_STAT_REFUSED h) 1 (ltssm h s))))) ∧
  (∀ (h width rate : Nat) (s : State), portTrains s h = true → linkTrained s h = false → trainable s h width rate = true →
    ∃ t, exec (.linkUp h width rate true) s = .next t ∧ bit t (F.HP_LINK_STAT_UP h) = true ∧ fld t (F.HP_LINK_STAT_WIDTH h) = width ∧
      fld t (F.HP_LINK_STAT_SPEED h) = rate ∧ bit t (F.HP_LINK_STAT_REFUSED h) = false ∧
      bit t (F.HP_LINK_STAT_DEGRADED h) = (decide (width < offeredWidth s h) || decide (offeredRate s h < rate)) ∧
      (headOf t h).lowPower = 0 ∧ (headOf t h).ndrCredit = 0 ∧ (headOf t h).drsCredit = 0 ∧
      (queueOf t (iqReq h)).credits = (if (fld s F.QF_CTL_CREDITS_FULL).testBit h then 512 else 64) ∧
      (queueOf t (iqRwd h)).credits = (if (fld s F.QF_CTL_CREDITS_FULL).testBit h then 512 else 64) ∧
      (∀ g, g ≠ h → (headOf t g).decoders = (headOf s g).decoders) ∧ t.media = s.media ∧ t.ways = s.ways ∧ t.icu = s.icu) ∧
  (∀ (h width rate : Nat) (s : State), portTrains s h = true → linkTrained s h = false → trainable s h width rate = true →
    ∃ t, exec (.linkUp h width rate false) s = .next t ∧ bit t (F.HP_LINK_STAT_UP h) = bit s (F.HP_LINK_STAT_UP h) ∧
      fld t (F.HP_LINK_STAT_WIDTH h) = width ∧ fld t (F.HP_LINK_STAT_SPEED h) = rate ∧
      bit t (F.HP_LINK_STAT_DEGRADED h) = (decide (width < offeredWidth s h) || decide (offeredRate s h < rate)) ∧
      t.queues = s.queues) ∧
  (∀ (h width rate : Nat) (cxl : Bool) (s : State), (portTrains s h = false ∨ linkTrained s h = true ∨
      (4 ≤ width ∧ trainable s h width rate = false)) → exec (.linkUp h width rate cxl) s = .next (s.after id)) ∧
  (∀ (h : Nat) (s : State), headOn s h = true → linkTrained s h = true →
    exec (.linkDown h) s = .next (s.after (fun s => linkDown h 0 (satInc (F.HP_RESET_STAT_HOT h) s)))) ∧
  (∀ (h : Nat) (s : State), (fusedPorts s).testBit h = true → (headOf s h).perst = false → headOn s h = true →
    exec (.perstAssert h) s = .next (s.after (fun s => headReset h (linkDown h 1 (sed 0x0104 sNOTICE 0 h 0 0
      (satInc (F.HP_RESET_STAT_PERST h) (testPin (modHead h (fun x => { x with perst := true, ioState := [] }) s)))))))) ∧
  (∀ (h : Nat) (s : State), (fusedPorts s).testBit h = true → (headOf s h).perst = false → headOn s h = false →
    exec (.perstAssert h) s = .next (s.after (fun s =>
      testPin (modHead h (fun x => { x with perst := true, ioState := [] }) s)))) ∧
  (∀ (h : Nat) (s : State), (fusedPorts s).testBit h = true → headOn s h = true →
    exec (.perstDeassert h) s = .next (s.after (fun s =>
      wakeStart 2 (testReset (modHead h (fun x => { x with perst := false }) s))))) ∧
  (∀ (h : Nat) (s : State), headOn s h = true → (headOf s h).perst = false →
    exec (.hotReset h) s = .next (s.after (fun s => headReset h (linkDown h 2 (sed 0x0104 sNOTICE 0 h 1 0
      (satInc (F.HP_RESET_STAT_HOT h) s)))))) ∧
  (∀ (h : Nat) (s : State), headOn s h = true → (headOf s h).perst = false →
    let u := headReset h (sed 0x0104 sNOTICE 0 h 2 0 (satInc (F.HP_RESET_STAT_CXLRST h) s.begun))
    (bit u (F.HP_LINK_STAT_UP h) = false → exec (.cxlReset h) s = .next { u with pending := s.pending }) ∧
    (bit u (F.HP_LINK_STAT_UP h) = true → exec (.cxlReset h) s = .next
      { initCredits h (modHead h (fun x => { x with ndrCredit := 0, drsCredit := 0 }) u) with pending := s.pending })) ∧
  (∀ (h : Nat) (s : State), headOn s h = true →
    exec (.functionLevelReset h) s = .next (s.after (fun s => abortCmd h (lcmdAbort h (modHead h (fun x => { x with ioState := [] })
      (sed 0x0104 sNOTICE 0 h 3 0 (satInc (F.HP_RESET_STAT_FLR h) s))))))) ∧
  (∀ (h level : Nat) (s : State), headOn s h = true → linkTrained s h = true →
    ∃ t, exec (.linkL1L2Entry h level) s = .next t ∧ headOf t h = { headOf s h with lowPower := level % 3 } ∧
      bit t (F.HP_LINK_STAT_L0P h) = decide (level = 3) ∧
      (∀ g, g ≠ h → headOf t g = headOf s g) ∧ t = { s with out := [], heads := t.heads, regs := t.regs }) ∧
  (∀ (h : Nat) (s : State), h < 4 →
    let t := headReset h s
    (headOf t h).decoders = [] ∧ (headOf t h).ideKeys = [] ∧ fld t (F.HP_HDM_STAT_COMMITTED h) = 0 ∧
    fld t (F.HP_IDE_STAT_STATE h) ≠ 1 ∧ t.mgmt.inflight.any (fun e => e.path == h) = false)

/-- Decoder commits (R98, R100, R102), GPF (R120), IDE keys (R123), an IDE integrity failure (R125), a DOE request (R126), the first
SPDM exchange (R452) and response credits (R144). -/
def Obligations.HostPortCommands : Prop :=
  (∀ (h n base size skip ways gran : Nat) (s : State), headOn s h = true → n < 8 → decoderOk ⟨base, size, skip, ways, gran⟩ = true →
    base + size ≤ 2 ^ 52 → ¬ (tagged s h = true ∧ 2 ^ 40 < base + size) →
    let l := tput n ⟨base, size, skip, ways, gran⟩ (headOf s h).decoders
    inRegions s h (decoderBase l n) (decoderBase l n + size / ways) = true →
    ∃ t, exec (.hdmDecoderCommit h n base size skip ways gran) s = .next t ∧ (headOf t h).decoders = l ∧
      (headOf t h).notCommitted = (headOf s h).notCommitted &&& (255 - 2 ^ n) ∧
      fld t (F.HP_HDM_STAT_COMMITTED h) = (fld s (F.HP_HDM_STAT_COMMITTED h) ||| 2 ^ n) ∧
      (∀ g, g ≠ h → headOf t g = headOf s g) ∧ t = { s with out := [], regs := t.regs, heads := t.heads }) ∧
  (∀ (h n base size skip ways gran : Nat) (s : State), headOn s h = true → n < 8 → decoderOk ⟨base, size, skip, ways, gran⟩ = false →
    ∃ t, exec (.hdmDecoderCommit h n base size skip ways gran) s = .next t ∧ (headOf t h).decoders = tdel n (headOf s h).decoders ∧
      (headOf t h).notCommitted = ((headOf s h).notCommitted ||| 2 ^ n) ∧
      (fld t (F.HP_HDM_STAT_COMMITTED h)).testBit n = false ∧ (fld t (F.HP_HDM_STAT_REFUSED h)).testBit n = true ∧
      t = { s with out := [], regs := t.regs, heads := t.heads }) ∧
  (∀ (h phase : Nat) (s : State), headOn s h = true → bit s (F.HP_LINK_STAT_UP h) = true →
    exec (.gpfRequest h phase) s = .next (s.after (fun s => sed 0x0140 sINFO 0 h phase 0 (emit (.gpf h) s)))) ∧
  (∀ (h ses : Nat) (keys : List (BitVec 256)) (s : State), headOn s h = true → spdmOpen s h ses = true → keys ≠ [] →
    fld s (F.HP_IDE_STAT_STATE h) ≠ 1 →
    ∃ t, exec (.ideKeyProgram h ses 0 keys) s = .next t ∧ (headOf t h).ideKeys = keys ∧ fld t (F.HP_IDE_STAT_STATE h) = 1 ∧
      fld t (F.HP_IDE_STAT_KEYSET h) = fld s (F.HP_IDE_STAT_KEYSET h) ∧ t.queues = s.queues) ∧
  (∀ (h ses : Nat) (keys : List (BitVec 256)) (s : State), headOn s h = true → spdmOpen s h ses = true → keys ≠ [] →
    fld s (F.HP_IDE_STAT_STATE h) = 1 →
    ∃ t, exec (.ideKeyProgram h ses 0 keys) s = .next t ∧ (headOf t h).ideKeys = keys ∧ fld t (F.HP_IDE_STAT_STATE h) = 1 ∧
      fld t (F.HP_IDE_STAT_KEYSET h) = 1 - fld s (F.HP_IDE_STAT_KEYSET h) ∧
      fld t (F.HP_IDE_STAT_REFRESH h) = min (fld s (F.HP_IDE_STAT_REFRESH h) + 1) 255 ∧ t.queues = s.queues) ∧
  (∀ (h flits : Nat) (s : State), headOn s h = true → fld s (F.HP_IDE_STAT_STATE h) = 1 →
    ∃ t, exec (.ideFail h flits) s = .next t ∧ fld t (F.HP_IDE_STAT_STATE h) = 2 ∧ Out.headEvent h 1 0 ∈ t.out ∧
      fld t (F.HP_IDE_STAT_FAILS h) = min (fld s (F.HP_IDE_STAT_FAILS h) + 1) 255 ∧ bit t (F.HP_ERR_STAT_IDEFAIL h) = true ∧
      (headOf t h).aer = (headOf s h).aer + 1 ∧ t.media = s.media ∧
      (queueOf t (iqReq h)).entries = (queueOf s (iqReq h)).entries.filter (·.ideOk) ∧
      (queueOf t (iqRwd h)).entries = (queueOf s (iqRwd h)).entries.filter (·.ideOk)) ∧
  (∀ (p a b : Nat) (s : State), p < 4 → headOn s p = true → (headOf s p).released = true → fld s F.MGMT_STAT_CORES ≠ 0 →
    exec (.spdmMessage p [0x10, 0x84, BitVec.ofNat 8 a, BitVec.ofNat 8 b]) s = .next (s.after (fun s =>
      emit (.doe p [0x10, 0x04, 0, 0, 0, 1, 0x00, 0x13]) (putSpdm p { spdmOf s p with stage := 1 } s)))) ∧
  (∀ (h entry : Nat) (s : State), headOn s h = true →
    exec (.cdatRead h false entry) s = .next { s with out := [.doe h (cdatReply s h entry)] } ∧
    exec (.cdatRead h true entry) s = .next { s with out := [.doe h (doeDiscovery entry)] }) ∧
  (∀ (h ndr drs : Nat) (s : State), headOn s h = true →
    exec (.hostS2mCreditReturn h ndr drs) s = .next (s.after (fun s =>
      pump (present h (modHead h (fun x => { x with ndrCredit := x.ndrCredit + ndr, drsCredit := x.drsCredit + drs }) s)))))

/-! ### The boundary, the Nebadex image, the queue fabric and the line cache -/

/-- A tick boundary (R33): nothing in DOWN and OFF; the calendar, the count and the supervisor's tick allowance where the part has
not started; and in a started part the ordered steps: the calendar and budget sets, the answers that waited for them, the work that
overran, the epoch step, the flush of the recorder, the boundary work of every unit, and the resets held for a boundary. The count
rises by one (R43) and the calendar by one millisecond in 250 ticks (R48). -/
def Obligations.TickBoundary : Prop :=
  (∀ (ov : List Overrun) (silent : List Nat) (rngOk : Bool) (s : State), 6 ≤ s.sup.st →
    exec (.tickBoundary ov silent rngOk) s = .next (s.after id)) ∧
  (∀ (ov : List Overrun) (silent : List Nat) (rngOk : Bool) (s : State), s.sup.st < 6 →
    let u := forEach ov overrun (modSup (fun x => { x with issued := [] })
      (answerTimestamps (calSetRefused s.begun) (tickAdvance (cycleTick s.begun))))
    (u.sup.t0 = false → exec (.tickBoundary ov silent rngOk) s = .next { u with pending := s.pending }) ∧
    (u.sup.t0 = true →
      let s1 := epochStep rngOk u
      let s2 := when (coreOn s1 && (s1.sed.flushDue || tickInEpoch s1 == 0)) sedFlush s1
      let s3 := when (slicesServe s2 && !s2.mtl.internalQ.isEmpty) internalServe s2
      let s4 := fwSwitch (sfServe (when (coreOn s3) shoreTick s3))
      let s5 := planStep (when s4.ndx.live.isSome reLevel (ndxLive s4))
      let s6 := sndBoundary (plumbBoundary (levelBoundary (tokenStep
        (when (coreOn s5) (fun s => recurring rngOk (diePolls silent s)) s5))))
      let s7 := capStep (idleBoundary (flushCut (when (coreOn s6) (fun s => pump (nrwSend 1 (nrwSend 0 (nrwTake s)))) s6)))
      exec (.tickBoundary ov silent rngOk) s =
        .next { resetStep (offStep (when (inHalt s7) (entryCut 5) s7)) with pending := s.pending })) ∧
  (∀ s : State, (tickAdvance s).tick.count = (s.tick.count + 1) % 2 ^ 64) ∧
  (∀ s : State, s.tick.hold = 0 → fld s F.TICK_CAL_STAT_SUBMS ≠ 249 →
    (calAdvance s).tick.cal = s.tick.cal ∧ fld (calAdvance s) F.TICK_CAL_STAT_SUBMS = (fld s F.TICK_CAL_STAT_SUBMS + 1) % 256) ∧
  (∀ s : State, s.tick.hold = 0 → fld s F.TICK_CAL_STAT_SUBMS = 249 →
    (calAdvance s).tick.cal = (s.tick.cal + 1) % 2 ^ 48 ∧ fld (calAdvance s) F.TICK_CAL_STAT_SUBMS = 0) ∧
  (∀ s : State, 0 < s.tick.hold → (calAdvance s).tick.cal = s.tick.cal ∧ (calAdvance s).tick.hold = s.tick.hold - 1)

/-- Staging and committing a Nebadex image (R79 to R82, R87, R88): a first and a later chunk, the last chunk, a chunk out of
place, an image that may not be staged, a commit whose written bytes validate and one whose bytes do not, and the end of an owner's
two epochs. -/
def Obligations.NebadexStaging : Prop :=
  (∀ (path : Nat) (inp : List Byte) (s : State), taken path 0xC001 inp s = true → inp.length = 8 + at' inp 4 2 →
    4 ≤ at' inp 4 2 → at' inp 4 2 ≤ 4096 → at' inp 4 2 % 4 = 0 → byteAt inp 6 ≤ 1 → byteAt inp 7 = 0 →
    ndxRefused s = false → ndxOther s path = false → s.ndx.commit = none →
    (at' inp 0 4 = 0 →
      let u := setF F.MGMT_NDX_STAT_STAGE 1 { ndxTouch path s.begun with ndx := { (ndxTouch path s.begun).ndx with staged := [], stagedCfg := none } }
      let v := ndxOwn path { u with ndx := { u.ndx with staged := inp.drop 8 } }
      exec (.ndxStage path inp) s = .next
        { (if byteAt inp 6 = 1 then ndxLast path v else answer path 0xC001 rcSuccess (ndxOut 0 noRec 0) v) with pending := s.pending }) ∧
    (at' inp 0 4 ≠ 0 → fld s F.MGMT_NDX_STAT_STAGE = 1 → at' inp 0 4 = s.ndx.staged.length → at' inp 0 4 + at' inp 4 2 ≤ 65536 →
      let u := ndxTouch path s.begun
      let v := ndxOwn path { u with ndx := { u.ndx with staged := u.ndx.staged ++ inp.drop 8 } }
      exec (.ndxStage path inp) s = .next
        { (if byteAt inp 6 = 1 then ndxLast path v else answer path 0xC001 rcSuccess (ndxOut 0 noRec 0) v) with pending := s.pending }) ∧
    (at' inp 0 4 ≠ 0 → (fld s F.MGMT_NDX_STAT_STAGE ≠ 1 ∨ at' inp 0 4 ≠ s.ndx.staged.length) →
      exec (.ndxStage path inp) s = .next (s.after (fun s => answer path 0xC001 rcInvalid [] (ndxTouch path s))))) ∧
  (∀ (path : Nat) (inp : List Byte) (wrong : List (Nat × Byte)) (c : ImageCfg) (s : State), taken path 0xC002 inp s = true → inp.length = 4 →
    byteAt inp 0 ≤ 1 → byteAt inp 1 ≤ 1 → zeroAt inp 2 2 = true → ndxRefused s = false → ndxOther s path = false →
    fld s F.MGMT_NDX_STAT_STAGE = 2 → s.ndx.commit = none → fwWriting s = false → inGuard s = false → inFlush s = false →
    s.ndx.stagedCfg = some c → rangeInUse (ndxTouch path s.begun) c = none →
    (byteAt inp 0 = 1 → s.cfg.any (fun k => sameRecords c.fixedRaw k.fixedRaw) = true) →
    let u := ndxTouch path s.begun
    let a := 0x0100000 + 0x10000 * ndxTarget u
    let v := forEach wrong (fun w s => flashPut (a + w.1 % 0x10000) [w.2] s) (flashPut a s.ndx.staged (flashErase a 0x10000 u))
    let m : NdxCommit := ⟨path, byteAt inp 0, byteAt inp 1 == 1, ndxTarget u, c.version, 2, gCounter v (.dev 1), c, false⟩
    exec (.ndxCommit path inp wrong) s = .next { (
      match ndxValidate v (slotImage v (ndxTarget u)) with
      | .error (reason, rec) => answer path 0xC002 rcInternal [] (sed 0x0A87 sWARNING 10 c.version 1 0 (ndxCommitErr reason rec v))
      | .ok _ => gPut G.ndxsel
          (.ndxsel (ndxTarget u) (gNdxsel v).2.1 (gNdxsel v).2.2.1 (if byteAt inp 1 = 1 then some c.version else none))
          false (some path) (.ndx 4) (startCmd path 0xC002 true { v with ndx := { v.ndx with owner := none, commit := some m } })) with
      pending := s.pending }) ∧
  (∀ (t p : Nat) (s : State), s.ndx.owner = some (t, p) →
    (t + 2 * 262144 ≤ s.tick.count → exec .ndxStageOwnerTimeout s = .next { s with out := [], ndx := { s.ndx with owner := none } }) ∧
    (s.tick.count < t + 2 * 262144 → exec .ndxStageOwnerTimeout s = .next (s.after id)))

/-- The path of host requests: a read, a full and a partial write that the head may send with a credit are taken and the block's
queues are served (R101, R186, R187); what it may not send is not taken; a way or a merge buffer that frees lets the waiting
operations of the slice try again (R179, R187); a fill returns (R183); a write-back that was placed frees its entry (R190). -/
def Obligations.MemoryRequests : Prop :=
  (∀ (h hpa tag : Nat) (up : Upset) (last : Bool) (s : State),
    exec (.memRd h hpa tag up last) s = .next (s.after (fun s =>
      if takes s h .read then pump (takeRequest h hpa tag .read 0 0 false up last s) else s))) ∧
  (∀ (h hpa tag : Nat) (d : Line) (poison : Bool) (up : Upset) (last : Bool) (s : State),
    exec (.memWr h hpa tag d poison up last) s = .next (s.after (fun s =>
      if takes s h .write then pump (takeRequest h hpa tag .write d 0 poison up last s) else s))) ∧
  (∀ (h hpa tag : Nat) (d : Line) (mask : BitVec 64) (poison : Bool) (up : Upset) (last : Bool) (s : State),
    exec (.memWrPtl h hpa tag d mask poison up last) s = .next (s.after (fun s =>
      if takes s h .partialWrite then pump (takeRequest h hpa tag .partialWrite d mask poison up last s) else s))) ∧
  (∀ (n : Nat) (s : State), slicesServe s = true → n < 48 →
    exec (.allocationRetry n) s = .next (s.after (fun s => pump (retryWays n s))) ∧
    exec (.mergeBufferFreed n) s = .next (s.after (fun s => pump (retryWays n s)))) ∧
  (∀ (line : Nat) (up : Upset) (s : State), slicesServe s = true → noInjection s = true →
    exec (.fillReturn line up) s = .next (s.after (fun s => pump (fillReturn line
      (if up = .ce then mempCe 2 (4 * sliceNo line + 3) line s else if up = .ue then pendingUpset line s
       else if up = .vote then mempVote 2 (4 * sliceNo line + 3) (setNo line) s else s))))) ∧
  (∀ (n line : Nat) (e : EbEnt) (s : State), inHalt s = false → coreOn s = true → ebPlaced s n line = some e →
    exec (.ebWritebackDone n line) s = .next (s.after (fun s =>
      let s := when e.cleaner (count 0x12 n 1) (modSlice n (fun x => { x with eb := x.eb.filter (fun b => b.wseq != e.wseq) }) s)
      let held := (findWay s line).isSome || (findEb s line).isSome || (!isInternal s line && !keyHolds s e.key)
      pump (retryWays n (when (!held) (modSlice n (fun x => { x with cove := coveInsert ⟨line, e.key, e.poison, e.data⟩ x.cove })) s))))) ∧
  (∀ (n line : Nat) (s : State), (inHalt s = true ∨ coreOn s = false ∨ ebPlaced s n line = none) →
    exec (.ebWritebackDone n line) s = .next (s.after id))

/-- The queue fabric: a start-up test that passes and one that fails (R152), an on-demand test from the Tuten port accepted and
refused, and its end (R153), an uncorrectable ring word (R154, R155), the end of a copy-switch (R154), a reservation that waited
(R149) and a credit of a paced queue (R156). -/
def Obligations.QueueFabric : Prop :=
  (∀ (q bad : Nat) (s : State), queueOn s q = true → (queueOf s q).test = .startup →
    (bad = 0 → exec (.ringStartupTestDone q bad) s = .next (s.after (fun s => ringsReady (when (decide (q < 16)) (creditsFull (q / 4))
      (setMode q 0 (modQueue q (fun x => { x with wp := 0, rp := 0 }) (modQueue q (fun x => { x with test := .none }) s))))))) ∧
    (bad ≠ 0 → exec (.ringStartupTestDone q bad) s = .next (s.after (fun s => ringsReady (sed 0x0204 sERROR 1 q 0 0
      (modQueue q (fun x => { x with mode := 2 }) (modQueue q (fun x => { x with test := .none }) s))))))) ∧
  (∀ (q : Nat) (s : State), queueOn s q = true → (queueOf s q).mode = 0 → (queueOf s q).test = .none →
    (fullCredits s q = true → 512 ≤ unreserved s) →
    exec (.qfBistStart tuten q) s = .next (s.after (fun s => drainCheck q (setMode q 1 (modQueue q (fun x => { x with test := .draining true })
      (reservePool q (setF F.QF_BIST_STAT_QUEUE q (setF F.QF_BIST_CTL_START 1 (setF F.QF_BIST_CTL_QUEUE q s))))))))) ∧
  (∀ (q : Nat) (s : State), (queueOn s q = false ∨ (queueOf s q).mode ≠ 0 ∨ (queueOf s q).test ≠ .none ∨
      (fullCredits s q = true ∧ unreserved s < 512)) →
    exec (.qfBistStart tuten q) s = .next (s.after (fun s => setF F.QF_BIST_STAT_REFUSED 1 (setF F.QF_BIST_CTL_QUEUE q s)))) ∧
  (∀ (path q : Nat) (s : State), path ≠ tuten → exec (.qfBistStart path q) s = .next (s.after id)) ∧
  (∀ (q : Nat) (s : State), (queueOf s q).test = .running true →
    exec (.qfBistDone q 0) s = .next (s.after (fun s => sed 0x0220 sINFO 1 q 1 0 (setF F.QF_BIST_STAT_FAIL 0 (setF F.QF_BIST_STAT_PASS 1
      (setF F.QF_BIST_STAT_QUEUE q (setF F.QF_BIST_CTL_START 0 (when (decide (q < 16)) (creditsFull (q / 4)) (resvEnd q (setMode q 0
        (modQueue q (fun x => { x with wp := 0, rp := 0, reserved := 0 }) (modQueue q (fun x => { x with test := .none }) s)))))))))))) ∧
  (∀ (q bad : Nat) (s : State), (queueOf s q).test = .running true → bad ≠ 0 →
    exec (.qfBistDone q bad) s = .next (s.after (fun s => setF F.QF_BIST_STAT_FAIL 1 (setF F.QF_BIST_STAT_PASS 0
      (setF F.QF_BIST_STAT_QUEUE q (setF F.QF_BIST_CTL_START 0 (sed 0x0204 sERROR 1 q 2 0
        (modQueue q (fun x => { x with mode := 2 }) (modQueue q (fun x => { x with test := .none }) s))))))))) ∧
  (∀ (q : Nat) (s : State), (queueOf s q).test = .retest →
    exec (.qfBistDone q 0) s = .next (s.after (fun s => sed 0x0203 sNOTICE 1 q 0 0 (when (decide (q < 16)) (creditsFull (q / 4)) (resvEnd q
      (setMode q 0 (modQueue q (fun x => { x with wp := 0, rp := 0, reserved := 0 }) (modQueue q (fun x => { x with test := .none }) s)))))))) ∧
  (∀ (q bad : Nat) (s : State), (queueOf s q).test = .retest → bad ≠ 0 →
    exec (.qfBistDone q bad) s = .next (s.after (fun s => sed 0x0204 sERROR 1 q 1 0
      (modQueue q (fun x => { x with mode := 2 }) (modQueue q (fun x => { x with test := .none }) s))))) ∧
  (∀ (q i word : Nat) (e : QEntry) (s : State), queueOn s q = true → (queueOf s q).entries[i]? = some e →
    (word < 2 ∨ 10 < word → exec (.qfRingUe q i word) s = .next (s.after (ringUeCount agRequest q i word e))) ∧
    (2 ≤ word → word ≤ 10 →
      exec (.qfRingUe q i word) s = .next (s.after (fun s => entryUpset q e (ringUeCount agRequest q i word e s))))) ∧
  (∀ (q : Nat) (s : State), (queueOf s q).stopped = true →
    let n := ((queueOf s q).entries.filter (fun e => e.cell.isNone)).length
    exec (.qfCopySwitchDone q) s = .next (s.after (fun s =>
      let (t, s) := draw 3 s
      let (next, s) := match (queueOf s q).test with
        | .draining d => (RingTest.running d, s)
        | _ => (RingTest.retest, reservePool q (setMode q 1 s))
      pump (faultStall 5 t.toNat 8 (sed 0x0202 sWARNING 1 q n t.toNat
        (modQueue q (fun x => { x with stopped := false, test := next }) (forEach (List.range n) (fun _ s => copyEntry q s) s))))))) ∧
  (∀ (q : Nat) (s : State), (queueOf s q).resvWait = true → 512 ≤ unreserved s →
    exec (.qfPoolReserved q) s = .next (s.after (fun s => resvEnd q (modQueue q (fun x => { x with reserved := 512 }) s)))) ∧
  (∀ (q : Nat) (s : State), isIngress q = true → (queueOf s q).paced = true → 0 < (queueOf s q).withheld → (queueOf s q).resvWait = false →
    exec (.pacedCreditReturn q) s = .next (s.after (fun s => returnCredits q 1 (modQueue q (fun x => { x with withheld := x.withheld - 1 })
      (modQueue q (fun x => { x with recent := false }) s)))))

/-- The cleaner takes the next dirty line of its slice (R193, R194), its control is set or refused (R208), and a line command that
finds its path free is checked and runs over its range (R196 to R199), is refused with its result, or ends (R200). -/
def Obligations.LineCommands : Prop :=
  (∀ (n k : Nat) (w : Way) (s : State), inHalt s = false → coreOn s = true → n < 48 → cleanRuns (cleanLatch s.begun) n = true →
    (sliceOf (cleanLatch s.begun) n).eb.length < (if raised (cleanLatch s.begun) then 16 else 12) →
    cleanNext (cleanLatch s.begun) n = some (k, w) →
    exec (.cleanerClean n) s = .next (s.after (fun s => satInc F.LC_CLEAN_STAT_LINES (modSlice n (fun x => { x with cleanPos := k / 16 % 4096 })
      (writeBack k true (cleanLatch s)).1)))) ∧
  (∀ (n : Nat) (s : State), inHalt s = false → coreOn s = true → n < 48 → cleanRuns (cleanLatch s.begun) n = false →
    exec (.cleanerClean n) s = .next (s.after cleanLatch)) ∧
  (∀ (path : Nat) (v : BitVec 32) (s : State), (headOn s path = true ∨ isMgmt path = true) →
    (v.toNat % 64 ≤ v.toNat / 256 % 64 → exec (.lcCleanCtlWrite path v) s = .next (s.after (setF F.LC_ERR2_CFG 1))) ∧
    (v.toNat / 256 % 64 < v.toNat % 64 → exec (.lcCleanCtlWrite path v) s = .next (s.after (fun s => cleanLatch (raiseEval 1
      (setB F.LC_CLEAN_CTL_FORCE (v.getLsbD 16) (setF F.LC_CLEAN_CTL_STOP (v.toNat / 256 % 64)
        (setF F.LC_CLEAN_CTL_START (v.toNat % 64) s)))))))) ∧
  (∀ (path op : Nat) (c : Instr) (v : BitVec 32) (s : State), (headOn s path = true ∨ isMgmt path = true) → coreOn s = true →
    unitOn s 2 = true → tfind s.lcmds path = none → inHalt s = false →
    (c, op) ∈ [(Instr.lcmdZero path v, 1), (.lcmdFlush path v, 2), (.lcmdPrefetch path v, 3), (.lcmdPin path v, 4), (.lcmdDemote path v, 5)] →
    let n := v.toNat / 16 % 65536 + 1
    let u := lcSetCtl path op n (v.toNat / 2 ^ 20) s.begun
    (lcCheck u path op (lcFirst u path) n = none → exec c s = .next { lcRun path op (lcFirst u path) n u with pending := s.pending }) ∧
    (∀ r, lcCheck u path op (lcFirst u path) n = some r → exec c s = .next { lcRefuse path op r u with pending := s.pending })) ∧
  (∀ (path op : Nat) (c : Instr) (v : BitVec 32) (s : State), (headOn s path = true ∨ isMgmt path = true) → coreOn s = true →
    unitOn s 2 = true → (tfind s.lcmds path).isSome = true →
    (c, op) ∈ [(Instr.lcmdZero path v, 1), (.lcmdFlush path v, 2), (.lcmdPrefetch path v, 3), (.lcmdPin path v, 4), (.lcmdDemote path v, 5)] →
    exec c s = .next (s.after (setF (F.LC_LCMD_STAT_IGNORED path) 1))) ∧
  (∀ (path : Nat) (v : BitVec 32) (s : State), (headOn s path = true ∨ isMgmt path = true) → coreOn s = true →
    unitOn s 2 = true → tfind s.lcmds path = none → inHalt s = false → v.toNat % 8 ∈ [0, 6, 7] →
    exec (.lcmdBadop path v) s = .next (s.after (fun s => lcRefuse path (v.toNat % 8) 1
      (lcSetCtl path (v.toNat % 8) (v.toNat / 16 % 65536 + 1) (v.toNat / 2 ^ 20) s)))) ∧
  (∀ (path : Nat) (c : LCmd) (s : State), tfind s.lcmds path = some c →
    (c.inFlight = [] → (c.stop ≠ 0 ∨ c.count ≤ c.next) →
      exec (.lcmdDone path) s = .next (s.after (lcmdEnd path (if c.stop ≠ 0 then c.stop else c.result)))) ∧
    ((c.inFlight ≠ [] ∨ (c.stop = 0 ∧ c.next < c.count)) → exec (.lcmdDone path) s = .next (s.after pump)))

/-! ### The media engines -/

/-- Senses (R217, R222, R227 to R231, R239, R241, R247, R248, R733, R734): a sense starts on an idle die and suspends a busy one,
waits near the end of its operation, or is refused by its address; the admission list moves up; a suspended operation resumes; a bus
slot goes to a waiting host sector, to a class that is due, or to nobody; a decoded sector is delivered or climbs the ladder; a
reconstruction ends; a drift sample is taken. -/
def Obligations.MediaSenses : Prop :=
  (∀ (c d : Nat) (h : Sense) (s : State), engineRuns s c = true → d < 8 → dieOnline s (c * 8 + d) = true →
    (dieOf s (c * 8 + d)).page = none → senseDue (dieOf s (c * 8 + d)) = some h → psaRefused s h.psa = none →
    let host := match h.why with | .recon _ _ => false | _ => true
    let note := fun (s : State) => when (host && h.step == 0) (fun s => count 0x20 c 1 (satInc (F.MED_CH_CNT_READ_COUNT c) s)) s
    (dieBusy (dieOf s (c * 8 + d)) = false →
      exec (.hostSenseStart c d) s = .next (s.after (fun s => senseStart (c * 8 + d) 0 h (note s)))) ∧
    (∀ o, (dieOf s (c * 8 + d)).op = some o → dieBusy (dieOf s (c * 8 + d)) = true →
      ((dieOf s (c * 8 + d)).window ≤ cycNow s c → (dieOf s (c * 8 + d)).susp = none → cycNow s c + suspCyc < o.endAt →
        exec (.hostSenseStart c d) s = .next (s.after (fun s => senseStart (c * 8 + d) suspCyc h (note (dieSuspend (c * 8 + d)
          (sndMedia (c * 8 + d) 3 0 h.psa 0 (count 0x27 c 1 (satInc (F.MED_CH_CNT_SUSP_COUNT c) s)))))))) ∧
      (cycNow s c < (dieOf s (c * 8 + d)).window ∨ (dieOf s (c * 8 + d)).susp.isSome = true ∨ o.endAt ≤ cycNow s c + suspCyc →
        exec (.hostSenseStart c d) s = .next (s.after id)))) ∧
  (∀ (c d why : Nat) (h : Sense) (s : State), engineRuns s c = true → d < 8 → dieOnline s (c * 8 + d) = true →
    (dieOf s (c * 8 + d)).page = none → senseDue (dieOf s (c * 8 + d)) = some h → psaRefused s h.psa = some why →
    exec (.hostSenseStart c d) s = .next (s.after (senseRefused (c * 8 + d) why h))) ∧
  (∀ (c d : Nat) (s : State), chanOn s c = true → d < 8 →
    exec (.admissionEnter c d) s = .next (s.after (moveUp
      ((dieOf s (c * 8 + d)).adm.length + (dieOf s (c * 8 + d)).held.length + 1) (c * 8 + d)))) ∧
  (∀ (c d : Nat) (o : DieOp) (s : State), chanOn s c = true → d < 8 → (dieOf s (c * 8 + d)).susp = some o →
    dieBusy (dieOf s (c * 8 + d)) = false → (dieOf s (c * 8 + d)).page = none → senseDue (dieOf s (c * 8 + d)) = none → inFlush s = false →
    exec (.dieResume c d) s = .next (s.after (fun s =>
      sndMedia (c * 8 + d) 4 1 0 0 (dieUnsuspend (c * 8 + d) (cycNow s c) s)))) ∧
  (∀ (c : Nat) (s : State), chanOn s c = true → (chanOf s c).slot < 30 → inFlush s = false →
    let due := if (chanOf s c).slot % 5 = 0 then slotClass s c true else none
    let rest := fun (s : State) => forEach (List.range 8) (fun d s => bgStart (c * 8 + d) s)
      (modChan c (fun x => { x with slot := x.slot + 1 }) s)
    let charge := fun (cl : Nat) (s : State) => modChan c (fun x => { x with
      minCred := x.minCred.set cl (lat 0 x.minCred cl - 64), entCred := x.entCred.set cl (lat 0 x.entCred cl - 64) }) s
    (∀ k, due = none → slotHost s c = some k → exec (.busSlot c) s = .next (s.after (fun s => rest (pageOut k s)))) ∧
    (due = none → slotHost s c = none → slotClass s c false = none → exec (.busSlot c) s = .next (s.after rest)) ∧
    (∀ cl k, due = some cl ∨ (due = none ∧ slotHost s c = none ∧ slotClass s c false = some cl) →
      (slotWants s c).find? (fun w => w.2 == cl) = some (k, cl) →
      ((∃ p, (dieOf s k).page = some p ∧ senseClass p.sense = some cl ∧ p.ready ≤ cycNow s c) →
        exec (.busSlot c) s = .next (s.after (fun s => rest (pageOut k (charge cl s))))) ∧
      ((dieOf s k).page = none → exec (.busSlot c) s = .next (s.after (fun s => rest (modDie k (fun d => { d with progq :=
        (match d.progq with | x :: r => { x with sectors := x.sectors - 1 } :: r | [] => []) }) (charge cl s))))))) ∧
  (∀ (c : Nat) (s : State), chanOn s c = true → 30 ≤ (chanOf s c).slot → exec (.busSlot c) s = .next (s.after id)) ∧
  (∀ (c d lat : Nat) (res : SenseRes) (x : Sense) (u : State) (s : State), inHalt s = false → decodeTake c d s.begun = some (x, u) →
    let v := (senseInj (c * 8 + d) x res u).1
    let r := (senseInj (c * 8 + d) x res u).2
    let out := decodeOf (fld v (F.MED_CH_RETRY_HIGH c)) r
    (∀ ones bits iters a, r = .codeword ones bits iters a → out ≠ .erased →
      exec (.senseDone c d res lat) s = .next { senseGood (c * 8 + d) x out a lat v with pending := s.pending }) ∧
    (∀ ones bits iters a, r = .codeword ones bits iters a → out = .erased →
      exec (.senseDone c d res lat) s = .next { senseFail (c * 8 + d) ones 0 lat x true v with pending := s.pending }) ∧
    (∀ ones checks, r = .noCodeword ones checks →
      exec (.senseDone c d res lat) s = .next { senseFail (c * 8 + d) ones checks lat x (out == .erased) v with pending := s.pending })) ∧
  (∀ (c d lat : Nat) (res : SenseRes) (x : Sense) (u : State) (s : State), inHalt s = true → decodeTake c d s.begun = some (x, u) →
    exec (.senseDone c d res lat) s = .next { u with pending := s.pending }) ∧
  (∀ (c d auth lat j : Nat) (r : Recon) (s : State), engineRuns s c = true → d < 8 → reconDone s (c * 8 + d) = some (j, r) →
    (∀ ch, r.failed = some ch → exec (.medRecon c d auth lat) s = .next (s.after (fun s =>
      let s := sed 0x0422 sCRITICAL 5 (c * 8 + d) (r.sense.psa % 2 ^ 32) ch
        { s with media := { s.media with recons := tdel j s.media.recons } }
      match r.sense.why with
      | .line l => fillResult l .poisoned (pathOf r.sense 8 (mediaEvent l (poisonAdd l 1 s)))
      | .node leaf copy => nodeDead leaf copy s
      | _ => s))) ∧
    (r.failed = none → exec (.medRecon c d auth lat) s = .next (s.after (fun s =>
      let ticks := s.tick.count - r.start
      let s := { s with media := { s.media with recons := tdel j s.media.recons } }
      let s := sed 0x0421 sWARNING 5 (c * 8 + d) (r.sense.psa % 2 ^ 32) ticks (count 0x24 c 1 (satInc (F.MED_CH_CNT_RECON_COUNT c) s))
      let s := faultStall 1 ticks 10 (refreshHint r.sense.psa 2 s)
      let s := if r.sense.step = 2 then (match r.sense.why with | .line _ => latMax c lat s | _ => s) else s
      deliver (some (r.sense.psa, rebuiltInfo s r.sense.psa)) r.sense 4 auth (pathOf r.sense 8 s))))) ∧
  (∀ (c d lo mid hi : Nat) (a : Nat) (deeps : Bool) (psa : Nat) (s : State), engineRuns s c = true → d < 8 → dieOnline s (c * 8 + d) = true →
    (∀ t, (dieOf s (c * 8 + d)).lastSample = some t → t + 64 ≤ s.tick.count) → sampleNext s (c * 8 + d) = some ((deeps, a), psa) →
    let step : Int := if lo < mid ∧ lo < hi then -1 else if hi < mid ∧ hi < lo then 1 else 0
    exec (.driftSample c d lo mid hi) s = .next (s.after (fun s =>
      let s := forEach (List.range 3) (fun _ s => bgSense (some psa) 4 1 s)
        (modDie (c * 8 + d) (fun y => { y with lastSample := some s.tick.count, sampled := some (deeps, a) }) s)
      showRef (c * 8 + d) a (if step = 0 then s else learnMove (c * 8 + d) deeps a step s))))

/-- Programs and erases (R219, R225, R249, R250): the start of a planned program and of a planned erase, a window that holds them, their
ends and what they leave; and the intents and timeouts of the translation layer that lead to them (R285, R307, R310). -/
def Obligations.MediaPrograms : Prop :=
  (∀ (c d : Nat) (p : Prog) (rest : List Prog) (s : State), engineRuns s c = true → d < 8 → dieOnline s (c * 8 + d) = true →
    dieFree s (c * 8 + d) = true → paused s (c * 8 + d) = false → windowHeld s c = false → noInjection s = true →
    (dieOf s (c * 8 + d)).progq = p :: rest →
    ((dieOf s (c * 8 + d)).plan.contains .prog = true ∨ inFlush s = true) →
    (p.sectors = 0 → exec (.programStart c d) s = .next (s.after (progBegin (c * 8 + d) p rest))) ∧
    (0 < p.sectors → exec (.programStart c d) s = .next (s.after id))) ∧
  (∀ (c d : Nat) (s : State), engineRuns s c = true → d < 8 → dieOnline s (c * 8 + d) = true →
    dieFree s (c * 8 + d) = true → paused s (c * 8 + d) = false → windowHeld s c = false → (dieOf s (c * 8 + d)).progq = [] →
    (dieOf s (c * 8 + d)).plan.contains .erase = true →
    exec (.programStart c d) s = .next (s.after (eraseBegin (c * 8 + d)))) ∧
  (∀ (c d : Nat) (s : State), engineRuns s c = true → d < 8 → dieOnline s (c * 8 + d) = true →
    dieFree s (c * 8 + d) = true → paused s (c * 8 + d) = false → windowHeld s c = true →
    exec (.programStart c d) s = .next (s.after (fun s => sed 0x0440 sNOTICE 5 c ((stackTemp s c) % 2 ^ 32).toNat
      ((dieOf s (c * 8 + d)).progq.length + (dieOf s (c * 8 + d)).eraseq.length) s))) ∧
  (∀ (c d res e : Nat) (p : Prog) (b : BlockSet) (s : State), (dieOf s (c * 8 + d)).op = some (.prog p e) →
    setOf (count 0x25 c 1 (satInc (F.MED_CH_CNT_PROG_COUNT c) (opEnds (c * 8 + d) e s.begun))) p.set = some b →
    let u := sndMedia (c * 8 + d) 1 (progClass (count 0x25 c 1 (satInc (F.MED_CH_CNT_PROG_COUNT c) (opEnds (c * 8 + d) e s.begun))) p)
      (wlPsa b c p.wl) 0 (count 0x25 c 1 (satInc (F.MED_CH_CNT_PROG_COUNT c) (opEnds (c * 8 + d) e s.begun)))
    (b.st = .opened → res = 0 → exec (.programDone c d res) s = .next { progOk c p b u with pending := s.pending }) ∧
    (b.st = .opened → res ≠ 0 → exec (.programDone c d res) s = .next { progBad c p b (res == 2) u with pending := s.pending }) ∧
    (b.st ≠ .opened → exec (.programDone c d res) s = .next { u with pending := s.pending })) ∧
  (∀ (c d n plane blk e : Nat) (ok blank : Bool) (b : BlockSet) (s : State), (dieOf s (c * 8 + d)).op = some (.erase n plane blk e) →
    let k := c * 8 + d
    let key := blockKey c d plane blk
    let u := sndMedia k 2 3 (psaOf c d plane blk 0 0) 0 (count 0x26 c 1 (satInc (F.MED_CH_CNT_ERASE_COUNT c) (opEnds k e s.begun)))
    setOf u n = some b → ok = true → tfind s.media.suspect key = none →
    exec (.eraseDone c d ok blank) s = .next { (
      let s := modMap (fun x => { x with wear := tmod 0 key (· + (if setDeeps b then 10 else 1)) x.wear }) u
      let s := if setDeeps b then { s with mtl := { s.mtl with lifeD := s.mtl.lifeD + 1 } }
        else { s with mtl := { s.mtl with lifeS := s.mtl.lifeS + 1 } }
      let s := modSet n (fun x => { x with toErase := x.toErase.filter (fun y => y != memberOn b c) }) (dropBlock key s)
      match setOf s n with
      | some x => if x.toErase.isEmpty then setErased n x s else s
      | none => s) with pending := s.pending }) ∧
  (∀ (n : Nat) (b : BlockSet) (s : State), setOf s n = some b → mtlRuns s = true → b.st = .dredged → setInUse s n b = false →
    intentPending s n = false → exec (.eraseIntent n) s = .next (s.after (jPut (.eraseIntent n)))) ∧
  (∀ s : State, mtlRuns s = true → s.mtl.jopen ≠ [] →
    (s.mtl.jfirst + 4 ≤ s.tick.count → exec .journalPageTimeout s = .next (s.after jClose)) ∧
    (s.tick.count < s.mtl.jfirst + 4 → exec .journalPageTimeout s = .next (s.after id))) ∧
  (∀ (p : LogPage) (s : State), mtlRuns s = true → s.mtl.logPage = some p → p.slots ≠ [] → p.firstTick + 64 ≤ s.tick.count →
    s.mtl.relocPage = none → (closeLog false s.begun).mtl.relocPage = none →
    exec .logPageTimeout s = .next (s.after (closeLog false))) ∧
  (∀ (p : LogPage) (s : State), mtlRuns s = true → s.mtl.relocPage = some p → p.slots ≠ [] → p.firstTick + 64 ≤ s.tick.count →
    s.mtl.logPage = none → exec .logPageTimeout s = .next (s.after (closeLog true))) ∧
  (∀ (n t : Nat) (b : BlockSet) (s : State), setOf s n = some b → b.firstClose = some t → mtlRuns s = true → b.st = .opened →
    (t + 256 ≤ s.tick.count → exec (.rowFillTimeout n) s = .next (s.after (fillRow n))) ∧
    (s.tick.count < t + 256 → exec (.rowFillTimeout n) s = .next (s.after id)))

/-- Dies and channels (R251 to R253, R257 to R259): a die is fenced when it did not answer or its operation ran long, is reset,
rejoins or is lost; a channel loses its training, trains again, fails, and is asked to train again. -/
def Obligations.MediaFencing : Prop :=
  (∀ (c d cause : Nat) (s : State), chanOn s c = true → d < 8 → dieOnline s (c * 8 + d) = true →
    ((cause = 0 ∧ 1 ≤ (dieOf s (c * 8 + d)).missed) ∨ (cause ≠ 0 ∧ dieBusy (dieOf s (c * 8 + d)) = true ∧
      (dieOf s (c * 8 + d)).op.any (fun o => decide (o.endAt + 12000 < cycNow s c)) = true)) →
    let k := c * 8 + d
    let u := faultStallFree 2 45 (sed 0x0410 sERROR 5 k cause (heldSenses s k) (raiseInc k (fenceDie k s.begun)))
    ((∃ e, e < 8 ∧ dieState u (c * 8 + e) = 0) → exec (.dieFenced c d cause) s = .next { u with pending := s.pending }) ∧
    ((∀ e, e < 8 → dieState u (c * 8 + e) ≠ 0) → (∃ e, e < 8 ∧ e ≠ d ∧ dieState u (c * 8 + e) = 1) →
      exec (.dieFenced c d cause) s = .next { faultStallFree 3 125 (sed 0x0402 sCRITICAL 5 c 1 (heldSenses s k)
        (modChan c (fun x => { x with fencedWhole := true, attempts := 0 }) (setF (F.MED_CH_STAT_STATE c) 4 u))) with
          pending := s.pending })) ∧
  (∀ (c d : Nat) (s : State), (dieOf s (c * 8 + d)).missed = 0 → exec (.dieFenced c d 0) s = .next (s.after id)) ∧
  (∀ (c : Nat) (s : State), chanOn s c = true → chanState s c = 2 →
    ∃ t, exec (.channelTrainingLost c) s = .next t ∧ chanState t c = 3 ∧ fld t (F.MED_CH_BUS_TRAINED c) = 0 ∧
      t = { s with out := [], regs := t.regs }) ∧
  (∀ (c : Nat) (s : State), chanOn s c = true → chanState s c = 3 →
    exec (.channelRetrainDone c true) s = .next (s.after (fun s =>
      let (t, s) := drawLe 50 s
      modChan c (fun x => { x with fencedWhole := false, attempts := 0 })
        (setF (F.MED_CH_BUS_TRAINED c) 1 (setF (F.MED_CH_STAT_STATE c) 2 (sed 0x0401 sWARNING 5 c 1 t s)))))) ∧
  (∀ (c : Nat) (s : State), chanOn s c = true → chanState s c = 4 →
    exec (.channelRetrainDone c true) s = .next (s.after (fun s =>
      let (t, s) := drawLe 50 s
      modChan c (fun x => { x with fencedWhole := false, attempts := 0 })
        (forEach (List.range 8) (fun d s => if dieState s (c * 8 + d) = 1 ∧ !(dieOf s (c * 8 + d)).incWait then setDieState (c * 8 + d) 2 s else s)
          (setF (F.MED_CH_BUS_TRAINED c) 1 (setF (F.MED_CH_STAT_STATE c) 2 (sed 0x0401 sWARNING 5 c 1 t s))))))) ∧
  (∀ (c : Nat) (s : State), chanOn s c = true → chanState s c = 3 → (chanOf s c).fencedWhole = false →
    exec (.channelRetrainDone c false) s = .next (s.after (fun s =>
      let (t, s) := drawLe 50 s
      fenceChannel c 0 (sed 0x0401 sWARNING 5 c 0 t s)))) ∧
  (∀ (c : Nat) (s : State), chanOn s c = true → chanState s c = 4 → 2 ≤ (chanOf s c).attempts →
    exec (.channelRetrainDone c false) s = .next (s.after (fun s =>
      let n := (chanOf s c).attempts + 1
      let (t, s) := drawLe 50 s
      startRebuild (c + 256) (sed 0x0403 sCRITICAL 5 c n 0 (forEach (List.range 8) (fun d s => setDieState (c * 8 + d) 4 s)
        (setF (F.MED_CH_STAT_STATE c) 6 (modChan c (fun x => { x with attempts := n }) (satInc (F.MED_CH_BUS_RETRAINS c)
          (sed 0x0401 sWARNING 5 c 0 t s))))))))) ∧
  (∀ (c d inc : Nat) (s : State), chanOn s c = true → d < 8 → (dieState s (c * 8 + d) = 1 ∨ dieState s (c * 8 + d) = 2) →
    (dieOf s (c * 8 + d)).incWait = false → chanState s c = 2 →
    let k := c * 8 + d
    let n := (dieOf s k).attempts + 1
    let u := satInc (F.MED_CH_D_ERR_RESETS c d) (setDieState k 2 (modDie k (fun y => { y with attempts := n }) s.begun))
    exec (.dieResetAttempt c d true inc) s = .next { infoRead k inc (sed 0x0411 sNOTICE 5 k n 1 u) with pending := s.pending } ∧
    (n < 3 → exec (.dieResetAttempt c d false inc) s = .next { sed 0x0411 sNOTICE 5 k n 0 u with pending := s.pending }) ∧
    (3 ≤ n → exec (.dieResetAttempt c d false inc) s = .next { (
      let s := sed 0x0411 sNOTICE 5 k n 0 u
      startRebuild k (sed 0x0413 sCRITICAL 5 k (expectedInc s k) 0 (setDieState k 4 s))) with pending := s.pending })) ∧
  (∀ (c d bad : Nat) (s : State), chanOn s c = true → d < 8 → dieState s (c * 8 + d) = 3 →
    let k := c * 8 + d
    exec (.medDieRejoin c d bad) s = .next (s.after (fun s =>
      let open_ := s.media.blocks.filter (fun e => e.1 / 2 ^ 15 == k && decide (e.2.nextWl < 256))
      let s := satAdd (F.MED_CH_D_ERR_PAGES_BAD c d) bad (forEach open_ (fun e s => suspect e.1 1 s) s)
      let stored := (dieOf s k).stored
      let e := expectedInc s k
      sed 0x0415 sNOTICE 5 k open_.length bad (sed 0x0412 sNOTICE 5 k stored e
        (dieOnlineAgain k (modDie k (fun y => { y with stored := e }) s)))))) ∧
  (∀ (path c : Nat) (v : BitVec 32) (s : State), isMgmt path = true → chanOn s c = true → v.getLsbD 4 = true → chanState s c = 6 →
    exec (.medChRetrainRequest path c v) s = .next (s.after (fun s =>
      forEach (List.range 8) (fun d s => setDieState (c * 8 + d) 1 s)
        (modChan c (fun x => { x with attempts := 2 }) (setF (F.MED_CH_STAT_STATE c) 4 s))))) ∧
  (∀ (path c : Nat) (v : BitVec 32) (s : State), chanState s c ≠ 6 →
    exec (.medChRetrainRequest path c v) s = .next (s.after id))

/-- Direct access (R261 to R264): the channel enters it on a blank part from the Tuten port and refuses it otherwise; each of the five
operations runs at the address and in the mode asked for, gives its result, and an address of no page gives result 6. -/
def Obligations.DirectAccess : Prop :=
  (∀ (c : Nat) (v : BitVec 32) (s : State), chanOn s c = true → v.getLsbD 0 = true → chanState s c ≠ 5 → lifecycle s = 0 →
    s.mtl.map.reachMap = [] → s.mtl.map.fine = [] →
    exec (.medDaEnter tuten c v) s = .next (s.after (fun s => sed 0x0450 sNOTICE 5 c 0 0 (setF (F.MED_CH_STAT_STATE c) 5
      (setF (F.MED_CH_CTL_DA c) 1 (forEach (List.range 8) (fun d s => modDie (c * 8 + d) (fun x => { x with da := 1 }) s) s)))))) ∧
  (∀ (path c : Nat) (v : BitVec 32) (s : State), isMgmt path = true → chanOn s c = true → v.getLsbD 0 = true → chanState s c ≠ 5 →
    (path ≠ tuten ∨ lifecycle s ≠ 0 ∨ s.mtl.map.reachMap ≠ [] ∨ s.mtl.map.fine ≠ []) →
    exec (.medDaEnter path c v) s = .next (s.after (setF (F.MED_CH_DA_STAT_RESULT c) 10))) ∧
  (∀ (path c op : Nat) (v : BitVec 32) (ok : Bool) (i : Instr) (f : Nat → Bool → Nat → Bool → State → Nat × State) (s : State),
    (i, op, f) ∈ [(Instr.daRead path c v ok, 1, daRead), (.daReadRaw path c v ok, 2, daReadRaw),
      (.daProgramRaw path c v ok, 3, daProgram), (.daErase path c v ok, 4, daErase), (.daReadInfo path c v ok, 5, daInfo)] →
    isMgmt path = true → chanOn s c = true → chanState s c = 5 → v.getLsbD 8 = true →
    let u := setB (F.MED_CH_DA_CMD_MODE c) (v.getLsbD 4) (setF (F.MED_CH_DA_CMD_OP c) op s.begun)
    let psa := c * 2 ^ 31 + fld u (F.MED_CH_DA_ADDR_PSA c)
    let note := fun (r : Nat) (s : State) => sed 0x0451 sDEBUG 5 c (op * 256 + r) (psa % 2 ^ 31) (setF (F.MED_CH_DA_STAT_RESULT c) r s)
    (psaBlock psa < 5504 → psaPage psa < (if v.getLsbD 4 then 768 else 256) →
      let x := f c ok psa (v.getLsbD 4) u
      (x.1 ∉ [4, 5, 6, 10] → exec i s = .next { note x.1 x.2 with pending := s.pending }) ∧
      (x.1 = 4 → exec i s = .next { note 4 (sed 0x0433 sERROR 5 (psaDie psa) (psa % 2 ^ 32) 0 x.2) with pending := s.pending }) ∧
      (x.1 = 5 → exec i s = .next { note 5 (sed 0x0433 sERROR 5 (psaDie psa) (psa % 2 ^ 32) 1 x.2) with pending := s.pending }) ∧
      (x.1 = 10 → exec i s = .next { note 10 (sed 0x0433 sERROR 5 (psaDie psa) (psa % 2 ^ 32) 3 x.2) with pending := s.pending })) ∧
    ((5504 ≤ psaBlock psa ∨ (if v.getLsbD 4 then 768 else 256) ≤ psaPage psa) →
      exec i s = .next { note 6 (sed 0x0433 sERROR 5 (psaDie psa) (psa % 2 ^ 32) 2 u) with pending := s.pending }))

/-! ### The translation layer and inline crypt -/

/-- The translation layer: a sealed write-back is placed, or waits and is placed again (R280); a fold captures a merge record
(R291) and takes effect once its commit record is durable (R294); Dredge picks and commits its sets (R296, R298, R310); a checkpoint
begins and ends (R311, R312); the start rebuilds the map (R314); a node set is compacted (R336). -/
def Obligations.Translation : Prop :=
  (∀ (x : SealedWb) (s : State), mtlRuns s = true → s.mtl.sealedQ.find? (fun x => !x.waiting) = some x →
    exec .mtlPlace s = .next (s.after (placeTry x))) ∧
  (∀ (x : SealedWb) (s : State), mtlRuns s = true → s.mtl.sealedQ.find? (fun x => x.waiting) = some x →
    exec .mtlPlaceWaitEnd s = .next (s.after (placeTry x))) ∧
  (∀ (s : State), (mtlRuns s = false ∨ s.mtl.sealedQ = []) →
    exec .mtlPlace s = .next (s.after id) ∧ exec .mtlPlaceWaitEnd s = .next (s.after id)) ∧
  (∀ (k : Nat) (r : MergeRec) (t : State) (lines : List Sealed) (s : State), mtlBackground s = true → foldPick s.begun = some (k, r) →
    let caps := r.ents.filter (fun e => !e.poison)
    foldLines r caps (foldSenses r caps (markCaptured k r s.begun)) = some (t, lines) →
    (placeReach r.reach lines t = none → exec .foldCapture s = .next (s.after id)) ∧
    (∀ u n slot, placeReach r.reach lines t = some (u, n, slot) → exec .foldCapture s = .next { u with
      pending := s.pending, mtl := { u.mtl with
        folds := u.mtl.folds ++ [⟨r.reach, k, foldSeqNow s.begun, caps, r.deeps, some (n, slot), none⟩] } })) ∧
  (∀ (reach j : Nat) (g : Nat × Nat) (f : Fold) (s : State), coreOn s = true → inHalt s = false →
    s.mtl.folds.find? (fun f => f.reach == reach) = some f → f.jseq = some j → f.target = some g →
    (jDurable s j = true → exec (.foldCommit reach) s = .next (s.after (fun s =>
      let s := foldApply reach g s
      count 0x30 0 1 (satInc F.MTL_CNT_FOLD_COUNT { s with mtl := { s.mtl with folds := s.mtl.folds.filter (fun g => g.reach != reach) } })))) ∧
    (jDurable s j = false → exec (.foldCommit reach) s = .next (s.after id))) ∧
  (∀ (n rule : Nat) (b : BlockSet) (s : State), mtlBackground s = true → s.mtl.dredge = none →
    let u := { s.begun with mtl := { s.mtl with dredgeOn := dredgeWants s.begun } }
    (dredgeChoose u = none → exec .dredgePick s = .next { u with pending := s.pending }) ∧
    (dredgeChoose u = some (n, b, rule) → exec .dredgePick s = .next { dredgeEnd (dredgeCopy 2048 (sed 0x0511 sDEBUG 6 n (setScore u n b) rule
      { u with mtl := { u.mtl with dredge := some ⟨n, rule, []⟩, picks := if rule = 3 then 15 else u.mtl.picks - 1 } })) with
        pending := s.pending })) ∧
  (∀ (d : Dredge) (s : State), mtlBackground s = true → s.mtl.dredge = some d →
    exec .dredgePick s = .next (s.after (fun s => dredgeEnd (dredgeCopy 2048 s)))) ∧
  (∀ (d : Dredge) (s : State), coreOn s = true → inHalt s = false → s.mtl.dredge = some d →
    exec .dredgeCommit s = .next (s.after (fun s =>
      let ready := d.moves.filter (fun m => m.1 != 0 && jDurable s (m.1 - 1))
      let s := forEach ready (fun m s => match m.2 with
        | .reachMove r n k o so => moveApply r n k o so s
        | .relocCommit dst q src => relocApply dst q src s
        | _ => s) s
      let s := { s with mtl := { s.mtl with dredge := s.mtl.dredge.map (fun d => { d with moves := d.moves.filter (fun m => !ready.contains m) }) } }
      dredgeEnd (when (mtlBackground s) (dredgeCopy 2048) s)))) ∧
  (∀ s : State, mtlRuns s = true → inFlush s = false → s.mtl.ckptRun = none →
    exec .ckptBegin s = .next (s.after (fun s =>
      let s := closeLog true (closeLog false s)
      let gen := (match s.mtl.ckpt with | some c => c.gen | none => 0) + 1
      let pages := ckptPages s
      let c : Ckpt := ⟨gen, s.mtl.jseq, s.mtl.pageSeq, s.mtl.wseq, epoch s, s.tick.count, pages, s.mtl.map, []⟩
      let (s, sets) := ckptForm 256 pages (jPut (.ckptBegin gen s.mtl.pageSeq s.mtl.wseq) s)
      { s with mtl := { s.mtl with ckptRun := some { c with sets := sets } } }))) ∧
  (∀ (c : Ckpt) (s : State), s.mtl.ckptRun = some c → mtlRuns s = true → ckptEnded s c.gen = false →
    exec .ckptEnd s = .next (s.after (fun s => jPut (.ckptEnd c.gen c.pages (draw 32 s).1.toNat) (draw 32 s).2))) ∧
  (∀ (erased : List (Nat × Nat)) (s : State), coreOn s = true → s.mtl.ready = false → fld s F.MTL_STAT_STATE = 0 →
    ∃ t, exec (.mtlRecovery erased) s = .next t ∧ t.mtl.ready = true ∧
      t.mtl.committed = (match s.cfg with
        | some i => i.shallows
        | none => if s.mtl.size = 0 then (if s.variant = 0 then 96 else 48) else s.mtl.size)) ∧
  (∀ (erased : List (Nat × Nat)) (s : State), (coreOn s = false ∨ s.mtl.ready = true ∨ fld s F.MTL_STAT_STATE ≠ 0) →
    exec (.mtlRecovery erased) s = .next (s.after id)) ∧
  (∀ s : State, mtlBackground s = true →
    let sets := s.mtl.map.sets.filter (fun e => e.2.kind == kNODE && (e.2.st == .opened || e.2.st == .full))
    let per := match sets.head? with | some e => setPages e.2 | none => 1
    let best := (sets.filter (fun e => e.2.st == .full)).foldl (fun (b : Option (Nat × Nat)) e =>
      let v := (nodeValid s e.1).length
      match b with | some (_, w) => if v < w then some (e.1, v) else b | none => some (e.1, v)) none
    (sets.length * 4 ≤ 5 * ceilDiv (s.icu.groups.length * 2) per → exec .nodesetCompact s = .next (s.after id)) ∧
    (∀ n v, 5 * ceilDiv (s.icu.groups.length * 2) per < sets.length * 4 → best = some (n, v) →
      let u := forEach (nodeValid s.begun n) groupWrite s.begun
      (nodeValid u n = [] → exec .nodesetCompact s =
        .next { sed 0x0660 sDEBUG 3 n v 0 (modSet n (fun b => { b with st := .dredged }) u) with pending := s.pending }) ∧
      (nodeValid u n ≠ [] → exec .nodesetCompact s = .next { u with pending := s.pending })))

/-- Inline crypt: the oldest write-back is sealed and handed to the translation layer, or is dropped, or fails integrity (R326, R340, R343,
R349, R352, R735); a line whose major counter changed is sealed again (R345); the start loads the tree and closes or opens the
question of a replay (R339, R357); the discard is armed; the halt report is read. -/
def Obligations.CryptPath : Prop :=
  (∀ (n mism : Nat) (e : EbEnt) (s : State), icuRuns s = true → sealNext s = some (n, e) →
    (quarantined s e.line = true ∨ (isInternal s e.line = false ∧ e.key ∈ s.icu.purged) →
      exec (.sealWriteback mism) s = .next (s.after (dropWb n e))) ∧
    (quarantined s e.line = false → (isInternal s e.line = true ∨ e.key ∉ s.icu.purged) → s.icu.rootOpen = false →
      exec (.sealWriteback mism) s = .next (s.after (fun s => if rootQueued s then s else putTreeRoot false s))) ∧
    (quarantined s e.line = false → (isInternal s e.line = true ∨ e.key ∉ s.icu.purged) → s.icu.rootOpen = true → noInjection s = true →
      let u := pipeMismatch 0 (min mism 8) e.line s.begun
      (mism < 8 → (mism = 0 ∨ cfgErase u = false) → sealGen u e.line e.key = none → exec (.sealWriteback mism) s = .next { dropWb n e u with pending := s.pending }) ∧
      (∀ g v, mism < 8 → (mism = 0 ∨ cfgErase u = false) → sealGen u e.line e.key = some g → verifyPath 4 0 e.line false u = (v, none) →
        exec (.sealWriteback mism) s = .next { (
          let s := advanceCounters e.line v
          let x := sealWith g e.line (if isInternal s e.line then 5 else 1) e.poison e.data s
          let s := modSlice n (fun y => { y with
            lastCleaner := e.cleaner, eb := y.eb.map (fun b => if b.wseq = e.wseq then { b with passed := true } else b) }) s
          handOver e.line e.wseq e.key e.poison x s) with pending := s.pending }) ∧
      (∀ g v level, mism < 8 → (mism = 0 ∨ cfgErase u = false) → sealGen u e.line e.key = some g → verifyPath 4 0 e.line false u = (v, some level) →
        exec (.sealWriteback mism) s = .next { integrityFail ⟨2, 0, if isInternal v e.line then 0x8000 else e.key,
          nodeIdent level (e.line / 2 ^ (6 + 4 * level)), failedPsa v e.line level, 0, 0, 0, 0, 0, none⟩ v with pending := s.pending }) ∧
      (8 ≤ mism → cfgErase u = false → exec (.sealWriteback mism) s = .next
        { integrityFail ⟨6, 0, if isInternal u e.line then 0x8000 else e.key, e.line, none, 0, 0, 0, 0, 0, none⟩ u with pending := s.pending }) ∧
      (0 < mism → cfgErase u = true → exec (.sealWriteback mism) s = .next { dropWb n e u with pending := s.pending }))) ∧
  (∀ (line : Nat) (s : State), icuRuns s = true → resealSet s line = true → inAmq s line = false → quarantined s line = false →
    let own := fun key poison d (s : State) => match ownWb line key 4 poison d s with
      | some (t, _) => satInc F.ICU_CNT_REMAC_COUNT t
      | none => s
    (∀ k w, findWay s line = some (k, w) → findEb s line = none → findMerge s line = none →
      exec (.remacRewrite line) s = .next (s.after (if w.st = .clean then own w.key w.poison w.data else id))) ∧
    (∀ c, findWay s line = none → findEb s line = none → findMerge s line = none → findCove s line = some c →
      exec (.remacRewrite line) s = .next (s.after (own c.key c.poison c.data))) ∧
    (∀ n q i x t p d, findWay s line = none → findEb s line = none → findMerge s line = none → findCove s line = none →
      mtlLookup s line = .at_ n q i → sealedAt s.begun n q i = some x →
      openLine line (lineKeyOf s.begun line) x (locPsa s.begun (.at_ n q i)) 3 0 none
        (bgSense (locPsa s.begun (.at_ n q i)) 1 1 s.begun) = (t, .ok d p) →
      exec (.remacRewrite line) s = .next { own (lineKeyOf s.begun line) p d t with pending := s.pending })) ∧
  (∀ (lost : List Nat) (s : State), coreOn s = true → s.mtl.ready = true → fld s F.ICU_STAT_STATE = 0 → inHalt s = false →
    (gTreeRoot s).clean = true → (gTreeRoot s).nodeSeq = 0 → (gTreeRoot s).locator = none → s.icu.discardArmed = false →
    (gTreeRoot s).deferred = none →
    let quar := (gQuar s).map (fun q => (⟨q.1, q.2⟩ : QuarEnt))
    let u : State := { s.begun with icu := { s.icu with
      tree := ⟨[], []⟩, groups := [], nodeSeq := 0, locator := none, onDie := [], pond := [], writeback := [], dirtyGroups := [], quar := quar
      report := (gTreeRoot s).report, deferred := none, rootOpen := false, purged := [] } }
    let v := forEach lost (fun g s => quarantine (g / 2 ^ 40) (g % 2 ^ 40) 0 s)
      (setB F.ICU_STAT_ROOT_UNCLEAN false (setF F.ICU_QUAR_STAT_COUNT quar.length u))
    let w := doCkptBegin (spareEval 64 (setF F.ICU_STAT_STATE 1 (setF F.MTL_STAT_STATE 1 v)))
    w.icu.deferred = none →
    exec (.icuRecovery lost) s = .next { (
      let (t, s) := drawLe 500 w
      putTreeRoot false (sed 0x0600 sINFO 3 t s.icu.groups.length 0 s)) with pending := s.pending }) ∧
  (∀ (lost : List Nat) (s : State), (coreOn s = false ∨ s.mtl.ready = false ∨ fld s F.ICU_STAT_STATE ≠ 0 ∨ inHalt s = true) →
    exec (.icuRecovery lost) s = .next (s.after id)) ∧
  (∀ (v : BitVec 32) (s : State), fld s F.ICU_HALT_CAUSE_KIND = 4 → v.getLsbD 0 = true →
    exec (.icuHaltCtlDiscard tuten v) s = .next (s.after (fun s =>
      setF F.ICU_HALT_CTL_DISCARD 1 { s with icu := { s.icu with discardArmed := true } }))) ∧
  (∀ (path : Nat) (v : BitVec 32) (s : State), (path ≠ tuten ∨ fld s F.ICU_HALT_CAUSE_KIND ≠ 4) →
    exec (.icuHaltCtlDiscard path v) s = .next (s.after id)) ∧
  (∀ (path : Nat) (s : State), taken path 0xC080 [] s = true →
    exec (.haltReport path []) s = .next { s with out :=
      [.reply path 0xC080 rcSuccess (if s.icu.report = [] then (gTreeRoot s).report else s.icu.report)] })

/-- The Shoreline job (R358 to R366): its start is refused or queued behind its Gauge record, its status is read, its wait for the
captures of a reach times out, and it captures and converts a reach. -/
def Obligations.ShorelineJob : Prop :=
  (∀ (path : Nat) (inp : List Byte) (s : State), taken path 0xC022 inp s = true → 8 ≤ inp.length → inp.length = 8 + 16 * byteAt inp 2 →
    byteAt inp 2 ≠ 0 → byteAt inp 2 ≤ 64 → zeroAt inp 3 5 = true → at' inp 0 2 < 4096 → rangesOk s inp 8 (byteAt inp 2) = true →
    let key := at' inp 0 2
    let l := rangesAt inp 8 (byteAt inp 2)
    ((ctxOf s key).st ≠ .rotating ∨ rangesFit s key l = false →
      exec (.shorelineStart path inp) s = .next { s with out := [.reply path 0xC022 rcConflict []] }) ∧
    ((ctxOf s key).st = .rotating → rangesFit s key l = true → shoreBusy s = false → s.mgmt.inflight.any (fun e => e.op == 0xC022) = false →
      tgtBusy s 0 key path = false → inHalt s = false → lifecycle s ≠ 3 →
      exec (.shorelineStart path inp) s = .next (s.after (fun s => gPut G.shore (.shore (some ⟨key, sortRanges l⟩)) false (some path)
        (.shore path) (tgtHold 0 key path (startCmd path 0xC022 true s)))))) ∧
  (∀ (path : Nat) (s : State), taken path 0xC023 [] s = true →
    let x := s.icu.shore
    let left := rangeReaches x.ranges - x.reachesDone - x.skipped
    exec (.shorelineStatus path []) s = .next { s with out := [.reply path 0xC023 rcSuccess
      (le 1 x.st ++ [0] ++ le 2 x.key ++ le 1 (curNum s x.key) ++ le 1 (newNum s x.key) ++ zeros 2 ++ le 8 x.b ++
       le 8 x.reachesDone ++ le 4 x.skipped ++ le 4 (if x.st = 1 ∨ x.st = 2 then shoreEstimate s left else 0))] }) ∧
  (∀ s : State, s.icu.shore.st = 1 → (s.icu.shore.step = 1 ∨ s.icu.shore.step = 2) →
    (16 ≤ s.icu.shore.waited → exec .shoreWaitTimeout s = .next (s.after (modShore (fun x => { x with delay := true })))) ∧
    (s.icu.shore.waited < 16 → exec .shoreWaitTimeout s = .next (s.after id))) ∧
  (∀ (g : KeyGen) (s : State), mtlBackground s = true → icuRuns s = true → s.icu.shore.st = 1 →
    (s.icu.shore.step = 1 ∨ s.icu.shore.step = 2) → (ctxOf s s.icu.shore.key).new = some g →
    let x := s.icu.shore
    let r := reachOf x.b
    s.mtl.folds.any (fun f => f.reach == r) = false → s.mtl.sealedQ.any (fun b => reachOf b.line == r) = false →
    let rec_ := mergeOf s.begun r
    let caps := match rec_ with | some (_, m) => m.ents.filter (fun e => !e.poison) | none => []
    let poisoned := (List.range 1024).filter (fun o => match fineFind s.begun (r * 1024 + o) with | some e => e.poison | none => false) ++
      (match rec_ with | some (_, m) => (m.ents.filter (·.poison)).map (·.off) | none => [])
    let old := match tfind s.mtl.map.reachMap r with | some (.deeps a b) => some (a, b) | _ => rec_.bind (fun m => m.2.deeps)
    let resets := ((List.range 16).map (16 * r + ·)).filter (fun i => (leafOf s.icu.tree i).exhausted)
    let s0 := strideSenses caps old (match rec_ with | some (k, m) => markCaptured k m s.begun | none => s.begun)
    let ahead := modTree (fun t => { t with leaves := resets.foldl (fun l i =>
      tput i { leafOf t i with major := 0, oldMajor := 0, reseal := 0, minors := [] } l) t.leaves }) s0
    let b := (List.range 1024).foldl (buildOffset x.key g r caps old poisoned resets) ⟨[], [], ahead, s0, false⟩
    let hot := (hotOffsets b.st r).filter (fun o => !b.st.mtl.unplaced.any (fun u => u.line == r * 1024 + o))
    let s1 := modShore (fun y => { y with
      step := 3, delay := false, again := [], caps := caps, foldSeq := foldSeqNow s.begun, adv := b.adv, resets := resets }) b.st
    (b.bad = true → exec .shoreCapture s = .next { b.st with pending := s.pending }) ∧
    (b.bad = false → placeReach r b.lines s1 = none → exec .shoreCapture s = .next (s.after id)) ∧
    (∀ u n slot, b.bad = false → placeReach r b.lines s1 = some (u, n, slot) → exec .shoreCapture s = .next
      { shoreHot (modShore (fun y => { y with target := some (n, slot), jseq := none, waitSeqs := [], hotLeft := hot }) u) with
        pending := s.pending })) ∧
  (∀ s : State, (s.icu.shore.st ≠ 1 ∨ mtlBackground s = false ∨ icuRuns s = false) → exec .shoreCapture s = .next (s.after id))

/-! ### Keys, memory protection and the data movers -/

/-- Keys: KEY_INSTALL is refused with the code of the first check that fails or enters the ledger (R378, R379); KEY_RETIRE likewise, a
slot's waits for its running job, and that of an index with its ranges runs in the background (R380, R381, R383); the ledger is
compacted (R373); a bad word of the key SRAM is restored from the ledger or loses its key (R375). -/
def Obligations.KeyCommands : Prop :=
  (∀ (path : Nat) (d m : List Byte) (rc : Nat) (s : State), taken path 0xC020 d s = true → 24 ≤ d.length → d.length = 24 + at' d 16 2 →
    installCheck s.begun path d = (rc, m) →
    let t := byteAt d 0
    let i := at' d 2 2
    let e := installEntry s.begun d m
    exec (.keyInstall path d) s = .next (s.after (fun s =>
      if rc ≠ rcSuccess then answer path 0xC020 rc [] (sed 0x0702 sWARNING 4 (tgtIdx t i) rc path s)
      else
        let s := tgtHold t i path (startCmd path 0xC020 true s)
        if t = 2 then gEnq (.incr (.slotI i)) false (some path) (.key path 0xC020 1)
          { s with vault := { s.vault with installs := tput path e s.vault.installs } }
        else ledgerFor path 0xC020 e s))) ∧
  (∀ (path : Nat) (d : List Byte) (c : Instr) (s : State), c ∈ [Instr.keyRetire path d, .keyRetireRanges path d] →
    taken path 0xC021 d s = true → 8 ≤ d.length → d.length = 8 + 16 * byteAt d 4 →
    let t := byteAt d 0
    let i := at' d 2 2
    let n := byteAt d 4
    let rc := retireCheck s.begun path d
    let e := retireEntry s.begun t i
    (rc ≠ rcSuccess → exec c s = .next { s with out := [.reply path 0xC021 rc []] }) ∧
    (rc = rcSuccess → t = 2 → exec c s = .next (s.after (fun s => retireGo i (tgtHold t i path { startCmd path 0xC021 true s with
      vault := { s.vault with installs := tput path e s.vault.installs } })))) ∧
    (rc = rcSuccess → t ≠ 0 → t ≠ 2 → exec c s = .next (s.after (fun s =>
      ledgerFor path 0xC021 e (tgtHold t i path (startCmd path 0xC021 true s))))) ∧
    (rc = rcSuccess → t = 0 → n = 0 → exec c s = .next (s.after (fun s =>
      let x := retirePurge i (startCmd path 0xC021 true (abortLostJob i s))
      let s := ledgerFor path 0xC021 e (tgtHold t i path x.1)
      { s with vault := { s.vault with installs := tmod (LedgerEnt.of 0 0) path (retireReport 0 x.2) s.vault.installs } }))) ∧
    (rc = rcSuccess → t = 0 → n ≠ 0 → exec c s = .next (s.after (fun s =>
      let s := abortLostJob i s
      let s := answer path 0xC021 rcBackground [] { s with
        mgmt := { s.mgmt with bg := some (.retire path t i (rangesAt d 8 n) 1), bgStat := tput path ⟨0xC021, 0, 0⟩ s.mgmt.bgStat } }
      let x := retirePurge i s
      let y := retireUnmap (rangesAt d 8 n) x.1
      let s := ledgerFor path 0xC021 e (tgtHold t i path y.1)
      { s with vault := { s.vault with installs := tmod (LedgerEnt.of 0 0) path (retireReport y.2 x.2) s.vault.installs } })))) ∧
  (∀ s : State, (ledgerRoom * 3 / 4 ≤ (ledger s).length ∨ s.vault.weak = true) → (gKeyroot s).isSet = true → fld s F.KV_STAT_VAULT = 1 →
    s.vault.installs = [] →
    let k := gKeyroot s.begun
    let l := liveEntries s.begun
    let u := { s.begun with vault := if k.area = 0 then { s.vault with area1 := l, weak := false } else { s.vault with area0 := l, weak := false } }
    let mac := match l.getLast? with | some e => ledgerMac u e | none => 0
    exec .ledgerCompact s = .next { gPut G.keyroot (.keyroot { k with count := l.length, area := 1 - k.area, mac := mac }) false none .keyRoot
      (sed 0x0707 sINFO 4 l.length (1 - k.area) 0 u) with pending := s.pending }) ∧
  (∀ s : State, (ledger s).length < ledgerRoom * 3 / 4 → s.vault.weak = false → exec .ledgerCompact s = .next (s.after id)) ∧
  (∀ (kind i : Nat) (s : State), coreOn s = true → fld s F.KV_STAT_VAULT = 1 →
    let u := mempUe 7 0 i agRequest s.begun
    let mine := (ledger u).filter (fun e => e.index == i && decide (e.lseq ≤ (gKeyroot u).count) &&
      (if kind = 0 then [lkCur, lkNew, lkPromote, lkRestore].contains e.kind || (e.kind == lkRetire && decide (e.target ≤ 1))
       else if kind = 1 then e.kind == lkSlot || (e.kind == lkRetire && e.target == 2)
       else e.kind == lkKek || (e.kind == lkRetire && e.target == 3)))
    let bad := mine.find? (fun e => !(e.goodA || e.goodB))
    (bad = none → exec (.keySramReload kind i) s = .next { u with pending := s.pending }) ∧
    (∀ e, bad = some e → kind = 0 → (ctxOf u i).cur.isSome = true → exec (.keySramReload kind i) s = .next { (
      let s := modCtx i (fun c => { c with st := .lost, cur := none, new := none }) (purgeKey i u)
      sed 0x0705 sCRITICAL 4 (tgtIdx 0 i) e.lseq 0 (setF F.KV_STAT_LOST (lostCtxs s).length s)) with pending := s.pending }) ∧
    (∀ e, bad = some e → kind = 1 → (slotOf u i).st ≠ .empty → exec (.keySramReload kind i) s = .next
      { sed 0x0705 sCRITICAL 4 (tgtIdx 2 i) e.lseq 0 (modSlot i (fun x => { Slot.init with seq := x.seq }) u) with pending := s.pending }) ∧
    (∀ e, bad = some e → kind = 2 → (kekOf u i).key.isSome = true → exec (.keySramReload kind i) s = .next
      { sed 0x0705 sCRITICAL 4 (tgtIdx 3 i) e.lseq 0 (modKek i (fun k => { k with key := none, lost := true }) u) with pending := s.pending }))

/-- The seal engine (R385, R386, R392 to R396): a queue's tail and its enabling, the next descriptor of each of the eight job kinds, a
job that goes on, a job that waited for its slot's counter; and the noise source and the generator (R389 to R391). -/
def Obligations.KeyJobs : Prop :=
  (∀ (path q : Nat) (v : BitVec 32) (s : State), jqThere s q = true →
    (rgOwns s (jq q) path = true → exec (.kvJqTailWrite path q v) s = .next (s.after (fun s =>
      setF (rgTail (jq q)) (v.toNat % 4096 % rgEntries s (jq q)) s))) ∧
    (rgOwns s (jq q) path = false → exec (.kvJqTailWrite path q v) s = .next (s.after id))) ∧
  (∀ (path q : Nat) (v : BitVec 32) (u : State) (s : State), jqThere s q = true → rgCfg (jq q) path (v ||| 0x100) s.begun = (u, true) →
    (rgPlaced u (jq q) 64 = true → exec (.kvJqEnable path q v) s = .next { rgPut (dmv (8 + q)) 1 0 (rgPut (jq q) 1 0 u) with pending := s.pending }) ∧
    (rgPlaced u (jq q) 64 = false → exec (.kvJqEnable path q v) s = .next
      { sed 0x0732 sERROR 4 q 3 (fld u (rgOwner (jq q))) (rgPut (jq q) 2 3 u) with pending := s.pending })) ∧
  (∀ (q mism op m : Nat) (ue e : Option (Nat × Nat)) (i : Instr) (s : State),
    (i, op, m, e) ∈ [(Instr.jobNop q, 0, 0, none), (.jobGcmEnc q mism ue, 1, mism, ue), (.jobGcmDec q mism ue, 2, mism, ue),
      (.jobXtsEnc q mism ue, 3, mism, ue), (.jobXtsDec q mism ue, 4, mism, ue), (.jobCmacGen q mism ue, 5, mism, ue),
      (.jobCmacVer q mism ue, 6, mism, ue), (.jobRandom q ue, 7, 0, ue)] →
    jqThere s q = true → moverRuns s = true → s.pwr.stopped.contains 4 = false →
    (∀ t b poison, tfind s.vault.jobs q = none → rgReady s (jq q) = true → fetchDesc (jq q) 64 s.begun = some (t, b, poison) →
      inHalt t = false → (poison = true ∨ (jobDesc b).op = op) → (slotOf s (jobDesc b).slot).waitSince = none →
      exec i s = .next { jobStart q m e (jobDesc b) poison t with pending := s.pending }) ∧
    (∀ j, tfind s.vault.jobs q = some j → j.op = op → exec i s = .next (s.after (jobGo q))) ∧
    (tfind s.vault.jobs q = none → rgReady s (jq q) = false → exec i s = .next (s.after id))) ∧
  (∀ (q since : Nat) (t : State) (b : List Byte) (s : State), jqThere s q = true → moverRuns s = true → rgReady s (jq q) = true →
    tfind s.vault.jobs q = none → fetchDesc (jq q) 64 s.begun = some (t, b, false) → inHalt t = false →
    (slotOf s (jobDesc b).slot).waitSince = some since →
    (slotOf s (jobDesc b).slot).c < slotV s (jobDesc b).slot →
    exec (.nonceWaitEnd q) s = .next { (
      let t := modSlot (jobDesc b).slot (fun x => { x with waitSince := none }) t
      jobStart q 0 none (jobDesc b) false (sed 0x0722 sNOTICE 4 (jobDesc b).slot ((s.tick.count - since) % 2 ^ 32) 0 t)) with
        pending := s.pending }) ∧
  (∀ (test : Nat) (again : Bool) (s : State), coreOn s = true → fld s F.KV_STAT_RNG ≠ 2 →
    let one := fun (t : Nat) (s : State) => sed 0x0710 sERROR 4 t (s.vault.rngFails + 1) 0
      ((if t = 0 then satInc F.KV_RNG_RCT_FAIL else if t = 1 then satInc F.KV_RNG_APT_FAIL else id)
        { s with vault := { s.vault with rngFails := s.vault.rngFails + 1, rngStopped := some (s.vault.rngStopped.getD s.tick.count) } })
    let dead := fun (s : State) => sed 0x0711 sCRITICAL 4 s.vault.rngFails 0 0 (setF F.KV_STAT_RNG 2 s)
    (2 ≤ s.vault.rngFails → exec (.rngHealthFail test again) s = .next (s.after (fun s => dead (one test s)))) ∧
    (s.vault.rngFails = 1 → exec (.rngHealthFail test true) s = .next (s.after (fun s => dead (one 2 (one test s))))) ∧
    (s.vault.rngFails = 0 → exec (.rngHealthFail test true) s = .next (s.after (fun s => setF F.KV_STAT_RNG 0 (one 2 (one test s))))) ∧
    (s.vault.rngFails < 2 → exec (.rngHealthFail test false) s = .next (s.after (fun s =>
      let s := one test s
      sed 0x0712 sNOTICE 4 (s.tick.count - s.vault.rngStopped.getD s.tick.count) 0 0
        (setF F.KV_STAT_RNG 1 { s with vault := { s.vault with rngFails := 0, rngStopped := none } }))))) ∧
  (∀ s : State, coreOn s = true → fld s F.KV_STAT_RNG = 1 →
    ((tickInEpoch s = 0 ∨ 2 ^ 20 ≤ s.vault.drbgReqs) →
      exec .drbgReseed s = .next (s.after (fun s => satInc F.KV_RNG_RESEEDS { s with vault := { s.vault with drbgReqs := 0 } }))) ∧
    (tickInEpoch s ≠ 0 → s.vault.drbgReqs < 2 ^ 20 → exec .drbgReseed s = .next (s.after id)))

/-- Memory protection: the scrubber reads the next row of an array and acts on what it finds (R412, R416, R417), a core's fetch from a bad
word traps (R419), an injection is armed or refused with its reason, and is disarmed (R433). -/
def Obligations.MemoryProtection : Prop :=
  (∀ (cls inst row : Nat) (up : Upset) (stuck : Bool) (s : State), coreOn s = true → s.pwr.st ≤ 1 → row < scrubRows cls inst →
    injInsts s cls inst = true → tget 0 s.memp.scrubPos (cls * 65536 + inst) = row → (cls ≠ 14 ∨ row ≠ 0) →
    let u := { s.begun with memp := { s.memp with
      scrubPos := tput (cls * 65536 + inst) ((row + 1) % scrubRows cls inst) s.memp.scrubPos } }
    let r := mempRead cls inst (if cls = 0 then (rowLine u inst row).getD row else row) agScrub up u
    (r.2 = .none → exec (.scrubRow cls inst row up stuck) s = .next { r.1 with pending := s.pending }) ∧
    (r.2 = .ce → exec (.scrubRow cls inst row up stuck) s = .next
      { scrubCe cls inst row (if cls = 0 then (rowLine u inst row).getD row else row) stuck r.1 with pending := s.pending }) ∧
    (r.2 = .vote → cls < 13 → exec (.scrubRow cls inst row up stuck) s = .next { mempVote cls inst row r.1 with pending := s.pending }) ∧
    (r.2 ≠ .none → r.2 ≠ .ce → r.2 ≠ .vote →
      exec (.scrubRow cls inst row up stuck) s = .next { scrubUe cls inst row r.2 r.1 with pending := s.pending })) ∧
  (∀ (cls inst row : Nat) (up : Upset) (stuck : Bool) (s : State), (coreOn s = false ∨ 1 < s.pwr.st ∨ scrubRows cls inst ≤ row ∨
      tget 0 s.memp.scrubPos (cls * 65536 + inst) ≠ row) →
    exec (.scrubRow cls inst row up stuck) s = .next (s.after id)) ∧
  (∀ (core addr : Nat) (s : State),
    let cls := if addr < 2 ^ 26 then 14 else if addr / 2 ^ 20 % 2 = 0 then 8 else 9
    exec (.mempFetchTrap core addr) s = .next (s.after (fun s => fetchTrap core addr cls (mempUe cls 0 addr agRequest s)))) ∧
  (∀ (path : Nat) (v : BitVec 32) (s : State), isMgmt path = true → coreOn s = true → v.toNat % 4 ≠ 0 →
    let u := s.begun.putReg Reg.MEMP_INJ_CTL ((v &&& 0x007F7F1F) ||| (s.reg Reg.MEMP_INJ_CTL &&& 0x80000000))
    let ci := classInst (fld u F.MEMP_INJ_SEL_POINT) (fld u F.MEMP_INJ_SEL_INST)
    let why := injReason s.begun path (v ||| 0x80000000)
    (why = 0 → exec (.mempInjArm path v) s = .next { (
      let t := setF F.MEMP_INJ_CTL_ARM 1 u
      sed 0x0810 sNOTICE 8 ci (t.reg Reg.MEMP_INJ_CTL).toNat (fld t F.MEMP_INJ_ADDR_WORD) t) with pending := s.pending }) ∧
    (why ≠ 0 → exec (.mempInjArm path v) s = .next
      { sed 0x0812 sNOTICE 8 ci why 0 (setF F.MEMP_INJ_STAT_REASON why (setF F.MEMP_INJ_STAT_REFUSED 1 u)) with pending := s.pending })) ∧
  (∀ (path : Nat) (v : BitVec 32) (s : State), isMgmt path = true → coreOn s = true →
    exec (.mempInjDisarm path v) s = .next (s.after (fun s => setF F.MEMP_INJ_CTL_ARM 0 (s.putReg Reg.MEMP_INJ_CTL
      ((v &&& 0x007F7F1C) ||| (s.reg Reg.MEMP_INJ_CTL &&& 0x80000000)))))) ∧
  (∀ (path : Nat) (v : BitVec 32) (s : State), isMgmt path = false →
    exec (.mempInjArm path v) s = .next (s.after id) ∧ exec (.mempInjDisarm path v) s = .next (s.after id))

/-- The data movers (R424 to R431): a channel's tail and its enabling, the next descriptor of each kind, a descriptor that goes on, and
RETRY, SKIP and ABORT of a channel that halted. -/
def Obligations.DataMovers : Prop :=
  (∀ (path n : Nat) (v : BitVec 32) (s : State), dmvThere s n = true →
    (rgOwns s (dmv n) path = true → exec (.dmvTailWrite path n v) s = .next (s.after (fun s =>
      setF (rgTail (dmv n)) (v.toNat % 4096 % rgEntries s (dmv n)) s))) ∧
    (rgOwns s (dmv n) path = false → exec (.dmvTailWrite path n v) s = .next (s.after id))) ∧
  (∀ (path n : Nat) (v : BitVec 32) (u : State) (s : State), dmvThere s n = true → rgCfg (dmv n) path (v ||| 0x100) s.begun = (u, true) →
    (rgPlaced u (dmv n) 32 = true → exec (.dmvEnable path n v) s = .next { rgPut (dmv n) 1 0 u with pending := s.pending }) ∧
    (rgPlaced u (dmv n) 32 = false → exec (.dmvEnable path n v) s = .next
      { sed 0x0820 sERROR 7 n (rgDbase u (dmv n) / 64 % 2 ^ 32) 3 (rgPut (dmv n) 2 3 u) with pending := s.pending })) ∧
  (∀ (path n : Nat) (v : BitVec 32) (u : State) (s : State), dmvThere s n = true → rgCfg (dmv n) path (v ||| 0x100) s.begun = (u, false) →
    exec (.dmvEnable path n v) s = .next { u with pending := s.pending }) ∧
  (∀ (n op : Nat) (ue e : Option (Nat × Nat)) (i : Instr) (s : State),
    (i, op, e) ∈ [(Instr.dmvNop n, 0, none), (.dmvCopy n ue, 1, ue), (.dmvFill n ue, 2, ue)] →
    dmvThere s n = true → moverRuns s = true → s.pwr.stopped.contains 7 = false →
    (∀ t d poison, tfind s.movers n = none → rgReady s (dmv n) = true → fetchDesc (dmv n) 32 s.begun = some (t, d, poison) →
      inHalt t = false → (poison = true ∨ byteAt d 0 = op) →
      let st := if poison then 0x8 else dmvCheck t (fld s.begun (rgOwner (dmv n))) d
      ((st ≠ 0 ∨ byteAt d 0 = 0) → exec i s = .next
        { (dmvEnd n (byteAt d 0) (at' d 4 4) st 0 (byteAt d 1 % 2 == 1) 0 (rgPop (dmv n) t)).getD s.begun with pending := s.pending }) ∧
      (st = 0 → byteAt d 0 ≠ 0 → exec i s = .next { dmvGo n e (modMover n
        { op := byteAt d 0, tag := at' d 4 4, src := at' d 8 8, dst := at' d 16 8, lines := at' d 24 4 / 64, done := 0
          srcKey := at' d 28 2, dstKey := at' d 30 2, pattern := BitVec.ofNat 64 (at' d 8 8), irq := byteAt d 1 % 2 == 1, poisoned := 0
          ending := none }
        (setF (F.DMV_CH_DONE_LINES n) 0 (setF (rgBusy (dmv n)) 1 (rgPop (dmv n) t)))) with pending := s.pending })) ∧
    (∀ m, tfind s.movers n = some m → m.op = op → (fld s (rgState (dmv n)) = 1 ∨ m.ending.isSome = true) →
      exec i s = .next (s.after (dmvGo n e)))) ∧
  (∀ (path n : Nat) (m : MoverRun) (v : BitVec 32) (s : State), dmvThere s n = true → rgOwns s (dmv n) path = true →
    fld s (rgState (dmv n)) = 2 → tfind s.movers n = some m →
    (v.toNat % 4 = 1 → exec (.dmvRetry path n v) s = .next (s.after (fun s => sed 0x0821 sNOTICE 7 n 1 m.done (rgPut (dmv n) 1 0 s)))) ∧
    (∀ t, v.toNat % 4 = 2 → dmvEnd n m.op m.tag 0x7 m.done m.irq 0 s.begun = some t → exec (.dmvSkip path n v) s =
      .next { pump (sed 0x0821 sNOTICE 7 n 2 m.done (rgPut (dmv n) 1 0 t)) with pending := s.pending }) ∧
    (∀ t k, v.toNat % 4 = 3 → (dmvEnd n m.op m.tag 0x7 m.done m.irq 0 s.begun).bind (abortQueued 4096 n 1) = some (t, k) →
      exec (.dmvAbort path n v) s = .next
        { pump (sed 0x0822 sWARNING 7 n 1 k (setF (rgEn (dmv n)) 0 (rgPut (dmv n) 0 0 t))) with pending := s.pending })) ∧
  (∀ (path n : Nat) (v : BitVec 32) (s : State), fld s (rgState (dmv n)) ≠ 2 →
    exec (.dmvRetry path n v) s = .next (s.after id) ∧ exec (.dmvSkip path n v) s = .next (s.after id) ∧
    exec (.dmvAbort path n v) s = .next (s.after id))

/-! ### Management and the Tuten port -/

/-- The management complex: the start after T0 (R457, R458), the activation of memory (R457), a watchdog and a restart (R459 to R462),
LIFECYCLE_ADVANCE and its background steps (R464 to R466), an observation token (R472, R473) and RESET_DEVICE (R475). -/
def Obligations.Management : Prop :=
  (∀ (tr silent : List Nat) (rngOk : Bool) (s : State), s.sup.t0 = true → s.mgmt.boot = 0 → s.sup.mrLow = false →
    bit s F.SF_STAT_WELLHEAD_LOST = false →
    (railFailed s 4 = false → exec (.mgmtBoot tr silent rngOk) s = .next (s.after (bootRun tr silent rngOk))) ∧
    (railFailed s 4 = true → exec (.mgmtBoot tr silent rngOk) s = .next (s.after (fun s =>
      leaveBoot { s with mgmt := { s.mgmt with boot := 7 } })))) ∧
  (∀ (tr silent : List Nat) (rngOk : Bool) (s : State), (s.sup.t0 = false ∨ s.mgmt.boot ≠ 0) →
    exec (.mgmtBoot tr silent rngOk) s = .next (s.after id)) ∧
  (∀ s : State, activeDue s = true → exec .memoryActive s = .next (s.after (fun s =>
    let s := zpendZero (retireRedo s)
    let p := fld s F.MGMT_BOOT_PORT_MS
    let (t, s) := drawLe (2200 - p) s
    let s := setF F.MGMT_BOOT2_ACTIVE_MS (p + t) { s with mgmt := { s.mgmt with boot := 10 } }
    forEach ((headsOn s).filter (fun h => (cfgRegions s).any (fun r => r.head == h))) (fun h s =>
      modHead h (fun x => { x with memoryActive := true }) s) s))) ∧
  (∀ s : State, activeDue s = false → exec .memoryActive s = .next (s.after id)) ∧
  (∀ (core : Nat) (s : State), core < 4 → (fld s F.MGMT_STAT_CORES).testBit core = true → inRecovery s = false →
    s.mgmt.restartDue = none → exec (.watchdogExpiry core) s = .next (s.after (restartBegin 1 core))) ∧
  (∀ (cause core : Nat) (ok : Bool) (s : State), inRecovery s = false →
    (s.mgmt.restartDue.isSome = true → exec (.mgmtRestart cause core ok) s = .next (s.after (restartEnd ok))) ∧
    (s.mgmt.restartDue = none → fld s F.MGMT_STAT_CORES ≠ 0 →
      exec (.mgmtRestart cause core ok) s = .next (s.after (fun s => restartEnd ok (restartBegin cause core s))))) ∧
  (∀ (path : Nat) (sec : Bool) (d : List Byte) (s : State), taken path 0xC050 d s = true → d.length = 296 →
    let rc := advCheck s.begun (isSecured s.begun path sec) d
    exec (.lifecycleAdvance path sec d) s = .next (s.after (fun s =>
      if rc = rcSuccess then
        let s := chalDraw s
        let s := setF F.MGMT_LC_BUSY 1 { s with mgmt := { s.mgmt with
          bg := some (.advance path (byteAt d 0) (sub d 24 48) (BitVec.ofNat 256 (beVal (sub d 72 32))) 1)
          bgStat := tput path ⟨0xC050, 0, 0⟩ s.mgmt.bgStat } }
        answer path 0xC050 rcBackground (le 1 (byteAt d 0) ++ zeros 3 ++ le 8 s.mgmt.challenge.toNat) s
      else
        let noted := rc == rcRefused && needsSession s true && !isSecured s path sec
        answer path 0xC050 rc [] (sed 0x0051 sWARNING 16 (byteAt d 0) rc 0 (when noted (secureRequired 0xC050) s))))) ∧
  (∀ (p t : Nat) (dg : List Byte) (kek0 : BitVec 256) (s : State), s.mgmt.bg = some (.advance p t dg kek0 1) →
    (t = 1 → exec .lcAdvanced s = .next (s.after (fun s => ledgerAppend
      { LedgerEnt.of lkKek 0 with wrapped := kwWrap s.vault.kVault (be 32 kek0.toNat) } none (.advance 2) (advAt 2 s)))) ∧
    (t ≠ 1 → exec .lcAdvanced s = .next (s.after (fun s => gEnq (.raise (.dev 0) t) false none (.advance 4) (advAt 4 s))))) ∧
  (∀ (path : Nat) (d : List Byte) (s : State), taken path 0xC051 d s = true → d.length = 224 →
    s.mgmt.tokenNew = none →
    let rc := tokenCheck s.begun d
    exec (.obsTokenInstall path d) s = .next (s.after (fun s =>
      if rc = rcSuccess then
        let t : Token := ⟨byteAt d 4, at' d 22 6, at' d 28 4⟩
        gEnq (.raise (.dev 3) t.tseq) false (some path) (.token path)
          (startCmd path 0xC051 true { s with mgmt := { s.mgmt with tokenNew := some (path, t) } })
      else answer path 0xC051 rc [] (sed 0x0932 sWARNING 9 rc (at' d 28 4) 0 s)))) ∧
  (∀ (path : Nat) (sec : Bool) (s : State), taken path 0xC081 [0] s = true →
    ((needsSession s false = false ∨ isSecured s path sec = true) → exec (.resetDevice path sec [0]) s = .next { s with
      out := [.reply path 0xC081 rcSuccess []], mgmt := { s.mgmt with resetDue := true } }) ∧
    (needsSession s false = true → isSecured s path sec = false → exec (.resetDevice path sec [0]) s = .next (s.after (fun s =>
      answer path 0xC081 rcRefused [] (secureRequired 0xC081 s)))))

/-- The Tuten port: the bus mode, the common command codes and the alert response (R445, R446), MCTP control messages and message
types (R447, R448), a CXL command over MCTP, which is that command from the Tuten path, and the MMIO window (R449, R456). -/
def Obligations.TutenPort : Prop :=
  (∀ (sd : Bool) (addr : Nat) (s : State), s.pwr.st ≤ 3 → bit s F.MGMT_TUT_STAT_BUSMODE = false →
    exec (.i3cDynamicAddress sd addr) s = .next (s.after (busMode true (addr % 128)))) ∧
  (∀ s : State, s.pwr.st ≤ 3 → bit s F.MGMT_TUT_STAT_BUSMODE = true → exec .i3cRstdaa s = .next (s.after (busMode false 0))) ∧
  (∀ (arg : List Byte) (s : State), s.pwr.st ≤ 3 → bit s F.MGMT_TUT_STAT_BUSMODE = true →
    (∀ c, c ∈ [0x00, 0x80] → exec (.i3cCcc c arg) s = .next { s with out := [], mgmt := { s.mgmt with ibiOn := true } }) ∧
    (∀ c, c ∈ [0x01, 0x81] → exec (.i3cCcc c arg) s = .next { s with out := [], mgmt := { s.mgmt with ibiOn := false } }) ∧
    exec (.i3cCcc 0x90 arg) s = .next { s with out := [.tuten 2 (be 2 (if bit s F.MGMT_ALERT_PENDING then 1 else 0))] } ∧
    exec (.i3cCcc 0x8E arg) s = .next { s with out := [.tuten 2 (sub (Config.bytes "I3C BCR" 0) 0 1)] }) ∧
  (∀ s : State, s.pwr.st ≤ 3 → bit s F.MGMT_TUT_STAT_BUSMODE = false → bit s F.MGMT_ALERT_PENDING = true →
    exec .smbusAlertResponse s = .next { s with out := [.tuten 3 (le 1 (2 * statAddr s))] }) ∧
  (∀ (c : Nat) (arg : List Byte) (s : State), s.pwr.st ≤ 3 → arg.length ≤ 8192 →
    (∀ pec, (pec = false ∨ bit s F.MGMT_TUT_STAT_BUSMODE = true) →
      (c = 0x01 → arg.length = 2 → byteAt arg 0 % 4 < 2 → 8 ≤ byteAt arg 1 → byteAt arg 1 ≠ 255 →
        exec (.mctpControl pec c arg) s = .next (s.after (fun s => emit (.tuten 0 ([0x00, 0x00, 0x01] ++
          ([0x00, 0x00] ++ le 1 (byteAt arg 1) ++ [0x00])))
          (sed 0x0911 sINFO 9 (byteAt arg 1) 0 0 (setF F.MGMT_TUT_STAT_EID (byteAt arg 1) s))))) ∧
      (c = 0x02 → exec (.mctpControl pec c arg) s = .next { s with out := [.tuten 0 ([0x00, 0x00, 0x02] ++
        ([0x00] ++ le 1 (fld s F.MGMT_TUT_STAT_EID) ++ [0x00, 0x00]))] }) ∧
      (c ∉ [0x01, 0x02, 0x04, 0x05] → exec (.mctpControl pec c arg) s =
        .next { s with out := [.tuten 0 ([0x00, 0x00] ++ le 1 c ++ [0x05])] })) ∧
    (bit s F.MGMT_TUT_STAT_BUSMODE = false → exec (.mctpControl true c arg) s = .next (s.after (fun s =>
      let s := satInc F.MGMT_TUT_ERR_PEC s
      sed 0x0912 sNOTICE 9 0 (fld s F.MGMT_TUT_ERR_PEC) 0 s)))) ∧
  (∀ (type : Nat) (s : State), tutServes s = true → mctpTypes.contains type = false →
    exec (.mctpUnsupportedType type) s = .next (s.after (fun s =>
      let s := satInc F.MGMT_TUT_ERR_TYPE s
      sed 0x0912 sNOTICE 9 2 (fld s F.MGMT_TUT_ERR_TYPE) 0 s))) ∧
  (∀ (pec sec : Bool) (op : Nat) (d : List Byte) (i : Instr) (s : State), s.pwr.st ≤ 2 → hasEid s = true → d.length ≤ 8192 →
    (pec = false ∨ bit s F.MGMT_TUT_STAT_BUSMODE = true) →
    (op, i) ∈ [(0x0001, Instr.identify tuten d), (0x0100, .getEventRecords tuten d), (0x0101, .clearEventRecords tuten d),
      (0x0200, .getFwInfo tuten d), (0x0300, .getTimestamp tuten d), (0x0301, .setTimestamp tuten d), (0x0400, .getSupportedLogs tuten d),
      (0x0401, .getLog tuten d), (0x4000, .identifyMemoryDevice tuten d), (0x4200, .getHealthInfo tuten d), (0x4300, .getPoisonList tuten d),
      (0x4304, .scanMedia tuten d), (0xC001, .ndxStage tuten d), (0xC011, .fwVerify tuten d), (0xC012, .fwActivate tuten d),
      (0xC020, .keyInstall tuten d), (0xC021, .keyRetire tuten d), (0xC030, .sedRead tuten d), (0xC050, .lifecycleAdvance tuten sec d),
      (0xC081, .resetDevice tuten sec d), (0x4101, .unsupportedOpcode tuten 0x4101 d), (0xC0FF, .unsupportedOpcode tuten 0xC0FF d)] →
    exec (.mctpCxlCci pec sec op d) s = exec i s) ∧
  (∀ (sec : Bool) (n a : Nat) (s : State), pathReaches s tuten = true → railFailed s 4 = false → s.pwr.st < 3 →
    fld s F.MGMT_STAT_CORES ≠ 0 → fld s F.MGMT_TUT_STAT_EID ≠ 0 → inRecovery s = false →
    (mmioStatus n a = 0 → windowHeldMmio s false n a = false →
      exec (.mmioWindowRead sec n a) s = .next (s.after (fun s => mmioAnswer 0 n a (mmioReads n a s).1 (mmioReads n a s).2))) ∧
    (mmioStatus n a ≠ 0 → exec (.mmioWindowRead sec n a) s = .next (s.after (mmioAnswer (mmioStatus n a) n a []))) ∧
    (mmioStatus n a = 0 → windowHeldMmio s false n a = true → exec (.mmioWindowRead sec n a) s = .next (s.after (wakeStart 3)))) ∧
  (∀ (sec : Bool) (n a : Nat) (l : List (BitVec 32)) (s : State), pathReaches s tuten = true → railFailed s 4 = false → s.pwr.st < 3 →
    fld s F.MGMT_STAT_CORES ≠ 0 → fld s F.MGMT_TUT_STAT_EID ≠ 0 → inRecovery s = false →
    (needsSession s false = true → isSecured s tuten sec = false → exec (.mmioWindowWrite sec n a l) s = .next (s.after (fun s =>
      mmioAnswer 3 n a [] (secureRequired 0xFFFF s)))) ∧
    ((needsSession s false = false ∨ isSecured s tuten sec = true) →
      (mmioStatus n a = 0 → l.length = n → windowHeldMmio s true n a = false →
        exec (.mmioWindowWrite sec n a l) s = .next (s.after (fun s => mmioAnswer 0 n a [] (mmioWrites a l s)))) ∧
      (mmioStatus n a ≠ 0 → exec (.mmioWindowWrite sec n a l) s = .next (s.after (mmioAnswer (mmioStatus n a) n a [])))))

/-- PLDM on the Tuten port: the terminus identifier, the event receiver, a sensor reading and an unsupported command (R450); the
firmware device's identifiers, its status, an update requested, refused while another path owns one, and cancelled (R451). -/
def Obligations.Pldm : Prop :=
  (∀ (arg : List Byte) (s : State), tutServes s = true → hasEid s = true → inRecovery s = false →
    exec (.pldmMonitoring 0 0x01 arg) s = .next { s with
      out := [.tuten 1 [0x00, 0x01, 0x00]]
      mgmt := { s.mgmt with pldmTid := byteAt arg 0 } } ∧
    exec (.pldmMonitoring 0 0x02 arg) s = .next { s with out := [.tuten 1 ([0x00, 0x02] ++ ([0x00] ++ le 1 s.mgmt.pldmTid))] } ∧
    (∀ c, c ∉ [0x01, 0x02, 0x03, 0x04, 0x05] → exec (.pldmMonitoring 0 c arg) s =
      .next { s with out := [.tuten 1 ([0x00] ++ le 1 c ++ [0x05])] }) ∧
    exec (.pldmMonitoring 2 0x04 arg) s = .next { s with
      out := [.tuten 1 [0x02, 0x04, 0x00]]
      mgmt := { s.mgmt with evReceiver := if byteAt arg 0 = 0 then none else some (byteAt arg 2) } } ∧
    (∀ v, sensorValue s (at' arg 0 2) = some v → exec (.pldmMonitoring 2 0x11 arg) s =
      .next { s with out := [.tuten 1 ([0x02, 0x11] ++ ([0x00, 0x05, 0x00] ++ le 4 (v % 2 ^ 32).toNat))] }) ∧
    (sensorValue s (at' arg 0 2) = none → exec (.pldmMonitoring 2 0x11 arg) s = .next { s with out := [.tuten 1 [0x02, 0x11, 0x80]] }) ∧
    (∀ c, c ∉ [0x04, 0x05, 0x11, 0x21, 0x50, 0x51] → exec (.pldmMonitoring 2 c arg) s =
      .next { s with out := [.tuten 1 ([0x02] ++ le 1 c ++ [0x05])] })) ∧
  (∀ (arg : List Byte) (s : State), tutServes s = true → hasEid s = true → inRecovery s = false → s.flash.handover = none →
    exec (.pldmFwUpdate 0x01 arg) s = .next { s with out := [.tuten 1 ([0x05, 0x01] ++ ([0x00] ++ Config.bytes "PLDM firmware identifiers" 0))] } ∧
    exec (.pldmFwUpdate 0x1B arg) s = .next { s with
      out := [.tuten 1 ([0x05, 0x1B] ++ ([0x00] ++ le 1 s.mgmt.pldmFw ++ le 1 s.mgmt.pldmFw ++ zeros 5))] } ∧
    (fwBusy s tuten = false → s.mgmt.pldmFw = 0 → fwUnowned s = true → exec (.pldmFwUpdate 0x10 arg) s = .next (s.after (fun s =>
      pldm5 0x10 ([0x00] ++ zeros 3) (fwOwn tuten (putPldm 1 s))))) ∧
    (fwBusy s tuten = true → exec (.pldmFwUpdate 0x10 arg) s = .next { s with out := [.tuten 1 [0x05, 0x10, 0x10]] }) ∧
    (s.mgmt.pldmFw = 0 → exec (.pldmFwUpdate 0x13 arg) s = .next { s with out := [.tuten 1 [0x05, 0x13, 0x80]] }) ∧
    (s.mgmt.pldmFw = 1 → exec (.pldmFwUpdate 0x13 arg) s = .next (s.after (fun s =>
      pldm5 0x13 [0x00, 0x00, 0x00] (putPldm 2 (fwTouch tuten s))))) ∧
    (s.mgmt.pldmFw ≠ 0 → exec (.pldmFwUpdate 0x1D arg) s = .next (s.after (fun s =>
      pldm5 0x1D ([0x00, 0x00] ++ zeros 8) (fwDisown (putPldm 0 (fwTouch tuten s)))))))

/-! ### Spring flash, firmware, the Gauge and the recorder -/

/-- Spring flash (R480 to R497): each step of a sequence, in its order and out of it, and a step of another core; the program and the
erase that the last step starts; BLANK_CHECK, CLEAR_STATUS, SUSPEND, RESUME, RESET and an unknown code; the end of an operation; a read
of a bank that is erasing; a Wellhead word that cannot be read. -/
def Obligations.SpringFlashCommands : Prop :=
  (∀ (core : Nat) (v : BitVec 32) (q : SfSeq) (s : State), sfThere s core = true → s.flash.seq = some q → q.core ≠ core →
    exec (.sfUnlockWrite core v) s = .next (s.after (setF F.SF_OPSTAT_OWNED 1)) ∧
    (∀ f, exec (.sfProgram core v f) s = .next (s.after (setF F.SF_OPSTAT_OWNED 1))) ∧
    exec (.sfReset core v) s = .next (s.after (setF F.SF_OPSTAT_OWNED 1))) ∧
  (∀ (core : Nat) (s : State), sfThere s core = true → s.flash.seq = none →
    exec (.sfUnlockWrite core 0xAA) s = .next (s.after (modFlash (fun f => { f with seq := some ⟨core, 1, 0, false, 0, 0⟩ }))) ∧
    (∀ v, v ≠ 0xAA → exec (.sfUnlockWrite core v) s = .next (s.after sfSeqErr))) ∧
  (∀ (core : Nat) (q : SfSeq) (s : State), sfThere s core = true → s.flash.seq = some q → q.core = core →
    (q.step = 1 → exec (.sfUnlockWrite core 0x55) s = .next (s.after (modFlash (fun f => { f with seq := some { q with step := 2 } })))) ∧
    (∀ v, (q.step ≠ 1 ∨ v ≠ 0x55) → exec (.sfUnlockWrite core v) s = .next (s.after sfSeqErr))) ∧
  (∀ (core fetch : Nat) (v : BitVec 32) (q : SfSeq) (s : State), sfThere s core = true → s.flash.seq = some q → q.core = core → q.step = 5 →
    q.cmd = 0x10 → q.addr < 2 ^ 26 → q.addr % 8 = 0 → s.flash.op = none → sfProtected q.addr = false →
    (q.self = true ∨ 2 ^ 26 ≤ fetch ∨ sfBank fetch ≠ sfBank q.addr) → sfLowV s = false →
    let x : SfOp := ⟨false, q.addr, BitVec.ofNat 64 (v.toNat * 2 ^ 32 + q.lo), q.self, core⟩
    let old := storedWord (sfWord s q.addr)
    (codeword x.data = old → exec (.sfProgram core v fetch) s = .next (s.after (fun s =>
      setF F.SF_OPSTAT_DONE 1 (modFlash (fun f => { f with seq := none }) s)))) ∧
    (codeword x.data ≠ old → codeword x.data &&& ~~~ old ≠ 0 → exec (.sfProgram core v fetch) s = .next (s.after (fun s =>
      sed 0x0A01 sERROR 10 q.addr core 0 (setF F.SF_OPSTAT_NOT_ERASED 1 (modFlash (fun f => { f with seq := none }) s))))) ∧
    (codeword x.data ≠ old → codeword x.data &&& ~~~ old = 0 → exec (.sfProgram core v fetch) s = .next (s.after (fun s =>
      sfShow (modFlash (fun f => { f with op := some x }) (modFlash (fun f => { f with seq := none }) s)))))) ∧
  (∀ (core fetch : Nat) (q : SfSeq) (s : State), sfThere s core = true → s.flash.seq = some q → q.core = core → q.step = 5 →
    q.cmd = 0x20 → q.addr < 2 ^ 26 → q.addr % 8 = 0 → s.flash.op = none → sfProtected q.addr = false →
    (q.self = true ∨ 2 ^ 26 ≤ fetch ∨ sfBank fetch ≠ sfBank q.addr) → sfLowV s = false →
    exec (.sfSectorErase core 0 fetch) s = .next (s.after (fun s => sfShow (modFlash (fun f => { f with
      op := some ⟨true, q.addr, BitVec.ofNat 64 q.lo, q.self, core⟩, autoSusp := false, forcedTick := none })
      (modFlash (fun f => { f with seq := none }) s))))) ∧
  (∀ (core fetch : Nat) (v : BitVec 32) (q : SfSeq) (s : State), sfThere s core = true → s.flash.seq = some q → q.core = core → q.step = 5 →
    (q.cmd = 0x10 → sfProtected q.addr = true → q.addr < 2 ^ 26 → q.addr % 8 = 0 → s.flash.op = none →
      exec (.sfProgram core v fetch) s = .next (s.after (fun s =>
        setF F.SF_OPSTAT_PROTECTED 1 (modFlash (fun f => { f with seq := none }) s)))) ∧
    (q.cmd = 0x20 → v ≠ 0 → exec (.sfSectorErase core v fetch) s = .next (s.after sfSeqErr))) ∧
  (∀ (core : Nat) (v : BitVec 32) (q : SfSeq) (s : State), sfThere s core = true → s.flash.seq = some q → q.core = core → q.step = 3 →
    q.cmd = 0x30 → exec (.sfBlankCheck core v) s = .next (s.after (fun s =>
      sfBlank v.toNat (modFlash (fun f => { f with seq := none }) (setF F.SF_ADDR_ADDR (v.toNat / 8) s))))) ∧
  (∀ (core : Nat) (v : BitVec 32) (s : State), sfThere s core = true → s.flash.seq = none →
    let note := fun (op : Nat) (s : State) => setF F.SF_OPSTAT_CORE core (setF F.SF_OPSTAT_OP op s)
    exec (.sfClearStatus core v) s = .next (s.after (fun s => sfClear (note 0x50 s))) ∧
    exec (.sfSuspend core v) s = .next (s.after (fun s => sfServe (sfSuspend (note 0xB0 s)))) ∧
    exec (.sfResume core v) s = .next (s.after (fun s => sfResume (note 0xD0 s))) ∧
    exec (.sfReset core v) s = .next (s.after (note 0xF0)) ∧
    (v.toNat % 256 ∉ [0x30, 0x50, 0xB0, 0xD0, 0xF0] → exec (.sfUnknownCommand core v) s = .next (s.after sfSeqErr))) ∧
  (∀ (core : Nat) (v : BitVec 32) (q : SfSeq) (s : State), sfThere s core = true → s.flash.seq = some q → q.core = core →
    exec (.sfReset core v) s = .next (s.after (fun s => setF F.SF_OPSTAT_CORE core (setF F.SF_OPSTAT_OP 0xF0
      (modFlash (fun f => { f with seq := none }) s))))) ∧
  (∀ s : State, s.flash.seq.isSome = true → exec .sfSequenceTimeout s = .next (s.after sfSeqErr)) ∧
  (∀ (x : SfOp) (s : State), s.flash.nested = none → s.flash.op = some x → s.flash.suspended = false → s.flash.autoSusp = false →
    exec (.sfOpDone true) s = .next (s.after (fun s =>
      let s := modFlash (fun f => { f with op := none }) s
      sfServe (sfShow (setF F.SF_OPSTAT_DONE 1
        (if x.erase then flashErase (x.addr / 65536 * 65536) 65536 s else flashPut x.addr (le 8 x.data.toNat) s))))) ∧
    (x.erase = true → exec (.sfOpDone false) s = .next (s.after (fun s =>
      let s := setF F.SF_OPSTAT_FAIL 1 (modFlash (fun f => { f with op := none }) s)
      sfServe (sfShow (sed 0x0A00 sERROR 10 0x20 x.addr (s.reg Reg.SF_OPSTAT).toNat s)))))) ∧
  (∀ (a : Nat) (s : State), a < 2 ^ 26 → s.pwr.st ≠ 4 → exec (.sfReadAutoSuspend a) s = .next (s.after (fun s =>
    (sfReadNow a s).getD (modFlash (fun f => { f with reads := f.reads ++ [a] }) s)))) ∧
  (∀ s : State, exec .sfAutoResume s = .next { s with out := [], flash := { s.flash with autoSusp := false } }) ∧
  (∀ s : State, s.flash.autoSusp = true → exec .sfEraseForcedResume s = .next { s with
    out := [], flash := { s.flash with autoSusp := false, forcedTick := some s.tick.count } }) ∧
  (∀ (addr : Nat) (s : State), s.pwr.st ≠ 4 →
    exec (.sfWellheadMirror addr true) s = .next (s.after (fun s => sed 0x0A04 sWARNING 10 (addr % 0x100000 / 8) 0 0
      (satInc F.SF_ERR_MIRROR (mempUe 14 0 (addr % 0x100000 / 8) agRequest s)))) ∧
    exec (.sfWellheadMirror addr false) s = .next (s.after (fun s => sed 0x0A05 sALERT 10 (addr % 0x100000 / 8) 0 0
      (setF F.SF_STAT_WELLHEAD_LOST 1 (setF F.MGMT_STAT_CORES 0 (mempUe 14 0 (addr % 0x100000 / 8) agRequest s))))))

/-- Firmware: FW_BLOCK (R502 to R504), the end of the ownership of an update (R502), FW_VERIFY (R505), FW_ACTIVATE (R506 to R508), a trial
that turns healthy or runs out (R510, R511) and FW_CONFIRM (R512). -/
def Obligations.Firmware : Prop :=
  (∀ (path : Nat) (d : List Byte) (ok : Bool) (s : State), taken path 0xC010 d s = true → 16 ≤ d.length → d.length = 16 + at' d 6 2 →
    let n := at' d 6 2
    let last := byteAt d 4
    let u := fwTouch path s.begun
    (n % 8 = 0 → 8 ≤ n → n ≤ 4096 → last ≤ 1 → (last = 0 → n = 4096) → zeroAt d 5 1 = true → zeroAt d 12 4 = true →
      (fwBusy u path = false → u.mgmt.pldmFw = 0 →
        let r := fwBlock path (at' d 0 4) (last == 1) (at' d 8 4) (d.drop 16) ok u
        exec (.fwBlock path d ok) s = .next { answer path 0xC010 r.2.1 (fwOut r.2.2 r.1) r.1 with pending := s.pending }) ∧
      (fwBusy u path = true → exec (.fwBlock path d ok) s = .next { answer path 0xC010 rcBusy (fwOut 0 u) u with pending := s.pending })) ∧
    (n % 8 ≠ 0 → exec (.fwBlock path d ok) s = .next { answer path 0xC010 rcInvalid (fwOut 0 u) u with pending := s.pending })) ∧
  (∀ s : State, fwUnowned s = false →
    (s.flash.ownerTick + 2 * 262144 ≤ s.tick.count →
      exec .fwOwnerTimeout s = .next (s.after (fun s => fwDisown { s with mgmt := { s.mgmt with pldmFw := 0 } }))) ∧
    (s.tick.count < s.flash.ownerTick + 2 * 262144 → exec .fwOwnerTimeout s = .next (s.after id))) ∧
  (∀ (path : Nat) (s : State), taken path 0xC011 [] s = true →
    (fwOther s path = false → s.mgmt.pldmFw = 0 → exec (.fwVerify path []) s = .next (s.after (fun s =>
      let r := fwVerify path s
      let b := fwBytes r.1 (fld r.1 F.SF_FW_STAT_SLOT)
      answer path 0xC011 r.2.1 (le 1 r.2.2 ++ zeros 3 ++ le 4 (at' b 0x10 4) ++ le 2 (at' b 0x14 2)) r.1))) ∧
    ((fwOther s path = true ∨ s.mgmt.pldmFw ≠ 0) → exec (.fwVerify path []) s = .next { s with out := [.reply path 0xC011 rcBusy []] })) ∧
  (∀ (path : Nat) (d : List Byte) (s : State), taken path 0xC012 d s = true → d.length = 4 → fwOther s path = false → s.mgmt.pldmFw = 0 →
    let u := fwTouch path s.begun
    let rc := fwActCheck u (byteAt d 0) (zeroAt d 1 3)
    (rc = rcSuccess → exec (.fwActivate path d) s = .next { fwActivate path (byteAt d 0) (startCmd path 0xC012 true u) with pending := s.pending }) ∧
    (rc ≠ rcSuccess → exec (.fwActivate path d) s = .next { answer path 0xC012 rc [] u with pending := s.pending })) ∧
  (∀ (path : Nat) (v : BitVec 32) (s : State), isCore path = true → v.getLsbD 8 = true → fwSwitched s = true →
    bit s F.SF_FW_TRIAL_HEALTHY = false → fld s F.SF_FW_TRIAL_EPOCHS ≠ 0 → fld s F.MGMT_STAT_CORES ≠ 0 →
    exec (.fwTrialHealthy path v) s = .next (s.after (fun s =>
      gPut G.fwsel (.fwsel (fld s F.SF_FW_SEL_TRIAL) (fld s F.SF_FW_SEL_TRIAL) 0) false none .fwConfirm (setF F.SF_FW_TRIAL_HEALTHY 1 s)))) ∧
  (∀ s : State, 30 ≤ fld s F.SF_FW_TRIAL_EPOCHS → bit s F.SF_FW_TRIAL_HEALTHY = false →
    exec .fwTrialTimeout s = .next (s.after (fwFallback 0))) ∧
  (∀ s : State, (fld s F.SF_FW_TRIAL_EPOCHS < 30 ∨ bit s F.SF_FW_TRIAL_HEALTHY = true) →
    exec .fwTrialTimeout s = .next (s.after id)) ∧
  (∀ (path : Nat) (s : State), taken path 0xC013 [0, 0, 0, 0] s = true →
    let svn := (runningImage s).elim 0 FwImage.svn
    let old := gCounter s (.dev 2)
    (fld s F.SF_FW_SEL_TSTATE = 2 → exec (.fwConfirm path [0, 0, 0, 0]) s = .next { s with out := [.reply path 0xC013 rcConflict []] }) ∧
    (fld s F.SF_FW_SEL_TSTATE ≠ 2 → svn ≤ old →
      exec (.fwConfirm path [0, 0, 0, 0]) s = .next { s with out := [.reply path 0xC013 rcSuccess (fwConfOut s)] }) ∧
    (fld s F.SF_FW_SEL_TSTATE ≠ 2 → old < svn → exec (.fwConfirm path [0, 0, 0, 0]) s = .next (s.after (fun s =>
      gEnq (.raise (.dev 2) svn) false (some path) (.fwFloor path old svn) (startCmd path 0xC013 true s))))) ∧
  (∀ (path : Nat) (s : State), taken path 0xC013 [1, 0, 0, 0] s = true →
    (fld s F.SF_FW_SEL_TSTATE ≠ 2 → exec (.fwConfirm path [1, 0, 0, 0]) s = .next { s with out := [.reply path 0xC013 rcConflict []] }) ∧
    (fld s F.SF_FW_SEL_TSTATE = 2 → exec (.fwConfirm path [1, 0, 0, 0]) s = .next (s.after (fun s =>
      fwFallback 2 (endCmd path 0xC013 rcSuccess (le 2 (gCounter s (.dev 2)) ++ [0]) (startCmd path 0xC013 true s))))))

/-- The Gauge makes one write at a time, ends it, grants a held one and withdraws a mailbox's (R524 to R526); parameter records are read
and written (R537, R538); the recorder takes an event (R539), scans its region at a start (R547), is marked (R544) and read (R549). -/
def Obligations.GaugeAndRecorder : Prop :=
  (∀ (torn : Bool) (s : State), s.gauge.cur.isSome = true → exec (.gaugeWriteDone torn) s = .next (s.after (fun s =>
    let r := gWriteEnd torn s
    let s := match r.2 with | some (c, ok) => contRun c ok r.1 | none => r.1
    gStart { s with gauge := gAdmit s.gauge }))) ∧
  (∀ (torn : Bool) (s : State), s.gauge.cur = none → exec (.gaugeWriteDone torn) s = .next (s.after id)) ∧
  (∀ s : State, s.gauge.held.isSome = true → s.gauge.cur = none →
    (s.gauge.prioQ ≠ [] → gGrant s true = none → exec .gauWriteHeld s = .next (s.after (fun s => gStart (gHoldEnd s)))) ∧
    (s.gauge.prioQ = [] → s.gauge.normQ ≠ [] → gGrant s false = none →
      exec .gauWriteHeld s = .next (s.after (fun s => gStart (gHoldEnd s)))) ∧
    (s.gauge.prioQ = [] → s.gauge.normQ ≠ [] → (gGrant s false).isSome = true → exec .gauWriteHeld s = .next (s.after id)) ∧
    (s.gauge.prioQ = [] → s.gauge.normQ = [] → exec .gauWriteHeld s = .next (s.after gHoldEnd))) ∧
  (∀ (path : Nat) (e : Inflight) (s : State),
    (s.gauge.prioQ ++ s.gauge.normQ ++ s.gauge.waiting).any (fun r => r.mailbox == some path && decide (r.since + 12500 ≤ s.tick.count)) = true →
    s.mgmt.inflight.find? (fun e => e.path == path && !e.committed) = some e →
    exec (.gauMailboxWithdraw path) s = .next (s.after (fun s => answer path e.op rcBusy [] (abortCmd path s)))) ∧
  (∀ (path : Nat) (s : State),
    (s.gauge.prioQ ++ s.gauge.normQ ++ s.gauge.waiting).any (fun r => r.mailbox == some path && decide (r.since + 12500 ≤ s.tick.count)) = false →
    exec (.gauMailboxWithdraw path) s = .next (s.after id)) ∧
  (∀ (path : Nat) (d : List Byte) (s : State), taken path 0xC070 d s = true → d.length = 4 → zeroAt d 1 3 = true →
    (byteAt d 0 ≤ 15 → exec (.gauParamRead path d) s = .next { s with out := [.reply path 0xC070 rcSuccess
      (le 2 (gFmt s (G.param (byteAt d 0))) ++ le 1 (if gBad s (G.param (byteAt d 0)) then 1 else 0) ++ [0] ++
        le 4 (gSeq s (G.param (byteAt d 0))) ++ paramBytes s (byteAt d 0))] }) ∧
    (15 < byteAt d 0 → exec (.gauParamRead path d) s = .next { s with out := [.reply path 0xC070 rcInvalid []] })) ∧
  (∀ (path : Nat) (sec : Bool) (d : List Byte) (s : State), taken path 0xC071 d s = true → d.length = 244 → zeroAt d 1 1 = true →
    (needsSession s false = false ∨ isSecured s path sec = true) →
    (byteAt d 0 < 12 → inHalt s = false → paramTrialBusy s (at' d 2 2) = false →
      exec (.gauParamWrite path sec d) s = .next (s.after (fun s =>
        gEnq (.put (G.param (byteAt d 0)) (at' d 2 2) (.param (d.drop 4))) false (some path) (.param path (byteAt d 0) (at' d 2 2))
          (startCmd path 0xC071 true s)))) ∧
    (12 ≤ byteAt d 0 → byteAt d 0 ≤ 15 → exec (.gauParamWrite path sec d) s = .next { s with out := [.reply path 0xC071 rcRefused []] }) ∧
    (15 < byteAt d 0 → exec (.gauParamWrite path sec d) s = .next { s with out := [.reply path 0xC071 rcInvalid []] })) ∧
  (∀ (code sev unit p0 p1 p2 : Nat) (s : State), sev < 8 → unit ≤ 16 →
    exec (.sedRecord code sev unit p0 p1 p2) s = .next (s.after (sed code sev unit p0 p1 p2))) ∧
  (∀ (bad : List Nat) (s : State), bit s F.SED_STAT_READY = false → s.mtl.ready = true →
    ∃ t, exec (.sedRegionScan bad) s = .next t ∧ bit t F.SED_STAT_READY = true ∧ t.sed.gap = false ∧
      (∀ k, k ∈ bad → k < 131072 → tfind t.sed.region k = none)) ∧
  (∀ (bad : List Nat) (s : State), (bit s F.SED_STAT_READY = true ∨ s.mtl.ready = false) →
    exec (.sedRegionScan bad) s = .next (s.after id)) ∧
  (∀ (path : Nat) (d : List Byte) (s : State), taken path 0xC031 d s = true → d.length = 8 → zeroAt d 4 4 = true →
    (sedAge s (at' d 0 4) < 2 ^ 31 → sedAge s (at' d 0 4) ≤ sedAge s s.sed.mark → exec (.sedMark path d) s = .next { s with
      out := [.reply path 0xC031 rcSuccess (le 4 s.sed.mark)], sed := { s.sed with mark := at' d 0 4 } }) ∧
    (sedAge s (at' d 0 4) < 2 ^ 31 → sedAge s s.sed.mark < sedAge s (at' d 0 4) →
      exec (.sedMark path d) s = .next { s with out := [.reply path 0xC031 rcStale []] }) ∧
    (2 ^ 31 ≤ sedAge s (at' d 0 4) → exec (.sedMark path d) s = .next { s with out := [.reply path 0xC031 rcInvalid []] })) ∧
  (∀ (path : Nat) (d : List Byte) (s : State), taken path 0xC030 d s = true → d.length = 8 → byteAt d 0 ≤ 1 → byteAt d 1 ≤ 7 →
    at' d 2 2 ≠ 0 → at' d 2 2 ≤ 255 → at' d 4 4 = 0xFFFFFFFF →
    let l := (sedSource s (byteAt d 0)).filter (fun r => decide (byteAt d 1 ≤ r.sev))
    let got := l.take (at' d 2 2)
    exec (.sedRead path d) s = .next { s with out := [.reply path 0xC030 rcSuccess
      (le 2 got.length ++ le 1 (if at' d 2 2 < l.length then 1 else 0) ++ [(0 : Byte)] ++
        le 4 (match got.getLast? with | some r => (r.seq + 1) % 2 ^ 32 | none => s.sed.next) ++ got.flatMap recBytes)] })

/-! ### Power and the supervisor -/

/-- Power states: each target of PWR_STATE_REQ checked and acted on, and a target above 4 refused (R561, R562); the answer of a unit
that is asked to agree and one that does not come (R563 to R566); the end of a DEEP entry (R572); the exit from IDLE (R559), a wake, the
wake timer (R574) and the end of an exit (R575); PWR_CTL (R577). -/
def Obligations.PowerRequests : Prop :=
  (∀ (path target : Nat) (inp : List Byte) (c : Instr) (s : State),
    (c, target) ∈ [(Instr.pwrStateReqRun path inp, 0), (.pwrStateReqIdle path inp, 1), (.pwrStateReqSleep path inp, 2),
      (.pwrStateReqDeep path inp, 3), (.pwrStateReqOff path inp, 4)] →
    taken path 0xC040 (le 1 target ++ inp.drop 1) s = true → inp.length = 4 → zeroAt inp 1 3 = true →
    let rc := pwrCheck s.begun path target false
    (rc = rcSuccess → target = s.pwr.st → exec c s = .next { s with out := [.reply path 0xC040 rcSuccess (pwrOut s)] }) ∧
    (rc = rcSuccess → target ≠ s.pwr.st → target = 4 → exec c s = .next (s.after (fun s =>
      let s := setF F.PWR_STAT_TARGET target s
      answer path 0xC040 rcSuccess (pwrOut s) { s with sup := { s.sup with offAsked := true } }))) ∧
    (rc = rcSuccess → target ≠ s.pwr.st → (target = 2 ∨ target = 3) → s.pwr.st < 2 → exec c s = .next (s.after (fun s =>
      entryStart path target (setF F.PWR_STAT_TARGET target s)))) ∧
    (rc = rcSuccess → target ≠ s.pwr.st → target ≤ 1 → s.pwr.st ≠ 2 → exec c s = .next (s.after (fun s =>
      let s := if target = 0 then idleLeave 1 (setF F.PWR_STAT_TARGET target s) else idleEnter 1 (setF F.PWR_STAT_TARGET target s)
      answer path 0xC040 rcSuccess (pwrOut s) s))) ∧
    (rc = rcSuccess → target ≤ 1 → s.pwr.st = 2 → exec c s = .next (s.after (fun s =>
      wakeStart 3 (startCmd path 0xC040 false (setF F.PWR_STAT_TARGET target s))))) ∧
    (rc ≠ rcSuccess → exec c s = .next (s.after (fun s =>
      sed 0x0C06 sNOTICE 13 target rc (pathCode path) (answer path 0xC040 rc (pwrOut s) s))))) ∧
  (∀ (path : Nat) (inp : List Byte) (s : State), inp.length = 4 → 4 < byteAt inp 0 →
    taken path 0xC040 (le 1 (byteAt inp 0) ++ inp.drop 1) s = true →
    exec (.pwrStateReqBadTarget path inp) s = .next (s.after (fun s =>
      sed 0x0C06 sNOTICE 13 (byteAt inp 0) rcInvalid (pathCode path) (answer path 0xC040 rcInvalid (pwrOut s) s)))) ∧
  (∀ (u : Nat) (busy : Bool) (e : Entry) (s : State), inHalt s = false → s.pwr.entry = some e → askedUnit s = some u →
    (unitClamped s u = true → exec (.unitAgree u busy) s = .next (s.after (agreed u))) ∧
    (unitClamped s u = false → (busy = true ∨ unitRefuses s.begun e u = true) → exec (.unitAgree u busy) s = .next (s.after (fun s =>
      entryAbandon 1 u (sed 0x0C02 sNOTICE 13 e.target u (e.point.getD 0) s)))) ∧
    (unitClamped s u = false → busy = false → unitRefuses s.begun e u = false → exec (.unitAgree u busy) s = .next (s.after (fun s =>
      if (unitStops e u s).2 then agreed u (unitStops e u s).1 else (unitStops e u s).1)))) ∧
  (∀ (u : Nat) (busy : Bool) (s : State), inHalt s = true → exec (.unitAgree u busy) s = .next (s.after (entryCut 5))) ∧
  (∀ (u : Nat) (busy : Bool) (s : State), inHalt s = false → askedUnit s ≠ some u →
    exec (.unitAgree u busy) s = .next (s.after id) ∧ exec (.pwrEntryTimeout u) s = .next (s.after id)) ∧
  (∀ (u : Nat) (e : Entry) (s : State), s.pwr.entry = some e → askedUnit s = some u →
    (e.asked + fld s F.PWR_CTL_AGREE_MS * 250 ≤ s.tick.count → exec (.pwrEntryTimeout u) s = .next (s.after (fun s =>
      entryAbandon 3 u (sed 0x0C04 sWARNING 13 e.target u (fld s F.PWR_CTL_AGREE_MS) s)))) ∧
    (s.tick.count < e.asked + fld s F.PWR_CTL_AGREE_MS * 250 → exec (.pwrEntryTimeout u) s = .next (s.after id))) ∧
  (∀ (crcs : List (BitVec 32)) (e : Entry) (s : State), s.pwr.entry = some e → e.signing = true → e.agreed = 11 →
    let banks := (List.range 9).filter (bankThere s.begun)
    let u := setF F.PWR_STAT_POINT 3 (setF F.PWR_RET_STAT_SIGNED (banks.foldl (fun a b => a + 2 ^ b) 0)
      (forEach banks (fun b s => setF (F.PWR_SIG_CRC b) (lat 0 crcs b).toNat s) s.begun))
    let v := modPwr (fun p => { p with entry := some { e with point := some 3 } }) u
    (e.wake = none → exec (.retentionSignDone crcs) s = .next { (
      let ms := (v.tick.count - e.startTick) / 250
      sed 0x0C00 sINFO 13 3 ms e.cleaned (deepLoss (modPwr (fun p => { p with st := 3, entry := none })
        (satInc F.PWR_CNT_ENTRIES (setF F.PWR_TIME_ENTRY_MS ms v))))) with pending := s.pending }) ∧
    (e.wake.isSome = true → exec (.retentionSignDone crcs) s = .next { entryWake v with pending := s.pending })) ∧
  (∀ (c : Nat) (s : State), (c = 2 ∨ c = 3) → s.pwr.st = 1 → exec (.idleExit c) s = .next (s.after (fun s =>
    sed 0x0C20 sDEBUG 13 0 c (s.tick.count - s.pwr.idleSince)
      { s with pwr := { s.pwr with st := 0, idleAsked := false, quietTicks := 0 } }))) ∧
  (∀ (src : Nat) (s : State), src < 7 → src ≠ 4 → wakeOn s src = true →
    (∀ e, s.pwr.entry = some e → exec (.wakeEvent src) s =
      .next { s with out := [], pwr := { s.pwr with entry := some { e with wake := some (e.wake.getD src) } } }) ∧
    (s.pwr.entry = none → (s.pwr.st = 2 ∨ s.pwr.st = 3) → s.pwr.exit = none → exec (.wakeEvent src) s = .next (s.after (fun s =>
      let s := setF F.PWR_STAT_WAKE_SRC src (setF F.PWR_WAKE_STAT_SRC (fld s F.PWR_WAKE_STAT_SRC ||| 2 ^ src) s)
      { s with pwr := { s.pwr with exit := some (s.pwr.st, src, s.tick.count) } })))) ∧
  (∀ s : State,
    let t := fld s F.PWR_TIMER_HI_TICK * 2 ^ 32 + fld s F.PWR_TIMER_LO_TICK
    (t ≠ 0 → t ≤ s.tick.count → exec .pwrWakeTimer s = .next (s.after (wakeStart 4))) ∧
    ((t = 0 ∨ s.tick.count < t) → exec .pwrWakeTimer s = .next (s.after id))) ∧
  (∀ (crcs : List (BitVec 32)) (left src t : Nat) (s : State), s.pwr.exit = some (left, src, t) →
    let u := when (left == 3) (fun s => bankCheck crcs (coresRun s)) s.begun
    let v := modPwr (fun p => { p with st := 0, exit := none, stopped := [], quietTicks := 0 }) u
    let w := forEach (headsOn v) (fun h s => modHead h (fun x => { x with lowPower := 0 }) s) v
    let ms := (w.tick.count - t) / 250
    let x := sed 0x0C01 sINFO 13 left src ms (bufferToRing (setF F.PWR_TIME_EXIT_MS ms w))
    let asked := (x.mgmt.inflight.filter (fun e => e.op == 0xC040)).map (·.path)
    let y := if asked.isEmpty || fld x F.PWR_STAT_TARGET ≠ 1 then x else idleEnter 1 x
    exec (.pwrWake crcs) s = .next { pump (forEach asked (fun p s => endCmd p 0xC040 rcSuccess (pwrOut s) s) y) with pending := s.pending }) ∧
  (∀ (path : Nat) (v : BitVec 32) (s : State), isMgmt path = true →
    (1 ≤ F.PWR_CTL_IDLE_TICKS.get v → F.PWR_CTL_IDLE_TICKS.get v ≤ 4095 → 10 ≤ F.PWR_CTL_AGREE_MS.get v → F.PWR_CTL_AGREE_MS.get v ≤ 250 →
      exec (.pwrCtlWrite path v) s = .next (s.after (fun s => s.putReg Reg.PWR_CTL (v &&& 0x03FFFFF1)))) ∧
    ((F.PWR_CTL_AGREE_MS.get v < 10 ∨ 250 < F.PWR_CTL_AGREE_MS.get v ∨ F.PWR_CTL_IDLE_TICKS.get v < 1) →
      exec (.pwrCtlWrite path v) s = .next (s.after id)))

/-- The rails: VAUX rises and falls (R580), a snapshot is taken (R607), power-up starts (R582), a step's rails come up or time out (R583,
R584), a step's rails discharge (R587, R588), an on request in DOWN is latched (R590), a rail that was up loses PG (R591). -/
def Obligations.PowerSequence : Prop :=
  (∀ (straps : Nat) (s : State), s.sup.st = 7 → exec (.pdAonRelease straps) s = .next (s.after (fun s =>
    aonStart { s with devid := straps % 4096, mgmt := { s.mgmt with recoverPin := !straps.testBit 12 } }))) ∧
  (∀ (straps : Nat) (s : State), s.sup.st ≠ 7 → exec (.pdAonRelease straps) s = .next (s.after id)) ∧
  (∀ s : State, s.gauge.cur = none → exec .vauxPor s = .next (s.after (fun s => domainsReset { s with
    gauge := { s.gauge with cur := none, prioQ := [], normQ := [], waiting := [], held := none }
    sup := { Sup.init with st := 7, step := 0, t0 := false, en := 0, pg := 0, up := 0, part := s.sup.part, leader := s.sup.leader
                           forced := s.sup.forced, mrLow := s.sup.mrLow }
    therm := Therm.init }))) ∧
  (∀ s : State, s.sup.st < 6 → exec .vauxLossSnapshot s = .next (s.after (fun s =>
    (gWriteCopy G.supsnap (gFmt s G.supsnap) (.supsnap (snapNow 8 false false true s))
      (modSup (fun u => { u with snap := snapNow 8 false false true s }) s)).1))) ∧
  (∀ s : State, s.sup.st = 0 → (s.sup.offTick = 0 ∨ s.sup.offTick + 25000 ≤ s.tick.count) →
    (s.sup.part = false → exec .powerUpStart s = .next (s.after upStart)) ∧
    (s.sup.part = true → exec .powerUpStart s = .next { s with
      out := [], sup := { s.sup with solo := false, vinBad := false, seicheDone := true } })) ∧
  (∀ s : State, s.sup.st ≠ 0 → exec .powerUpStart s = .next (s.after id)) ∧
  (∀ (pg : BitVec 10) (s : State), s.sup.st = 1 → s.sup.seicheDone = false →
    let m := railMask (upRails s.begun s.sup.step)
    let new := pg &&& m &&& ~~~ s.sup.failed
    let u := modSup (fun x => { x with pg := x.pg ||| new, up := x.up ||| new }) s.begun
    (m &&& ~~~ (u.sup.up ||| u.sup.failed) = 0 → exec (.railStepDone pg) s = .next { upNext u with pending := s.pending }) ∧
    (m &&& ~~~ (u.sup.up ||| u.sup.failed) ≠ 0 → exec (.railStepDone pg) s = .next { u with pending := s.pending })) ∧
  (∀ (rail : Nat) (s : State), s.sup.st = 1 → (upRails s.begun s.sup.step).contains rail = true → s.sup.up.getLsbD rail = false →
    s.sup.failed.getLsbD rail = false → exec (.railPgTimeout rail) s = .next (s.after (fun s =>
      let s := modSup (fun x => { x with failed := x.failed ||| railMask [rail] }) s
      let s := setF F.GLB_STATE_FAILED_RAILS s.sup.failed.toNat s
      sed 0x0D01 sERROR 14 rail s.sup.step (railEnt s rail).tPg s))) ∧
  (∀ s : State, s.sup.st = 5 → discharging s.begun ≠ 0 → s.sup.reverse = false → inGroup s = false →
    let u := modSup (fun x => { x with nodis := x.nodis, pg := x.pg &&& ~~~ discharging s.begun }) s.begun
    (21 ≤ s.sup.step → exec (.railDischargeDone 0) s = .next { downEnd u with pending := s.pending }) ∧
    (s.sup.step < 21 → exec (.railDischargeDone 0) s = .next { downStep 8 (s.sup.step + 1) u with pending := s.pending })) ∧
  (∀ (left : BitVec 10) (s : State), s.sup.st = 5 → discharging s.begun ≠ 0 →
    let l := left &&& discharging s.begun
    let u := forEach ((List.range 10).filter (fun n => l.getLsbD n)) (fun n s => sed 0x0D02 sWARNING 14 n (draw 16 s).1.toNat
      (draw 16 s).2.sup.step (draw 16 s).2)
      (modSup (fun x => { x with nodis := x.nodis ||| l, pg := x.pg &&& ~~~ discharging s.begun }) s.begun)
    (u.sup.reverse = true → exec (.railDischargeDone left) s = .next { reverseStep 11 u with pending := s.pending }) ∧
    (u.sup.reverse = false → inGroup u = true → exec (.railDischargeDone left) s =
      .next { modSup (fun x => { x with seicheDone := true }) u with pending := s.pending })) ∧
  (∀ (src : Nat) (s : State), src < 3 → (s.sup.st = 5 ∨ (s.sup.st = 4 ∧ s.sup.toOff = true)) →
    exec (.onRequestLatched src) s = .next { s with out := [], sup := { s.sup with onLatched := true } }) ∧
  (∀ (src : Nat) (s : State), s.sup.st ≠ 5 → s.sup.st ≠ 4 → exec (.onRequestLatched src) s = .next (s.after id)) ∧
  (∀ (r : Nat) (s : State), (s.sup.st = 2 ∨ s.sup.st = 3) → s.sup.up.getLsbD r = true → s.sup.pg.getLsbD r = true →
    let note := fun (s : State) =>
      let s := modSup (fun x => { x with pg := x.pg &&& ~~~ railMask [r] }) s
      let s := setF F.SUP_RAIL_LOST_LOST (fld s F.SUP_RAIL_LOST_LOST ||| 2 ^ r) s
      sed 0x0D03 sERROR 14 r s.sup.st 0 s
    let ports := fun (s : State) => forEach (headsOn s) (fun h s => modHead h (fun x => { x with released := false }) (linkDown h 0 s)) s
    (r = 2 → exec (.railPgLost r) s = .next (s.after (fun s => forEach [0, 1] (fun n s => linkLost n 1 0 s) (ports (note s))))) ∧
    (r = 3 → exec (.railPgLost r) s = .next (s.after (fun s => ports (note s)))) ∧
    (r = 9 → exec (.railPgLost r) s = .next (s.after (fun s => modSup (fun x => { x with budget := 0, charging := false }) (note s)))) ∧
    (r ∉ [2, 3, 9] → exec (.railPgLost r) s = .next (s.after (fun s => flushStart 6 (note s)))))

/-- GUARD begins and ends (R592, R594); VIN below V_FAIL, a flush, its end and its early end (R598, R600); a press of the power button, a
long press and MR_N (R609 to R611); WAKE_N in OFF (R581, R618); the loss of REFCLK (R704). -/
def Obligations.FlushAndGuard : Prop :=
  (∀ (vin : Nat) (s : State), s.sup.st = 2 → exec (.guardEnter vin) s = .next (s.after (fun s =>
    let s := modSup (fun x => { x with st := 3, charging := false, guardTick := s.tick.count, guardMin := vin }) (vinSeen vin s)
    let s := sed 0x0D10 sNOTICE 14 vin (dMib s) s.sup.budget (satInc F.SUP_GUARD_COUNT s)
    when (coreOn s) (raiseEval 0) s))) ∧
  (∀ (vin : Nat) (s : State), s.sup.st ≠ 2 → exec (.guardEnter vin) s = .next (s.after id)) ∧
  (∀ (vin : Nat) (s : State), s.sup.st = 3 → exec (.guardEnd vin) s = .next (s.after (fun s =>
    let u := sed 0x0D11 sWARNING 14 s.sup.guardMin ((s.tick.count - s.sup.guardTick) / 250) 0
      (modSup (fun x => { x with st := 2, vinBad := false }) (vinSeen vin s))
    pump (chargeEval (when (coreOn u) (raiseEval 0) u))))) ∧
  (∀ (vin : Nat) (s : State), s.sup.st ≠ 3 → exec (.guardEnd vin) s = .next (s.after id)) ∧
  (∀ (vin : Nat) (s : State), s.sup.st < 6 → exec (.vinFail vin) s = .next (s.after (fun s =>
    flushStart 0 (modSup (fun x => { x with vinBad := true }) (vinSeen vin s))))) ∧
  (∀ (cause : Nat) (s : State), cause < 8 → exec (.flushStart cause) s = .next (s.after (flushStart cause))) ∧
  (∀ (ok : Bool) (dur : Nat) (f : Flush) (s : State), s.sup.flush = some f → s.sup.st = 4 → f.step < 5 →
    let u := flushCut s.begun
    let busy := !f.deep && coreOn u && f.mtlSt != 0
    let v := if busy && decide (f.step ≤ 3) then lcPumpAll (drain u) else u
    (busy = true → drained v = false → exec (.flushDone ok dur) s = .next { v with pending := s.pending }) ∧
    ((busy = false ∨ drained v = true) →
      let w := when (decide (f.step ≤ 3)) (flushClose { f with dur := dur, vinOk := ok }) v
      let x := gRun (gFuel w) w
      exec (.flushDone ok dur) s = .next { (match x.sup.flush with
        | some g => if prioIdle x then flushEnd g x else x
        | none => x) with pending := s.pending })) ∧
  (∀ (ok : Bool) (dur : Nat) (s : State), (s.sup.flush = none ∨ s.sup.st ≠ 4) → exec (.flushDone ok dur) s = .next (s.after id)) ∧
  (∀ (f : Flush) (s : State), s.sup.flush = some f → s.sup.st = 4 → f.step < 4 → exec (.flushIncomplete 0) s = .next (s.after (fun s =>
    let s := modSup (fun x => { x with flushed := some f.cause }) s
    let s := { s with mgmt := { s.mgmt with dirtyShutdowns := s.mgmt.dirtyShutdowns + 1 } }
    let s := sed 0x0D14 sCRITICAL 14 f.cause 0 (dMib s) s
    let s := putSnap (snapNow f.cause false false false s) s
    goDown (gRun (gFuel s) s)))) ∧
  (∀ (ms : Nat) (s : State), 50 ≤ ms → ms < 8000 → s.sup.st < 6 →
    ((s.pwr.st = 2 ∨ s.pwr.st = 3) → exec (.btnPress ms) s = .next (s.after (fun s => wakeStart 1 (satInc F.SUP_BTN_PRESSES s)))) ∧
    (s.pwr.st < 2 → (s.sup.st = 2 ∨ s.sup.st = 3) → exec (.btnPress ms) s = .next (s.after (fun s =>
      sed 0x0D40 sINFO 14 ms s.sup.st 0 (satInc F.SUP_BTN_PRESSES s))))) ∧
  (∀ (ms : Nat) (s : State), (ms < 50 ∨ 8000 ≤ ms) → exec (.btnPress ms) s = .next (s.after id)) ∧
  (∀ s : State, s.sup.st < 6 →
    let u := modSup (fun x => { x with forced := true, toOff := true, onLatched := false })
      (sed 0x0D41 sWARNING 14 (dMib s.begun) 0 0 (setF F.SUP_BTN_HELD 1 s.begun))
    (s.sup.st = 0 → exec .forceOff s = .next { modPwr (fun p => { p with st := 4 }) (modSup (fun x => { x with st := 6 }) u) with pending := s.pending }) ∧
    (s.sup.st = 1 → exec .forceOff s = .next { modSup (fun x => { x with offAsked := true }) u with pending := s.pending }) ∧
    (s.sup.st = 4 → exec .forceOff s = .next { modSup (fun x => { x with
      cause := 2, flush := x.flush.map (fun f => { f with off := true, cause := if f.step < 4 then 2 else f.cause }) }) u with pending := s.pending }) ∧
    (s.sup.st ∈ [2, 3, 5] → exec .forceOff s = .next { flushStart 2 u with pending := s.pending })) ∧
  (∀ s : State, s.sup.st < 6 → exec .mrNAssert s = .next (s.after (fun s =>
    flushStart 3 (testPin (setF F.SUP_BTN_MR 1 (modSup (fun x => { x with mrLow := true }) s)))))) ∧
  (∀ s : State, exec .mrNRelease s = .next (s.after (fun s =>
    testReset (setF F.SUP_BTN_MR 0 (modSup (fun x => { x with mrLow := false }) s))))) ∧
  (∀ s : State, (s.sup.st = 6 → exec .wakeNOff s = .next (s.after aonStart)) ∧ (s.sup.st ≠ 6 → exec .wakeNOff s = .next (s.after id))) ∧
  (∀ s : State, s.sup.st < 6 → s.sup.refclk = true → exec .refclkLost s = .next (s.after (fun s =>
    let run_ := s.sup.st == 2 || s.sup.st == 3
    let s := modSup (fun x => { x with refclk := false }) s
    let s := sed 0x0060 sCRITICAL 16 (min s.sup.st 5) (s.tick.count % 2 ^ 32) (if run_ then 1 else 0) s
    flushStart 6 (when (isFollower s && bit s F.TICK_SYNC_STAT_LOCKED) (doSyncLost 0) s))))

/-- A housekeeping round (R596, R619 to R624); the Reservoir reaches its target, is marked FAULTED, starts and ends its test (R603 to
R605); its registers (R625); and the frames, barriers, requests and faults of SEICHE (R613 to R617). -/
def Obligations.ReservoirAndSeiche : Prop :=
  (∀ (raw : List Int) (valid : List Bool) (s : State), s.sup.st < 6 → exec (.housekeepingRound raw valid) s = .next (s.after (fun s =>
    let s := takeReadings raw valid s
    let s := match chanRead s 31 with | some v => vinSeen v.toNat s | none => s
    let s := budgetRound (windowsRound (levelsRound s))
    let s := when (decide (3150 < s.sup.resV) && !s.sup.faulted) (fun s => resFault 2 s.sup.resV s) s
    let s := chargeEval (roundCount s)
    shutdownRound (crossings (when (s.sup.testPending && testMay s) testStart s))))) ∧
  (∀ (raw : List Int) (valid : List Bool) (s : State), 6 ≤ s.sup.st → exec (.housekeepingRound raw valid) s = .next (s.after id)) ∧
  (∀ (ms : Nat) (s : State), s.sup.charging = true →
    let u := modSup (fun x => { x with charging := false, everCharged := true, firstTarget := true, resV := max x.resV (resTarget s.begun) }) s.begun
    (s.sup.firstTarget = true → exec (.resCharged ms) s = .next { u with pending := s.pending }) ∧
    (s.sup.firstTarget = false → exec (.resCharged ms) s =
      .next { testStart (sed 0x0D20 sINFO 14 ms (fld u F.SUP_RES_CTL_TARGET) 0 u) with pending := s.pending })) ∧
  (∀ (why v : Nat) (s : State), s.sup.st < 6 → s.sup.faulted = false →
    (((why = 1 ∧ v < 2800) ∨ (why = 2 ∧ 3150 < v)) → exec (.resFault why v) s =
      .next (s.after (fun s => resFault why v (modSup (fun x => { x with resV := v }) s)))) ∧
    ((why = 1 ∧ 2800 ≤ v) ∨ (why = 2 ∧ v ≤ 3150) → exec (.resFault why v) s = .next (s.after id))) ∧
  (∀ (cause : Nat) (s : State), s.sup.st < 6 → s.sup.testing = false →
    ((cause = 0 ∨ cause = 2 ∨ (cause = 1 ∧ s.sup.testEpoch + 4096 ≤ epoch s)) → exec (.resTestStart cause) s = .next (s.after testStart)) ∧
    (cause = 1 → epoch s < s.sup.testEpoch + 4096 → exec (.resTestStart cause) s = .next (s.after id))) ∧
  (∀ (c esr : Nat) (s : State), s.sup.testing = true →
    let u := setF F.SUP_RES_CTL_TEST (if s.sup.testPending then 1 else 0)
      (modSup (fun x => { x with testing := false, cEff := c, esr := esr, testEpoch := epoch s.begun }) s.begun)
    let b := budgetAt u (resTarget u)
    let v := sed 0x0D22 sINFO 14 c esr b u
    let w := if c < 100 then resFault 3 v.sup.resV v else if 1000 < esr then resFault 4 v.sup.resV v else v
    exec (.resTest c esr) s = .next { chargeEval (when (decide (4 * b < dMax w)) (fun s => sed 0x0D23 sWARNING 14 b (dMax s / 4) c s) w) with
      pending := s.pending }) ∧
  (∀ (path : Nat) (v : BitVec 32) (s : State), isMgmt path = true →
    let t := F.SUP_RES_CTL_TARGET.get v
    let r := F.SUP_GUARD_RATE.get v
    (250 ≤ t → t ≤ 310 → v.getLsbD 16 = false → exec (.supRegWrite path Reg.SUP_RES_CTL v) s =
      .next (s.after (fun s => chargeEval (setF F.SUP_RES_CTL_TARGET t s)))) ∧
    ((t < 250 ∨ 310 < t) → v.getLsbD 16 = false → exec (.supRegWrite path Reg.SUP_RES_CTL v) s = .next (s.after chargeEval)) ∧
    (4 ≤ r → r ≤ 56 → exec (.supRegWrite path Reg.SUP_GUARD v) s = .next (s.after (setF F.SUP_GUARD_RATE r))) ∧
    ((r < 4 ∨ 56 < r) → exec (.supRegWrite path Reg.SUP_GUARD v) s = .next (s.after id))) ∧
  (∀ (n : Nat) (t : State) (s : State), inGroup s = true → s.sup.leader = false → n < 23 → seicheBegin n s.begun = some t →
    exec (.seicheFrame n true) s = .next { wakeStart 6 t with pending := s.pending }) ∧
  (∀ (n : Nat) (ok : Bool) (s : State), inGroup s = true → s.sup.leader = false →
    ((ok = false ∨ 23 < n ∨ (n ≠ 23 ∧ seicheBegin n s.begun = none)) → exec (.seicheFrame n ok) s = .next (s.after (fun s =>
      seicheFault 0 (satInc F.SUP_SEICHE_FRAME_ERR s)))) ∧
    (ok = true → n = 23 → exec (.seicheFrame n ok) s = .next (s.after (seicheFault 3)))) ∧
  (∀ (ok : Bool) (n : Nat) (t : State) (s : State), inGroup s = true → s.sup.leader = true → s.sup.seicheDone = true →
    let u := modSup (fun x => { x with flush := x.flush.map (fun f => { f with vinOk := f.vinOk && ok }) }) s.begun
    (seicheNext u = some n → seicheBegin n u = some t → exec (.seicheBarrier ok) s = .next { emit (.seicheFrame n) t with pending := s.pending }) ∧
    (seicheNext u = none → exec (.seicheBarrier ok) s = .next { u with pending := s.pending })) ∧
  (∀ (us : Nat) (t : State) (s : State), inGroup s = true → s.sup.leader = true → s.sup.seiche = 13 →
    (200 ≤ us → us ≤ 1000 → seicheBegin 22 s.begun = some t →
      exec (.seicheRequest us) s = .next { emit (.seicheFrame 22) t with pending := s.pending }) ∧
    ((us < 200 ∨ 1000 < us) → exec (.seicheRequest us) s = .next (s.after id))) ∧
  (∀ (cause : Nat) (s : State), ((cause = 1 ∧ s.sup.leader = false) ∨ (cause = 2 ∧ s.sup.leader = true) ∨ cause = 0 ∨ cause = 3) →
    exec (.seicheFault cause) s = .next (s.after (seicheFault cause)))

/-! ### Narrows -/

/-- A session that opens, and one whose chain or serial fails (R633); replica frames that arrive on a running link of a replica with
room in their queue (R635, R638); a fetch (R654), an acknowledgement (R646), a resend (R650), the heartbeat both ways, STATUS that
carries another configuration, LEAVE (R660), HANDOFF (R658) and a tag that fails (R634). A link that does not run takes none. -/
def Obligations.NarrowsFrames : Prop :=
  (∀ (n width serial : Nat) (chain : Bool) (s : State),
    linkEnabled s n = true → n < 2 → inHalt s = false → inFlush s = false → coreOn s = true → s.pwr.stopped.contains 15 = false →
    (width = 4 ∨ width = 2) → (linkOf s n).st ≠ 3 →
    let p := facing s n
    (chain = false → exec (.nrwSession n width serial chain) s = .next (s.after (fun s =>
      sed 0x0F03 sWARNING 15 n 0 p (modLink n (fun l => { l with st := 0 }) s)))) ∧
    (chain = true → serialOk s.begun p serial = false → exec (.nrwSession n width serial chain) s = .next (s.after (fun s =>
      sed 0x0F03 sWARNING 15 n 1 p (modLink n (fun l => { l with st := 0 }) s)))) ∧
    (chain = true → serialOk s.begun p serial = true → exec (.nrwSession n width serial chain) s = .next (s.after (fun s =>
      let s := modLink n (fun l => { l with
        st := 3, width := width, session := l.session + 1, txFrames := 0, peer := p, send := [] }) s
      let s := forEach (behind s n) (fun q s => modMem q (fun m => { m with seen := false }) s) s
      nrwStatus n (sed 0x0F00 sINFO 15 n width p s))))) ∧
  (∀ (n width serial : Nat) (chain : Bool) (s : State), (linkEnabled s n = false ∨ (linkOf s n).st = 3) →
    exec (.nrwSession n width serial chain) s = .next (s.after id)) ∧
  (∀ (n rseq key line : Nat) (d : Line) (poison resync relay : Bool) (bits : BitVec 512) (s : State),
    n < 2 → linkRuns s n = true → nrwReplica s = true → inFlush s = false → s.nrw.applySet = true →
    (queueOf s.begun (16 + n)).occ < 512 →
    let took := fun (e : QEntry) (b : FrameBody) (s : State) =>
      let s := modNrw (fun x => { x with rseq := max x.rseq (rseq + 1) }) s
      let far := (relayTo s n).filter (fun p => (memOf s p).st == 1 || (memOf s p).st == 2)
      nrwTake (enqueue (16 + n) e (nrwQueue rseq b far s))
    exec (.nrwWriteFrame n rseq key line d poison resync relay .none) s =
      .next (s.after (took (repEntry .write rseq key line d poison resync) (.write key line d poison resync))) ∧
    exec (.nrwZeroFrame n rseq key line resync relay) s =
      .next (s.after (took (repEntry .zero rseq key line 0 false resync) (.zero key line resync))) ∧
    exec (.nrwReleaseFrame n rseq line relay) s = .next (s.after (took (repEntry .release rseq 0 line 0 false true) (.release line))) ∧
    exec (.nrwBitmapFrame n rseq line bits) s = .next (s.after (took (repEntry .bitmap rseq 0 line bits false true) (.bitmap line bits)))) ∧
  (∀ (n line t : Nat) (s u : State),
    linkRuns s n = true → (memOf s (facing s n)).st = 2 → amSource s (facing s n) = true → slicesServe s = true → line < lineEnd s →
    placeFrame (facing s n) line s.begun = some (u, t) → exec (.nrwFetchFrame n line) s = .next { pump u with pending := s.pending }) ∧
  (∀ (n rseq pos : Nat) (relay : Bool) (s : State),
    let p := if relay then pos else facing s n
    linkRuns s n = true → (peers s).contains p = true →
    exec (.nrwAckFrame n rseq relay pos) s = .next (s.after (fun s =>
      let s := regionsAcked p (unwait p rseq (freeCells p rseq (modMem p (fun m => { m with ack := max m.ack rseq }) s)))
      pump (handoffCheck (when (nrwReplica s && !faces s s.nrw.grp.primary p)
        (fun s => nrwFrame (linkTo s s.nrw.grp.primary 0) 0x08 p rseq true none s) s))))) ∧
  (∀ (n rseq : Nat) (s : State), linkRuns s n = true →
    exec (.nrwResendFrame n rseq) s = .next (s.after (fun s =>
      let s := satInc (F.NRW_LINK_ERR_RESEND n) s
      let bad := ((linkOf s n).send.filter (fun c => c.bad && decide (rseq ≤ c.rseq))).flatMap (·.serves)
      let s := forEach bad.eraseDups (fun p s => nrwFence p 6 s) s
      nrwSend n (modLink n (fun l => { l with send := l.send.map (fun c => if rseq ≤ c.rseq then { c with sent := none } else c) }) s)))) ∧
  (∀ (n rseq : Nat) (s : State), linkRuns s n = true → nrwReplica s = true → s.nrw.applySet = false →
    exec (.nrwHeartbeatFrame n rseq) s = .next (s.after (fun s => nrwTake { s with
      nrw := { s.nrw with applySet := true, nextApply := rseq + 1, rseq := max s.nrw.rseq (rseq + 1) } }))) ∧
  (∀ (n replays : Nat) (s : State), exec (.nrwHeartbeatSend n replays) s = .next (s.after (fun s =>
    let s := satAdd (F.NRW_LINK_ERR_CRC n) replays s
    nrwFrame n 0x0A (ownPos s) ((s.nrw.rseq + 2 ^ 56 - 1) % 2 ^ 56) false none s))) ∧
  (∀ (n pos ginc st group nmem : Nat) (primary synced ack : Bool) (members : List Nat) (dig : List Byte) (c : NarrowsCfg) (s : State),
    cfgNrw s = some c → linkRuns s n = true → (behind s n).contains pos = true → nrwConfigBad s = none →
    (group ≠ c.group ∨ nmem ≠ c.nmem ∨ members.take c.nmem ≠ c.members ∨ ack ≠ c.async) →
    exec (.nrwStatusFrame n pos ginc primary st synced group nmem ack members dig) s = .next (s.after (fun s =>
      let t := sed 0x0F02 sERROR 15 3 pos 0 { s with nrw := { s.nrw with group := 1 } }
      meetAll s t))) ∧
  (∀ (n pos ginc st : Nat) (primary synced : Bool) (dig : List Byte) (c : NarrowsCfg) (s : State),
    cfgNrw s = some c → linkRuns s n = true → (behind s n).contains pos = true → nrwConfigBad s = none →
    c.members.take c.nmem = c.members → dig ≠ s.nrw.digest →
    exec (.nrwStatusFrame n pos ginc primary st synced c.group c.nmem c.async c.members dig) s = .next (s.after (fun s =>
      let t := sed 0x0F02 sERROR 15 4 pos 0 { s with nrw := { s.nrw with group := 1 } }
      meetAll s t))) ∧
  (∀ (n pos ginc st : Nat) (primary synced : Bool) (c : NarrowsCfg) (s : State),
    cfgNrw s = some c → linkRuns s n = true → (behind s n).contains pos = true → nrwConfigBad s = none →
    c.members.take c.nmem = c.members →
    exec (.nrwStatusFrame n pos ginc primary st synced c.group c.nmem c.async c.members s.nrw.digest) s = .next (s.after (fun s =>
      let t := groupForm (modMem pos (fun m => { m with seen := true, ginc := ginc, isPrimary := primary, synced := synced, pos := pos }) s)
      let t := if t.nrw.group < 2 then t
        else if !(memOf s pos).seen then pump (groupEval (nrwMeet pos ginc primary synced t))
        else
          let t := when (decide (t.nrw.grp.ginc < ginc)) (putGroup { t.nrw.grp with ginc := ginc }) t
          let t := when (primary && !t.nrw.grp.isPrimary && t.nrw.grp.primary != pos) (putGroup { t.nrw.grp with primary := pos }) t
          if (memOf t pos).st = 2 ∧ amSource t pos = false ∧ st = 1 then resyncDone pos t else groupEval t
      meetAll s t))) ∧
  (∀ (n : Nat) (s : State), linkRuns s n = true →
    exec (.nrwLeaveFrame n) s = .next (s.after (fun s => nrwFence (facing s n) 7 s)) ∧
    exec (.nrwTagFail n) s = .next (s.after (fun s =>
      let s := satInc (F.NRW_LINK_ERR_RETRAIN n) (satInc (F.NRW_LINK_ERR_TAG n) s)
      linkLost n 5 1 (sed 0x0F03 sWARNING 15 n 2 (facing s n) s)))) ∧
  (∀ (n rseq path : Nat) (s : State), linkRuns s n = true →
    (s.nrw.handoff = some (path, true) → nrwReplica s = true → exec (.nrwHandoffFrame n rseq) s = .next (s.after (fun s =>
      promoteWrite path { s with nrw := { s.nrw with rseq := rseq + 1 } }))) ∧
    (s.nrw.handoff = none → nrwPrimary s = true → exec (.nrwHandoffFrame n rseq) s = .next (s.after (fun s =>
      handoffCheck { s with nrw := { s.nrw with handoff := some (n, false) } }))) ∧
    (s.nrw.handoff = some (path, false) → exec (.nrwHandoffFrame n rseq) s = .next (s.after id))) ∧
  (∀ (n rseq key line : Nat) (d : Line) (poison resync relay : Bool) (up : Upset) (bits : BitVec 512) (c : Instr) (s : State),
    linkRuns s n = false →
    c ∈ [Instr.nrwWriteFrame n rseq key line d poison resync relay up, .nrwZeroFrame n rseq key line resync relay,
      .nrwReleaseFrame n rseq line relay, .nrwBitmapFrame n rseq line bits, .nrwFetchFrame n line, .nrwAckFrame n rseq relay key,
      .nrwResendFrame n rseq, .nrwHeartbeatFrame n rseq, .nrwLeaveFrame n, .nrwHandoffFrame n rseq, .nrwTagFail n] →
    exec c s = .next (s.after id))

/-- The hold input (R643); a fence that is due, and one that is not (R648); a step of the resync walk (R652); NRW_GROUP_SET with each
action: the record that its Gauge write takes, the handoff of a PROMOTE whose primary is in sync, and a refusal (R656 to R658);
NRW_RESYNC with each action (R659). The estimate of the remaining time is a free value (log entry 5). -/
def Obligations.NarrowsGroup : Prop :=
  (∀ (n : Nat) (low : Bool) (s : State), linkEnabled s n = true →
    exec (.nrwHoldIn n low) s = .next (s.after (fun s =>
      let s := modLink n (fun l => { l with holdIn := low, holdSince := if low && !l.holdIn then s.tick.count else l.holdSince }) s
      if low then s else nrwSend n s))) ∧
  (∀ (n : Nat) (low : Bool) (s : State), linkEnabled s n = false → exec (.nrwHoldIn n low) s = .next (s.after id)) ∧
  (∀ (p cause : Nat) (s : State), nrwOn s = true → inHalt s = false → fenceDue s p cause = true →
    (cause ≠ 1 → exec (.nrwFence p cause) s = .next (s.after (nrwFence p cause))) ∧
    (cause = 1 → exec (.nrwFence p cause) s = .next (s.after (fun s =>
      linkLost (linkTo s p 0) 1 1 (satInc (F.NRW_LINK_ERR_RETRAIN (linkTo s p 0)) s))))) ∧
  (∀ (p cause : Nat) (s : State), (nrwOn s = false ∨ inHalt s = true ∨ fenceDue s p cause = false) →
    exec (.nrwFence p cause) s = .next (s.after id)) ∧
  (∀ s : State, nrwOn s = true → 2 ≤ s.nrw.group → inHalt s = false → inFlush s = false → effShare s 7 ≠ 0 → slicesServe s = true →
    s.mtl.ready = true →
    (∀ p k l, s.nrw.walk = some (p, k, l) → linkRuns s (linkTo s p l) = true →
      exec .nrwResyncStep s = .next (s.after (fun s => pump (walkStep p k l s)))) ∧
    (∀ p, s.nrw.walk = none → (peers s).find? (fun p => (memOf s p).st == 2 && amSource s p) = some p →
      linkRuns s (linkTo s p 0) = true → exec .nrwResyncStep s = .next (s.after (fun s => pump (walkStep p 0 0 s)))) ∧
    (s.nrw.walk = none → (peers s).find? (fun p => (memOf s p).st == 2 && amSource s p) = none →
      exec .nrwResyncStep s = .next (s.after id))) ∧
  (∀ (path : Nat) (inp : List Byte) (s : State), taken path 0xC060 inp s = true → inp.length = 32 →
    (groupCheck s.begun (withAction 0 inp) = rcSuccess → exec (.nrwGroupSetSerials path inp) s = .next (s.after (fun s =>
      gPut (G.param 12) (.group { s.nrw.grp with serials := (List.range 3).map (fun i => at' (withAction 0 inp) (8 + 8 * i) 8) })
        false (some path) (.group path 0) (startCmd path 0xC060 true s)))) ∧
    (groupCheck s.begun (withAction 2 inp) = rcSuccess → byteAt inp 0 ≤ 2 → exec (.nrwGroupSetSolo path inp) s = .next (s.after (fun s =>
      gPut (G.param 12) (.group { s.nrw.grp with solo := (byteAt (withAction 2 inp) 1).testBit 1 })
        false (some path) (.group path 2) (startCmd path 0xC060 true s)))) ∧
    (groupCheck s.begun (withAction 1 inp) = rcSuccess → (memOf s s.nrw.grp.primary).st = 1 → s.nrw.stale = false →
      exec (.nrwGroupSetPromote path inp) s = .next (s.after (fun s =>
        let s := startCmd path 0xC060 true s
        let s := { s with nrw := { s.nrw with handoff := some (path, true) } }
        nrwFrame (linkTo s s.nrw.grp.primary 0) 0x0E (ownPos s) s.nrw.persisted false none s))) ∧
    (groupCheck s.begun (withAction 1 inp) = rcSuccess → ((memOf s s.nrw.grp.primary).st ≠ 1 ∨ s.nrw.stale = true) →
      exec (.nrwGroupSetPromote path inp) s = .next (s.after (fun s => promoteWrite path (startCmd path 0xC060 true s)))) ∧
    (∀ (c : Instr) (act : Nat), (c, act) ∈ [(Instr.nrwGroupSetSerials path inp, 0), (.nrwGroupSetPromote path inp, 1),
        (.nrwGroupSetSolo path inp, 2)] → groupCheck s.begun (withAction act inp) ≠ rcSuccess →
      exec c s = .next (s.answered path 0xC060 (groupCheck s.begun (withAction act inp)) []))) ∧
  (∀ (path : Nat) (inp : List Byte) (s : State), taken path 0xC061 inp s = true → inp.length = 4 →
    let d := withAction2 0 inp
    let e := withAction2 1 inp
    let p := byteAt inp 0
    let shown := fun (s : State) => answer path 0xC061 rcSuccess
      (le 1 (memOf s p).st ++ zeros 3 ++ le 4 (regionsSet s (memOf s p)) ++ le 4 (draw 32 s).1.toNat) (draw 32 s).2
    (byteAt d 0 = p → byteAt d 1 = 0 → zeroAt d 2 2 = true → nrwOn s = true → (peers s).contains p = true →
      exec (.nrwResyncStatus path inp) s = .next (s.after shown)) ∧
    (byteAt e 0 = p → byteAt e 1 = 1 → zeroAt e 2 2 = true → nrwOn s = true → (peers s).contains p = true →
      ((amSource s p = true ∧ 2 ≤ s.nrw.group ∧ ((memOf s p).st = 1 ∨ (memOf s p).st = 2) →
        exec (.nrwResyncFull path inp) s = .next (s.after (fun s => shown (groupEval (resyncStart p true s))))) ∧
       (amSource s p = false ∨ s.nrw.group < 2 ∨ ((memOf s p).st ≠ 1 ∧ (memOf s p).st ≠ 2) →
        exec (.nrwResyncFull path inp) s = .next (s.answered path 0xC061 rcConflict [])))) ∧
    (zeroAt e 2 2 = false → exec (.nrwResyncFull path inp) s = .next (s.answered path 0xC061 rcInvalid [])))

/-! ### Observation and the test access port -/

/-- A write of a counter's configuration (R671); the end of a selected request that Plumb follows (R676) and a request that it does not;
a read of OBS_PLUMB_DATA7 by the owner and by any other path (R679); PLUMB_STOP with and without its reason (R680); a slot of the
Sounding port: the TICK frame, the oldest frame or an IDLE frame, and no slot while the port is off (R681, R685); MARK (R683); each
control register, and the values of RATE and OWNER that are ignored (R687). -/
def Obligations.Observation : Prop :=
  (∀ (path j : Nat) (v : BitVec 32) (s : State), unitOn s 15 = true → coreOn s = true → j < 8 →
    exec (.obsPcCfgWrite path j v) s = .next (s.after (fun s => { s with
      obs := { s.obs with
        pc := tmod Counter.init (pathCode path * 8 + j) (fun c =>
          { c with ev := v.toNat % 256, qual := v.toNat / 256 % 256, n := 0, ov := false, part := true }) s.obs.pc } }))) ∧
  (∀ (h tag latency : Nat) (x : Sample) (s : State),
    let p : Sample → Bool := fun x => x.head == h && x.seq == tag && x.ended
    s.obs.flying.find? p = some x →
    (latency < fld s F.OBS_PLUMB_LAT_MIN_LAT → exec (.plumbSample h tag latency) s =
      .next { s with out := [], obs := { s.obs with flying := ldel p s.obs.flying } }) ∧
    (fld s F.OBS_PLUMB_LAT_MIN_LAT ≤ latency → exec (.plumbSample h tag latency) s = .next (s.after (fun s =>
      plumbKeep { x with latency := latency } { s with obs := { s.obs with flying := ldel p s.obs.flying } })))) ∧
  (∀ (h tag latency : Nat) (s : State), s.obs.flying.find? (fun x => x.head == h && x.seq == tag && x.ended) = none →
    exec (.plumbSample h tag latency) s = .next (s.after id)) ∧
  (∀ (path : Nat) (s : State),
    (unitOn s 15 = true → coreOn s = true → plumbOn s = true → plumbOwner s path = true → exec (.plumbDataPop path) s =
      .next { s with
        out := [.value path (Reg.OBS_PLUMB_DATA 7) (plumbWord s 7)]
        obs := { s.obs with ring := s.obs.ring.drop 1, fullSaid := s.obs.fullSaid && decide (1 < s.obs.ring.length) } }) ∧
    ((unitOn s 15 = false ∨ coreOn s = false ∨ plumbOn s = false ∨ plumbOwner s path = false) → exec (.plumbDataPop path) s =
      .next { s with out := [.value path (Reg.OBS_PLUMB_DATA 7) 0] })) ∧
  (∀ (cause : Nat) (s : State),
    (plumbStopDue s cause = true → s.obs.active = true → exec (.plumbStop cause) s = .next (s.after (fun s =>
      sed 0x1001 sINFO 15 cause s.obs.kept (fld s F.OBS_PLUMB_STAT_LOST) { s with
        obs := { s.obs with active := false, flying := if cause = 0 then s.obs.flying else [] } }))) ∧
    ((plumbStopDue s cause = false ∨ s.obs.active = false) → exec (.plumbStop cause) s = .next (s.after id))) ∧
  (∀ s : State,
    let step := fun (s : State) => { s with obs := { s.obs with slot := s.obs.slot + 1 } }
    let n := ((s.obs.fifos.map (fun e => e.2.length)).foldl (· + ·) 0) + 1
    (s.obs.sndActive = true → s.obs.slot = 0 → exec .soundingFrameSlot s = .next (s.after (fun s =>
      sndSend ⟨1, 16, 0, s.tick.count, le 8 s.tick.count ++ le 6 s.tick.cal ++ le 1 (obsLevel s) ++ le 1 (devid s % 256), obsLevel s⟩
        (step s)))) ∧
    (∀ u f, s.obs.sndActive = true → 1 ≤ s.obs.slot → s.obs.slot < 125 → nextFrame n (step s.begun) = (u, some f) →
      exec .soundingFrameSlot s = .next { sndSend f u with pending := s.pending }) ∧
    (∀ u, s.obs.sndActive = true → 1 ≤ s.obs.slot → s.obs.slot < 125 → nextFrame n (step s.begun) = (u, none) →
      exec .soundingFrameSlot s = .next { emit (.sounding (zeros 24)) u with pending := s.pending }) ∧
    ((s.obs.sndActive = false ∨ 125 ≤ s.obs.slot) → exec .soundingFrameSlot s = .next (s.after id))) ∧
  (∀ (path : Nat) (v : BitVec 32) (s : State), unitOn s 15 = true → coreOn s = true → soundingOn s = true →
    exec (.obsSndMarkWrite path v) s = .next (s.after (sndPush 9 15 (le 1 (pathCode path) ++ le 4 v.toNat ++ zeros 11)))) ∧
  (∀ (path : Nat) (v : BitVec 32) (s : State), isMgmt path = true → unitOn s 15 = true → coreOn s = true → plumbOn s = true →
    let old := ctlRead s.begun Reg.OBS_PLUMB_CTL
    let ok := F.OBS_PLUMB_CTL_RATE.get v ≤ 20 ∧ F.OBS_PLUMB_CTL_OWNER.get v ≤ 4
    let w := v &&& 0x1F71
    (ok → w ≠ old → F.OBS_PLUMB_CTL_EN.get w ≠ 0 → exec (.obsPlumbCtlWrite path Reg.OBS_PLUMB_CTL v) s =
      .next { s with out := [], obs := { s.obs with pendingCtl := s.obs.pendingCtl ++ [(Reg.OBS_PLUMB_CTL, w)] } }) ∧
    (ok → w ≠ old → F.OBS_PLUMB_CTL_EN.get w = 0 → exec (.obsPlumbCtlWrite path Reg.OBS_PLUMB_CTL v) s = .next (s.after (fun s =>
      plumbStop 0 (setF F.OBS_PLUMB_CTL_EN 0 { s with
        obs := { s.obs with pendingCtl := s.obs.pendingCtl ++ [(Reg.OBS_PLUMB_CTL, w)] } })))) ∧
    ((20 < F.OBS_PLUMB_CTL_RATE.get v ∨ 4 < F.OBS_PLUMB_CTL_OWNER.get v ∨ w = old) →
      exec (.obsPlumbCtlWrite path Reg.OBS_PLUMB_CTL v) s = .next (s.after id)) ∧
    exec (.obsPlumbCtlWrite path Reg.OBS_PLUMB_FILT v) s =
      .next { s with out := [], obs := { s.obs with pendingCtl := s.obs.pendingCtl ++ [(Reg.OBS_PLUMB_FILT, v &&& 0x0FFF017F)] } } ∧
    exec (.obsPlumbCtlWrite path Reg.OBS_PLUMB_LAT v) s = .next (s.after (fun s => s.putReg Reg.OBS_PLUMB_LAT (v &&& 0xFFFFFF)))) ∧
  (∀ (path : Nat) (v : BitVec 32) (s : State), isMgmt path = true → unitOn s 15 = true → coreOn s = true → soundingOn s = true →
    (exec (.obsPlumbCtlWrite path Reg.OBS_SND_CTL v) s = .next (s.after (fun s =>
      when (!bit (s.putReg Reg.OBS_SND_CTL (v &&& 0x103FF ||| 3)) F.OBS_SND_CTL_EN) (sndStop 0) (s.putReg Reg.OBS_SND_CTL (v &&& 0x103FF ||| 3))))) ∧
    (F.OBS_SND_FILT_RATE.get v ≤ 20 →
      exec (.obsPlumbCtlWrite path Reg.OBS_SND_FILT v) s = .next (s.after (fun s => s.putReg Reg.OBS_SND_FILT (v &&& 0x1F7F)))) ∧
    (20 < F.OBS_SND_FILT_RATE.get v → exec (.obsPlumbCtlWrite path Reg.OBS_SND_FILT v) s = .next (s.after id)) ∧
    exec (.obsPlumbCtlWrite path Reg.OBS_SND_LAT v) s = .next (s.after (fun s => s.putReg Reg.OBS_SND_LAT (v &&& 0xFFFFFF)))) ∧
  (∀ (path a j : Nat) (v : BitVec 32) (s : State), (unitOn s 15 = false ∨ coreOn s = false) →
    exec (.obsPcCfgWrite path j v) s = .next (s.after id) ∧ exec (.obsSndMarkWrite path v) s = .next (s.after id) ∧
    exec (.obsPlumbCtlWrite path a v) s = .next (s.after id))

/-- While the port may run (R717), each instruction becomes the current one with what it drives: the cells for EXTEST and CLAMP, nothing
for HIGHZ, functional control otherwise; and its answer: the driven pads, IDCODE, the captured cells or the bypass bit. A code that names
no other instruction acts as BYPASS (R719). Outside the conditions the port takes none (R717); the release gives Test-Logic-Reset (R718). -/
def Obligations.TestPort : Prop :=
  (∀ (pins cells : List Bool) (code : Nat) (s : State), testMayRun s = true →
    let loaded := fun (code : Nat) (driving highz : Bool) (s : State) =>
      { s with jtag := { s.jtag with enabled := true, instr := code, driving := driving, highz := highz } }
    exec (.jtagExtest cells) s = .next (s.after (fun s =>
      let s := putCells cells (loaded 0x00 true false s)
      emit (.pads (cellDrives s)) s)) ∧
    exec .jtagIdcode s = .next (s.after (fun s => emit (.tdo 0x01 (idcode s)) (loaded 0x01 false false s))) ∧
    exec (.jtagSamplePreload pins cells) s = .next (s.after (fun s =>
      emit (.cells ((pins.take cellCount).zipIdx.map (fun p => cellCapture s p.2 p.1))) (putCells cells (loaded 0x02 false false s)))) ∧
    exec .jtagHighz s = .next (s.after (fun s => emit (.tdo 0x08 0) (loaded 0x08 false true s))) ∧
    exec .jtagClamp s = .next (s.after (fun s =>
      emit (.tdo 0x09 0) (emit (.pads (cellDrives (loaded 0x09 true false s))) (loaded 0x09 true false s)))) ∧
    (code < 256 → [0x00, 0x01, 0x02, 0x08, 0x09].contains code = false →
      exec (.jtagBypass code) s = .next (s.after (fun s => emit (.tdo code 0) (loaded code false false s))))) ∧
  (∀ (pins cells : List Bool) (code : Nat) (c : Instr) (s : State), testMayRun s = false →
    c ∈ [Instr.jtagExtest cells, .jtagIdcode, .jtagSamplePreload pins cells, .jtagHighz, .jtagClamp, .jtagBypass code] →
    exec c s = .next (s.after id)) ∧
  (∀ (code : Nat) (s : State), [0x00, 0x01, 0x02, 0x08, 0x09].contains code = true → exec (.jtagBypass code) s = .next (s.after id)) ∧
  (∀ s : State, exec .jtagRelease s = .next { s with out := [], jtag := { Jtag.init with since := s.jtag.since } })
end

