-- ==== Sys2Proof/Laws/Begun.lean ====
section
/-! SUPPORT. A command finds the outputs of the step before gone: nothing else of the state depends on them, so each field and
each reading of the state is that of the state itself. -/

namespace Sys2Proof.Machine

/-- A meaning's next state is the state after its change. -/
theorem run_after (f : State → State) (s : State) : run f s = .next (s.after f) := rfl

/-- Two changes that agree on the state as the command finds it lead to one state. -/
theorem after_congr {f g : State → State} {s : State} (h : f s.begun = g s.begun) : s.after f = s.after g := by
  unfold State.after; rw [h]

@[simp] theorem begun_putReg (s : State) (a : Nat) (v : BitVec 32) : s.begun.putReg a v = (s.putReg a v).begun := by
  unfold State.putReg; split <;> rfl
@[simp] theorem begun_setF (f : Fld) (v : Nat) (s : State) : setF f v s.begun = (setF f v s).begun := begun_putReg ..
@[simp] theorem begun_setB (f : Fld) (b : Bool) (s : State) : setB f b s.begun = (setB f b s).begun := begun_putReg ..
@[simp] theorem begun_satAdd (f : Fld) (n : Nat) (s : State) : satAdd f n s.begun = (satAdd f n s).begun := begun_putReg ..
@[simp] theorem begun_satInc (f : Fld) (s : State) : satInc f s.begun = (satInc f s).begun := begun_putReg ..

@[simp] theorem begun_field_pending (s : State) : s.begun.pending = s.pending := rfl
@[simp] theorem begun_field_out (s : State) : s.begun.out = [] := rfl
@[simp] theorem begun_field_fresh (s : State) : s.begun.fresh = s.fresh := rfl
@[simp] theorem begun_field_regs (s : State) : s.begun.regs = s.regs := rfl
@[simp] theorem begun_field_staged (s : State) : s.begun.staged = s.staged := rfl
@[simp] theorem begun_field_captured (s : State) : s.begun.captured = s.captured := rfl
@[simp] theorem begun_field_variant (s : State) : s.begun.variant = s.variant := rfl
@[simp] theorem begun_field_devid (s : State) : s.begun.devid = s.devid := rfl
@[simp] theorem begun_field_serial (s : State) : s.begun.serial = s.serial := rfl
@[simp] theorem begun_field_cfg (s : State) : s.begun.cfg = s.cfg := rfl
@[simp] theorem begun_field_tick (s : State) : s.begun.tick = s.tick := rfl
@[simp] theorem begun_field_sed (s : State) : s.begun.sed = s.sed := rfl
@[simp] theorem begun_field_gauge (s : State) : s.begun.gauge = s.gauge := rfl
@[simp] theorem begun_field_ndx (s : State) : s.begun.ndx = s.ndx := rfl
@[simp] theorem begun_field_heads (s : State) : s.begun.heads = s.heads := rfl
@[simp] theorem begun_field_poison (s : State) : s.begun.poison = s.poison := rfl
@[simp] theorem begun_field_queues (s : State) : s.begun.queues = s.queues := rfl
@[simp] theorem begun_field_tracker (s : State) : s.begun.tracker = s.tracker := rfl
@[simp] theorem begun_field_ways (s : State) : s.begun.ways = s.ways := rfl
@[simp] theorem begun_field_slices (s : State) : s.begun.slices = s.slices := rfl
@[simp] theorem begun_field_fills (s : State) : s.begun.fills = s.fills := rfl
@[simp] theorem begun_field_lcmds (s : State) : s.begun.lcmds = s.lcmds := rfl
@[simp] theorem begun_field_media (s : State) : s.begun.media = s.media := rfl
@[simp] theorem begun_field_mtl (s : State) : s.begun.mtl = s.mtl := rfl
@[simp] theorem begun_field_icu (s : State) : s.begun.icu = s.icu := rfl
@[simp] theorem begun_field_vault (s : State) : s.begun.vault = s.vault := rfl
@[simp] theorem begun_field_memp (s : State) : s.begun.memp = s.memp := rfl
@[simp] theorem begun_field_movers (s : State) : s.begun.movers = s.movers := rfl
@[simp] theorem begun_field_mgmt (s : State) : s.begun.mgmt = s.mgmt := rfl
@[simp] theorem begun_field_flash (s : State) : s.begun.flash = s.flash := rfl
@[simp] theorem begun_field_pwr (s : State) : s.begun.pwr = s.pwr := rfl
@[simp] theorem begun_field_sup (s : State) : s.begun.sup = s.sup := rfl
@[simp] theorem begun_field_therm (s : State) : s.begun.therm = s.therm := rfl
@[simp] theorem begun_field_nrw (s : State) : s.begun.nrw = s.nrw := rfl
@[simp] theorem begun_field_obs (s : State) : s.begun.obs = s.obs := rfl
@[simp] theorem begun_field_jtag (s : State) : s.begun.jtag = s.jtag := rfl

@[simp] theorem begun_calOk (s : State) : calOk s.begun = calOk s := rfl
@[simp] theorem begun_bootMode (s : State) : bootMode s.begun = bootMode s := rfl
@[simp] theorem begun_activeDue (s : State) : activeDue s.begun = activeDue s := rfl
@[simp] theorem begun_windowDue (s : State) (k : Nat) : windowDue s.begun k = windowDue s k := rfl
@[simp] theorem begun_unitAbsent (s : State) (op : Nat) : unitAbsent s.begun op = unitAbsent s op := rfl
@[simp] theorem begun_inFlight (s : State) (path : Nat) : inFlight s.begun path = inFlight s path := rfl
@[simp] theorem begun_bgBusy (s : State) : bgBusy s.begun = bgBusy s := rfl
@[simp] theorem begun_flashBytes (s : State) (a : Nat) (n : Nat) : flashBytes s.begun a n = flashBytes s a n := rfl
@[simp] theorem begun_serialNo (s : State) : serialNo s.begun = serialNo s := rfl
@[simp] theorem begun_factoryDigest (s : State) : factoryDigest s.begun = factoryDigest s := rfl
@[simp] theorem begun_firmwareDigest (s : State) : firmwareDigest s.begun = firmwareDigest s := rfl
@[simp] theorem begun_imageKeyDigest (s : State) : imageKeyDigest s.begun = imageKeyDigest s := rfl
@[simp] theorem begun_gFuel (s : State) : gFuel s.begun = gFuel s := rfl
@[simp] theorem begun_obsLevel (s : State) : obsLevel s.begun = obsLevel s := rfl
@[simp] theorem begun_sndTakes (s : State) (kind : Nat) : sndTakes s.begun kind = sndTakes s kind := rfl
@[simp] theorem begun_dieMay (s : State) (k : Nat) : dieMay s.begun k = dieMay s k := rfl
@[simp] theorem begun_cacheClean (s : State) : cacheClean s.begun = cacheClean s := rfl
@[simp] theorem begun_drainFuel (s : State) : drainFuel s.begun = drainFuel s := rfl
@[simp] theorem begun_drained (s : State) : drained s.begun = drained s := rfl
@[simp] theorem begun_headTakes (s : State) (h : Nat) : headTakes s.begun h = headTakes s h := rfl
@[simp] theorem begun_ideLacks (s : State) (h : Nat) : ideLacks s.begun h = ideLacks s h := rfl
@[simp] theorem begun_decodeReq (s : State) (h : Nat) (hpa : Nat) : decodeReq s.begun h hpa = decodeReq s h hpa := rfl
@[simp] theorem begun_writeWaits (s : State) (h : Nat) : writeWaits s.begun h = writeWaits s h := rfl
@[simp] theorem begun_amqFull (s : State) (line : Nat) : amqFull s.begun line = amqFull s line := rfl
@[simp] theorem begun_internalData (s : State) (line : Nat) : internalData s.begun line = internalData s line := rfl
@[simp] theorem begun_mergeRoom (s : State) (line : Nat) : mergeRoom s.begun line = mergeRoom s line := rfl
@[simp] theorem begun_slicesServe (s : State) : slicesServe s.begun = slicesServe s := rfl
@[simp] theorem begun_writeAdmit (s : State) (h : Nat) (line : Nat) : writeAdmit s.begun h line = writeAdmit s h line := rfl
@[simp] theorem begun_writeReady (s : State) (h : Nat) (e : QEntry) : writeReady s.begun h e = writeReady s h e := rfl
@[simp] theorem begun_readReady (s : State) (h : Nat) (e : QEntry) : readReady s.begun h e = readReady s h e := rfl
@[simp] theorem begun_replicaNext (s : State) : replicaNext s.begun = replicaNext s := rfl
@[simp] theorem begun_issueHeld (s : State) (h : Nat) : issueHeld s.begun h = issueHeld s h := rfl
@[simp] theorem begun_cycleEvents (s : State) : cycleEvents s.begun = cycleEvents s := rfl
@[simp] theorem begun_takes (s : State) (h : Nat) (kind : QKind) : takes s.begun h kind = takes s h kind := rfl
@[simp] theorem begun_unreserved (s : State) : unreserved s.begun = unreserved s := rfl
@[simp] theorem begun_fullCredits (s : State) (q : Nat) : fullCredits s.begun q = fullCredits s q := rfl
@[simp] theorem begun_queueOf (s : State) (q : Nat) : queueOf s.begun q = queueOf s q := rfl
@[simp] theorem begun_queueOn (s : State) (q : Nat) : queueOn s.begun q = queueOn s q := rfl
@[simp] theorem begun_queuesOn (s : State) : queuesOn s.begun = queuesOn s := rfl
@[simp] theorem begun_poolUsed (s : State) : poolUsed s.begun = poolUsed s := rfl
@[simp] theorem begun_poolReserved (s : State) : poolReserved s.begun = poolReserved s := rfl
@[simp] theorem begun_freeCell (s : State) : freeCell s.begun = freeCell s := rfl
@[simp] theorem begun_cfgMarks (s : State) (h : Nat) : cfgMarks s.begun h = cfgMarks s h := rfl
@[simp] theorem begun_ingHi (s : State) (h : Nat) : ingHi s.begun h = ingHi s h := rfl
@[simp] theorem begun_ingLo (s : State) (h : Nat) : ingLo s.begun h = ingLo s h := rfl
@[simp] theorem begun_egrHi (s : State) (h : Nat) : egrHi s.begun h = egrHi s h := rfl
@[simp] theorem begun_egrLo (s : State) (h : Nat) : egrLo s.begun h = egrLo s h := rfl
@[simp] theorem begun_holdHi (s : State) (h : Nat) : holdHi s.begun h = holdHi s h := rfl
@[simp] theorem begun_holdLo (s : State) (h : Nat) : holdLo s.begun h = holdLo s h := rfl
@[simp] theorem begun_canReserve (s : State) (q : Nat) : canReserve s.begun q = canReserve s q := rfl
@[simp] theorem begun_sfWord (s : State) (a : Nat) : sfWord s.begun a = sfWord s a := rfl
@[simp] theorem begun_sfLowV (s : State) : sfLowV s.begun = sfLowV s := rfl
@[simp] theorem begun_sfThere (s : State) (core : Nat) : sfThere s.begun core = sfThere s core := rfl
@[simp] theorem begun_sfOwned (core : Nat) (s : State) : sfOwned core s.begun = sfOwned core s := rfl
@[simp] theorem begun_dMib (s : State) : dMib s.begun = dMib s := rfl
@[simp] theorem begun_railsNow (s : State) : railsNow s.begun = railsNow s := rfl
@[simp] theorem begun_railEnt (s : State) (n : Nat) : railEnt s.begun n = railEnt s n := rfl
@[simp] theorem begun_upRails (s : State) (n : Nat) : upRails s.begun n = upRails s n := rfl
@[simp] theorem begun_downRails (s : State) (n : Nat) : downRails s.begun n = downRails s n := rfl
@[simp] theorem begun_vresUp (s : State) : vresUp s.begun = vresUp s := rfl
@[simp] theorem begun_resMay (s : State) : resMay s.begun = resMay s := rfl
@[simp] theorem begun_resTarget (s : State) : resTarget s.begun = resTarget s := rfl
@[simp] theorem begun_seicheShown (s : State) : seicheShown s.begun = seicheShown s := rfl
@[simp] theorem begun_vinLow (s : State) : vinLow s.begun = vinLow s := rfl
@[simp] theorem begun_snapNow (cause : Nat) (completed : Bool) (ride : Bool) (fromVaon : Bool) (s : State) :
    snapNow cause completed ride fromVaon s.begun = snapNow cause completed ride fromVaon s := rfl
@[simp] theorem begun_discharging (s : State) : discharging s.begun = discharging s := rfl
@[simp] theorem begun_inGroup (s : State) : inGroup s.begun = inGroup s := rfl
@[simp] theorem begun_shadowCurrent (s : State) : shadowCurrent s.begun = shadowCurrent s := rfl
@[simp] theorem begun_rideMay (f : Flush) (s : State) : rideMay f s.begun = rideMay f s := rfl
@[simp] theorem begun_rootClean (s : State) : rootClean s.begun = rootClean s := rfl
@[simp] theorem begun_prioIdle (s : State) : prioIdle s.begun = prioIdle s := rfl
@[simp] theorem begun_fwOther (s : State) (path : Nat) : fwOther s.begun path = fwOther s path := rfl
@[simp] theorem begun_fwUnowned (s : State) : fwUnowned s.begun = fwUnowned s := rfl
@[simp] theorem begun_fwOut (reason : Nat) (s : State) : fwOut reason s.begun = fwOut reason s := rfl
@[simp] theorem begun_fwBusy (s : State) (path : Nat) : fwBusy s.begun path = fwBusy s path := rfl
@[simp] theorem begun_fwActCheck (s : State) (mode : Nat) (reserved : Bool) :
    fwActCheck s.begun mode reserved = fwActCheck s mode reserved := rfl
@[simp] theorem begun_fwActOut (s : State) : fwActOut s.begun = fwActOut s := rfl
@[simp] theorem begun_fwConfOut (s : State) : fwConfOut s.begun = fwConfOut s := rfl
@[simp] theorem begun_fwInfo (s : State) : fwInfo s.begun = fwInfo s := rfl
@[simp] theorem begun_fwBytes (s : State) (slot : Nat) : fwBytes s.begun slot = fwBytes s slot := rfl
@[simp] theorem begun_fwCheck (s : State) (b : List Byte) (received : Nat) : fwCheck s.begun b received = fwCheck s b received := rfl
@[simp] theorem begun_fwSlotReason (s : State) (slot : Nat) : fwSlotReason s.begun slot = fwSlotReason s slot := rfl
@[simp] theorem begun_fwSlotVersion (s : State) (slot : Nat) : fwSlotVersion s.begun slot = fwSlotVersion s slot := rfl
@[simp] theorem begun_fwsel (s : State) : fwsel s.begun = fwsel s := rfl
@[simp] theorem begun_fwTarget (s : State) : fwTarget s.begun = fwTarget s := rfl
@[simp] theorem begun_runningImage (s : State) : runningImage s.begun = runningImage s := rfl
@[simp] theorem begun_fwSwitched (s : State) : fwSwitched s.begun = fwSwitched s := rfl
@[simp] theorem begun_gSpare (s : State) : gSpare s.begun = gSpare s := rfl
@[simp] theorem begun_gHigh (s : State) (c : Ctr) : gHigh s.begun c = gHigh s c := rfl
@[simp] theorem begun_paramBytes (s : State) (n : Nat) : paramBytes s.begun n = paramBytes s n := rfl
@[simp] theorem begun_paramTrialBusy (s : State) (fmt : Nat) : paramTrialBusy s.begun fmt = paramTrialBusy s fmt := rfl
@[simp] theorem begun_gBlock (s : State) (b : Nat) : gBlock s.begun b = gBlock s b := rfl
@[simp] theorem begun_gPick (s : State) (a : Nat) : gPick s.begun a = gPick s a := rfl
@[simp] theorem begun_gRead (s : State) (a : Nat) : gRead s.begun a = gRead s a := rfl
@[simp] theorem begun_gSeq (s : State) (a : Nat) : gSeq s.begun a = gSeq s a := rfl
@[simp] theorem begun_gFmt (s : State) (a : Nat) : gFmt s.begun a = gFmt s a := rfl
@[simp] theorem begun_gBad (s : State) (a : Nat) : gBad s.begun a = gBad s a := rfl
@[simp] theorem begun_gFwsel (s : State) : gFwsel s.begun = gFwsel s := rfl
@[simp] theorem begun_gNdxsel (s : State) : gNdxsel s.begun = gNdxsel s := rfl
@[simp] theorem begun_gLcrec (s : State) : gLcrec s.begun = gLcrec s := rfl
@[simp] theorem begun_gKeyroot (s : State) : gKeyroot s.begun = gKeyroot s := rfl
@[simp] theorem begun_gMapRoot (s : State) : gMapRoot s.begun = gMapRoot s := rfl
@[simp] theorem begun_gTreeRoot (s : State) : gTreeRoot s.begun = gTreeRoot s := rfl
@[simp] theorem begun_gQuar (s : State) : gQuar s.begun = gQuar s := rfl
@[simp] theorem begun_gZpend (s : State) : gZpend s.begun = gZpend s := rfl
@[simp] theorem begun_gShadow (s : State) : gShadow s.begun = gShadow s := rfl
@[simp] theorem begun_gSupsnap (s : State) : gSupsnap s.begun = gSupsnap s := rfl
@[simp] theorem begun_gShore (s : State) : gShore s.begun = gShore s := rfl
@[simp] theorem begun_gGroup (s : State) : gGroup s.begun = gGroup s := rfl
@[simp] theorem begun_gParam (s : State) (n : Nat) : gParam s.begun n = gParam s n := rfl
@[simp] theorem begun_gMirror (s : State) : gMirror s.begun = gMirror s := rfl
@[simp] theorem begun_Ctr_tally (c : Ctr) (s : State) : Ctr.tally c s.begun = Ctr.tally c s := rfl
@[simp] theorem begun_gCounter (s : State) (c : Ctr) : gCounter s.begun c = gCounter s c := rfl
@[simp] theorem begun_vaonMv (s : State) : vaonMv s.begun = vaonMv s := rfl
@[simp] theorem begun_gGrant (s : State) (prio : Bool) : gGrant s.begun prio = gGrant s prio := rfl
@[simp] theorem begun_gHeld (s : State) (prio : Bool) : gHeld s.begun prio = gHeld s prio := rfl
@[simp] theorem begun_sliceOf (s : State) (n : Nat) : sliceOf s.begun n = sliceOf s n := rfl
@[simp] theorem begun_dirtyIn (s : State) (n : Nat) : dirtyIn s.begun n = dirtyIn s n := rfl
@[simp] theorem begun_dirtyLines (s : State) : dirtyLines s.begun = dirtyLines s := rfl
@[simp] theorem begun_haltReport (i : HaltInfo) (s : State) : haltReport i s.begun = haltReport i s := rfl
@[simp] theorem begun_treeRootNow (clean : Bool) (s : State) : treeRootNow clean s.begun = treeRootNow clean s := rfl
@[simp] theorem begun_portTrains (s : State) (h : Nat) : portTrains s.begun h = portTrains s h := rfl
@[simp] theorem begun_offeredWidth (s : State) (h : Nat) : offeredWidth s.begun h = offeredWidth s h := rfl
@[simp] theorem begun_offeredRate (s : State) (h : Nat) : offeredRate s.begun h = offeredRate s h := rfl
@[simp] theorem begun_linkTrained (s : State) (h : Nat) : linkTrained s.begun h = linkTrained s h := rfl
@[simp] theorem begun_trainable (s : State) (h : Nat) (width : Nat) (rate : Nat) :
    trainable s.begun h width rate = trainable s h width rate := rfl
@[simp] theorem begun_openReads (s : State) (h : Nat) : openReads s.begun h = openReads s h := rfl
@[simp] theorem begun_spdmOpen (s : State) (path : Nat) (session : Nat) : spdmOpen s.begun path session = spdmOpen s path session := rfl
@[simp] theorem begun_cdatEntries (s : State) (h : Nat) : cdatEntries s.begun h = cdatEntries s h := rfl
@[simp] theorem begun_cdatReply (s : State) (h : Nat) (entry : Nat) : cdatReply s.begun h entry = cdatReply s h entry := rfl
@[simp] theorem begun_icuRuns (s : State) : icuRuns s.begun = icuRuns s := rfl
@[simp] theorem begun_rootQueued (s : State) : rootQueued s.begun = rootQueued s := rfl
@[simp] theorem begun_sealable (s : State) (x : Slice) (e : EbEnt) : sealable s.begun x e = sealable s x e := rfl
@[simp] theorem begun_sealCands (s : State) (x : Slice) : sealCands s.begun x = sealCands s x := rfl
@[simp] theorem begun_sealNext (s : State) : sealNext s.begun = sealNext s := rfl
@[simp] theorem begun_mappedLines (s : State) (a : Nat) (b : Nat) : mappedLines s.begun a b = mappedLines s a b := rfl
@[simp] theorem begun_resealSet (s : State) (line : Nat) : resealSet s.begun line = resealSet s line := rfl
@[simp] theorem begun_nodeValid (s : State) (n : Nat) : nodeValid s.begun n = nodeValid s n := rfl
@[simp] theorem begun_pinnedGood (s : State) : pinnedGood s.begun = pinnedGood s := rfl
@[simp] theorem begun_rangesOk (s : State) (input : List Byte) (o : Nat) (n : Nat) :
    rangesOk s.begun input o n = rangesOk s input o n := rfl
@[simp] theorem begun_regionMode (s : State) : regionMode s.begun = regionMode s := rfl
@[simp] theorem begun_rangesFit (s : State) (key : Nat) (l : List (Nat × Nat)) : rangesFit s.begun key l = rangesFit s key l := rfl
@[simp] theorem begun_shoreEstimate (s : State) (reaches : Nat) : shoreEstimate s.begun reaches = shoreEstimate s reaches := rfl
@[simp] theorem begun_shoreBusy (s : State) : shoreBusy s.begun = shoreBusy s := rfl
@[simp] theorem begun_curNum (s : State) (k : Nat) : curNum s.begun k = curNum s k := rfl
@[simp] theorem begun_newNum (s : State) (k : Nat) : newNum s.begun k = newNum s k := rfl
@[simp] theorem begun_hotOffsets (s : State) (r : Nat) : hotOffsets s.begun r = hotOffsets s r := rfl
@[simp] theorem begun_reachWritten (s : State) (r : Nat) : reachWritten s.begun r = reachWritten s r := rfl
@[simp] theorem begun_strideQuarantined (s : State) (r : Nat) : strideQuarantined s.begun r = strideQuarantined s r := rfl
@[simp] theorem begun_strideCopy (s : State) (caps : List MergeEnt) (old : Option (Nat × Nat)) (o : Nat) :
    strideCopy s.begun caps old o = strideCopy s caps old o := rfl
@[simp] theorem begun_nodeMac (s : State) (level : Nat) (index : Nat) (body : List Byte) (ctr : Nat) :
    nodeMac s.begun level index body ctr = nodeMac s level index body ctr := rfl
@[simp] theorem begun_nodeGood (s : State) (level : Nat) (index : Nat) : nodeGood s.begun level index = nodeGood s level index := rfl
@[simp] theorem begun_onDie (s : State) (level : Nat) (index : Nat) : onDie s.begun level index = onDie s level index := rfl
@[simp] theorem begun_onDieRoom (s : State) : onDieRoom s.begun = onDieRoom s := rfl
@[simp] theorem begun_pondRoom (s : State) : pondRoom s.begun = pondRoom s := rfl
@[simp] theorem begun_lineCounters (s : State) (line : Nat) : lineCounters s.begun line = lineCounters s line := rfl
@[simp] theorem begun_needsMajor (s : State) (line : Nat) : needsMajor s.begun line = needsMajor s line := rfl
@[simp] theorem begun_majorWaits (s : State) (line : Nat) : majorWaits s.begun line = majorWaits s line := rfl
@[simp] theorem begun_sealWith (g : KeyGen) (line : Nat) (cls : Nat) (poison : Bool) (d : Line) (s : State) :
    sealWith g line cls poison d s.begun = sealWith g line cls poison d s := rfl
@[simp] theorem begun_shoreHas (s : State) (line : Nat) : shoreHas s.begun line = shoreHas s line := rfl
@[simp] theorem begun_shoreRunning (s : State) (key : Nat) : shoreRunning s.begun key = shoreRunning s key := rfl
@[simp] theorem begun_shoreHeld (s : State) : shoreHeld s.begun = shoreHeld s := rfl
@[simp] theorem begun_sealGen (s : State) (line : Nat) (key : Nat) : sealGen s.begun line key = sealGen s line key := rfl
@[simp] theorem begun_openGen (s : State) (line : Nat) (key : Nat) (gen : Nat) :
    openGen s.begun line key gen = openGen s line key gen := rfl
@[simp] theorem begun_pipesIn (s : State) (kind : Nat) : pipesIn s.begun kind = pipesIn s kind := rfl
@[simp] theorem begun_pipePick (s : State) (kind : Nat) (l : List Nat) : pipePick s.begun kind l = pipePick s kind l := rfl
@[simp] theorem begun_openAgent (s : State) (line : Nat) (path : Nat) : openAgent s.begun line path = openAgent s line path := rfl
@[simp] theorem begun_openInfo (s : State) (line : Nat) (key : Nat) (x : Sealed) (psa : Option Nat) (path : Nat) (head : Option Nat) (kind : Nat) (ident : Nat) (maj : Nat) (min : Nat) (comp : Nat) :
    openInfo s.begun line key x psa path head kind ident maj min comp = openInfo s line key x psa path head kind ident maj min comp := rfl
@[simp] theorem begun_leafFromMedia (s : State) (line : Nat) : leafFromMedia s.begun line = leafFromMedia s line := rfl
@[simp] theorem begun_nodeLoc (s : State) (leaf : Nat) (copy : Nat) : nodeLoc s.begun leaf copy = nodeLoc s leaf copy := rfl
@[simp] theorem begun_nodePsa (s : State) (leaf : Nat) (copy : Nat) : nodePsa s.begun leaf copy = nodePsa s leaf copy := rfl
@[simp] theorem begun_nodeBuffered (s : State) (leaf : Nat) : nodeBuffered s.begun leaf = nodeBuffered s leaf := rfl
@[simp] theorem begun_nodeChoice (s : State) (a : Nat) (b : Nat) : nodeChoice s.begun a b = nodeChoice s a b := rfl
@[simp] theorem begun_nodeSense (s : State) (leaf : Nat) (copy : Nat) (psa : Nat) :
    nodeSense s.begun leaf copy psa = nodeSense s leaf copy psa := rfl
@[simp] theorem begun_failedPsa (s : State) (line : Nat) (level : Nat) : failedPsa s.begun line level = failedPsa s line level := rfl
@[simp] theorem begun_dirtyG1 (s : State) : dirtyG1 s.begun = dirtyG1 s := rfl
@[simp] theorem begun_subtreeEmpty (s : State) (level : Nat) (index : Nat) :
    subtreeEmpty s.begun level index = subtreeEmpty s level index := rfl
@[simp] theorem begun_testMayRun (s : State) : testMayRun s.begun = testMayRun s := rfl
@[simp] theorem begun_cellAbsent (s : State) (k : Nat) : cellAbsent s.begun k = cellAbsent s k := rfl
@[simp] theorem begun_cellPowered (s : State) (k : Nat) : cellPowered s.begun k = cellPowered s k := rfl
@[simp] theorem begun_cellCapture (s : State) (k : Nat) (pin : Bool) : cellCapture s.begun k pin = cellCapture s k pin := rfl
@[simp] theorem begun_cellDrives (s : State) : cellDrives s.begun = cellDrives s := rfl
@[simp] theorem begun_idcode (s : State) : idcode s.begun = idcode s := rfl
@[simp] theorem begun_advCheck (s : State) (secured : Bool) (d : List Byte) : advCheck s.begun secured d = advCheck s secured d := rfl
@[simp] theorem begun_ebPlaced (s : State) (n : Nat) (line : Nat) : ebPlaced s.begun n line = ebPlaced s n line := rfl
@[simp] theorem begun_cleanNext (s : State) (n : Nat) : cleanNext s.begun n = cleanNext s n := rfl
@[simp] theorem begun_lcFirst (s : State) (path : Nat) : lcFirst s.begun path = lcFirst s path := rfl
@[simp] theorem begun_lcCheck (s : State) (path : Nat) (op : Nat) (first : Nat) (n : Nat) :
    lcCheck s.begun path op first n = lcCheck s path op first n := rfl
@[simp] theorem begun_lineEnd (s : State) : lineEnd s.begun = lineEnd s := rfl
@[simp] theorem begun_internalEnd (s : State) : internalEnd s.begun = internalEnd s := rfl
@[simp] theorem begun_isInternal (s : State) (l : Nat) : isInternal s.begun l = isInternal s l := rfl
@[simp] theorem begun_hdmDecode (s : State) (h : Nat) (hpa : Nat) : hdmDecode s.begun h hpa = hdmDecode s h hpa := rfl
@[simp] theorem begun_regionOf (s : State) (h : Nat) (line : Nat) : regionOf s.begun h line = regionOf s h line := rfl
@[simp] theorem begun_inRegions (s : State) (path : Nat) (a : Nat) (b : Nat) : inRegions s.begun path a b = inRegions s path a b := rfl
@[simp] theorem begun_quarantined (s : State) (line : Nat) : quarantined s.begun line = quarantined s line := rfl
@[simp] theorem begun_exhausted (s : State) (line : Nat) : exhausted s.begun line = exhausted s line := rfl
@[simp] theorem begun_mtlReadOnly (s : State) : mtlReadOnly s.begun = mtlReadOnly s := rfl
@[simp] theorem begun_deviceRo (s : State) (line : Nat) : deviceRo s.begun line = deviceRo s line := rfl
@[simp] theorem begun_roLine (s : State) (path : Nat) (line : Nat) : roLine s.begun path line = roLine s path line := rfl
@[simp] theorem begun_ctxOf (s : State) (k : Nat) : ctxOf s.begun k = ctxOf s k := rfl
@[simp] theorem begun_keyHolds (s : State) (k : Nat) : keyHolds s.begun k = keyHolds s k := rfl
@[simp] theorem begun_inPoisonList (s : State) (line : Nat) : inPoisonList s.begun line = inPoisonList s line := rfl
@[simp] theorem begun_fineFind (s : State) (l : Nat) : fineFind s.begun l = fineFind s l := rfl
@[simp] theorem begun_mtlLookup (s : State) (l : Nat) : mtlLookup s.begun l = mtlLookup s l := rfl
@[simp] theorem begun_lostEntry (s : State) (l : Nat) : lostEntry s.begun l = lostEntry s l := rfl
@[simp] theorem begun_cmdHead (s : State) (path : Nat) : cmdHead s.begun path = cmdHead s path := rfl
@[simp] theorem begun_pciVid (s : State) : pciVid s.begun = pciVid s := rfl
@[simp] theorem begun_headIdentity (s : State) : headIdentity s.begun = headIdentity s := rfl
@[simp] theorem begun_eventBytes (s : State) (k : Nat) (e : EvRec) : eventBytes s.begun k e = eventBytes s k e := rfl
@[simp] theorem begun_calLocked (s : State) : calLocked s.begun = calLocked s := rfl
@[simp] theorem begun_lifeS (s : State) : lifeS s.begun = lifeS s := rfl
@[simp] theorem begun_lifeD (s : State) : lifeD s.begun = lifeD s := rfl
@[simp] theorem begun_lifeUsed (s : State) : lifeUsed s.begun = lifeUsed s := rfl
@[simp] theorem begun_dieTemp (s : State) : dieTemp s.begun = dieTemp s := rfl
@[simp] theorem begun_scanRange (s : State) (h : Nat) (inp : List Byte) : scanRange s.begun h inp = scanRange s h inp := rfl
@[simp] theorem begun_scanReads (s : State) (line : Nat) : scanReads s.begun line = scanReads s line := rfl
@[simp] theorem begun_dcRegions (s : State) (h : Nat) : dcRegions s.begun h = dcRegions s h := rfl
@[simp] theorem begun_learnOf (s : State) (k : Nat) (deeps : Bool) (a : Nat) : learnOf s.begun k deeps a = learnOf s k deeps a := rfl
@[simp] theorem begun_calEntry (s : State) (k : Nat) (j : Nat) (i : Nat) : calEntry s.begun k j i = calEntry s k j i := rfl
@[simp] theorem begun_refOffset (s : State) (k : Nat) (deeps : Bool) (a : Nat) (j : Nat) :
    refOffset s.begun k deeps a j = refOffset s k deeps a j := rfl
@[simp] theorem begun_psaMode (s : State) (p : Nat) : psaMode s.begun p = psaMode s p := rfl
@[simp] theorem begun_senseShift (s : State) (x : Sense) : senseShift s.begun x = senseShift s x := rfl
@[simp] theorem begun_engineRuns (s : State) (ch : Nat) : engineRuns s.begun ch = engineRuns s ch := rfl
@[simp] theorem begun_dieFree (s : State) (k : Nat) : dieFree s.begun k = dieFree s k := rfl
@[simp] theorem begun_psaRefused (s : State) (p : Nat) : psaRefused s.begun p = psaRefused s p := rfl
@[simp] theorem begun_recovering (s : State) (k : Nat) : recovering s.begun k = recovering s k := rfl
@[simp] theorem begun_reconDone (s : State) (k : Nat) : reconDone s.begun k = reconDone s k := rfl
@[simp] theorem begun_shoreProg (s : State) (b : BlockSet) (x : Prog) : shoreProg s.begun b x = shoreProg s b x := rfl
@[simp] theorem begun_progClass (s : State) (x : Prog) : progClass s.begun x = progClass s x := rfl
@[simp] theorem begun_dataInWaits (s : State) (d : Die) : dataInWaits s.begun d = dataInWaits s d := rfl
@[simp] theorem begun_slotWants (s : State) (c : Nat) : slotWants s.begun c = slotWants s c := rfl
@[simp] theorem begun_slotHost (s : State) (c : Nat) : slotHost s.begun c = slotHost s c := rfl
@[simp] theorem begun_slotClass (s : State) (c : Nat) (minimum : Bool) : slotClass s.begun c minimum = slotClass s c minimum := rfl
@[simp] theorem begun_windowHeld (s : State) (c : Nat) : windowHeld s.begun c = windowHeld s c := rfl
@[simp] theorem begun_paused (s : State) (k : Nat) : paused s.begun k = paused s k := rfl
@[simp] theorem begun_progRefused (s : State) (c : Nat) (p : Prog) : progRefused s.begun c p = progRefused s c p := rfl
@[simp] theorem begun_mayStart (s : State) (k : Nat) : mayStart s.begun k = mayStart s k := rfl
@[simp] theorem begun_planWork (s : State) (k : Nat) (cls : Nat) : planWork s.begun k cls = planWork s k cls := rfl
@[simp] theorem begun_sampleClasses (s : State) (k : Nat) : sampleClasses s.begun k = sampleClasses s k := rfl
@[simp] theorem begun_sampleNext (s : State) (k : Nat) : sampleNext s.begun k = sampleNext s k := rfl
@[simp] theorem begun_incRecord (s : State) (k : Nat) (v : Nat) : incRecord s.begun k v = incRecord s k v := rfl
@[simp] theorem begun_expectedInc (s : State) (k : Nat) : expectedInc s.begun k = expectedInc s k := rfl
@[simp] theorem begun_heldSenses (s : State) (k : Nat) : heldSenses s.begun k = heldSenses s k := rfl
@[simp] theorem begun_daOffsets (s : State) (c : Nat) (deeps : Bool) : daOffsets s.begun c deeps = daOffsets s c deeps := rfl
@[simp] theorem begun_infoBytes (s : State) (k : Nat) : infoBytes s.begun k = infoBytes s k := rfl
@[simp] theorem begun_dieOf (s : State) (k : Nat) : dieOf s.begun k = dieOf s k := rfl
@[simp] theorem begun_chanOf (s : State) (c : Nat) : chanOf s.begun c = chanOf s c := rfl
@[simp] theorem begun_chanState (s : State) (c : Nat) : chanState s.begun c = chanState s c := rfl
@[simp] theorem begun_dieState (s : State) (k : Nat) : dieState s.begun k = dieState s k := rfl
@[simp] theorem begun_dieOnline (s : State) (k : Nat) : dieOnline s.begun k = dieOnline s k := rfl
@[simp] theorem begun_dieTakes (s : State) (k : Nat) : dieTakes s.begun k = dieTakes s k := rfl
@[simp] theorem begun_setOf (s : State) (n : Nat) : setOf s.begun n = setOf s n := rfl
@[simp] theorem begun_pageBody (s : State) (n : Nat) (q : Nat) : pageBody s.begun n q = pageBody s n q := rfl
@[simp] theorem begun_sealedAt (s : State) (n : Nat) (q : Nat) (i : Nat) : sealedAt s.begun n q i = sealedAt s n q i := rfl
@[simp] theorem begun_locPsa (s : State) (l : Loc) : locPsa s.begun l = locPsa s l := rfl
@[simp] theorem begun_inWbuf (s : State) (n : Nat) (q : Nat) : inWbuf s.begun n q = inWbuf s n q := rfl
@[simp] theorem begun_cycNow (s : State) (c : Nat) : cycNow s.begun c = cycNow s c := rfl
@[simp] theorem begun_goodShip (s : State) : goodShip s.begun = goodShip s := rfl
@[simp] theorem begun_psaSet (s : State) (p : Nat) : psaSet s.begun p = psaSet s p := rfl
@[simp] theorem begun_peerLost (s : State) (b : BlockSet) (m : Nat) : peerLost s.begun b m = peerLost s b m := rfl
@[simp] theorem begun_injInsts (s : State) (point : Nat) (inst : Nat) : injInsts s.begun point inst = injInsts s point inst := rfl
@[simp] theorem begun_injReason (s : State) (path : Nat) (v : BitVec 32) : injReason s.begun path v = injReason s path v := rfl
@[simp] theorem begun_ceBit (s : State) : ceBit s.begun = ceBit s := rfl
@[simp] theorem begun_injArmed (s : State) (point : Nat) (inst : Nat) : injArmed s.begun point inst = injArmed s point inst := rfl
@[simp] theorem begun_injQualifies (s : State) (cls : Nat) (inst : Nat) (word : Nat) (side : Nat) (agent : Nat) :
    injQualifies s.begun cls inst word side agent = injQualifies s cls inst word side agent := rfl
@[simp] theorem begun_injWord (s : State) (cls : Nat) (inst : Nat) (base : Nat) (n : Nat) :
    injWord s.begun cls inst base n = injWord s cls inst base n := rfl
@[simp] theorem begun_sessionOpen (s : State) (path : Nat) : sessionOpen s.begun path = sessionOpen s path := rfl
@[simp] theorem begun_isSecured (s : State) (path : Nat) (secured : Bool) :
    isSecured s.begun path secured = isSecured s path secured := rfl
@[simp] theorem begun_needsSession (s : State) (lc : Bool) : needsSession s.begun lc = needsSession s lc := rfl
@[simp] theorem begun_tutServes (s : State) : tutServes s.begun = tutServes s := rfl
@[simp] theorem begun_recentRestarts (s : State) : recentRestarts s.begun = recentRestarts s := rfl
@[simp] theorem begun_spdmCount (s : State) (path : Nat) : spdmCount s.begun path = spdmCount s path := rfl
@[simp] theorem begun_tokenCheck (s : State) (d : List Byte) : tokenCheck s.begun d = tokenCheck s d := rfl
@[simp] theorem begun_statAddr (s : State) : statAddr s.begun = statAddr s := rfl
@[simp] theorem begun_tutBus (s : State) : tutBus s.begun = tutBus s := rfl
@[simp] theorem begun_hasEid (s : State) : hasEid s.begun = hasEid s := rfl
@[simp] theorem begun_sensorValue (s : State) (id : Nat) : sensorValue s.begun id = sensorValue s id := rfl
@[simp] theorem begun_sensorLimits (s : State) (id : Nat) : sensorLimits s.begun id = sensorLimits s id := rfl
@[simp] theorem begun_pdr (s : State) (id : Nat) : pdr s.begun id = pdr s id := rfl
@[simp] theorem begun_spdmOf (s : State) (path : Nat) : spdmOf s.begun path = spdmOf s path := rfl
@[simp] theorem begun_glbWords (s : State) : glbWords s.begun = glbWords s := rfl
@[simp] theorem begun_measurement (s : State) (n : Nat) : measurement s.begun n = measurement s n := rfl
@[simp] theorem begun_measBlock (s : State) (n : Nat) : measBlock s.begun n = measBlock s n := rfl
@[simp] theorem begun_blockClamped (s : State) (a : Nat) : blockClamped s.begun a = blockClamped s a := rfl
@[simp] theorem begun_tutHeld (s : State) (write : Bool) (a : Nat) : tutHeld s.begun write a = tutHeld s write a := rfl
@[simp] theorem begun_pathReaches (s : State) (path : Nat) : pathReaches s.begun path = pathReaches s path := rfl
@[simp] theorem begun_peek (s : State) (path : Nat) (a : Nat) : peek s.begun path a = peek s path a := rfl
@[simp] theorem begun_windowHeldMmio (s : State) (write : Bool) (count : Nat) (offset : Nat) :
    windowHeldMmio s.begun write count offset = windowHeldMmio s write count offset := rfl
@[simp] theorem begun_dmvThere (s : State) (n : Nat) : dmvThere s.begun n = dmvThere s n := rfl
@[simp] theorem begun_moverKey (s : State) (p : Nat) (line : Nat) (kidx : Nat) :
    moverKey s.begun p line kidx = moverKey s p line kidx := rfl
@[simp] theorem begun_dmvCheck (s : State) (p : Nat) (d : List Byte) : dmvCheck s.begun p d = dmvCheck s p d := rfl
@[simp] theorem begun_mtlRuns (s : State) : mtlRuns s.begun = mtlRuns s := rfl
@[simp] theorem begun_mtlBackground (s : State) : mtlBackground s.begun = mtlBackground s := rfl
@[simp] theorem begun_placeWaits (s : State) (reach : Nat) : placeWaits s.begun reach = placeWaits s reach := rfl
@[simp] theorem begun_foldable (s : State) (r : MergeRec) : foldable s.begun r = foldable s r := rfl
@[simp] theorem begun_foldPick (s : State) : foldPick s.begun = foldPick s := rfl
@[simp] theorem begun_foldSeqNow (s : State) : foldSeqNow s.begun = foldSeqNow s := rfl
@[simp] theorem begun_entSealed (s : State) (e : MergeEnt) : entSealed s.begun e = entSealed s e := rfl
@[simp] theorem begun_validLines (s : State) (sset : Nat) : validLines s.begun sset = validLines s sset := rfl
@[simp] theorem begun_validReaches (s : State) (n : Nat) : validReaches s.begun n = validReaches s n := rfl
@[simp] theorem begun_validCount (s : State) (n : Nat) (b : BlockSet) : validCount s.begun n b = validCount s n b := rfl
@[simp] theorem begun_setScore (s : State) (n : Nat) (b : BlockSet) : setScore s.begun n b = setScore s n b := rfl
@[simp] theorem begun_fullSets (s : State) : fullSets s.begun = fullSets s := rfl
@[simp] theorem begun_onRetired (s : State) (b : BlockSet) : onRetired s.begun b = onRetired s b := rfl
@[simp] theorem begun_hasSuspect (s : State) (b : BlockSet) : hasSuspect s.begun b = hasSuspect s b := rfl
@[simp] theorem begun_wearRange (s : State) (k : Nat) : wearRange s.begun k = wearRange s k := rfl
@[simp] theorem begun_levelPick (s : State) : levelPick s.begun = levelPick s := rfl
@[simp] theorem begun_dredgeWants (s : State) : dredgeWants s.begun = dredgeWants s := rfl
@[simp] theorem begun_dredgeChoose (s : State) : dredgeChoose s.begun = dredgeChoose s := rfl
@[simp] theorem begun_lineKeyOf (s : State) (line : Nat) : lineKeyOf s.begun line = lineKeyOf s line := rfl
@[simp] theorem begun_movingLines (s : State) (d : Dredge) : movingLines s.begun d = movingLines s d := rfl
@[simp] theorem begun_isCold (s : State) (n : Nat) (slot : Nat) : isCold s.begun n slot = isCold s n slot := rfl
@[simp] theorem begun_isHot (s : State) (l : Nat) : isHot s.begun l = isHot s l := rfl
@[simp] theorem begun_setInUse (s : State) (n : Nat) (b : BlockSet) : setInUse s.begun n b = setInUse s n b := rfl
@[simp] theorem begun_intentPending (s : State) (n : Nat) : intentPending s.begun n = intentPending s n := rfl
@[simp] theorem begun_ckptPages (s : State) : ckptPages s.begun = ckptPages s := rfl
@[simp] theorem begun_ckptEnded (s : State) (gen : Nat) : ckptEnded s.begun gen = ckptEnded s gen := rfl
@[simp] theorem begun_shallowsUsed (s : State) : shallowsUsed s.begun = shallowsUsed s := rfl
@[simp] theorem begun_shallowsPages (s : State) : shallowsPages s.begun = shallowsPages s := rfl
@[simp] theorem begun_freePercent (s : State) : freePercent s.begun = freePercent s := rfl
@[simp] theorem begun_shareRow (s : State) : shareRow s.begun = shareRow s := rfl
@[simp] theorem begun_mediaRows (s : State) (b : BlockSet) : mediaRows s.begun b = mediaRows s b := rfl
@[simp] theorem begun_manifest (s : State) (from_ : Nat) (dead : List (Nat × Nat)) (n : Nat) (b : BlockSet) :
    manifest s.begun from_ dead n b = manifest s from_ dead n b := rfl
@[simp] theorem begun_entrySeq (s : State) (l : Nat) : entrySeq s.begun l = entrySeq s l := rfl
@[simp] theorem begun_pageGone (s : State) (erased : List (Nat × Nat)) (n : Nat) (q : Nat) :
    pageGone s.begun erased n q = pageGone s erased n q := rfl
@[simp] theorem begun_pageLines (s : State) (n : Nat) (q : Nat) : pageLines s.begun n q = pageLines s n q := rfl
@[simp] theorem begun_referredPages (s : State) : referredPages s.begun = referredPages s := rfl
@[simp] theorem begun_pageRebuilds (s : State) (erased : List (Nat × Nat)) (n : Nat) (q : Nat) :
    pageRebuilds s.begun erased n q = pageRebuilds s erased n q := rfl
@[simp] theorem begun_rebuiltLine (s : State) (n : Nat) (q : Nat) (i : Nat) : rebuiltLine s.begun n q i = rebuiltLine s n q i := rfl
@[simp] theorem begun_linesOn (s : State) (n : Nat) (q : Nat) : linesOn s.begun n q = linesOn s n q := rfl
@[simp] theorem begun_widthChans (s : State) : widthChans s.begun = widthChans s := rfl
@[simp] theorem begun_memberChans (s : State) (die : Nat) : memberChans s.begun die = memberChans s die := rfl
@[simp] theorem begun_widthNow (s : State) : widthNow s.begun = widthNow s := rfl
@[simp] theorem begun_laneReady (s : State) (die : Nat) : laneReady s.begun die = laneReady s die := rfl
@[simp] theorem begun_usedBlocks (s : State) (ch : Nat) (die : Nat) (plane : Nat) :
    usedBlocks s.begun ch die plane = usedBlocks s ch die plane := rfl
@[simp] theorem begun_badBlocks (s : State) (ch : Nat) (die : Nat) (plane : Nat) :
    badBlocks s.begun ch die plane = badBlocks s ch die plane := rfl
@[simp] theorem begun_wearOf (s : State) (ch : Nat) (die : Nat) (plane : Nat) (b : Nat) :
    wearOf s.begun ch die plane b = wearOf s ch die plane b := rfl
@[simp] theorem begun_freeCount (s : State) (ch : Nat) (die : Nat) (plane : Nat) :
    freeCount s.begun ch die plane = freeCount s ch die plane := rfl
@[simp] theorem begun_freeSets (s : State) : freeSets s.begun = freeSets s := rfl
@[simp] theorem begun_goodBlocks (s : State) : goodBlocks s.begun = goodBlocks s := rfl
@[simp] theorem begun_logMiB (s : State) : logMiB s.begun = logMiB s := rfl
@[simp] theorem begun_jDurable (s : State) (n : Nat) : jDurable s.begun n = jDurable s n := rfl
@[simp] theorem begun_mayOpen (s : State) (kind : Nat) (die : Nat) : mayOpen s.begun kind die = mayOpen s kind die := rfl
@[simp] theorem begun_bufRoom (s : State) (n : Nat) : bufRoom s.begun n = bufRoom s n := rfl
@[simp] theorem begun_closedPage (s : State) (n : Nat) (b : BlockSet) (q : Nat) : closedPage s.begun n b q = closedPage s n b q := rfl
@[simp] theorem begun_nextWl (s : State) (b : BlockSet) (m : Nat) : nextWl s.begun b m = nextWl s b m := rfl
@[simp] theorem begun_canProgram (s : State) (n : Nat) (b : BlockSet) (m : Nat) (wl : Nat) :
    canProgram s.begun n b m wl = canProgram s n b m wl := rfl
@[simp] theorem begun_bucketOf (s : State) (l : Nat) : bucketOf s.begun l = bucketOf s l := rfl
@[simp] theorem begun_mergeLimit (s : State) : mergeLimit s.begun = mergeLimit s := rfl
@[simp] theorem begun_mergeOf (s : State) (reach : Nat) : mergeOf s.begun reach = mergeOf s reach := rfl
@[simp] theorem begun_refersTo (s : State) (l : Nat) (sset : Nat) (slot : Nat) :
    refersTo s.begun l sset slot = refersTo s l sset slot := rfl
@[simp] theorem begun_ssetOf (s : State) (n : Nat) : ssetOf s.begun n = ssetOf s n := rfl
@[simp] theorem begun_reachLines (s : State) (set : Nat) (slot : Nat) : reachLines s.begun set slot = reachLines s set slot := rfl
@[simp] theorem begun_reachDurable (s : State) (set : Nat) (slot : Nat) : reachDurable s.begun set slot = reachDurable s set slot := rfl
@[simp] theorem begun_pageDurable (s : State) (set : Nat) (q : Nat) : pageDurable s.begun set q = pageDurable s set q := rfl
@[simp] theorem begun_headroom (s : State) : headroom s.begun = headroom s := rfl
@[simp] theorem begun_facing (s : State) (n : Nat) : facing s.begun n = facing s n := rfl
@[simp] theorem begun_faces (s : State) (a : Nat) (b : Nat) : faces s.begun a b = faces s a b := rfl
@[simp] theorem begun_behind (s : State) (n : Nat) : behind s.begun n = behind s n := rfl
@[simp] theorem begun_nrwConfigBad (s : State) : nrwConfigBad s.begun = nrwConfigBad s := rfl
@[simp] theorem begun_nrwOwnState (s : State) : nrwOwnState s.begun = nrwOwnState s := rfl
@[simp] theorem begun_amSource (s : State) (p : Nat) : amSource s.begun p = amSource s p := rfl
@[simp] theorem begun_regionsAll (s : State) : regionsAll s.begun = regionsAll s := rfl
@[simp] theorem begun_regionsSet (s : State) (m : NMem) : regionsSet s.begun m = regionsSet s m := rfl
@[simp] theorem begun_fenceDue (s : State) (p : Nat) (cause : Nat) : fenceDue s.begun p cause = fenceDue s p cause := rfl
@[simp] theorem begun_serialOk (s : State) (p : Nat) (serial : Nat) : serialOk s.begun p serial = serialOk s p serial := rfl
@[simp] theorem begun_ackable (s : State) : ackable s.begun = ackable s := rfl
@[simp] theorem begun_relayTo (s : State) (n : Nat) : relayTo s.begun n = relayTo s n := rfl
@[simp] theorem begun_nrwKey (s : State) (line : Nat) : nrwKey s.begun line = nrwKey s line := rfl
@[simp] theorem begun_nextRegion (s : State) (m : NMem) (r : Nat) : nextRegion s.begun m r = nextRegion s m r := rfl
@[simp] theorem begun_unwritten (s : State) (reach : Nat) : unwritten s.begun reach = unwritten s reach := rfl
@[simp] theorem begun_groupOut (s : State) : groupOut s.begun = groupOut s := rfl
@[simp] theorem begun_groupCheck (s : State) (d : List Byte) : groupCheck s.begun d = groupCheck s d := rfl
@[simp] theorem begun_nrwUnacked (s : State) : nrwUnacked s.begun = nrwUnacked s := rfl
@[simp] theorem begun_nrwMustStay (asked : Nat) (s : State) : nrwMustStay asked s.begun = nrwMustStay asked s := rfl
@[simp] theorem begun_ndxFields (s : State) (r : NdxRec) : ndxFields s.begun r = ndxFields s r := rfl
@[simp] theorem begun_ndxSkip (s : State) (r : NdxRec) : ndxSkip s.begun r = ndxSkip s r := rfl
@[simp] theorem begun_ndxCheckRec (s : State) (before : List NdxRec) (r : NdxRec) :
    ndxCheckRec s.begun before r = ndxCheckRec s before r := rfl
@[simp] theorem begun_capacityUnits (s : State) : capacityUnits s.begun = capacityUnits s := rfl
@[simp] theorem begun_ndxCross (s : State) (l : List NdxRec) : ndxCross s.begun l = ndxCross s l := rfl
@[simp] theorem begun_ndxCfg (s : State) (b : List Byte) (all : List NdxRec) : ndxCfg s.begun b all = ndxCfg s b all := rfl
@[simp] theorem begun_slotImage (s : State) (slot : Nat) : slotImage s.begun slot = slotImage s slot := rfl
@[simp] theorem begun_ndxOther (s : State) (path : Nat) : ndxOther s.begun path = ndxOther s path := rfl
@[simp] theorem begun_ndxRefused (s : State) : ndxRefused s.begun = ndxRefused s := rfl
@[simp] theorem begun_mappedUnits (s : State) : mappedUnits s.begun = mappedUnits s := rfl
@[simp] theorem begun_unitConflict (s : State) (c : ImageCfg) (unit : Nat) : unitConflict s.begun c unit = unitConflict s c unit := rfl
@[simp] theorem begun_rangeInUse (s : State) (c : ImageCfg) : rangeInUse s.begun c = rangeInUse s c := rfl
@[simp] theorem begun_fwWriting (s : State) : fwWriting s.begun = fwWriting s := rfl
@[simp] theorem begun_ndxTarget (s : State) : ndxTarget s.begun = ndxTarget s := rfl
@[simp] theorem begun_ndxWriting (s : State) : ndxWriting s.begun = ndxWriting s := rfl
@[simp] theorem begun_linkOf (s : State) (n : Nat) : linkOf s.begun n = linkOf s n := rfl
@[simp] theorem begun_memOf (s : State) (p : Nat) : memOf s.begun p = memOf s p := rfl
@[simp] theorem begun_cfgNrw (s : State) : cfgNrw s.begun = cfgNrw s := rfl
@[simp] theorem begun_ownPos (s : State) : ownPos s.begun = ownPos s := rfl
@[simp] theorem begun_boardCount (s : State) : boardCount s.begun = boardCount s := rfl
@[simp] theorem begun_linkEnabled (s : State) (n : Nat) : linkEnabled s.begun n = linkEnabled s n := rfl
@[simp] theorem begun_peers (s : State) : peers s.begun = peers s := rfl
@[simp] theorem begun_linkTo (s : State) (p : Nat) (line : Nat) : linkTo s.begun p line = linkTo s p line := rfl
@[simp] theorem begun_nrwPrimary (s : State) : nrwPrimary s.begun = nrwPrimary s := rfl
@[simp] theorem begun_nrwReplica (s : State) : nrwReplica s.begun = nrwReplica s := rfl
@[simp] theorem begun_linkRuns (s : State) (n : Nat) : linkRuns s.begun n = linkRuns s n := rfl
@[simp] theorem begun_nrwSync (s : State) : nrwSync s.begun = nrwSync s := rfl
@[simp] theorem begun_nrwBlocked (s : State) : nrwBlocked s.begun = nrwBlocked s := rfl
@[simp] theorem begun_nrwReadOnly (s : State) : nrwReadOnly s.begun = nrwReadOnly s := rfl
@[simp] theorem begun_fetchWanted (s : State) (line : Nat) (head : Nat) : fetchWanted s.begun line head = fetchWanted s line head := rfl
@[simp] theorem begun_obsThere (s : State) : obsThere s.begun = obsThere s := rfl
@[simp] theorem begun_plumbWord (s : State) (n : Nat) : plumbWord s.begun n = plumbWord s n := rfl
@[simp] theorem begun_plumbOwner (s : State) (path : Nat) : plumbOwner s.begun path = plumbOwner s path := rfl
@[simp] theorem begun_plumbStopDue (s : State) (cause : Nat) : plumbStopDue s.begun cause = plumbStopDue s cause := rfl
@[simp] theorem begun_ctlRead (s : State) (a : Nat) : ctlRead s.begun a = ctlRead s a := rfl
@[simp] theorem begun_oldestFrame (s : State) : oldestFrame s.begun = oldestFrame s := rfl
@[simp] theorem begun_levelNoToken (s : State) : levelNoToken s.begun = levelNoToken s := rfl
@[simp] theorem begun_levelNow (s : State) : levelNow s.begun = levelNow s := rfl
@[simp] theorem begun_levelInputs (s : State) : levelInputs s.begun = levelInputs s := rfl
@[simp] theorem begun_State_reg (s : State) (a : Nat) : State.reg s.begun a = State.reg s a := rfl
@[simp] theorem begun_fld (s : State) (f : Fld) : fld s.begun f = fld s f := rfl
@[simp] theorem begun_bit (s : State) (f : Fld) : bit s.begun f = bit s f := rfl
@[simp] theorem begun_nodeImage (s : State) (level : Nat) (i : Nat) : nodeImage s.begun level i = nodeImage s level i := rfl
@[simp] theorem begun_nodeInfo (s : State) (seq : Nat) (up : Nat) (i : Nat) (k : Nat) :
    nodeInfo s.begun seq up i k = nodeInfo s seq up i k := rfl
@[simp] theorem begun_dataInfo (s : State) (psa : Nat) (p : PageBody) (i : Nat) : dataInfo s.begun psa p i = dataInfo s psa p i := rfl
@[simp] theorem begun_memberInfo (s : State) (n : Nat) (b : BlockSet) (p : Nat) (m : Nat) (i : Nat) :
    memberInfo s.begun n b p m i = memberInfo s n b p m i := rfl
@[simp] theorem begun_parityInfo (s : State) (n : Nat) (b : BlockSet) (p : Nat) (i : Nat) :
    parityInfo s.begun n b p i = parityInfo s n b p i := rfl
@[simp] theorem begun_sectorInfo (s : State) (psa : Nat) (p : PageBody) (i : Nat) :
    sectorInfo s.begun psa p i = sectorInfo s psa p i := rfl
@[simp] theorem begun_sectorRaw (s : State) (psa : Nat) (p : PageBody) (i : Nat) :
    sectorRaw s.begun psa p i = sectorRaw s psa p i := rfl
@[simp] theorem begun_rebuiltInfo (s : State) (psa : Nat) : rebuiltInfo s.begun psa = rebuiltInfo s psa := rfl
@[simp] theorem begun_plumbPasses (s : State) (h : Nat) (kind : Nat) (key : Nat) :
    plumbPasses s.begun h kind key = plumbPasses s h kind key := rfl
@[simp] theorem begun_idleNeeds (s : State) : idleNeeds s.begun = idleNeeds s := rfl
@[simp] theorem begun_idleMay (s : State) : idleMay s.begun = idleMay s := rfl
@[simp] theorem begun_pwrShown (s : State) : pwrShown s.begun = pwrShown s := rfl
@[simp] theorem begun_pwrOut (s : State) : pwrOut s.begun = pwrOut s := rfl
@[simp] theorem begun_pwrCheck (s : State) (path : Nat) (target : Nat) (reserved : Bool) :
    pwrCheck s.begun path target reserved = pwrCheck s path target reserved := rfl
@[simp] theorem begun_askedUnit (s : State) : askedUnit s.begun = askedUnit s := rfl
@[simp] theorem begun_unitClamped (s : State) (u : Nat) : unitClamped s.begun u = unitClamped s u := rfl
@[simp] theorem begun_unitRefuses (s : State) (e : Entry) (u : Nat) : unitRefuses s.begun e u = unitRefuses s e u := rfl
@[simp] theorem begun_shadowNow (s : State) : shadowNow s.begun = shadowNow s := rfl
@[simp] theorem begun_bankThere (s : State) (b : Nat) : bankThere s.begun b = bankThere s b := rfl
@[simp] theorem begun_partNo (s : State) : partNo s.begun = partNo s := rfl
@[simp] theorem begun_fusedPorts (s : State) : fusedPorts s.begun = fusedPorts s := rfl
@[simp] theorem begun_fusedChans (s : State) : fusedChans s.begun = fusedChans s := rfl
@[simp] theorem begun_fusedCtx (s : State) : fusedCtx s.begun = fusedCtx s := rfl
@[simp] theorem begun_keyLimit (s : State) : keyLimit s.begun = keyLimit s := rfl
@[simp] theorem begun_fusedSeal (s : State) : fusedSeal s.begun = fusedSeal s := rfl
@[simp] theorem begun_fusedPlumb (s : State) : fusedPlumb s.begun = fusedPlumb s := rfl
@[simp] theorem begun_fusedNrw (s : State) : fusedNrw s.begun = fusedNrw s := rfl
@[simp] theorem begun_railFailed (s : State) (n : Nat) : railFailed s.begun n = railFailed s n := rfl
@[simp] theorem begun_imgEnable (s : State) : imgEnable s.begun = imgEnable s := rfl
@[simp] theorem begun_imgPorts (s : State) : imgPorts s.begun = imgPorts s := rfl
@[simp] theorem begun_imgSeal (s : State) : imgSeal s.begun = imgSeal s := rfl
@[simp] theorem begun_imgPlumb (s : State) : imgPlumb s.begun = imgPlumb s := rfl
@[simp] theorem begun_imgNrw (s : State) : imgNrw s.begun = imgNrw s := rfl
@[simp] theorem begun_imgSounding (s : State) : imgSounding s.begun = imgSounding s := rfl
@[simp] theorem begun_railAbsent (s : State) : railAbsent s.begun = railAbsent s := rfl
@[simp] theorem begun_unitOn (s : State) (n : Nat) : unitOn s.begun n = unitOn s n := rfl
@[simp] theorem begun_unitsWord (s : State) : unitsWord s.begun = unitsWord s := rfl
@[simp] theorem begun_sealOn (s : State) : sealOn s.begun = sealOn s := rfl
@[simp] theorem begun_plumbOn (s : State) : plumbOn s.begun = plumbOn s := rfl
@[simp] theorem begun_nrwOn (s : State) : nrwOn s.begun = nrwOn s := rfl
@[simp] theorem begun_soundingOn (s : State) : soundingOn s.begun = soundingOn s := rfl
@[simp] theorem begun_headOn (s : State) (h : Nat) : headOn s.begun h = headOn s h := rfl
@[simp] theorem begun_headsOn (s : State) : headsOn s.begun = headsOn s := rfl
@[simp] theorem begun_chanOn (s : State) (c : Nat) : chanOn s.begun c = chanOn s c := rfl
@[simp] theorem begun_capFused (s : State) : capFused s.begun = capFused s := rfl
@[simp] theorem begun_capWord (s : State) : capWord s.begun = capWord s := rfl
@[simp] theorem begun_fineBits (s : State) : fineBits s.begun = fineBits s := rfl
@[simp] theorem begun_fineTag (s : State) (l : Nat) : fineTag s.begun l = fineTag s l := rfl
@[simp] theorem begun_fineBucket (s : State) (l : Nat) : fineBucket s.begun l = fineBucket s l := rfl
@[simp] theorem begun_fineLine (s : State) (bucket : Nat) (tag : Nat) : fineLine s.begun bucket tag = fineLine s bucket tag := rfl
@[simp] theorem begun_cfgThermal (s : State) : cfgThermal s.begun = cfgThermal s := rfl
@[simp] theorem begun_cfgHyst (s : State) : cfgHyst s.begun = cfgHyst s := rfl
@[simp] theorem begun_cfgErase (s : State) : cfgErase s.begun = cfgErase s := rfl
@[simp] theorem begun_cfgEvlogMin (s : State) : cfgEvlogMin s.begun = cfgEvlogMin s := rfl
@[simp] theorem begun_cfgAlertMin (s : State) : cfgAlertMin s.begun = cfgAlertMin s := rfl
@[simp] theorem begun_cfgLevelMax (s : State) : cfgLevelMax s.begun = cfgLevelMax s := rfl
@[simp] theorem begun_cfgTokenReq (s : State) : cfgTokenReq s.begun = cfgTokenReq s := rfl
@[simp] theorem begun_cfgWayMask (s : State) (h : Nat) : cfgWayMask s.begun h = cfgWayMask s h := rfl
@[simp] theorem begun_cfgRegions (s : State) : cfgRegions s.begun = cfgRegions s := rfl
@[simp] theorem begun_headRegions (s : State) (h : Nat) : headRegions s.begun h = headRegions s h := rfl
@[simp] theorem begun_headCap (s : State) (h : Nat) : headCap s.begun h = headCap s h := rfl
@[simp] theorem begun_cfgPort (s : State) (h : Nat) : cfgPort s.begun h = cfgPort s h := rfl
@[simp] theorem begun_tagged (s : State) (h : Nat) : tagged s.begun h = tagged s h := rfl
@[simp] theorem begun_ideReq (s : State) (h : Nat) : ideReq s.begun h = ideReq s h := rfl
@[simp] theorem begun_mode (s : State) : mode s.begun = mode s := rfl
@[simp] theorem begun_inHalt (s : State) : inHalt s.begun = inHalt s := rfl
@[simp] theorem begun_mgmtOnly (s : State) : mgmtOnly s.begun = mgmtOnly s := rfl
@[simp] theorem begun_lifecycle (s : State) : lifecycle s.begun = lifecycle s := rfl
@[simp] theorem begun_inGuard (s : State) : inGuard s.begun = inGuard s := rfl
@[simp] theorem begun_inFlush (s : State) : inFlush s.begun = inFlush s := rfl
@[simp] theorem begun_inRecovery (s : State) : inRecovery s.begun = inRecovery s := rfl
@[simp] theorem begun_mgmtHeld (s : State) : mgmtHeld s.begun = mgmtHeld s := rfl
@[simp] theorem begun_tickInEpoch (s : State) : tickInEpoch s.begun = tickInEpoch s := rfl
@[simp] theorem begun_epoch (s : State) : epoch s.begun = epoch s := rfl
@[simp] theorem begun_coreOn (s : State) : coreOn s.begun = coreOn s := rfl
@[simp] theorem begun_chanRead (s : State) (n : Nat) : chanRead s.begun n = chanRead s n := rfl
@[simp] theorem begun_chanValue (s : State) (n : Nat) : chanValue s.begun n = chanValue s n := rfl
@[simp] theorem begun_highGood (s : State) (l : List Nat) : highGood s.begun l = highGood s l := rfl
@[simp] theorem begun_stackRead (s : State) (n : Nat) : stackRead s.begun n = stackRead s n := rfl
@[simp] theorem begun_groupC (s : State) : groupC s.begun = groupC s := rfl
@[simp] theorem begun_groupM (s : State) : groupM s.begun = groupM s := rfl
@[simp] theorem begun_groupD (s : State) : groupD s.begun = groupD s := rfl
@[simp] theorem begun_stackTemp (s : State) (ch : Nat) : stackTemp s.begun ch = stackTemp s ch := rfl
@[simp] theorem begun_showGlb (s : State) (a : Nat) (w : BitVec 32) : showGlb s.begun a w = showGlb s a w := rfl
@[simp] theorem begun_showTick (s : State) (a : Nat) (w : BitVec 32) : showTick s.begun a w = showTick s a w := rfl
@[simp] theorem begun_regionAt (s : State) (h : Nat) (r : Nat) : regionAt s.begun h r = regionAt s h r := rfl
@[simp] theorem begun_showHp (s : State) (base : Nat) (h : Nat) (r : Nat) (w : BitVec 32) :
    showHp s.begun base h r w = showHp s base h r w := rfl
@[simp] theorem begun_showQf (s : State) (base : Nat) (a : Nat) (i : Nat) (w : BitVec 32) :
    showQf s.begun base a i w = showQf s base a i w := rfl
@[simp] theorem begun_waysOf (s : State) (n : Nat) (p : Way → Bool) : waysOf s.begun n p = waysOf s n p := rfl
@[simp] theorem begun_purging (s : State) : purging s.begun = purging s := rfl
@[simp] theorem begun_showLc (s : State) (path : Nat) (base : Nat) (a : Nat) (i : Nat) (w : BitVec 32) :
    showLc s.begun path base a i w = showLc s path base a i w := rfl
@[simp] theorem begun_showMed (s : State) (base : Nat) (c : Nat) (d : Nat) (w : BitVec 32) :
    showMed s.begun base c d w = showMed s base c d w := rfl
@[simp] theorem begun_showMtl (s : State) (a : Nat) (w : BitVec 32) : showMtl s.begun a w = showMtl s a w := rfl
@[simp] theorem begun_shoreEnd (s : State) : shoreEnd s.begun = shoreEnd s := rfl
@[simp] theorem begun_showIcu (s : State) (base : Nat) (a : Nat) (i : Nat) (w : BitVec 32) :
    showIcu s.begun base a i w = showIcu s base a i w := rfl
@[simp] theorem begun_showKv (s : State) (path : Nat) (a : Nat) (w : BitVec 32) : showKv s.begun path a w = showKv s path a w := rfl
@[simp] theorem begun_showMemp (s : State) (a : Nat) (w : BitVec 32) : showMemp s.begun a w = showMemp s a w := rfl
@[simp] theorem begun_showDmv (s : State) (base : Nat) (a : Nat) (n : Nat) (w : BitVec 32) :
    showDmv s.begun base a n w = showDmv s base a n w := rfl
@[simp] theorem begun_showMgmt (s : State) (a : Nat) (w : BitVec 32) : showMgmt s.begun a w = showMgmt s a w := rfl
@[simp] theorem begun_showSf (s : State) (a : Nat) (w : BitVec 32) : showSf s.begun a w = showSf s a w := rfl
@[simp] theorem begun_blockState (s : State) (b : Nat) : blockState s.begun b = blockState s b := rfl
@[simp] theorem begun_showGau (s : State) (path : Nat) (base : Nat) (a : Nat) (n : Nat) (w : BitVec 32) :
    showGau s.begun path base a n w = showGau s path base a n w := rfl
@[simp] theorem begun_showSed (s : State) (a : Nat) (w : BitVec 32) : showSed s.begun a w = showSed s a w := rfl
@[simp] theorem begun_domainGone (s : State) (d : Nat) : domainGone s.begun d = domainGone s d := rfl
@[simp] theorem begun_domainCode (s : State) (d : Nat) : domainCode s.begun d = domainCode s d := rfl
@[simp] theorem begun_clamped (s : State) (d : Nat) : clamped s.begun d = clamped s d := rfl
@[simp] theorem begun_showPwr (s : State) (a : Nat) (w : BitVec 32) : showPwr s.begun a w = showPwr s a w := rfl
@[simp] theorem begun_vinRead (s : State) : vinRead s.begun = vinRead s := rfl
@[simp] theorem begun_showSup (s : State) (a : Nat) (w : BitVec 32) : showSup s.begun a w = showSup s a w := rfl
@[simp] theorem begun_limWord (s : State) (g : Nat) : limWord s.begun g = limWord s g := rfl
@[simp] theorem begun_showThm (s : State) (base : Nat) (a : Nat) (n : Nat) (w : BitVec 32) :
    showThm s.begun base a n w = showThm s base a n w := rfl
@[simp] theorem begun_sendCells (s : State) (n : Nat) : sendCells s.begun n = sendCells s n := rfl
@[simp] theorem begun_showNrw (s : State) (base : Nat) (a : Nat) (i : Nat) (w : BitVec 32) :
    showNrw s.begun base a i w = showNrw s base a i w := rfl
@[simp] theorem begun_pcOf (s : State) (path : Nat) (j : Nat) : pcOf s.begun path j = pcOf s path j := rfl
@[simp] theorem begun_fixOf (s : State) (k : Nat) : fixOf s.begun k = fixOf s k := rfl
@[simp] theorem begun_showObs (s : State) (path : Nat) (base : Nat) (a : Nat) (i : Nat) (w : BitVec 32) :
    showObs s.begun path base a i w = showObs s path base a i w := rfl
@[simp] theorem begun_blockOn (s : State) (a : Nat) : blockOn s.begun a = blockOn s a := rfl
@[simp] theorem begun_regNow (s : State) (path : Nat) (a : Nat) (d : RegDesc) : regNow s.begun path a d = regNow s path a d := rfl
@[simp] theorem begun_rgEntries (s : State) (b : Nat) : rgEntries s.begun b = rgEntries s b := rfl
@[simp] theorem begun_rgDbase (s : State) (b : Nat) : rgDbase s.begun b = rgDbase s b := rfl
@[simp] theorem begun_rgCbase (s : State) (b : Nat) : rgCbase s.begun b = rgCbase s b := rfl
@[simp] theorem begun_rgOwns (s : State) (b : Nat) (path : Nat) : rgOwns s.begun b path = rgOwns s b path := rfl
@[simp] theorem begun_noRo (s : State) (path : Nat) (a : Nat) (n : Nat) : noRo s.begun path a n = noRo s path a n := rfl
@[simp] theorem begun_rgPlaced (s : State) (b : Nat) (entry : Nat) : rgPlaced s.begun b entry = rgPlaced s b entry := rfl
@[simp] theorem begun_rgKey (s : State) (b : Nat) (line : Nat) : rgKey s.begun b line = rgKey s b line := rfl
@[simp] theorem begun_rgReady (s : State) (b : Nat) : rgReady s.begun b = rgReady s b := rfl
@[simp] theorem begun_moverRuns (s : State) : moverRuns s.begun = moverRuns s := rfl
@[simp] theorem begun_dstRo (s : State) (path : Nat) (a : Nat) (n : Nat) : dstRo s.begun path a n = dstRo s path a n := rfl
@[simp] theorem begun_rgPath (s : State) (b : Nat) : rgPath s.begun b = rgPath s b := rfl
@[simp] theorem begun_rowLine (s : State) (inst : Nat) (row : Nat) : rowLine s.begun inst row = rowLine s inst row := rfl
@[simp] theorem begun_slotOf (s : State) (v : Nat) : slotOf s.begun v = slotOf s v := rfl
@[simp] theorem begun_slotInst (s : State) (v : Nat) : slotInst s.begun v = slotInst s v := rfl
@[simp] theorem begun_slotV (s : State) (v : Nat) : slotV s.begun v = slotV s v := rfl
@[simp] theorem begun_jqThere (s : State) (q : Nat) : jqThere s.begun q = jqThere s q := rfl
@[simp] theorem begun_slotRetiring (s : State) (v : Nat) : slotRetiring s.begun v = slotRetiring s v := rfl
@[simp] theorem begun_jobCheck (s : State) (p : Nat) (d : JobDesc) : jobCheck s.begun p d = jobCheck s p d := rfl
@[simp] theorem begun_sedNewest (s : State) : sedNewest s.begun = sedNewest s := rfl
@[simp] theorem begun_sedAge (s : State) (n : Nat) : sedAge s.begun n = sedAge s n := rfl
@[simp] theorem begun_sedMarked (s : State) (n : Nat) : sedMarked s.begun n = sedMarked s n := rfl
@[simp] theorem begun_sedOldest (s : State) (l : List (Nat × SedRec)) : sedOldest s.begun l = sedOldest s l := rfl
@[simp] theorem begun_headOf (s : State) (h : Nat) : headOf s.begun h = headOf s h := rfl
@[simp] theorem begun_sedHeld (s : State) (n : Nat) : sedHeld s.begun n = sedHeld s n := rfl
@[simp] theorem begun_nanos (s : State) : nanos s.begun = nanos s := rfl
@[simp] theorem begun_findWay (s : State) (line : Nat) : findWay s.begun line = findWay s line := rfl
@[simp] theorem begun_findEb (s : State) (line : Nat) : findEb s.begun line = findEb s line := rfl
@[simp] theorem begun_findCove (s : State) (line : Nat) : findCove s.begun line = findCove s line := rfl
@[simp] theorem begun_findMerge (s : State) (line : Nat) : findMerge s.begun line = findMerge s line := rfl
@[simp] theorem begun_inAmq (s : State) (line : Nat) : inAmq s.begun line = inAmq s line := rfl
@[simp] theorem begun_filling (s : State) (line : Nat) : filling s.begun line = filling s line := rfl
@[simp] theorem begun_activeMask (s : State) : activeMask s.begun = activeMask s := rfl
@[simp] theorem begun_allocMask (s : State) (src : Src) : allocMask s.begun src = allocMask s src := rfl
@[simp] theorem begun_chargedBytes (s : State) : chargedBytes s.begun = chargedBytes s := rfl
@[simp] theorem begun_budgetRoom (s : State) (n : Nat) : budgetRoom s.begun n = budgetRoom s n := rfl
@[simp] theorem begun_admitLine (s : State) (line : Nat) : admitLine s.begun line = admitLine s line := rfl
@[simp] theorem begun_throttleLevel (s : State) : throttleLevel s.begun = throttleLevel s := rfl
@[simp] theorem begun_throttleCycles (s : State) : throttleCycles s.begun = throttleCycles s := rfl
@[simp] theorem begun_rateRoom (s : State) (p : Nat) : rateRoom s.begun p = rateRoom s p := rfl
@[simp] theorem begun_poisonCause (s : State) (line : Nat) : poisonCause s.begun line = poisonCause s line := rfl
@[simp] theorem begun_waitingHead (s : State) (line : Nat) : waitingHead s.begun line = waitingHead s line := rfl
@[simp] theorem begun_heldPoisoned (s : State) (line : Nat) : heldPoisoned s.begun line = heldPoisoned s line := rfl
@[simp] theorem begun_heldKey (s : State) (line : Nat) : heldKey s.begun line = heldKey s line := rfl
@[simp] theorem begun_pinLimit (s : State) (line : Nat) (src : Src) : pinLimit s.begun line src = pinLimit s line src := rfl
@[simp] theorem begun_ebSeqs (s : State) (line : Nat) : ebSeqs s.begun line = ebSeqs s line := rfl
@[simp] theorem begun_onlyFill (s : State) (line : Nat) : onlyFill s.begun line = onlyFill s line := rfl
@[simp] theorem begun_raised (s : State) : raised s.begun = raised s := rfl
@[simp] theorem begun_cleanRuns (s : State) (n : Nat) : cleanRuns s.begun n = cleanRuns s n := rfl
@[simp] theorem begun_lcKey (s : State) (path : Nat) (line : Nat) : lcKey s.begun path line = lcKey s path line := rfl
@[simp] theorem begun_seicheNext (s : State) : seicheNext s.begun = seicheNext s := rfl
@[simp] theorem begun_budgetAt (s : State) (v : Nat) : budgetAt s.begun v = budgetAt s v := rfl
@[simp] theorem begun_testMay (s : State) : testMay s.begun = testMay s := rfl
@[simp] theorem begun_dMax (s : State) : dMax s.begun = dMax s := rfl
@[simp] theorem begun_chanLive (s : State) (n : Nat) : chanLive s.begun n = chanLive s n := rfl
@[simp] theorem begun_groupT (s : State) (g : Nat) : groupT s.begun g = groupT s g := rfl
@[simp] theorem begun_levelMax (s : State) : levelMax s.begun = levelMax s := rfl
@[simp] theorem begun_anyClosed (s : State) : anyClosed s.begun = anyClosed s := rfl
@[simp] theorem begun_sensorSide (s : State) (id : Nat) : sensorSide s.begun id = sensorSide s id := rfl
@[simp] theorem begun_stagedLo (s : State) (path : Nat) (a : Nat) : stagedLo s.begun path a = stagedLo s path a := rfl
@[simp] theorem begun_calTicks (s : State) : calTicks s.begun = calTicks s := rfl
@[simp] theorem begun_isFollower (s : State) : isFollower s.begun = isFollower s := rfl
@[simp] theorem begun_devid (s : State) : devid s.begun = devid s := rfl
@[simp] theorem begun_masterFrame (s : State) : masterFrame s.begun = masterFrame s := rfl
@[simp] theorem begun_effShare (s : State) (c : Nat) : effShare s.begun c = effShare s c := rfl
@[simp] theorem begun_wakeOn (s : State) (src : Nat) : wakeOn s.begun src = wakeOn s src := rfl
@[simp] theorem begun_kekOf (s : State) (k : Nat) : kekOf s.begun k = kekOf s k := rfl
@[simp] theorem begun_newestSeq (s : State) (t : Nat) (i : Nat) : newestSeq s.begun t i = newestSeq s t i := rfl
@[simp] theorem begun_entryKey (s : State) (e : LedgerEnt) : entryKey s.begun e = entryKey s e := rfl
@[simp] theorem begun_installCheck (s : State) (path : Nat) (d : List Byte) : installCheck s.begun path d = installCheck s path d := rfl
@[simp] theorem begun_installGen (s : State) (t : Nat) (i : Nat) (gen : Nat) : installGen s.begun t i gen = installGen s t i gen := rfl
@[simp] theorem begun_installEntry (s : State) (d : List Byte) (m : List Byte) : installEntry s.begun d m = installEntry s d m := rfl
@[simp] theorem begun_retireCheck (s : State) (path : Nat) (d : List Byte) : retireCheck s.begun path d = retireCheck s path d := rfl
@[simp] theorem begun_retireEntry (s : State) (t : Nat) (i : Nat) : retireEntry s.begun t i = retireEntry s t i := rfl
@[simp] theorem begun_lostCtxs (s : State) : lostCtxs s.begun = lostCtxs s := rfl
@[simp] theorem begun_liveEntries (s : State) : liveEntries s.begun = liveEntries s := rfl
@[simp] theorem begun_ledger (s : State) : ledger s.begun = ledger s := rfl
@[simp] theorem begun_ledgerMac (s : State) (e : LedgerEnt) : ledgerMac s.begun e = ledgerMac s e := rfl
@[simp] theorem begun_ledgerNext (s : State) : ledgerNext s.begun = ledgerNext s := rfl
@[simp] theorem begun_tgtBusy (s : State) (t : Nat) (i : Nat) (path : Nat) : tgtBusy s.begun t i path = tgtBusy s t i path := rfl

end Sys2Proof.Machine
end

