-- ==== Sys2Proof/Laws/Regs.lean ====
section
/-! SUPPORT. Laws of sparse tables, of the register file and of register fields: what is read after what is written. -/

namespace Sys2Proof.Machine

/-! ### Sparse tables -/

@[simp] theorem tfind_nil {α : Type} (k : Nat) : tfind ([] : Tbl α) k = none := rfl

@[simp] theorem tfind_tput_same {α : Type} (k : Nat) (v : α) (t : Tbl α) : tfind (tput k v t) k = some v := by
  induction t with
  | nil => simp [tput, tfind]
  | cons e r ih =>
    obtain ⟨j, w⟩ := e
    simp only [tput]
    split
    · simp [tfind]
    · split
      · simp [tfind]
      · next h1 h2 => simp [tfind, ih, Ne.symm h2]

theorem tfind_tput_ne {α : Type} {k j : Nat} (v : α) (t : Tbl α) (h : j ≠ k) : tfind (tput k v t) j = tfind t j := by
  induction t with
  | nil => simp [tput, tfind, Ne.symm h]
  | cons e r ih =>
    obtain ⟨i, w⟩ := e
    simp only [tput]
    split
    · simp [tfind, Ne.symm h]
    · split
      · next h2 => subst h2; simp [tfind, Ne.symm h]
      · simp [tfind, ih]

@[simp] theorem tfind_tdel_same {α : Type} (k : Nat) (t : Tbl α) : tfind (tdel k t) k = none := by
  induction t with
  | nil => rfl
  | cons e r ih =>
    obtain ⟨i, w⟩ := e
    simp only [tdel, List.filter_cons] at ih ⊢
    split
    · next h => simp at h; simp [tfind, h, ih]
    · exact ih

theorem tfind_tdel_ne {α : Type} {k j : Nat} (t : Tbl α) (h : j ≠ k) : tfind (tdel k t) j = tfind t j := by
  induction t with
  | nil => rfl
  | cons e r ih =>
    obtain ⟨i, w⟩ := e
    simp only [tdel, List.filter_cons] at ih ⊢
    split
    · simp [tfind, ih]
    · next h2 => simp at h2; subst h2; simp [tfind, Ne.symm h, ih]

@[simp] theorem tget_tput_same {α : Type} (d : α) (k : Nat) (v : α) (t : Tbl α) : tget d (tput k v t) k = v := by simp [tget]
theorem tget_tput_ne {α : Type} (d : α) {k j : Nat} (v : α) (t : Tbl α) (h : j ≠ k) : tget d (tput k v t) j = tget d t j := by
  simp [tget, tfind_tput_ne v t h]
@[simp] theorem tget_tmod_same {α : Type} (d : α) (k : Nat) (f : α → α) (t : Tbl α) : tget d (tmod d k f t) k = f (tget d t k) := by
  simp [tmod]
theorem tget_tmod_ne {α : Type} (d : α) {k j : Nat} (f : α → α) (t : Tbl α) (h : j ≠ k) :
    tget d (tmod d k f t) j = tget d t j := by
  simp [tmod, tget_tput_ne d _ t h]

/-! ### The register file -/

@[simp] theorem reg_putReg_same (s : State) (a : Nat) (v : BitVec 32) : (s.putReg a v).reg a = v := by
  unfold State.putReg State.reg
  split
  · next h => simp [h]
  · simp

theorem reg_putReg_ne (s : State) {a b : Nat} (v : BitVec 32) (h : b ≠ a) : (s.putReg a v).reg b = s.reg b := by
  unfold State.putReg State.reg
  split
  · simp [tfind_tdel_ne _ h]
  · simp [tfind_tput_ne _ _ h]

@[simp] theorem reg_setF_same (f : Fld) (v : Nat) (s : State) : (setF f v s).reg f.reg = f.put v (s.reg f.reg) := by simp [setF]
theorem reg_setF_ne (f : Fld) (v : Nat) (s : State) {b : Nat} (h : b ≠ f.reg) : (setF f v s).reg b = s.reg b := by
  simp [setF, reg_putReg_ne _ _ h]

/-! ### Fields of a word -/

/-- A field lies inside its word. -/
def Fld.ok (f : Fld) : Bool := decide (f.lo + f.width ≤ 32)

/-- Two fields of one word share no bit. -/
def Fld.apart (f g : Fld) : Bool := decide (f.lo + f.width ≤ g.lo) || decide (g.lo + g.width ≤ f.lo)

theorem ones_getLsbD (w i : Nat) (hi : i < 32) : (BitVec.ofNat 32 (2 ^ w - 1)).getLsbD i = decide (i < w) := by
  rw [BitVec.getLsbD_ofNat, Nat.testBit_two_pow_sub_one]; simp [hi]

theorem mask_getLsbD (f : Fld) (i : Nat) (hi : i < 32) :
    f.mask.getLsbD i = (decide (f.lo ≤ i) && decide (i - f.lo < f.width)) := by
  unfold Fld.mask
  by_cases h : f.lo ≤ i
  · have : i - f.lo < 32 := by omega
    simp only [BitVec.getLsbD_shiftLeft, hi, decide_true, Bool.true_and, Nat.not_lt.mpr h, decide_false, Bool.not_false]
    rw [ones_getLsbD _ _ this]; simp [h]
  · simp [hi, h]

theorem put_getLsbD (f : Fld) (v : Nat) (w : BitVec 32) (i : Nat) (hi : i < 32) :
    (f.put v w).getLsbD i =
      if f.lo ≤ i ∧ i - f.lo < f.width then v.testBit (i - f.lo) else w.getLsbD i := by
  unfold Fld.put
  simp only [BitVec.getLsbD_or, BitVec.getLsbD_and, BitVec.getLsbD_not, hi, decide_true, Bool.true_and, mask_getLsbD f i hi,
    BitVec.getLsbD_shiftLeft, BitVec.getLsbD_ofNat]
  by_cases h : f.lo ≤ i
  · have h2 : i - f.lo < 32 := by omega
    by_cases h3 : i - f.lo < f.width
    · simp [h, h3, h2, Nat.not_lt.mpr h]
    · simp [h, h3]
  · simp [h]

theorem get_testBit (f : Fld) (w : BitVec 32) (i : Nat) (h : f.ok = true) :
    (f.get w).testBit i = (decide (i < f.width) && w.getLsbD (f.lo + i)) := by
  unfold Fld.get
  rw [BitVec.testBit_toNat]
  by_cases hi : i < 32
  · simp only [BitVec.getLsbD_and, BitVec.getLsbD_ushiftRight, ones_getLsbD _ _ hi, Bool.and_comm]
  · simp only [Fld.ok, decide_eq_true_eq] at h
    have : ¬ i < f.width := by omega
    rw [BitVec.getLsbD_of_ge _ _ (by omega)]
    simp [this]

/-- A field just set reads as the value's low bits. -/
theorem get_put_same (f : Fld) (v : Nat) (w : BitVec 32) (h : f.ok = true) : f.get (f.put v w) = v % 2 ^ f.width := by
  apply Nat.eq_of_testBit_eq
  intro i
  rw [get_testBit f _ i h, Nat.testBit_mod_two_pow]
  by_cases hi : i < f.width
  · simp only [Fld.ok, decide_eq_true_eq] at h
    rw [put_getLsbD f v w _ (by omega)]
    simp [hi]
  · simp [hi]

/-- Setting a field leaves a field apart from it as it was. -/
theorem get_put_apart (f g : Fld) (v : Nat) (w : BitVec 32) (hg : g.ok = true) (h : f.apart g = true) :
    g.get (f.put v w) = g.get w := by
  apply Nat.eq_of_testBit_eq
  intro i
  rw [get_testBit g _ i hg, get_testBit g _ i hg]
  by_cases hi : i < g.width
  · simp only [Fld.ok, decide_eq_true_eq] at hg
    rw [put_getLsbD f v w _ (by omega)]
    simp only [Fld.apart, Bool.or_eq_true, decide_eq_true_eq] at h
    have : ¬ (f.lo ≤ g.lo + i ∧ g.lo + i - f.lo < f.width) := by omega
    simp [this]
  · simp [hi]

/-! ### Register fields -/

theorem fld_setF_same (f : Fld) (v : Nat) (s : State) (h : f.ok = true) : fld (setF f v s) f = v % 2 ^ f.width := by
  simp [fld, get_put_same f v _ h]

/-- A field other than the one set keeps its value: another register, or bits apart. -/
theorem fld_setF_other (f g : Fld) (v : Nat) (s : State) (h : g.reg ≠ f.reg ∨ (g.ok = true ∧ f.apart g = true)) :
    fld (setF f v s) g = fld s g := by
  by_cases hr : g.reg = f.reg
  · rcases h with h | ⟨h1, h2⟩
    · exact absurd hr h
    · simp only [fld, hr, reg_setF_same]; exact get_put_apart f g v _ h1 h2
  · simp [fld, reg_setF_ne f v s hr]

/-- A field after another field has been set, by cases that are decided on the fields alone. -/
theorem fld_setF (f g : Fld) (v : Nat) (s : State) (h : g = f ∧ f.ok = true ∨ g.reg ≠ f.reg ∨ (g.ok = true ∧ f.apart g = true)) :
    fld (setF f v s) g = if g = f then v % 2 ^ f.width else fld s g := by
  split
  · next e => subst e; rcases h with h | h | h
              · exact fld_setF_same _ v s h.2
              · exact absurd rfl h
              · exact fld_setF_same _ v s h.1
  · next e => rcases h with h | h
              · exact absurd h.1 e
              · exact fld_setF_other f g v s h

/-- A field's value fits its width. -/
theorem fld_lt (s : State) (f : Fld) (h : f.ok = true) : fld s f < 2 ^ f.width := by
  apply Nat.lt_pow_two_of_testBit
  intro i hi
  rw [fld, get_testBit f _ i h]
  simp [Nat.not_lt.mpr hi]

@[simp] theorem bit_setF_one (f : Fld) (s : State) (h : f.ok = true) (hw : f.width = 1) : bit (setF f 1 s) f = true := by
  simp [bit, fld_setF_same f 1 s h, hw]
@[simp] theorem bit_setF_zero (f : Fld) (s : State) (h : f.ok = true) : bit (setF f 0 s) f = false := by
  simp [bit, fld_setF_same f 0 s h]
theorem bit_setB (f : Fld) (b : Bool) (s : State) (h : f.ok = true) (hw : f.width = 1) : bit (setB f b s) f = b := by
  cases b <;> simp [setB, h, hw]

/-- A saturating counter's new value (R18). -/
theorem fld_satAdd (f : Fld) (n : Nat) (s : State) (h : f.ok = true) :
    fld (satAdd f n s) f = min (fld s f + n) (2 ^ f.width - 1) := by
  unfold satAdd
  rw [fld_setF_same f _ s h]
  have : 0 < 2 ^ f.width := Nat.two_pow_pos _
  exact Nat.mod_eq_of_lt (by omega)

end Sys2Proof.Machine
end

