-- ==== Sys2Proof/Laws/State.lean ====
section
/-! SUPPORT. What each basic update of the state leaves alone: one lemma for each field of each update, so that no proof
unfolds one; and the registers of a state that is written out. -/

namespace Sys2Proof.Machine

/-! ### Registers of a state written out -/

@[simp] theorem reg_mk (s : State) (a0 a1 a2 a4 a5 a6 a7 a8 a9 a10 a11 a12 a13 a14 a15 a16 a17 a18 a19 a20 a21 a22 a23 a24 a25 a26 a27 a28 a29 a30 a31 a32 a33 a34 a35) (x : Nat) : State.reg (State.mk a0 a1 a2 s.regs a4 a5 a6 a7 a8 a9 a10 a11 a12 a13 a14 a15 a16 a17 a18 a19 a20 a21 a22 a23 a24 a25 a26 a27 a28 a29 a30 a31 a32 a33 a34 a35) x = s.reg x := rfl
@[simp] theorem fld_mk (s : State) (a0 a1 a2 a4 a5 a6 a7 a8 a9 a10 a11 a12 a13 a14 a15 a16 a17 a18 a19 a20 a21 a22 a23 a24 a25 a26 a27 a28 a29 a30 a31 a32 a33 a34 a35) (f : Fld) : fld (State.mk a0 a1 a2 s.regs a4 a5 a6 a7 a8 a9 a10 a11 a12 a13 a14 a15 a16 a17 a18 a19 a20 a21 a22 a23 a24 a25 a26 a27 a28 a29 a30 a31 a32 a33 a34 a35) f = fld s f := rfl
@[simp] theorem bit_mk (s : State) (a0 a1 a2 a4 a5 a6 a7 a8 a9 a10 a11 a12 a13 a14 a15 a16 a17 a18 a19 a20 a21 a22 a23 a24 a25 a26 a27 a28 a29 a30 a31 a32 a33 a34 a35) (f : Fld) : bit (State.mk a0 a1 a2 s.regs a4 a5 a6 a7 a8 a9 a10 a11 a12 a13 a14 a15 a16 a17 a18 a19 a20 a21 a22 a23 a24 a25 a26 a27 a28 a29 a30 a31 a32 a33 a34 a35) f = bit s f := rfl

/-! ### Fields of each update -/

@[simp] theorem putReg_pending (s : State) (a : Nat) (v : BitVec 32) : (s.putReg a v).pending = s.pending := by unfold State.putReg; split <;> rfl
@[simp] theorem putReg_out (s : State) (a : Nat) (v : BitVec 32) : (s.putReg a v).out = s.out := by unfold State.putReg; split <;> rfl
@[simp] theorem putReg_fresh (s : State) (a : Nat) (v : BitVec 32) : (s.putReg a v).fresh = s.fresh := by unfold State.putReg; split <;> rfl
@[simp] theorem putReg_staged (s : State) (a : Nat) (v : BitVec 32) : (s.putReg a v).staged = s.staged := by unfold State.putReg; split <;> rfl
@[simp] theorem putReg_captured (s : State) (a : Nat) (v : BitVec 32) : (s.putReg a v).captured = s.captured := by unfold State.putReg; split <;> rfl
@[simp] theorem putReg_variant (s : State) (a : Nat) (v : BitVec 32) : (s.putReg a v).variant = s.variant := by unfold State.putReg; split <;> rfl
@[simp] theorem putReg_devid (s : State) (a : Nat) (v : BitVec 32) : (s.putReg a v).devid = s.devid := by unfold State.putReg; split <;> rfl
@[simp] theorem putReg_serial (s : State) (a : Nat) (v : BitVec 32) : (s.putReg a v).serial = s.serial := by unfold State.putReg; split <;> rfl
@[simp] theorem putReg_cfg (s : State) (a : Nat) (v : BitVec 32) : (s.putReg a v).cfg = s.cfg := by unfold State.putReg; split <;> rfl
@[simp] theorem putReg_tick (s : State) (a : Nat) (v : BitVec 32) : (s.putReg a v).tick = s.tick := by unfold State.putReg; split <;> rfl
@[simp] theorem putReg_sed (s : State) (a : Nat) (v : BitVec 32) : (s.putReg a v).sed = s.sed := by unfold State.putReg; split <;> rfl
@[simp] theorem putReg_gauge (s : State) (a : Nat) (v : BitVec 32) : (s.putReg a v).gauge = s.gauge := by unfold State.putReg; split <;> rfl
@[simp] theorem putReg_ndx (s : State) (a : Nat) (v : BitVec 32) : (s.putReg a v).ndx = s.ndx := by unfold State.putReg; split <;> rfl
@[simp] theorem putReg_heads (s : State) (a : Nat) (v : BitVec 32) : (s.putReg a v).heads = s.heads := by unfold State.putReg; split <;> rfl
@[simp] theorem putReg_poison (s : State) (a : Nat) (v : BitVec 32) : (s.putReg a v).poison = s.poison := by unfold State.putReg; split <;> rfl
@[simp] theorem putReg_queues (s : State) (a : Nat) (v : BitVec 32) : (s.putReg a v).queues = s.queues := by unfold State.putReg; split <;> rfl
@[simp] theorem putReg_tracker (s : State) (a : Nat) (v : BitVec 32) : (s.putReg a v).tracker = s.tracker := by unfold State.putReg; split <;> rfl
@[simp] theorem putReg_ways (s : State) (a : Nat) (v : BitVec 32) : (s.putReg a v).ways = s.ways := by unfold State.putReg; split <;> rfl
@[simp] theorem putReg_slices (s : State) (a : Nat) (v : BitVec 32) : (s.putReg a v).slices = s.slices := by unfold State.putReg; split <;> rfl
@[simp] theorem putReg_fills (s : State) (a : Nat) (v : BitVec 32) : (s.putReg a v).fills = s.fills := by unfold State.putReg; split <;> rfl
@[simp] theorem putReg_lcmds (s : State) (a : Nat) (v : BitVec 32) : (s.putReg a v).lcmds = s.lcmds := by unfold State.putReg; split <;> rfl
@[simp] theorem putReg_media (s : State) (a : Nat) (v : BitVec 32) : (s.putReg a v).media = s.media := by unfold State.putReg; split <;> rfl
@[simp] theorem putReg_mtl (s : State) (a : Nat) (v : BitVec 32) : (s.putReg a v).mtl = s.mtl := by unfold State.putReg; split <;> rfl
@[simp] theorem putReg_icu (s : State) (a : Nat) (v : BitVec 32) : (s.putReg a v).icu = s.icu := by unfold State.putReg; split <;> rfl
@[simp] theorem putReg_vault (s : State) (a : Nat) (v : BitVec 32) : (s.putReg a v).vault = s.vault := by unfold State.putReg; split <;> rfl
@[simp] theorem putReg_memp (s : State) (a : Nat) (v : BitVec 32) : (s.putReg a v).memp = s.memp := by unfold State.putReg; split <;> rfl
@[simp] theorem putReg_movers (s : State) (a : Nat) (v : BitVec 32) : (s.putReg a v).movers = s.movers := by unfold State.putReg; split <;> rfl
@[simp] theorem putReg_mgmt (s : State) (a : Nat) (v : BitVec 32) : (s.putReg a v).mgmt = s.mgmt := by unfold State.putReg; split <;> rfl
@[simp] theorem putReg_flash (s : State) (a : Nat) (v : BitVec 32) : (s.putReg a v).flash = s.flash := by unfold State.putReg; split <;> rfl
@[simp] theorem putReg_pwr (s : State) (a : Nat) (v : BitVec 32) : (s.putReg a v).pwr = s.pwr := by unfold State.putReg; split <;> rfl
@[simp] theorem putReg_sup (s : State) (a : Nat) (v : BitVec 32) : (s.putReg a v).sup = s.sup := by unfold State.putReg; split <;> rfl
@[simp] theorem putReg_therm (s : State) (a : Nat) (v : BitVec 32) : (s.putReg a v).therm = s.therm := by unfold State.putReg; split <;> rfl
@[simp] theorem putReg_nrw (s : State) (a : Nat) (v : BitVec 32) : (s.putReg a v).nrw = s.nrw := by unfold State.putReg; split <;> rfl
@[simp] theorem putReg_obs (s : State) (a : Nat) (v : BitVec 32) : (s.putReg a v).obs = s.obs := by unfold State.putReg; split <;> rfl
@[simp] theorem putReg_jtag (s : State) (a : Nat) (v : BitVec 32) : (s.putReg a v).jtag = s.jtag := by unfold State.putReg; split <;> rfl
@[simp] theorem setF_pending (f : Fld) (v : Nat) (s : State) : (setF f v s).pending = s.pending := by simp [setF]
@[simp] theorem setF_out (f : Fld) (v : Nat) (s : State) : (setF f v s).out = s.out := by simp [setF]
@[simp] theorem setF_fresh (f : Fld) (v : Nat) (s : State) : (setF f v s).fresh = s.fresh := by simp [setF]
@[simp] theorem setF_staged (f : Fld) (v : Nat) (s : State) : (setF f v s).staged = s.staged := by simp [setF]
@[simp] theorem setF_captured (f : Fld) (v : Nat) (s : State) : (setF f v s).captured = s.captured := by simp [setF]
@[simp] theorem setF_variant (f : Fld) (v : Nat) (s : State) : (setF f v s).variant = s.variant := by simp [setF]
@[simp] theorem setF_devid (f : Fld) (v : Nat) (s : State) : (setF f v s).devid = s.devid := by simp [setF]
@[simp] theorem setF_serial (f : Fld) (v : Nat) (s : State) : (setF f v s).serial = s.serial := by simp [setF]
@[simp] theorem setF_cfg (f : Fld) (v : Nat) (s : State) : (setF f v s).cfg = s.cfg := by simp [setF]
@[simp] theorem setF_tick (f : Fld) (v : Nat) (s : State) : (setF f v s).tick = s.tick := by simp [setF]
@[simp] theorem setF_sed (f : Fld) (v : Nat) (s : State) : (setF f v s).sed = s.sed := by simp [setF]
@[simp] theorem setF_gauge (f : Fld) (v : Nat) (s : State) : (setF f v s).gauge = s.gauge := by simp [setF]
@[simp] theorem setF_ndx (f : Fld) (v : Nat) (s : State) : (setF f v s).ndx = s.ndx := by simp [setF]
@[simp] theorem setF_heads (f : Fld) (v : Nat) (s : State) : (setF f v s).heads = s.heads := by simp [setF]
@[simp] theorem setF_poison (f : Fld) (v : Nat) (s : State) : (setF f v s).poison = s.poison := by simp [setF]
@[simp] theorem setF_queues (f : Fld) (v : Nat) (s : State) : (setF f v s).queues = s.queues := by simp [setF]
@[simp] theorem setF_tracker (f : Fld) (v : Nat) (s : State) : (setF f v s).tracker = s.tracker := by simp [setF]
@[simp] theorem setF_ways (f : Fld) (v : Nat) (s : State) : (setF f v s).ways = s.ways := by simp [setF]
@[simp] theorem setF_slices (f : Fld) (v : Nat) (s : State) : (setF f v s).slices = s.slices := by simp [setF]
@[simp] theorem setF_fills (f : Fld) (v : Nat) (s : State) : (setF f v s).fills = s.fills := by simp [setF]
@[simp] theorem setF_lcmds (f : Fld) (v : Nat) (s : State) : (setF f v s).lcmds = s.lcmds := by simp [setF]
@[simp] theorem setF_media (f : Fld) (v : Nat) (s : State) : (setF f v s).media = s.media := by simp [setF]
@[simp] theorem setF_mtl (f : Fld) (v : Nat) (s : State) : (setF f v s).mtl = s.mtl := by simp [setF]
@[simp] theorem setF_icu (f : Fld) (v : Nat) (s : State) : (setF f v s).icu = s.icu := by simp [setF]
@[simp] theorem setF_vault (f : Fld) (v : Nat) (s : State) : (setF f v s).vault = s.vault := by simp [setF]
@[simp] theorem setF_memp (f : Fld) (v : Nat) (s : State) : (setF f v s).memp = s.memp := by simp [setF]
@[simp] theorem setF_movers (f : Fld) (v : Nat) (s : State) : (setF f v s).movers = s.movers := by simp [setF]
@[simp] theorem setF_mgmt (f : Fld) (v : Nat) (s : State) : (setF f v s).mgmt = s.mgmt := by simp [setF]
@[simp] theorem setF_flash (f : Fld) (v : Nat) (s : State) : (setF f v s).flash = s.flash := by simp [setF]
@[simp] theorem setF_pwr (f : Fld) (v : Nat) (s : State) : (setF f v s).pwr = s.pwr := by simp [setF]
@[simp] theorem setF_sup (f : Fld) (v : Nat) (s : State) : (setF f v s).sup = s.sup := by simp [setF]
@[simp] theorem setF_therm (f : Fld) (v : Nat) (s : State) : (setF f v s).therm = s.therm := by simp [setF]
@[simp] theorem setF_nrw (f : Fld) (v : Nat) (s : State) : (setF f v s).nrw = s.nrw := by simp [setF]
@[simp] theorem setF_obs (f : Fld) (v : Nat) (s : State) : (setF f v s).obs = s.obs := by simp [setF]
@[simp] theorem setF_jtag (f : Fld) (v : Nat) (s : State) : (setF f v s).jtag = s.jtag := by simp [setF]
@[simp] theorem setB_pending (f : Fld) (v : Bool) (s : State) : (setB f v s).pending = s.pending := by simp [setB]
@[simp] theorem setB_out (f : Fld) (v : Bool) (s : State) : (setB f v s).out = s.out := by simp [setB]
@[simp] theorem setB_fresh (f : Fld) (v : Bool) (s : State) : (setB f v s).fresh = s.fresh := by simp [setB]
@[simp] theorem setB_staged (f : Fld) (v : Bool) (s : State) : (setB f v s).staged = s.staged := by simp [setB]
@[simp] theorem setB_captured (f : Fld) (v : Bool) (s : State) : (setB f v s).captured = s.captured := by simp [setB]
@[simp] theorem setB_variant (f : Fld) (v : Bool) (s : State) : (setB f v s).variant = s.variant := by simp [setB]
@[simp] theorem setB_devid (f : Fld) (v : Bool) (s : State) : (setB f v s).devid = s.devid := by simp [setB]
@[simp] theorem setB_serial (f : Fld) (v : Bool) (s : State) : (setB f v s).serial = s.serial := by simp [setB]
@[simp] theorem setB_cfg (f : Fld) (v : Bool) (s : State) : (setB f v s).cfg = s.cfg := by simp [setB]
@[simp] theorem setB_tick (f : Fld) (v : Bool) (s : State) : (setB f v s).tick = s.tick := by simp [setB]
@[simp] theorem setB_sed (f : Fld) (v : Bool) (s : State) : (setB f v s).sed = s.sed := by simp [setB]
@[simp] theorem setB_gauge (f : Fld) (v : Bool) (s : State) : (setB f v s).gauge = s.gauge := by simp [setB]
@[simp] theorem setB_ndx (f : Fld) (v : Bool) (s : State) : (setB f v s).ndx = s.ndx := by simp [setB]
@[simp] theorem setB_heads (f : Fld) (v : Bool) (s : State) : (setB f v s).heads = s.heads := by simp [setB]
@[simp] theorem setB_poison (f : Fld) (v : Bool) (s : State) : (setB f v s).poison = s.poison := by simp [setB]
@[simp] theorem setB_queues (f : Fld) (v : Bool) (s : State) : (setB f v s).queues = s.queues := by simp [setB]
@[simp] theorem setB_tracker (f : Fld) (v : Bool) (s : State) : (setB f v s).tracker = s.tracker := by simp [setB]
@[simp] theorem setB_ways (f : Fld) (v : Bool) (s : State) : (setB f v s).ways = s.ways := by simp [setB]
@[simp] theorem setB_slices (f : Fld) (v : Bool) (s : State) : (setB f v s).slices = s.slices := by simp [setB]
@[simp] theorem setB_fills (f : Fld) (v : Bool) (s : State) : (setB f v s).fills = s.fills := by simp [setB]
@[simp] theorem setB_lcmds (f : Fld) (v : Bool) (s : State) : (setB f v s).lcmds = s.lcmds := by simp [setB]
@[simp] theorem setB_media (f : Fld) (v : Bool) (s : State) : (setB f v s).media = s.media := by simp [setB]
@[simp] theorem setB_mtl (f : Fld) (v : Bool) (s : State) : (setB f v s).mtl = s.mtl := by simp [setB]
@[simp] theorem setB_icu (f : Fld) (v : Bool) (s : State) : (setB f v s).icu = s.icu := by simp [setB]
@[simp] theorem setB_vault (f : Fld) (v : Bool) (s : State) : (setB f v s).vault = s.vault := by simp [setB]
@[simp] theorem setB_memp (f : Fld) (v : Bool) (s : State) : (setB f v s).memp = s.memp := by simp [setB]
@[simp] theorem setB_movers (f : Fld) (v : Bool) (s : State) : (setB f v s).movers = s.movers := by simp [setB]
@[simp] theorem setB_mgmt (f : Fld) (v : Bool) (s : State) : (setB f v s).mgmt = s.mgmt := by simp [setB]
@[simp] theorem setB_flash (f : Fld) (v : Bool) (s : State) : (setB f v s).flash = s.flash := by simp [setB]
@[simp] theorem setB_pwr (f : Fld) (v : Bool) (s : State) : (setB f v s).pwr = s.pwr := by simp [setB]
@[simp] theorem setB_sup (f : Fld) (v : Bool) (s : State) : (setB f v s).sup = s.sup := by simp [setB]
@[simp] theorem setB_therm (f : Fld) (v : Bool) (s : State) : (setB f v s).therm = s.therm := by simp [setB]
@[simp] theorem setB_nrw (f : Fld) (v : Bool) (s : State) : (setB f v s).nrw = s.nrw := by simp [setB]
@[simp] theorem setB_obs (f : Fld) (v : Bool) (s : State) : (setB f v s).obs = s.obs := by simp [setB]
@[simp] theorem setB_jtag (f : Fld) (v : Bool) (s : State) : (setB f v s).jtag = s.jtag := by simp [setB]
@[simp] theorem satAdd_pending (f : Fld) (n : Nat) (s : State) : (satAdd f n s).pending = s.pending := by simp [satAdd]
@[simp] theorem satAdd_out (f : Fld) (n : Nat) (s : State) : (satAdd f n s).out = s.out := by simp [satAdd]
@[simp] theorem satAdd_fresh (f : Fld) (n : Nat) (s : State) : (satAdd f n s).fresh = s.fresh := by simp [satAdd]
@[simp] theorem satAdd_staged (f : Fld) (n : Nat) (s : State) : (satAdd f n s).staged = s.staged := by simp [satAdd]
@[simp] theorem satAdd_captured (f : Fld) (n : Nat) (s : State) : (satAdd f n s).captured = s.captured := by simp [satAdd]
@[simp] theorem satAdd_variant (f : Fld) (n : Nat) (s : State) : (satAdd f n s).variant = s.variant := by simp [satAdd]
@[simp] theorem satAdd_devid (f : Fld) (n : Nat) (s : State) : (satAdd f n s).devid = s.devid := by simp [satAdd]
@[simp] theorem satAdd_serial (f : Fld) (n : Nat) (s : State) : (satAdd f n s).serial = s.serial := by simp [satAdd]
@[simp] theorem satAdd_cfg (f : Fld) (n : Nat) (s : State) : (satAdd f n s).cfg = s.cfg := by simp [satAdd]
@[simp] theorem satAdd_tick (f : Fld) (n : Nat) (s : State) : (satAdd f n s).tick = s.tick := by simp [satAdd]
@[simp] theorem satAdd_sed (f : Fld) (n : Nat) (s : State) : (satAdd f n s).sed = s.sed := by simp [satAdd]
@[simp] theorem satAdd_gauge (f : Fld) (n : Nat) (s : State) : (satAdd f n s).gauge = s.gauge := by simp [satAdd]
@[simp] theorem satAdd_ndx (f : Fld) (n : Nat) (s : State) : (satAdd f n s).ndx = s.ndx := by simp [satAdd]
@[simp] theorem satAdd_heads (f : Fld) (n : Nat) (s : State) : (satAdd f n s).heads = s.heads := by simp [satAdd]
@[simp] theorem satAdd_poison (f : Fld) (n : Nat) (s : State) : (satAdd f n s).poison = s.poison := by simp [satAdd]
@[simp] theorem satAdd_queues (f : Fld) (n : Nat) (s : State) : (satAdd f n s).queues = s.queues := by simp [satAdd]
@[simp] theorem satAdd_tracker (f : Fld) (n : Nat) (s : State) : (satAdd f n s).tracker = s.tracker := by simp [satAdd]
@[simp] theorem satAdd_ways (f : Fld) (n : Nat) (s : State) : (satAdd f n s).ways = s.ways := by simp [satAdd]
@[simp] theorem satAdd_slices (f : Fld) (n : Nat) (s : State) : (satAdd f n s).slices = s.slices := by simp [satAdd]
@[simp] theorem satAdd_fills (f : Fld) (n : Nat) (s : State) : (satAdd f n s).fills = s.fills := by simp [satAdd]
@[simp] theorem satAdd_lcmds (f : Fld) (n : Nat) (s : State) : (satAdd f n s).lcmds = s.lcmds := by simp [satAdd]
@[simp] theorem satAdd_media (f : Fld) (n : Nat) (s : State) : (satAdd f n s).media = s.media := by simp [satAdd]
@[simp] theorem satAdd_mtl (f : Fld) (n : Nat) (s : State) : (satAdd f n s).mtl = s.mtl := by simp [satAdd]
@[simp] theorem satAdd_icu (f : Fld) (n : Nat) (s : State) : (satAdd f n s).icu = s.icu := by simp [satAdd]
@[simp] theorem satAdd_vault (f : Fld) (n : Nat) (s : State) : (satAdd f n s).vault = s.vault := by simp [satAdd]
@[simp] theorem satAdd_memp (f : Fld) (n : Nat) (s : State) : (satAdd f n s).memp = s.memp := by simp [satAdd]
@[simp] theorem satAdd_movers (f : Fld) (n : Nat) (s : State) : (satAdd f n s).movers = s.movers := by simp [satAdd]
@[simp] theorem satAdd_mgmt (f : Fld) (n : Nat) (s : State) : (satAdd f n s).mgmt = s.mgmt := by simp [satAdd]
@[simp] theorem satAdd_flash (f : Fld) (n : Nat) (s : State) : (satAdd f n s).flash = s.flash := by simp [satAdd]
@[simp] theorem satAdd_pwr (f : Fld) (n : Nat) (s : State) : (satAdd f n s).pwr = s.pwr := by simp [satAdd]
@[simp] theorem satAdd_sup (f : Fld) (n : Nat) (s : State) : (satAdd f n s).sup = s.sup := by simp [satAdd]
@[simp] theorem satAdd_therm (f : Fld) (n : Nat) (s : State) : (satAdd f n s).therm = s.therm := by simp [satAdd]
@[simp] theorem satAdd_nrw (f : Fld) (n : Nat) (s : State) : (satAdd f n s).nrw = s.nrw := by simp [satAdd]
@[simp] theorem satAdd_obs (f : Fld) (n : Nat) (s : State) : (satAdd f n s).obs = s.obs := by simp [satAdd]
@[simp] theorem satAdd_jtag (f : Fld) (n : Nat) (s : State) : (satAdd f n s).jtag = s.jtag := by simp [satAdd]
@[simp] theorem satInc_pending (f : Fld) (s : State) : (satInc f s).pending = s.pending := by simp [satInc]
@[simp] theorem satInc_out (f : Fld) (s : State) : (satInc f s).out = s.out := by simp [satInc]
@[simp] theorem satInc_fresh (f : Fld) (s : State) : (satInc f s).fresh = s.fresh := by simp [satInc]
@[simp] theorem satInc_staged (f : Fld) (s : State) : (satInc f s).staged = s.staged := by simp [satInc]
@[simp] theorem satInc_captured (f : Fld) (s : State) : (satInc f s).captured = s.captured := by simp [satInc]
@[simp] theorem satInc_variant (f : Fld) (s : State) : (satInc f s).variant = s.variant := by simp [satInc]
@[simp] theorem satInc_devid (f : Fld) (s : State) : (satInc f s).devid = s.devid := by simp [satInc]
@[simp] theorem satInc_serial (f : Fld) (s : State) : (satInc f s).serial = s.serial := by simp [satInc]
@[simp] theorem satInc_cfg (f : Fld) (s : State) : (satInc f s).cfg = s.cfg := by simp [satInc]
@[simp] theorem satInc_tick (f : Fld) (s : State) : (satInc f s).tick = s.tick := by simp [satInc]
@[simp] theorem satInc_sed (f : Fld) (s : State) : (satInc f s).sed = s.sed := by simp [satInc]
@[simp] theorem satInc_gauge (f : Fld) (s : State) : (satInc f s).gauge = s.gauge := by simp [satInc]
@[simp] theorem satInc_ndx (f : Fld) (s : State) : (satInc f s).ndx = s.ndx := by simp [satInc]
@[simp] theorem satInc_heads (f : Fld) (s : State) : (satInc f s).heads = s.heads := by simp [satInc]
@[simp] theorem satInc_poison (f : Fld) (s : State) : (satInc f s).poison = s.poison := by simp [satInc]
@[simp] theorem satInc_queues (f : Fld) (s : State) : (satInc f s).queues = s.queues := by simp [satInc]
@[simp] theorem satInc_tracker (f : Fld) (s : State) : (satInc f s).tracker = s.tracker := by simp [satInc]
@[simp] theorem satInc_ways (f : Fld) (s : State) : (satInc f s).ways = s.ways := by simp [satInc]
@[simp] theorem satInc_slices (f : Fld) (s : State) : (satInc f s).slices = s.slices := by simp [satInc]
@[simp] theorem satInc_fills (f : Fld) (s : State) : (satInc f s).fills = s.fills := by simp [satInc]
@[simp] theorem satInc_lcmds (f : Fld) (s : State) : (satInc f s).lcmds = s.lcmds := by simp [satInc]
@[simp] theorem satInc_media (f : Fld) (s : State) : (satInc f s).media = s.media := by simp [satInc]
@[simp] theorem satInc_mtl (f : Fld) (s : State) : (satInc f s).mtl = s.mtl := by simp [satInc]
@[simp] theorem satInc_icu (f : Fld) (s : State) : (satInc f s).icu = s.icu := by simp [satInc]
@[simp] theorem satInc_vault (f : Fld) (s : State) : (satInc f s).vault = s.vault := by simp [satInc]
@[simp] theorem satInc_memp (f : Fld) (s : State) : (satInc f s).memp = s.memp := by simp [satInc]
@[simp] theorem satInc_movers (f : Fld) (s : State) : (satInc f s).movers = s.movers := by simp [satInc]
@[simp] theorem satInc_mgmt (f : Fld) (s : State) : (satInc f s).mgmt = s.mgmt := by simp [satInc]
@[simp] theorem satInc_flash (f : Fld) (s : State) : (satInc f s).flash = s.flash := by simp [satInc]
@[simp] theorem satInc_pwr (f : Fld) (s : State) : (satInc f s).pwr = s.pwr := by simp [satInc]
@[simp] theorem satInc_sup (f : Fld) (s : State) : (satInc f s).sup = s.sup := by simp [satInc]
@[simp] theorem satInc_therm (f : Fld) (s : State) : (satInc f s).therm = s.therm := by simp [satInc]
@[simp] theorem satInc_nrw (f : Fld) (s : State) : (satInc f s).nrw = s.nrw := by simp [satInc]
@[simp] theorem satInc_obs (f : Fld) (s : State) : (satInc f s).obs = s.obs := by simp [satInc]
@[simp] theorem satInc_jtag (f : Fld) (s : State) : (satInc f s).jtag = s.jtag := by simp [satInc]
@[simp] theorem emit_pending (o : Out) (s : State) : (emit o s).pending = s.pending := rfl
@[simp] theorem emit_fresh (o : Out) (s : State) : (emit o s).fresh = s.fresh := rfl
@[simp] theorem emit_regs (o : Out) (s : State) : (emit o s).regs = s.regs := rfl
@[simp] theorem emit_staged (o : Out) (s : State) : (emit o s).staged = s.staged := rfl
@[simp] theorem emit_captured (o : Out) (s : State) : (emit o s).captured = s.captured := rfl
@[simp] theorem emit_variant (o : Out) (s : State) : (emit o s).variant = s.variant := rfl
@[simp] theorem emit_devid (o : Out) (s : State) : (emit o s).devid = s.devid := rfl
@[simp] theorem emit_serial (o : Out) (s : State) : (emit o s).serial = s.serial := rfl
@[simp] theorem emit_cfg (o : Out) (s : State) : (emit o s).cfg = s.cfg := rfl
@[simp] theorem emit_tick (o : Out) (s : State) : (emit o s).tick = s.tick := rfl
@[simp] theorem emit_sed (o : Out) (s : State) : (emit o s).sed = s.sed := rfl
@[simp] theorem emit_gauge (o : Out) (s : State) : (emit o s).gauge = s.gauge := rfl
@[simp] theorem emit_ndx (o : Out) (s : State) : (emit o s).ndx = s.ndx := rfl
@[simp] theorem emit_heads (o : Out) (s : State) : (emit o s).heads = s.heads := rfl
@[simp] theorem emit_poison (o : Out) (s : State) : (emit o s).poison = s.poison := rfl
@[simp] theorem emit_queues (o : Out) (s : State) : (emit o s).queues = s.queues := rfl
@[simp] theorem emit_tracker (o : Out) (s : State) : (emit o s).tracker = s.tracker := rfl
@[simp] theorem emit_ways (o : Out) (s : State) : (emit o s).ways = s.ways := rfl
@[simp] theorem emit_slices (o : Out) (s : State) : (emit o s).slices = s.slices := rfl
@[simp] theorem emit_fills (o : Out) (s : State) : (emit o s).fills = s.fills := rfl
@[simp] theorem emit_lcmds (o : Out) (s : State) : (emit o s).lcmds = s.lcmds := rfl
@[simp] theorem emit_media (o : Out) (s : State) : (emit o s).media = s.media := rfl
@[simp] theorem emit_mtl (o : Out) (s : State) : (emit o s).mtl = s.mtl := rfl
@[simp] theorem emit_icu (o : Out) (s : State) : (emit o s).icu = s.icu := rfl
@[simp] theorem emit_vault (o : Out) (s : State) : (emit o s).vault = s.vault := rfl
@[simp] theorem emit_memp (o : Out) (s : State) : (emit o s).memp = s.memp := rfl
@[simp] theorem emit_movers (o : Out) (s : State) : (emit o s).movers = s.movers := rfl
@[simp] theorem emit_mgmt (o : Out) (s : State) : (emit o s).mgmt = s.mgmt := rfl
@[simp] theorem emit_flash (o : Out) (s : State) : (emit o s).flash = s.flash := rfl
@[simp] theorem emit_pwr (o : Out) (s : State) : (emit o s).pwr = s.pwr := rfl
@[simp] theorem emit_sup (o : Out) (s : State) : (emit o s).sup = s.sup := rfl
@[simp] theorem emit_therm (o : Out) (s : State) : (emit o s).therm = s.therm := rfl
@[simp] theorem emit_nrw (o : Out) (s : State) : (emit o s).nrw = s.nrw := rfl
@[simp] theorem emit_obs (o : Out) (s : State) : (emit o s).obs = s.obs := rfl
@[simp] theorem emit_jtag (o : Out) (s : State) : (emit o s).jtag = s.jtag := rfl
@[simp] theorem reg_emit (o : Out) (s : State) (x : Nat) : State.reg (emit o s) x = s.reg x := rfl
@[simp] theorem fld_emit (o : Out) (s : State) (g : Fld) : fld (emit o s) g = fld s g := rfl
@[simp] theorem bit_emit (o : Out) (s : State) (g : Fld) : bit (emit o s) g = bit s g := rfl
@[simp] theorem emits_pending (l : List Out) (s : State) : (emits l s).pending = s.pending := rfl
@[simp] theorem emits_fresh (l : List Out) (s : State) : (emits l s).fresh = s.fresh := rfl
@[simp] theorem emits_regs (l : List Out) (s : State) : (emits l s).regs = s.regs := rfl
@[simp] theorem emits_staged (l : List Out) (s : State) : (emits l s).staged = s.staged := rfl
@[simp] theorem emits_captured (l : List Out) (s : State) : (emits l s).captured = s.captured := rfl
@[simp] theorem emits_variant (l : List Out) (s : State) : (emits l s).variant = s.variant := rfl
@[simp] theorem emits_devid (l : List Out) (s : State) : (emits l s).devid = s.devid := rfl
@[simp] theorem emits_serial (l : List Out) (s : State) : (emits l s).serial = s.serial := rfl
@[simp] theorem emits_cfg (l : List Out) (s : State) : (emits l s).cfg = s.cfg := rfl
@[simp] theorem emits_tick (l : List Out) (s : State) : (emits l s).tick = s.tick := rfl
@[simp] theorem emits_sed (l : List Out) (s : State) : (emits l s).sed = s.sed := rfl
@[simp] theorem emits_gauge (l : List Out) (s : State) : (emits l s).gauge = s.gauge := rfl
@[simp] theorem emits_ndx (l : List Out) (s : State) : (emits l s).ndx = s.ndx := rfl
@[simp] theorem emits_heads (l : List Out) (s : State) : (emits l s).heads = s.heads := rfl
@[simp] theorem emits_poison (l : List Out) (s : State) : (emits l s).poison = s.poison := rfl
@[simp] theorem emits_queues (l : List Out) (s : State) : (emits l s).queues = s.queues := rfl
@[simp] theorem emits_tracker (l : List Out) (s : State) : (emits l s).tracker = s.tracker := rfl
@[simp] theorem emits_ways (l : List Out) (s : State) : (emits l s).ways = s.ways := rfl
@[simp] theorem emits_slices (l : List Out) (s : State) : (emits l s).slices = s.slices := rfl
@[simp] theorem emits_fills (l : List Out) (s : State) : (emits l s).fills = s.fills := rfl
@[simp] theorem emits_lcmds (l : List Out) (s : State) : (emits l s).lcmds = s.lcmds := rfl
@[simp] theorem emits_media (l : List Out) (s : State) : (emits l s).media = s.media := rfl
@[simp] theorem emits_mtl (l : List Out) (s : State) : (emits l s).mtl = s.mtl := rfl
@[simp] theorem emits_icu (l : List Out) (s : State) : (emits l s).icu = s.icu := rfl
@[simp] theorem emits_vault (l : List Out) (s : State) : (emits l s).vault = s.vault := rfl
@[simp] theorem emits_memp (l : List Out) (s : State) : (emits l s).memp = s.memp := rfl
@[simp] theorem emits_movers (l : List Out) (s : State) : (emits l s).movers = s.movers := rfl
@[simp] theorem emits_mgmt (l : List Out) (s : State) : (emits l s).mgmt = s.mgmt := rfl
@[simp] theorem emits_flash (l : List Out) (s : State) : (emits l s).flash = s.flash := rfl
@[simp] theorem emits_pwr (l : List Out) (s : State) : (emits l s).pwr = s.pwr := rfl
@[simp] theorem emits_sup (l : List Out) (s : State) : (emits l s).sup = s.sup := rfl
@[simp] theorem emits_therm (l : List Out) (s : State) : (emits l s).therm = s.therm := rfl
@[simp] theorem emits_nrw (l : List Out) (s : State) : (emits l s).nrw = s.nrw := rfl
@[simp] theorem emits_obs (l : List Out) (s : State) : (emits l s).obs = s.obs := rfl
@[simp] theorem emits_jtag (l : List Out) (s : State) : (emits l s).jtag = s.jtag := rfl
@[simp] theorem reg_emits (l : List Out) (s : State) (x : Nat) : State.reg (emits l s) x = s.reg x := rfl
@[simp] theorem fld_emits (l : List Out) (s : State) (g : Fld) : fld (emits l s) g = fld s g := rfl
@[simp] theorem bit_emits (l : List Out) (s : State) (g : Fld) : bit (emits l s) g = bit s g := rfl
@[simp] theorem answer_pending (p o c : Nat) (b : List Byte) (s : State) : (answer p o c b s).pending = s.pending := rfl
@[simp] theorem answer_fresh (p o c : Nat) (b : List Byte) (s : State) : (answer p o c b s).fresh = s.fresh := rfl
@[simp] theorem answer_regs (p o c : Nat) (b : List Byte) (s : State) : (answer p o c b s).regs = s.regs := rfl
@[simp] theorem answer_staged (p o c : Nat) (b : List Byte) (s : State) : (answer p o c b s).staged = s.staged := rfl
@[simp] theorem answer_captured (p o c : Nat) (b : List Byte) (s : State) : (answer p o c b s).captured = s.captured := rfl
@[simp] theorem answer_variant (p o c : Nat) (b : List Byte) (s : State) : (answer p o c b s).variant = s.variant := rfl
@[simp] theorem answer_devid (p o c : Nat) (b : List Byte) (s : State) : (answer p o c b s).devid = s.devid := rfl
@[simp] theorem answer_serial (p o c : Nat) (b : List Byte) (s : State) : (answer p o c b s).serial = s.serial := rfl
@[simp] theorem answer_cfg (p o c : Nat) (b : List Byte) (s : State) : (answer p o c b s).cfg = s.cfg := rfl
@[simp] theorem answer_tick (p o c : Nat) (b : List Byte) (s : State) : (answer p o c b s).tick = s.tick := rfl
@[simp] theorem answer_sed (p o c : Nat) (b : List Byte) (s : State) : (answer p o c b s).sed = s.sed := rfl
@[simp] theorem answer_gauge (p o c : Nat) (b : List Byte) (s : State) : (answer p o c b s).gauge = s.gauge := rfl
@[simp] theorem answer_ndx (p o c : Nat) (b : List Byte) (s : State) : (answer p o c b s).ndx = s.ndx := rfl
@[simp] theorem answer_heads (p o c : Nat) (b : List Byte) (s : State) : (answer p o c b s).heads = s.heads := rfl
@[simp] theorem answer_poison (p o c : Nat) (b : List Byte) (s : State) : (answer p o c b s).poison = s.poison := rfl
@[simp] theorem answer_queues (p o c : Nat) (b : List Byte) (s : State) : (answer p o c b s).queues = s.queues := rfl
@[simp] theorem answer_tracker (p o c : Nat) (b : List Byte) (s : State) : (answer p o c b s).tracker = s.tracker := rfl
@[simp] theorem answer_ways (p o c : Nat) (b : List Byte) (s : State) : (answer p o c b s).ways = s.ways := rfl
@[simp] theorem answer_slices (p o c : Nat) (b : List Byte) (s : State) : (answer p o c b s).slices = s.slices := rfl
@[simp] theorem answer_fills (p o c : Nat) (b : List Byte) (s : State) : (answer p o c b s).fills = s.fills := rfl
@[simp] theorem answer_lcmds (p o c : Nat) (b : List Byte) (s : State) : (answer p o c b s).lcmds = s.lcmds := rfl
@[simp] theorem answer_media (p o c : Nat) (b : List Byte) (s : State) : (answer p o c b s).media = s.media := rfl
@[simp] theorem answer_mtl (p o c : Nat) (b : List Byte) (s : State) : (answer p o c b s).mtl = s.mtl := rfl
@[simp] theorem answer_icu (p o c : Nat) (b : List Byte) (s : State) : (answer p o c b s).icu = s.icu := rfl
@[simp] theorem answer_vault (p o c : Nat) (b : List Byte) (s : State) : (answer p o c b s).vault = s.vault := rfl
@[simp] theorem answer_memp (p o c : Nat) (b : List Byte) (s : State) : (answer p o c b s).memp = s.memp := rfl
@[simp] theorem answer_movers (p o c : Nat) (b : List Byte) (s : State) : (answer p o c b s).movers = s.movers := rfl
@[simp] theorem answer_mgmt (p o c : Nat) (b : List Byte) (s : State) : (answer p o c b s).mgmt = s.mgmt := rfl
@[simp] theorem answer_flash (p o c : Nat) (b : List Byte) (s : State) : (answer p o c b s).flash = s.flash := rfl
@[simp] theorem answer_pwr (p o c : Nat) (b : List Byte) (s : State) : (answer p o c b s).pwr = s.pwr := rfl
@[simp] theorem answer_sup (p o c : Nat) (b : List Byte) (s : State) : (answer p o c b s).sup = s.sup := rfl
@[simp] theorem answer_therm (p o c : Nat) (b : List Byte) (s : State) : (answer p o c b s).therm = s.therm := rfl
@[simp] theorem answer_nrw (p o c : Nat) (b : List Byte) (s : State) : (answer p o c b s).nrw = s.nrw := rfl
@[simp] theorem answer_obs (p o c : Nat) (b : List Byte) (s : State) : (answer p o c b s).obs = s.obs := rfl
@[simp] theorem answer_jtag (p o c : Nat) (b : List Byte) (s : State) : (answer p o c b s).jtag = s.jtag := rfl
@[simp] theorem reg_answer (p o c : Nat) (b : List Byte) (s : State) (x : Nat) : State.reg (answer p o c b s) x = s.reg x := rfl
@[simp] theorem fld_answer (p o c : Nat) (b : List Byte) (s : State) (g : Fld) : fld (answer p o c b s) g = fld s g := rfl
@[simp] theorem bit_answer (p o c : Nat) (b : List Byte) (s : State) (g : Fld) : bit (answer p o c b s) g = bit s g := rfl
@[simp] theorem drawS_pending (w : Nat) (s : State) : ((draw w s).2).pending = s.pending := rfl
@[simp] theorem drawS_out (w : Nat) (s : State) : ((draw w s).2).out = s.out := rfl
@[simp] theorem drawS_regs (w : Nat) (s : State) : ((draw w s).2).regs = s.regs := rfl
@[simp] theorem drawS_staged (w : Nat) (s : State) : ((draw w s).2).staged = s.staged := rfl
@[simp] theorem drawS_captured (w : Nat) (s : State) : ((draw w s).2).captured = s.captured := rfl
@[simp] theorem drawS_variant (w : Nat) (s : State) : ((draw w s).2).variant = s.variant := rfl
@[simp] theorem drawS_devid (w : Nat) (s : State) : ((draw w s).2).devid = s.devid := rfl
@[simp] theorem drawS_serial (w : Nat) (s : State) : ((draw w s).2).serial = s.serial := rfl
@[simp] theorem drawS_cfg (w : Nat) (s : State) : ((draw w s).2).cfg = s.cfg := rfl
@[simp] theorem drawS_tick (w : Nat) (s : State) : ((draw w s).2).tick = s.tick := rfl
@[simp] theorem drawS_sed (w : Nat) (s : State) : ((draw w s).2).sed = s.sed := rfl
@[simp] theorem drawS_gauge (w : Nat) (s : State) : ((draw w s).2).gauge = s.gauge := rfl
@[simp] theorem drawS_ndx (w : Nat) (s : State) : ((draw w s).2).ndx = s.ndx := rfl
@[simp] theorem drawS_heads (w : Nat) (s : State) : ((draw w s).2).heads = s.heads := rfl
@[simp] theorem drawS_poison (w : Nat) (s : State) : ((draw w s).2).poison = s.poison := rfl
@[simp] theorem drawS_queues (w : Nat) (s : State) : ((draw w s).2).queues = s.queues := rfl
@[simp] theorem drawS_tracker (w : Nat) (s : State) : ((draw w s).2).tracker = s.tracker := rfl
@[simp] theorem drawS_ways (w : Nat) (s : State) : ((draw w s).2).ways = s.ways := rfl
@[simp] theorem drawS_slices (w : Nat) (s : State) : ((draw w s).2).slices = s.slices := rfl
@[simp] theorem drawS_fills (w : Nat) (s : State) : ((draw w s).2).fills = s.fills := rfl
@[simp] theorem drawS_lcmds (w : Nat) (s : State) : ((draw w s).2).lcmds = s.lcmds := rfl
@[simp] theorem drawS_media (w : Nat) (s : State) : ((draw w s).2).media = s.media := rfl
@[simp] theorem drawS_mtl (w : Nat) (s : State) : ((draw w s).2).mtl = s.mtl := rfl
@[simp] theorem drawS_icu (w : Nat) (s : State) : ((draw w s).2).icu = s.icu := rfl
@[simp] theorem drawS_vault (w : Nat) (s : State) : ((draw w s).2).vault = s.vault := rfl
@[simp] theorem drawS_memp (w : Nat) (s : State) : ((draw w s).2).memp = s.memp := rfl
@[simp] theorem drawS_movers (w : Nat) (s : State) : ((draw w s).2).movers = s.movers := rfl
@[simp] theorem drawS_mgmt (w : Nat) (s : State) : ((draw w s).2).mgmt = s.mgmt := rfl
@[simp] theorem drawS_flash (w : Nat) (s : State) : ((draw w s).2).flash = s.flash := rfl
@[simp] theorem drawS_pwr (w : Nat) (s : State) : ((draw w s).2).pwr = s.pwr := rfl
@[simp] theorem drawS_sup (w : Nat) (s : State) : ((draw w s).2).sup = s.sup := rfl
@[simp] theorem drawS_therm (w : Nat) (s : State) : ((draw w s).2).therm = s.therm := rfl
@[simp] theorem drawS_nrw (w : Nat) (s : State) : ((draw w s).2).nrw = s.nrw := rfl
@[simp] theorem drawS_obs (w : Nat) (s : State) : ((draw w s).2).obs = s.obs := rfl
@[simp] theorem drawS_jtag (w : Nat) (s : State) : ((draw w s).2).jtag = s.jtag := rfl
@[simp] theorem reg_drawS (w : Nat) (s : State) (x : Nat) : State.reg ((draw w s).2) x = s.reg x := rfl
@[simp] theorem fld_drawS (w : Nat) (s : State) (g : Fld) : fld ((draw w s).2) g = fld s g := rfl
@[simp] theorem bit_drawS (w : Nat) (s : State) (g : Fld) : bit ((draw w s).2) g = bit s g := rfl
@[simp] theorem modHead_pending (h : Nat) (f : Head → Head) (s : State) : (modHead h f s).pending = s.pending := rfl
@[simp] theorem modHead_out (h : Nat) (f : Head → Head) (s : State) : (modHead h f s).out = s.out := rfl
@[simp] theorem modHead_fresh (h : Nat) (f : Head → Head) (s : State) : (modHead h f s).fresh = s.fresh := rfl
@[simp] theorem modHead_regs (h : Nat) (f : Head → Head) (s : State) : (modHead h f s).regs = s.regs := rfl
@[simp] theorem modHead_staged (h : Nat) (f : Head → Head) (s : State) : (modHead h f s).staged = s.staged := rfl
@[simp] theorem modHead_captured (h : Nat) (f : Head → Head) (s : State) : (modHead h f s).captured = s.captured := rfl
@[simp] theorem modHead_variant (h : Nat) (f : Head → Head) (s : State) : (modHead h f s).variant = s.variant := rfl
@[simp] theorem modHead_devid (h : Nat) (f : Head → Head) (s : State) : (modHead h f s).devid = s.devid := rfl
@[simp] theorem modHead_serial (h : Nat) (f : Head → Head) (s : State) : (modHead h f s).serial = s.serial := rfl
@[simp] theorem modHead_cfg (h : Nat) (f : Head → Head) (s : State) : (modHead h f s).cfg = s.cfg := rfl
@[simp] theorem modHead_tick (h : Nat) (f : Head → Head) (s : State) : (modHead h f s).tick = s.tick := rfl
@[simp] theorem modHead_sed (h : Nat) (f : Head → Head) (s : State) : (modHead h f s).sed = s.sed := rfl
@[simp] theorem modHead_gauge (h : Nat) (f : Head → Head) (s : State) : (modHead h f s).gauge = s.gauge := rfl
@[simp] theorem modHead_ndx (h : Nat) (f : Head → Head) (s : State) : (modHead h f s).ndx = s.ndx := rfl
@[simp] theorem modHead_poison (h : Nat) (f : Head → Head) (s : State) : (modHead h f s).poison = s.poison := rfl
@[simp] theorem modHead_queues (h : Nat) (f : Head → Head) (s : State) : (modHead h f s).queues = s.queues := rfl
@[simp] theorem modHead_tracker (h : Nat) (f : Head → Head) (s : State) : (modHead h f s).tracker = s.tracker := rfl
@[simp] theorem modHead_ways (h : Nat) (f : Head → Head) (s : State) : (modHead h f s).ways = s.ways := rfl
@[simp] theorem modHead_slices (h : Nat) (f : Head → Head) (s : State) : (modHead h f s).slices = s.slices := rfl
@[simp] theorem modHead_fills (h : Nat) (f : Head → Head) (s : State) : (modHead h f s).fills = s.fills := rfl
@[simp] theorem modHead_lcmds (h : Nat) (f : Head → Head) (s : State) : (modHead h f s).lcmds = s.lcmds := rfl
@[simp] theorem modHead_media (h : Nat) (f : Head → Head) (s : State) : (modHead h f s).media = s.media := rfl
@[simp] theorem modHead_mtl (h : Nat) (f : Head → Head) (s : State) : (modHead h f s).mtl = s.mtl := rfl
@[simp] theorem modHead_icu (h : Nat) (f : Head → Head) (s : State) : (modHead h f s).icu = s.icu := rfl
@[simp] theorem modHead_vault (h : Nat) (f : Head → Head) (s : State) : (modHead h f s).vault = s.vault := rfl
@[simp] theorem modHead_memp (h : Nat) (f : Head → Head) (s : State) : (modHead h f s).memp = s.memp := rfl
@[simp] theorem modHead_movers (h : Nat) (f : Head → Head) (s : State) : (modHead h f s).movers = s.movers := rfl
@[simp] theorem modHead_mgmt (h : Nat) (f : Head → Head) (s : State) : (modHead h f s).mgmt = s.mgmt := rfl
@[simp] theorem modHead_flash (h : Nat) (f : Head → Head) (s : State) : (modHead h f s).flash = s.flash := rfl
@[simp] theorem modHead_pwr (h : Nat) (f : Head → Head) (s : State) : (modHead h f s).pwr = s.pwr := rfl
@[simp] theorem modHead_sup (h : Nat) (f : Head → Head) (s : State) : (modHead h f s).sup = s.sup := rfl
@[simp] theorem modHead_therm (h : Nat) (f : Head → Head) (s : State) : (modHead h f s).therm = s.therm := rfl
@[simp] theorem modHead_nrw (h : Nat) (f : Head → Head) (s : State) : (modHead h f s).nrw = s.nrw := rfl
@[simp] theorem modHead_obs (h : Nat) (f : Head → Head) (s : State) : (modHead h f s).obs = s.obs := rfl
@[simp] theorem modHead_jtag (h : Nat) (f : Head → Head) (s : State) : (modHead h f s).jtag = s.jtag := rfl
@[simp] theorem reg_modHead (h : Nat) (f : Head → Head) (s : State) (x : Nat) : State.reg (modHead h f s) x = s.reg x := rfl
@[simp] theorem fld_modHead (h : Nat) (f : Head → Head) (s : State) (g : Fld) : fld (modHead h f s) g = fld s g := rfl
@[simp] theorem bit_modHead (h : Nat) (f : Head → Head) (s : State) (g : Fld) : bit (modHead h f s) g = bit s g := rfl
@[simp] theorem modFlash_pending (f : Flash → Flash) (s : State) : (modFlash f s).pending = s.pending := rfl
@[simp] theorem modFlash_out (f : Flash → Flash) (s : State) : (modFlash f s).out = s.out := rfl
@[simp] theorem modFlash_fresh (f : Flash → Flash) (s : State) : (modFlash f s).fresh = s.fresh := rfl
@[simp] theorem modFlash_regs (f : Flash → Flash) (s : State) : (modFlash f s).regs = s.regs := rfl
@[simp] theorem modFlash_staged (f : Flash → Flash) (s : State) : (modFlash f s).staged = s.staged := rfl
@[simp] theorem modFlash_captured (f : Flash → Flash) (s : State) : (modFlash f s).captured = s.captured := rfl
@[simp] theorem modFlash_variant (f : Flash → Flash) (s : State) : (modFlash f s).variant = s.variant := rfl
@[simp] theorem modFlash_devid (f : Flash → Flash) (s : State) : (modFlash f s).devid = s.devid := rfl
@[simp] theorem modFlash_serial (f : Flash → Flash) (s : State) : (modFlash f s).serial = s.serial := rfl
@[simp] theorem modFlash_cfg (f : Flash → Flash) (s : State) : (modFlash f s).cfg = s.cfg := rfl
@[simp] theorem modFlash_tick (f : Flash → Flash) (s : State) : (modFlash f s).tick = s.tick := rfl
@[simp] theorem modFlash_sed (f : Flash → Flash) (s : State) : (modFlash f s).sed = s.sed := rfl
@[simp] theorem modFlash_gauge (f : Flash → Flash) (s : State) : (modFlash f s).gauge = s.gauge := rfl
@[simp] theorem modFlash_ndx (f : Flash → Flash) (s : State) : (modFlash f s).ndx = s.ndx := rfl
@[simp] theorem modFlash_heads (f : Flash → Flash) (s : State) : (modFlash f s).heads = s.heads := rfl
@[simp] theorem modFlash_poison (f : Flash → Flash) (s : State) : (modFlash f s).poison = s.poison := rfl
@[simp] theorem modFlash_queues (f : Flash → Flash) (s : State) : (modFlash f s).queues = s.queues := rfl
@[simp] theorem modFlash_tracker (f : Flash → Flash) (s : State) : (modFlash f s).tracker = s.tracker := rfl
@[simp] theorem modFlash_ways (f : Flash → Flash) (s : State) : (modFlash f s).ways = s.ways := rfl
@[simp] theorem modFlash_slices (f : Flash → Flash) (s : State) : (modFlash f s).slices = s.slices := rfl
@[simp] theorem modFlash_fills (f : Flash → Flash) (s : State) : (modFlash f s).fills = s.fills := rfl
@[simp] theorem modFlash_lcmds (f : Flash → Flash) (s : State) : (modFlash f s).lcmds = s.lcmds := rfl
@[simp] theorem modFlash_media (f : Flash → Flash) (s : State) : (modFlash f s).media = s.media := rfl
@[simp] theorem modFlash_mtl (f : Flash → Flash) (s : State) : (modFlash f s).mtl = s.mtl := rfl
@[simp] theorem modFlash_icu (f : Flash → Flash) (s : State) : (modFlash f s).icu = s.icu := rfl
@[simp] theorem modFlash_vault (f : Flash → Flash) (s : State) : (modFlash f s).vault = s.vault := rfl
@[simp] theorem modFlash_memp (f : Flash → Flash) (s : State) : (modFlash f s).memp = s.memp := rfl
@[simp] theorem modFlash_movers (f : Flash → Flash) (s : State) : (modFlash f s).movers = s.movers := rfl
@[simp] theorem modFlash_mgmt (f : Flash → Flash) (s : State) : (modFlash f s).mgmt = s.mgmt := rfl
@[simp] theorem modFlash_pwr (f : Flash → Flash) (s : State) : (modFlash f s).pwr = s.pwr := rfl
@[simp] theorem modFlash_sup (f : Flash → Flash) (s : State) : (modFlash f s).sup = s.sup := rfl
@[simp] theorem modFlash_therm (f : Flash → Flash) (s : State) : (modFlash f s).therm = s.therm := rfl
@[simp] theorem modFlash_nrw (f : Flash → Flash) (s : State) : (modFlash f s).nrw = s.nrw := rfl
@[simp] theorem modFlash_obs (f : Flash → Flash) (s : State) : (modFlash f s).obs = s.obs := rfl
@[simp] theorem modFlash_jtag (f : Flash → Flash) (s : State) : (modFlash f s).jtag = s.jtag := rfl
@[simp] theorem reg_modFlash (f : Flash → Flash) (s : State) (x : Nat) : State.reg (modFlash f s) x = s.reg x := rfl
@[simp] theorem fld_modFlash (f : Flash → Flash) (s : State) (g : Fld) : fld (modFlash f s) g = fld s g := rfl
@[simp] theorem bit_modFlash (f : Flash → Flash) (s : State) (g : Fld) : bit (modFlash f s) g = bit s g := rfl
@[simp] theorem modSup_pending (f : Sup → Sup) (s : State) : (modSup f s).pending = s.pending := rfl
@[simp] theorem modSup_out (f : Sup → Sup) (s : State) : (modSup f s).out = s.out := rfl
@[simp] theorem modSup_fresh (f : Sup → Sup) (s : State) : (modSup f s).fresh = s.fresh := rfl
@[simp] theorem modSup_regs (f : Sup → Sup) (s : State) : (modSup f s).regs = s.regs := rfl
@[simp] theorem modSup_staged (f : Sup → Sup) (s : State) : (modSup f s).staged = s.staged := rfl
@[simp] theorem modSup_captured (f : Sup → Sup) (s : State) : (modSup f s).captured = s.captured := rfl
@[simp] theorem modSup_variant (f : Sup → Sup) (s : State) : (modSup f s).variant = s.variant := rfl
@[simp] theorem modSup_devid (f : Sup → Sup) (s : State) : (modSup f s).devid = s.devid := rfl
@[simp] theorem modSup_serial (f : Sup → Sup) (s : State) : (modSup f s).serial = s.serial := rfl
@[simp] theorem modSup_cfg (f : Sup → Sup) (s : State) : (modSup f s).cfg = s.cfg := rfl
@[simp] theorem modSup_tick (f : Sup → Sup) (s : State) : (modSup f s).tick = s.tick := rfl
@[simp] theorem modSup_sed (f : Sup → Sup) (s : State) : (modSup f s).sed = s.sed := rfl
@[simp] theorem modSup_gauge (f : Sup → Sup) (s : State) : (modSup f s).gauge = s.gauge := rfl
@[simp] theorem modSup_ndx (f : Sup → Sup) (s : State) : (modSup f s).ndx = s.ndx := rfl
@[simp] theorem modSup_heads (f : Sup → Sup) (s : State) : (modSup f s).heads = s.heads := rfl
@[simp] theorem modSup_poison (f : Sup → Sup) (s : State) : (modSup f s).poison = s.poison := rfl
@[simp] theorem modSup_queues (f : Sup → Sup) (s : State) : (modSup f s).queues = s.queues := rfl
@[simp] theorem modSup_tracker (f : Sup → Sup) (s : State) : (modSup f s).tracker = s.tracker := rfl
@[simp] theorem modSup_ways (f : Sup → Sup) (s : State) : (modSup f s).ways = s.ways := rfl
@[simp] theorem modSup_slices (f : Sup → Sup) (s : State) : (modSup f s).slices = s.slices := rfl
@[simp] theorem modSup_fills (f : Sup → Sup) (s : State) : (modSup f s).fills = s.fills := rfl
@[simp] theorem modSup_lcmds (f : Sup → Sup) (s : State) : (modSup f s).lcmds = s.lcmds := rfl
@[simp] theorem modSup_media (f : Sup → Sup) (s : State) : (modSup f s).media = s.media := rfl
@[simp] theorem modSup_mtl (f : Sup → Sup) (s : State) : (modSup f s).mtl = s.mtl := rfl
@[simp] theorem modSup_icu (f : Sup → Sup) (s : State) : (modSup f s).icu = s.icu := rfl
@[simp] theorem modSup_vault (f : Sup → Sup) (s : State) : (modSup f s).vault = s.vault := rfl
@[simp] theorem modSup_memp (f : Sup → Sup) (s : State) : (modSup f s).memp = s.memp := rfl
@[simp] theorem modSup_movers (f : Sup → Sup) (s : State) : (modSup f s).movers = s.movers := rfl
@[simp] theorem modSup_mgmt (f : Sup → Sup) (s : State) : (modSup f s).mgmt = s.mgmt := rfl
@[simp] theorem modSup_flash (f : Sup → Sup) (s : State) : (modSup f s).flash = s.flash := rfl
@[simp] theorem modSup_pwr (f : Sup → Sup) (s : State) : (modSup f s).pwr = s.pwr := rfl
@[simp] theorem modSup_therm (f : Sup → Sup) (s : State) : (modSup f s).therm = s.therm := rfl
@[simp] theorem modSup_nrw (f : Sup → Sup) (s : State) : (modSup f s).nrw = s.nrw := rfl
@[simp] theorem modSup_obs (f : Sup → Sup) (s : State) : (modSup f s).obs = s.obs := rfl
@[simp] theorem modSup_jtag (f : Sup → Sup) (s : State) : (modSup f s).jtag = s.jtag := rfl
@[simp] theorem reg_modSup (f : Sup → Sup) (s : State) (x : Nat) : State.reg (modSup f s) x = s.reg x := rfl
@[simp] theorem fld_modSup (f : Sup → Sup) (s : State) (g : Fld) : fld (modSup f s) g = fld s g := rfl
@[simp] theorem bit_modSup (f : Sup → Sup) (s : State) (g : Fld) : bit (modSup f s) g = bit s g := rfl
@[simp] theorem modPwr_pending (f : Power → Power) (s : State) : (modPwr f s).pending = s.pending := rfl
@[simp] theorem modPwr_out (f : Power → Power) (s : State) : (modPwr f s).out = s.out := rfl
@[simp] theorem modPwr_fresh (f : Power → Power) (s : State) : (modPwr f s).fresh = s.fresh := rfl
@[simp] theorem modPwr_regs (f : Power → Power) (s : State) : (modPwr f s).regs = s.regs := rfl
@[simp] theorem modPwr_staged (f : Power → Power) (s : State) : (modPwr f s).staged = s.staged := rfl
@[simp] theorem modPwr_captured (f : Power → Power) (s : State) : (modPwr f s).captured = s.captured := rfl
@[simp] theorem modPwr_variant (f : Power → Power) (s : State) : (modPwr f s).variant = s.variant := rfl
@[simp] theorem modPwr_devid (f : Power → Power) (s : State) : (modPwr f s).devid = s.devid := rfl
@[simp] theorem modPwr_serial (f : Power → Power) (s : State) : (modPwr f s).serial = s.serial := rfl
@[simp] theorem modPwr_cfg (f : Power → Power) (s : State) : (modPwr f s).cfg = s.cfg := rfl
@[simp] theorem modPwr_tick (f : Power → Power) (s : State) : (modPwr f s).tick = s.tick := rfl
@[simp] theorem modPwr_sed (f : Power → Power) (s : State) : (modPwr f s).sed = s.sed := rfl
@[simp] theorem modPwr_gauge (f : Power → Power) (s : State) : (modPwr f s).gauge = s.gauge := rfl
@[simp] theorem modPwr_ndx (f : Power → Power) (s : State) : (modPwr f s).ndx = s.ndx := rfl
@[simp] theorem modPwr_heads (f : Power → Power) (s : State) : (modPwr f s).heads = s.heads := rfl
@[simp] theorem modPwr_poison (f : Power → Power) (s : State) : (modPwr f s).poison = s.poison := rfl
@[simp] theorem modPwr_queues (f : Power → Power) (s : State) : (modPwr f s).queues = s.queues := rfl
@[simp] theorem modPwr_tracker (f : Power → Power) (s : State) : (modPwr f s).tracker = s.tracker := rfl
@[simp] theorem modPwr_ways (f : Power → Power) (s : State) : (modPwr f s).ways = s.ways := rfl
@[simp] theorem modPwr_slices (f : Power → Power) (s : State) : (modPwr f s).slices = s.slices := rfl
@[simp] theorem modPwr_fills (f : Power → Power) (s : State) : (modPwr f s).fills = s.fills := rfl
@[simp] theorem modPwr_lcmds (f : Power → Power) (s : State) : (modPwr f s).lcmds = s.lcmds := rfl
@[simp] theorem modPwr_media (f : Power → Power) (s : State) : (modPwr f s).media = s.media := rfl
@[simp] theorem modPwr_mtl (f : Power → Power) (s : State) : (modPwr f s).mtl = s.mtl := rfl
@[simp] theorem modPwr_icu (f : Power → Power) (s : State) : (modPwr f s).icu = s.icu := rfl
@[simp] theorem modPwr_vault (f : Power → Power) (s : State) : (modPwr f s).vault = s.vault := rfl
@[simp] theorem modPwr_memp (f : Power → Power) (s : State) : (modPwr f s).memp = s.memp := rfl
@[simp] theorem modPwr_movers (f : Power → Power) (s : State) : (modPwr f s).movers = s.movers := rfl
@[simp] theorem modPwr_mgmt (f : Power → Power) (s : State) : (modPwr f s).mgmt = s.mgmt := rfl
@[simp] theorem modPwr_flash (f : Power → Power) (s : State) : (modPwr f s).flash = s.flash := rfl
@[simp] theorem modPwr_sup (f : Power → Power) (s : State) : (modPwr f s).sup = s.sup := rfl
@[simp] theorem modPwr_therm (f : Power → Power) (s : State) : (modPwr f s).therm = s.therm := rfl
@[simp] theorem modPwr_nrw (f : Power → Power) (s : State) : (modPwr f s).nrw = s.nrw := rfl
@[simp] theorem modPwr_obs (f : Power → Power) (s : State) : (modPwr f s).obs = s.obs := rfl
@[simp] theorem modPwr_jtag (f : Power → Power) (s : State) : (modPwr f s).jtag = s.jtag := rfl
@[simp] theorem reg_modPwr (f : Power → Power) (s : State) (x : Nat) : State.reg (modPwr f s) x = s.reg x := rfl
@[simp] theorem fld_modPwr (f : Power → Power) (s : State) (g : Fld) : fld (modPwr f s) g = fld s g := rfl
@[simp] theorem bit_modPwr (f : Power → Power) (s : State) (g : Fld) : bit (modPwr f s) g = bit s g := rfl
@[simp] theorem modObs_pending (f : Obs → Obs) (s : State) : (modObs f s).pending = s.pending := rfl
@[simp] theorem modObs_out (f : Obs → Obs) (s : State) : (modObs f s).out = s.out := rfl
@[simp] theorem modObs_fresh (f : Obs → Obs) (s : State) : (modObs f s).fresh = s.fresh := rfl
@[simp] theorem modObs_regs (f : Obs → Obs) (s : State) : (modObs f s).regs = s.regs := rfl
@[simp] theorem modObs_staged (f : Obs → Obs) (s : State) : (modObs f s).staged = s.staged := rfl
@[simp] theorem modObs_captured (f : Obs → Obs) (s : State) : (modObs f s).captured = s.captured := rfl
@[simp] theorem modObs_variant (f : Obs → Obs) (s : State) : (modObs f s).variant = s.variant := rfl
@[simp] theorem modObs_devid (f : Obs → Obs) (s : State) : (modObs f s).devid = s.devid := rfl
@[simp] theorem modObs_serial (f : Obs → Obs) (s : State) : (modObs f s).serial = s.serial := rfl
@[simp] theorem modObs_cfg (f : Obs → Obs) (s : State) : (modObs f s).cfg = s.cfg := rfl
@[simp] theorem modObs_tick (f : Obs → Obs) (s : State) : (modObs f s).tick = s.tick := rfl
@[simp] theorem modObs_sed (f : Obs → Obs) (s : State) : (modObs f s).sed = s.sed := rfl
@[simp] theorem modObs_gauge (f : Obs → Obs) (s : State) : (modObs f s).gauge = s.gauge := rfl
@[simp] theorem modObs_ndx (f : Obs → Obs) (s : State) : (modObs f s).ndx = s.ndx := rfl
@[simp] theorem modObs_heads (f : Obs → Obs) (s : State) : (modObs f s).heads = s.heads := rfl
@[simp] theorem modObs_poison (f : Obs → Obs) (s : State) : (modObs f s).poison = s.poison := rfl
@[simp] theorem modObs_queues (f : Obs → Obs) (s : State) : (modObs f s).queues = s.queues := rfl
@[simp] theorem modObs_tracker (f : Obs → Obs) (s : State) : (modObs f s).tracker = s.tracker := rfl
@[simp] theorem modObs_ways (f : Obs → Obs) (s : State) : (modObs f s).ways = s.ways := rfl
@[simp] theorem modObs_slices (f : Obs → Obs) (s : State) : (modObs f s).slices = s.slices := rfl
@[simp] theorem modObs_fills (f : Obs → Obs) (s : State) : (modObs f s).fills = s.fills := rfl
@[simp] theorem modObs_lcmds (f : Obs → Obs) (s : State) : (modObs f s).lcmds = s.lcmds := rfl
@[simp] theorem modObs_media (f : Obs → Obs) (s : State) : (modObs f s).media = s.media := rfl
@[simp] theorem modObs_mtl (f : Obs → Obs) (s : State) : (modObs f s).mtl = s.mtl := rfl
@[simp] theorem modObs_icu (f : Obs → Obs) (s : State) : (modObs f s).icu = s.icu := rfl
@[simp] theorem modObs_vault (f : Obs → Obs) (s : State) : (modObs f s).vault = s.vault := rfl
@[simp] theorem modObs_memp (f : Obs → Obs) (s : State) : (modObs f s).memp = s.memp := rfl
@[simp] theorem modObs_movers (f : Obs → Obs) (s : State) : (modObs f s).movers = s.movers := rfl
@[simp] theorem modObs_mgmt (f : Obs → Obs) (s : State) : (modObs f s).mgmt = s.mgmt := rfl
@[simp] theorem modObs_flash (f : Obs → Obs) (s : State) : (modObs f s).flash = s.flash := rfl
@[simp] theorem modObs_pwr (f : Obs → Obs) (s : State) : (modObs f s).pwr = s.pwr := rfl
@[simp] theorem modObs_sup (f : Obs → Obs) (s : State) : (modObs f s).sup = s.sup := rfl
@[simp] theorem modObs_therm (f : Obs → Obs) (s : State) : (modObs f s).therm = s.therm := rfl
@[simp] theorem modObs_nrw (f : Obs → Obs) (s : State) : (modObs f s).nrw = s.nrw := rfl
@[simp] theorem modObs_jtag (f : Obs → Obs) (s : State) : (modObs f s).jtag = s.jtag := rfl
@[simp] theorem reg_modObs (f : Obs → Obs) (s : State) (x : Nat) : State.reg (modObs f s) x = s.reg x := rfl
@[simp] theorem fld_modObs (f : Obs → Obs) (s : State) (g : Fld) : fld (modObs f s) g = fld s g := rfl
@[simp] theorem bit_modObs (f : Obs → Obs) (s : State) (g : Fld) : bit (modObs f s) g = bit s g := rfl
@[simp] theorem modNrw_pending (f : Narrows → Narrows) (s : State) : (modNrw f s).pending = s.pending := rfl
@[simp] theorem modNrw_out (f : Narrows → Narrows) (s : State) : (modNrw f s).out = s.out := rfl
@[simp] theorem modNrw_fresh (f : Narrows → Narrows) (s : State) : (modNrw f s).fresh = s.fresh := rfl
@[simp] theorem modNrw_regs (f : Narrows → Narrows) (s : State) : (modNrw f s).regs = s.regs := rfl
@[simp] theorem modNrw_staged (f : Narrows → Narrows) (s : State) : (modNrw f s).staged = s.staged := rfl
@[simp] theorem modNrw_captured (f : Narrows → Narrows) (s : State) : (modNrw f s).captured = s.captured := rfl
@[simp] theorem modNrw_variant (f : Narrows → Narrows) (s : State) : (modNrw f s).variant = s.variant := rfl
@[simp] theorem modNrw_devid (f : Narrows → Narrows) (s : State) : (modNrw f s).devid = s.devid := rfl
@[simp] theorem modNrw_serial (f : Narrows → Narrows) (s : State) : (modNrw f s).serial = s.serial := rfl
@[simp] theorem modNrw_cfg (f : Narrows → Narrows) (s : State) : (modNrw f s).cfg = s.cfg := rfl
@[simp] theorem modNrw_tick (f : Narrows → Narrows) (s : State) : (modNrw f s).tick = s.tick := rfl
@[simp] theorem modNrw_sed (f : Narrows → Narrows) (s : State) : (modNrw f s).sed = s.sed := rfl
@[simp] theorem modNrw_gauge (f : Narrows → Narrows) (s : State) : (modNrw f s).gauge = s.gauge := rfl
@[simp] theorem modNrw_ndx (f : Narrows → Narrows) (s : State) : (modNrw f s).ndx = s.ndx := rfl
@[simp] theorem modNrw_heads (f : Narrows → Narrows) (s : State) : (modNrw f s).heads = s.heads := rfl
@[simp] theorem modNrw_poison (f : Narrows → Narrows) (s : State) : (modNrw f s).poison = s.poison := rfl
@[simp] theorem modNrw_queues (f : Narrows → Narrows) (s : State) : (modNrw f s).queues = s.queues := rfl
@[simp] theorem modNrw_tracker (f : Narrows → Narrows) (s : State) : (modNrw f s).tracker = s.tracker := rfl
@[simp] theorem modNrw_ways (f : Narrows → Narrows) (s : State) : (modNrw f s).ways = s.ways := rfl
@[simp] theorem modNrw_slices (f : Narrows → Narrows) (s : State) : (modNrw f s).slices = s.slices := rfl
@[simp] theorem modNrw_fills (f : Narrows → Narrows) (s : State) : (modNrw f s).fills = s.fills := rfl
@[simp] theorem modNrw_lcmds (f : Narrows → Narrows) (s : State) : (modNrw f s).lcmds = s.lcmds := rfl
@[simp] theorem modNrw_media (f : Narrows → Narrows) (s : State) : (modNrw f s).media = s.media := rfl
@[simp] theorem modNrw_mtl (f : Narrows → Narrows) (s : State) : (modNrw f s).mtl = s.mtl := rfl
@[simp] theorem modNrw_icu (f : Narrows → Narrows) (s : State) : (modNrw f s).icu = s.icu := rfl
@[simp] theorem modNrw_vault (f : Narrows → Narrows) (s : State) : (modNrw f s).vault = s.vault := rfl
@[simp] theorem modNrw_memp (f : Narrows → Narrows) (s : State) : (modNrw f s).memp = s.memp := rfl
@[simp] theorem modNrw_movers (f : Narrows → Narrows) (s : State) : (modNrw f s).movers = s.movers := rfl
@[simp] theorem modNrw_mgmt (f : Narrows → Narrows) (s : State) : (modNrw f s).mgmt = s.mgmt := rfl
@[simp] theorem modNrw_flash (f : Narrows → Narrows) (s : State) : (modNrw f s).flash = s.flash := rfl
@[simp] theorem modNrw_pwr (f : Narrows → Narrows) (s : State) : (modNrw f s).pwr = s.pwr := rfl
@[simp] theorem modNrw_sup (f : Narrows → Narrows) (s : State) : (modNrw f s).sup = s.sup := rfl
@[simp] theorem modNrw_therm (f : Narrows → Narrows) (s : State) : (modNrw f s).therm = s.therm := rfl
@[simp] theorem modNrw_obs (f : Narrows → Narrows) (s : State) : (modNrw f s).obs = s.obs := rfl
@[simp] theorem modNrw_jtag (f : Narrows → Narrows) (s : State) : (modNrw f s).jtag = s.jtag := rfl
@[simp] theorem reg_modNrw (f : Narrows → Narrows) (s : State) (x : Nat) : State.reg (modNrw f s) x = s.reg x := rfl
@[simp] theorem fld_modNrw (f : Narrows → Narrows) (s : State) (g : Fld) : fld (modNrw f s) g = fld s g := rfl
@[simp] theorem bit_modNrw (f : Narrows → Narrows) (s : State) (g : Fld) : bit (modNrw f s) g = bit s g := rfl
@[simp] theorem modTherm_pending (f : Therm → Therm) (s : State) : (modTherm f s).pending = s.pending := rfl
@[simp] theorem modTherm_out (f : Therm → Therm) (s : State) : (modTherm f s).out = s.out := rfl
@[simp] theorem modTherm_fresh (f : Therm → Therm) (s : State) : (modTherm f s).fresh = s.fresh := rfl
@[simp] theorem modTherm_regs (f : Therm → Therm) (s : State) : (modTherm f s).regs = s.regs := rfl
@[simp] theorem modTherm_staged (f : Therm → Therm) (s : State) : (modTherm f s).staged = s.staged := rfl
@[simp] theorem modTherm_captured (f : Therm → Therm) (s : State) : (modTherm f s).captured = s.captured := rfl
@[simp] theorem modTherm_variant (f : Therm → Therm) (s : State) : (modTherm f s).variant = s.variant := rfl
@[simp] theorem modTherm_devid (f : Therm → Therm) (s : State) : (modTherm f s).devid = s.devid := rfl
@[simp] theorem modTherm_serial (f : Therm → Therm) (s : State) : (modTherm f s).serial = s.serial := rfl
@[simp] theorem modTherm_cfg (f : Therm → Therm) (s : State) : (modTherm f s).cfg = s.cfg := rfl
@[simp] theorem modTherm_tick (f : Therm → Therm) (s : State) : (modTherm f s).tick = s.tick := rfl
@[simp] theorem modTherm_sed (f : Therm → Therm) (s : State) : (modTherm f s).sed = s.sed := rfl
@[simp] theorem modTherm_gauge (f : Therm → Therm) (s : State) : (modTherm f s).gauge = s.gauge := rfl
@[simp] theorem modTherm_ndx (f : Therm → Therm) (s : State) : (modTherm f s).ndx = s.ndx := rfl
@[simp] theorem modTherm_heads (f : Therm → Therm) (s : State) : (modTherm f s).heads = s.heads := rfl
@[simp] theorem modTherm_poison (f : Therm → Therm) (s : State) : (modTherm f s).poison = s.poison := rfl
@[simp] theorem modTherm_queues (f : Therm → Therm) (s : State) : (modTherm f s).queues = s.queues := rfl
@[simp] theorem modTherm_tracker (f : Therm → Therm) (s : State) : (modTherm f s).tracker = s.tracker := rfl
@[simp] theorem modTherm_ways (f : Therm → Therm) (s : State) : (modTherm f s).ways = s.ways := rfl
@[simp] theorem modTherm_slices (f : Therm → Therm) (s : State) : (modTherm f s).slices = s.slices := rfl
@[simp] theorem modTherm_fills (f : Therm → Therm) (s : State) : (modTherm f s).fills = s.fills := rfl
@[simp] theorem modTherm_lcmds (f : Therm → Therm) (s : State) : (modTherm f s).lcmds = s.lcmds := rfl
@[simp] theorem modTherm_media (f : Therm → Therm) (s : State) : (modTherm f s).media = s.media := rfl
@[simp] theorem modTherm_mtl (f : Therm → Therm) (s : State) : (modTherm f s).mtl = s.mtl := rfl
@[simp] theorem modTherm_icu (f : Therm → Therm) (s : State) : (modTherm f s).icu = s.icu := rfl
@[simp] theorem modTherm_vault (f : Therm → Therm) (s : State) : (modTherm f s).vault = s.vault := rfl
@[simp] theorem modTherm_memp (f : Therm → Therm) (s : State) : (modTherm f s).memp = s.memp := rfl
@[simp] theorem modTherm_movers (f : Therm → Therm) (s : State) : (modTherm f s).movers = s.movers := rfl
@[simp] theorem modTherm_mgmt (f : Therm → Therm) (s : State) : (modTherm f s).mgmt = s.mgmt := rfl
@[simp] theorem modTherm_flash (f : Therm → Therm) (s : State) : (modTherm f s).flash = s.flash := rfl
@[simp] theorem modTherm_pwr (f : Therm → Therm) (s : State) : (modTherm f s).pwr = s.pwr := rfl
@[simp] theorem modTherm_sup (f : Therm → Therm) (s : State) : (modTherm f s).sup = s.sup := rfl
@[simp] theorem modTherm_nrw (f : Therm → Therm) (s : State) : (modTherm f s).nrw = s.nrw := rfl
@[simp] theorem modTherm_obs (f : Therm → Therm) (s : State) : (modTherm f s).obs = s.obs := rfl
@[simp] theorem modTherm_jtag (f : Therm → Therm) (s : State) : (modTherm f s).jtag = s.jtag := rfl
@[simp] theorem reg_modTherm (f : Therm → Therm) (s : State) (x : Nat) : State.reg (modTherm f s) x = s.reg x := rfl
@[simp] theorem fld_modTherm (f : Therm → Therm) (s : State) (g : Fld) : fld (modTherm f s) g = fld s g := rfl
@[simp] theorem bit_modTherm (f : Therm → Therm) (s : State) (g : Fld) : bit (modTherm f s) g = bit s g := rfl
@[simp] theorem modQueue_pending (q : Nat) (f : Queue → Queue) (s : State) : (modQueue q f s).pending = s.pending := rfl
@[simp] theorem modQueue_out (q : Nat) (f : Queue → Queue) (s : State) : (modQueue q f s).out = s.out := rfl
@[simp] theorem modQueue_fresh (q : Nat) (f : Queue → Queue) (s : State) : (modQueue q f s).fresh = s.fresh := rfl
@[simp] theorem modQueue_regs (q : Nat) (f : Queue → Queue) (s : State) : (modQueue q f s).regs = s.regs := rfl
@[simp] theorem modQueue_staged (q : Nat) (f : Queue → Queue) (s : State) : (modQueue q f s).staged = s.staged := rfl
@[simp] theorem modQueue_captured (q : Nat) (f : Queue → Queue) (s : State) : (modQueue q f s).captured = s.captured := rfl
@[simp] theorem modQueue_variant (q : Nat) (f : Queue → Queue) (s : State) : (modQueue q f s).variant = s.variant := rfl
@[simp] theorem modQueue_devid (q : Nat) (f : Queue → Queue) (s : State) : (modQueue q f s).devid = s.devid := rfl
@[simp] theorem modQueue_serial (q : Nat) (f : Queue → Queue) (s : State) : (modQueue q f s).serial = s.serial := rfl
@[simp] theorem modQueue_cfg (q : Nat) (f : Queue → Queue) (s : State) : (modQueue q f s).cfg = s.cfg := rfl
@[simp] theorem modQueue_tick (q : Nat) (f : Queue → Queue) (s : State) : (modQueue q f s).tick = s.tick := rfl
@[simp] theorem modQueue_sed (q : Nat) (f : Queue → Queue) (s : State) : (modQueue q f s).sed = s.sed := rfl
@[simp] theorem modQueue_gauge (q : Nat) (f : Queue → Queue) (s : State) : (modQueue q f s).gauge = s.gauge := rfl
@[simp] theorem modQueue_ndx (q : Nat) (f : Queue → Queue) (s : State) : (modQueue q f s).ndx = s.ndx := rfl
@[simp] theorem modQueue_heads (q : Nat) (f : Queue → Queue) (s : State) : (modQueue q f s).heads = s.heads := rfl
@[simp] theorem modQueue_poison (q : Nat) (f : Queue → Queue) (s : State) : (modQueue q f s).poison = s.poison := rfl
@[simp] theorem modQueue_tracker (q : Nat) (f : Queue → Queue) (s : State) : (modQueue q f s).tracker = s.tracker := rfl
@[simp] theorem modQueue_ways (q : Nat) (f : Queue → Queue) (s : State) : (modQueue q f s).ways = s.ways := rfl
@[simp] theorem modQueue_slices (q : Nat) (f : Queue → Queue) (s : State) : (modQueue q f s).slices = s.slices := rfl
@[simp] theorem modQueue_fills (q : Nat) (f : Queue → Queue) (s : State) : (modQueue q f s).fills = s.fills := rfl
@[simp] theorem modQueue_lcmds (q : Nat) (f : Queue → Queue) (s : State) : (modQueue q f s).lcmds = s.lcmds := rfl
@[simp] theorem modQueue_media (q : Nat) (f : Queue → Queue) (s : State) : (modQueue q f s).media = s.media := rfl
@[simp] theorem modQueue_mtl (q : Nat) (f : Queue → Queue) (s : State) : (modQueue q f s).mtl = s.mtl := rfl
@[simp] theorem modQueue_icu (q : Nat) (f : Queue → Queue) (s : State) : (modQueue q f s).icu = s.icu := rfl
@[simp] theorem modQueue_vault (q : Nat) (f : Queue → Queue) (s : State) : (modQueue q f s).vault = s.vault := rfl
@[simp] theorem modQueue_memp (q : Nat) (f : Queue → Queue) (s : State) : (modQueue q f s).memp = s.memp := rfl
@[simp] theorem modQueue_movers (q : Nat) (f : Queue → Queue) (s : State) : (modQueue q f s).movers = s.movers := rfl
@[simp] theorem modQueue_mgmt (q : Nat) (f : Queue → Queue) (s : State) : (modQueue q f s).mgmt = s.mgmt := rfl
@[simp] theorem modQueue_flash (q : Nat) (f : Queue → Queue) (s : State) : (modQueue q f s).flash = s.flash := rfl
@[simp] theorem modQueue_pwr (q : Nat) (f : Queue → Queue) (s : State) : (modQueue q f s).pwr = s.pwr := rfl
@[simp] theorem modQueue_sup (q : Nat) (f : Queue → Queue) (s : State) : (modQueue q f s).sup = s.sup := rfl
@[simp] theorem modQueue_therm (q : Nat) (f : Queue → Queue) (s : State) : (modQueue q f s).therm = s.therm := rfl
@[simp] theorem modQueue_nrw (q : Nat) (f : Queue → Queue) (s : State) : (modQueue q f s).nrw = s.nrw := rfl
@[simp] theorem modQueue_obs (q : Nat) (f : Queue → Queue) (s : State) : (modQueue q f s).obs = s.obs := rfl
@[simp] theorem modQueue_jtag (q : Nat) (f : Queue → Queue) (s : State) : (modQueue q f s).jtag = s.jtag := rfl
@[simp] theorem reg_modQueue (q : Nat) (f : Queue → Queue) (s : State) (x : Nat) : State.reg (modQueue q f s) x = s.reg x := rfl
@[simp] theorem fld_modQueue (q : Nat) (f : Queue → Queue) (s : State) (g : Fld) : fld (modQueue q f s) g = fld s g := rfl
@[simp] theorem bit_modQueue (q : Nat) (f : Queue → Queue) (s : State) (g : Fld) : bit (modQueue q f s) g = bit s g := rfl
@[simp] theorem modSlice_pending (n : Nat) (f : Slice → Slice) (s : State) : (modSlice n f s).pending = s.pending := rfl
@[simp] theorem modSlice_out (n : Nat) (f : Slice → Slice) (s : State) : (modSlice n f s).out = s.out := rfl
@[simp] theorem modSlice_fresh (n : Nat) (f : Slice → Slice) (s : State) : (modSlice n f s).fresh = s.fresh := rfl
@[simp] theorem modSlice_regs (n : Nat) (f : Slice → Slice) (s : State) : (modSlice n f s).regs = s.regs := rfl
@[simp] theorem modSlice_staged (n : Nat) (f : Slice → Slice) (s : State) : (modSlice n f s).staged = s.staged := rfl
@[simp] theorem modSlice_captured (n : Nat) (f : Slice → Slice) (s : State) : (modSlice n f s).captured = s.captured := rfl
@[simp] theorem modSlice_variant (n : Nat) (f : Slice → Slice) (s : State) : (modSlice n f s).variant = s.variant := rfl
@[simp] theorem modSlice_devid (n : Nat) (f : Slice → Slice) (s : State) : (modSlice n f s).devid = s.devid := rfl
@[simp] theorem modSlice_serial (n : Nat) (f : Slice → Slice) (s : State) : (modSlice n f s).serial = s.serial := rfl
@[simp] theorem modSlice_cfg (n : Nat) (f : Slice → Slice) (s : State) : (modSlice n f s).cfg = s.cfg := rfl
@[simp] theorem modSlice_tick (n : Nat) (f : Slice → Slice) (s : State) : (modSlice n f s).tick = s.tick := rfl
@[simp] theorem modSlice_sed (n : Nat) (f : Slice → Slice) (s : State) : (modSlice n f s).sed = s.sed := rfl
@[simp] theorem modSlice_gauge (n : Nat) (f : Slice → Slice) (s : State) : (modSlice n f s).gauge = s.gauge := rfl
@[simp] theorem modSlice_ndx (n : Nat) (f : Slice → Slice) (s : State) : (modSlice n f s).ndx = s.ndx := rfl
@[simp] theorem modSlice_heads (n : Nat) (f : Slice → Slice) (s : State) : (modSlice n f s).heads = s.heads := rfl
@[simp] theorem modSlice_poison (n : Nat) (f : Slice → Slice) (s : State) : (modSlice n f s).poison = s.poison := rfl
@[simp] theorem modSlice_queues (n : Nat) (f : Slice → Slice) (s : State) : (modSlice n f s).queues = s.queues := rfl
@[simp] theorem modSlice_tracker (n : Nat) (f : Slice → Slice) (s : State) : (modSlice n f s).tracker = s.tracker := rfl
@[simp] theorem modSlice_ways (n : Nat) (f : Slice → Slice) (s : State) : (modSlice n f s).ways = s.ways := rfl
@[simp] theorem modSlice_fills (n : Nat) (f : Slice → Slice) (s : State) : (modSlice n f s).fills = s.fills := rfl
@[simp] theorem modSlice_lcmds (n : Nat) (f : Slice → Slice) (s : State) : (modSlice n f s).lcmds = s.lcmds := rfl
@[simp] theorem modSlice_media (n : Nat) (f : Slice → Slice) (s : State) : (modSlice n f s).media = s.media := rfl
@[simp] theorem modSlice_mtl (n : Nat) (f : Slice → Slice) (s : State) : (modSlice n f s).mtl = s.mtl := rfl
@[simp] theorem modSlice_icu (n : Nat) (f : Slice → Slice) (s : State) : (modSlice n f s).icu = s.icu := rfl
@[simp] theorem modSlice_vault (n : Nat) (f : Slice → Slice) (s : State) : (modSlice n f s).vault = s.vault := rfl
@[simp] theorem modSlice_memp (n : Nat) (f : Slice → Slice) (s : State) : (modSlice n f s).memp = s.memp := rfl
@[simp] theorem modSlice_movers (n : Nat) (f : Slice → Slice) (s : State) : (modSlice n f s).movers = s.movers := rfl
@[simp] theorem modSlice_mgmt (n : Nat) (f : Slice → Slice) (s : State) : (modSlice n f s).mgmt = s.mgmt := rfl
@[simp] theorem modSlice_flash (n : Nat) (f : Slice → Slice) (s : State) : (modSlice n f s).flash = s.flash := rfl
@[simp] theorem modSlice_pwr (n : Nat) (f : Slice → Slice) (s : State) : (modSlice n f s).pwr = s.pwr := rfl
@[simp] theorem modSlice_sup (n : Nat) (f : Slice → Slice) (s : State) : (modSlice n f s).sup = s.sup := rfl
@[simp] theorem modSlice_therm (n : Nat) (f : Slice → Slice) (s : State) : (modSlice n f s).therm = s.therm := rfl
@[simp] theorem modSlice_nrw (n : Nat) (f : Slice → Slice) (s : State) : (modSlice n f s).nrw = s.nrw := rfl
@[simp] theorem modSlice_obs (n : Nat) (f : Slice → Slice) (s : State) : (modSlice n f s).obs = s.obs := rfl
@[simp] theorem modSlice_jtag (n : Nat) (f : Slice → Slice) (s : State) : (modSlice n f s).jtag = s.jtag := rfl
@[simp] theorem reg_modSlice (n : Nat) (f : Slice → Slice) (s : State) (x : Nat) : State.reg (modSlice n f s) x = s.reg x := rfl
@[simp] theorem fld_modSlice (n : Nat) (f : Slice → Slice) (s : State) (g : Fld) : fld (modSlice n f s) g = fld s g := rfl
@[simp] theorem bit_modSlice (n : Nat) (f : Slice → Slice) (s : State) (g : Fld) : bit (modSlice n f s) g = bit s g := rfl
@[simp] theorem modDie_pending (k : Nat) (f : Die → Die) (s : State) : (modDie k f s).pending = s.pending := rfl
@[simp] theorem modDie_out (k : Nat) (f : Die → Die) (s : State) : (modDie k f s).out = s.out := rfl
@[simp] theorem modDie_fresh (k : Nat) (f : Die → Die) (s : State) : (modDie k f s).fresh = s.fresh := rfl
@[simp] theorem modDie_regs (k : Nat) (f : Die → Die) (s : State) : (modDie k f s).regs = s.regs := rfl
@[simp] theorem modDie_staged (k : Nat) (f : Die → Die) (s : State) : (modDie k f s).staged = s.staged := rfl
@[simp] theorem modDie_captured (k : Nat) (f : Die → Die) (s : State) : (modDie k f s).captured = s.captured := rfl
@[simp] theorem modDie_variant (k : Nat) (f : Die → Die) (s : State) : (modDie k f s).variant = s.variant := rfl
@[simp] theorem modDie_devid (k : Nat) (f : Die → Die) (s : State) : (modDie k f s).devid = s.devid := rfl
@[simp] theorem modDie_serial (k : Nat) (f : Die → Die) (s : State) : (modDie k f s).serial = s.serial := rfl
@[simp] theorem modDie_cfg (k : Nat) (f : Die → Die) (s : State) : (modDie k f s).cfg = s.cfg := rfl
@[simp] theorem modDie_tick (k : Nat) (f : Die → Die) (s : State) : (modDie k f s).tick = s.tick := rfl
@[simp] theorem modDie_sed (k : Nat) (f : Die → Die) (s : State) : (modDie k f s).sed = s.sed := rfl
@[simp] theorem modDie_gauge (k : Nat) (f : Die → Die) (s : State) : (modDie k f s).gauge = s.gauge := rfl
@[simp] theorem modDie_ndx (k : Nat) (f : Die → Die) (s : State) : (modDie k f s).ndx = s.ndx := rfl
@[simp] theorem modDie_heads (k : Nat) (f : Die → Die) (s : State) : (modDie k f s).heads = s.heads := rfl
@[simp] theorem modDie_poison (k : Nat) (f : Die → Die) (s : State) : (modDie k f s).poison = s.poison := rfl
@[simp] theorem modDie_queues (k : Nat) (f : Die → Die) (s : State) : (modDie k f s).queues = s.queues := rfl
@[simp] theorem modDie_tracker (k : Nat) (f : Die → Die) (s : State) : (modDie k f s).tracker = s.tracker := rfl
@[simp] theorem modDie_ways (k : Nat) (f : Die → Die) (s : State) : (modDie k f s).ways = s.ways := rfl
@[simp] theorem modDie_slices (k : Nat) (f : Die → Die) (s : State) : (modDie k f s).slices = s.slices := rfl
@[simp] theorem modDie_fills (k : Nat) (f : Die → Die) (s : State) : (modDie k f s).fills = s.fills := rfl
@[simp] theorem modDie_lcmds (k : Nat) (f : Die → Die) (s : State) : (modDie k f s).lcmds = s.lcmds := rfl
@[simp] theorem modDie_mtl (k : Nat) (f : Die → Die) (s : State) : (modDie k f s).mtl = s.mtl := rfl
@[simp] theorem modDie_icu (k : Nat) (f : Die → Die) (s : State) : (modDie k f s).icu = s.icu := rfl
@[simp] theorem modDie_vault (k : Nat) (f : Die → Die) (s : State) : (modDie k f s).vault = s.vault := rfl
@[simp] theorem modDie_memp (k : Nat) (f : Die → Die) (s : State) : (modDie k f s).memp = s.memp := rfl
@[simp] theorem modDie_movers (k : Nat) (f : Die → Die) (s : State) : (modDie k f s).movers = s.movers := rfl
@[simp] theorem modDie_mgmt (k : Nat) (f : Die → Die) (s : State) : (modDie k f s).mgmt = s.mgmt := rfl
@[simp] theorem modDie_flash (k : Nat) (f : Die → Die) (s : State) : (modDie k f s).flash = s.flash := rfl
@[simp] theorem modDie_pwr (k : Nat) (f : Die → Die) (s : State) : (modDie k f s).pwr = s.pwr := rfl
@[simp] theorem modDie_sup (k : Nat) (f : Die → Die) (s : State) : (modDie k f s).sup = s.sup := rfl
@[simp] theorem modDie_therm (k : Nat) (f : Die → Die) (s : State) : (modDie k f s).therm = s.therm := rfl
@[simp] theorem modDie_nrw (k : Nat) (f : Die → Die) (s : State) : (modDie k f s).nrw = s.nrw := rfl
@[simp] theorem modDie_obs (k : Nat) (f : Die → Die) (s : State) : (modDie k f s).obs = s.obs := rfl
@[simp] theorem modDie_jtag (k : Nat) (f : Die → Die) (s : State) : (modDie k f s).jtag = s.jtag := rfl
@[simp] theorem reg_modDie (k : Nat) (f : Die → Die) (s : State) (x : Nat) : State.reg (modDie k f s) x = s.reg x := rfl
@[simp] theorem fld_modDie (k : Nat) (f : Die → Die) (s : State) (g : Fld) : fld (modDie k f s) g = fld s g := rfl
@[simp] theorem bit_modDie (k : Nat) (f : Die → Die) (s : State) (g : Fld) : bit (modDie k f s) g = bit s g := rfl
@[simp] theorem modMap_pending (f : MapState → MapState) (s : State) : (modMap f s).pending = s.pending := rfl
@[simp] theorem modMap_out (f : MapState → MapState) (s : State) : (modMap f s).out = s.out := rfl
@[simp] theorem modMap_fresh (f : MapState → MapState) (s : State) : (modMap f s).fresh = s.fresh := rfl
@[simp] theorem modMap_regs (f : MapState → MapState) (s : State) : (modMap f s).regs = s.regs := rfl
@[simp] theorem modMap_staged (f : MapState → MapState) (s : State) : (modMap f s).staged = s.staged := rfl
@[simp] theorem modMap_captured (f : MapState → MapState) (s : State) : (modMap f s).captured = s.captured := rfl
@[simp] theorem modMap_variant (f : MapState → MapState) (s : State) : (modMap f s).variant = s.variant := rfl
@[simp] theorem modMap_devid (f : MapState → MapState) (s : State) : (modMap f s).devid = s.devid := rfl
@[simp] theorem modMap_serial (f : MapState → MapState) (s : State) : (modMap f s).serial = s.serial := rfl
@[simp] theorem modMap_cfg (f : MapState → MapState) (s : State) : (modMap f s).cfg = s.cfg := rfl
@[simp] theorem modMap_tick (f : MapState → MapState) (s : State) : (modMap f s).tick = s.tick := rfl
@[simp] theorem modMap_sed (f : MapState → MapState) (s : State) : (modMap f s).sed = s.sed := rfl
@[simp] theorem modMap_gauge (f : MapState → MapState) (s : State) : (modMap f s).gauge = s.gauge := rfl
@[simp] theorem modMap_ndx (f : MapState → MapState) (s : State) : (modMap f s).ndx = s.ndx := rfl
@[simp] theorem modMap_heads (f : MapState → MapState) (s : State) : (modMap f s).heads = s.heads := rfl
@[simp] theorem modMap_poison (f : MapState → MapState) (s : State) : (modMap f s).poison = s.poison := rfl
@[simp] theorem modMap_queues (f : MapState → MapState) (s : State) : (modMap f s).queues = s.queues := rfl
@[simp] theorem modMap_tracker (f : MapState → MapState) (s : State) : (modMap f s).tracker = s.tracker := rfl
@[simp] theorem modMap_ways (f : MapState → MapState) (s : State) : (modMap f s).ways = s.ways := rfl
@[simp] theorem modMap_slices (f : MapState → MapState) (s : State) : (modMap f s).slices = s.slices := rfl
@[simp] theorem modMap_fills (f : MapState → MapState) (s : State) : (modMap f s).fills = s.fills := rfl
@[simp] theorem modMap_lcmds (f : MapState → MapState) (s : State) : (modMap f s).lcmds = s.lcmds := rfl
@[simp] theorem modMap_media (f : MapState → MapState) (s : State) : (modMap f s).media = s.media := rfl
@[simp] theorem modMap_icu (f : MapState → MapState) (s : State) : (modMap f s).icu = s.icu := rfl
@[simp] theorem modMap_vault (f : MapState → MapState) (s : State) : (modMap f s).vault = s.vault := rfl
@[simp] theorem modMap_memp (f : MapState → MapState) (s : State) : (modMap f s).memp = s.memp := rfl
@[simp] theorem modMap_movers (f : MapState → MapState) (s : State) : (modMap f s).movers = s.movers := rfl
@[simp] theorem modMap_mgmt (f : MapState → MapState) (s : State) : (modMap f s).mgmt = s.mgmt := rfl
@[simp] theorem modMap_flash (f : MapState → MapState) (s : State) : (modMap f s).flash = s.flash := rfl
@[simp] theorem modMap_pwr (f : MapState → MapState) (s : State) : (modMap f s).pwr = s.pwr := rfl
@[simp] theorem modMap_sup (f : MapState → MapState) (s : State) : (modMap f s).sup = s.sup := rfl
@[simp] theorem modMap_therm (f : MapState → MapState) (s : State) : (modMap f s).therm = s.therm := rfl
@[simp] theorem modMap_nrw (f : MapState → MapState) (s : State) : (modMap f s).nrw = s.nrw := rfl
@[simp] theorem modMap_obs (f : MapState → MapState) (s : State) : (modMap f s).obs = s.obs := rfl
@[simp] theorem modMap_jtag (f : MapState → MapState) (s : State) : (modMap f s).jtag = s.jtag := rfl
@[simp] theorem reg_modMap (f : MapState → MapState) (s : State) (x : Nat) : State.reg (modMap f s) x = s.reg x := rfl
@[simp] theorem fld_modMap (f : MapState → MapState) (s : State) (g : Fld) : fld (modMap f s) g = fld s g := rfl
@[simp] theorem bit_modMap (f : MapState → MapState) (s : State) (g : Fld) : bit (modMap f s) g = bit s g := rfl
@[simp] theorem modShore_pending (f : Shore → Shore) (s : State) : (modShore f s).pending = s.pending := rfl
@[simp] theorem modShore_out (f : Shore → Shore) (s : State) : (modShore f s).out = s.out := rfl
@[simp] theorem modShore_fresh (f : Shore → Shore) (s : State) : (modShore f s).fresh = s.fresh := rfl
@[simp] theorem modShore_regs (f : Shore → Shore) (s : State) : (modShore f s).regs = s.regs := rfl
@[simp] theorem modShore_staged (f : Shore → Shore) (s : State) : (modShore f s).staged = s.staged := rfl
@[simp] theorem modShore_captured (f : Shore → Shore) (s : State) : (modShore f s).captured = s.captured := rfl
@[simp] theorem modShore_variant (f : Shore → Shore) (s : State) : (modShore f s).variant = s.variant := rfl
@[simp] theorem modShore_devid (f : Shore → Shore) (s : State) : (modShore f s).devid = s.devid := rfl
@[simp] theorem modShore_serial (f : Shore → Shore) (s : State) : (modShore f s).serial = s.serial := rfl
@[simp] theorem modShore_cfg (f : Shore → Shore) (s : State) : (modShore f s).cfg = s.cfg := rfl
@[simp] theorem modShore_tick (f : Shore → Shore) (s : State) : (modShore f s).tick = s.tick := rfl
@[simp] theorem modShore_sed (f : Shore → Shore) (s : State) : (modShore f s).sed = s.sed := rfl
@[simp] theorem modShore_gauge (f : Shore → Shore) (s : State) : (modShore f s).gauge = s.gauge := rfl
@[simp] theorem modShore_ndx (f : Shore → Shore) (s : State) : (modShore f s).ndx = s.ndx := rfl
@[simp] theorem modShore_heads (f : Shore → Shore) (s : State) : (modShore f s).heads = s.heads := rfl
@[simp] theorem modShore_poison (f : Shore → Shore) (s : State) : (modShore f s).poison = s.poison := rfl
@[simp] theorem modShore_queues (f : Shore → Shore) (s : State) : (modShore f s).queues = s.queues := rfl
@[simp] theorem modShore_tracker (f : Shore → Shore) (s : State) : (modShore f s).tracker = s.tracker := rfl
@[simp] theorem modShore_ways (f : Shore → Shore) (s : State) : (modShore f s).ways = s.ways := rfl
@[simp] theorem modShore_slices (f : Shore → Shore) (s : State) : (modShore f s).slices = s.slices := rfl
@[simp] theorem modShore_fills (f : Shore → Shore) (s : State) : (modShore f s).fills = s.fills := rfl
@[simp] theorem modShore_lcmds (f : Shore → Shore) (s : State) : (modShore f s).lcmds = s.lcmds := rfl
@[simp] theorem modShore_media (f : Shore → Shore) (s : State) : (modShore f s).media = s.media := rfl
@[simp] theorem modShore_mtl (f : Shore → Shore) (s : State) : (modShore f s).mtl = s.mtl := rfl
@[simp] theorem modShore_vault (f : Shore → Shore) (s : State) : (modShore f s).vault = s.vault := rfl
@[simp] theorem modShore_memp (f : Shore → Shore) (s : State) : (modShore f s).memp = s.memp := rfl
@[simp] theorem modShore_movers (f : Shore → Shore) (s : State) : (modShore f s).movers = s.movers := rfl
@[simp] theorem modShore_mgmt (f : Shore → Shore) (s : State) : (modShore f s).mgmt = s.mgmt := rfl
@[simp] theorem modShore_flash (f : Shore → Shore) (s : State) : (modShore f s).flash = s.flash := rfl
@[simp] theorem modShore_pwr (f : Shore → Shore) (s : State) : (modShore f s).pwr = s.pwr := rfl
@[simp] theorem modShore_sup (f : Shore → Shore) (s : State) : (modShore f s).sup = s.sup := rfl
@[simp] theorem modShore_therm (f : Shore → Shore) (s : State) : (modShore f s).therm = s.therm := rfl
@[simp] theorem modShore_nrw (f : Shore → Shore) (s : State) : (modShore f s).nrw = s.nrw := rfl
@[simp] theorem modShore_obs (f : Shore → Shore) (s : State) : (modShore f s).obs = s.obs := rfl
@[simp] theorem modShore_jtag (f : Shore → Shore) (s : State) : (modShore f s).jtag = s.jtag := rfl
@[simp] theorem reg_modShore (f : Shore → Shore) (s : State) (x : Nat) : State.reg (modShore f s) x = s.reg x := rfl
@[simp] theorem fld_modShore (f : Shore → Shore) (s : State) (g : Fld) : fld (modShore f s) g = fld s g := rfl
@[simp] theorem bit_modShore (f : Shore → Shore) (s : State) (g : Fld) : bit (modShore f s) g = bit s g := rfl
@[simp] theorem modSlot_pending (v : Nat) (f : Slot → Slot) (s : State) : (modSlot v f s).pending = s.pending := rfl
@[simp] theorem modSlot_out (v : Nat) (f : Slot → Slot) (s : State) : (modSlot v f s).out = s.out := rfl
@[simp] theorem modSlot_fresh (v : Nat) (f : Slot → Slot) (s : State) : (modSlot v f s).fresh = s.fresh := rfl
@[simp] theorem modSlot_regs (v : Nat) (f : Slot → Slot) (s : State) : (modSlot v f s).regs = s.regs := rfl
@[simp] theorem modSlot_staged (v : Nat) (f : Slot → Slot) (s : State) : (modSlot v f s).staged = s.staged := rfl
@[simp] theorem modSlot_captured (v : Nat) (f : Slot → Slot) (s : State) : (modSlot v f s).captured = s.captured := rfl
@[simp] theorem modSlot_variant (v : Nat) (f : Slot → Slot) (s : State) : (modSlot v f s).variant = s.variant := rfl
@[simp] theorem modSlot_devid (v : Nat) (f : Slot → Slot) (s : State) : (modSlot v f s).devid = s.devid := rfl
@[simp] theorem modSlot_serial (v : Nat) (f : Slot → Slot) (s : State) : (modSlot v f s).serial = s.serial := rfl
@[simp] theorem modSlot_cfg (v : Nat) (f : Slot → Slot) (s : State) : (modSlot v f s).cfg = s.cfg := rfl
@[simp] theorem modSlot_tick (v : Nat) (f : Slot → Slot) (s : State) : (modSlot v f s).tick = s.tick := rfl
@[simp] theorem modSlot_sed (v : Nat) (f : Slot → Slot) (s : State) : (modSlot v f s).sed = s.sed := rfl
@[simp] theorem modSlot_gauge (v : Nat) (f : Slot → Slot) (s : State) : (modSlot v f s).gauge = s.gauge := rfl
@[simp] theorem modSlot_ndx (v : Nat) (f : Slot → Slot) (s : State) : (modSlot v f s).ndx = s.ndx := rfl
@[simp] theorem modSlot_heads (v : Nat) (f : Slot → Slot) (s : State) : (modSlot v f s).heads = s.heads := rfl
@[simp] theorem modSlot_poison (v : Nat) (f : Slot → Slot) (s : State) : (modSlot v f s).poison = s.poison := rfl
@[simp] theorem modSlot_queues (v : Nat) (f : Slot → Slot) (s : State) : (modSlot v f s).queues = s.queues := rfl
@[simp] theorem modSlot_tracker (v : Nat) (f : Slot → Slot) (s : State) : (modSlot v f s).tracker = s.tracker := rfl
@[simp] theorem modSlot_ways (v : Nat) (f : Slot → Slot) (s : State) : (modSlot v f s).ways = s.ways := rfl
@[simp] theorem modSlot_slices (v : Nat) (f : Slot → Slot) (s : State) : (modSlot v f s).slices = s.slices := rfl
@[simp] theorem modSlot_fills (v : Nat) (f : Slot → Slot) (s : State) : (modSlot v f s).fills = s.fills := rfl
@[simp] theorem modSlot_lcmds (v : Nat) (f : Slot → Slot) (s : State) : (modSlot v f s).lcmds = s.lcmds := rfl
@[simp] theorem modSlot_media (v : Nat) (f : Slot → Slot) (s : State) : (modSlot v f s).media = s.media := rfl
@[simp] theorem modSlot_mtl (v : Nat) (f : Slot → Slot) (s : State) : (modSlot v f s).mtl = s.mtl := rfl
@[simp] theorem modSlot_icu (v : Nat) (f : Slot → Slot) (s : State) : (modSlot v f s).icu = s.icu := rfl
@[simp] theorem modSlot_memp (v : Nat) (f : Slot → Slot) (s : State) : (modSlot v f s).memp = s.memp := rfl
@[simp] theorem modSlot_movers (v : Nat) (f : Slot → Slot) (s : State) : (modSlot v f s).movers = s.movers := rfl
@[simp] theorem modSlot_mgmt (v : Nat) (f : Slot → Slot) (s : State) : (modSlot v f s).mgmt = s.mgmt := rfl
@[simp] theorem modSlot_flash (v : Nat) (f : Slot → Slot) (s : State) : (modSlot v f s).flash = s.flash := rfl
@[simp] theorem modSlot_pwr (v : Nat) (f : Slot → Slot) (s : State) : (modSlot v f s).pwr = s.pwr := rfl
@[simp] theorem modSlot_sup (v : Nat) (f : Slot → Slot) (s : State) : (modSlot v f s).sup = s.sup := rfl
@[simp] theorem modSlot_therm (v : Nat) (f : Slot → Slot) (s : State) : (modSlot v f s).therm = s.therm := rfl
@[simp] theorem modSlot_nrw (v : Nat) (f : Slot → Slot) (s : State) : (modSlot v f s).nrw = s.nrw := rfl
@[simp] theorem modSlot_obs (v : Nat) (f : Slot → Slot) (s : State) : (modSlot v f s).obs = s.obs := rfl
@[simp] theorem modSlot_jtag (v : Nat) (f : Slot → Slot) (s : State) : (modSlot v f s).jtag = s.jtag := rfl
@[simp] theorem reg_modSlot (v : Nat) (f : Slot → Slot) (s : State) (x : Nat) : State.reg (modSlot v f s) x = s.reg x := rfl
@[simp] theorem fld_modSlot (v : Nat) (f : Slot → Slot) (s : State) (g : Fld) : fld (modSlot v f s) g = fld s g := rfl
@[simp] theorem bit_modSlot (v : Nat) (f : Slot → Slot) (s : State) (g : Fld) : bit (modSlot v f s) g = bit s g := rfl
@[simp] theorem modMover_pending (n : Nat) (m : MoverRun) (s : State) : (modMover n m s).pending = s.pending := rfl
@[simp] theorem modMover_out (n : Nat) (m : MoverRun) (s : State) : (modMover n m s).out = s.out := rfl
@[simp] theorem modMover_fresh (n : Nat) (m : MoverRun) (s : State) : (modMover n m s).fresh = s.fresh := rfl
@[simp] theorem modMover_regs (n : Nat) (m : MoverRun) (s : State) : (modMover n m s).regs = s.regs := rfl
@[simp] theorem modMover_staged (n : Nat) (m : MoverRun) (s : State) : (modMover n m s).staged = s.staged := rfl
@[simp] theorem modMover_captured (n : Nat) (m : MoverRun) (s : State) : (modMover n m s).captured = s.captured := rfl
@[simp] theorem modMover_variant (n : Nat) (m : MoverRun) (s : State) : (modMover n m s).variant = s.variant := rfl
@[simp] theorem modMover_devid (n : Nat) (m : MoverRun) (s : State) : (modMover n m s).devid = s.devid := rfl
@[simp] theorem modMover_serial (n : Nat) (m : MoverRun) (s : State) : (modMover n m s).serial = s.serial := rfl
@[simp] theorem modMover_cfg (n : Nat) (m : MoverRun) (s : State) : (modMover n m s).cfg = s.cfg := rfl
@[simp] theorem modMover_tick (n : Nat) (m : MoverRun) (s : State) : (modMover n m s).tick = s.tick := rfl
@[simp] theorem modMover_sed (n : Nat) (m : MoverRun) (s : State) : (modMover n m s).sed = s.sed := rfl
@[simp] theorem modMover_gauge (n : Nat) (m : MoverRun) (s : State) : (modMover n m s).gauge = s.gauge := rfl
@[simp] theorem modMover_ndx (n : Nat) (m : MoverRun) (s : State) : (modMover n m s).ndx = s.ndx := rfl
@[simp] theorem modMover_heads (n : Nat) (m : MoverRun) (s : State) : (modMover n m s).heads = s.heads := rfl
@[simp] theorem modMover_poison (n : Nat) (m : MoverRun) (s : State) : (modMover n m s).poison = s.poison := rfl
@[simp] theorem modMover_queues (n : Nat) (m : MoverRun) (s : State) : (modMover n m s).queues = s.queues := rfl
@[simp] theorem modMover_tracker (n : Nat) (m : MoverRun) (s : State) : (modMover n m s).tracker = s.tracker := rfl
@[simp] theorem modMover_ways (n : Nat) (m : MoverRun) (s : State) : (modMover n m s).ways = s.ways := rfl
@[simp] theorem modMover_slices (n : Nat) (m : MoverRun) (s : State) : (modMover n m s).slices = s.slices := rfl
@[simp] theorem modMover_fills (n : Nat) (m : MoverRun) (s : State) : (modMover n m s).fills = s.fills := rfl
@[simp] theorem modMover_lcmds (n : Nat) (m : MoverRun) (s : State) : (modMover n m s).lcmds = s.lcmds := rfl
@[simp] theorem modMover_media (n : Nat) (m : MoverRun) (s : State) : (modMover n m s).media = s.media := rfl
@[simp] theorem modMover_mtl (n : Nat) (m : MoverRun) (s : State) : (modMover n m s).mtl = s.mtl := rfl
@[simp] theorem modMover_icu (n : Nat) (m : MoverRun) (s : State) : (modMover n m s).icu = s.icu := rfl
@[simp] theorem modMover_vault (n : Nat) (m : MoverRun) (s : State) : (modMover n m s).vault = s.vault := rfl
@[simp] theorem modMover_memp (n : Nat) (m : MoverRun) (s : State) : (modMover n m s).memp = s.memp := rfl
@[simp] theorem modMover_mgmt (n : Nat) (m : MoverRun) (s : State) : (modMover n m s).mgmt = s.mgmt := rfl
@[simp] theorem modMover_flash (n : Nat) (m : MoverRun) (s : State) : (modMover n m s).flash = s.flash := rfl
@[simp] theorem modMover_pwr (n : Nat) (m : MoverRun) (s : State) : (modMover n m s).pwr = s.pwr := rfl
@[simp] theorem modMover_sup (n : Nat) (m : MoverRun) (s : State) : (modMover n m s).sup = s.sup := rfl
@[simp] theorem modMover_therm (n : Nat) (m : MoverRun) (s : State) : (modMover n m s).therm = s.therm := rfl
@[simp] theorem modMover_nrw (n : Nat) (m : MoverRun) (s : State) : (modMover n m s).nrw = s.nrw := rfl
@[simp] theorem modMover_obs (n : Nat) (m : MoverRun) (s : State) : (modMover n m s).obs = s.obs := rfl
@[simp] theorem modMover_jtag (n : Nat) (m : MoverRun) (s : State) : (modMover n m s).jtag = s.jtag := rfl
@[simp] theorem reg_modMover (n : Nat) (m : MoverRun) (s : State) (x : Nat) : State.reg (modMover n m s) x = s.reg x := rfl
@[simp] theorem fld_modMover (n : Nat) (m : MoverRun) (s : State) (g : Fld) : fld (modMover n m s) g = fld s g := rfl
@[simp] theorem bit_modMover (n : Nat) (m : MoverRun) (s : State) (g : Fld) : bit (modMover n m s) g = bit s g := rfl

@[simp] theorem modHead_headOf_same (h : Nat) (f : Head → Head) (s : State) : headOf (modHead h f s) h = f (headOf s h) := by
  simp [headOf, modHead]
theorem modHead_headOf_ne (h k : Nat) (f : Head → Head) (s : State) (e : k ≠ h) : headOf (modHead h f s) k = headOf s k := by
  simp [headOf, modHead, tget_tmod_ne _ _ _ e]
@[simp] theorem modSup_sup (f : Sup → Sup) (s : State) : (modSup f s).sup = f s.sup := rfl
@[simp] theorem modPwr_pwr (f : Power → Power) (s : State) : (modPwr f s).pwr = f s.pwr := rfl
@[simp] theorem modFlash_flash (f : Flash → Flash) (s : State) : (modFlash f s).flash = f s.flash := rfl
@[simp] theorem modObs_obs (f : Obs → Obs) (s : State) : (modObs f s).obs = f s.obs := rfl
@[simp] theorem modNrw_nrw (f : Narrows → Narrows) (s : State) : (modNrw f s).nrw = f s.nrw := rfl
@[simp] theorem modTherm_therm (f : Therm → Therm) (s : State) : (modTherm f s).therm = f s.therm := rfl
@[simp] theorem emit_out (o : Out) (s : State) : (emit o s).out = s.out ++ [o] := rfl
@[simp] theorem answer_out (p o c : Nat) (b : List Byte) (s : State) : (answer p o c b s).out = s.out ++ [.reply p o c b] := rfl

/-! ### A field after another has been set -/

theorem bit_setF_other (f g : Fld) (v : Nat) (s : State) (h : g.reg ≠ f.reg ∨ (g.ok = true ∧ f.apart g = true)) :
    bit (setF f v s) g = bit s g := by simp [bit, fld_setF_other f g v s h]
theorem bit_fld (s : State) (f : Fld) : bit s f = (fld s f == 1) := rfl

end Sys2Proof.Machine
end

