-- ==== Sys2Proof/Laws/Cmd.lean ====
section
/-! SUPPORT. Mailbox commands: what `cmd` does with a command that is taken, and reads of memory words where no error
stands. -/

namespace Sys2Proof.Machine

/-- Where no injection is armed and no error planted, a read of a word changes nothing. -/
theorem mempRead_quiet (c i w a : Nat) (s : State) (h : noInjection s = true) : mempRead c i w a .none s = (s, .none) := by
  simp only [noInjection, Bool.and_eq_true, Bool.not_eq_true', List.isEmpty_iff, Option.isNone_iff_eq_none] at h
  obtain ⟨⟨h1, h2⟩, h3⟩ := h
  have q : ∀ m, injQualifies { s with memp := m } c i w 0 a = false := by
    intro m
    simp only [injQualifies, injArmed, show bit { s with memp := m } F.MEMP_INJ_CTL_ARM = false from h1, Bool.false_and]
  have r : injArmed s 0x27 c = false := by simp only [injArmed, h1, Bool.false_and]
  have e : ∀ m, m = s.memp → ({ s with memp := m } : State) = s := by rintro _ rfl; rfl
  simp only [mempRead, r, q, h2, List.find?_nil, upsetOf, Bool.false_and, Bool.and_false, Bool.false_eq_true, ↓reduceIte,
    reduceCtorEq, false_and, Nat.zero_mod]
  rw [e]
  rw [← h2, ← h3]

theorem mempReadRow_quiet (c i b n a : Nat) (s : State) (h : noInjection s = true) :
    mempReadRow c i b n a s = (s, .none, injWord s c i b n) := by
  simp [mempReadRow, mempRead_quiet _ _ _ _ _ h]

theorem busWord_quiet (i a : Nat) (s : State) (h : noInjection s = true) : busWord i a s = (s, false) := by
  simp [busWord, mempReadRow_quiet _ _ _ _ _ _ h]

theorem mempReadWith_quiet (c i b n a : Nat) (f : Nat → State → State) (s : State) (h : noInjection s = true) :
    mempReadWith c i b n a f s = s := by
  simp [mempReadWith, mempReadRow_quiet _ _ _ _ _ _ h]

theorem payloadIn_quiet (p o : Nat) (l : List Byte) (f : State → State) (s : State) (h : noInjection s = true) :
    payloadIn p o l f s = f s := by
  unfold payloadIn
  split
  · rfl
  · simp [busWord_quiet _ _ _ h, mempReadRow_quiet _ _ _ _ _ _ h]

/-- A command that is taken, with a payload of the right length, has its own effect and no other. -/
theorem cmd_taken (p o : Nat) (l : List Byte) (f : State → State) (s : State) (h : taken p o l s = true) :
    cmd p o l true f s = f s := by
  simp only [taken, Bool.and_eq_true, Bool.not_eq_true'] at h
  obtain ⟨⟨⟨⟨⟨⟨⟨⟨⟨⟨⟨⟨⟨⟨⟨h1, h2⟩, h3⟩, h4⟩, h5⟩, h6⟩, h7⟩, h8⟩, h15⟩, h9⟩, h16⟩, h10⟩, h11⟩, h12⟩, h13⟩, h14⟩ := h
  unfold cmd
  have h8' : s.flash.handover.isSome = false := by cases hh : s.flash.handover <;> simp_all
  simp only [Bool.or_eq_false_iff, decide_eq_false_iff_not, bne_iff_ne, ne_eq] at h5 h6 h7
  simp only [h1, h2, h3, h4, h6, h9, h10, h11, h12, h13, h15, h16, Bool.not_true, Bool.or_self, Bool.false_eq_true, ↓reduceIte]
  simp [h5, h6, h7, h8', payloadIn_quiet _ _ _ _ _ h14]

theorem headCmd_taken (p o : Nat) (l : List Byte) (f : Nat → State → State) (s : State) (h : taken p o l s = true)
    (hd : headOn s (cmdHead s p) = true) : headCmd p o l true f s = f (cmdHead s p) s := by
  simp [headCmd, cmd_taken _ _ _ _ _ h, hd]

end Sys2Proof.Machine
end

