-- ==== Sys2Proof/Laws/Sed.lean ====
section
/-! SUPPORT. What recording an event leaves alone: one lemma per function that only records, counts, or answers. -/

namespace Sys2Proof.Machine

@[simp] theorem sr_mk (s : State) (a0 a1 a2 a11 a12 a34 b) :
    unrecorded (State.mk a0 a1 a2 s.regs s.staged s.captured s.variant s.devid s.serial s.cfg s.tick a11 a12 s.ndx s.heads s.poison s.queues s.tracker s.ways s.slices s.fills s.lcmds s.media s.mtl s.icu s.vault s.memp s.movers s.mgmt s.flash { s.pwr with buffer := b } s.sup s.therm s.nrw a34 s.jtag) = unrecorded s := rfl
@[simp] theorem sr_mk' (s : State) (a0 a1 a2 a11 a12 a34) :
    unrecorded (State.mk a0 a1 a2 s.regs s.staged s.captured s.variant s.devid s.serial s.cfg s.tick a11 a12 s.ndx s.heads s.poison s.queues s.tracker s.ways s.slices s.fills s.lcmds s.media s.mtl s.icu s.vault s.memp s.movers s.mgmt s.flash s.pwr s.sup s.therm s.nrw a34 s.jtag) = unrecorded s := rfl
theorem sr_setF (f : Fld) (v : Nat) (s : State) (h : sedAddr f.reg = true) : unrecorded (setF f v s) = unrecorded s := by
  have hs : ∀ x, ({ setF f v s with regs := x } : State) = { s with regs := x } := by
    intro x; simp only [setF]; unfold State.putReg; split <;> rfl
  have hh : (setF f v s).heads = s.heads := by simp only [setF]; unfold State.putReg; split <;> rfl
  simp only [unrecorded]
  refine Prod.ext ?_ (Prod.ext ?_ ?_)
  · simp only [setF]; unfold State.putReg; split <;> rfl
  · funext a
    simp only
    split
    · rfl
    · next h2 => exact reg_setF_ne f v s (fun e => h2 (e ▸ h))
  · funext k; simp only [headOf, hh]
theorem sr_modHead (h : Nat) (f : Head → Head) (s : State) (hf : ∀ x, { f x with logs := [] } = { x with logs := [] }) :
    unrecorded (modHead h f s) = unrecorded s := by
  simp only [unrecorded]
  refine Prod.ext rfl (Prod.ext rfl ?_)
  funext k
  simp only [headOf, modHead]
  by_cases e : k = h
  · subst e; rw [tget_tmod_same]; exact hf _
  · rw [tget_tmod_ne _ _ _ e]
theorem sr_satInc (f : Fld) (s : State) (h : sedAddr f.reg = true) : unrecorded (satInc f s) = unrecorded s := sr_setF f _ s h
theorem sr_satAdd (f : Fld) (n : Nat) (s : State) (h : sedAddr f.reg = true) : unrecorded (satAdd f n s) = unrecorded s := sr_setF f _ s h
@[simp] theorem when_sr (c : Bool) (f : State → State) (s : State) (h : ∀ t, unrecorded (f t) = unrecorded t) : unrecorded (when c f s) = unrecorded s := by
  unfold when; split
  · exact h s
  · rfl
@[simp] theorem sr_MGMT_ALERT_PENDING (v s) : unrecorded (setF F.MGMT_ALERT_PENDING v s) = unrecorded s := sr_setF _ _ _ (by decide)
@[simp] theorem sr_inc_MGMT_ALERT_PENDING (s) : unrecorded (satInc F.MGMT_ALERT_PENDING s) = unrecorded s := sr_satInc _ _ (by decide)
@[simp] theorem sr_add_MGMT_ALERT_PENDING (n s) : unrecorded (satAdd F.MGMT_ALERT_PENDING n s) = unrecorded s := sr_satAdd _ _ _ (by decide)
@[simp] theorem sr_MGMT_ALERT_SEQ (v s) : unrecorded (setF F.MGMT_ALERT_SEQ v s) = unrecorded s := sr_setF _ _ _ (by decide)
@[simp] theorem sr_inc_MGMT_ALERT_SEQ (s) : unrecorded (satInc F.MGMT_ALERT_SEQ s) = unrecorded s := sr_satInc _ _ (by decide)
@[simp] theorem sr_add_MGMT_ALERT_SEQ (n s) : unrecorded (satAdd F.MGMT_ALERT_SEQ n s) = unrecorded s := sr_satAdd _ _ _ (by decide)
@[simp] theorem sr_MGMT_ALERT_SEVERITY (v s) : unrecorded (setF F.MGMT_ALERT_SEVERITY v s) = unrecorded s := sr_setF _ _ _ (by decide)
@[simp] theorem sr_inc_MGMT_ALERT_SEVERITY (s) : unrecorded (satInc F.MGMT_ALERT_SEVERITY s) = unrecorded s := sr_satInc _ _ (by decide)
@[simp] theorem sr_add_MGMT_ALERT_SEVERITY (n s) : unrecorded (satAdd F.MGMT_ALERT_SEVERITY n s) = unrecorded s := sr_satAdd _ _ _ (by decide)
@[simp] theorem sr_MGMT_ALERT_UNIT (v s) : unrecorded (setF F.MGMT_ALERT_UNIT v s) = unrecorded s := sr_setF _ _ _ (by decide)
@[simp] theorem sr_inc_MGMT_ALERT_UNIT (s) : unrecorded (satInc F.MGMT_ALERT_UNIT s) = unrecorded s := sr_satInc _ _ (by decide)
@[simp] theorem sr_add_MGMT_ALERT_UNIT (n s) : unrecorded (satAdd F.MGMT_ALERT_UNIT n s) = unrecorded s := sr_satAdd _ _ _ (by decide)
@[simp] theorem sr_OBS_SND_STAT_DROPPED (v s) : unrecorded (setF F.OBS_SND_STAT_DROPPED v s) = unrecorded s := sr_setF _ _ _ (by decide)
@[simp] theorem sr_inc_OBS_SND_STAT_DROPPED (s) : unrecorded (satInc F.OBS_SND_STAT_DROPPED s) = unrecorded s := sr_satInc _ _ (by decide)
@[simp] theorem sr_add_OBS_SND_STAT_DROPPED (n s) : unrecorded (satAdd F.OBS_SND_STAT_DROPPED n s) = unrecorded s := sr_satAdd _ _ _ (by decide)
@[simp] theorem sr_SED_CNT_DROP_DROPPED (v s) : unrecorded (setF F.SED_CNT_DROP_DROPPED v s) = unrecorded s := sr_setF _ _ _ (by decide)
@[simp] theorem sr_inc_SED_CNT_DROP_DROPPED (s) : unrecorded (satInc F.SED_CNT_DROP_DROPPED s) = unrecorded s := sr_satInc _ _ (by decide)
@[simp] theorem sr_add_SED_CNT_DROP_DROPPED (n s) : unrecorded (satAdd F.SED_CNT_DROP_DROPPED n s) = unrecorded s := sr_satAdd _ _ _ (by decide)
@[simp] theorem sr_SED_CNT_REC_COUNT (v s) : unrecorded (setF F.SED_CNT_REC_COUNT v s) = unrecorded s := sr_setF _ _ _ (by decide)
@[simp] theorem sr_inc_SED_CNT_REC_COUNT (s) : unrecorded (satInc F.SED_CNT_REC_COUNT s) = unrecorded s := sr_satInc _ _ (by decide)
@[simp] theorem sr_add_SED_CNT_REC_COUNT (n s) : unrecorded (satAdd F.SED_CNT_REC_COUNT n s) = unrecorded s := sr_satAdd _ _ _ (by decide)
@[simp] theorem sr_SED_CNT_REPEAT_COUNT (v s) : unrecorded (setF F.SED_CNT_REPEAT_COUNT v s) = unrecorded s := sr_setF _ _ _ (by decide)
@[simp] theorem sr_inc_SED_CNT_REPEAT_COUNT (s) : unrecorded (satInc F.SED_CNT_REPEAT_COUNT s) = unrecorded s := sr_satInc _ _ (by decide)
@[simp] theorem sr_add_SED_CNT_REPEAT_COUNT (n s) : unrecorded (satAdd F.SED_CNT_REPEAT_COUNT n s) = unrecorded s := sr_satAdd _ _ _ (by decide)
@[simp] theorem sr_SED_MIRROR_SKIPPED (v s) : unrecorded (setF F.SED_MIRROR_SKIPPED v s) = unrecorded s := sr_setF _ _ _ (by decide)
@[simp] theorem sr_inc_SED_MIRROR_SKIPPED (s) : unrecorded (satInc F.SED_MIRROR_SKIPPED s) = unrecorded s := sr_satInc _ _ (by decide)
@[simp] theorem sr_add_SED_MIRROR_SKIPPED (n s) : unrecorded (satAdd F.SED_MIRROR_SKIPPED n s) = unrecorded s := sr_satAdd _ _ _ (by decide)
@[simp] theorem sr_SED_MIRROR_WINDOW (v s) : unrecorded (setF F.SED_MIRROR_WINDOW v s) = unrecorded s := sr_setF _ _ _ (by decide)
@[simp] theorem sr_inc_SED_MIRROR_WINDOW (s) : unrecorded (satInc F.SED_MIRROR_WINDOW s) = unrecorded s := sr_satInc _ _ (by decide)
@[simp] theorem sr_add_SED_MIRROR_WINDOW (n s) : unrecorded (satAdd F.SED_MIRROR_WINDOW n s) = unrecorded s := sr_satAdd _ _ _ (by decide)

theorem getD_sr (o : Option State) (d s : State) (h : ∀ r, o = some r → unrecorded r = unrecorded s) (hd : unrecorded d = unrecorded s) :
    unrecorded (o.getD d) = unrecorded s := by
  cases o with
  | none => exact hd
  | some r => exact h r rfl
@[simp] theorem ite_sr (c : Prop) [Decidable c] (a b : State) : unrecorded (if c then a else b) = if c then unrecorded a else unrecorded b := by
  split <;> rfl
@[simp] theorem ite1_sr {β : Type} (c : Prop) [Decidable c] (a b : State × β) :
    unrecorded ((if c then a else b).1) = if c then unrecorded a.1 else unrecorded b.1 := by split <;> rfl
@[simp] theorem ite2_sr {β : Type} (c : Prop) [Decidable c] (a b : β × State) :
    unrecorded ((if c then a else b).2) = if c then unrecorded a.2 else unrecorded b.2 := by split <;> rfl
@[simp] theorem forEach_sr {α : Type} (l : List α) (f : α → State → State) (s : State)
    (h : ∀ a t, unrecorded (f a t) = unrecorded t) : unrecorded (forEach l f s) = unrecorded s := by
  unfold forEach
  induction l generalizing s with
  | nil => rfl
  | cons a r ih => simp only [List.foldl_cons]; rw [ih, h]
@[simp] theorem foldl_sr {α : Type} (l : List α) (f : State → α → State) (s : State)
    (h : ∀ t a, unrecorded (f t a) = unrecorded t) : unrecorded (l.foldl f s) = unrecorded s := by
  induction l generalizing s with
  | nil => rfl
  | cons a r ih => simp only [List.foldl_cons]; rw [ih, h]
@[simp] theorem foldl_fst_sr {α β : Type} (l : List α) (f : State × β → α → State × β) (s : State × β)
    (h : ∀ t a, unrecorded ((f t a).1) = unrecorded t.1) : unrecorded ((l.foldl f s).1) = unrecorded s.1 := by
  induction l generalizing s with
  | nil => rfl
  | cons a r ih => simp only [List.foldl_cons]; rw [ih, h]
@[simp] theorem draw_sr (w : Nat) (s : State) : unrecorded ((draw w s).2) = unrecorded s := by simp [draw]
@[simp] theorem drawLe_sr (n : Nat) (s : State) : unrecorded ((drawLe n s).2) = unrecorded s := by simp [drawLe]
@[simp] theorem emit_sr (o : Out) (s : State) : unrecorded (emit o s) = unrecorded s := by simp [emit]
@[simp] theorem emits_sr (l : List Out) (s : State) : unrecorded (emits l s) = unrecorded s := by simp [emits]
@[simp] theorem answer_sr (path op code : Nat) (body : List Byte) (s : State) : unrecorded (answer path op code body s) = unrecorded s := by simp [answer]
@[simp] theorem count_sr (ev at_ n : Nat) (s : State) : unrecorded (count ev at_ n s) = unrecorded s := by simp [count]
@[simp] theorem pcHeadReset_sr (h : Nat) (s : State) : unrecorded (pcHeadReset h s) = unrecorded s := by simp [pcHeadReset]
@[simp] theorem sndPush_sr (kind unit : Nat) (payload : List Byte) (s : State) : unrecorded (sndPush kind unit payload s) = unrecorded s := by simp [sndPush]
@[simp] theorem putBlock_sr (b : Nat) (v : GBlock) (s : State) : unrecorded (putBlock b v s) = unrecorded s := by simp [putBlock]
@[simp] theorem gStart_sr (s : State) : unrecorded (gStart s) = unrecorded s := by unfold gStart; (repeat' (first | rfl | (simp; done) | split))
@[simp] theorem gEnq_sr (op : GOp) (prio : Bool) (mailbox : Option Nat) (cont : Cont) (s : State) : unrecorded (gEnq op prio mailbox cont s) = unrecorded s := by simp [gEnq]
@[simp] theorem gPut_sr (a : Nat) (p : GPayload) (prio : Bool) (mailbox : Option Nat) (cont : Cont) (s : State) : unrecorded (gPut a p prio mailbox cont s) = unrecorded s := by simp [gPut]
@[simp] theorem sedMerge_sr (n : Nat) (s : State) : unrecorded (sedMerge n s) = unrecorded s := by simp [sedMerge]
@[simp] theorem sedDrop_sr (sev : Nat) (s : State) : unrecorded (sedDrop sev s) = unrecorded s := by simp [sedDrop]
@[simp] theorem logInterrupt_sr (h k : Nat) (first : Bool) (s : State) : unrecorded (logInterrupt h k first s) = unrecorded s := by simp [logInterrupt]
@[simp] theorem logAdd_sr (h k : Nat) (b : EvBody) (s : State) : unrecorded ((logAdd h k b s).1) = unrecorded s := by unfold logAdd; dsimp only; split <;> simp [sr_modHead]
@[simp] theorem logAll_sr (k : Nat) (b : EvBody) (s : State) : unrecorded ((logAll k b s).1) = unrecorded s := by simp [logAll]
@[simp] theorem sedMirror_sr (r : SedRec) (s : State) : unrecorded ((sedMirror r s).1) = unrecorded s := by simp [sedMirror]
@[simp] theorem sedAlert_sr (r : SedRec) (s : State) : unrecorded (sedAlert r s) = unrecorded s := by unfold sedAlert; dsimp only; (repeat' (first | rfl | (simp; done) | (split <;> try dsimp only)))
@[simp] theorem sedCore_sr (q : SedReq) (s : State) : unrecorded ((sedCore q s).1) = unrecorded s := by unfold sedCore; dsimp only; (repeat' (first | rfl | (simp; done) | (split <;> try dsimp only)))
@[simp] theorem sedRun_sr (fuel : Nat) (l : List SedReq) (s : State) : unrecorded (sedRun fuel l s) = unrecorded s := by fun_induction sedRun <;> first | rfl | (simp_all; done) | grind [sedCore_sr]
@[simp] theorem sed_sr (code sev unit p0 p1 p2 : Nat) (s : State) : unrecorded (sed code sev unit p0 p1 p2 s) = unrecorded s := by simp [sed]
@[simp] theorem mediaEvent_sr (line : Nat) (s : State) : unrecorded (mediaEvent line s) = unrecorded s := by simp [mediaEvent]
@[simp] theorem faultStall_sr (cls ticks alloc : Nat) (s : State) : unrecorded (faultStall cls ticks alloc s) = unrecorded s := by simp [faultStall]
@[simp] theorem faultStallFree_sr (cls alloc : Nat) (s : State) : unrecorded (faultStallFree cls alloc s) = unrecorded s := by simp [faultStallFree]
@[simp] theorem plumbReload_sr (s : State) : unrecorded (plumbReload s) = unrecorded s := by simp [plumbReload]
@[simp] theorem putTreeRoot_sr (clean : Bool) (s : State) : unrecorded (putTreeRoot clean s) = unrecorded s := by simp [putTreeRoot]
@[simp] theorem pipeFrame_sr (kind op mism : Nat) (s : State) : unrecorded (pipeFrame kind op mism s) = unrecorded s := by simp [pipeFrame]
@[simp] theorem fillOvertaken_sr (line : Nat) (s : State) : unrecorded (fillOvertaken line s) = unrecorded s := by unfold fillOvertaken; (repeat' (first | rfl | (simp; done) | split))
@[simp] theorem cycleNote_sr (s : State) : unrecorded (cycleNote s) = unrecorded s := by simp [cycleNote]
@[simp] theorem cycleTick_sr (s : State) : unrecorded (cycleTick s) = unrecorded s := by simp [cycleTick]
@[simp] theorem drawBytes_sr (n : Nat) (s : State) : unrecorded ((drawBytes n s).1) = unrecorded s := by simp [drawBytes]
@[simp] theorem jobResult_sr (d : JobDesc) (x : Slot) (iv aad data auxIn : List Byte) (s : State) : unrecorded ((jobResult d x iv aad data auxIn s).1) = unrecorded s := by simp [jobResult]
@[simp] theorem jobOutput_sr (d : JobDesc) (j : SealJob) (ue : Option (Nat × Nat)) (src aad aux : List (Line × Bool)) (good isUe : Bool) (cut : Nat) (s : State) : unrecorded ((jobOutput d j ue src aad aux good isUe cut s).1) = unrecorded s := by simp [jobOutput]
@[simp] theorem doIdentify_sr (path : Nat) (s : State) : unrecorded (doIdentify path s) = unrecorded s := by simp [doIdentify]
@[simp] theorem doIdentifyMem_sr (path h : Nat) (s : State) : unrecorded (doIdentifyMem path h s) = unrecorded s := by simp [doIdentifyMem]
@[simp] theorem doGetPartition_sr (path h : Nat) (s : State) : unrecorded (doGetPartition path h s) = unrecorded s := by simp [doGetPartition]
@[simp] theorem doGetEvents_sr (path h : Nat) (inp : List Byte) (s : State) : unrecorded (doGetEvents path h inp s) = unrecorded s := by simp [doGetEvents]
@[simp] theorem doGetLog_sr (path : Nat) (inp : List Byte) (s : State) : unrecorded (doGetLog path inp s) = unrecorded s := by simp [doGetLog]
@[simp] theorem doGetLsa_sr (path h : Nat) (inp : List Byte) (s : State) : unrecorded (doGetLsa path h inp s) = unrecorded s := by simp [doGetLsa]
@[simp] theorem doHealth_sr (path : Nat) (s : State) : unrecorded (doHealth path s) = unrecorded s := by simp [doHealth]
@[simp] theorem doPoisonList_sr (path h : Nat) (inp : List Byte) (s : State) : unrecorded (doPoisonList path h inp s) = unrecorded s := by simp [doPoisonList]
@[simp] theorem doScanCaps_sr (path h : Nat) (inp : List Byte) (s : State) : unrecorded (doScanCaps path h inp s) = unrecorded s := by unfold doScanCaps; (repeat' (first | rfl | (simp; done) | split))
@[simp] theorem doDcConfig_sr (path h : Nat) (s : State) : unrecorded (doDcConfig path h s) = unrecorded s := by simp [doDcConfig]
@[simp] theorem doDcExtents_sr (path h : Nat) (inp : List Byte) (s : State) : unrecorded (doDcExtents path h inp s) = unrecorded s := by simp [doDcExtents]
@[simp] theorem ndxSaySkipped_sr (c : ImageCfg) (s : State) : unrecorded (ndxSaySkipped c s) = unrecorded s := by simp [ndxSaySkipped]
@[simp] theorem quarSave_sr (s : State) : unrecorded (quarSave s) = unrecorded s := by simp [quarSave]
@[simp] theorem sndMedia_sr (k op cls psa outcome : Nat) (s : State) : unrecorded (sndMedia k op cls psa outcome s) = unrecorded s := by simp [sndMedia]
@[simp] theorem secureRequired_sr (op : Nat) (s : State) : unrecorded (secureRequired op s) = unrecorded s := by simp [secureRequired]
@[simp] theorem spdmSign_sr (n : Nat) (s : State) : unrecorded ((spdmSign n s).1) = unrecorded s := by simp [spdmSign]
@[simp] theorem fwMigrate_sr (s : State) : unrecorded (fwMigrate s) = unrecorded s := by unfold fwMigrate; dsimp only; (repeat' (first | rfl | (simp; done) | (split <;> try dsimp only)))
@[simp] theorem fwDefaulted_sr (s : State) : unrecorded (fwDefaulted s) = unrecorded s := by unfold fwDefaulted; (repeat' (first | rfl | (simp; done) | split))
@[simp] theorem pldm5_sr (c : Nat) (b : List Byte) (s : State) : unrecorded (pldm5 c b s) = unrecorded s := by simp [pldm5]
@[simp] theorem gDirectory_sr (s : State) : unrecorded (gDirectory s) = unrecorded s := by simp [gDirectory]
@[simp] theorem gProgram_sr (b i : Nat) (f : Tally → Tally) (s : State) : unrecorded (gProgram b i f s) = unrecorded s := by unfold gProgram; (repeat' (first | rfl | (simp; done) | split))
@[simp] theorem gImage_sr (op : GOp) (s : State) : unrecorded (gImage op s) = unrecorded s := by unfold gImage; (repeat' (first | rfl | (simp; done) | split))
@[simp] theorem gHoldEnd_sr (s : State) : unrecorded (gHoldEnd s) = unrecorded s := by unfold gHoldEnd; (repeat' (first | rfl | (simp; done) | split))
@[simp] theorem gHoldReport_sr (s : State) : unrecorded (gHoldReport s) = unrecorded s := by unfold gHoldReport; (repeat' (first | rfl | (simp; done) | split))
@[simp] theorem doWriteHeld_sr (s : State) : unrecorded (doWriteHeld s) = unrecorded s := by unfold doWriteHeld; (repeat' (first | rfl | (simp; done) | split))
@[simp] theorem promoteWrite_sr (path : Nat) (s : State) : unrecorded (promoteWrite path s) = unrecorded s := by simp [promoteWrite]
@[simp] theorem retireWrites_sr (s : State) : unrecorded (retireWrites s) = unrecorded s := by simp [retireWrites]
@[simp] theorem modObs_sr (f : Obs → Obs) (s : State) : unrecorded (modObs f s) = unrecorded s := by simp [modObs]
@[simp] theorem doPcCfg_sr (path j : Nat) (v : BitVec 32) (s : State) : unrecorded (doPcCfg path j v s) = unrecorded s := by simp [doPcCfg]
@[simp] theorem epochLatch_sr (s : State) : unrecorded (epochLatch s) = unrecorded s := by simp [epochLatch]
@[simp] theorem plumbDrop_sr (s : State) : unrecorded (plumbDrop s) = unrecorded s := by simp [plumbDrop]
@[simp] theorem doPlumbPop_sr (path : Nat) (s : State) : unrecorded (doPlumbPop path s) = unrecorded s := by simp [doPlumbPop]
@[simp] theorem plumbStop_sr (cause : Nat) (s : State) : unrecorded (plumbStop cause s) = unrecorded s := by simp [plumbStop]
@[simp] theorem sndStop_sr (cause : Nat) (s : State) : unrecorded (sndStop cause s) = unrecorded s := by simp [sndStop]
@[simp] theorem sndSend_sr (f : SndFrame) (s : State) : unrecorded (sndSend f s) = unrecorded s := by simp [sndSend]
@[simp] theorem doSndMark_sr (path : Nat) (v : BitVec 32) (s : State) : unrecorded (doSndMark path v s) = unrecorded s := by simp [doSndMark]
@[simp] theorem queueFrames_sr (s : State) : unrecorded (queueFrames s) = unrecorded s := by simp [queueFrames]
@[simp] theorem sndBoundary_sr (s : State) : unrecorded (sndBoundary s) = unrecorded s := by simp [sndBoundary]
@[simp] theorem sndEpoch_sr (s : State) : unrecorded (sndEpoch s) = unrecorded s := by simp [sndEpoch]
@[simp] theorem ndxFloorRedo_sr (c : ImageCfg) (s : State) : unrecorded (ndxFloorRedo c s) = unrecorded s := by simp [ndxFloorRedo]
@[simp] theorem railCopyRedo_sr (c : ImageCfg) (s : State) : unrecorded (railCopyRedo c s) = unrecorded s := by simp [railCopyRedo]
@[simp] theorem shadowRoot_sr (clean : Bool) (s : State) : unrecorded (shadowRoot clean s) = unrecorded s := by simp [shadowRoot]
@[simp] theorem bufferToRing_sr (s : State) : unrecorded (bufferToRing s) = unrecorded s := by unfold bufferToRing; dsimp only; rw [forEach_sr _ _ _ (by intro a t; split <;> simp)]; simp [modPwr]
@[simp] theorem sayLevel_sr (g old new : Nat) (v : Int) (s : State) : unrecorded (sayLevel g old new v s) = unrecorded s := by simp [sayLevel]
@[simp] theorem alertWrite_sr (v : BitVec 32) (s : State) : unrecorded (alertWrite v s) = unrecorded s := by simp [alertWrite]
@[simp] theorem mmioAnswer_sr (status count offset : Nat) (data : List (BitVec 32)) (s : State) : unrecorded (mmioAnswer status count offset data s) = unrecorded s := by simp [mmioAnswer]
@[simp] theorem planFrames_sr (s : State) : unrecorded (planFrames s) = unrecorded s := by simp [planFrames]

/-! ### Uses -/

/-- Two states that agree outside the recorder agree in every other component. -/
theorem sr_staged {s t : State} (h : unrecorded t = unrecorded s) : t.staged = s.staged := congrArg (fun p => p.1.staged) h
theorem sr_captured {s t : State} (h : unrecorded t = unrecorded s) : t.captured = s.captured := congrArg (fun p => p.1.captured) h
theorem sr_variant {s t : State} (h : unrecorded t = unrecorded s) : t.variant = s.variant := congrArg (fun p => p.1.variant) h
theorem sr_devid {s t : State} (h : unrecorded t = unrecorded s) : t.devid = s.devid := congrArg (fun p => p.1.devid) h
theorem sr_serial {s t : State} (h : unrecorded t = unrecorded s) : t.serial = s.serial := congrArg (fun p => p.1.serial) h
theorem sr_cfg {s t : State} (h : unrecorded t = unrecorded s) : t.cfg = s.cfg := congrArg (fun p => p.1.cfg) h
theorem sr_tick {s t : State} (h : unrecorded t = unrecorded s) : t.tick = s.tick := congrArg (fun p => p.1.tick) h
theorem sr_ndx {s t : State} (h : unrecorded t = unrecorded s) : t.ndx = s.ndx := congrArg (fun p => p.1.ndx) h
theorem sr_poison {s t : State} (h : unrecorded t = unrecorded s) : t.poison = s.poison := congrArg (fun p => p.1.poison) h
theorem sr_queues {s t : State} (h : unrecorded t = unrecorded s) : t.queues = s.queues := congrArg (fun p => p.1.queues) h
theorem sr_tracker {s t : State} (h : unrecorded t = unrecorded s) : t.tracker = s.tracker := congrArg (fun p => p.1.tracker) h
theorem sr_ways {s t : State} (h : unrecorded t = unrecorded s) : t.ways = s.ways := congrArg (fun p => p.1.ways) h
theorem sr_slices {s t : State} (h : unrecorded t = unrecorded s) : t.slices = s.slices := congrArg (fun p => p.1.slices) h
theorem sr_fills {s t : State} (h : unrecorded t = unrecorded s) : t.fills = s.fills := congrArg (fun p => p.1.fills) h
theorem sr_lcmds {s t : State} (h : unrecorded t = unrecorded s) : t.lcmds = s.lcmds := congrArg (fun p => p.1.lcmds) h
theorem sr_media {s t : State} (h : unrecorded t = unrecorded s) : t.media = s.media := congrArg (fun p => p.1.media) h
theorem sr_mtl {s t : State} (h : unrecorded t = unrecorded s) : t.mtl = s.mtl := congrArg (fun p => p.1.mtl) h
theorem sr_icu {s t : State} (h : unrecorded t = unrecorded s) : t.icu = s.icu := congrArg (fun p => p.1.icu) h
theorem sr_vault {s t : State} (h : unrecorded t = unrecorded s) : t.vault = s.vault := congrArg (fun p => p.1.vault) h
theorem sr_memp {s t : State} (h : unrecorded t = unrecorded s) : t.memp = s.memp := congrArg (fun p => p.1.memp) h
theorem sr_movers {s t : State} (h : unrecorded t = unrecorded s) : t.movers = s.movers := congrArg (fun p => p.1.movers) h
theorem sr_mgmt {s t : State} (h : unrecorded t = unrecorded s) : t.mgmt = s.mgmt := congrArg (fun p => p.1.mgmt) h
theorem sr_flash {s t : State} (h : unrecorded t = unrecorded s) : t.flash = s.flash := congrArg (fun p => p.1.flash) h
theorem sr_sup {s t : State} (h : unrecorded t = unrecorded s) : t.sup = s.sup := congrArg (fun p => p.1.sup) h
theorem sr_therm {s t : State} (h : unrecorded t = unrecorded s) : t.therm = s.therm := congrArg (fun p => p.1.therm) h
theorem sr_nrw {s t : State} (h : unrecorded t = unrecorded s) : t.nrw = s.nrw := congrArg (fun p => p.1.nrw) h
theorem sr_jtag {s t : State} (h : unrecorded t = unrecorded s) : t.jtag = s.jtag := congrArg (fun p => p.1.jtag) h
theorem sr_reg {s t : State} (h : unrecorded t = unrecorded s) (a : Nat) (ha : sedAddr a = false) : t.reg a = s.reg a := by
  have := congrFun (congrArg (fun p => p.2.1) h) a; simpa [unrecorded, ha] using this
theorem sr_fld {s t : State} (h : unrecorded t = unrecorded s) (f : Fld) (ha : sedAddr f.reg = false) : fld t f = fld s f := by
  simp [fld, sr_reg h f.reg ha]
@[simp] theorem sed_staged (c v u a b d) (s : State) : (sed c v u a b d s).staged = s.staged := sr_staged (sed_sr ..)
@[simp] theorem sed_captured (c v u a b d) (s : State) : (sed c v u a b d s).captured = s.captured := sr_captured (sed_sr ..)
@[simp] theorem sed_variant (c v u a b d) (s : State) : (sed c v u a b d s).variant = s.variant := sr_variant (sed_sr ..)
@[simp] theorem sed_devid (c v u a b d) (s : State) : (sed c v u a b d s).devid = s.devid := sr_devid (sed_sr ..)
@[simp] theorem sed_serial (c v u a b d) (s : State) : (sed c v u a b d s).serial = s.serial := sr_serial (sed_sr ..)
@[simp] theorem sed_cfg (c v u a b d) (s : State) : (sed c v u a b d s).cfg = s.cfg := sr_cfg (sed_sr ..)
@[simp] theorem sed_tick (c v u a b d) (s : State) : (sed c v u a b d s).tick = s.tick := sr_tick (sed_sr ..)
@[simp] theorem sed_ndx (c v u a b d) (s : State) : (sed c v u a b d s).ndx = s.ndx := sr_ndx (sed_sr ..)
@[simp] theorem sed_poison (c v u a b d) (s : State) : (sed c v u a b d s).poison = s.poison := sr_poison (sed_sr ..)
@[simp] theorem sed_queues (c v u a b d) (s : State) : (sed c v u a b d s).queues = s.queues := sr_queues (sed_sr ..)
@[simp] theorem sed_tracker (c v u a b d) (s : State) : (sed c v u a b d s).tracker = s.tracker := sr_tracker (sed_sr ..)
@[simp] theorem sed_ways (c v u a b d) (s : State) : (sed c v u a b d s).ways = s.ways := sr_ways (sed_sr ..)
@[simp] theorem sed_slices (c v u a b d) (s : State) : (sed c v u a b d s).slices = s.slices := sr_slices (sed_sr ..)
@[simp] theorem sed_fills (c v u a b d) (s : State) : (sed c v u a b d s).fills = s.fills := sr_fills (sed_sr ..)
@[simp] theorem sed_lcmds (c v u a b d) (s : State) : (sed c v u a b d s).lcmds = s.lcmds := sr_lcmds (sed_sr ..)
@[simp] theorem sed_media (c v u a b d) (s : State) : (sed c v u a b d s).media = s.media := sr_media (sed_sr ..)
@[simp] theorem sed_mtl (c v u a b d) (s : State) : (sed c v u a b d s).mtl = s.mtl := sr_mtl (sed_sr ..)
@[simp] theorem sed_icu (c v u a b d) (s : State) : (sed c v u a b d s).icu = s.icu := sr_icu (sed_sr ..)
@[simp] theorem sed_vault (c v u a b d) (s : State) : (sed c v u a b d s).vault = s.vault := sr_vault (sed_sr ..)
@[simp] theorem sed_memp (c v u a b d) (s : State) : (sed c v u a b d s).memp = s.memp := sr_memp (sed_sr ..)
@[simp] theorem sed_movers (c v u a b d) (s : State) : (sed c v u a b d s).movers = s.movers := sr_movers (sed_sr ..)
@[simp] theorem sed_mgmt (c v u a b d) (s : State) : (sed c v u a b d s).mgmt = s.mgmt := sr_mgmt (sed_sr ..)
@[simp] theorem sed_flash (c v u a b d) (s : State) : (sed c v u a b d s).flash = s.flash := sr_flash (sed_sr ..)
@[simp] theorem sed_sup (c v u a b d) (s : State) : (sed c v u a b d s).sup = s.sup := sr_sup (sed_sr ..)
@[simp] theorem sed_therm (c v u a b d) (s : State) : (sed c v u a b d s).therm = s.therm := sr_therm (sed_sr ..)
@[simp] theorem sed_nrw (c v u a b d) (s : State) : (sed c v u a b d s).nrw = s.nrw := sr_nrw (sed_sr ..)
@[simp] theorem sed_jtag (c v u a b d) (s : State) : (sed c v u a b d s).jtag = s.jtag := sr_jtag (sed_sr ..)
theorem reg_sed (c v u a b d) (s : State) (x : Nat) (h : sedAddr x = false) : (sed c v u a b d s).reg x = s.reg x := sr_reg (sed_sr ..) x h
theorem fld_sed (c v u a b d) (s : State) (f : Fld) (h : sedAddr f.reg = false) : fld (sed c v u a b d s) f = fld s f :=
  sr_fld (sed_sr ..) f h

end Sys2Proof.Machine
end

