-- ==== Sys2Proof/Tests/Slice0.lean ====
section
/-! SUPPORT. Tests: an ill-formed term for each check of `Instr.wf`, which it refuses; a witness for the hypotheses of each
statement; and single steps on small states. -/

open Sys2Proof Sys2Proof.Machine

namespace Sys2Proof.Tests

set_option Elab.async false

/-! ### Ill-formed commands -/

theorem test_wf_refuses_0 : ([
    .tickBoundary [] [128] false,
    .tickBoundary [⟨32, 0, 0, 0⟩] [] false,
    .rippleSyncPulse 17 0,
    .rippleSyncPulse 0 4294967296,
    .syncLost 4294967296,
    .tickCalSetCommit 9 0,
    .tickBudgetCommit 9 0,
    .registerWrite 0 67108864 4 0,
    .registerWrite 9 0 4 0,
    .registerWrite 0 0 9 0,
    .registerWrite 0 0 0 0,
    .registerWrite 0 0 9 0,
    .registerWrite 0 0 1 256,
    .registerHiWrite 0 67108864 0,
    .registerHiWrite 9 0 0,
    .registerLoRead 0 67108864,
    .registerLoRead 9 0,
    .rcRegisterRead 0 67108864 4,
    .rcRegisterRead 9 0 4,
    .rcRegisterRead 0 0 9,
    .rcRegisterRead 0 0 0,
    .rcRegisterRead 0 0 9,
    .ndxStage 5 [],
    .ndxCommit 5 [] []] : List Instr).all (fun i => !i.wf) = true := by decide

theorem test_wf_refuses_1 : ([
    .ndxCommit 0 [] [(65536, 0)],
    .linkUp 4 0 0 false,
    .linkUp 0 17 0 false,
    .linkUp 0 0 8 false,
    .linkDown 4,
    .perstAssert 4,
    .perstDeassert 4,
    .hotReset 4,
    .cxlReset 4,
    .functionLevelReset 4,
    .hdmDecoderCommit 4 0 0 4 0 0 0,
    .hdmDecoderCommit 0 8 0 4 0 0 0,
    .hdmDecoderCommit 0 0 4503599627370496 4 0 0 0,
    .hdmDecoderCommit 0 0 0 4503599627370496 0 0 0,
    .hdmDecoderCommit 0 0 0 4 4503599627370496 0 0,
    .hdmDecoderCommit 0 0 0 4 0 17 0,
    .hdmDecoderCommit 0 0 0 4 0 0 16385,
    .memRd 4 0 0 .none false,
    .memRd 0 4503599627370496 0 .none false,
    .memRd 0 0 65536 .none false,
    .memWr 4 0 0 0 false .none false,
    .memWr 0 4503599627370496 0 0 false .none false,
    .memWr 0 0 65536 0 false .none false,
    .memWrPtl 4 0 0 0 0 false .none false] : List Instr).all (fun i => !i.wf) = true := by decide

theorem test_wf_refuses_2 : ([
    .memWrPtl 0 4503599627370496 0 0 0 false .none false,
    .memWrPtl 0 0 65536 0 0 false .none false,
    .allocationRetry 48,
    .mergeBufferFreed 48,
    .gpfRequest 4 0,
    .gpfRequest 0 4,
    .ideKeyProgram 4 0 0 [],
    .ideKeyProgram 0 2 0 [],
    .ideKeyProgram 0 0 256 [],
    .ideFail 4 0,
    .ideFail 0 4294967296,
    .spdmMessage 5 [],
    .cdatRead 4 false 0,
    .cdatRead 0 false 256,
    .identify 5 [],
    .requestAbortBgOp 5 [],
    .getEventRecords 5 [],
    .clearEventRecords 5 [],
    .getEventInterruptPolicy 5 [],
    .setEventInterruptPolicy 5 [],
    .getFwInfo 5 [],
    .getTimestamp 5 [],
    .setTimestamp 5 [],
    .getSupportedLogs 5 []] : List Instr).all (fun i => !i.wf) = true := by decide

theorem test_wf_refuses_3 : ([
    .getLog 5 [],
    .identifyMemoryDevice 5 [],
    .getPartitionInfo 5 [],
    .setPartitionInfo 5 [],
    .getLsa 5 [],
    .setLsa 5 [],
    .getHealthInfo 5 [],
    .getAlertConfiguration 5 [],
    .setAlertConfiguration 5 [],
    .getShutdownState 5 [],
    .setShutdownState 5 [],
    .getPoisonList 5 [],
    .injectPoison 5 [],
    .clearPoison 5 [],
    .getScanMediaCapabilities 5 [],
    .scanMedia 5 [],
    .scanDone [1099511627776] none,
    .getScanMediaResults 5 [],
    .getDcConfiguration 5 [],
    .getDcExtentList 5 [],
    .addDcResponse 5 [],
    .releaseDynamicCapacity 5 [],
    .unsupportedOpcode 0 65536 [],
    .unsupportedOpcode 5 0 []] : List Instr).all (fun i => !i.wf) = true := by decide

theorem test_wf_refuses_4 : ([
    .ringStartupTestDone 18 0,
    .ringStartupTestDone 0 4294967296,
    .qfBistStart 0 18,
    .qfBistStart 9 0,
    .qfBistDone 18 0,
    .qfBistDone 0 4294967296,
    .qfRingUe 18 0 0,
    .qfRingUe 0 65536 0,
    .qfRingUe 0 0 64,
    .qfCopySwitchDone 18,
    .qfPoolReserved 18,
    .pacedCreditReturn 8,
    .fillReturn 1099511627776 .none,
    .ebWritebackDone 48 0,
    .ebWritebackDone 0 1099511627776,
    .cleanerClean 48,
    .lcCleanCtlWrite 9 0,
    .lcmdZero 9 0,
    .lcmdFlush 9 0,
    .lcmdPrefetch 9 0,
    .lcmdPin 9 0,
    .lcmdDemote 9 0,
    .lcmdBadop 9 0,
    .lcmdDone 5] : List Instr).all (fun i => !i.wf) = true := by decide

theorem test_wf_refuses_5 : ([
    .hostSenseStart 16 0,
    .hostSenseStart 0 8,
    .admissionEnter 16 0,
    .admissionEnter 0 8,
    .dieResume 16 0,
    .dieResume 0 8,
    .busSlot 16,
    .senseDone 16 0 (.noCodeword 0 0) 0,
    .senseDone 0 8 (.noCodeword 0 0) 0,
    .senseDone 0 0 (.noCodeword 0 0) 65536,
    .senseDone 0 0 (.noCodeword 65536 0) 0,
    .medRecon 16 0 0 0,
    .medRecon 0 8 0 0,
    .medRecon 0 0 0 65536,
    .medRecon 0 0 7 0,
    .programStart 16 0,
    .programStart 0 8,
    .programDone 16 0 0,
    .programDone 0 8 0,
    .programDone 0 0 4,
    .eraseDone 16 0 false false,
    .eraseDone 0 8 false false,
    .driftSample 16 0 0 0 0,
    .driftSample 0 8 0 0 0] : List Instr).all (fun i => !i.wf) = true := by decide

theorem test_wf_refuses_6 : ([
    .driftSample 0 0 65536 0 0,
    .driftSample 0 0 0 65536 0,
    .driftSample 0 0 0 0 65536,
    .dieFenced 16 0 0,
    .dieFenced 0 8 0,
    .dieFenced 0 0 16,
    .channelTrainingLost 16,
    .channelRetrainDone 16 false,
    .dieResetAttempt 16 0 false 0,
    .dieResetAttempt 0 8 false 0,
    .dieResetAttempt 0 0 false 4294967296,
    .medDieRejoin 16 0 0,
    .medDieRejoin 0 8 0,
    .medDieRejoin 0 0 4294967296,
    .medChRetrainRequest 0 16 0,
    .medChRetrainRequest 9 0 0,
    .medDaEnter 0 16 0,
    .medDaEnter 9 0 0,
    .daRead 0 16 0 false,
    .daRead 9 0 0 false,
    .daReadRaw 0 16 0 false,
    .daReadRaw 9 0 0 false,
    .daProgramRaw 0 16 0 false,
    .daProgramRaw 9 0 0 false] : List Instr).all (fun i => !i.wf) = true := by decide

theorem test_wf_refuses_7 : ([
    .daErase 0 16 0 false,
    .daErase 9 0 0 false,
    .daReadInfo 0 16 0 false,
    .daReadInfo 9 0 0 false,
    .rowFillTimeout 65536,
    .foldCommit 1073741824,
    .eraseIntent 65536,
    .mtlRecovery [(262144, 0)],
    .mtlRecovery [(0, 16384)],
    .sealWriteback 16,
    .remacRewrite 1099511627776,
    .icuRecovery [1099511627776],
    .icuHaltCtlDiscard 9 0,
    .haltReport 5 [],
    .shorelineStart 5 [],
    .shorelineStatus 5 [],
    .keyInstall 5 [],
    .keyRetire 5 [],
    .keyRetireRanges 5 [],
    .keySramReload 3 0,
    .keySramReload 0 65536,
    .kvJqTailWrite 0 8 0,
    .kvJqTailWrite 9 0 0,
    .kvJqEnable 0 8 0] : List Instr).all (fun i => !i.wf) = true := by decide

theorem test_wf_refuses_8 : ([
    .kvJqEnable 9 0 0,
    .jobNop 8,
    .jobGcmEnc 8 0 none,
    .jobGcmEnc 0 16 none,
    .jobGcmDec 8 0 none,
    .jobGcmDec 0 16 none,
    .jobXtsEnc 8 0 none,
    .jobXtsEnc 0 16 none,
    .jobXtsDec 8 0 none,
    .jobXtsDec 0 16 none,
    .jobCmacGen 8 0 none,
    .jobCmacGen 0 16 none,
    .jobCmacVer 8 0 none,
    .jobCmacVer 0 16 none,
    .jobRandom 8 none,
    .nonceWaitEnd 8,
    .rngHealthFail 3 false,
    .scrubRow 16 0 0 .none false,
    .scrubRow 0 48 0 .none false,
    .scrubRow 0 0 1099511627776 .none false,
    .mempFetchTrap 4 0,
    .mempFetchTrap 0 4294967296,
    .mempInjArm 9 0,
    .mempInjDisarm 9 0] : List Instr).all (fun i => !i.wf) = true := by decide

theorem test_wf_refuses_9 : ([
    .dmvTailWrite 0 16 0,
    .dmvTailWrite 9 0 0,
    .dmvEnable 0 16 0,
    .dmvEnable 9 0 0,
    .dmvNop 16,
    .dmvCopy 16 none,
    .dmvFill 16 none,
    .dmvRetry 0 16 0,
    .dmvRetry 9 0 0,
    .dmvSkip 0 16 0,
    .dmvSkip 9 0 0,
    .dmvAbort 0 16 0,
    .dmvAbort 9 0 0,
    .mgmtBoot [16] [] false,
    .mgmtBoot [] [128] false,
    .watchdogExpiry 4,
    .mgmtRestart 16 0 false,
    .mgmtRestart 0 4 false,
    .lifecycleAdvance 5 false [],
    .obsTokenInstall 5 [],
    .resetDevice 5 false [],
    .i3cDynamicAddress false 128,
    .i3cCcc 256 [],
    .mctpControl false 256 []] : List Instr).all (fun i => !i.wf) = true := by decide

theorem test_wf_refuses_10 : ([
    .mctpUnsupportedType 256,
    .mctpCxlCci false false 65536 [],
    .mmioWindowRead false 1025 0,
    .mmioWindowRead false 0 67108864,
    .mmioWindowWrite false 1025 0 [],
    .mmioWindowWrite false 0 67108864 [],
    .pldmMonitoring 256 0 [],
    .pldmMonitoring 0 256 [],
    .pldmFwUpdate 256 [],
    .sfUnlockWrite 4 0,
    .sfProgram 4 0 0,
    .sfProgram 0 0 67108864,
    .sfSectorErase 4 0 0,
    .sfSectorErase 0 0 67108864,
    .sfBlankCheck 4 0,
    .sfClearStatus 4 0,
    .sfSuspend 4 0,
    .sfResume 4 0,
    .sfReset 4 0,
    .sfUnknownCommand 4 0,
    .sfReadAutoSuspend 67108864,
    .sfWellheadMirror 67108864 false,
    .fwBlock 5 [] false,
    .fwVerify 5 []] : List Instr).all (fun i => !i.wf) = true := by decide

theorem test_wf_refuses_11 : ([
    .fwActivate 5 [],
    .fwTrialHealthy 9 0,
    .fwConfirm 5 [],
    .gauMailboxWithdraw 5,
    .gauParamRead 5 [],
    .gauParamWrite 5 false [],
    .sedRecord 65536 0 0 0 0 0,
    .sedRecord 0 8 0 0 0 0,
    .sedRecord 0 0 17 0 0 0,
    .sedRecord 0 0 0 4294967296 0 0,
    .sedRecord 0 0 0 0 4294967296 0,
    .sedRecord 0 0 0 0 0 4294967296,
    .sedRegionScan [1099511627776],
    .sedMark 5 [],
    .sedRead 5 [],
    .pwrStateReqRun 5 [],
    .pwrStateReqIdle 5 [],
    .pwrStateReqSleep 5 [],
    .pwrStateReqDeep 5 [],
    .pwrStateReqOff 5 [],
    .pwrStateReqBadTarget 5 [],
    .unitAgree 17 false,
    .pwrEntryTimeout 17,
    .retentionSignDone []] : List Instr).all (fun i => !i.wf) = true := by decide

theorem test_wf_refuses_12 : ([
    .idleExit 16,
    .wakeEvent 7,
    .pwrWake [],
    .pwrCtlWrite 9 0,
    .pdAonRelease 8192,
    .railPgTimeout 10,
    .railPgLost 10,
    .guardEnter 65536,
    .guardEnd 65536,
    .vinFail 65536,
    .flushStart 16,
    .flushDone false 4294967296,
    .flushIncomplete 8,
    .housekeepingRound [] (List.replicate 47 false),
    .housekeepingRound (List.replicate 47 0) [],
    .resCharged 4294967296,
    .resFault 8 0,
    .resFault 0 65536,
    .resTestStart 16,
    .resTest 65536 0,
    .resTest 0 65536,
    .supRegWrite 0 67108864 0,
    .supRegWrite 9 0 0,
    .btnPress 4294967296] : List Instr).all (fun i => !i.wf) = true := by decide

theorem test_wf_refuses_13 : ([
    .seicheFrame 64 false,
    .seicheRequest 4294967296,
    .seicheFault 16,
    .nrwSession 2 0 0 false,
    .nrwSession 0 5 0 false,
    .nrwSession 0 0 18446744073709551616 false,
    .nrwWriteFrame 2 0 0 0 0 false false false .none,
    .nrwWriteFrame 0 72057594037927936 0 0 0 false false false .none,
    .nrwWriteFrame 0 0 4096 0 0 false false false .none,
    .nrwWriteFrame 0 0 0 1099511627776 0 false false false .none,
    .nrwZeroFrame 2 0 0 0 false false,
    .nrwZeroFrame 0 72057594037927936 0 0 false false,
    .nrwZeroFrame 0 0 4096 0 false false,
    .nrwZeroFrame 0 0 0 1099511627776 false false,
    .nrwReleaseFrame 2 0 0 false,
    .nrwReleaseFrame 0 72057594037927936 0 false,
    .nrwReleaseFrame 0 0 1099511627776 false,
    .nrwFetchFrame 2 0,
    .nrwFetchFrame 0 1099511627776,
    .nrwBitmapFrame 2 0 0 0,
    .nrwBitmapFrame 0 72057594037927936 0 0,
    .nrwBitmapFrame 0 0 1048576 0,
    .nrwAckFrame 2 0 false 0,
    .nrwAckFrame 0 72057594037927936 false 0] : List Instr).all (fun i => !i.wf) = true := by decide

theorem test_wf_refuses_14 : ([
    .nrwAckFrame 0 0 false 8,
    .nrwResendFrame 2 0,
    .nrwResendFrame 0 72057594037927936,
    .nrwHeartbeatFrame 2 0,
    .nrwHeartbeatFrame 0 72057594037927936,
    .nrwStatusFrame 2 0 0 false 0 false 0 0 false [] [],
    .nrwStatusFrame 0 8 0 false 0 false 0 0 false [] [],
    .nrwStatusFrame 0 0 4294967296 false 0 false 0 0 false [] [],
    .nrwStatusFrame 0 0 0 false 4 false 0 0 false [] [],
    .nrwStatusFrame 0 0 0 false 0 false 4 0 false [] [],
    .nrwStatusFrame 0 0 0 false 0 false 0 4 false [] [],
    .nrwStatusFrame 0 0 0 false 0 false 0 0 false [8] [],
    .nrwLeaveFrame 2,
    .nrwHandoffFrame 2 0,
    .nrwHandoffFrame 0 72057594037927936,
    .nrwTagFail 2,
    .nrwHoldIn 2 false,
    .nrwFence 8 0,
    .nrwFence 0 16,
    .nrwGroupSetSerials 5 [],
    .nrwGroupSetPromote 5 [],
    .nrwGroupSetSolo 5 [],
    .nrwResyncStatus 5 [],
    .nrwResyncFull 5 []] : List Instr).all (fun i => !i.wf) = true := by decide

theorem test_wf_refuses_15 : ([
    .obsPcCfgWrite 0 8 0,
    .obsPcCfgWrite 9 0 0,
    .plumbSample 4 0 0,
    .plumbSample 0 65536 0,
    .plumbSample 0 0 4294967296,
    .plumbDataPop 9,
    .plumbStop 16,
    .obsSndMarkWrite 9 0,
    .obsPlumbCtlWrite 0 67108864 0,
    .obsPlumbCtlWrite 9 0 0,
    .jtagBypass 256,
    .hostS2mCreditReturn 4 0 0,
    .hostS2mCreditReturn 0 65536 0,
    .hostS2mCreditReturn 0 0 65536,
    .linkL1L2Entry 4 0,
    .linkL1L2Entry 0 4,
    .nrwHeartbeatSend 2 0,
    .nrwHeartbeatSend 0 256,
    .onRequestLatched 7] : List Instr).all (fun i => !i.wf) = true := by decide

theorem test_wf_refuses_length_0 :
    Instr.wf (.ndxStage 0 (List.replicate 8193 0)) = false ∧
    Instr.wf (.ndxCommit 0 (List.replicate 8193 0) []) = false ∧
    Instr.wf (.spdmMessage 0 (List.replicate 8193 0)) = false ∧
    Instr.wf (.identify 0 (List.replicate 8193 0)) = false ∧
    Instr.wf (.requestAbortBgOp 0 (List.replicate 8193 0)) = false ∧
    Instr.wf (.getEventRecords 0 (List.replicate 8193 0)) = false ∧
    Instr.wf (.clearEventRecords 0 (List.replicate 8193 0)) = false ∧
    Instr.wf (.getEventInterruptPolicy 0 (List.replicate 8193 0)) = false ∧
    Instr.wf (.setEventInterruptPolicy 0 (List.replicate 8193 0)) = false ∧
    Instr.wf (.getFwInfo 0 (List.replicate 8193 0)) = false ∧
    Instr.wf (.getTimestamp 0 (List.replicate 8193 0)) = false ∧
    Instr.wf (.setTimestamp 0 (List.replicate 8193 0)) = false ∧
    Instr.wf (.getSupportedLogs 0 (List.replicate 8193 0)) = false ∧
    Instr.wf (.getLog 0 (List.replicate 8193 0)) = false ∧
    Instr.wf (.identifyMemoryDevice 0 (List.replicate 8193 0)) = false ∧
    Instr.wf (.getPartitionInfo 0 (List.replicate 8193 0)) = false := by
  simp only [Instr.wf, List.length_replicate]; decide

theorem test_wf_refuses_length_1 :
    Instr.wf (.setPartitionInfo 0 (List.replicate 8193 0)) = false ∧
    Instr.wf (.getLsa 0 (List.replicate 8193 0)) = false ∧
    Instr.wf (.setLsa 0 (List.replicate 8193 0)) = false ∧
    Instr.wf (.getHealthInfo 0 (List.replicate 8193 0)) = false ∧
    Instr.wf (.getAlertConfiguration 0 (List.replicate 8193 0)) = false ∧
    Instr.wf (.setAlertConfiguration 0 (List.replicate 8193 0)) = false ∧
    Instr.wf (.getShutdownState 0 (List.replicate 8193 0)) = false ∧
    Instr.wf (.setShutdownState 0 (List.replicate 8193 0)) = false ∧
    Instr.wf (.getPoisonList 0 (List.replicate 8193 0)) = false ∧
    Instr.wf (.injectPoison 0 (List.replicate 8193 0)) = false ∧
    Instr.wf (.clearPoison 0 (List.replicate 8193 0)) = false ∧
    Instr.wf (.getScanMediaCapabilities 0 (List.replicate 8193 0)) = false ∧
    Instr.wf (.scanMedia 0 (List.replicate 8193 0)) = false ∧
    Instr.wf (.getScanMediaResults 0 (List.replicate 8193 0)) = false ∧
    Instr.wf (.getDcConfiguration 0 (List.replicate 8193 0)) = false ∧
    Instr.wf (.getDcExtentList 0 (List.replicate 8193 0)) = false := by
  simp only [Instr.wf, List.length_replicate]; decide

theorem test_wf_refuses_length_2 :
    Instr.wf (.addDcResponse 0 (List.replicate 8193 0)) = false ∧
    Instr.wf (.releaseDynamicCapacity 0 (List.replicate 8193 0)) = false ∧
    Instr.wf (.unsupportedOpcode 0 0 (List.replicate 8193 0)) = false ∧
    Instr.wf (.haltReport 0 (List.replicate 8193 0)) = false ∧
    Instr.wf (.shorelineStart 0 (List.replicate 8193 0)) = false ∧
    Instr.wf (.shorelineStatus 0 (List.replicate 8193 0)) = false ∧
    Instr.wf (.keyInstall 0 (List.replicate 8193 0)) = false ∧
    Instr.wf (.keyRetire 0 (List.replicate 8193 0)) = false ∧
    Instr.wf (.keyRetireRanges 0 (List.replicate 8193 0)) = false ∧
    Instr.wf (.lifecycleAdvance 0 false (List.replicate 8193 0)) = false ∧
    Instr.wf (.obsTokenInstall 0 (List.replicate 8193 0)) = false ∧
    Instr.wf (.resetDevice 0 false (List.replicate 8193 0)) = false ∧
    Instr.wf (.i3cCcc 0 (List.replicate 8193 0)) = false ∧
    Instr.wf (.mctpControl false 0 (List.replicate 8193 0)) = false ∧
    Instr.wf (.mctpCxlCci false false 0 (List.replicate 8193 0)) = false ∧
    Instr.wf (.mmioWindowWrite false 0 0 (List.replicate 1025 0)) = false := by
  simp only [Instr.wf, List.length_replicate]; decide

theorem test_wf_refuses_length_3 :
    Instr.wf (.pldmMonitoring 0 0 (List.replicate 8193 0)) = false ∧
    Instr.wf (.pldmFwUpdate 0 (List.replicate 8193 0)) = false ∧
    Instr.wf (.fwBlock 0 (List.replicate 8193 0) false) = false ∧
    Instr.wf (.fwVerify 0 (List.replicate 8193 0)) = false ∧
    Instr.wf (.fwActivate 0 (List.replicate 8193 0)) = false ∧
    Instr.wf (.fwConfirm 0 (List.replicate 8193 0)) = false ∧
    Instr.wf (.gauParamRead 0 (List.replicate 8193 0)) = false ∧
    Instr.wf (.gauParamWrite 0 false (List.replicate 8193 0)) = false ∧
    Instr.wf (.sedMark 0 (List.replicate 8193 0)) = false ∧
    Instr.wf (.sedRead 0 (List.replicate 8193 0)) = false ∧
    Instr.wf (.pwrStateReqRun 0 (List.replicate 8193 0)) = false ∧
    Instr.wf (.pwrStateReqIdle 0 (List.replicate 8193 0)) = false ∧
    Instr.wf (.pwrStateReqSleep 0 (List.replicate 8193 0)) = false ∧
    Instr.wf (.pwrStateReqDeep 0 (List.replicate 8193 0)) = false ∧
    Instr.wf (.pwrStateReqOff 0 (List.replicate 8193 0)) = false ∧
    Instr.wf (.pwrStateReqBadTarget 0 (List.replicate 8193 0)) = false := by
  simp only [Instr.wf, List.length_replicate]; decide

theorem test_wf_refuses_length_4 :
    Instr.wf (.nrwStatusFrame 0 0 0 false 0 false 0 0 false [] (List.replicate 8193 0)) = false ∧
    Instr.wf (.nrwGroupSetSerials 0 (List.replicate 8193 0)) = false ∧
    Instr.wf (.nrwGroupSetPromote 0 (List.replicate 8193 0)) = false ∧
    Instr.wf (.nrwGroupSetSolo 0 (List.replicate 8193 0)) = false ∧
    Instr.wf (.nrwResyncStatus 0 (List.replicate 8193 0)) = false ∧
    Instr.wf (.nrwResyncFull 0 (List.replicate 8193 0)) = false := by
  simp only [Instr.wf, List.length_replicate]; decide

/-! ### Witnesses: states and operands that meet the hypotheses of the statements -/

theorem test_witness_StepRunsFront : ({ State.reset with pending := [.calAdjust] } : State).pending = .calAdjust :: [] := rfl
theorem test_witness_StepIdles : State.reset.pending = [] := rfl
theorem test_witness_FlashOkKept : FlashOk State.reset ∧ step State.reset = .next State.reset := ⟨by unfold FlashOk; decide, rfl⟩
theorem test_witness_FlashFrame : writesFlash .calAdjust = false ∧ ∃ t, exec .calAdjust State.reset = .next t := ⟨rfl, _, rfl⟩
theorem test_witness_HostPathFrame :
    hostPath (.memRd 0 0 0 .none true) = true ∧ ∃ t, exec (.memRd 0 0 0 .none true) State.reset = .next t := ⟨rfl, _, rfl⟩
theorem test_witness_EccDecoder_corrected : (eccCheck 1 ^^^ 0).toNat = lat 0 eccColumns 0 := by decide
theorem test_witness_EccDecoder_last : (eccCheck (1 <<< 63) ^^^ 0).toNat = lat 0 eccColumns 63 := by decide
theorem test_witness_EccDecoder_bad : weight8 (eccCheck 0 ^^^ 0x5B).toNat % 2 = 1 ∧
    (eccColumns.all (fun c => (eccCheck 0 ^^^ 0x5B).toNat != c)) = true := by decide
theorem test_witness_EccDecoder_good : eccCheck 5 = eccCheck 5 := rfl
theorem test_witness_EccDecoder_check : (eccCheck 5 ^^^ (eccCheck 5 ^^^ 1)).toNat = 2 ^ 0 ∧ (eccCheck 5 ^^^ (eccCheck 5 ^^^ 128)).toNat = 2 ^ 7 := by
  decide
theorem test_witness_EccDecoder_even : eccCheck 0 ≠ 3 ∧ weight8 (eccCheck 0 ^^^ 3).toNat % 2 = 0 := by decide
theorem test_witness_AccessTypes : ([(0, 4, Acc.rw), (4, 1, .w1c), (31, 1, .rc)] : List (Nat × Nat × Acc)).Pairwise
    (fun f g => f.1 + f.2.1 ≤ g.1 ∨ g.1 + g.2.1 ≤ f.1) := by decide

/-- A state whose newest record is in the ring. -/
def oneRecord : State :=
  let r : SedRec := ⟨0x0030, 2, 16, false, true, false, 0, 1, 7, 1, 2, 3⟩
  { State.reset with sed := { Sediment.init with ring := [r], newest := some (r, 0), next := 8 } }
theorem test_witness_SedMerges : oneRecord.sed.newest = some (⟨0x0030, 2, 16, false, true, false, 0, 1, 7, 1, 2, 3⟩, epoch oneRecord) ∧
    (SedReq.mk 0x0030 2 16 1 2 3).same ⟨0x0030, 2, 16, false, true, false, 0, 1, 7, 1, 2, 3⟩ = true ∧
    sedHeld oneRecord 7 = true := by decide

/-! ### One step of a few commands -/

/-- R408's example: bit 5 of 0x21 flips. -/
theorem test_ecc_example : eccCheck 0x21 = 0x12 ∧ eccDecode 0x01 0x12 = .corrected 0x21 ∧ eccDecode 0x00 0x12 = .bad := by decide

/-! ### States for the witnesses below -/

/-- After reset, with the management cores running. -/
def serving : State := setF F.MGMT_STAT_CORES 3 State.reset
/-- An image with one region of 256 MiB at 0 on head 0 under key index 0. -/
def oneRegion : ImageCfg :=
  { version := 1, totalLen := 0, nrec := 0, digest := zeros 48, enable := 0xFFFF, ports := 15, sealOn := true, plumb := true,
    nrw := true, sounding := true, portCfg := [], regions := [⟨0, 0, 0, 1, 0, 1, false, false⟩], wayMask := [], seeds := [], shallows := 0,
    topo := 0, count := 0, pos := 0, seiche := false, role := 0, narrows := none, rails := [], vWarn := 0, vFail := 0, erase := false,
    evlogMin := 3, alertMin := 4, thermal := defaultThermal, hyst := 3, marks := [], levelMax := 3, tokenReq := false, skipped := [],
    railsRaw := [], fixedRaw := [] }
/-- `serving` with that image and a key in context 0. -/
def configured : State :=
  { serving with cfg := some oneRegion
                 vault := { serving.vault with ctxs := [(0, { Ctx.init with st := .active, cur := some ⟨0, 0, 0, 0⟩ })] }
                 sup := { serving.sup with budget := 96 } }
/-- A scan of the first four lines runs. -/
def scanning : State :=
  { configured with mgmt := { configured.mgmt with bg := some (.scan 0 0 0 4 0 false false []) } }
/-- The device is deployed. -/
def deployed : State := setF F.MGMT_LC_STATE 2 configured
/-- `configured` with the translation layer and the integrity unit serving. -/
def mapped : State :=
  let s := setF F.MTL_STAT_STATE 1 (setF F.ICU_STAT_STATE 1 configured)
  { s with mtl := { s.mtl with ready := true, size := 32 }, icu := { s.icu with rootOpen := true }
           vault := { s.vault with dev := some ⟨1, 4, 5, 6⟩ } }
/-- A set of three members on die 0, plane 0. -/
def setOn (kind : Nat) (st : SetSt) : BlockSet :=
  { kind := kind, die := 0, plane := 0, members := [(0, 2), (1, 2), (2, 2)], st := st, sset := 0, assigned := 0, programmed := [],
    rows := [], dead := [], lastProg := 0, firstClose := none, toErase := [], eraseBad := [] }
/-- `mapped` with the block sets l. -/
def withSets (l : Tbl BlockSet) (s : State) : State := { s with mtl := { s.mtl with map := { s.mtl.map with sets := l } } }

/-! Witnesses: tick -/

/-- A follower that is locked, with a frame of zeros received. -/
def follower : State :=
  { setF F.TICK_SYNC_STAT_LOCKED 1 State.reset with tick := { Tick.init with role := 2, frame := List.replicate 80 false, addD := some (5, 0) } }
/-- The same before it has locked. -/
def unlocked : State := setF F.TICK_SYNC_STAT_LOCKED 0 follower
def syncMaster : State := { State.reset with tick := { Tick.init with role := 1 } }
/-- A device of the role given by t. -/
def ticking (t : Tick) (s : State) : State := { s with tick := t }
theorem test_witness_TickCommits :
   (let path : Nat := 4
    let s : State := State.reset
    isMgmt path = true ∧ (¬ (isFollower s = true ∧ bit s F.TICK_SYNC_STAT_LOCKED = true))) ∧
   (let path : Nat := 4
    let s : State := follower
    isMgmt path = true ∧ isFollower s = true ∧ bit s F.TICK_SYNC_STAT_LOCKED = true) ∧
   (let path : Nat := 4
    let v : BitVec 32 := State.reset.reg Reg.TICK_BUDGET_HI
    let s : State := State.reset
    isMgmt path = true ∧ (shares (stagedLo s path Reg.TICK_BUDGET_LO) v).sum = 64 ∧ (List.range 8).all (fun c => decide (lat 0 minShares c ≤ lat 0 (shares (stagedLo s path Reg.TICK_BUDGET_LO) v) c)) = true) ∧
   (let path : Nat := 4
    let v : BitVec 32 := 0
    let s : State := State.reset
    isMgmt path = true ∧ ((shares (stagedLo s path Reg.TICK_BUDGET_LO) v).sum ≠ 64)) := by decide +kernel
theorem test_witness_RippleSync_1 :
   (let s : State := ticking { Tick.init with listen := some 4 } State.reset
    s.tick.listen.isSome = true) ∧
   (let s : State := State.reset
    s.tick.listen = none ∧ isFollower s = false) ∧
   (let width : Nat := 11
    let gap : Nat := 398
    let s : State := ticking { follower.tick with collecting := true, frame := [] } follower
    s.tick.listen = none ∧ isFollower s = true ∧ bit s F.TICK_SYNC_STAT_LOCKED = true ∧ width ≤ 11 ∧ 398 ≤ gap ∧ gap ≤ 402) ∧
   (let width : Nat := 0
    let gap : Nat := 402
    let s : State := follower
    s.tick.listen = none ∧ isFollower s = true ∧ bit s F.TICK_SYNC_STAT_LOCKED = true ∧ width ≤ 11 ∧ 398 ≤ gap ∧ gap ≤ 402) ∧
   (let width : Nat := 12
    let gap : Nat := 402
    let s : State := follower
    s.tick.listen = none ∧ isFollower s = true ∧ bit s F.TICK_SYNC_STAT_LOCKED = true ∧ s.tick.shortPending = false ∧ 12 ≤ width ∧ 398 ≤ gap ∧ gap ≤ 402) := by decide +kernel
theorem test_witness_RippleSync_2 :
   (let width : Nat := 12
    let gap : Nat := 398
    let s : State := ticking { follower.tick with shortPending := true } follower
    s.tick.listen = none ∧ isFollower s = true ∧ bit s F.TICK_SYNC_STAT_LOCKED = true ∧ s.tick.shortPending = true ∧ 12 ≤ width ∧ 398 ≤ gap ∧ gap ≤ 402) ∧
   (let width : Nat := 11
    let s : State := ticking { follower.tick with goodPulses := 7 } unlocked
    s.tick.listen = none ∧ isFollower s = true ∧ bit s F.TICK_SYNC_STAT_LOCKED = false ∧ width ≤ 11) ∧
   (let width : Nat := 11
    let gap : Nat := 397
    let s : State := follower
    s.tick.listen = none ∧ isFollower s = true ∧ bit s F.TICK_SYNC_STAT_LOCKED = true ∧ width ≤ 11 ∧ ((gap < 398 ∨ 402 < gap))) ∧
   (let width : Nat := 0
    let gap : Nat := 403
    let s : State := follower
    s.tick.listen = none ∧ isFollower s = true ∧ bit s F.TICK_SYNC_STAT_LOCKED = true ∧ width ≤ 11 ∧ ((gap < 398 ∨ 402 < gap))) ∧
   (let s : State := follower
    s.tick.frame.length = 80 ∧ isFollower s = true ∧ frameVal s.tick.frame % 16 = frameCheck (frameVal s.tick.frame) ∧ frameVal s.tick.frame / 16 % 256 = 0) := by decide +kernel
theorem test_witness_RippleSync_3 :
   (let s : State := ticking { follower.tick with frame := List.replicate 79 false ++ [true] } follower
    s.tick.frame.length = 80 ∧ isFollower s = true ∧ ((frameVal s.tick.frame % 16 ≠ frameCheck (frameVal s.tick.frame) ∨ frameVal s.tick.frame / 16 % 256 ≠ 0))) ∧
   (let d : Nat := 5
    let s : State := follower
    s.tick.addD = some (d, 0) ∧ s.tick.cal * 250 + fld s F.TICK_CAL_STAT_SUBMS + d < 2 ^ 48 * 250) ∧
   (let s : State := follower
    isFollower s = true ∧ bit s F.TICK_SYNC_STAT_LOCKED = true) ∧
   (let s : State := syncMaster
    s.tick.role = 1 ∧ s.tick.forcedFollower = false ∧ s.tick.listen = none) ∧
   (let s : State := ticking { Tick.init with listen := some 0, heard := true } State.reset
    s.tick.listen = some 0) := by decide +kernel

/-! Witnesses: mbox1 -/

/-- `follower` with the management cores running. -/
def servingFollower : State := setF F.MGMT_STAT_CORES 3 follower
/-- The Tuten port names head 3, which a part of variant 1 lacks. -/
def tutenAbsent : State := setF F.MGMT_TUT_HEAD_HEAD 3 { configured with variant := 1 }
/-- `configured` with its region offered as dynamic capacity. -/
def dynamic : State := { configured with cfg := some { oneRegion with regions := [⟨0, 0, 0, 1, 0, 1, true, false⟩] } }
def stampNew : List Byte := [0, 0, 0, 0, 0, 0, 0, 20]
/-- Line 1 is on the poison list, and a scan of it left a bad line. -/
def poisoned1 : State :=
  modHead 0 (fun x => { x with scanLeft := [1] }) { configured with poison := { configured.poison with ents := [⟨1, 2⟩] } }
theorem test_witness_IdentityTimeLogs_1 :
   (let path : Nat := 0
    let s : State := serving
    taken path 0x0001 [] s = true) ∧
   (let path : Nat := tuten
    let s : State := serving
    taken path 0x0200 [] s = true) ∧
   (let path : Nat := 0
    let s : State := serving
    taken path 0x0300 [] s = true) ∧
   (let path : Nat := 0
    let inp : List Byte := zeros 8
    let s : State := serving
    taken path 0x0301 inp s = true ∧ inp.length = 8 ∧ s.mgmt.stamp = none ∧ ((at' inp 0 8 / 1000000 < 946684800000 ∨ (isFollower s = true ∧ bit s F.TICK_SYNC_STAT_LOCKED = true)))) ∧
   (let path : Nat := 0
    let inp : List Byte := stampNew
    let s : State := servingFollower
    taken path 0x0301 inp s = true ∧ inp.length = 8 ∧ s.mgmt.stamp = none ∧ ((at' inp 0 8 / 1000000 < 946684800000 ∨ (isFollower s = true ∧ bit s F.TICK_SYNC_STAT_LOCKED = true)))) := by decide +kernel
theorem test_witness_IdentityTimeLogs_2 :
   (let path : Nat := 0
    let inp : List Byte := stampNew
    let s : State := serving
    taken path 0x0301 inp s = true ∧ inp.length = 8 ∧ s.mgmt.stamp = none ∧ 946684800000 ≤ at' inp 0 8 / 1000000 ∧ (¬ (isFollower s = true ∧ bit s F.TICK_SYNC_STAT_LOCKED = true))) ∧
   (let path : Nat := 0
    let inp : List Byte := stampNew
    let s : State := { serving with mgmt := { serving.mgmt with stamp := some (1, 5, true) } }
    taken path 0x0301 inp s = true ∧ inp.length = 8 ∧ s.mgmt.stamp.isSome = true) ∧
   (let path : Nat := 0
    let s : State := serving
    taken path 0x0400 [] s = true) ∧
   (let path : Nat := 0
    let o : Nat := 4
    let n : Nat := 4
    let s : State := serving
    o < 2 ^ 32 ∧ n < 2 ^ 32 ∧ o + n ≤ 4 * (opcodes path).length ∧ n ≤ 8192 ∧ taken path 0x0401 (effectsUuid ++ le 4 o ++ le 4 n) s = true) ∧
   (let path : Nat := 0
    let s : State := serving
    taken path 0x0005 [] s = true ∧ s.mgmt.bg = none) := by decide +kernel
theorem test_witness_IdentityTimeLogs_3 :
   (let path : Nat := 0
    let p : Nat := 0
    let h : Nat := 0
    let a : Nat := 0
    let b : Nat := 4
    let pos : Nat := 0
    let e : Bool := false
    let ab : Bool := false
    let bad : List Nat := []
    let s : State := scanning
    taken path 0x0005 [] s = true ∧ s.mgmt.bg = some (.scan p h a b pos e ab bad)) ∧
   (let path : Nat := 0
    let op : Nat := 0x4600
    let inp : List Byte := [1]
    let s : State := serving
    (opcodes tuten).contains op = false ∧ taken path op inp s = true) := by decide +kernel
theorem test_witness_DeviceReads_1 :
   (let path : Nat := 0
    let s : State := configured
    taken path 0x4000 [] s = true ∧ headOn s (cmdHead s path) = true) ∧
   (let path : Nat := tuten
    let s : State := tutenAbsent
    taken path 0x4000 [] s = true ∧ headOn s (cmdHead s path) = false) ∧
   (let path : Nat := 0
    let s : State := configured
    taken path 0x4100 [] s = true ∧ headOn s (cmdHead s path) = true) ∧
   (let path : Nat := 0
    let inp : List Byte := [0]
    let s : State := configured
    taken path 0x4101 inp s = true) ∧
   (let path : Nat := 0
    let o : Nat := 0x3FFFF
    let n : Nat := 1
    let s : State := configured
    o < 2 ^ 32 ∧ n < 2 ^ 32 ∧ o + n ≤ 256 * 1024 ∧ n ≤ 8192 ∧ taken path 0x4102 (le 4 o ++ le 4 n) s = true ∧ headOn s (cmdHead s path) = true) := by decide +kernel
theorem test_witness_DeviceReads_2 :
   (let path : Nat := 0
    let o : Nat := 0x40000
    let n : Nat := 1
    let s : State := configured
    o < 2 ^ 32 ∧ n < 2 ^ 32 ∧ 256 * 1024 < o + n ∧ taken path 0x4102 (le 4 o ++ le 4 n) s = true ∧ headOn s (cmdHead s path) = true) ∧
   (let path : Nat := 0
    let s : State := configured
    taken path 0x4200 [] s = true) ∧
   (let path : Nat := 0
    let s : State := configured
    taken path 0x4201 [] s = true) ∧
   (let path : Nat := 0
    let s : State := configured
    taken path 0x4203 [] s = true ∧ headOn s (cmdHead s path) = true) ∧
   (let path : Nat := 0
    let a : Byte := 0
    let b : Byte := 0
    let s : State := configured
    taken path 0x4800 [a, b] s = true ∧ headOn s (cmdHead s path) = true ∧ dcRegions s (cmdHead s path) = []) := by decide +kernel
theorem test_witness_DeviceReads_3 :
   (let path : Nat := 0
    let a : Byte := 1
    let b : Byte := 0
    let r : Region := ⟨0, 0, 0, 1, 0, 1, true, false⟩
    let s : State := dynamic
    taken path 0x4800 [a, b] s = true ∧ headOn s (cmdHead s path) = true ∧ dcRegions s (cmdHead s path) = [r]) ∧
   (let path : Nat := 0
    let n : Nat := 1
    let o : Nat := 1
    let s : State := dynamic
    n < 2 ^ 32 ∧ o < 2 ^ 32 ∧ o ≤ (dcRegions s (cmdHead s path)).length ∧ taken path 0x4801 (le 4 n ++ le 4 o) s = true ∧ headOn s (cmdHead s path) = true) ∧
   (let path : Nat := 0
    let inp : List Byte := []
    let s : State := configured
    taken path 0x4802 inp s = true) ∧
   (let path : Nat := 0
    let inp : List Byte := []
    let s : State := configured
    taken path 0x4803 inp s = true) := by decide +kernel
theorem test_witness_LogsAndLists_1 :
   (let path : Nat := 0
    let k : Byte := 3
    let s : State := configured
    taken path 0x0100 [k] s = true ∧ headOn s (cmdHead s path) = true ∧ k.toNat < 4) ∧
   (let path : Nat := 0
    let k : Byte := 4
    let s : State := configured
    taken path 0x0100 [k] s = true ∧ headOn s (cmdHead s path) = true ∧ 4 ≤ k.toNat) ∧
   (let path : Nat := 0
    let k : Byte := 3
    let r : List Byte := [0, 0, 0]
    let s : State := configured
    k.toNat < 4 ∧ r.length = 3 ∧ taken path 0x0101 (k :: 1 :: 0 :: r) s = true ∧ headOn s (cmdHead s path) = true ∧ (headOf s (cmdHead s path)).logs.length = 4) ∧
   (let path : Nat := 0
    let s : State := configured
    taken path 0x0102 [] s = true ∧ headOn s (cmdHead s path) = true) ∧
   (let path : Nat := 0
    let a : Byte := 1
    let b : Byte := 0
    let c : Byte := 1
    let d : Byte := 0x11
    let s : State := configured
    taken path 0x0103 [a, b, c, d] s = true ∧ headOn s (cmdHead s path) = true ∧ a.toNat % 4 ≤ 1 ∧ b.toNat % 4 ≤ 1 ∧ c.toNat % 4 ≤ 1 ∧ d.toNat % 4 ≤ 1) := by decide +kernel
theorem test_witness_LogsAndLists_2 :
   (let path : Nat := 0
    let a : List Byte := zeros 8
    let b : List Byte := le 8 4
    let s : State := poisoned1
    a.length = 8 ∧ b.length = 8 ∧ taken path 0x4300 (a ++ b) s = true ∧ headOn s (cmdHead s path) = true) ∧
   (let path : Nat := 0
    let a : Nat := 0
    let n : Nat := 4
    let inp : List Byte := zeros 8 ++ le 8 4
    let s : State := configured
    inp.length = 16 ∧ taken path 0x4303 inp s = true ∧ headOn s (cmdHead s path) = true ∧ scanRange s (cmdHead s path) inp = some (a, n) ∧ 0 < fusedChans s) ∧
   (let path : Nat := 0
    let inp : List Byte := le 8 64 ++ le 8 (2 ^ 32)
    let s : State := configured
    inp.length = 16 ∧ taken path 0x4303 inp s = true ∧ headOn s (cmdHead s path) = true ∧ scanRange s (cmdHead s path) inp = none) ∧
   (let path : Nat := 0
    let s : State := poisoned1
    taken path 0x4305 [] s = true ∧ headOn s (cmdHead s path) = true) := by decide +kernel
theorem test_witness_HeadWrites_1 :
   (let path : Nat := 0
    let o : Nat := 0x3FFFF
    let d : List Byte := [5]
    let s : State := configured
    o + d.length ≤ 256 * 1024 ∧ d.length ≤ 8184 ∧ taken path 0x4103 (le 4 o ++ zeros 4 ++ d) s = true ∧ headOn s (cmdHead s path) = true) ∧
   (let path : Nat := 0
    let inp : List Byte := zeros 12
    let s : State := configured
    inp.length = 12 ∧ taken path 0x4202 inp s = true) ∧
   (let path : Nat := 0
    let b : Byte := 1
    let s : State := configured
    taken path 0x4204 [b] s = true ∧ headOn s (cmdHead s path) = true) ∧
   (let path : Nat := 0
    let a : Nat := 0
    let n : Nat := 4
    let inp : List Byte := zeros 8 ++ le 8 4 ++ [0]
    let s : State := configured
    inp.length = 17 ∧ taken path 0x4304 inp s = true ∧ headOn s (cmdHead s path) = true ∧ scanRange s (cmdHead s path) inp = some (a, n) ∧ s.mgmt.bg = none) ∧
   (let path : Nat := 0
    let inp : List Byte := zeros 8 ++ le 8 4 ++ [0]
    let c : BgCmd := .scan 0 0 0 4 0 false false []
    let s : State := scanning
    inp.length = 17 ∧ taken path 0x4304 inp s = true ∧ headOn s (cmdHead s path) = true ∧ (scanRange s (cmdHead s path) inp).isSome = true ∧ s.mgmt.bg = some c) := by decide +kernel
theorem test_witness_HeadWrites_2 :
   (let path : Nat := 0
    let h : Nat := 0
    let a : Nat := 0
    let b : Nat := 4
    let pos : Nat := 0
    let quiet : Bool := false
    let ok : List Nat := []
    let fail : Option (Nat × Nat) := none
    let s : State := scanning
    s.mgmt.bg = some (.scan path h a b pos quiet false ok) ∧ (fail.all (fun f => decide (a ≤ f.1 ∧ f.1 < b)) = true)) ∧
   (let path : Nat := 0
    let h : Nat := 0
    let a : Nat := 0
    let b : Nat := 4
    let pos : Nat := 0
    let quiet : Bool := false
    let ok : List Nat := []
    let fail : Option (Nat × Nat) := some (3, 1)
    let s : State := scanning
    s.mgmt.bg = some (.scan path h a b pos quiet false ok) ∧ (fail.all (fun f => decide (a ≤ f.1 ∧ f.1 < b)) = true)) ∧
   (let path : Nat := 0
    let h : Nat := 0
    let a : Nat := 0
    let b : Nat := 4
    let pos : Nat := 0
    let quiet : Bool := false
    let ok : List Nat := []
    let s : State := { scanning with mgmt := { scanning.mgmt with bg := some (.scan 0 0 0 4 0 false true []) } }
    s.mgmt.bg = some (.scan path h a b pos quiet true ok)) ∧
   (let path : Nat := 0
    let inp : List Byte := le 8 64
    let s : State := deployed
    inp.length = 8 ∧ taken path 0x4301 inp s = true ∧ headOn s (cmdHead s path) = true ∧ 2 ≤ lifecycle s) := by decide +kernel
theorem test_witness_HeadWrites_3 :
   (let path : Nat := 0
    let inp : List Byte := le 8 64
    let s : State := configured
    let h := cmdHead s path
    let line := at' inp 0 8 / 64
    let r := ⟨0, 0, 0, 1, 0, 1, false, false⟩
    let key := 0
    inp.length = 8 ∧ taken path 0x4301 inp s = true ∧ headOn s (cmdHead s path) = true ∧ lifecycle s < 2 ∧ at' inp 0 8 % 64 = 0 ∧ regionOf s h line = some r ∧ key = (heldKey s line).getD r.key ∧ keyHolds s key = true ∧ roLine s h line = false ∧ deviceRo s line = false ∧ slicesServe s = true ∧ amqFull s line = false ∧ admitLine s line = true) ∧
   (let path : Nat := 0
    let inp : List Byte := le 8 64 ++ zeros 64
    let s : State := configured
    let h := cmdHead s path
    let line := at' inp 0 8 / 64
    let r := ⟨0, 0, 0, 1, 0, 1, false, false⟩
    let key := 0
    inp.length = 72 ∧ taken path 0x4302 inp s = true ∧ headOn s (cmdHead s path) = true ∧ at' inp 0 8 % 64 = 0 ∧ regionOf s h line = some r ∧ key = (heldKey s line).getD r.key ∧ keyHolds s key = true ∧ roLine s h line = false ∧ deviceRo s line = false ∧ slicesServe s = true ∧ amqFull s line = false ∧ admitLine s line = true) ∧
   (let path : Nat := 0
    let inp : List Byte := le 8 65 ++ zeros 64
    let s : State := configured
    inp.length = 72 ∧ taken path 0x4302 inp s = true ∧ headOn s (cmdHead s path) = true ∧ ((at' inp 0 8 % 64 ≠ 0 ∨ regionOf s (cmdHead s path) (at' inp 0 8 / 64) = none))) := by decide +kernel

/-! Witnesses: regs -/

/-- `serving` with the Tuten port's endpoint ID assigned. -/
def addressed : State := setF F.MGMT_TUT_STAT_EID 8 serving
/-- The Tuten port has read TICK_COUNT_LO. -/
def captured : State := { serving with captured := [(stageKey tuten Reg.TICK_COUNT_HI, 7)] }
/-- The descriptor of the register at a. -/
def descAt (a : Nat) : RegDesc := (regDesc a).getD ⟨0, 0, 0, 0, 0, 0, false, false, []⟩
theorem test_witness_RegisterAccess_1 :
   (let path : Nat := tuten
    let a : Nat := Reg.GLB_SCRATCH 0
    let d : RegDesc := descAt (Reg.GLB_SCRATCH 0)
    let s : State := serving
    pathReaches s path = true ∧ (¬ (path = tuten ∧ railFailed s 4 = true)) ∧ s.pwr.st ≤ 1 ∧ a % 4 = 0 ∧ blockOn s a = true ∧ regDesc a = some d ∧ (isHead path = true → d.hostW = true) ∧ isLo d = false ∧ a < 0x100000 ∧ a ≠ Reg.TICK_CAL_SET_HI ∧ a ≠ Reg.TICK_BUDGET_HI ∧ a ≠ Reg.GLB_RESET_CAUSE) ∧
   (let path : Nat := tuten
    let a : Nat := 2
    let s : State := serving
    pathReaches s path = true ∧ s.pwr.st ≤ 1 ∧ (a % 4 ≠ 0)) ∧
   (let path : Nat := tuten
    let a : Nat := 0x3FFFFFC
    let s : State := serving
    pathReaches s path = true ∧ s.pwr.st ≤ 1 ∧ ((regDesc a = none ∧ daBuffer a = none))) ∧
   (let a : Nat := 8
    a % 8 = 0) ∧
   (let a : Nat := 4
    let size : Nat := 8
    size ≠ 4 ∧ ((size ≠ 8 ∨ a % 8 ≠ 0))) := by decide +kernel
theorem test_witness_RegisterAccess_2 :
   (let path : Nat := tuten
    let a : Nat := Reg.PWR_TIMER_LO
    let d : RegDesc := descAt Reg.PWR_TIMER_LO
    let s : State := serving
    pathReaches s path = true ∧ (¬ (path = tuten ∧ railFailed s 4 = true)) ∧ s.pwr.st ≤ 1 ∧ a % 4 = 0 ∧ blockOn s a = true ∧ regDesc a = some d ∧ (isHead path = true → d.hostW = true) ∧ isLo d = true ∧ d.fields.any (fun f => f.2.2 == .rw) = true) ∧
   (let path : Nat := tuten
    let s : State := serving
    pathReaches s path = true ∧ isMgmt path = true ∧ railFailed s 4 = false ∧ s.pwr.st ≤ 1 ∧ blockOn s Reg.PWR_TIMER_HI = true) ∧
   (let path : Nat := tuten
    let s : State := serving
    pathReaches s path = true ∧ railFailed s 4 = false ∧ s.pwr.st ≤ 1 ∧ blockOn s Reg.TICK_COUNT_LO = true) ∧
   (let path : Nat := tuten
    let w : BitVec 32 := 7
    let s : State := captured
    pathReaches s path = true ∧ railFailed s 4 = false ∧ s.pwr.st ≤ 1 ∧ blockOn s Reg.TICK_COUNT_HI = true ∧ tfind s.captured (stageKey path Reg.TICK_COUNT_HI) = some w) := by decide +kernel
theorem test_witness_RegisterAccess_3 :
   (let path : Nat := tuten
    let a : Nat := Reg.HP_RESET_STAT 0
    let d : RegDesc := descAt (Reg.HP_RESET_STAT 0)
    let s : State := serving
    pathReaches s path = true ∧ railFailed s 4 = false ∧ s.pwr.st ≤ 1 ∧ a % 4 = 0 ∧ blockOn s a = true ∧ regDesc a = some d ∧ d.fields.any (fun f => f.2.2 == .rc) = true ∧ isLo d = false ∧ isHi d = false ∧ a ≠ Reg.SUP_VIN ∧ a ≠ Reg.OBS_PLUMB_DATA 7 ∧ a ≠ Reg.OBS_PLUMB_STAT ∧ a ≠ Reg.TICK_CYCLE ∧ a ≠ Reg.PWR_DOMAIN) ∧
   (let a : Nat := 8
    a % 8 = 0) ∧
   (let path : Nat := tuten
    let a : Nat := 4
    let size : Nat := 8
    let s : State := serving
    pathReaches s path = true ∧ size ≠ 4 ∧ ((size ≠ 8 ∨ a % 8 ≠ 0))) ∧
   (let count : Nat := 16
    let offset : Nat := 0x3FFFFC0
    let s : State := addressed
    pathReaches s tuten = true ∧ railFailed s 4 = false ∧ s.pwr.st ≤ 1 ∧ fld s F.MGMT_STAT_CORES ≠ 0 ∧ fld s F.MGMT_TUT_STAT_EID ≠ 0 ∧ inRecovery s = false ∧ 1 ≤ count ∧ count ≤ 16 ∧ offset % 4 = 0 ∧ offset + 4 * count ≤ 0x4000000) := by decide +kernel
theorem test_witness_RegisterAccess_4 :
   (let sec : Bool := false
    let count : Nat := 1
    let offset : Nat := 0x3FFFFFC
    let data : List (BitVec 32) := [7]
    let s : State := addressed
    pathReaches s tuten = true ∧ railFailed s 4 = false ∧ s.pwr.st ≤ 1 ∧ fld s F.MGMT_STAT_CORES ≠ 0 ∧ fld s F.MGMT_TUT_STAT_EID ≠ 0 ∧ inRecovery s = false ∧ (needsSession s false = true → isSecured s tuten sec = true) ∧ 1 ≤ count ∧ count ≤ 16 ∧ offset % 4 = 0 ∧ offset + 4 * count ≤ 0x4000000 ∧ data.length = count) ∧
   (let count : Nat := 17
    let s : State := addressed
    pathReaches s tuten = true ∧ railFailed s 4 = false ∧ s.pwr.st ≤ 1 ∧ fld s F.MGMT_STAT_CORES ≠ 0 ∧ fld s F.MGMT_TUT_STAT_EID ≠ 0 ∧ inRecovery s = false ∧ ((count < 1 ∨ 16 < count))) := by decide +kernel

/-! Witnesses: host -/

/-- Head 0 may train. -/
def training : State := modHead 0 (fun x => { x with released := true }) configured
/-- Its link is up, with a secured session on its DOE mailbox. -/
def linked : State :=
  let s := setF (F.HP_LINK_STAT_WIDTH 0) 8 (setF (F.HP_LINK_STAT_UP 0) 1 training)
  { s with mgmt := { s.mgmt with spdm := [(0, ⟨3, [(7, 1)], 8⟩)] } }
/-- The head's IDE stream is established. -/
def streaming : State := setF (F.HP_IDE_STAT_STATE 0) 1 linked
/-- An image whose ports 1 to 3 are off. -/
def onePort : State := { training with cfg := some { oneRegion with ports := 1 } }
theorem test_witness_LinksAndResets_1 :
   (let h : Nat := 0
    let width : Nat := 3
    let s : State := training
    portTrains s h = true ∧ linkTrained s h = false ∧ width < 4) ∧
   (let h : Nat := 0
    let width : Nat := 8
    let rate : Nat := 0
    let s : State := training
    portTrains s h = true ∧ linkTrained s h = false ∧ trainable s h width rate = true) ∧
   (let h : Nat := 0
    let width : Nat := 4
    let rate : Nat := 2
    let s : State := training
    portTrains s h = true ∧ linkTrained s h = false ∧ trainable s h width rate = true) ∧
   (let h : Nat := 0
    let width : Nat := 8
    let rate : Nat := 5
    let s : State := linked
    ((portTrains s h = false ∨ linkTrained s h = true ∨
      (4 ≤ width ∧ trainable s h width rate = false)))) ∧
   (let h : Nat := 0
    let width : Nat := 5
    let rate : Nat := 5
    let s : State := training
    ((portTrains s h = false ∨ linkTrained s h = true ∨
      (4 ≤ width ∧ trainable s h width rate = false)))) := by decide +kernel
theorem test_witness_LinksAndResets_2 :
   (let h : Nat := 0
    let s : State := linked
    headOn s h = true ∧ linkTrained s h = true) ∧
   (let h : Nat := 0
    let s : State := linked
    (fusedPorts s).testBit h = true ∧ (headOf s h).perst = false ∧ headOn s h = true) ∧
   (let h : Nat := 1
    let s : State := modHead 1 (fun x => { x with perst := false }) onePort
    (fusedPorts s).testBit h = true ∧ (headOf s h).perst = false ∧ headOn s h = false) ∧
   (let h : Nat := 0
    let s : State := training
    (fusedPorts s).testBit h = true ∧ headOn s h = true) ∧
   (let h : Nat := 0
    let s : State := linked
    headOn s h = true ∧ (headOf s h).perst = false) := by decide +kernel
theorem test_witness_LinksAndResets_3 :
   (let h : Nat := 0
    let s : State := training
    let u := headReset h (sed 0x0104 sNOTICE 0 h 2 0 (satInc (F.HP_RESET_STAT_CXLRST h) s.begun))
    headOn s h = true ∧ (headOf s h).perst = false ∧ bit u (F.HP_LINK_STAT_UP h) = false) ∧
   (let h : Nat := 0
    let s : State := linked
    let u := headReset h (sed 0x0104 sNOTICE 0 h 2 0 (satInc (F.HP_RESET_STAT_CXLRST h) s.begun))
    headOn s h = true ∧ (headOf s h).perst = false ∧ bit u (F.HP_LINK_STAT_UP h) = true) ∧
   (let h : Nat := 0
    let s : State := linked
    headOn s h = true) ∧
   (let h : Nat := 0
    let s : State := linked
    headOn s h = true ∧ linkTrained s h = true) ∧
   (let h : Nat := 0
    let s : State := linked
    headOn s h = true ∧ linkTrained s h = true) := by decide +kernel
theorem test_witness_LinksAndResets_4 :
   (let h : Nat := 3
    h < 4) ∧
   (let h : Nat := 3
    h < 4) ∧
   (let h : Nat := 3
    h < 4) ∧
   (let h : Nat := 3
    h < 4) ∧
   (let h : Nat := 3
    h < 4) := by decide +kernel
theorem test_witness_HostPortCommands_1 :
   (let h : Nat := 0
    let n : Nat := 7
    let base : Nat := 0
    let size : Nat := 0x10000000
    let skip : Nat := 0
    let ways : Nat := 1
    let gran : Nat := 256
    let s : State := linked
    let l := tput n ⟨base, size, skip, ways, gran⟩ (headOf s h).decoders
    headOn s h = true ∧ n < 8 ∧ decoderOk ⟨base, size, skip, ways, gran⟩ = true ∧ base + size ≤ 2 ^ 52 ∧ (¬ (tagged s h = true ∧ 2 ^ 40 < base + size)) ∧ inRegions s h (decoderBase l n) (decoderBase l n + size / ways) = true) ∧
   (let h : Nat := 0
    let n : Nat := 0
    let base : Nat := 0
    let size : Nat := 0x10000000
    let skip : Nat := 0
    let ways : Nat := 5
    let gran : Nat := 256
    let s : State := linked
    headOn s h = true ∧ n < 8 ∧ decoderOk ⟨base, size, skip, ways, gran⟩ = false) ∧
   (let h : Nat := 0
    let s : State := linked
    headOn s h = true ∧ bit s (F.HP_LINK_STAT_UP h) = true) ∧
   (let h : Nat := 0
    let ses : Nat := 7
    let keys : List (BitVec 256) := [5]
    let s : State := linked
    headOn s h = true ∧ spdmOpen s h ses = true ∧ keys ≠ [] ∧ fld s (F.HP_IDE_STAT_STATE h) ≠ 1) ∧
   (let h : Nat := 0
    let ses : Nat := 7
    let keys : List (BitVec 256) := [5]
    let s : State := streaming
    headOn s h = true ∧ spdmOpen s h ses = true ∧ keys ≠ [] ∧ fld s (F.HP_IDE_STAT_STATE h) = 1) := by decide +kernel
theorem test_witness_HostPortCommands_2 :
   (let h : Nat := 0
    let s : State := streaming
    headOn s h = true ∧ fld s (F.HP_IDE_STAT_STATE h) = 1) ∧
   (let p : Nat := 0
    let s : State := linked
    p < 4 ∧ headOn s p = true ∧ (headOf s p).released = true ∧ fld s F.MGMT_STAT_CORES ≠ 0) ∧
   (let h : Nat := 0
    let s : State := linked
    headOn s h = true) ∧
   (let h : Nat := 0
    let s : State := linked
    headOn s h = true) ∧
   (let h : Nat := 0
    let s : State := linked
    headOn s h = true) := by decide +kernel

/-! Witnesses: fabric -/

/-- `linked` with memory active. -/
def active : State := modHead 0 (fun x => { x with memoryActive := true }) linked
/-- The same with the cache's structures given for slice 0. -/
def sliced (x : Slice) : State := { active with slices := [(0, x)] }
/-- The first chunk of an image, with the last flag. -/
def chunk (off last : Nat) : List Byte := le 4 off ++ le 2 8 ++ [BitVec.ofNat 8 last, 0] ++ zeros 8
/-- Eight bytes are staged by the Tuten port. -/
def loading : State :=
  setF F.MGMT_NDX_STAT_STAGE 1 { configured with ndx := { configured.ndx with staged := zeros 8, owner := some (0, pathCode tuten) } }
/-- A VALID staged image. -/
def staged1 : State :=
  setF F.MGMT_NDX_STAT_STAGE 2 { configured with ndx := { configured.ndx with staged := zeros 8, stagedCfg := some oneRegion } }
/-- Queue 0 as q. -/
def queueAs (q : Queue) : State := modQueue 0 (fun _ => q) active
def waitingRead : QEntry := QEntry.blank .read 3
/-- A dirty line 0 in way 0. -/
def dirtyLine : State :=
  putWay (wayKey (sliceNo 0) (setNo 0) 0) ⟨tagNo 0, 0, false, false, .dirty, 7⟩ active
/-- A line command of the Tuten port over one line, with n lines started. -/
def lcmdAt (n : Nat) (l : List Nat) : State := { active with lcmds := [(tuten, ⟨2, 0, 1, n, l, 0, 0, 0, 0, []⟩)] }
theorem test_witness_TickBoundary_1 :
   (let s : State := { configured with sup := { configured.sup with st := 6 } }
    6 ≤ s.sup.st) ∧
   (let ov : List Overrun := []
    let s : State := { configured with sup := { configured.sup with t0 := false } }
    let u := forEach ov overrun (modSup (fun x => { x with issued := [] })
      (answerTimestamps (calSetRefused s.begun) (tickAdvance (cycleTick s.begun))))
    s.sup.st < 6 ∧ u.sup.t0 = false) ∧
   (let ov : List Overrun := []
    let s : State := configured
    let u := forEach ov overrun (modSup (fun x => { x with issued := [] })
      (answerTimestamps (calSetRefused s.begun) (tickAdvance (cycleTick s.begun))))
    s.sup.st < 6 ∧ u.sup.t0 = true) ∧
   (let s : State := setF F.TICK_CAL_STAT_SUBMS 248 configured
    s.tick.hold = 0 ∧ fld s F.TICK_CAL_STAT_SUBMS ≠ 249) ∧
   (let s : State := setF F.TICK_CAL_STAT_SUBMS 248 configured
    s.tick.hold = 0 ∧ fld s F.TICK_CAL_STAT_SUBMS ≠ 249) := by decide +kernel
theorem test_witness_TickBoundary_2 :
   (let s : State := setF F.TICK_CAL_STAT_SUBMS 249 configured
    s.tick.hold = 0 ∧ fld s F.TICK_CAL_STAT_SUBMS = 249) ∧
   (let s : State := setF F.TICK_CAL_STAT_SUBMS 249 configured
    s.tick.hold = 0 ∧ fld s F.TICK_CAL_STAT_SUBMS = 249) ∧
   (let s : State := ticking { configured.tick with hold := 1 } configured
    0 < s.tick.hold) ∧
   (let s : State := ticking { configured.tick with hold := 1 } configured
    0 < s.tick.hold) := by decide +kernel
theorem test_witness_NebadexStaging_1 :
   (let path : Nat := tuten
    let inp : List Byte := chunk 0 0
    let s : State := configured
    taken path 0xC001 inp s = true ∧ inp.length = 8 + at' inp 4 2 ∧ 4 ≤ at' inp 4 2 ∧ at' inp 4 2 ≤ 4096 ∧ at' inp 4 2 % 4 = 0 ∧ byteAt inp 6 ≤ 1 ∧ byteAt inp 7 = 0 ∧ ndxRefused s = false ∧ ndxOther s path = false ∧ s.ndx.commit = none ∧ at' inp 0 4 = 0) ∧
   (let path : Nat := tuten
    let inp : List Byte := chunk 8 1
    let s : State := loading
    taken path 0xC001 inp s = true ∧ inp.length = 8 + at' inp 4 2 ∧ 4 ≤ at' inp 4 2 ∧ at' inp 4 2 ≤ 4096 ∧ at' inp 4 2 % 4 = 0 ∧ byteAt inp 6 ≤ 1 ∧ byteAt inp 7 = 0 ∧ ndxRefused s = false ∧ ndxOther s path = false ∧ s.ndx.commit = none ∧ at' inp 0 4 ≠ 0 ∧ fld s F.MGMT_NDX_STAT_STAGE = 1 ∧ at' inp 0 4 = s.ndx.staged.length ∧ at' inp 0 4 + at' inp 4 2 ≤ 65536) ∧
   (let path : Nat := tuten
    let inp : List Byte := chunk 4 0
    let s : State := loading
    taken path 0xC001 inp s = true ∧ inp.length = 8 + at' inp 4 2 ∧ 4 ≤ at' inp 4 2 ∧ at' inp 4 2 ≤ 4096 ∧ at' inp 4 2 % 4 = 0 ∧ byteAt inp 6 ≤ 1 ∧ byteAt inp 7 = 0 ∧ ndxRefused s = false ∧ ndxOther s path = false ∧ s.ndx.commit = none ∧ at' inp 0 4 ≠ 0 ∧ ((fld s F.MGMT_NDX_STAT_STAGE ≠ 1 ∨ at' inp 0 4 ≠ s.ndx.staged.length))) := by decide +kernel
theorem test_witness_NebadexStaging_2 :
   (let path : Nat := tuten
    let inp : List Byte := zeros 4
    let c : ImageCfg := oneRegion
    let s : State := staged1
    taken path 0xC002 inp s = true ∧ inp.length = 4 ∧ byteAt inp 0 ≤ 1 ∧ byteAt inp 1 ≤ 1 ∧ zeroAt inp 2 2 = true ∧ ndxRefused s = false ∧ ndxOther s path = false ∧ fld s F.MGMT_NDX_STAT_STAGE = 2 ∧ s.ndx.commit = none ∧ fwWriting s = false ∧ inGuard s = false ∧ inFlush s = false ∧ s.ndx.stagedCfg = some c ∧ rangeInUse (ndxTouch path s.begun) c = none ∧ (byteAt inp 0 = 1 → s.cfg.any (fun k => sameRecords c.fixedRaw k.fixedRaw) = true)) ∧
   (let t : Nat := 5
    let p : Nat := 4
    let s : State := { loading with ndx := { loading.ndx with owner := some (5, 4) }, tick := { loading.tick with count := 524293 } }
    s.ndx.owner = some (t, p) ∧ t + 2 * 262144 ≤ s.tick.count) ∧
   (let t : Nat := 5
    let p : Nat := 4
    let s : State := { loading with ndx := { loading.ndx with owner := some (5, 4) }, tick := { loading.tick with count := 524292 } }
    s.ndx.owner = some (t, p) ∧ s.tick.count < t + 2 * 262144) := by decide +kernel
theorem test_witness_MemoryRequests :
   (let n : Nat := 47
    let s : State := active
    slicesServe s = true ∧ n < 48) ∧
   (let n : Nat := 47
    let s : State := active
    slicesServe s = true ∧ n < 48) ∧
   (let s : State := active
    slicesServe s = true ∧ noInjection s = true) ∧
   (let n : Nat := 0
    let line : Nat := 0
    let e : EbEnt := ⟨0, 0, false, 5, 1, true, true⟩
    let s : State := sliced { Slice.init with eb := [⟨0, 0, false, 5, 1, true, true⟩] }
    inHalt s = false ∧ coreOn s = true ∧ ebPlaced s n line = some e) ∧
   (let n : Nat := 0
    let line : Nat := 0
    let s : State := active
    ((inHalt s = true ∨ coreOn s = false ∨ ebPlaced s n line = none))) := by decide +kernel
theorem test_witness_QueueFabric_1 :
   (let q : Nat := 0
    let bad : Nat := 0
    let s : State := queueAs { Queue.init with test := .startup, mode := 1 }
    queueOn s q = true ∧ (queueOf s q).test = .startup ∧ bad = 0) ∧
   (let q : Nat := 0
    let bad : Nat := 1
    let s : State := queueAs { Queue.init with test := .startup, mode := 1 }
    queueOn s q = true ∧ (queueOf s q).test = .startup ∧ bad ≠ 0) ∧
   (let q : Nat := 0
    let s : State := queueAs { Queue.init with test := .none, mode := 0 }
    queueOn s q = true ∧ (queueOf s q).mode = 0 ∧ (queueOf s q).test = .none ∧ (fullCredits s q = true → 512 ≤ unreserved s)) ∧
   (let q : Nat := 0
    let s : State := queueAs { Queue.init with test := .retest, mode := 0 }
    ((queueOn s q = false ∨ (queueOf s q).mode ≠ 0 ∨ (queueOf s q).test ≠ .none ∨
      (fullCredits s q = true ∧ unreserved s < 512)))) ∧
   (let path : Nat := 5
    path ≠ tuten) := by decide +kernel
theorem test_witness_QueueFabric_2 :
   (let q : Nat := 0
    let s : State := queueAs { Queue.init with test := .running true, mode := 1 }
    (queueOf s q).test = .running true) ∧
   (let q : Nat := 0
    let bad : Nat := 1
    let s : State := queueAs { Queue.init with test := .running true, mode := 1 }
    (queueOf s q).test = .running true ∧ bad ≠ 0) ∧
   (let q : Nat := 0
    let s : State := queueAs { Queue.init with test := .retest, mode := 1 }
    (queueOf s q).test = .retest) ∧
   (let q : Nat := 0
    let bad : Nat := 2
    let s : State := queueAs { Queue.init with test := .retest, mode := 1 }
    (queueOf s q).test = .retest ∧ bad ≠ 0) ∧
   (let q : Nat := 0
    let i : Nat := 0
    let word : Nat := 11
    let e : QEntry := waitingRead
    let s : State := queueAs { Queue.init with entries := [waitingRead], mode := 0, test := .none }
    queueOn s q = true ∧ (queueOf s q).entries[i]? = some e ∧ (word < 2 ∨ 10 < word)) := by decide +kernel
theorem test_witness_QueueFabric_3 :
   (let q : Nat := 0
    let i : Nat := 0
    let word : Nat := 1
    let e : QEntry := waitingRead
    let s : State := queueAs { Queue.init with entries := [waitingRead], mode := 0, test := .none }
    queueOn s q = true ∧ (queueOf s q).entries[i]? = some e ∧ (word < 2 ∨ 10 < word)) ∧
   (let q : Nat := 0
    let i : Nat := 0
    let word : Nat := 10
    let e : QEntry := waitingRead
    let s : State := queueAs { Queue.init with entries := [waitingRead], mode := 0, test := .none }
    queueOn s q = true ∧ (queueOf s q).entries[i]? = some e ∧ 2 ≤ word ∧ word ≤ 10) ∧
   (let q : Nat := 0
    let s : State := queueAs { Queue.init with entries := [waitingRead], mode := 0, test := .none, stopped := true }
    (queueOf s q).stopped = true) ∧
   (let q : Nat := 0
    let s : State := queueAs { Queue.init with resvWait := true }
    (queueOf s q).resvWait = true ∧ 512 ≤ unreserved s) ∧
   (let q : Nat := 0
    let s : State := queueAs { Queue.init with paced := true, withheld := 1 }
    isIngress q = true ∧ (queueOf s q).paced = true ∧ 0 < (queueOf s q).withheld ∧ (queueOf s q).resvWait = false) := by decide +kernel
theorem test_witness_LineCommands_1 :
   (let n : Nat := 0
    let k : Nat := wayKey (sliceNo 0) (setNo 0) 0
    let w : Way := ⟨tagNo 0, 0, false, false, .dirty, 7⟩
    let s : State := setF F.LC_CLEAN_CTL_FORCE 1 dirtyLine
    inHalt s = false ∧ coreOn s = true ∧ n < 48 ∧ cleanRuns (cleanLatch s.begun) n = true ∧ (sliceOf (cleanLatch s.begun) n).eb.length < (if raised (cleanLatch s.begun) then 16 else 12) ∧ cleanNext (cleanLatch s.begun) n = some (k, w)) ∧
   (let n : Nat := 0
    let s : State := dirtyLine
    inHalt s = false ∧ coreOn s = true ∧ n < 48 ∧ cleanRuns (cleanLatch s.begun) n = false) ∧
   (let path : Nat := tuten
    let v : BitVec 32 := 0x0808
    let s : State := active
    ((headOn s path = true ∨ isMgmt path = true)) ∧ v.toNat % 64 ≤ v.toNat / 256 % 64) ∧
   (let path : Nat := 0
    let v : BitVec 32 := 0x0709
    let s : State := active
    ((headOn s path = true ∨ isMgmt path = true)) ∧ v.toNat / 256 % 64 < v.toNat % 64) := by decide +kernel
theorem test_witness_LineCommands_2 :
   (let path : Nat := tuten
    let op : Nat := 2
    let c : Instr := .lcmdFlush tuten 2
    let v : BitVec 32 := 2
    let s : State := active
    let n := v.toNat / 16 % 65536 + 1
    let u := lcSetCtl path op n (v.toNat / 2 ^ 20) s.begun
    ((headOn s path = true ∨ isMgmt path = true)) ∧ coreOn s = true ∧ unitOn s 2 = true ∧ tfind s.lcmds path = none ∧ inHalt s = false ∧ (c, op) ∈ [(Instr.lcmdZero path v, 1), (.lcmdFlush path v, 2), (.lcmdPrefetch path v, 3), (.lcmdPin path v, 4), (.lcmdDemote path v, 5)] ∧ lcCheck u path op (lcFirst u path) n = none) ∧
   (let path : Nat := 0
    let op : Nat := 1
    let c : Instr := .lcmdZero 0 1
    let v : BitVec 32 := 1
    let s : State := active
    let n := v.toNat / 16 % 65536 + 1
    let u := lcSetCtl path op n (v.toNat / 2 ^ 20) s.begun
    ((headOn s path = true ∨ isMgmt path = true)) ∧ coreOn s = true ∧ unitOn s 2 = true ∧ tfind s.lcmds path = none ∧ inHalt s = false ∧ (c, op) ∈ [(Instr.lcmdZero path v, 1), (.lcmdFlush path v, 2), (.lcmdPrefetch path v, 3), (.lcmdPin path v, 4), (.lcmdDemote path v, 5)] ∧ lcCheck u path op (lcFirst u path) n = none) := by decide +kernel
theorem test_witness_LineCommands_3 :
   (let path : Nat := 1
    let op : Nat := 1
    let c : Instr := .lcmdZero 1 1
    let v : BitVec 32 := 1
    let s : State := active
    let n := v.toNat / 16 % 65536 + 1
    let u := lcSetCtl path op n (v.toNat / 2 ^ 20) s.begun
    let r := 2
    ((headOn s path = true ∨ isMgmt path = true)) ∧ coreOn s = true ∧ unitOn s 2 = true ∧ tfind s.lcmds path = none ∧ inHalt s = false ∧ (c, op) ∈ [(Instr.lcmdZero path v, 1), (.lcmdFlush path v, 2), (.lcmdPrefetch path v, 3), (.lcmdPin path v, 4), (.lcmdDemote path v, 5)] ∧ lcCheck u path op (lcFirst u path) n = some r) ∧
   (let path : Nat := tuten
    let op : Nat := 5
    let c : Instr := .lcmdDemote tuten 5
    let v : BitVec 32 := 5
    let s : State := lcmdAt 0 []
    ((headOn s path = true ∨ isMgmt path = true)) ∧ coreOn s = true ∧ unitOn s 2 = true ∧ (tfind s.lcmds path).isSome = true ∧ (c, op) ∈ [(Instr.lcmdZero path v, 1), (.lcmdFlush path v, 2), (.lcmdPrefetch path v, 3), (.lcmdPin path v, 4), (.lcmdDemote path v, 5)]) ∧
   (let path : Nat := tuten
    let v : BitVec 32 := 7
    let s : State := active
    ((headOn s path = true ∨ isMgmt path = true)) ∧ coreOn s = true ∧ unitOn s 2 = true ∧ tfind s.lcmds path = none ∧ inHalt s = false ∧ v.toNat % 8 ∈ [0, 6, 7]) := by decide +kernel
theorem test_witness_LineCommands_4 :
   (let path : Nat := tuten
    let c : LCmd := ⟨2, 0, 1, 1, [], 0, 0, 0, 0, []⟩
    let s : State := lcmdAt 1 []
    tfind s.lcmds path = some c ∧ c.inFlight = [] ∧ ((c.stop ≠ 0 ∨ c.count ≤ c.next))) ∧
   (let path : Nat := tuten
    let c : LCmd := ⟨2, 0, 1, 1, [0], 0, 0, 0, 0, []⟩
    let s : State := lcmdAt 1 [0]
    tfind s.lcmds path = some c ∧ ((c.inFlight ≠ [] ∨ (c.stop = 0 ∧ c.next < c.count)))) := by decide +kernel

/-! Witnesses: media -/

/-- `mapped` with channel 0 trained and its window open. -/
def medOn : State := setF F.THM_WINDOW_MPROG 0xFFFF (setF (F.MED_CH_STAT_STATE 0) 2 mapped)
/-- `medOn` with die 0 of channel 0 as d. -/
def dieAs (d : Die) : State := modDie 0 (fun _ => d) medOn
/-- A host sense of the first page of block 2, for line 0. -/
def hostSense : Sense := { psa := psaOf 0 0 0 2 0 0, why := .line 0 }
def queued : Die := { Die.init with hrq := [hostSense] }
/-- A program of set 0 that ends at cycle e. -/
def programming (e : Nat) : Die := { queued with op := some (.prog ⟨0, 0, false, 0⟩ e) }
/-- The page register holds a sector for x, ready at once. -/
def loaded (x : Sense) : Die := { Die.init with page := some ⟨x, 0⟩ }
/-- Class 1 has credit in each of its two accounts. -/
def credited (s : State) : State := modChan 0 (fun x => { x with minCred := x.minCred.set 1 64, entCred := x.entCred.set 1 64 }) s
/-- A sector of die 0 is being decoded. -/
def decodingOne : State := modChan 0 (fun x => { x with decoding := [(0, hostSense)] }) medOn
def rebuilt (f : Option Nat) : Recon := { sense := hostSense, die := 0, wait := [], busy := [], failed := f, start := 0 }
def rebuilding (f : Option Nat) : State := { medOn with media := { medOn.media with recons := [(0, rebuilt f)] } }
/-- A program of set 0 waits with its data in, and the plan of the tick has it. -/
def planned : Die := { Die.init with progq := [⟨0, 0, false, 0⟩], plan := [.prog] }
/-- Set 0 is open on die 0. -/
def onSet (st : SetSt) (s : State) : State := withSets [(0, setOn kLOG st)] s
/-- `dieAs d` with no member of the set programmed. -/
def openLog (t : Nat) : LogPage := ⟨0, 0, [⟨0, 0, 0, 1⟩], [], 0, 0, 0, t, false⟩
/-- Only die 0 of channel 0 is ONLINE; die 1 has been fenced and the others are retired. -/
def lastDie : State :=
  setDieState 1 1 (forEach (List.range 6) (fun i s => setDieState (i + 2) 4 s) (dieAs { Die.init with missed := 1 }))
/-- Channel 0 is in direct access, its command word naming the PSA below it. -/
def direct (psa : Nat) : State := setF (F.MED_CH_DA_ADDR_PSA 0) psa (setF (F.MED_CH_STAT_STATE 0) 5 medOn)
/-- The direct-access commands' word: start, in Shallows mode. -/
def daGo : BitVec 32 := 0x100
theorem test_witness_MediaSenses_1 :
   (let c : Nat := 0
    let d : Nat := 0
    let h : Sense := hostSense
    let s : State := dieAs queued
    engineRuns s c = true ∧ d < 8 ∧ dieOnline s (c * 8 + d) = true ∧ (dieOf s (c * 8 + d)).page = none ∧ senseDue (dieOf s (c * 8 + d)) = some h ∧ psaRefused s h.psa = none ∧ dieBusy (dieOf s (c * 8 + d)) = false) ∧
   (let c : Nat := 0
    let d : Nat := 0
    let h : Sense := hostSense
    let s : State := dieAs (programming 5000)
    let o := .prog ⟨0, 0, false, 0⟩ 5000
    engineRuns s c = true ∧ d < 8 ∧ dieOnline s (c * 8 + d) = true ∧ (dieOf s (c * 8 + d)).page = none ∧ senseDue (dieOf s (c * 8 + d)) = some h ∧ psaRefused s h.psa = none ∧ (dieOf s (c * 8 + d)).op = some o ∧ dieBusy (dieOf s (c * 8 + d)) = true ∧ (dieOf s (c * 8 + d)).window ≤ cycNow s c ∧ (dieOf s (c * 8 + d)).susp = none ∧ cycNow s c + suspCyc < o.endAt) ∧
   (let c : Nat := 0
    let d : Nat := 0
    let h : Sense := hostSense
    let s : State := dieAs (programming 1200)
    let o := .prog ⟨0, 0, false, 0⟩ 1200
    engineRuns s c = true ∧ d < 8 ∧ dieOnline s (c * 8 + d) = true ∧ (dieOf s (c * 8 + d)).page = none ∧ senseDue (dieOf s (c * 8 + d)) = some h ∧ psaRefused s h.psa = none ∧ (dieOf s (c * 8 + d)).op = some o ∧ dieBusy (dieOf s (c * 8 + d)) = true ∧ (cycNow s c < (dieOf s (c * 8 + d)).window ∨ (dieOf s (c * 8 + d)).susp.isSome = true ∨ o.endAt ≤ cycNow s c + suspCyc)) := by decide +kernel
theorem test_witness_MediaSenses_2 :
   (let c : Nat := 0
    let d : Nat := 0
    let why : Nat := 3
    let h : Sense := { hostSense with psa := psaOf 0 0 0 1 0 0 }
    let s : State := dieAs { Die.init with hrq := [{ hostSense with psa := psaOf 0 0 0 1 0 0 }] }
    engineRuns s c = true ∧ d < 8 ∧ dieOnline s (c * 8 + d) = true ∧ (dieOf s (c * 8 + d)).page = none ∧ senseDue (dieOf s (c * 8 + d)) = some h ∧ psaRefused s h.psa = some why) ∧
   (let c : Nat := 0
    let d : Nat := 0
    let s : State := dieAs { Die.init with adm := [hostSense] }
    chanOn s c = true ∧ d < 8) ∧
   (let c : Nat := 0
    let d : Nat := 0
    let o : DieOp := .prog ⟨0, 0, false, 0⟩ 5000
    let s : State := dieAs { Die.init with susp := some (.prog ⟨0, 0, false, 0⟩ 5000) }
    chanOn s c = true ∧ d < 8 ∧ (dieOf s (c * 8 + d)).susp = some o ∧ dieBusy (dieOf s (c * 8 + d)) = false ∧ (dieOf s (c * 8 + d)).page = none ∧ senseDue (dieOf s (c * 8 + d)) = none ∧ inFlush s = false) ∧
   (let c : Nat := 0
    let s : State := dieAs (loaded { hostSense with busy := true })
    let due := if (chanOf s c).slot % 5 = 0 then slotClass s c true else none
    let k := 0
    chanOn s c = true ∧ (chanOf s c).slot < 30 ∧ inFlush s = false ∧ due = none ∧ slotHost s c = some k) := by decide +kernel
theorem test_witness_MediaSenses_3 :
   (let c : Nat := 0
    let s : State := medOn
    let due := if (chanOf s c).slot % 5 = 0 then slotClass s c true else none
    chanOn s c = true ∧ (chanOf s c).slot < 30 ∧ inFlush s = false ∧ due = none ∧ slotHost s c = none ∧ slotClass s c false = none) ∧
   (let c : Nat := 0
    let s : State := credited (dieAs (loaded { hostSense with why := .background 1 }))
    let due := if (chanOf s c).slot % 5 = 0 then slotClass s c true else none
    let cl := 1
    let k := 0
    chanOn s c = true ∧ (chanOf s c).slot < 30 ∧ inFlush s = false ∧ (due = some cl ∨ (due = none ∧ slotHost s c = none ∧ slotClass s c false = some cl)) ∧ (dieOf s k).page.any (fun p => senseClass p.sense == some cl && decide (p.ready ≤ cycNow s c)) = true ∧ ((∃ p, (dieOf s k).page = some p ∧ senseClass p.sense = some cl ∧ p.ready ≤ cycNow s c))) ∧
   (let c : Nat := 0
    let s : State := credited (onSet .opened (dieAs { planned with progq := [⟨0, 0, false, 8⟩] }))
    let due := if (chanOf s c).slot % 5 = 0 then slotClass s c true else none
    let cl := 1
    let k := 0
    chanOn s c = true ∧ (chanOf s c).slot < 30 ∧ inFlush s = false ∧ (due = some cl ∨ (due = none ∧ slotHost s c = none ∧ slotClass s c false = some cl)) ∧ (slotWants s c).find? (fun w => w.2 == cl) = some (k, cl) ∧ (dieOf s k).page = none) := by decide +kernel
theorem test_witness_MediaSenses_4 :
   (let c : Nat := 0
    let s : State := modChan 0 (fun x => { x with slot := 30 }) medOn
    chanOn s c = true ∧ 30 ≤ (chanOf s c).slot) ∧
   (let c : Nat := 0
    let d : Nat := 0
    let res : SenseRes := .codeword 2496 3 5 0
    let x : Sense := hostSense
    let s : State := decodingOne
    let u : State := ((decodeTake 0 0 s.begun).map (·.2)).getD medOn
    let v := (senseInj (c * 8 + d) x res u).1
    let r := (senseInj (c * 8 + d) x res u).2
    let out := decodeOf (fld v (F.MED_CH_RETRY_HIGH c)) r
    let ones := 2496
    let bits := 3
    let iters := 5
    let a := 0
    inHalt s = false ∧ decodeTake c d s.begun = some (x, u) ∧ r = .codeword ones bits iters a ∧ out ≠ .erased) ∧
   (let c : Nat := 0
    let d : Nat := 0
    let res : SenseRes := .codeword 5018 3 5 0
    let x : Sense := hostSense
    let s : State := decodingOne
    let u : State := ((decodeTake 0 0 s.begun).map (·.2)).getD medOn
    let v := (senseInj (c * 8 + d) x res u).1
    let r := (senseInj (c * 8 + d) x res u).2
    let out := decodeOf (fld v (F.MED_CH_RETRY_HIGH c)) r
    let ones := 5018
    let bits := 3
    let iters := 5
    let a := 0
    inHalt s = false ∧ decodeTake c d s.begun = some (x, u) ∧ r = .codeword ones bits iters a ∧ out = .erased) := by decide +kernel
theorem test_witness_MediaSenses_5 :
   (let c : Nat := 0
    let d : Nat := 0
    let res : SenseRes := .noCodeword 2496 40
    let x : Sense := hostSense
    let s : State := decodingOne
    let u : State := ((decodeTake 0 0 s.begun).map (·.2)).getD medOn
    let r := (senseInj (c * 8 + d) x res u).2
    let ones := 2496
    let checks := 40
    inHalt s = false ∧ decodeTake c d s.begun = some (x, u) ∧ r = .noCodeword ones checks) ∧
   (let c : Nat := 0
    let d : Nat := 0
    let x : Sense := hostSense
    let s : State := setF F.GLB_STATE_MODE 4 decodingOne
    let u : State := ((decodeTake 0 0 s.begun).map (·.2)).getD medOn
    inHalt s = true ∧ decodeTake c d s.begun = some (x, u)) ∧
   (let c : Nat := 0
    let d : Nat := 0
    let j : Nat := 0
    let r : Recon := rebuilt (some 2)
    let s : State := rebuilding (some 2)
    let ch := 2
    engineRuns s c = true ∧ d < 8 ∧ reconDone s (c * 8 + d) = some (j, r) ∧ r.failed = some ch) ∧
   (let c : Nat := 0
    let d : Nat := 0
    let j : Nat := 0
    let r : Recon := rebuilt none
    let s : State := rebuilding none
    engineRuns s c = true ∧ d < 8 ∧ reconDone s (c * 8 + d) = some (j, r) ∧ r.failed = none) := by decide +kernel
theorem test_witness_MediaSenses_6 :
   (let c : Nat := 0
    let d : Nat := 0
    let a : Nat := 0
    let deeps : Bool := false
    let psa : Nat := psaOf 0 0 0 2 0 0
    let s : State := { dieAs { Die.init with lastSample := some 0 } with media := { (dieAs { Die.init with lastSample := some 0 }).media with blocks := [(blockKey 0 0 0 2, ⟨false, 9, [0]⟩)] }, tick := { medOn.tick with count := 64 } }
    engineRuns s c = true ∧ d < 8 ∧ dieOnline s (c * 8 + d) = true ∧ (dieOf s (c * 8 + d)).lastSample.all (fun t => decide (t + 64 ≤ s.tick.count)) = true ∧ sampleNext s (c * 8 + d) = some ((deeps, a), psa)) := by decide +kernel
theorem test_witness_MediaPrograms_1 :
   (let c : Nat := 0
    let d : Nat := 0
    let p : Prog := ⟨0, 0, false, 0⟩
    let rest : List Prog := []
    let s : State := onSet .opened (dieAs planned)
    engineRuns s c = true ∧ d < 8 ∧ dieOnline s (c * 8 + d) = true ∧ dieFree s (c * 8 + d) = true ∧ paused s (c * 8 + d) = false ∧ windowHeld s c = false ∧ noInjection s = true ∧ (dieOf s (c * 8 + d)).progq = p :: rest ∧ (((dieOf s (c * 8 + d)).plan.contains .prog = true ∨ inFlush s = true)) ∧ p.sectors = 0) ∧
   (let c : Nat := 0
    let d : Nat := 0
    let p : Prog := ⟨0, 0, false, 8⟩
    let rest : List Prog := []
    let s : State := onSet .opened (dieAs { planned with progq := [⟨0, 0, false, 8⟩] })
    engineRuns s c = true ∧ d < 8 ∧ dieOnline s (c * 8 + d) = true ∧ dieFree s (c * 8 + d) = true ∧ paused s (c * 8 + d) = false ∧ windowHeld s c = false ∧ noInjection s = true ∧ (dieOf s (c * 8 + d)).progq = p :: rest ∧ (((dieOf s (c * 8 + d)).plan.contains .prog = true ∨ inFlush s = true)) ∧ 0 < p.sectors) ∧
   (let c : Nat := 0
    let d : Nat := 0
    let s : State := dieAs { Die.init with eraseq := [(0, 0, 2)], plan := [.erase] }
    engineRuns s c = true ∧ d < 8 ∧ dieOnline s (c * 8 + d) = true ∧ dieFree s (c * 8 + d) = true ∧ paused s (c * 8 + d) = false ∧ windowHeld s c = false ∧ (dieOf s (c * 8 + d)).progq = [] ∧ (dieOf s (c * 8 + d)).plan.contains .erase = true) := by decide +kernel
theorem test_witness_MediaPrograms_2 :
   (let c : Nat := 0
    let d : Nat := 0
    let s : State := setF F.THM_WINDOW_MPROG 0xFFFE (dieAs planned)
    engineRuns s c = true ∧ d < 8 ∧ dieOnline s (c * 8 + d) = true ∧ dieFree s (c * 8 + d) = true ∧ paused s (c * 8 + d) = false ∧ windowHeld s c = true) ∧
   (let c : Nat := 0
    let d : Nat := 0
    let res : Nat := 0
    let e : Nat := 5000
    let p : Prog := ⟨0, 0, false, 0⟩
    let b : BlockSet := setOn kLOG .opened
    let s : State := onSet .opened (dieAs (programming 5000))
    (dieOf s (c * 8 + d)).op = some (.prog p e) ∧ setOf (count 0x25 c 1 (satInc (F.MED_CH_CNT_PROG_COUNT c) (opEnds (c * 8 + d) e s.begun))) p.set = some b ∧ b.st = .opened ∧ res = 0) ∧
   (let c : Nat := 0
    let d : Nat := 0
    let res : Nat := 2
    let e : Nat := 5000
    let p : Prog := ⟨0, 0, false, 0⟩
    let b : BlockSet := setOn kLOG .opened
    let s : State := onSet .opened (dieAs (programming 5000))
    (dieOf s (c * 8 + d)).op = some (.prog p e) ∧ setOf (count 0x25 c 1 (satInc (F.MED_CH_CNT_PROG_COUNT c) (opEnds (c * 8 + d) e s.begun))) p.set = some b ∧ b.st = .opened ∧ res ≠ 0) := by decide +kernel
theorem test_witness_MediaPrograms_3 :
   (let c : Nat := 0
    let d : Nat := 0
    let e : Nat := 5000
    let p : Prog := ⟨0, 0, false, 0⟩
    let b : BlockSet := setOn kLOG .dredged
    let s : State := onSet .dredged (dieAs (programming 5000))
    (dieOf s (c * 8 + d)).op = some (.prog p e) ∧ setOf (count 0x25 c 1 (satInc (F.MED_CH_CNT_PROG_COUNT c) (opEnds (c * 8 + d) e s.begun))) p.set = some b ∧ b.st ≠ .opened) ∧
   (let c : Nat := 0
    let d : Nat := 0
    let n : Nat := 0
    let plane : Nat := 0
    let blk : Nat := 2
    let e : Nat := 5000
    let ok : Bool := true
    let b : BlockSet := { setOn kLOG .erasing with toErase := [0] }
    let s : State := withSets [(0, { setOn kLOG .erasing with toErase := [0] })] (dieAs { Die.init with op := some (.erase 0 0 2 5000) })
    let k := c * 8 + d
    let key := blockKey c d plane blk
    let u := sndMedia k 2 3 (psaOf c d plane blk 0 0) 0 (count 0x26 c 1 (satInc (F.MED_CH_CNT_ERASE_COUNT c) (opEnds k e s.begun)))
    (dieOf s (c * 8 + d)).op = some (.erase n plane blk e) ∧ setOf u n = some b ∧ ok = true ∧ tfind s.media.suspect key = none) ∧
   (let n : Nat := 0
    let b : BlockSet := setOn kLOG .dredged
    let s : State := onSet .dredged medOn
    setOf s n = some b ∧ mtlRuns s = true ∧ b.st = .dredged ∧ setInUse s n b = false ∧ intentPending s n = false) := by decide +kernel
theorem test_witness_MediaPrograms_4 :
   (let s : State := { medOn with mtl := { medOn.mtl with jopen := [⟨0, .eraseIntent 0⟩] }, tick := { medOn.tick with count := 4 } }
    mtlRuns s = true ∧ s.mtl.jopen ≠ [] ∧ s.mtl.jfirst + 4 ≤ s.tick.count) ∧
   (let s : State := { medOn with mtl := { medOn.mtl with jopen := [⟨0, .eraseIntent 0⟩] }, tick := { medOn.tick with count := 3 } }
    mtlRuns s = true ∧ s.mtl.jopen ≠ [] ∧ s.tick.count < s.mtl.jfirst + 4) ∧
   (let p : LogPage := openLog 0
    let s : State := { onSet .opened medOn with mtl := { (onSet .opened medOn).mtl with logPage := some (openLog 0) }, tick := { medOn.tick with count := 64 } }
    mtlRuns s = true ∧ s.mtl.logPage = some p ∧ p.slots ≠ [] ∧ p.firstTick + 64 ≤ s.tick.count ∧ s.mtl.relocPage = none ∧ (closeLog false s.begun).mtl.relocPage = none) ∧
   (let p : LogPage := { openLog 0 with reloc := true }
    let s : State := { onSet .opened medOn with mtl := { (onSet .opened medOn).mtl with relocPage := some { openLog 0 with reloc := true } }, tick := { medOn.tick with count := 64 } }
    mtlRuns s = true ∧ s.mtl.relocPage = some p ∧ p.slots ≠ [] ∧ p.firstTick + 64 ≤ s.tick.count ∧ s.mtl.logPage = none) := by decide +kernel
theorem test_witness_MediaPrograms_5 :
   (let n : Nat := 0
    let t : Nat := 0
    let b : BlockSet := { setOn kLOG .opened with firstClose := some 0, assigned := 1 }
    let s : State := { withSets [(0, { setOn kLOG .opened with firstClose := some 0, assigned := 1 })] medOn with tick := { medOn.tick with count := 256 } }
    setOf s n = some b ∧ b.firstClose = some t ∧ mtlRuns s = true ∧ b.st = .opened ∧ t + 256 ≤ s.tick.count) ∧
   (let n : Nat := 0
    let t : Nat := 0
    let b : BlockSet := { setOn kLOG .opened with firstClose := some 0, assigned := 1 }
    let s : State := { withSets [(0, { setOn kLOG .opened with firstClose := some 0, assigned := 1 })] medOn with tick := { medOn.tick with count := 255 } }
    setOf s n = some b ∧ b.firstClose = some t ∧ mtlRuns s = true ∧ b.st = .opened ∧ s.tick.count < t + 256) := by decide +kernel
theorem test_witness_MediaFencing_1 :
   (let c : Nat := 0
    let d : Nat := 0
    let s : State := medOn
    (dieOf s (c * 8 + d)).missed = 0) ∧
   (let c : Nat := 0
    let s : State := medOn
    chanOn s c = true ∧ chanState s c = 2) ∧
   (let c : Nat := 0
    let s : State := setF (F.MED_CH_STAT_STATE 0) 3 medOn
    chanOn s c = true ∧ chanState s c = 3) ∧
   (let c : Nat := 0
    let s : State := setF (F.MED_CH_STAT_STATE 0) 4 medOn
    chanOn s c = true ∧ chanState s c = 4) ∧
   (let c : Nat := 0
    let s : State := setF (F.MED_CH_STAT_STATE 0) 3 medOn
    chanOn s c = true ∧ chanState s c = 3 ∧ (chanOf s c).fencedWhole = false) := by decide +kernel
theorem test_witness_MediaFencing_2 :
   (let c : Nat := 0
    let s : State := modChan 0 (fun x => { x with attempts := 2 }) (setF (F.MED_CH_STAT_STATE 0) 4 medOn)
    chanOn s c = true ∧ chanState s c = 4 ∧ 2 ≤ (chanOf s c).attempts) ∧
   (let c : Nat := 0
    let d : Nat := 0
    let s : State := setDieState 0 1 medOn
    chanOn s c = true ∧ d < 8 ∧ ((dieState s (c * 8 + d) = 1 ∨ dieState s (c * 8 + d) = 2)) ∧ (dieOf s (c * 8 + d)).incWait = false ∧ chanState s c = 2) ∧
   (let c : Nat := 0
    let d : Nat := 0
    let s : State := setDieState 0 1 medOn
    let k := c * 8 + d
    let n := (dieOf s k).attempts + 1
    chanOn s c = true ∧ d < 8 ∧ ((dieState s (c * 8 + d) = 1 ∨ dieState s (c * 8 + d) = 2)) ∧ (dieOf s (c * 8 + d)).incWait = false ∧ chanState s c = 2 ∧ n < 3) ∧
   (let c : Nat := 0
    let d : Nat := 0
    let s : State := setDieState 0 2 (dieAs { Die.init with attempts := 2 })
    let k := c * 8 + d
    let n := (dieOf s k).attempts + 1
    chanOn s c = true ∧ d < 8 ∧ ((dieState s (c * 8 + d) = 1 ∨ dieState s (c * 8 + d) = 2)) ∧ (dieOf s (c * 8 + d)).incWait = false ∧ chanState s c = 2 ∧ 3 ≤ n) ∧
   (let c : Nat := 0
    let d : Nat := 0
    let s : State := setDieState 0 3 medOn
    chanOn s c = true ∧ d < 8 ∧ dieState s (c * 8 + d) = 3) := by decide +kernel
theorem test_witness_MediaFencing_3 :
   (let path : Nat := 4
    let c : Nat := 0
    let v : BitVec 32 := 0x10
    let s : State := setF (F.MED_CH_STAT_STATE 0) 6 medOn
    isMgmt path = true ∧ chanOn s c = true ∧ v.getLsbD 4 = true ∧ chanState s c = 6) ∧
   (let c : Nat := 0
    let s : State := medOn
    chanState s c ≠ 6) := by decide +kernel
theorem test_witness_DirectAccess_1 :
   (let c : Nat := 0
    let v : BitVec 32 := 1
    let s : State := medOn
    chanOn s c = true ∧ v.getLsbD 0 = true ∧ chanState s c ≠ 5 ∧ lifecycle s = 0 ∧ s.mtl.map.reachMap = [] ∧ s.mtl.map.fine = []) ∧
   (let path : Nat := 5
    let c : Nat := 0
    let v : BitVec 32 := 1
    let s : State := medOn
    isMgmt path = true ∧ chanOn s c = true ∧ v.getLsbD 0 = true ∧ chanState s c ≠ 5 ∧ ((path ≠ tuten ∨ lifecycle s ≠ 0 ∨ s.mtl.map.reachMap ≠ [] ∨ s.mtl.map.fine ≠ []))) ∧
   (let path : Nat := 4
    let c : Nat := 0
    let op : Nat := 4
    let v : BitVec 32 := daGo
    let ok : Bool := true
    let i : Instr := .daErase 4 0 daGo true
    let f : Nat → Bool → Nat → Bool → State → Nat × State := daErase
    let s : State := direct (psaOf 0 0 0 2 0 0)
    let u := setB (F.MED_CH_DA_CMD_MODE c) (v.getLsbD 4) (setF (F.MED_CH_DA_CMD_OP c) op s.begun)
    let psa := c * 2 ^ 31 + fld u (F.MED_CH_DA_ADDR_PSA c)
    let x := f c ok psa (v.getLsbD 4) u
    (i, op) ∈ [(Instr.daErase path c v ok, 4)] ∧ isMgmt path = true ∧ chanOn s c = true ∧ chanState s c = 5 ∧ v.getLsbD 8 = true ∧ psaBlock psa < 5504 ∧ psaPage psa < (if v.getLsbD 4 then 768 else 256) ∧ x.1 ∉ [4, 5, 6, 10]) := by decide +kernel
theorem test_witness_DirectAccess_2 :
   (let path : Nat := 4
    let c : Nat := 0
    let op : Nat := 3
    let v : BitVec 32 := daGo
    let ok : Bool := true
    let i : Instr := .daProgramRaw 4 0 daGo true
    let f : Nat → Bool → Nat → Bool → State → Nat × State := daProgram
    let s : State := direct (psaOf 0 0 0 2 1 0)
    let u := setB (F.MED_CH_DA_CMD_MODE c) (v.getLsbD 4) (setF (F.MED_CH_DA_CMD_OP c) op s.begun)
    let psa := c * 2 ^ 31 + fld u (F.MED_CH_DA_ADDR_PSA c)
    let x := f c ok psa (v.getLsbD 4) u
    (i, op) ∈ [(Instr.daProgramRaw path c v ok, 3)] ∧ isMgmt path = true ∧ chanOn s c = true ∧ chanState s c = 5 ∧ v.getLsbD 8 = true ∧ psaBlock psa < 5504 ∧ psaPage psa < (if v.getLsbD 4 then 768 else 256) ∧ x.1 = 4) := by decide +kernel
theorem test_witness_DirectAccess_3 :
   (let path : Nat := 4
    let c : Nat := 0
    let op : Nat := 3
    let v : BitVec 32 := 0x110
    let ok : Bool := true
    let i : Instr := .daProgramRaw 4 0 0x110 true
    let f : Nat → Bool → Nat → Bool → State → Nat × State := daProgram
    let s : State := { direct (psaOf 0 0 0 2 0 0) with media := { medOn.media with blocks := [(blockKey 0 0 0 2, ⟨false, 0, []⟩)] } }
    let u := setB (F.MED_CH_DA_CMD_MODE c) (v.getLsbD 4) (setF (F.MED_CH_DA_CMD_OP c) op s.begun)
    let psa := c * 2 ^ 31 + fld u (F.MED_CH_DA_ADDR_PSA c)
    let x := f c ok psa (v.getLsbD 4) u
    (i, op) ∈ [(Instr.daProgramRaw path c v ok, 3)] ∧ isMgmt path = true ∧ chanOn s c = true ∧ chanState s c = 5 ∧ v.getLsbD 8 = true ∧ psaBlock psa < 5504 ∧ psaPage psa < (if v.getLsbD 4 then 768 else 256) ∧ x.1 = 5) := by decide +kernel
theorem test_witness_DirectAccess_4 :
   (let path : Nat := 4
    let c : Nat := 0
    let op : Nat := 4
    let v : BitVec 32 := daGo
    let ok : Bool := true
    let i : Instr := .daErase 4 0 daGo true
    let f : Nat → Bool → Nat → Bool → State → Nat × State := daErase
    let s : State := direct (psaOf 0 0 0 1 0 0)
    let u := setB (F.MED_CH_DA_CMD_MODE c) (v.getLsbD 4) (setF (F.MED_CH_DA_CMD_OP c) op s.begun)
    let psa := c * 2 ^ 31 + fld u (F.MED_CH_DA_ADDR_PSA c)
    let x := f c ok psa (v.getLsbD 4) u
    (i, op) ∈ [(Instr.daErase path c v ok, 4)] ∧ isMgmt path = true ∧ chanOn s c = true ∧ chanState s c = 5 ∧ v.getLsbD 8 = true ∧ psaBlock psa < 5504 ∧ psaPage psa < (if v.getLsbD 4 then 768 else 256) ∧ x.1 = 10) ∧
   (let path : Nat := 4
    let c : Nat := 0
    let op : Nat := 1
    let v : BitVec 32 := daGo
    let ok : Bool := true
    let i : Instr := .daRead 4 0 daGo true
    let s : State := direct (psaOf 0 0 0 2 256 0)
    let u := setB (F.MED_CH_DA_CMD_MODE c) (v.getLsbD 4) (setF (F.MED_CH_DA_CMD_OP c) op s.begun)
    let psa := c * 2 ^ 31 + fld u (F.MED_CH_DA_ADDR_PSA c)
    (i, op) ∈ [(Instr.daRead path c v ok, 1)] ∧ isMgmt path = true ∧ chanOn s c = true ∧ chanState s c = 5 ∧ v.getLsbD 8 = true ∧ ((5504 ≤ psaBlock psa ∨ (if v.getLsbD 4 then 768 else 256) ≤ psaPage psa))) := by decide +kernel
/-- Recording the stall of a fenced die leaves the dies' states. -/
theorem dieState_fenced (c cause n : Nat) (s : State) (k : Nat) (hk : k < 8) :
    dieState (faultStallFree 2 45 (sed 0x0410 sERROR 5 c cause n s)) k = dieState s k := by
  have h : sedAddr (F.MED_CH_D_STAT_STATE (k / 8) (k % 8)).reg = false := by revert k; decide
  unfold faultStallFree faultStall dieState
  rw [fld_sed _ _ _ _ _ _ _ _ h]
  exact fld_sed _ _ _ _ _ _ _ _ h
theorem test_witness_MediaFencing_fenced :
    let s : State := dieAs { Die.init with missed := 1 }
    let u := faultStallFree 2 45 (sed 0x0410 sERROR 5 0 0 (heldSenses s 0) (raiseInc 0 (fenceDie 0 s.begun)))
    chanOn s 0 = true ∧ dieOnline s 0 = true ∧ 1 ≤ (dieOf s 0).missed ∧ ∃ e, e < 8 ∧ dieState u e = 0 :=
  ⟨by decide +kernel, by decide +kernel, by decide +kernel, 1, by decide, by rw [dieState_fenced _ _ _ _ _ (by decide)]; decide +kernel⟩
theorem test_witness_MediaFencing_last :
    let s : State := lastDie
    let u := faultStallFree 2 45 (sed 0x0410 sERROR 5 0 0 (heldSenses s 0) (raiseInc 0 (fenceDie 0 s.begun)))
    chanOn s 0 = true ∧ dieOnline s 0 = true ∧ 1 ≤ (dieOf s 0).missed ∧ (∀ e, e < 8 → dieState u e ≠ 0) ∧
      ∃ e, e < 8 ∧ e ≠ 0 ∧ dieState u e = 1 := by
  refine ⟨by decide +kernel, by decide +kernel, by decide +kernel, fun e h => ?_, 1, by decide, by decide, ?_⟩
  · rw [dieState_fenced _ _ _ _ _ h]; revert e; decide +kernel
  · rw [dieState_fenced _ _ _ _ _ (by decide)]; decide +kernel

/-! Witnesses: trans -/

/-- A log page of set 0 is open, and a merge record maps line 0 there. -/
def merged : State :=
  let s := withSets [(0, { setOn kLOG .opened with assigned := 1 })] mapped
  { s with mtl := { s.mtl with map := { s.mtl.map with
      merge := [(0, ⟨0, some (1, 0), 0, true, false, 0, [⟨0, false, false, 5, 0, 0⟩]⟩)], reachMap := [(0, .merge 0)] } } }
def placing : SealedWb := ⟨0, 7, 0, false, ⟨0, 0, 0, 1⟩, false⟩
def foldDone (jseq : Nat) : State :=
  { merged with mtl := { merged.mtl with jseq := 4, folds := [⟨0, 0, 3, [], none, some (1, 0), some jseq⟩], jopen := [⟨2, .eraseIntent 5⟩] } }
/-- Line 0 waits in an eviction buffer. -/
def evicting (s : State) : State :=
  { s with slices := [(0, { Slice.init with eb := [⟨0, 0, false, 5, 1, false, false⟩] })] }
def evicted : EbEnt := ⟨0, 0, false, 5, 1, false, false⟩
/-- Line 5 of leaf 0 is to be resealed. -/
def resealing (s : State) : State :=
  { s with icu := { s.icu with tree := ⟨[(0, { Leaf.init with reseal := 0x20 })], []⟩, onDie := [nodeKey 0 0] } }
/-- A Shoreline job of key 0 over reach 0. -/
def shoring : State :=
  { mapped with vault := { mapped.vault with ctxs := [(0, { Ctx.init with st := .rotating, cur := some ⟨1, 1, 2, 3⟩, new := some ⟨2, 4, 5, 6⟩ })] }
                icu := { mapped.icu with shore := { mapped.icu.shore with st := 1, ranges := [(0, 1024)], step := 1 } } }
/-- The same with a merge entry whose copy names a generation that the context does not hold. -/
def shoringBad : State :=
  { shoring with mtl := { merged.mtl with
      wbuf := [(wbKey 0 0, .log [⟨0, 0, 7, 1⟩] [] 0 0 0 false)]
      map := { merged.mtl.map with merge := [(0, ⟨0, none, 0, true, false, 0, [⟨0, false, false, 5, 0, 0⟩]⟩)] } } }
/-- The same with a quarantined tree node over the reach, so that each slot line is blank. -/
def shoringQuar : State := { shoring with icu := { shoring.icu with quar := [⟨3, 0⟩] } }
theorem test_witness_Translation_1 :
   (let x : SealedWb := placing
    let s : State := { merged with mtl := { merged.mtl with sealedQ := [placing] } }
    mtlRuns s = true ∧ s.mtl.sealedQ.find? (fun x => !x.waiting) = some x) ∧
   (let x : SealedWb := { placing with waiting := true }
    let s : State := { merged with mtl := { merged.mtl with sealedQ := [{ placing with waiting := true }] } }
    mtlRuns s = true ∧ s.mtl.sealedQ.find? (fun x => x.waiting) = some x) ∧
   (let s : State := mapped
    ((mtlRuns s = false ∨ s.mtl.sealedQ = []))) ∧
   (let s : State := configured
    ((mtlRuns s = false ∨ s.mtl.sealedQ = []))) ∧
   (let k : Nat := 0
    let r : MergeRec := (((foldPick merged.begun).getD (0, ⟨0, none, 0, false, false, 0, []⟩)).2)
    let s : State := merged
    let t : State := ((foldLines r (r.ents.filter (fun e => !e.poison)) (foldSenses r (r.ents.filter (fun e => !e.poison)) (markCaptured k r s.begun))).getD (merged, [])).1
    let lines : List Sealed := ((foldLines r (r.ents.filter (fun e => !e.poison)) (foldSenses r (r.ents.filter (fun e => !e.poison)) (markCaptured k r s.begun))).getD (merged, [])).2
    let caps := r.ents.filter (fun e => !e.poison)
    mtlBackground s = true ∧ foldPick s.begun = some (k, r) ∧ (foldLines r caps (foldSenses r caps (markCaptured k r s.begun))).isSome = true ∧ placeReach r.reach lines t = none) := by decide +kernel
theorem test_witness_Translation_2 :
   (let k : Nat := 0
    let r : MergeRec := (((foldPick merged.begun).getD (0, ⟨0, none, 0, false, false, 0, []⟩)).2)
    let s : State := withSets [(0, setOn kLOG .opened), (1, setOn kDEEPS .opened)] merged
    let t : State := ((foldLines r (r.ents.filter (fun e => !e.poison)) (foldSenses r (r.ents.filter (fun e => !e.poison)) (markCaptured k r s.begun))).getD (merged, [])).1
    let lines : List Sealed := ((foldLines r (r.ents.filter (fun e => !e.poison)) (foldSenses r (r.ents.filter (fun e => !e.poison)) (markCaptured k r s.begun))).getD (merged, [])).2
    let caps := r.ents.filter (fun e => !e.poison)
    let n := 1
    let slot := 0
    mtlBackground s = true ∧ foldPick s.begun = some (k, r) ∧ (foldLines r caps (foldSenses r caps (markCaptured k r s.begun))).isSome = true ∧ ((placeReach r.reach lines t).map (·.2)) = some (n, slot)) ∧
   (let reach : Nat := 0
    let j : Nat := 1
    let g : Nat × Nat := (1, 0)
    let f : Fold := ⟨0, 0, 3, [], none, some (1, 0), some 1⟩
    let s : State := foldDone 1
    coreOn s = true ∧ inHalt s = false ∧ s.mtl.folds.find? (fun f => f.reach == reach) = some f ∧ f.jseq = some j ∧ f.target = some g ∧ jDurable s j = true) := by decide +kernel
theorem test_witness_Translation_3 :
   (let reach : Nat := 0
    let j : Nat := 2
    let g : Nat × Nat := (1, 0)
    let f : Fold := ⟨0, 0, 3, [], none, some (1, 0), some 2⟩
    let s : State := foldDone 2
    coreOn s = true ∧ inHalt s = false ∧ s.mtl.folds.find? (fun f => f.reach == reach) = some f ∧ f.jseq = some j ∧ f.target = some g ∧ jDurable s j = false) ∧
   (let s : State := mapped
    let u := { s.begun with mtl := { s.mtl with dredgeOn := dredgeWants s.begun } }
    mtlBackground s = true ∧ s.mtl.dredge = none ∧ dredgeChoose u = none) ∧
   (let n : Nat := 0
    let rule : Nat := 2
    let b : BlockSet := setOn kLOG .full
    let s : State := { withSets [(0, setOn kLOG .full)] mapped with media := { mapped.media with suspect := [(blockKey 0 0 0 2, 1)] } }
    let u := { s.begun with mtl := { s.mtl with dredgeOn := dredgeWants s.begun } }
    mtlBackground s = true ∧ s.mtl.dredge = none ∧ dredgeChoose u = some (n, b, rule)) ∧
   (let d : Dredge := ⟨0, 4, []⟩
    let s : State := { withSets [(0, setOn kLOG .full)] mapped with mtl := { (withSets [(0, setOn kLOG .full)] mapped).mtl with dredge := some ⟨0, 4, []⟩ } }
    mtlBackground s = true ∧ s.mtl.dredge = some d) ∧
   (let d : Dredge := ⟨0, 4, [(1, .reachMove 0 0 0 1 0)]⟩
    let s : State := { merged with mtl := { merged.mtl with jseq := 4, dredge := some ⟨0, 4, [(1, .reachMove 0 0 0 1 0)]⟩ } }
    coreOn s = true ∧ inHalt s = false ∧ s.mtl.dredge = some d) := by decide +kernel
theorem test_witness_Translation_4 :
   (let s : State := mapped
    mtlRuns s = true ∧ inFlush s = false ∧ s.mtl.ckptRun = none) ∧
   (let c : Ckpt := ⟨1, 0, 0, 0, 0, 0, 2, MapState.init, []⟩
    let s : State := { mapped with mtl := { mapped.mtl with ckptRun := some ⟨1, 0, 0, 0, 0, 0, 2, MapState.init, []⟩ } }
    s.mtl.ckptRun = some c ∧ mtlRuns s = true ∧ ckptEnded s c.gen = false) ∧
   (let s : State := configured
    coreOn s = true ∧ s.mtl.ready = false ∧ fld s F.MTL_STAT_STATE = 0) ∧
   (let s : State := mapped
    ((coreOn s = false ∨ s.mtl.ready = true ∨ fld s F.MTL_STAT_STATE ≠ 0))) ∧
   (let s : State := mapped
    let sets := s.mtl.map.sets.filter (fun e => e.2.kind == kNODE && (e.2.st == .opened || e.2.st == .full))
    let per := match sets.head? with | some e => setPages e.2 | none => 1
    mtlBackground s = true ∧ sets.length * 4 ≤ 5 * ceilDiv (s.icu.groups.length * 2) per) := by decide +kernel
theorem test_witness_Translation_5 :
   (let s : State := withSets [(0, setOn kNODE .full), (1, setOn kNODE .opened)] mapped
    let sets := s.mtl.map.sets.filter (fun e => e.2.kind == kNODE && (e.2.st == .opened || e.2.st == .full))
    let per := match sets.head? with | some e => setPages e.2 | none => 1
    let best := (sets.filter (fun e => e.2.st == .full)).foldl (fun (b : Option (Nat × Nat)) e =>
      let v := (nodeValid s e.1).length
      match b with | some (_, w) => if v < w then some (e.1, v) else b | none => some (e.1, v)) none
    let n := 0
    let v := 0
    let u := forEach (nodeValid s.begun n) groupWrite s.begun
    mtlBackground s = true ∧ 5 * ceilDiv (s.icu.groups.length * 2) per < sets.length * 4 ∧ best = some (n, v) ∧ nodeValid u n = []) := by decide +kernel
theorem test_witness_Translation_6 :
   (let s : State := { withSets [(0, setOn kNODE .full), (1, { setOn kNODE .opened with assigned := 512 })] mapped with icu := { mapped.icu with groups := [(0, ⟨0, 0, 1⟩)] } }
    let sets := s.mtl.map.sets.filter (fun e => e.2.kind == kNODE && (e.2.st == .opened || e.2.st == .full))
    let per := match sets.head? with | some e => setPages e.2 | none => 1
    let best := (sets.filter (fun e => e.2.st == .full)).foldl (fun (b : Option (Nat × Nat)) e =>
      let v := (nodeValid s e.1).length
      match b with | some (_, w) => if v < w then some (e.1, v) else b | none => some (e.1, v)) none
    let n := 0
    let v := 1
    let u := forEach (nodeValid s.begun n) groupWrite s.begun
    mtlBackground s = true ∧ 5 * ceilDiv (s.icu.groups.length * 2) per < sets.length * 4 ∧ best = some (n, v) ∧ nodeValid u n ≠ []) := by decide +kernel
theorem test_witness_CryptPath_1 :
   (let n : Nat := 0
    let e : EbEnt := evicted
    let s : State := evicting { mapped with icu := { mapped.icu with quar := [⟨3, 0⟩] } }
    icuRuns s = true ∧ sealNext s = some (n, e) ∧ (quarantined s e.line = true ∨ (isInternal s e.line = false ∧ e.key ∈ s.icu.purged))) ∧
   (let n : Nat := 0
    let e : EbEnt := evicted
    let s : State := evicting { mapped with icu := { mapped.icu with rootOpen := false } }
    icuRuns s = true ∧ sealNext s = some (n, e) ∧ quarantined s e.line = false ∧ ((isInternal s e.line = true ∨ e.key ∉ s.icu.purged)) ∧ s.icu.rootOpen = false) ∧
   (let n : Nat := 0
    let mism : Nat := 0
    let e : EbEnt := evicted
    let s : State := evicting { mapped with vault := Vault.init }
    let u := pipeMismatch 0 (min mism 8) e.line s.begun
    icuRuns s = true ∧ sealNext s = some (n, e) ∧ quarantined s e.line = false ∧ ((isInternal s e.line = true ∨ e.key ∉ s.icu.purged)) ∧ s.icu.rootOpen = true ∧ noInjection s = true ∧ mism < 8 ∧ ((mism = 0 ∨ cfgErase u = false)) ∧ sealGen u e.line e.key = none) := by decide +kernel
theorem test_witness_CryptPath_2 :
   (let n : Nat := 0
    let mism : Nat := 1
    let e : EbEnt := evicted
    let s : State := evicting mapped
    let u := pipeMismatch 0 (min mism 8) e.line s.begun
    let g := ⟨0, 0, 0, 0⟩
    let v := (verifyPath 4 0 e.line false (pipeMismatch 0 (min mism 8) e.line s.begun)).1
    icuRuns s = true ∧ sealNext s = some (n, e) ∧ quarantined s e.line = false ∧ ((isInternal s e.line = true ∨ e.key ∉ s.icu.purged)) ∧ s.icu.rootOpen = true ∧ noInjection s = true ∧ mism < 8 ∧ ((mism = 0 ∨ cfgErase u = false)) ∧ sealGen u e.line e.key = some g ∧ verifyPath 4 0 e.line false u = (v, none)) ∧
   (let n : Nat := 0
    let mism : Nat := 0
    let e : EbEnt := evicted
    let s : State := evicting { mapped with icu := { mapped.icu with tree := ⟨[], [(nodeKey 1 0, { Upper.init with counters := [(0, 1)] })]⟩ } }
    let u := pipeMismatch 0 (min mism 8) e.line s.begun
    let g := ⟨0, 0, 0, 0⟩
    let v := (verifyPath 4 0 e.line false (pipeMismatch 0 (min mism 8) e.line s.begun)).1
    let level := 0
    icuRuns s = true ∧ sealNext s = some (n, e) ∧ quarantined s e.line = false ∧ ((isInternal s e.line = true ∨ e.key ∉ s.icu.purged)) ∧ s.icu.rootOpen = true ∧ noInjection s = true ∧ mism < 8 ∧ ((mism = 0 ∨ cfgErase u = false)) ∧ sealGen u e.line e.key = some g ∧ verifyPath 4 0 e.line false u = (v, some level)) := by decide +kernel
theorem test_witness_CryptPath_3 :
   (let n : Nat := 0
    let mism : Nat := 8
    let e : EbEnt := evicted
    let s : State := evicting mapped
    let u := pipeMismatch 0 (min mism 8) e.line s.begun
    icuRuns s = true ∧ sealNext s = some (n, e) ∧ quarantined s e.line = false ∧ ((isInternal s e.line = true ∨ e.key ∉ s.icu.purged)) ∧ s.icu.rootOpen = true ∧ noInjection s = true ∧ 8 ≤ mism ∧ cfgErase u = false) ∧
   (let n : Nat := 0
    let mism : Nat := 1
    let e : EbEnt := evicted
    let s : State := evicting { mapped with cfg := some { oneRegion with erase := true } }
    let u := pipeMismatch 0 (min mism 8) e.line s.begun
    icuRuns s = true ∧ sealNext s = some (n, e) ∧ quarantined s e.line = false ∧ ((isInternal s e.line = true ∨ e.key ∉ s.icu.purged)) ∧ s.icu.rootOpen = true ∧ noInjection s = true ∧ 0 < mism ∧ cfgErase u = true) ∧
   (let line : Nat := 5
    let s : State := resealing (putWay (wayKey (sliceNo 5) (setNo 5) 0) ⟨tagNo 5, 0, false, false, .clean, 9⟩ mapped)
    let k := wayKey (sliceNo 5) (setNo 5) 0
    let w := ⟨tagNo 5, 0, false, false, .clean, 9⟩
    icuRuns s = true ∧ resealSet s line = true ∧ inAmq s line = false ∧ quarantined s line = false ∧ findWay s line = some (k, w) ∧ findEb s line = none ∧ findMerge s line = none) := by decide +kernel
theorem test_witness_CryptPath_4 :
   (let line : Nat := 5
    let s : State := resealing { mapped with slices := [(sliceNo 5, { Slice.init with cove := [⟨5, 0, false, 9⟩] })] }
    let c := ⟨5, 0, false, 9⟩
    icuRuns s = true ∧ resealSet s line = true ∧ inAmq s line = false ∧ quarantined s line = false ∧ findWay s line = none ∧ findEb s line = none ∧ findMerge s line = none ∧ findCove s line = some c) := by decide +kernel
theorem test_witness_CryptPath_5 :
   (let lost : List Nat := [0]
    let s : State := { setF F.ICU_STAT_STATE 0 mapped with gauge := { mapped.gauge with image := [(G.treeRoot, .treeRoot { TreeRoot.init with clean := true })] } }
    let quar := (gQuar s).map (fun q => (⟨q.1, q.2⟩ : QuarEnt))
    let u : State := { s.begun with icu := { s.icu with
      tree := ⟨[], []⟩, groups := [], nodeSeq := 0, locator := none, onDie := [], pond := [], writeback := [], dirtyGroups := [], quar := quar
      report := (gTreeRoot s).report, deferred := none, rootOpen := false, purged := [] } }
    let v := forEach lost (fun g s => quarantine (g / 2 ^ 40) (g % 2 ^ 40) 0 s)
      (setB F.ICU_STAT_ROOT_UNCLEAN false (setF F.ICU_QUAR_STAT_COUNT quar.length u))
    let w := doCkptBegin (spareEval 64 (setF F.ICU_STAT_STATE 1 (setF F.MTL_STAT_STATE 1 v)))
    coreOn s = true ∧ s.mtl.ready = true ∧ fld s F.ICU_STAT_STATE = 0 ∧ inHalt s = false ∧ (gTreeRoot s).clean = true ∧ (gTreeRoot s).nodeSeq = 0 ∧ (gTreeRoot s).locator = none ∧ s.icu.discardArmed = false ∧ (gTreeRoot s).deferred = none ∧ w.icu.deferred = none) ∧
   (let s : State := mapped
    ((coreOn s = false ∨ s.mtl.ready = false ∨ fld s F.ICU_STAT_STATE ≠ 0 ∨ inHalt s = true))) ∧
   (let v : BitVec 32 := 1
    let s : State := setF F.ICU_HALT_CAUSE_KIND 4 mapped
    fld s F.ICU_HALT_CAUSE_KIND = 4 ∧ v.getLsbD 0 = true) := by decide +kernel
theorem test_witness_CryptPath_6 :
   (let path : Nat := 0
    let s : State := mapped
    ((path ≠ tuten ∨ fld s F.ICU_HALT_CAUSE_KIND ≠ 4))) ∧
   (let path : Nat := 0
    let s : State := { mapped with icu := { mapped.icu with report := [1] } }
    taken path 0xC080 [] s = true) := by decide +kernel
theorem test_witness_ShorelineJob_1 :
   (let path : Nat := tuten
    let inp : List Byte := le 2 0 ++ [1, 0, 0, 0, 0, 0] ++ le 8 0 ++ le 8 0x10000000
    let s : State := mapped
    let key := at' inp 0 2
    let l := rangesAt inp 8 (byteAt inp 2)
    taken path 0xC022 inp s = true ∧ 8 ≤ inp.length ∧ inp.length = 8 + 16 * byteAt inp 2 ∧ byteAt inp 2 ≠ 0 ∧ byteAt inp 2 ≤ 64 ∧ zeroAt inp 3 5 = true ∧ at' inp 0 2 < 4096 ∧ rangesOk s inp 8 (byteAt inp 2) = true ∧ ((ctxOf s key).st ≠ .rotating ∨ rangesFit s key l = false)) ∧
   (let path : Nat := tuten
    let inp : List Byte := le 2 0 ++ [1, 0, 0, 0, 0, 0] ++ le 8 0 ++ le 8 0x10000000
    let s : State := { shoring with icu := mapped.icu }
    let key := at' inp 0 2
    let l := rangesAt inp 8 (byteAt inp 2)
    taken path 0xC022 inp s = true ∧ 8 ≤ inp.length ∧ inp.length = 8 + 16 * byteAt inp 2 ∧ byteAt inp 2 ≠ 0 ∧ byteAt inp 2 ≤ 64 ∧ zeroAt inp 3 5 = true ∧ at' inp 0 2 < 4096 ∧ rangesOk s inp 8 (byteAt inp 2) = true ∧ (ctxOf s key).st = .rotating ∧ rangesFit s key l = true ∧ shoreBusy s = false ∧ s.mgmt.inflight.any (fun e => e.op == 0xC022) = false ∧ tgtBusy s 0 key path = false ∧ inHalt s = false ∧ lifecycle s ≠ 3) ∧
   (let path : Nat := 0
    let s : State := shoring
    taken path 0xC023 [] s = true) := by decide +kernel
theorem test_witness_ShorelineJob_2 :
   (let s : State := { shoring with icu := { shoring.icu with shore := { shoring.icu.shore with waited := 16 } } }
    s.icu.shore.st = 1 ∧ ((s.icu.shore.step = 1 ∨ s.icu.shore.step = 2)) ∧ 16 ≤ s.icu.shore.waited) ∧
   (let s : State := shoring
    s.icu.shore.st = 1 ∧ ((s.icu.shore.step = 1 ∨ s.icu.shore.step = 2)) ∧ s.icu.shore.waited < 16) := by decide +kernel
theorem test_witness_ShorelineJob_3 :
   (let g : KeyGen := ⟨2, 4, 5, 6⟩
    let s : State := shoringBad
    let x := s.icu.shore
    let r := reachOf x.b
    let rec_ := mergeOf s.begun r
    let caps := match rec_ with | some (_, m) => m.ents.filter (fun e => !e.poison) | none => []
    let poisoned := (List.range 1024).filter (fun o => match fineFind s.begun (r * 1024 + o) with | some e => e.poison | none => false) ++
      (match rec_ with | some (_, m) => (m.ents.filter (·.poison)).map (·.off) | none => [])
    let old := match tfind s.mtl.map.reachMap r with | some (.deeps a b) => some (a, b) | _ => rec_.bind (fun m => m.2.deeps)
    let resets := ((List.range 16).map (16 * r + ·)).filter (fun i => (leafOf s.icu.tree i).exhausted)
    let s0 := strideSenses caps old (match rec_ with | some (k, m) => markCaptured k m s.begun | none => s.begun)
    let ahead := modTree (fun t => { t with leaves := resets.foldl (fun l i =>
      tput i { leafOf t i with major := 0, oldMajor := 0, reseal := 0, minors := [] } l) t.leaves }) s0
    let b := (List.range 1024).foldl (buildOffset x.key g r caps old poisoned resets) ⟨[], [], ahead, s0, false⟩
    mtlBackground s = true ∧ icuRuns s = true ∧ s.icu.shore.st = 1 ∧ ((s.icu.shore.step = 1 ∨ s.icu.shore.step = 2)) ∧ (ctxOf s s.icu.shore.key).new = some g ∧ s.mtl.folds.any (fun f => f.reach == r) = false ∧ s.mtl.sealedQ.any (fun b => reachOf b.line == r) = false ∧ b.bad = true) := by decide +kernel
theorem test_witness_ShorelineJob_4 :
   (let g : KeyGen := ⟨2, 4, 5, 6⟩
    let s : State := shoringQuar
    let x := s.icu.shore
    let r := reachOf x.b
    let rec_ := mergeOf s.begun r
    let caps := match rec_ with | some (_, m) => m.ents.filter (fun e => !e.poison) | none => []
    let poisoned := (List.range 1024).filter (fun o => match fineFind s.begun (r * 1024 + o) with | some e => e.poison | none => false) ++
      (match rec_ with | some (_, m) => (m.ents.filter (·.poison)).map (·.off) | none => [])
    let old := match tfind s.mtl.map.reachMap r with | some (.deeps a b) => some (a, b) | _ => rec_.bind (fun m => m.2.deeps)
    let resets := ((List.range 16).map (16 * r + ·)).filter (fun i => (leafOf s.icu.tree i).exhausted)
    let s0 := strideSenses caps old (match rec_ with | some (k, m) => markCaptured k m s.begun | none => s.begun)
    let ahead := modTree (fun t => { t with leaves := resets.foldl (fun l i =>
      tput i { leafOf t i with major := 0, oldMajor := 0, reseal := 0, minors := [] } l) t.leaves }) s0
    let b := (List.range 1024).foldl (buildOffset x.key g r caps old poisoned resets) ⟨[], [], ahead, s0, false⟩
    let s1 := modShore (fun y => { y with
      step := 3, delay := false, again := [], caps := caps, foldSeq := foldSeqNow s.begun, adv := b.adv, resets := resets }) b.st
    mtlBackground s = true ∧ icuRuns s = true ∧ s.icu.shore.st = 1 ∧ ((s.icu.shore.step = 1 ∨ s.icu.shore.step = 2)) ∧ (ctxOf s s.icu.shore.key).new = some g ∧ s.mtl.folds.any (fun f => f.reach == r) = false ∧ s.mtl.sealedQ.any (fun b => reachOf b.line == r) = false ∧ b.bad = false ∧ placeReach r b.lines s1 = none) := by decide +kernel
theorem test_witness_ShorelineJob_5 :
   (let g : KeyGen := ⟨2, 4, 5, 6⟩
    let s : State := withSets [(0, setOn kDEEPS .opened)] shoringQuar
    let x := s.icu.shore
    let r := reachOf x.b
    let rec_ := mergeOf s.begun r
    let caps := match rec_ with | some (_, m) => m.ents.filter (fun e => !e.poison) | none => []
    let poisoned := (List.range 1024).filter (fun o => match fineFind s.begun (r * 1024 + o) with | some e => e.poison | none => false) ++
      (match rec_ with | some (_, m) => (m.ents.filter (·.poison)).map (·.off) | none => [])
    let old := match tfind s.mtl.map.reachMap r with | some (.deeps a b) => some (a, b) | _ => rec_.bind (fun m => m.2.deeps)
    let resets := ((List.range 16).map (16 * r + ·)).filter (fun i => (leafOf s.icu.tree i).exhausted)
    let s0 := strideSenses caps old (match rec_ with | some (k, m) => markCaptured k m s.begun | none => s.begun)
    let ahead := modTree (fun t => { t with leaves := resets.foldl (fun l i =>
      tput i { leafOf t i with major := 0, oldMajor := 0, reseal := 0, minors := [] } l) t.leaves }) s0
    let b := (List.range 1024).foldl (buildOffset x.key g r caps old poisoned resets) ⟨[], [], ahead, s0, false⟩
    let s1 := modShore (fun y => { y with
      step := 3, delay := false, again := [], caps := caps, foldSeq := foldSeqNow s.begun, adv := b.adv, resets := resets }) b.st
    let n := 0
    let slot := 0
    mtlBackground s = true ∧ icuRuns s = true ∧ s.icu.shore.st = 1 ∧ ((s.icu.shore.step = 1 ∨ s.icu.shore.step = 2)) ∧ (ctxOf s s.icu.shore.key).new = some g ∧ s.mtl.folds.any (fun f => f.reach == r) = false ∧ s.mtl.sealedQ.any (fun b => reachOf b.line == r) = false ∧ b.bad = false ∧ ((placeReach r b.lines s1).map (·.2)) = some (n, slot)) := by decide +kernel
theorem test_witness_ShorelineJob_6 :
   (let s : State := mapped
    ((s.icu.shore.st ≠ 1 ∨ mtlBackground s = false ∨ icuRuns s = false))) := by decide +kernel
/-- A copy of line 5 in the open log page, with the MAC of its counters. -/
def held5 : Sealed := ⟨0, lineMac 0 5 0 0 0 0, 0, 1⟩
/-- Line 5 is to be resealed and lies in that page alone. -/
def resealMedia : State :=
  resealing { merged with mtl := { merged.mtl with
    wbuf := [(wbKey 0 0, .log [held5] [] 0 0 0 false)]
    map := { merged.mtl.map with merge := [(0, ⟨0, none, 0, true, false, 0, [⟨5, false, false, 5, 0, 0⟩]⟩)] } } }
/-- An open whose node path, key and MAC are right delivers the line. -/
theorem openLine_ok (line key : Nat) (x : Sealed) (psa : Option Nat) (path : Nat) (head : Option Nat) (g : KeyGen) (s : State)
    (h1 : quarantined s line = false) (h2 : (!isInternal s line && (ctxOf s key).cur.isNone) = false)
    (h3 : (openInject 0x23 0 (openAgent s line path) (openWords (openAgent s line path) line key s)).2 = false)
    (h4 : (openPipeInject (openAgent s line path) (openInject 0x23 0 (openAgent s line path)
      (openWords (openAgent s line path) line key s)).1).2 = 0)
    (h5 : openGen (pipeMismatch 1 0 line (openPipeInject (openAgent s line path) (openInject 0x23 0 (openAgent s line path)
      (openWords (openAgent s line path) line key s)).1).1) line key x.gen = some g)
    (h6 : (verifyPath 4 0 line false (pipeMismatch 1 0 line (openPipeInject (openAgent s line path)
      (openInject 0x23 0 (openAgent s line path) (openWords (openAgent s line path) line key s)).1).1)).2 = none)
    (h7 : (openInject 0x22 0 (openAgent s line path) (verifyPath 4 0 line false (pipeMismatch 1 0 line (openPipeInject (openAgent s line path)
      (openInject 0x23 0 (openAgent s line path) (openWords (openAgent s line path) line key s)).1).1)).1).2 = false)
    (a b : Nat) (h8 : lineCounters (verifyPath 4 0 line false (pipeMismatch 1 0 line (openPipeInject (openAgent s line path)
      (openInject 0x23 0 (openAgent s line path) (openWords (openAgent s line path) line key s)).1).1)).1 line = (a, b))
    (h9 : x.mac = lineMac g.kmac line a b x.gen x.ct) :
    ∃ t p d, openLine line key x psa path 0 head s = (t, .ok d p) := by
  simp [openLine, h1, h2, h3, h4, h5, h6, openMac, h7, h8, h9]
theorem test_witness_CryptPath_media :
    icuRuns resealMedia = true ∧ resealSet resealMedia 5 = true ∧ inAmq resealMedia 5 = false ∧ quarantined resealMedia 5 = false ∧
    findWay resealMedia 5 = none ∧ findEb resealMedia 5 = none ∧ findMerge resealMedia 5 = none ∧ findCove resealMedia 5 = none ∧
    mtlLookup resealMedia 5 = .at_ 0 0 0 ∧ sealedAt resealMedia.begun 0 0 0 = some held5 ∧
    ∃ t p d, openLine 5 (lineKeyOf resealMedia.begun 5) held5 (locPsa resealMedia.begun (.at_ 0 0 0)) 3 0 none
      (bgSense (locPsa resealMedia.begun (.at_ 0 0 0)) 1 1 resealMedia.begun) = (t, .ok d p) := by
  refine ⟨by decide +kernel, by decide +kernel, by decide +kernel, by decide +kernel, by decide +kernel, by decide +kernel,
    by decide +kernel, by decide +kernel, by decide +kernel, rfl, openLine_ok _ _ _ _ _ _ ⟨0, 0, 0, 0⟩ _ ?_ ?_ ?_ ?_ ?_ ?_ ?_ 0 0 ?_ rfl⟩ <;>
    decide +kernel

/-! Witnesses: keys -/

/-- A deployed device whose vault is open, with key-encryption key 1 and an ACTIVE context 1 that no region names. -/
def vaulted : State :=
  let s := setF F.KV_STAT_VAULT 1 deployed
  { s with vault := { s.vault with keks := [(1, ⟨some 7, false, 0⟩)]
                                   ctxs := s.vault.ctxs ++ [(1, { Ctx.init with st := .active, cur := some ⟨1, 1, 2, 3⟩ })]
                                   slots := [(3, { Slot.init with st := .ready, usage := 1, key1 := 5, c := 1, seq := 1 })] } }
/-- An install command: its header, then header and key wrapped under key-encryption key 1. -/
def installInput (t i usage : Nat) (key : List Byte) : List Byte :=
  let h := le 1 t ++ [1] ++ le 2 i ++ [0] ++ le 1 usage ++ [0, 0] ++ le 8 9
  h ++ le 2 (key.length + 24) ++ zeros 6 ++ kwWrap 7 (h ++ key)
/-- The key root of Gauge is set and a weak sector asks for a compaction. -/
def rooted : State :=
  { vaulted with gauge := { vaulted.gauge with image := [(G.keyroot, .keyroot { KeyRoot.init with isSet := true, count := 9 })] }
                 vault := { vaulted.vault with weak := true } }
/-- The ledger's only entry is bad in both copies. -/
def ledgerBad (kind i : Nat) : State :=
  { rooted with vault := { rooted.vault with area0 := [{ LedgerEnt.of kind i with lseq := 1, goodA := false, goodB := false }] } }
/-- The ring at register block b runs with one descriptor in line 0, of head 0. -/
def ringed (b : Nat) (d : Line) : State :=
  let s := putWay (wayKey (sliceNo 0) (setNo 0) 0) ⟨tagNo 0, 0, false, false, .clean, d⟩ { configured with mtl := { configured.mtl with ready := true } }
  setF ⟨b + 0x10, 12, 20⟩ 1 (setF (rgOwner b) 0 (setF (rgTail b) 1 (setF (rgSize b) 4 (rgPut b 1 0 s))))
/-- A mover channel without the seal engine. -/
def moving (d : Line) : State :=
  let s := ringed (dmv 0) d
  { s with movers := [] }
def oneMove : MoverRun := { op := 1, tag := 3, src := 0, dst := 0x10000, lines := 2, done := 0, srcKey := 0, dstKey := 0, pattern := 0, irq := false, poisoned := 0, ending := none }
/-- Channel 0 has halted inside a descriptor. -/
def moverHalted : State := setF (rgTail (dmv 0)) 0 (rgPut (dmv 0) 2 1 { moving 0 with movers := [(0, oneMove)] })
theorem test_witness_KeyCommands_1 :
   (let path : Nat := tuten
    let d : List Byte := [0, 2, 1, 0, 0, 0, 0, 0] ++ le 8 9 ++ le 2 120 ++ zeros 126
    let m : List Byte := []
    let rc : Nat := rcConflict
    let s : State := vaulted
    taken path 0xC020 d s = true ∧ 24 ≤ d.length ∧ d.length = 24 + at' d 16 2 ∧ installCheck s.begun path d = (rc, m)) ∧
   (let path : Nat := tuten
    let d : List Byte := [0, 0, 2, 0, 0, 0, 0, 0]
    let c : Instr := (.keyRetire tuten [0, 0, 2, 0, 0, 0, 0, 0])
    let s : State := vaulted
    let rc := retireCheck s.begun path d
    c ∈ [Instr.keyRetire path d, .keyRetireRanges path d] ∧ taken path 0xC021 d s = true ∧ 8 ≤ d.length ∧ d.length = 8 + 16 * byteAt d 4 ∧ rc ≠ rcSuccess) ∧
   (let path : Nat := tuten
    let d : List Byte := [2, 0, 3, 0, 0, 0, 0, 0]
    let c : Instr := (.keyRetire tuten [2, 0, 3, 0, 0, 0, 0, 0])
    let s : State := vaulted
    let t := byteAt d 0
    let rc := retireCheck s.begun path d
    c ∈ [Instr.keyRetire path d, .keyRetireRanges path d] ∧ taken path 0xC021 d s = true ∧ 8 ≤ d.length ∧ d.length = 8 + 16 * byteAt d 4 ∧ rc = rcSuccess ∧ t = 2) := by decide +kernel
theorem test_witness_KeyCommands_2 :
   (let path : Nat := tuten
    let d : List Byte := [3, 0, 1, 0, 0, 0, 0, 0]
    let c : Instr := (.keyRetire tuten [3, 0, 1, 0, 0, 0, 0, 0])
    let s : State := vaulted
    let t := byteAt d 0
    let rc := retireCheck s.begun path d
    c ∈ [Instr.keyRetire path d, .keyRetireRanges path d] ∧ taken path 0xC021 d s = true ∧ 8 ≤ d.length ∧ d.length = 8 + 16 * byteAt d 4 ∧ rc = rcSuccess ∧ t ≠ 0 ∧ t ≠ 2) ∧
   (let path : Nat := tuten
    let d : List Byte := [0, 0, 1, 0, 0, 0, 0, 0]
    let c : Instr := (.keyRetire tuten [0, 0, 1, 0, 0, 0, 0, 0])
    let s : State := vaulted
    let t := byteAt d 0
    let n := byteAt d 4
    let rc := retireCheck s.begun path d
    c ∈ [Instr.keyRetire path d, .keyRetireRanges path d] ∧ taken path 0xC021 d s = true ∧ 8 ≤ d.length ∧ d.length = 8 + 16 * byteAt d 4 ∧ rc = rcSuccess ∧ t = 0 ∧ n = 0) ∧
   (let path : Nat := tuten
    let d : List Byte := [0, 0, 1, 0, 1, 0, 0, 0] ++ le 8 0x10000000 ++ le 8 0x10000
    let c : Instr := (.keyRetireRanges tuten ([0, 0, 1, 0, 1, 0, 0, 0] ++ le 8 0x10000000 ++ le 8 0x10000))
    let s : State := vaulted
    let t := byteAt d 0
    let n := byteAt d 4
    let rc := retireCheck s.begun path d
    c ∈ [Instr.keyRetire path d, .keyRetireRanges path d] ∧ taken path 0xC021 d s = true ∧ 8 ≤ d.length ∧ d.length = 8 + 16 * byteAt d 4 ∧ rc = rcSuccess ∧ t = 0 ∧ n ≠ 0) := by decide +kernel
theorem test_witness_KeyCommands_3 :
   (let s : State := rooted
    ((ledgerRoom * 3 / 4 ≤ (ledger s).length ∨ s.vault.weak = true)) ∧ (gKeyroot s).isSet = true ∧ fld s F.KV_STAT_VAULT = 1 ∧ s.vault.installs = []) ∧
   (let s : State := vaulted
    (ledger s).length < ledgerRoom * 3 / 4 ∧ s.vault.weak = false) ∧
   (let kind : Nat := 0
    let i : Nat := 0
    let s : State := vaulted
    let u := mempUe 7 0 i agRequest s.begun
    let mine := (ledger u).filter (fun e => e.index == i && decide (e.lseq ≤ (gKeyroot u).count) &&
      (if kind = 0 then [lkCur, lkNew, lkPromote, lkRestore].contains e.kind || (e.kind == lkRetire && decide (e.target ≤ 1))
       else if kind = 1 then e.kind == lkSlot || (e.kind == lkRetire && e.target == 2)
       else e.kind == lkKek || (e.kind == lkRetire && e.target == 3)))
    let bad := mine.find? (fun e => !(e.goodA || e.goodB))
    coreOn s = true ∧ fld s F.KV_STAT_VAULT = 1 ∧ bad = none) := by decide +kernel
theorem test_witness_KeyCommands_4 :
   (let kind : Nat := 0
    let i : Nat := 1
    let s : State := ledgerBad lkCur 1
    let u := mempUe 7 0 i agRequest s.begun
    let mine := (ledger u).filter (fun e => e.index == i && decide (e.lseq ≤ (gKeyroot u).count) &&
      (if kind = 0 then [lkCur, lkNew, lkPromote, lkRestore].contains e.kind || (e.kind == lkRetire && decide (e.target ≤ 1))
       else if kind = 1 then e.kind == lkSlot || (e.kind == lkRetire && e.target == 2)
       else e.kind == lkKek || (e.kind == lkRetire && e.target == 3)))
    let bad := mine.find? (fun e => !(e.goodA || e.goodB))
    let e := ({ LedgerEnt.of lkCur 1 with lseq := 1, goodA := false, goodB := false } : LedgerEnt)
    coreOn s = true ∧ fld s F.KV_STAT_VAULT = 1 ∧ bad = some e ∧ kind = 0 ∧ (ctxOf u i).cur.isSome = true) := by decide +kernel
theorem test_witness_KeyCommands_5 :
   (let kind : Nat := 1
    let i : Nat := 3
    let s : State := ledgerBad lkSlot 3
    let u := mempUe 7 0 i agRequest s.begun
    let mine := (ledger u).filter (fun e => e.index == i && decide (e.lseq ≤ (gKeyroot u).count) &&
      (if kind = 0 then [lkCur, lkNew, lkPromote, lkRestore].contains e.kind || (e.kind == lkRetire && decide (e.target ≤ 1))
       else if kind = 1 then e.kind == lkSlot || (e.kind == lkRetire && e.target == 2)
       else e.kind == lkKek || (e.kind == lkRetire && e.target == 3)))
    let bad := mine.find? (fun e => !(e.goodA || e.goodB))
    let e := ({ LedgerEnt.of lkSlot 3 with lseq := 1, goodA := false, goodB := false } : LedgerEnt)
    coreOn s = true ∧ fld s F.KV_STAT_VAULT = 1 ∧ bad = some e ∧ kind = 1 ∧ (slotOf u i).st ≠ .empty) := by decide +kernel
theorem test_witness_KeyCommands_6 :
   (let kind : Nat := 2
    let i : Nat := 1
    let s : State := ledgerBad lkKek 1
    let u := mempUe 7 0 i agRequest s.begun
    let mine := (ledger u).filter (fun e => e.index == i && decide (e.lseq ≤ (gKeyroot u).count) &&
      (if kind = 0 then [lkCur, lkNew, lkPromote, lkRestore].contains e.kind || (e.kind == lkRetire && decide (e.target ≤ 1))
       else if kind = 1 then e.kind == lkSlot || (e.kind == lkRetire && e.target == 2)
       else e.kind == lkKek || (e.kind == lkRetire && e.target == 3)))
    let bad := mine.find? (fun e => !(e.goodA || e.goodB))
    let e := ({ LedgerEnt.of lkKek 1 with lseq := 1, goodA := false, goodB := false } : LedgerEnt)
    coreOn s = true ∧ fld s F.KV_STAT_VAULT = 1 ∧ bad = some e ∧ kind = 2 ∧ (kekOf u i).key.isSome = true) := by decide +kernel
theorem test_witness_KeyJobs_1 :
   (let path : Nat := 0
    let q : Nat := 0
    let s : State := ringed (jq 0) 0
    jqThere s q = true ∧ rgOwns s (jq q) path = true) ∧
   (let path : Nat := 1
    let q : Nat := 0
    let s : State := ringed (jq 0) 0
    jqThere s q = true ∧ rgOwns s (jq q) path = false) ∧
   (let path : Nat := 0
    let q : Nat := 0
    let v : BitVec 32 := 0x40000
    let u : State := (rgCfg (jq 0) 0 0x40100 (ringed (jq 0) 0).begun).1
    let s : State := ringed (jq 0) 0
    jqThere s q = true ∧ rgCfg (jq q) path (v ||| 0x100) s.begun = (u, true) ∧ rgPlaced u (jq q) 64 = true) ∧
   (let path : Nat := 0
    let q : Nat := 0
    let v : BitVec 32 := 0x40000
    let u : State := (rgCfg (jq 0) 0 0x40100 (setF ⟨jq 0 + 0xC, 0, 16⟩ 1 (ringed (jq 0) 0)).begun).1
    let s : State := (setF ⟨jq 0 + 0xC, 0, 16⟩ 1 (ringed (jq 0) 0))
    jqThere s q = true ∧ rgCfg (jq q) path (v ||| 0x100) s.begun = (u, true) ∧ rgPlaced u (jq q) 64 = false) := by decide +kernel
theorem test_witness_KeyJobs_2 :
   (let q : Nat := 0
    let mism : Nat := 0
    let op : Nat := 0
    let m : Nat := 0
    let ue : Option (Nat × Nat) := none
    let e : Option (Nat × Nat) := none
    let i : Instr := (.jobNop 0)
    let s : State := ringed (jq 0) 0
    let t := ((fetchDesc (jq 0) 64 (ringed (jq 0) 0).begun).getD (configured, [], true)).1
    let b := zeros 64
    let poison := false
    (i, op, m, e) ∈ [(Instr.jobNop q, 0, 0, none), (.jobGcmEnc q mism ue, 1, mism, ue), (.jobGcmDec q mism ue, 2, mism, ue),
      (.jobXtsEnc q mism ue, 3, mism, ue), (.jobXtsDec q mism ue, 4, mism, ue), (.jobCmacGen q mism ue, 5, mism, ue),
      (.jobCmacVer q mism ue, 6, mism, ue), (.jobRandom q ue, 7, 0, ue)] ∧ jqThere s q = true ∧ moverRuns s = true ∧ s.pwr.stopped.contains 4 = false ∧ tfind s.vault.jobs q = none ∧ rgReady s (jq q) = true ∧ fetchDesc (jq q) 64 s.begun = some (t, b, poison) ∧ inHalt t = false ∧ ((poison = true ∨ (jobDesc b).op = op)) ∧ (slotOf s (jobDesc b).slot).waitSince = none) := by decide +kernel
theorem test_witness_KeyJobs_3 :
   (let q : Nat := 0
    let mism : Nat := 0
    let op : Nat := 1
    let m : Nat := 0
    let ue : Option (Nat × Nat) := none
    let e : Option (Nat × Nat) := none
    let i : Instr := (.jobGcmEnc 0 0 none)
    let s : State := { ringed (jq 0) 0 with vault := { (ringed (jq 0) 0).vault with jobs := [(0, ⟨1, 3, 7, 0, 0, 0, 1, false, 0, []⟩)] } }
    let j := (⟨1, 3, 7, 0, 0, 0, 1, false, 0, []⟩ : SealJob)
    (i, op, m, e) ∈ [(Instr.jobNop q, 0, 0, none), (.jobGcmEnc q mism ue, 1, mism, ue), (.jobGcmDec q mism ue, 2, mism, ue),
      (.jobXtsEnc q mism ue, 3, mism, ue), (.jobXtsDec q mism ue, 4, mism, ue), (.jobCmacGen q mism ue, 5, mism, ue),
      (.jobCmacVer q mism ue, 6, mism, ue), (.jobRandom q ue, 7, 0, ue)] ∧ jqThere s q = true ∧ moverRuns s = true ∧ s.pwr.stopped.contains 4 = false ∧ tfind s.vault.jobs q = some j ∧ j.op = op) := by decide +kernel
theorem test_witness_KeyJobs_4 :
   (let q : Nat := 1
    let mism : Nat := 0
    let op : Nat := 7
    let m : Nat := 0
    let ue : Option (Nat × Nat) := none
    let e : Option (Nat × Nat) := none
    let i : Instr := (.jobRandom 1 none)
    let s : State := ringed (jq 0) 0
    (i, op, m, e) ∈ [(Instr.jobNop q, 0, 0, none), (.jobGcmEnc q mism ue, 1, mism, ue), (.jobGcmDec q mism ue, 2, mism, ue),
      (.jobXtsEnc q mism ue, 3, mism, ue), (.jobXtsDec q mism ue, 4, mism, ue), (.jobCmacGen q mism ue, 5, mism, ue),
      (.jobCmacVer q mism ue, 6, mism, ue), (.jobRandom q ue, 7, 0, ue)] ∧ jqThere s q = true ∧ moverRuns s = true ∧ s.pwr.stopped.contains 4 = false ∧ tfind s.vault.jobs q = none ∧ rgReady s (jq q) = false) := by decide +kernel
theorem test_witness_KeyJobs_5 :
   (let q : Nat := 0
    let since : Nat := 0
    let t : State := ((fetchDesc (jq 0) 64 { (ringed (jq 0) 0).begun with vault := { (ringed (jq 0) 0).vault with slots := [(0, { Slot.init with st := .ready, waitSince := some 0 })] } }).getD (configured, [], true)).1
    let b : List Byte := zeros 64
    let s : State := { ringed (jq 0) 0 with vault := { (ringed (jq 0) 0).vault with slots := [(0, { Slot.init with st := .ready, waitSince := some 0 })] } }
    jqThere s q = true ∧ moverRuns s = true ∧ rgReady s (jq q) = true ∧ tfind s.vault.jobs q = none ∧ fetchDesc (jq q) 64 s.begun = some (t, b, false) ∧ inHalt t = false ∧ (slotOf s (jobDesc b).slot).waitSince = some since ∧ (slotOf s (jobDesc b).slot).c < slotV s (jobDesc b).slot) ∧
   (let s : State := { configured with vault := { configured.vault with rngFails := 2 } }
    coreOn s = true ∧ fld s F.KV_STAT_RNG ≠ 2 ∧ 2 ≤ s.vault.rngFails) ∧
   (let s : State := { configured with vault := { configured.vault with rngFails := 1 } }
    coreOn s = true ∧ fld s F.KV_STAT_RNG ≠ 2 ∧ s.vault.rngFails = 1) ∧
   (let s : State := configured
    coreOn s = true ∧ fld s F.KV_STAT_RNG ≠ 2 ∧ s.vault.rngFails = 0) ∧
   (let s : State := configured
    coreOn s = true ∧ fld s F.KV_STAT_RNG ≠ 2 ∧ s.vault.rngFails < 2) := by decide +kernel
theorem test_witness_KeyJobs_6 :
   (let s : State := setF F.KV_STAT_RNG 1 configured
    coreOn s = true ∧ fld s F.KV_STAT_RNG = 1 ∧ ((tickInEpoch s = 0 ∨ 2 ^ 20 ≤ s.vault.drbgReqs))) ∧
   (let s : State := setF F.KV_STAT_RNG 1 { configured with tick := { configured.tick with count := 1 } }
    coreOn s = true ∧ fld s F.KV_STAT_RNG = 1 ∧ tickInEpoch s ≠ 0 ∧ s.vault.drbgReqs < 2 ^ 20) := by decide +kernel
theorem test_witness_MemoryProtection_1 :
   (let cls : Nat := 0
    let inst : Nat := 0
    let row : Nat := 0
    let up : Upset := .none
    let s : State := configured
    let u := { s.begun with memp := { s.memp with
      scrubPos := tput (cls * 65536 + inst) ((row + 1) % scrubRows cls inst) s.memp.scrubPos } }
    let r := mempRead cls inst (if cls = 0 then (rowLine u inst row).getD row else row) agScrub up u
    coreOn s = true ∧ s.pwr.st ≤ 1 ∧ row < scrubRows cls inst ∧ injInsts s cls inst = true ∧ tget 0 s.memp.scrubPos (cls * 65536 + inst) = row ∧ ((cls ≠ 14 ∨ row ≠ 0)) ∧ r.2 = .none) ∧
   (let cls : Nat := 12
    let inst : Nat := 0
    let row : Nat := 0
    let up : Upset := .ce
    let s : State := configured
    let u := { s.begun with memp := { s.memp with
      scrubPos := tput (cls * 65536 + inst) ((row + 1) % scrubRows cls inst) s.memp.scrubPos } }
    let r := mempRead cls inst (if cls = 0 then (rowLine u inst row).getD row else row) agScrub up u
    coreOn s = true ∧ s.pwr.st ≤ 1 ∧ row < scrubRows cls inst ∧ injInsts s cls inst = true ∧ tget 0 s.memp.scrubPos (cls * 65536 + inst) = row ∧ ((cls ≠ 14 ∨ row ≠ 0)) ∧ r.2 = .ce) := by decide +kernel
theorem test_witness_MemoryProtection_2 :
   (let cls : Nat := 3
    let inst : Nat := 0
    let row : Nat := 0
    let up : Upset := .vote
    let s : State := configured
    let u := { s.begun with memp := { s.memp with
      scrubPos := tput (cls * 65536 + inst) ((row + 1) % scrubRows cls inst) s.memp.scrubPos } }
    let r := mempRead cls inst (if cls = 0 then (rowLine u inst row).getD row else row) agScrub up u
    coreOn s = true ∧ s.pwr.st ≤ 1 ∧ row < scrubRows cls inst ∧ injInsts s cls inst = true ∧ tget 0 s.memp.scrubPos (cls * 65536 + inst) = row ∧ ((cls ≠ 14 ∨ row ≠ 0)) ∧ r.2 = .vote ∧ cls < 13) ∧
   (let cls : Nat := 12
    let inst : Nat := 0
    let row : Nat := 0
    let up : Upset := .ue
    let s : State := configured
    let u := { s.begun with memp := { s.memp with
      scrubPos := tput (cls * 65536 + inst) ((row + 1) % scrubRows cls inst) s.memp.scrubPos } }
    let r := mempRead cls inst (if cls = 0 then (rowLine u inst row).getD row else row) agScrub up u
    coreOn s = true ∧ s.pwr.st ≤ 1 ∧ row < scrubRows cls inst ∧ injInsts s cls inst = true ∧ tget 0 s.memp.scrubPos (cls * 65536 + inst) = row ∧ ((cls ≠ 14 ∨ row ≠ 0)) ∧ r.2 ≠ .none ∧ r.2 ≠ .ce ∧ r.2 ≠ .vote) ∧
   (let cls : Nat := 0
    let inst : Nat := 0
    let row : Nat := 1
    let s : State := configured
    ((coreOn s = false ∨ 1 < s.pwr.st ∨ scrubRows cls inst ≤ row ∨
      tget 0 s.memp.scrubPos (cls * 65536 + inst) ≠ row))) := by decide +kernel
theorem test_witness_MemoryProtection_3 :
   (let path : Nat := tuten
    let v : BitVec 32 := 1
    let s : State := setF F.MEMP_INJ_SEL_POINT 1 configured
    let why := injReason s.begun path (v ||| 0x80000000)
    isMgmt path = true ∧ coreOn s = true ∧ v.toNat % 4 ≠ 0 ∧ why = 0) ∧
   (let path : Nat := 5
    let v : BitVec 32 := 1
    let s : State := configured
    let why := injReason s.begun path (v ||| 0x80000000)
    isMgmt path = true ∧ coreOn s = true ∧ v.toNat % 4 ≠ 0 ∧ why ≠ 0) ∧
   (let path : Nat := tuten
    let s : State := configured
    isMgmt path = true ∧ coreOn s = true) ∧
   (let path : Nat := 0
    isMgmt path = false) ∧
   (let path : Nat := 3
    isMgmt path = false) := by decide +kernel
theorem test_witness_DataMovers_1 :
   (let path : Nat := 0
    let n : Nat := 0
    let s : State := moving 0
    dmvThere s n = true ∧ rgOwns s (dmv n) path = true) ∧
   (let path : Nat := 1
    let n : Nat := 0
    let s : State := moving 0
    dmvThere s n = true ∧ rgOwns s (dmv n) path = false) ∧
   (let path : Nat := 0
    let n : Nat := 0
    let v : BitVec 32 := 0x40000
    let u : State := (rgCfg (dmv 0) 0 0x40100 (moving 0).begun).1
    let s : State := moving 0
    dmvThere s n = true ∧ rgCfg (dmv n) path (v ||| 0x100) s.begun = (u, true) ∧ rgPlaced u (dmv n) 32 = true) ∧
   (let path : Nat := 0
    let n : Nat := 0
    let v : BitVec 32 := 0x40000
    let u : State := (rgCfg (dmv 0) 0 0x40100 (setF ⟨dmv 0 + 0xC, 0, 16⟩ 1 (moving 0)).begun).1
    let s : State := (setF ⟨dmv 0 + 0xC, 0, 16⟩ 1 (moving 0))
    dmvThere s n = true ∧ rgCfg (dmv n) path (v ||| 0x100) s.begun = (u, true) ∧ rgPlaced u (dmv n) 32 = false) ∧
   (let path : Nat := 1
    let n : Nat := 0
    let v : BitVec 32 := 0x40000
    let u : State := (rgCfg (dmv 0) 1 0x40100 (moving 0).begun).1
    let s : State := moving 0
    dmvThere s n = true ∧ rgCfg (dmv n) path (v ||| 0x100) s.begun = (u, false)) := by decide +kernel
theorem test_witness_DataMovers_2 :
   (let n : Nat := 0
    let op : Nat := 0
    let ue : Option (Nat × Nat) := none
    let e : Option (Nat × Nat) := none
    let i : Instr := (.dmvNop 0)
    let s : State := moving 0
    let t := ((fetchDesc (dmv 0) 32 (moving 0).begun).getD (configured, [], true)).1
    let d := zeros 32
    let poison := false
    let st := if poison then 0x8 else dmvCheck t (fld s.begun (rgOwner (dmv n))) d
    (i, op, e) ∈ [(Instr.dmvNop n, 0, none), (.dmvCopy n ue, 1, ue), (.dmvFill n ue, 2, ue)] ∧ dmvThere s n = true ∧ moverRuns s = true ∧ s.pwr.stopped.contains 7 = false ∧ tfind s.movers n = none ∧ rgReady s (dmv n) = true ∧ fetchDesc (dmv n) 32 s.begun = some (t, d, poison) ∧ inHalt t = false ∧ ((poison = true ∨ byteAt d 0 = op)) ∧ ((st ≠ 0 ∨ byteAt d 0 = 0))) := by decide +kernel
theorem test_witness_DataMovers_3 :
   (let n : Nat := 0
    let op : Nat := 2
    let ue : Option (Nat × Nat) := none
    let e : Option (Nat × Nat) := none
    let i : Instr := (.dmvFill 0 none)
    let s : State := moving (bytesLine ([2] ++ zeros 15 ++ le 8 0x20000 ++ le 8 64))
    let t := ((fetchDesc (dmv 0) 32 (moving (bytesLine ([2] ++ zeros 15 ++ le 8 0x20000 ++ le 8 64))).begun).getD (configured, [], true)).1
    let d := [2] ++ zeros 15 ++ le 8 0x20000 ++ le 8 64
    let poison := false
    let st := if poison then 0x8 else dmvCheck t (fld s.begun (rgOwner (dmv n))) d
    (i, op, e) ∈ [(Instr.dmvNop n, 0, none), (.dmvCopy n ue, 1, ue), (.dmvFill n ue, 2, ue)] ∧ dmvThere s n = true ∧ moverRuns s = true ∧ s.pwr.stopped.contains 7 = false ∧ tfind s.movers n = none ∧ rgReady s (dmv n) = true ∧ fetchDesc (dmv n) 32 s.begun = some (t, d, poison) ∧ inHalt t = false ∧ ((poison = true ∨ byteAt d 0 = op)) ∧ st = 0 ∧ byteAt d 0 ≠ 0) := by decide +kernel
theorem test_witness_DataMovers_4 :
   (let n : Nat := 0
    let op : Nat := 1
    let ue : Option (Nat × Nat) := none
    let e : Option (Nat × Nat) := none
    let i : Instr := (.dmvCopy 0 none)
    let s : State := { moving 0 with movers := [(0, oneMove)] }
    let m := oneMove
    (i, op, e) ∈ [(Instr.dmvNop n, 0, none), (.dmvCopy n ue, 1, ue), (.dmvFill n ue, 2, ue)] ∧ dmvThere s n = true ∧ moverRuns s = true ∧ s.pwr.stopped.contains 7 = false ∧ tfind s.movers n = some m ∧ m.op = op ∧ ((fld s (rgState (dmv n)) = 1 ∨ m.ending.isSome = true))) ∧
   (let path : Nat := 0
    let n : Nat := 0
    let m : MoverRun := oneMove
    let v : BitVec 32 := 1
    let s : State := moverHalted
    dmvThere s n = true ∧ rgOwns s (dmv n) path = true ∧ fld s (rgState (dmv n)) = 2 ∧ tfind s.movers n = some m ∧ v.toNat % 4 = 1) ∧
   (let path : Nat := 0
    let n : Nat := 0
    let m : MoverRun := oneMove
    let v : BitVec 32 := 2
    let s : State := moverHalted
    let t := (dmvEnd 0 1 3 0x7 0 false 0 moverHalted.begun).getD configured
    dmvThere s n = true ∧ rgOwns s (dmv n) path = true ∧ fld s (rgState (dmv n)) = 2 ∧ tfind s.movers n = some m ∧ v.toNat % 4 = 2 ∧ dmvEnd n m.op m.tag 0x7 m.done m.irq 0 s.begun = some t) := by decide +kernel
theorem test_witness_DataMovers_5 :
   (let path : Nat := 0
    let n : Nat := 0
    let m : MoverRun := oneMove
    let v : BitVec 32 := 3
    let s : State := moverHalted
    let t := (((dmvEnd 0 1 3 0x7 0 false 0 moverHalted.begun).bind (abortQueued 4096 0 1)).getD (configured, 0)).1
    let k := 1
    dmvThere s n = true ∧ rgOwns s (dmv n) path = true ∧ fld s (rgState (dmv n)) = 2 ∧ tfind s.movers n = some m ∧ v.toNat % 4 = 3 ∧ (dmvEnd n m.op m.tag 0x7 m.done m.irq 0 s.begun).bind (abortQueued 4096 n 1) = some (t, k)) ∧
   (let n : Nat := 0
    let s : State := moving 0
    fld s (rgState (dmv n)) ≠ 2) ∧
   (let n : Nat := 0
    let s : State := moving 0
    fld s (rgState (dmv n)) ≠ 2) ∧
   (let n : Nat := 0
    let s : State := moving 0
    fld s (rgState (dmv n)) ≠ 2) := by decide +kernel

/-! Witnesses: mgmt -/

/-- The start sequence waits at its first step. -/
def booting : State := { configured with mgmt := { configured.mgmt with boot := 0 } }
/-- The start is at its last step, with everything ready. -/
def readyToServe : State :=
  let s := setF F.GLB_STATE_MODE 1 (setF F.MTL_STAT_STATE 1 (setF F.ICU_STAT_STATE 1 (setF F.QF_CTL_READY 1 configured)))
  { s with mgmt := { s.mgmt with boot := 9 }, mtl := { s.mtl with ready := true }, vault := { s.vault with dev := some ⟨0, 0, 0, 0⟩ } }
/-- A lifecycle advance to state t runs at step 1. -/
def advancing (t : Nat) : State := { configured with mgmt := { configured.mgmt with bg := some (.advance 4 t (zeros 48) 0 1) } }
/-- The Tuten bus in I3C mode. -/
def onI3c : State := setF F.MGMT_TUT_STAT_BUSMODE 1 configured
/-- An alert is pending. -/
def alerted : State := setF F.MGMT_ALERT_PENDING 1 configured
/-- The Tuten port has an endpoint ID. -/
def endpoint : State := setF F.MGMT_TUT_STAT_EID 8 configured
def endpointDeployed : State := setF F.MGMT_LC_STATE 2 endpoint
/-- A PLDM firmware update at state n. -/
def pldmAt (n : Nat) : State := { endpoint with mgmt := { endpoint.mgmt with pldmFw := n } }
theorem test_witness_Management_1 :
   (let s : State := booting
    s.sup.t0 = true ∧ s.mgmt.boot = 0 ∧ s.sup.mrLow = false ∧ bit s F.SF_STAT_WELLHEAD_LOST = false ∧ railFailed s 4 = false) ∧
   (let s : State := { booting with sup := { booting.sup with failed := 16 } }
    s.sup.t0 = true ∧ s.mgmt.boot = 0 ∧ s.sup.mrLow = false ∧ bit s F.SF_STAT_WELLHEAD_LOST = false ∧ railFailed s 4 = true) ∧
   (let s : State := readyToServe
    ((s.sup.t0 = false ∨ s.mgmt.boot ≠ 0))) ∧
   (let s : State := readyToServe
    activeDue s = true) ∧
   (let s : State := booting
    activeDue s = false) := by decide +kernel
theorem test_witness_Management_2 :
   (let core : Nat := 1
    let s : State := configured
    core < 4 ∧ (fld s F.MGMT_STAT_CORES).testBit core = true ∧ inRecovery s = false ∧ s.mgmt.restartDue = none) ∧
   (let s : State := { configured with mgmt := { configured.mgmt with restartDue := some (1, 0) } }
    inRecovery s = false ∧ s.mgmt.restartDue.isSome = true) ∧
   (let s : State := configured
    inRecovery s = false ∧ s.mgmt.restartDue = none ∧ fld s F.MGMT_STAT_CORES ≠ 0) ∧
   (let path : Nat := tuten
    let d : List Byte := zeros 296
    let s : State := configured
    taken path 0xC050 d s = true ∧ d.length = 296) ∧
   (let p : Nat := 4
    let t : Nat := 1
    let dg : List Byte := zeros 48
    let kek0 : BitVec 256 := 0
    let s : State := advancing 1
    s.mgmt.bg = some (.advance p t dg kek0 1) ∧ t = 1) := by decide +kernel
theorem test_witness_Management_3 :
   (let p : Nat := 4
    let t : Nat := 3
    let dg : List Byte := zeros 48
    let kek0 : BitVec 256 := 0
    let s : State := advancing 3
    s.mgmt.bg = some (.advance p t dg kek0 1) ∧ t ≠ 1) ∧
   (let path : Nat := tuten
    let d : List Byte := zeros 224
    let s : State := configured
    taken path 0xC051 d s = true ∧ d.length = 224 ∧ s.mgmt.tokenNew = none) ∧
   (let path : Nat := tuten
    let sec : Bool := false
    let s : State := configured
    taken path 0xC081 [0] s = true ∧ ((needsSession s false = false ∨ isSecured s path sec = true))) ∧
   (let path : Nat := tuten
    let sec : Bool := false
    let s : State := deployed
    taken path 0xC081 [0] s = true ∧ needsSession s false = true ∧ isSecured s path sec = false) := by decide +kernel
theorem test_witness_TutenPort_1 :
   (let s : State := configured
    s.pwr.st ≤ 3 ∧ bit s F.MGMT_TUT_STAT_BUSMODE = false) ∧
   (let s : State := onI3c
    s.pwr.st ≤ 3 ∧ bit s F.MGMT_TUT_STAT_BUSMODE = true) ∧
   (let s : State := onI3c
    let c := 0x80
    s.pwr.st ≤ 3 ∧ bit s F.MGMT_TUT_STAT_BUSMODE = true ∧ c ∈ [0x00, 0x80]) ∧
   (let s : State := onI3c
    let c := 0x01
    s.pwr.st ≤ 3 ∧ bit s F.MGMT_TUT_STAT_BUSMODE = true ∧ c ∈ [0x01, 0x81]) ∧
   (let s : State := onI3c
    s.pwr.st ≤ 3 ∧ bit s F.MGMT_TUT_STAT_BUSMODE = true) := by decide +kernel
theorem test_witness_TutenPort_2 :
   (let s : State := onI3c
    s.pwr.st ≤ 3 ∧ bit s F.MGMT_TUT_STAT_BUSMODE = true) ∧
   (let s : State := alerted
    s.pwr.st ≤ 3 ∧ bit s F.MGMT_TUT_STAT_BUSMODE = false ∧ bit s F.MGMT_ALERT_PENDING = true) ∧
   (let c : Nat := 1
    let arg : List Byte := [0, 8]
    let s : State := configured
    let pec := false
    s.pwr.st ≤ 3 ∧ arg.length ≤ 8192 ∧ ((pec = false ∨ bit s F.MGMT_TUT_STAT_BUSMODE = true)) ∧ c = 0x01 ∧ arg.length = 2 ∧ byteAt arg 0 % 4 < 2 ∧ 8 ≤ byteAt arg 1 ∧ byteAt arg 1 ≠ 255) ∧
   (let c : Nat := 1
    let arg : List Byte := [1, 254]
    let s : State := onI3c
    let pec := true
    s.pwr.st ≤ 3 ∧ arg.length ≤ 8192 ∧ ((pec = false ∨ bit s F.MGMT_TUT_STAT_BUSMODE = true)) ∧ c = 0x01 ∧ arg.length = 2 ∧ byteAt arg 0 % 4 < 2 ∧ 8 ≤ byteAt arg 1 ∧ byteAt arg 1 ≠ 255) ∧
   (let c : Nat := 2
    let arg : List Byte := []
    let s : State := endpoint
    let pec := false
    s.pwr.st ≤ 3 ∧ arg.length ≤ 8192 ∧ ((pec = false ∨ bit s F.MGMT_TUT_STAT_BUSMODE = true)) ∧ c = 0x02) := by decide +kernel
theorem test_witness_TutenPort_3 :
   (let c : Nat := 3
    let arg : List Byte := []
    let s : State := configured
    let pec := false
    s.pwr.st ≤ 3 ∧ arg.length ≤ 8192 ∧ ((pec = false ∨ bit s F.MGMT_TUT_STAT_BUSMODE = true)) ∧ c ∉ [0x01, 0x02, 0x04, 0x05]) ∧
   (let arg : List Byte := []
    let s : State := configured
    s.pwr.st ≤ 3 ∧ arg.length ≤ 8192 ∧ bit s F.MGMT_TUT_STAT_BUSMODE = false) ∧
   (let type : Nat := 0x7F
    let s : State := endpoint
    tutServes s = true ∧ mctpTypes.contains type = false) := by decide +kernel
theorem test_witness_TutenPort_4 :
   (let pec : Bool := false
    let sec : Bool := false
    let op : Nat := 0xC0FF
    let d : List Byte := []
    let i : Instr := (.unsupportedOpcode tuten 0xC0FF [])
    let s : State := endpoint
    s.pwr.st ≤ 2 ∧ hasEid s = true ∧ d.length ≤ 8192 ∧ ((pec = false ∨ bit s F.MGMT_TUT_STAT_BUSMODE = true)) ∧ (op, i) ∈ [(0x0001, Instr.identify tuten d), (0x0100, .getEventRecords tuten d), (0x0101, .clearEventRecords tuten d),
      (0x0200, .getFwInfo tuten d), (0x0300, .getTimestamp tuten d), (0x0301, .setTimestamp tuten d), (0x0400, .getSupportedLogs tuten d),
      (0x0401, .getLog tuten d), (0x4000, .identifyMemoryDevice tuten d), (0x4200, .getHealthInfo tuten d), (0x4300, .getPoisonList tuten d),
      (0x4304, .scanMedia tuten d), (0xC001, .ndxStage tuten d), (0xC011, .fwVerify tuten d), (0xC012, .fwActivate tuten d),
      (0xC020, .keyInstall tuten d), (0xC021, .keyRetire tuten d), (0xC030, .sedRead tuten d), (0xC050, .lifecycleAdvance tuten sec d),
      (0xC081, .resetDevice tuten sec d), (0x4101, .unsupportedOpcode tuten 0x4101 d), (0xC0FF, .unsupportedOpcode tuten 0xC0FF d)]) ∧
   (let n : Nat := 1
    let a : Nat := 0
    let s : State := endpoint
    pathReaches s tuten = true ∧ railFailed s 4 = false ∧ s.pwr.st < 3 ∧ fld s F.MGMT_STAT_CORES ≠ 0 ∧ fld s F.MGMT_TUT_STAT_EID ≠ 0 ∧ inRecovery s = false ∧ mmioStatus n a = 0 ∧ windowHeldMmio s false n a = false) := by decide +kernel
theorem test_witness_TutenPort_5 :
   (let n : Nat := 17
    let a : Nat := 0
    let s : State := endpoint
    pathReaches s tuten = true ∧ railFailed s 4 = false ∧ s.pwr.st < 3 ∧ fld s F.MGMT_STAT_CORES ≠ 0 ∧ fld s F.MGMT_TUT_STAT_EID ≠ 0 ∧ inRecovery s = false ∧ mmioStatus n a ≠ 0) ∧
   (let n : Nat := 1
    let a : Nat := Reg.OBS_PLUMB_CTL
    let s : State := { endpoint with pwr := { endpoint.pwr with st := 2 } }
    pathReaches s tuten = true ∧ railFailed s 4 = false ∧ s.pwr.st < 3 ∧ fld s F.MGMT_STAT_CORES ≠ 0 ∧ fld s F.MGMT_TUT_STAT_EID ≠ 0 ∧ inRecovery s = false ∧ mmioStatus n a = 0 ∧ windowHeldMmio s false n a = true) ∧
   (let sec : Bool := false
    let s : State := endpointDeployed
    pathReaches s tuten = true ∧ railFailed s 4 = false ∧ s.pwr.st < 3 ∧ fld s F.MGMT_STAT_CORES ≠ 0 ∧ fld s F.MGMT_TUT_STAT_EID ≠ 0 ∧ inRecovery s = false ∧ needsSession s false = true ∧ isSecured s tuten sec = false) ∧
   (let sec : Bool := false
    let n : Nat := 1
    let a : Nat := Reg.GLB_SCRATCH 0
    let l : List (BitVec 32) := [7]
    let s : State := endpoint
    pathReaches s tuten = true ∧ railFailed s 4 = false ∧ s.pwr.st < 3 ∧ fld s F.MGMT_STAT_CORES ≠ 0 ∧ fld s F.MGMT_TUT_STAT_EID ≠ 0 ∧ inRecovery s = false ∧ ((needsSession s false = false ∨ isSecured s tuten sec = true)) ∧ mmioStatus n a = 0 ∧ l.length = n ∧ windowHeldMmio s true n a = false) := by decide +kernel
theorem test_witness_TutenPort_6 :
   (let sec : Bool := false
    let n : Nat := 1
    let a : Nat := 0x4000000
    let s : State := endpoint
    pathReaches s tuten = true ∧ railFailed s 4 = false ∧ s.pwr.st < 3 ∧ fld s F.MGMT_STAT_CORES ≠ 0 ∧ fld s F.MGMT_TUT_STAT_EID ≠ 0 ∧ inRecovery s = false ∧ ((needsSession s false = false ∨ isSecured s tuten sec = true)) ∧ mmioStatus n a ≠ 0) := by decide +kernel
theorem test_witness_Pldm_1 :
   (let s : State := endpoint
    tutServes s = true ∧ hasEid s = true ∧ inRecovery s = false) ∧
   (let s : State := endpoint
    tutServes s = true ∧ hasEid s = true ∧ inRecovery s = false) ∧
   (let s : State := endpoint
    let c := 0x06
    tutServes s = true ∧ hasEid s = true ∧ inRecovery s = false ∧ c ∉ [0x01, 0x02, 0x03, 0x04, 0x05]) ∧
   (let s : State := endpoint
    tutServes s = true ∧ hasEid s = true ∧ inRecovery s = false) ∧
   (let arg : List Byte := [22, 0]
    let s : State := endpoint
    let v := (0 : Int)
    tutServes s = true ∧ hasEid s = true ∧ inRecovery s = false ∧ sensorValue s (at' arg 0 2) = some v) := by decide +kernel
theorem test_witness_Pldm_2 :
   (let arg : List Byte := [23, 0]
    let s : State := endpoint
    tutServes s = true ∧ hasEid s = true ∧ inRecovery s = false ∧ sensorValue s (at' arg 0 2) = none) ∧
   (let s : State := endpoint
    let c := 0x01
    tutServes s = true ∧ hasEid s = true ∧ inRecovery s = false ∧ c ∉ [0x04, 0x05, 0x11, 0x21, 0x50, 0x51]) ∧
   (let s : State := endpoint
    tutServes s = true ∧ hasEid s = true ∧ inRecovery s = false ∧ s.flash.handover = none) ∧
   (let s : State := pldmAt 3
    tutServes s = true ∧ hasEid s = true ∧ inRecovery s = false ∧ s.flash.handover = none) ∧
   (let s : State := endpoint
    tutServes s = true ∧ hasEid s = true ∧ inRecovery s = false ∧ s.flash.handover = none ∧ fwBusy s tuten = false ∧ s.mgmt.pldmFw = 0 ∧ fwUnowned s = true) := by decide +kernel
theorem test_witness_Pldm_3 :
   (let s : State := setF F.SF_FW_STAT_OWNER 0 endpoint
    tutServes s = true ∧ hasEid s = true ∧ inRecovery s = false ∧ s.flash.handover = none ∧ fwBusy s tuten = true) ∧
   (let s : State := endpoint
    tutServes s = true ∧ hasEid s = true ∧ inRecovery s = false ∧ s.flash.handover = none ∧ s.mgmt.pldmFw = 0) ∧
   (let s : State := pldmAt 1
    tutServes s = true ∧ hasEid s = true ∧ inRecovery s = false ∧ s.flash.handover = none ∧ s.mgmt.pldmFw = 1) ∧
   (let s : State := pldmAt 4
    tutServes s = true ∧ hasEid s = true ∧ inRecovery s = false ∧ s.flash.handover = none ∧ s.mgmt.pldmFw ≠ 0) := by decide +kernel

/-! Witnesses: flash -/

/-- Core 1 has an unlock sequence of Spring flash at step n, for command c on address a. -/
def unlocking (n c a : Nat) : State := { configured with flash := { configured.flash with seq := some ⟨1, n, c, false, a, 0xFFFFFFFF⟩ } }
/-- An erase of the sector at 0x1000000 runs. -/
def erasing : State := { configured with flash := { configured.flash with op := some ⟨true, 0x1000000, 0, true, 1⟩ } }
/-- Head 0 owns a firmware transfer. -/
def updating : State := setF F.SF_FW_STAT_OWNER 0 configured
/-- An image runs in half 0. -/
def runs : FwImage := ⟨0, 2, 3, 1, 5, 1, 9, zeros 48⟩
/-- A transferred image is verified. -/
def verified : State := setF F.SF_FW_STAT_STATE 3 { configured with flash := { configured.flash with half0 := some runs, verified := some { runs with slot := 1 } } }
/-- A trial runs in half 1. -/
def trial : State := setF F.SF_FW_SEL_TSTATE 2 (setF F.SF_FW_SEL_TRIAL 1 (setF F.SF_FW_SEL_RUNNING 1 (setF F.SF_FW_TRIAL_EPOCHS 30 configured)))
/-- A request for the Gauge store from head 0's mailbox. -/
def gaugeReq : GReq := ⟨.raise (.dev 1) 5, false, some 0, .none, 0⟩
/-- The Gauge store holds its writes for the supervisor. -/
def holding : State := setF F.SUP_STAT_STATE 2 { configured with gauge := { configured.gauge with held := some (0, 0, 1) } }
/-- The sensors read a full VAON. -/
def powered (s : State) : State := { s with therm := { s.therm with value := [(33, 330)] } }
/-- Sixteen bytes of an FW_BLOCK header, with the length and the last flag. -/
def fwHeader (n last : Nat) : List Byte := le 4 0 ++ le 1 last ++ [0] ++ le 2 n ++ zeros 8
/-- The recorder's region has been read. -/
def recorded : State := setF F.SED_STAT_READY 1 { configured with mtl := { configured.mtl with ready := true } }
theorem test_witness_SpringFlashCommands_1 :
   (let core : Nat := 0
    let q : SfSeq := ⟨1, 3, 0, false, 0, 0xFFFFFFFF⟩
    let s : State := unlocking 3 0 0
    sfThere s core = true ∧ s.flash.seq = some q ∧ q.core ≠ core) ∧
   (let core : Nat := 0
    let q : SfSeq := ⟨1, 3, 0, false, 0, 0xFFFFFFFF⟩
    let s : State := unlocking 3 0 0
    sfThere s core = true ∧ s.flash.seq = some q ∧ q.core ≠ core) ∧
   (let core : Nat := 0
    let q : SfSeq := ⟨1, 3, 0, false, 0, 0xFFFFFFFF⟩
    let s : State := unlocking 3 0 0
    sfThere s core = true ∧ s.flash.seq = some q ∧ q.core ≠ core) ∧
   (let core : Nat := 3
    let s : State := configured
    sfThere s core = true ∧ s.flash.seq = none) ∧
   (let core : Nat := 3
    let s : State := configured
    let v := (0xAB : BitVec 32)
    sfThere s core = true ∧ s.flash.seq = none ∧ v ≠ 0xAA) := by decide +kernel
theorem test_witness_SpringFlashCommands_2 :
   (let core : Nat := 1
    let q : SfSeq := ⟨1, 1, 0, false, 0, 0xFFFFFFFF⟩
    let s : State := unlocking 1 0 0
    sfThere s core = true ∧ s.flash.seq = some q ∧ q.core = core ∧ q.step = 1) ∧
   (let core : Nat := 1
    let q : SfSeq := ⟨1, 1, 0, false, 0, 0xFFFFFFFF⟩
    let s : State := unlocking 1 0 0
    let v := (0xAA : BitVec 32)
    sfThere s core = true ∧ s.flash.seq = some q ∧ q.core = core ∧ ((q.step ≠ 1 ∨ v ≠ 0x55))) ∧
   (let core : Nat := 1
    let fetch : Nat := 2 ^ 26
    let v : BitVec 32 := 0
    let q : SfSeq := ⟨1, 5, 0x10, false, 0x1000000, 0xFFFFFFFF⟩
    let s : State := flashPut 0x1000000 (le 8 0xFFFFFFFF) (unlocking 5 0x10 0x1000000)
    let x : SfOp := ⟨false, q.addr, BitVec.ofNat 64 (v.toNat * 2 ^ 32 + q.lo), q.self, core⟩
    let old := storedWord (sfWord s q.addr)
    sfThere s core = true ∧ s.flash.seq = some q ∧ q.core = core ∧ q.step = 5 ∧ q.cmd = 0x10 ∧ q.addr < 2 ^ 26 ∧ q.addr % 8 = 0 ∧ s.flash.op = none ∧ sfProtected q.addr = false ∧ ((q.self = true ∨ 2 ^ 26 ≤ fetch ∨ sfBank fetch ≠ sfBank q.addr)) ∧ sfLowV s = false ∧ codeword x.data = old) := by decide +kernel
theorem test_witness_SpringFlashCommands_3 :
   (let core : Nat := 1
    let fetch : Nat := 2 ^ 26
    let v : BitVec 32 := 0xFFFFFFFF
    let q : SfSeq := ⟨1, 5, 0x10, false, 0x1000000, 0xFFFFFFFF⟩
    let s : State := flashPut 0x1000000 [0] (unlocking 5 0x10 0x1000000)
    let x : SfOp := ⟨false, q.addr, BitVec.ofNat 64 (v.toNat * 2 ^ 32 + q.lo), q.self, core⟩
    let old := storedWord (sfWord s q.addr)
    sfThere s core = true ∧ s.flash.seq = some q ∧ q.core = core ∧ q.step = 5 ∧ q.cmd = 0x10 ∧ q.addr < 2 ^ 26 ∧ q.addr % 8 = 0 ∧ s.flash.op = none ∧ sfProtected q.addr = false ∧ ((q.self = true ∨ 2 ^ 26 ≤ fetch ∨ sfBank fetch ≠ sfBank q.addr)) ∧ sfLowV s = false ∧ codeword x.data ≠ old ∧ codeword x.data &&& ~~~ old ≠ 0) ∧
   (let core : Nat := 1
    let fetch : Nat := 2 ^ 26
    let v : BitVec 32 := 0
    let q : SfSeq := ⟨1, 5, 0x10, false, 0x3FDFFF8, 0xFFFFFFFF⟩
    let s : State := unlocking 5 0x10 0x3FDFFF8
    let x : SfOp := ⟨false, q.addr, BitVec.ofNat 64 (v.toNat * 2 ^ 32 + q.lo), q.self, core⟩
    let old := storedWord (sfWord s q.addr)
    sfThere s core = true ∧ s.flash.seq = some q ∧ q.core = core ∧ q.step = 5 ∧ q.cmd = 0x10 ∧ q.addr < 2 ^ 26 ∧ q.addr % 8 = 0 ∧ s.flash.op = none ∧ sfProtected q.addr = false ∧ ((q.self = true ∨ 2 ^ 26 ≤ fetch ∨ sfBank fetch ≠ sfBank q.addr)) ∧ sfLowV s = false ∧ codeword x.data ≠ old ∧ codeword x.data &&& ~~~ old = 0) := by decide +kernel
theorem test_witness_SpringFlashCommands_4 :
   (let core : Nat := 1
    let fetch : Nat := 0
    let q : SfSeq := ⟨1, 5, 0x20, false, 0x2000000, 0xFFFFFFFF⟩
    let s : State := unlocking 5 0x20 0x2000000
    sfThere s core = true ∧ s.flash.seq = some q ∧ q.core = core ∧ q.step = 5 ∧ q.cmd = 0x20 ∧ q.addr < 2 ^ 26 ∧ q.addr % 8 = 0 ∧ s.flash.op = none ∧ sfProtected q.addr = false ∧ ((q.self = true ∨ 2 ^ 26 ≤ fetch ∨ sfBank fetch ≠ sfBank q.addr)) ∧ sfLowV s = false) ∧
   (let core : Nat := 1
    let q : SfSeq := ⟨1, 5, 0x10, false, 0, 0xFFFFFFFF⟩
    let s : State := unlocking 5 0x10 0
    sfThere s core = true ∧ s.flash.seq = some q ∧ q.core = core ∧ q.step = 5 ∧ q.cmd = 0x10 ∧ sfProtected q.addr = true ∧ q.addr < 2 ^ 26 ∧ q.addr % 8 = 0 ∧ s.flash.op = none) ∧
   (let core : Nat := 1
    let v : BitVec 32 := 1
    let q : SfSeq := ⟨1, 5, 0x20, false, 0x2000000, 0xFFFFFFFF⟩
    let s : State := unlocking 5 0x20 0x2000000
    sfThere s core = true ∧ s.flash.seq = some q ∧ q.core = core ∧ q.step = 5 ∧ q.cmd = 0x20 ∧ v ≠ 0) ∧
   (let core : Nat := 1
    let q : SfSeq := ⟨1, 3, 0x30, false, 0, 0xFFFFFFFF⟩
    let s : State := unlocking 3 0x30 0
    sfThere s core = true ∧ s.flash.seq = some q ∧ q.core = core ∧ q.step = 3 ∧ q.cmd = 0x30) ∧
   (let core : Nat := 0
    let s : State := configured
    sfThere s core = true ∧ s.flash.seq = none) := by decide +kernel
theorem test_witness_SpringFlashCommands_5 :
   (let core : Nat := 0
    let s : State := erasing
    sfThere s core = true ∧ s.flash.seq = none) ∧
   (let core : Nat := 0
    let s : State := erasing
    sfThere s core = true ∧ s.flash.seq = none) ∧
   (let core : Nat := 0
    let s : State := configured
    sfThere s core = true ∧ s.flash.seq = none) ∧
   (let core : Nat := 0
    let v : BitVec 32 := 0x31
    let s : State := configured
    sfThere s core = true ∧ s.flash.seq = none ∧ v.toNat % 256 ∉ [0x30, 0x50, 0xB0, 0xD0, 0xF0]) ∧
   (let core : Nat := 1
    let q : SfSeq := ⟨1, 2, 0, false, 0, 0xFFFFFFFF⟩
    let s : State := unlocking 2 0 0
    sfThere s core = true ∧ s.flash.seq = some q ∧ q.core = core) := by decide +kernel
theorem test_witness_SpringFlashCommands_6 :
   (let s : State := unlocking 2 0 0
    s.flash.seq.isSome = true) ∧
   (let x : SfOp := ⟨true, 0x1000000, 0, true, 1⟩
    let s : State := erasing
    s.flash.nested = none ∧ s.flash.op = some x ∧ s.flash.suspended = false ∧ s.flash.autoSusp = false) ∧
   (let x : SfOp := ⟨true, 0x1000000, 0, true, 1⟩
    let s : State := erasing
    s.flash.nested = none ∧ s.flash.op = some x ∧ s.flash.suspended = false ∧ s.flash.autoSusp = false ∧ x.erase = true) ∧
   (let a : Nat := 2 ^ 26 - 1
    let s : State := erasing
    a < 2 ^ 26 ∧ s.pwr.st ≠ 4) ∧
   (let s : State := { erasing with flash := { erasing.flash with autoSusp := true } }
    s.flash.autoSusp = true) := by decide +kernel
theorem test_witness_SpringFlashCommands_7 :
   (let s : State := configured
    s.pwr.st ≠ 4) ∧
   (let s : State := configured
    s.pwr.st ≠ 4) := by decide +kernel
theorem test_witness_Firmware_1 :
   (let path : Nat := 0
    let d : List Byte := fwHeader 4096 0 ++ zeros 4096
    let s : State := configured
    let n := at' d 6 2
    let last := byteAt d 4
    let u := fwTouch path s.begun
    taken path 0xC010 d s = true ∧ 16 ≤ d.length ∧ d.length = 16 + at' d 6 2 ∧ n % 8 = 0 ∧ 8 ≤ n ∧ n ≤ 4096 ∧ last ≤ 1 ∧ (last = 0 → n = 4096) ∧ zeroAt d 5 1 = true ∧ zeroAt d 12 4 = true ∧ fwBusy u path = false ∧ u.mgmt.pldmFw = 0) ∧
   (let path : Nat := 1
    let d : List Byte := fwHeader 8 1 ++ zeros 8
    let s : State := updating
    let n := at' d 6 2
    let last := byteAt d 4
    let u := fwTouch path s.begun
    taken path 0xC010 d s = true ∧ 16 ≤ d.length ∧ d.length = 16 + at' d 6 2 ∧ n % 8 = 0 ∧ 8 ≤ n ∧ n ≤ 4096 ∧ last ≤ 1 ∧ (last = 0 → n = 4096) ∧ zeroAt d 5 1 = true ∧ zeroAt d 12 4 = true ∧ fwBusy u path = true) ∧
   (let path : Nat := 0
    let d : List Byte := fwHeader 7 1 ++ zeros 7
    let s : State := updating
    let n := at' d 6 2
    taken path 0xC010 d s = true ∧ 16 ≤ d.length ∧ d.length = 16 + at' d 6 2 ∧ n % 8 ≠ 0) ∧
   (let s : State := { updating with tick := { updating.tick with count := 524288 } }
    fwUnowned s = false ∧ s.flash.ownerTick + 2 * 262144 ≤ s.tick.count) ∧
   (let s : State := updating
    fwUnowned s = false ∧ s.tick.count < s.flash.ownerTick + 2 * 262144) := by decide +kernel
theorem test_witness_Firmware_2 :
   (let path : Nat := 0
    let s : State := updating
    taken path 0xC011 [] s = true ∧ fwOther s path = false ∧ s.mgmt.pldmFw = 0) ∧
   (let path : Nat := 1
    let s : State := updating
    taken path 0xC011 [] s = true ∧ ((fwOther s path = true ∨ s.mgmt.pldmFw ≠ 0))) ∧
   (let path : Nat := 0
    let d : List Byte := zeros 4
    let s : State := verified
    let u := fwTouch path s.begun
    let rc := fwActCheck u (byteAt d 0) (zeroAt d 1 3)
    taken path 0xC012 d s = true ∧ d.length = 4 ∧ fwOther s path = false ∧ s.mgmt.pldmFw = 0 ∧ rc = rcSuccess) ∧
   (let path : Nat := 0
    let d : List Byte := zeros 4
    let s : State := configured
    let u := fwTouch path s.begun
    let rc := fwActCheck u (byteAt d 0) (zeroAt d 1 3)
    taken path 0xC012 d s = true ∧ d.length = 4 ∧ fwOther s path = false ∧ s.mgmt.pldmFw = 0 ∧ rc ≠ rcSuccess) ∧
   (let path : Nat := 5
    let v : BitVec 32 := 0x100
    let s : State := trial
    isCore path = true ∧ v.getLsbD 8 = true ∧ fwSwitched s = true ∧ bit s F.SF_FW_TRIAL_HEALTHY = false ∧ fld s F.SF_FW_TRIAL_EPOCHS ≠ 0 ∧ fld s F.MGMT_STAT_CORES ≠ 0) := by decide +kernel
theorem test_witness_Firmware_3 :
   (let s : State := trial
    30 ≤ fld s F.SF_FW_TRIAL_EPOCHS ∧ bit s F.SF_FW_TRIAL_HEALTHY = false) ∧
   (let s : State := configured
    ((fld s F.SF_FW_TRIAL_EPOCHS < 30 ∨ bit s F.SF_FW_TRIAL_HEALTHY = true))) ∧
   (let path : Nat := 0
    let s : State := trial
    taken path 0xC013 [0, 0, 0, 0] s = true ∧ fld s F.SF_FW_SEL_TSTATE = 2) ∧
   (let path : Nat := 0
    let s : State := configured
    let svn := (runningImage s).elim 0 FwImage.svn
    let old := gCounter s (.dev 2)
    taken path 0xC013 [0, 0, 0, 0] s = true ∧ fld s F.SF_FW_SEL_TSTATE ≠ 2 ∧ svn ≤ old) ∧
   (let path : Nat := 0
    let s : State := verified
    let svn := (runningImage s).elim 0 FwImage.svn
    let old := gCounter s (.dev 2)
    taken path 0xC013 [0, 0, 0, 0] s = true ∧ fld s F.SF_FW_SEL_TSTATE ≠ 2 ∧ old < svn) := by decide +kernel
theorem test_witness_Firmware_4 :
   (let path : Nat := 0
    let s : State := configured
    taken path 0xC013 [1, 0, 0, 0] s = true ∧ fld s F.SF_FW_SEL_TSTATE ≠ 2) ∧
   (let path : Nat := 0
    let s : State := trial
    taken path 0xC013 [1, 0, 0, 0] s = true ∧ fld s F.SF_FW_SEL_TSTATE = 2) := by decide +kernel
theorem test_witness_GaugeAndRecorder_1 :
   (let s : State := { configured with gauge := { configured.gauge with cur := some ⟨gaugeReq, 3, 0⟩ } }
    s.gauge.cur.isSome = true) ∧
   (let s : State := configured
    s.gauge.cur = none) ∧
   (let s : State := powered { holding with gauge := { holding.gauge with prioQ := [gaugeReq] } }
    s.gauge.held.isSome = true ∧ s.gauge.cur = none ∧ s.gauge.prioQ ≠ [] ∧ gGrant s true = none) ∧
   (let s : State := powered { holding with gauge := { holding.gauge with normQ := [gaugeReq] } }
    s.gauge.held.isSome = true ∧ s.gauge.cur = none ∧ s.gauge.prioQ = [] ∧ s.gauge.normQ ≠ [] ∧ gGrant s false = none) ∧
   (let s : State := powered { holding with gauge := { holding.gauge with normQ := [gaugeReq] }, sup := { holding.sup with st := 3 } }
    s.gauge.held.isSome = true ∧ s.gauge.cur = none ∧ s.gauge.prioQ = [] ∧ s.gauge.normQ ≠ [] ∧ (gGrant s false).isSome = true) := by decide +kernel
theorem test_witness_GaugeAndRecorder_2 :
   (let s : State := holding
    s.gauge.held.isSome = true ∧ s.gauge.cur = none ∧ s.gauge.prioQ = [] ∧ s.gauge.normQ = []) ∧
   (let path : Nat := 0
    let e : Inflight := ⟨0, 0xC070, false, false⟩
    let s : State := { configured with gauge := { configured.gauge with normQ := [gaugeReq] }, tick := { configured.tick with count := 12500 }, mgmt := { configured.mgmt with inflight := [⟨0, 0xC070, false, false⟩] } }
    (s.gauge.prioQ ++ s.gauge.normQ ++ s.gauge.waiting).any (fun r => r.mailbox == some path && decide (r.since + 12500 ≤ s.tick.count)) = true ∧ s.mgmt.inflight.find? (fun e => e.path == path && !e.committed) = some e) ∧
   (let path : Nat := 0
    let s : State := { configured with gauge := { configured.gauge with normQ := [gaugeReq] } }
    (s.gauge.prioQ ++ s.gauge.normQ ++ s.gauge.waiting).any (fun r => r.mailbox == some path && decide (r.since + 12500 ≤ s.tick.count)) = false) ∧
   (let path : Nat := tuten
    let d : List Byte := [15, 0, 0, 0]
    let s : State := configured
    taken path 0xC070 d s = true ∧ d.length = 4 ∧ zeroAt d 1 3 = true ∧ byteAt d 0 ≤ 15) ∧
   (let path : Nat := tuten
    let d : List Byte := [16, 0, 0, 0]
    let s : State := configured
    taken path 0xC070 d s = true ∧ d.length = 4 ∧ zeroAt d 1 3 = true ∧ 15 < byteAt d 0) := by decide +kernel
theorem test_witness_GaugeAndRecorder_3 :
   (let path : Nat := tuten
    let sec : Bool := false
    let d : List Byte := [11, 0] ++ zeros 242
    let s : State := configured
    taken path 0xC071 d s = true ∧ d.length = 244 ∧ zeroAt d 1 1 = true ∧ ((needsSession s false = false ∨ isSecured s path sec = true)) ∧ byteAt d 0 < 12 ∧ inHalt s = false ∧ paramTrialBusy s (at' d 2 2) = false) ∧
   (let path : Nat := tuten
    let sec : Bool := false
    let d : List Byte := [12, 0] ++ zeros 242
    let s : State := configured
    taken path 0xC071 d s = true ∧ d.length = 244 ∧ zeroAt d 1 1 = true ∧ ((needsSession s false = false ∨ isSecured s path sec = true)) ∧ 12 ≤ byteAt d 0 ∧ byteAt d 0 ≤ 15) ∧
   (let path : Nat := tuten
    let sec : Bool := false
    let d : List Byte := [16, 0] ++ zeros 242
    let s : State := configured
    taken path 0xC071 d s = true ∧ d.length = 244 ∧ zeroAt d 1 1 = true ∧ ((needsSession s false = false ∨ isSecured s path sec = true)) ∧ 15 < byteAt d 0) ∧
   (let sev : Nat := 7
    let unit : Nat := 16
    sev < 8 ∧ unit ≤ 16) ∧
   (let s : State := { configured with mtl := { configured.mtl with ready := true } }
    bit s F.SED_STAT_READY = false ∧ s.mtl.ready = true) := by decide +kernel
theorem test_witness_GaugeAndRecorder_4 :
   (let s : State := recorded
    ((bit s F.SED_STAT_READY = true ∨ s.mtl.ready = false))) ∧
   (let path : Nat := tuten
    let d : List Byte := le 4 (sedNewest configured) ++ zeros 4
    let s : State := configured
    taken path 0xC031 d s = true ∧ d.length = 8 ∧ zeroAt d 4 4 = true ∧ sedAge s (at' d 0 4) < 2 ^ 31 ∧ sedAge s (at' d 0 4) ≤ sedAge s s.sed.mark) ∧
   (let path : Nat := tuten
    let d : List Byte := le 4 (sedNewest configured + 2 ^ 32 - 1) ++ zeros 4
    let s : State := { configured with sed := { configured.sed with mark := sedNewest configured } }
    taken path 0xC031 d s = true ∧ d.length = 8 ∧ zeroAt d 4 4 = true ∧ sedAge s (at' d 0 4) < 2 ^ 31 ∧ sedAge s s.sed.mark < sedAge s (at' d 0 4)) ∧
   (let path : Nat := tuten
    let d : List Byte := le 4 (sedNewest configured + 2 ^ 31) ++ zeros 4
    let s : State := configured
    taken path 0xC031 d s = true ∧ d.length = 8 ∧ zeroAt d 4 4 = true ∧ 2 ^ 31 ≤ sedAge s (at' d 0 4)) ∧
   (let path : Nat := tuten
    let d : List Byte := [0, 3, 255, 0, 255, 255, 255, 255]
    let s : State := configured
    taken path 0xC030 d s = true ∧ d.length = 8 ∧ byteAt d 0 ≤ 1 ∧ byteAt d 1 ≤ 7 ∧ at' d 2 2 ≠ 0 ∧ at' d 2 2 ≤ 255 ∧ at' d 4 4 = 0xFFFFFFFF) := by decide +kernel

/-! Witnesses: power -/

/-- IDLE, SLEEP and DEEP. -/
def idling : State := { configured with pwr := { configured.pwr with st := 1 } }
def asleep : State := { configured with pwr := { configured.pwr with st := 2 } }
def deepAsleep : State := { configured with pwr := { configured.pwr with st := 3 } }
/-- An entry into SLEEP, with unit 15 asked first. -/
def sleepEntry : Entry := ⟨2, 0, 0, some 0, 0, 0, 0, 0, none, false⟩
def entering : State := { configured with pwr := { configured.pwr with entry := some sleepEntry } }
/-- An entry into DEEP whose units have agreed and whose signatures are computed. -/
def deepEntry : Entry := ⟨3, 0, 11, some 2, 0, 0, 0, 0, none, true⟩
def signing : State := { configured with pwr := { configured.pwr with entry := some deepEntry } }
/-- The supervisor in another state. -/
def supIn (n : Nat) : State := { configured with sup := { configured.sup with st := n } }
/-- INTEGRITY HALT. -/
def halted : State := setF F.GLB_STATE_MODE 4 configured
/-- A flush, and the state it runs in. -/
def oneFlush : Flush := ⟨0, 3, 0, 0, 0, 2, false, 0, false, 1, 1, false⟩
def flushing : State := { configured with sup := { configured.sup with st := 4, flush := some oneFlush } }
/-- Rails 0 to 3 discharge in a power-down. -/
def goingDown : State := { configured with sup := { configured.sup with st := 5, en := 0, pg := 15, step := 15 } }
/-- A member of a SEICHE group, and its leader. -/
def member : State := { configured with sup := { configured.sup with part := true } }
def leader : State := { configured with sup := { configured.sup with part := true, leader := true } }
theorem test_witness_PowerRequests_1 :
   (let path : Nat := 0
    let target : Nat := 0
    let inp : List Byte := [0, 0, 0, 0]
    let c : Instr := (.pwrStateReqRun 0 [0, 0, 0, 0])
    let s : State := configured
    let rc := pwrCheck s.begun path target false
    (c, target) ∈ [(Instr.pwrStateReqRun path inp, 0), (.pwrStateReqIdle path inp, 1), (.pwrStateReqSleep path inp, 2),
      (.pwrStateReqDeep path inp, 3), (.pwrStateReqOff path inp, 4)] ∧ taken path 0xC040 (le 1 target ++ inp.drop 1) s = true ∧ inp.length = 4 ∧ zeroAt inp 1 3 = true ∧ rc = rcSuccess ∧ target = s.pwr.st) ∧
   (let path : Nat := tuten
    let target : Nat := 4
    let inp : List Byte := [0, 0, 0, 0]
    let c : Instr := (.pwrStateReqOff tuten [0, 0, 0, 0])
    let s : State := configured
    let rc := pwrCheck s.begun path target false
    (c, target) ∈ [(Instr.pwrStateReqRun path inp, 0), (.pwrStateReqIdle path inp, 1), (.pwrStateReqSleep path inp, 2),
      (.pwrStateReqDeep path inp, 3), (.pwrStateReqOff path inp, 4)] ∧ taken path 0xC040 (le 1 target ++ inp.drop 1) s = true ∧ inp.length = 4 ∧ zeroAt inp 1 3 = true ∧ rc = rcSuccess ∧ target ≠ s.pwr.st ∧ target = 4) := by decide +kernel
theorem test_witness_PowerRequests_2 :
   (let path : Nat := tuten
    let target : Nat := 3
    let inp : List Byte := [0, 0, 0, 0]
    let c : Instr := (.pwrStateReqDeep tuten [0, 0, 0, 0])
    let s : State := configured
    let rc := pwrCheck s.begun path target false
    (c, target) ∈ [(Instr.pwrStateReqRun path inp, 0), (.pwrStateReqIdle path inp, 1), (.pwrStateReqSleep path inp, 2),
      (.pwrStateReqDeep path inp, 3), (.pwrStateReqOff path inp, 4)] ∧ taken path 0xC040 (le 1 target ++ inp.drop 1) s = true ∧ inp.length = 4 ∧ zeroAt inp 1 3 = true ∧ rc = rcSuccess ∧ target ≠ s.pwr.st ∧ ((target = 2 ∨ target = 3)) ∧ s.pwr.st < 2) ∧
   (let path : Nat := tuten
    let target : Nat := 1
    let inp : List Byte := [0, 0, 0, 0]
    let c : Instr := (.pwrStateReqIdle tuten [0, 0, 0, 0])
    let s : State := configured
    let rc := pwrCheck s.begun path target false
    (c, target) ∈ [(Instr.pwrStateReqRun path inp, 0), (.pwrStateReqIdle path inp, 1), (.pwrStateReqSleep path inp, 2),
      (.pwrStateReqDeep path inp, 3), (.pwrStateReqOff path inp, 4)] ∧ taken path 0xC040 (le 1 target ++ inp.drop 1) s = true ∧ inp.length = 4 ∧ zeroAt inp 1 3 = true ∧ rc = rcSuccess ∧ target ≠ s.pwr.st ∧ target ≤ 1 ∧ s.pwr.st ≠ 2) := by decide +kernel
theorem test_witness_PowerRequests_3 :
   (let path : Nat := tuten
    let target : Nat := 0
    let inp : List Byte := [0, 0, 0, 0]
    let c : Instr := (.pwrStateReqRun tuten [0, 0, 0, 0])
    let s : State := asleep
    let rc := pwrCheck s.begun path target false
    (c, target) ∈ [(Instr.pwrStateReqRun path inp, 0), (.pwrStateReqIdle path inp, 1), (.pwrStateReqSleep path inp, 2),
      (.pwrStateReqDeep path inp, 3), (.pwrStateReqOff path inp, 4)] ∧ taken path 0xC040 (le 1 target ++ inp.drop 1) s = true ∧ inp.length = 4 ∧ zeroAt inp 1 3 = true ∧ rc = rcSuccess ∧ target ≤ 1 ∧ s.pwr.st = 2) ∧
   (let path : Nat := tuten
    let target : Nat := 2
    let inp : List Byte := [0, 0, 0, 0]
    let c : Instr := (.pwrStateReqSleep tuten [0, 0, 0, 0])
    let s : State := entering
    let rc := pwrCheck s.begun path target false
    (c, target) ∈ [(Instr.pwrStateReqRun path inp, 0), (.pwrStateReqIdle path inp, 1), (.pwrStateReqSleep path inp, 2),
      (.pwrStateReqDeep path inp, 3), (.pwrStateReqOff path inp, 4)] ∧ taken path 0xC040 (le 1 target ++ inp.drop 1) s = true ∧ inp.length = 4 ∧ zeroAt inp 1 3 = true ∧ rc ≠ rcSuccess) ∧
   (let path : Nat := tuten
    let inp : List Byte := [5, 0, 0, 0]
    let s : State := configured
    inp.length = 4 ∧ 4 < byteAt inp 0 ∧ taken path 0xC040 (le 1 (byteAt inp 0) ++ inp.drop 1) s = true) := by decide +kernel
theorem test_witness_PowerRequests_4 :
   (let u : Nat := 15
    let e : Entry := sleepEntry
    let s : State := { entering with cfg := some { oneRegion with enable := 0x7FFF, plumb := false, nrw := false, sounding := false } }
    inHalt s = false ∧ s.pwr.entry = some e ∧ askedUnit s = some u ∧ unitClamped s u = true) ∧
   (let u : Nat := 15
    let busy : Bool := true
    let e : Entry := sleepEntry
    let s : State := entering
    inHalt s = false ∧ s.pwr.entry = some e ∧ askedUnit s = some u ∧ unitClamped s u = false ∧ ((busy = true ∨ unitRefuses s.begun e u = true))) ∧
   (let u : Nat := 15
    let busy : Bool := false
    let e : Entry := sleepEntry
    let s : State := entering
    inHalt s = false ∧ s.pwr.entry = some e ∧ askedUnit s = some u ∧ unitClamped s u = false ∧ busy = false ∧ unitRefuses s.begun e u = false) ∧
   (let u : Nat := 5
    let busy : Bool := false
    let e : Entry := { sleepEntry with agreed := 9 }
    let s : State := { configured with pwr := { configured.pwr with entry := some { sleepEntry with agreed := 9 } } }
    inHalt s = false ∧ s.pwr.entry = some e ∧ askedUnit s = some u ∧ unitClamped s u = false ∧ busy = false ∧ unitRefuses s.begun e u = false) ∧
   (let s : State := halted
    inHalt s = true) := by decide +kernel
theorem test_witness_PowerRequests_5 :
   (let u : Nat := 7
    let s : State := entering
    inHalt s = false ∧ askedUnit s ≠ some u) ∧
   (let u : Nat := 15
    let s : State := configured
    inHalt s = false ∧ askedUnit s ≠ some u) ∧
   (let u : Nat := 15
    let e : Entry := sleepEntry
    let s : State := { entering with tick := { entering.tick with count := 62500 } }
    s.pwr.entry = some e ∧ askedUnit s = some u ∧ e.asked + fld s F.PWR_CTL_AGREE_MS * 250 ≤ s.tick.count) ∧
   (let u : Nat := 15
    let e : Entry := sleepEntry
    let s : State := entering
    s.pwr.entry = some e ∧ askedUnit s = some u ∧ s.tick.count < e.asked + fld s F.PWR_CTL_AGREE_MS * 250) ∧
   (let e : Entry := deepEntry
    let s : State := signing
    s.pwr.entry = some e ∧ e.signing = true ∧ e.agreed = 11 ∧ e.wake = none) := by decide +kernel
theorem test_witness_PowerRequests_6 :
   (let e : Entry := { deepEntry with wake := some 3 }
    let s : State := { configured with pwr := { configured.pwr with entry := some { deepEntry with wake := some 3 } } }
    s.pwr.entry = some e ∧ e.signing = true ∧ e.agreed = 11 ∧ e.wake.isSome = true) ∧
   (let c : Nat := 2
    let s : State := idling
    ((c = 2 ∨ c = 3)) ∧ s.pwr.st = 1) ∧
   (let src : Nat := 3
    let s : State := entering
    let e := sleepEntry
    src < 7 ∧ src ≠ 4 ∧ wakeOn s src = true ∧ s.pwr.entry = some e) ∧
   (let src : Nat := 0
    let s : State := deepAsleep
    src < 7 ∧ src ≠ 4 ∧ wakeOn s src = true ∧ s.pwr.entry = none ∧ ((s.pwr.st = 2 ∨ s.pwr.st = 3)) ∧ s.pwr.exit = none) ∧
   (let s : State := setF F.PWR_TIMER_LO_TICK 5 { asleep with tick := { asleep.tick with count := 5 } }
    let t := fld s F.PWR_TIMER_HI_TICK * 2 ^ 32 + fld s F.PWR_TIMER_LO_TICK
    t ≠ 0 ∧ t ≤ s.tick.count) := by decide +kernel
theorem test_witness_PowerRequests_7 :
   (let s : State := asleep
    let t := fld s F.PWR_TIMER_HI_TICK * 2 ^ 32 + fld s F.PWR_TIMER_LO_TICK
    ((t = 0 ∨ s.tick.count < t))) ∧
   (let left : Nat := 3
    let src : Nat := 3
    let t : Nat := 0
    let s : State := { deepAsleep with pwr := { deepAsleep.pwr with exit := some (3, 3, 0) } }
    s.pwr.exit = some (left, src, t)) ∧
   (let path : Nat := tuten
    let v : BitVec 32 := F.PWR_CTL_IDLE_TICKS.put 4095 (F.PWR_CTL_AGREE_MS.put 250 0)
    isMgmt path = true ∧ 1 ≤ F.PWR_CTL_IDLE_TICKS.get v ∧ F.PWR_CTL_IDLE_TICKS.get v ≤ 4095 ∧ 10 ≤ F.PWR_CTL_AGREE_MS.get v ∧ F.PWR_CTL_AGREE_MS.get v ≤ 250) ∧
   (let path : Nat := tuten
    let v : BitVec 32 := F.PWR_CTL_IDLE_TICKS.put 1 (F.PWR_CTL_AGREE_MS.put 9 0)
    isMgmt path = true ∧ ((F.PWR_CTL_AGREE_MS.get v < 10 ∨ 250 < F.PWR_CTL_AGREE_MS.get v ∨ F.PWR_CTL_IDLE_TICKS.get v < 1))) := by decide +kernel
theorem test_witness_PowerSequence_1 :
   (let s : State := supIn 7
    s.sup.st = 7) ∧
   (let s : State := supIn 2
    s.sup.st ≠ 7) ∧
   (let s : State := configured
    s.gauge.cur = none) ∧
   (let s : State := supIn 5
    s.sup.st < 6) ∧
   (let s : State := supIn 0
    s.sup.st = 0 ∧ ((s.sup.offTick = 0 ∨ s.sup.offTick + 25000 ≤ s.tick.count)) ∧ s.sup.part = false) := by decide +kernel
theorem test_witness_PowerSequence_2 :
   (let s : State := { supIn 0 with sup := { (supIn 0).sup with part := true, vinBad := true } }
    s.sup.st = 0 ∧ ((s.sup.offTick = 0 ∨ s.sup.offTick + 25000 ≤ s.tick.count)) ∧ s.sup.part = true) ∧
   (let s : State := supIn 2
    s.sup.st ≠ 0) ∧
   (let pg : BitVec 10 := 0x3FF
    let s : State := { supIn 1 with sup := { (supIn 1).sup with step := 3, seicheDone := false, up := 0, pg := 0 } }
    let m := railMask (upRails s.begun s.sup.step)
    let new := pg &&& m &&& ~~~ s.sup.failed
    let u := modSup (fun x => { x with pg := x.pg ||| new, up := x.up ||| new }) s.begun
    s.sup.st = 1 ∧ s.sup.seicheDone = false ∧ m &&& ~~~ (u.sup.up ||| u.sup.failed) = 0) ∧
   (let pg : BitVec 10 := 0
    let s : State := { supIn 1 with sup := { (supIn 1).sup with step := 3, seicheDone := false, up := 0, pg := 0 } }
    let m := railMask (upRails s.begun s.sup.step)
    let new := pg &&& m &&& ~~~ s.sup.failed
    let u := modSup (fun x => { x with pg := x.pg ||| new, up := x.up ||| new }) s.begun
    s.sup.st = 1 ∧ s.sup.seicheDone = false ∧ m &&& ~~~ (u.sup.up ||| u.sup.failed) ≠ 0) ∧
   (let rail : Nat := 1
    let s : State := { supIn 1 with sup := { (supIn 1).sup with step := 3, up := 0 } }
    s.sup.st = 1 ∧ (upRails s.begun s.sup.step).contains rail = true ∧ s.sup.up.getLsbD rail = false ∧ s.sup.failed.getLsbD rail = false) := by decide +kernel
theorem test_witness_PowerSequence_3 :
   (let s : State := { goingDown with sup := { goingDown.sup with step := 21 } }
    s.sup.st = 5 ∧ discharging s.begun ≠ 0 ∧ s.sup.reverse = false ∧ inGroup s = false ∧ 21 ≤ s.sup.step) ∧
   (let s : State := goingDown
    s.sup.st = 5 ∧ discharging s.begun ≠ 0 ∧ s.sup.reverse = false ∧ inGroup s = false ∧ s.sup.step < 21) ∧
   (let left : BitVec 10 := 1
    let s : State := { goingDown with sup := { goingDown.sup with reverse := true } }
    let l := left &&& discharging s.begun
    let u := forEach ((List.range 10).filter (fun n => l.getLsbD n)) (fun n s => sed 0x0D02 sWARNING 14 n (draw 16 s).1.toNat
      (draw 16 s).2.sup.step (draw 16 s).2)
      (modSup (fun x => { x with nodis := x.nodis ||| l, pg := x.pg &&& ~~~ discharging s.begun }) s.begun)
    s.sup.st = 5 ∧ discharging s.begun ≠ 0 ∧ u.sup.reverse = true) ∧
   (let left : BitVec 10 := 1
    let s : State := { goingDown with sup := { goingDown.sup with part := true } }
    let l := left &&& discharging s.begun
    let u := forEach ((List.range 10).filter (fun n => l.getLsbD n)) (fun n s => sed 0x0D02 sWARNING 14 n (draw 16 s).1.toNat
      (draw 16 s).2.sup.step (draw 16 s).2)
      (modSup (fun x => { x with nodis := x.nodis ||| l, pg := x.pg &&& ~~~ discharging s.begun }) s.begun)
    s.sup.st = 5 ∧ discharging s.begun ≠ 0 ∧ u.sup.reverse = false ∧ inGroup u = true) := by decide +kernel
theorem test_witness_PowerSequence_4 :
   (let src : Nat := 2
    let s : State := goingDown
    src < 3 ∧ ((s.sup.st = 5 ∨ (s.sup.st = 4 ∧ s.sup.toOff = true)))) ∧
   (let s : State := configured
    s.sup.st ≠ 5 ∧ s.sup.st ≠ 4) ∧
   (let r : Nat := 2
    let s : State := configured
    ((s.sup.st = 2 ∨ s.sup.st = 3)) ∧ s.sup.up.getLsbD r = true ∧ s.sup.pg.getLsbD r = true ∧ r = 2) ∧
   (let r : Nat := 3
    let s : State := configured
    ((s.sup.st = 2 ∨ s.sup.st = 3)) ∧ s.sup.up.getLsbD r = true ∧ s.sup.pg.getLsbD r = true ∧ r = 3) ∧
   (let r : Nat := 9
    let s : State := configured
    ((s.sup.st = 2 ∨ s.sup.st = 3)) ∧ s.sup.up.getLsbD r = true ∧ s.sup.pg.getLsbD r = true ∧ r = 9) := by decide +kernel
theorem test_witness_PowerSequence_5 :
   (let r : Nat := 0
    let s : State := supIn 3
    ((s.sup.st = 2 ∨ s.sup.st = 3)) ∧ s.sup.up.getLsbD r = true ∧ s.sup.pg.getLsbD r = true ∧ r ∉ [2, 3, 9]) := by decide +kernel
theorem test_witness_FlushAndGuard_1 :
   (let s : State := configured
    s.sup.st = 2) ∧
   (let s : State := supIn 3
    s.sup.st ≠ 2) ∧
   (let s : State := supIn 3
    s.sup.st = 3) ∧
   (let s : State := configured
    s.sup.st ≠ 3) ∧
   (let s : State := configured
    s.sup.st < 6) := by decide +kernel
theorem test_witness_FlushAndGuard_2 :
   (let cause : Nat := 7
    cause < 8) ∧
   (let f : Flush := { oneFlush with step := 4 }
    let s : State := { flushing with sup := { flushing.sup with flush := some { oneFlush with step := 4 } }, mtl := { flushing.mtl with wbuf := [(0, .raw [])] } }
    let u := flushCut s.begun
    let busy := !f.deep && coreOn u && f.mtlSt != 0
    let v := if busy && decide (f.step ≤ 3) then lcPumpAll (drain u) else u
    s.sup.flush = some f ∧ s.sup.st = 4 ∧ f.step < 5 ∧ busy = true ∧ drained v = false) ∧
   (let f : Flush := { oneFlush with mtlSt := 0 }
    let s : State := { flushing with sup := { flushing.sup with flush := some { oneFlush with mtlSt := 0 } } }
    let u := flushCut s.begun
    let busy := !f.deep && coreOn u && f.mtlSt != 0
    let v := if busy && decide (f.step ≤ 3) then lcPumpAll (drain u) else u
    s.sup.flush = some f ∧ s.sup.st = 4 ∧ f.step < 5 ∧ ((busy = false ∨ drained v = true))) ∧
   (let s : State := configured
    ((s.sup.flush = none ∨ s.sup.st ≠ 4))) ∧
   (let f : Flush := oneFlush
    let s : State := flushing
    s.sup.flush = some f ∧ s.sup.st = 4 ∧ f.step < 4) := by decide +kernel
theorem test_witness_FlushAndGuard_3 :
   (let ms : Nat := 50
    let s : State := asleep
    50 ≤ ms ∧ ms < 8000 ∧ s.sup.st < 6 ∧ ((s.pwr.st = 2 ∨ s.pwr.st = 3))) ∧
   (let ms : Nat := 7999
    let s : State := configured
    50 ≤ ms ∧ ms < 8000 ∧ s.sup.st < 6 ∧ s.pwr.st < 2 ∧ ((s.sup.st = 2 ∨ s.sup.st = 3))) ∧
   (let ms : Nat := 49
    ((ms < 50 ∨ 8000 ≤ ms))) ∧
   (let s : State := supIn 0
    s.sup.st < 6 ∧ s.sup.st = 0) ∧
   (let s : State := supIn 1
    s.sup.st < 6 ∧ s.sup.st = 1) := by decide +kernel
theorem test_witness_FlushAndGuard_4 :
   (let s : State := flushing
    s.sup.st < 6 ∧ s.sup.st = 4) ∧
   (let s : State := goingDown
    s.sup.st < 6 ∧ s.sup.st ∈ [2, 3, 5]) ∧
   (let s : State := configured
    s.sup.st < 6) ∧
   (let s : State := supIn 6
    s.sup.st = 6) ∧
   (let s : State := configured
    s.sup.st ≠ 6) := by decide +kernel
theorem test_witness_FlushAndGuard_5 :
   (let s : State := configured
    s.sup.st < 6 ∧ s.sup.refclk = true) := by decide +kernel
theorem test_witness_ReservoirAndSeiche_1 :
   (let s : State := configured
    s.sup.st < 6) ∧
   (let s : State := supIn 6
    6 ≤ s.sup.st) ∧
   (let s : State := { configured with sup := { configured.sup with charging := true, firstTarget := true } }
    s.sup.charging = true ∧ s.sup.firstTarget = true) ∧
   (let s : State := { configured with sup := { configured.sup with charging := true } }
    s.sup.charging = true ∧ s.sup.firstTarget = false) ∧
   (let why : Nat := 1
    let v : Nat := 2799
    let s : State := configured
    s.sup.st < 6 ∧ s.sup.faulted = false ∧ (((why = 1 ∧ v < 2800) ∨ (why = 2 ∧ 3150 < v)))) := by decide +kernel
theorem test_witness_ReservoirAndSeiche_2 :
   (let why : Nat := 2
    let v : Nat := 3150
    let s : State := configured
    s.sup.st < 6 ∧ s.sup.faulted = false ∧ ((why = 1 ∧ 2800 ≤ v) ∨ (why = 2 ∧ v ≤ 3150))) ∧
   (let cause : Nat := 2
    let s : State := configured
    s.sup.st < 6 ∧ s.sup.testing = false ∧ ((cause = 0 ∨ cause = 2 ∨ (cause = 1 ∧ s.sup.testEpoch + 4096 ≤ epoch s)))) ∧
   (let cause : Nat := 1
    let s : State := configured
    s.sup.st < 6 ∧ s.sup.testing = false ∧ cause = 1 ∧ epoch s < s.sup.testEpoch + 4096) ∧
   (let s : State := { configured with sup := { configured.sup with testing := true } }
    s.sup.testing = true) ∧
   (let path : Nat := tuten
    let v : BitVec 32 := F.SUP_RES_CTL_TARGET.put 250 0
    let t := F.SUP_RES_CTL_TARGET.get v
    isMgmt path = true ∧ 250 ≤ t ∧ t ≤ 310 ∧ v.getLsbD 16 = false) := by decide +kernel
theorem test_witness_ReservoirAndSeiche_3 :
   (let path : Nat := tuten
    let v : BitVec 32 := F.SUP_RES_CTL_TARGET.put 249 0
    let t := F.SUP_RES_CTL_TARGET.get v
    isMgmt path = true ∧ ((t < 250 ∨ 310 < t)) ∧ v.getLsbD 16 = false) ∧
   (let path : Nat := tuten
    let v : BitVec 32 := F.SUP_GUARD_RATE.put 56 0
    let r := F.SUP_GUARD_RATE.get v
    isMgmt path = true ∧ 4 ≤ r ∧ r ≤ 56) ∧
   (let path : Nat := tuten
    let v : BitVec 32 := F.SUP_GUARD_RATE.put 3 0
    let r := F.SUP_GUARD_RATE.get v
    isMgmt path = true ∧ ((r < 4 ∨ 56 < r))) ∧
   (let n : Nat := 22
    let t : State := (seicheBegin 22 member.begun).getD member
    let s : State := member
    inGroup s = true ∧ s.sup.leader = false ∧ n < 23 ∧ seicheBegin n s.begun = some t) ∧
   (let n : Nat := 24
    let ok : Bool := true
    let s : State := member
    inGroup s = true ∧ s.sup.leader = false ∧ ((ok = false ∨ 23 < n ∨ (n ≠ 23 ∧ seicheBegin n s.begun = none)))) := by decide +kernel
theorem test_witness_ReservoirAndSeiche_4 :
   (let n : Nat := 23
    let ok : Bool := true
    let s : State := member
    inGroup s = true ∧ s.sup.leader = false ∧ ok = true ∧ n = 23) ∧
   (let ok : Bool := true
    let n : Nat := 14
    let t : State := (seicheBegin 14 ({ leader with sup := { leader.sup with seiche := 22, st := 4 } }).begun).getD leader
    let s : State := { leader with sup := { leader.sup with seiche := 22, st := 4 } }
    let u := modSup (fun x => { x with flush := x.flush.map (fun f => { f with vinOk := f.vinOk && ok }) }) s.begun
    inGroup s = true ∧ s.sup.leader = true ∧ s.sup.seicheDone = true ∧ seicheNext u = some n ∧ seicheBegin n u = some t) ∧
   (let ok : Bool := true
    let s : State := leader
    let u := modSup (fun x => { x with flush := x.flush.map (fun f => { f with vinOk := f.vinOk && ok }) }) s.begun
    inGroup s = true ∧ s.sup.leader = true ∧ s.sup.seicheDone = true ∧ seicheNext u = none) ∧
   (let us : Nat := 200
    let t : State := (seicheBegin 22 leader.begun).getD leader
    let s : State := leader
    inGroup s = true ∧ s.sup.leader = true ∧ s.sup.seiche = 13 ∧ 200 ≤ us ∧ us ≤ 1000 ∧ seicheBegin 22 s.begun = some t) ∧
   (let us : Nat := 199
    let s : State := leader
    inGroup s = true ∧ s.sup.leader = true ∧ s.sup.seiche = 13 ∧ ((us < 200 ∨ 1000 < us))) := by decide +kernel
theorem test_witness_ReservoirAndSeiche_5 :
   (let cause : Nat := 2
    let s : State := leader
    (((cause = 1 ∧ s.sup.leader = false) ∨ (cause = 2 ∧ s.sup.leader = true) ∨ cause = 0 ∨ cause = 3))) := by decide +kernel

/-! Witnesses: narrows -/

/-- Positions 0 and 1 of a board of three form a group over link 0. -/
def paired : NarrowsCfg := ⟨1, 5, 2, [0, 1], false⟩
/-- The primary of a group whose link runs; the other member is in sync. -/
def leading : State :=
  let s := { configured with cfg := some { oneRegion with topo := 1, count := 3, pos := 0, narrows := some paired },
                             mtl := { configured.mtl with ready := true } }
  { s with nrw := { s.nrw with group := 2, grp := { s.nrw.grp with isPrimary := true, primary := 0 }
                               links := [(0, { NLink.init with st := 3, width := 4, peer := 1 })]
                               mems := [(1, { NMem.init with st := 1 })] } }
/-- The same link without a session. -/
def unlinked : State := { leading with nrw := { leading.nrw with links := [] } }
/-- A replica of the group that knows the next RSEQ. -/
def following : State :=
  { leading with nrw := { leading.nrw with grp := { leading.nrw.grp with isPrimary := false, primary := 1 }, applySet := true } }
/-- The other member is in resync, with its first region dirty. -/
def resyncing : State := { leading with nrw := { leading.nrw with mems := [(1, { NMem.init with st := 2, bits := some [0] })] } }
/-- STATUS of the other member has not come. -/
def forming : State := { leading with nrw := { leading.nrw with group := 1, mems := [] } }
theorem test_witness_NarrowsFrames_1 :
   (let n : Nat := 0
    let width : Nat := 4
    let chain : Bool := false
    let s : State := unlinked
    linkEnabled s n = true ∧ n < 2 ∧ inHalt s = false ∧ inFlush s = false ∧ coreOn s = true ∧ s.pwr.stopped.contains 15 = false ∧ ((width = 4 ∨ width = 2)) ∧ (linkOf s n).st ≠ 3 ∧ chain = false) ∧
   (let n : Nat := 0
    let width : Nat := 2
    let serial : Nat := 5
    let chain : Bool := true
    let s : State := { unlinked with nrw := { unlinked.nrw with grp := { unlinked.nrw.grp with serials := [1, 2, 0] } } }
    let p := facing s n
    linkEnabled s n = true ∧ n < 2 ∧ inHalt s = false ∧ inFlush s = false ∧ coreOn s = true ∧ s.pwr.stopped.contains 15 = false ∧ ((width = 4 ∨ width = 2)) ∧ (linkOf s n).st ≠ 3 ∧ chain = true ∧ serialOk s.begun p serial = false) ∧
   (let n : Nat := 0
    let width : Nat := 4
    let serial : Nat := 0
    let chain : Bool := true
    let s : State := unlinked
    let p := facing s n
    linkEnabled s n = true ∧ n < 2 ∧ inHalt s = false ∧ inFlush s = false ∧ coreOn s = true ∧ s.pwr.stopped.contains 15 = false ∧ ((width = 4 ∨ width = 2)) ∧ (linkOf s n).st ≠ 3 ∧ chain = true ∧ serialOk s.begun p serial = true) ∧
   (let n : Nat := 0
    let s : State := leading
    ((linkEnabled s n = false ∨ (linkOf s n).st = 3))) := by decide +kernel
theorem test_witness_NarrowsFrames_2 :
   (let n : Nat := 0
    let s : State := following
    n < 2 ∧ linkRuns s n = true ∧ nrwReplica s = true ∧ inFlush s = false ∧ s.nrw.applySet = true ∧ (queueOf s.begun (16 + n)).occ < 512) ∧
   (let n : Nat := 0
    let s : State := following
    n < 2 ∧ linkRuns s n = true ∧ nrwReplica s = true ∧ inFlush s = false ∧ s.nrw.applySet = true ∧ (queueOf s.begun (16 + n)).occ < 512) ∧
   (let n : Nat := 0
    let s : State := following
    n < 2 ∧ linkRuns s n = true ∧ nrwReplica s = true ∧ inFlush s = false ∧ s.nrw.applySet = true ∧ (queueOf s.begun (16 + n)).occ < 512) ∧
   (let n : Nat := 0
    let s : State := following
    n < 2 ∧ linkRuns s n = true ∧ nrwReplica s = true ∧ inFlush s = false ∧ s.nrw.applySet = true ∧ (queueOf s.begun (16 + n)).occ < 512) ∧
   (let n : Nat := 0
    let line : Nat := 0
    let t : Nat := 0
    let s : State := resyncing
    let u : State := ((placeFrame 1 0 resyncing.begun).getD (resyncing, 0)).1
    linkRuns s n = true ∧ (memOf s (facing s n)).st = 2 ∧ amSource s (facing s n) = true ∧ slicesServe s = true ∧ line < lineEnd s ∧ placeFrame (facing s n) line s.begun = some (u, t)) := by decide +kernel
theorem test_witness_NarrowsFrames_3 :
   (let n : Nat := 0
    let pos : Nat := 1
    let relay : Bool := true
    let s : State := leading
    let p := if relay then pos else facing s n
    linkRuns s n = true ∧ (peers s).contains p = true) ∧
   (let n : Nat := 0
    let s : State := leading
    linkRuns s n = true) ∧
   (let n : Nat := 0
    let s : State := { following with nrw := { following.nrw with applySet := false } }
    linkRuns s n = true ∧ nrwReplica s = true ∧ s.nrw.applySet = false) ∧
   (let n : Nat := 0
    let pos : Nat := 1
    let group : Nat := 6
    let nmem : Nat := 2
    let ack : Bool := false
    let members : List Nat := [0, 1]
    let c : NarrowsCfg := paired
    let s : State := leading
    cfgNrw s = some c ∧ linkRuns s n = true ∧ (behind s n).contains pos = true ∧ nrwConfigBad s = none ∧ ((group ≠ c.group ∨ nmem ≠ c.nmem ∨ members.take c.nmem ≠ c.members ∨ ack ≠ c.async))) ∧
   (let n : Nat := 0
    let pos : Nat := 1
    let dig : List Byte := [1]
    let c : NarrowsCfg := paired
    let s : State := leading
    cfgNrw s = some c ∧ linkRuns s n = true ∧ (behind s n).contains pos = true ∧ nrwConfigBad s = none ∧ c.members.take c.nmem = c.members ∧ dig ≠ s.nrw.digest) := by decide +kernel
theorem test_witness_NarrowsFrames_4 :
   (let n : Nat := 0
    let pos : Nat := 1
    let c : NarrowsCfg := paired
    let s : State := forming
    cfgNrw s = some c ∧ linkRuns s n = true ∧ (behind s n).contains pos = true ∧ nrwConfigBad s = none ∧ c.members.take c.nmem = c.members) ∧
   (let n : Nat := 0
    let pos : Nat := 1
    let st : Nat := 1
    let c : NarrowsCfg := paired
    let s : State := { leading with nrw := { leading.nrw with mems := [(1, { NMem.init with st := 1, seen := true })] } }
    cfgNrw s = some c ∧ linkRuns s n = true ∧ (behind s n).contains pos = true ∧ nrwConfigBad s = none ∧ c.members.take c.nmem = c.members) ∧
   (let n : Nat := 0
    let pos : Nat := 1
    let st : Nat := 1
    let primary : Bool := true
    let c : NarrowsCfg := paired
    let s : State := { following with nrw := { following.nrw with grp := { following.nrw.grp with primary := 2 }, mems := [(1, { NMem.init with st := 2, seen := true })] } }
    cfgNrw s = some c ∧ linkRuns s n = true ∧ (behind s n).contains pos = true ∧ nrwConfigBad s = none ∧ c.members.take c.nmem = c.members) ∧
   (let n : Nat := 0
    let s : State := leading
    linkRuns s n = true) ∧
   (let n : Nat := 0
    let s : State := leading
    linkRuns s n = true) := by decide +kernel
theorem test_witness_NarrowsFrames_5 :
   (let n : Nat := 0
    let path : Nat := 0
    let s : State := { following with nrw := { following.nrw with handoff := some (0, true) } }
    linkRuns s n = true ∧ s.nrw.handoff = some (path, true) ∧ nrwReplica s = true) ∧
   (let n : Nat := 0
    let s : State := leading
    linkRuns s n = true ∧ s.nrw.handoff = none ∧ nrwPrimary s = true) ∧
   (let n : Nat := 0
    let path : Nat := 0
    let s : State := { leading with nrw := { leading.nrw with handoff := some (0, false) } }
    linkRuns s n = true ∧ s.nrw.handoff = some (path, false)) ∧
   (let n : Nat := 0
    let rseq : Nat := 5
    let key : Nat := 0
    let line : Nat := 0
    let d : Line := 1
    let poison : Bool := false
    let resync : Bool := false
    let relay : Bool := false
    let up : Upset := .none
    let bits : BitVec 512 := 1
    let c : Instr := (.nrwLeaveFrame 0)
    let s : State := unlinked
    linkRuns s n = false ∧ c ∈ [Instr.nrwWriteFrame n rseq key line d poison resync relay up, .nrwZeroFrame n rseq key line resync relay,
      .nrwReleaseFrame n rseq line relay, .nrwBitmapFrame n rseq line bits, .nrwFetchFrame n line, .nrwAckFrame n rseq relay key,
      .nrwResendFrame n rseq, .nrwHeartbeatFrame n rseq, .nrwLeaveFrame n, .nrwHandoffFrame n rseq, .nrwTagFail n]) := by decide +kernel
theorem test_witness_NarrowsGroup_1 :
   (let n : Nat := 0
    let s : State := leading
    linkEnabled s n = true) ∧
   (let n : Nat := 1
    let s : State := leading
    linkEnabled s n = false) ∧
   (let p : Nat := 1
    let cause : Nat := 6
    let s : State := leading
    nrwOn s = true ∧ inHalt s = false ∧ fenceDue s p cause = true ∧ cause ≠ 1) ∧
   (let p : Nat := 1
    let cause : Nat := 1
    let s : State := leading
    nrwOn s = true ∧ inHalt s = false ∧ fenceDue s p cause = true ∧ cause = 1) ∧
   (let p : Nat := 1
    let cause : Nat := 2
    let s : State := leading
    ((nrwOn s = false ∨ inHalt s = true ∨ fenceDue s p cause = false))) := by decide +kernel
theorem test_witness_NarrowsGroup_2 :
   (let s : State := { resyncing with nrw := { resyncing.nrw with walk := some (1, 0, 0) } }
    let p := 1
    let k := 0
    let l := 0
    nrwOn s = true ∧ 2 ≤ s.nrw.group ∧ inHalt s = false ∧ inFlush s = false ∧ effShare s 7 ≠ 0 ∧ slicesServe s = true ∧ s.mtl.ready = true ∧ s.nrw.walk = some (p, k, l) ∧ linkRuns s (linkTo s p l) = true) ∧
   (let s : State := resyncing
    let p := 1
    nrwOn s = true ∧ 2 ≤ s.nrw.group ∧ inHalt s = false ∧ inFlush s = false ∧ effShare s 7 ≠ 0 ∧ slicesServe s = true ∧ s.mtl.ready = true ∧ s.nrw.walk = none ∧ (peers s).find? (fun p => (memOf s p).st == 2 && amSource s p) = some p ∧ linkRuns s (linkTo s p 0) = true) ∧
   (let s : State := leading
    nrwOn s = true ∧ 2 ≤ s.nrw.group ∧ inHalt s = false ∧ inFlush s = false ∧ effShare s 7 ≠ 0 ∧ slicesServe s = true ∧ s.mtl.ready = true ∧ s.nrw.walk = none ∧ (peers s).find? (fun p => (memOf s p).st == 2 && amSource s p) = none) ∧
   (let path : Nat := 0
    let inp : List Byte := zeros 32
    let s : State := leading
    taken path 0xC060 inp s = true ∧ inp.length = 32 ∧ groupCheck s.begun (withAction 0 inp) = rcSuccess) ∧
   (let path : Nat := tuten
    let inp : List Byte := zeros 32
    let s : State := leading
    taken path 0xC060 inp s = true ∧ inp.length = 32 ∧ groupCheck s.begun (withAction 2 inp) = rcSuccess ∧ byteAt inp 0 ≤ 2) := by decide +kernel
theorem test_witness_NarrowsGroup_3 :
   (let path : Nat := 0
    let inp : List Byte := zeros 32
    let s : State := { following with nrw := { following.nrw with mems := [(1, { NMem.init with st := 1 })] } }
    taken path 0xC060 inp s = true ∧ inp.length = 32 ∧ groupCheck s.begun (withAction 1 inp) = rcSuccess ∧ (memOf s s.nrw.grp.primary).st = 1 ∧ s.nrw.stale = false) ∧
   (let path : Nat := 0
    let inp : List Byte := zeros 32
    let s : State := { following with nrw := { following.nrw with mems := [] } }
    taken path 0xC060 inp s = true ∧ inp.length = 32 ∧ groupCheck s.begun (withAction 1 inp) = rcSuccess ∧ (((memOf s s.nrw.grp.primary).st ≠ 1 ∨ s.nrw.stale = true))) ∧
   (let path : Nat := 0
    let inp : List Byte := zeros 32
    let s : State := configured
    let c : Instr := (.nrwGroupSetSerials 0 (zeros 32))
    let act : Nat := 0
    taken path 0xC060 inp s = true ∧ inp.length = 32 ∧ (c, act) ∈ [(Instr.nrwGroupSetSerials path inp, 0), (.nrwGroupSetPromote path inp, 1),
        (.nrwGroupSetSolo path inp, 2)] ∧ groupCheck s.begun (withAction act inp) ≠ rcSuccess) ∧
   (let path : Nat := 0
    let inp : List Byte := [1, 0, 0, 0]
    let s : State := leading
    let d := withAction2 0 inp
    let p := byteAt inp 0
    taken path 0xC061 inp s = true ∧ inp.length = 4 ∧ byteAt d 0 = p ∧ byteAt d 1 = 0 ∧ zeroAt d 2 2 = true ∧ nrwOn s = true ∧ (peers s).contains p = true) := by decide +kernel
theorem test_witness_NarrowsGroup_4 :
   (let path : Nat := 0
    let inp : List Byte := [1, 1, 0, 0]
    let s : State := leading
    let e := withAction2 1 inp
    let p := byteAt inp 0
    taken path 0xC061 inp s = true ∧ inp.length = 4 ∧ byteAt e 0 = p ∧ byteAt e 1 = 1 ∧ zeroAt e 2 2 = true ∧ nrwOn s = true ∧ (peers s).contains p = true ∧ (amSource s p = true ∧ 2 ≤ s.nrw.group ∧ ((memOf s p).st = 1 ∨ (memOf s p).st = 2))) ∧
   (let path : Nat := 0
    let inp : List Byte := [1, 1, 0, 0]
    let s : State := { leading with nrw := { leading.nrw with mems := [(1, { NMem.init with st := 3 })] } }
    let e := withAction2 1 inp
    let p := byteAt inp 0
    taken path 0xC061 inp s = true ∧ inp.length = 4 ∧ byteAt e 0 = p ∧ byteAt e 1 = 1 ∧ zeroAt e 2 2 = true ∧ nrwOn s = true ∧ (peers s).contains p = true ∧ (amSource s p = false ∨ s.nrw.group < 2 ∨ ((memOf s p).st ≠ 1 ∧ (memOf s p).st ≠ 2))) ∧
   (let path : Nat := 0
    let inp : List Byte := [1, 1, 0, 1]
    let s : State := leading
    let e := withAction2 1 inp
    taken path 0xC061 inp s = true ∧ inp.length = 4 ∧ zeroAt e 2 2 = false) := by decide +kernel

/-! Witnesses: obs -/

/-- A request of head 0 that Plumb follows, at its end. -/
def plumbed : Sample := ⟨7, 0, 0, false, false, false, 0, 0, 1, 1, 0, 0, 0, 0, 0, 0, true⟩
/-- Plumb and the Sounding port run; one request is followed. -/
def observing : State :=
  { configured with obs := { configured.obs with active := true, sndActive := true, flying := [plumbed], ring := [plumbed] } }
/-- The Sounding port after its first slot, with a frame waiting. -/
def sounding : State := { observing with obs := { observing.obs with slot := 1, fifos := [(9, [⟨9, 15, 0, 0, zeros 16, 0⟩])] } }
/-- PD_CORE is off in SLEEP. -/
def unobserved : State := { configured with pwr := { configured.pwr with st := 2 } }
/-- The test access port may run: MR_N and every PERST_N low for 1 ms. -/
def testing : State :=
  { configured with sup := { configured.sup with mrLow := true }
                    heads := (List.range 4).map (fun h => (h, { headOf configured h with perst := true }))
                    tick := { configured.tick with count := 250 } }
theorem test_witness_Observation_1 :
   (let j : Nat := 7
    let s : State := observing
    unitOn s 15 = true ∧ coreOn s = true ∧ j < 8) ∧
   (let h : Nat := 0
    let tag : Nat := 7
    let latency : Nat := 0
    let x : Sample := plumbed
    let s : State := setF F.OBS_PLUMB_LAT_MIN_LAT 1 observing
    let p : Sample → Bool := fun x => x.head == h && x.seq == tag && x.ended
    s.obs.flying.find? p = some x ∧ latency < fld s F.OBS_PLUMB_LAT_MIN_LAT) ∧
   (let h : Nat := 0
    let tag : Nat := 7
    let latency : Nat := 5
    let x : Sample := plumbed
    let s : State := observing
    let p : Sample → Bool := fun x => x.head == h && x.seq == tag && x.ended
    s.obs.flying.find? p = some x ∧ fld s F.OBS_PLUMB_LAT_MIN_LAT ≤ latency) ∧
   (let h : Nat := 0
    let tag : Nat := 8
    let s : State := observing
    s.obs.flying.find? (fun x => x.head == h && x.seq == tag && x.ended) = none) ∧
   (let path : Nat := tuten
    let s : State := observing
    unitOn s 15 = true ∧ coreOn s = true ∧ plumbOn s = true ∧ plumbOwner s path = true) := by decide +kernel
theorem test_witness_Observation_2 :
   (let path : Nat := 1
    let s : State := observing
    ((unitOn s 15 = false ∨ coreOn s = false ∨ plumbOn s = false ∨ plumbOwner s path = false))) ∧
   (let cause : Nat := 0
    let s : State := observing
    plumbStopDue s cause = true ∧ s.obs.active = true) ∧
   (let cause : Nat := 3
    let s : State := observing
    ((plumbStopDue s cause = false ∨ s.obs.active = false))) ∧
   (let s : State := observing
    s.obs.sndActive = true ∧ s.obs.slot = 0) ∧
   (let s : State := sounding
    let step := fun (s : State) => { s with obs := { s.obs with slot := s.obs.slot + 1 } }
    let n := ((s.obs.fifos.map (fun e => e.2.length)).foldl (· + ·) 0) + 1
    let u := (nextFrame 2 { sounding.begun with obs := { sounding.obs with slot := 2 } }).1
    let f := ⟨9, 15, 0, 0, zeros 16, 0⟩
    s.obs.sndActive = true ∧ 1 ≤ s.obs.slot ∧ s.obs.slot < 125 ∧ nextFrame n (step s.begun) = (u, some f)) := by decide +kernel
theorem test_witness_Observation_3 :
   (let s : State := { sounding with obs := { sounding.obs with fifos := [] } }
    let step := fun (s : State) => { s with obs := { s.obs with slot := s.obs.slot + 1 } }
    let n := ((s.obs.fifos.map (fun e => e.2.length)).foldl (· + ·) 0) + 1
    let u := (nextFrame 1 { sounding.begun with obs := { sounding.obs with slot := 2, fifos := [] } }).1
    s.obs.sndActive = true ∧ 1 ≤ s.obs.slot ∧ s.obs.slot < 125 ∧ nextFrame n (step s.begun) = (u, none)) ∧
   (let s : State := { sounding with obs := { sounding.obs with slot := 125 } }
    ((s.obs.sndActive = false ∨ 125 ≤ s.obs.slot))) ∧
   (let s : State := observing
    unitOn s 15 = true ∧ coreOn s = true ∧ soundingOn s = true) ∧
   (let path : Nat := tuten
    let v : BitVec 32 := 0x11
    let s : State := setF F.OBS_PLUMB_CTL_EN 0 observing
    let old := ctlRead s.begun Reg.OBS_PLUMB_CTL
    let ok := F.OBS_PLUMB_CTL_RATE.get v ≤ 20 ∧ F.OBS_PLUMB_CTL_OWNER.get v ≤ 4
    let w := v &&& 0x1F71
    isMgmt path = true ∧ unitOn s 15 = true ∧ coreOn s = true ∧ plumbOn s = true ∧ ok ∧ w ≠ old ∧ F.OBS_PLUMB_CTL_EN.get w ≠ 0) := by decide +kernel
theorem test_witness_Observation_4 :
   (let path : Nat := tuten
    let v : BitVec 32 := 0x110
    let s : State := observing
    let old := ctlRead s.begun Reg.OBS_PLUMB_CTL
    let ok := F.OBS_PLUMB_CTL_RATE.get v ≤ 20 ∧ F.OBS_PLUMB_CTL_OWNER.get v ≤ 4
    let w := v &&& 0x1F71
    isMgmt path = true ∧ unitOn s 15 = true ∧ coreOn s = true ∧ plumbOn s = true ∧ ok ∧ w ≠ old ∧ F.OBS_PLUMB_CTL_EN.get w = 0) ∧
   (let path : Nat := tuten
    let v : BitVec 32 := 0x1501
    let s : State := observing
    let old := ctlRead s.begun Reg.OBS_PLUMB_CTL
    let w := v &&& 0x1F71
    isMgmt path = true ∧ unitOn s 15 = true ∧ coreOn s = true ∧ plumbOn s = true ∧ ((20 < F.OBS_PLUMB_CTL_RATE.get v ∨ 4 < F.OBS_PLUMB_CTL_OWNER.get v ∨ w = old))) ∧
   (let path : Nat := tuten
    let s : State := observing
    isMgmt path = true ∧ unitOn s 15 = true ∧ coreOn s = true ∧ plumbOn s = true) ∧
   (let path : Nat := tuten
    let s : State := observing
    isMgmt path = true ∧ unitOn s 15 = true ∧ coreOn s = true ∧ plumbOn s = true) ∧
   (let path : Nat := tuten
    let s : State := observing
    isMgmt path = true ∧ unitOn s 15 = true ∧ coreOn s = true ∧ soundingOn s = true) := by decide +kernel
theorem test_witness_Observation_5 :
   (let path : Nat := tuten
    let v : BitVec 32 := 0x11
    let s : State := observing
    isMgmt path = true ∧ unitOn s 15 = true ∧ coreOn s = true ∧ soundingOn s = true ∧ F.OBS_SND_FILT_RATE.get v ≤ 20) ∧
   (let path : Nat := tuten
    let v : BitVec 32 := 0x1F7F
    let s : State := observing
    isMgmt path = true ∧ unitOn s 15 = true ∧ coreOn s = true ∧ soundingOn s = true ∧ 20 < F.OBS_SND_FILT_RATE.get v) ∧
   (let path : Nat := tuten
    let s : State := observing
    isMgmt path = true ∧ unitOn s 15 = true ∧ coreOn s = true ∧ soundingOn s = true) ∧
   (let s : State := unobserved
    ((unitOn s 15 = false ∨ coreOn s = false))) ∧
   (let s : State := unobserved
    ((unitOn s 15 = false ∨ coreOn s = false))) := by decide +kernel
theorem test_witness_Observation_6 :
   (let s : State := unobserved
    ((unitOn s 15 = false ∨ coreOn s = false))) := by decide +kernel
theorem test_witness_TestPort_1 :
   (let s : State := testing
    testMayRun s = true) ∧
   (let s : State := testing
    testMayRun s = true) ∧
   (let s : State := testing
    testMayRun s = true) ∧
   (let s : State := testing
    testMayRun s = true) ∧
   (let s : State := testing
    testMayRun s = true) := by decide +kernel
theorem test_witness_TestPort_2 :
   (let code : Nat := 0xFF
    let s : State := testing
    testMayRun s = true ∧ code < 256 ∧ [0x00, 0x01, 0x02, 0x08, 0x09].contains code = false) ∧
   (let pins : List Bool := []
    let cells : List Bool := []
    let code : Nat := 0xFF
    let c : Instr := (.jtagBypass 0xFF)
    let s : State := observing
    testMayRun s = false ∧ c ∈ [Instr.jtagExtest cells, .jtagIdcode, .jtagSamplePreload pins cells, .jtagHighz, .jtagClamp, .jtagBypass code]) ∧
   (let code : Nat := 0x09
    [0x00, 0x01, 0x02, 0x08, 0x09].contains code = true) := by decide +kernel

end Sys2Proof.Tests
end

/-! Proofs of the family of chapter 00: the access types of a register's fields (R17), the commits of 64-bit quantities of
the tick logic (R15, R35, R54), and register accesses by size, path and half, with those of the MMIO window (R14 to R19,
R449). -/

section
namespace Sys2Proof.Machine

/-! ### Rules that the parts below share -/

/-- A command's next state, from what its change makes of the state as the command finds it. -/
theorem run_effect {f : State → State} {s t : State} (h : f s.begun = t) : run f s = .next { t with pending := s.pending } := by
  rw [run_after, State.after, h]

/-- The same for a change that leaves the queue as it was. -/
theorem run_next {f : State → State} {s t : State} (h : f s.begun = t) (hp : t.pending = s.pending) : run f s = .next t := by
  rw [run_effect h, ← hp]

theorem unrecorded_after (s : State) (f : State → State) : unrecorded (s.after f) = unrecorded (f s.begun) := sr_mk' ..

/-- A register write changes the register file alone. -/
theorem putReg_eq (s : State) (a : Nat) (v : BitVec 32) : s.putReg a v = { s with regs := (s.putReg a v).regs } := by
  unfold State.putReg; split <;> rfl

section Pair
variable (s : State) {lo hi : Nat} (l h : BitVec 32)

theorem putReg_pair_eq : (s.putReg lo l).putReg hi h = { s with regs := ((s.putReg lo l).putReg hi h).regs } := by
  rw [putReg_eq (s.putReg lo l), putReg_eq s]

theorem reg_putReg_pair_lo (ne : lo ≠ hi) : ((s.putReg lo l).putReg hi h).reg lo = l := by
  rw [reg_putReg_ne _ _ ne, reg_putReg_same]

theorem reg_putReg_pair_ne {a : Nat} (hl : a ≠ lo) (hh : a ≠ hi) : ((s.putReg lo l).putReg hi h).reg a = s.reg a := by
  rw [reg_putReg_ne _ _ hh, reg_putReg_ne _ _ hl]

end Pair

end Sys2Proof.Machine
end

section
namespace Sys2Proof.Machine

/-! ### The access types of a register's fields (R17) -/

/-- Bit i lies in the field (lowest bit, width, access). -/
def inField (f : Nat × Nat × Acc) (i : Nat) : Bool := decide (f.1 ≤ i) && decide (i - f.1 < f.2.1)

/-- What a write of the bit v leaves in a bit that held w, by the access type of its field. -/
def Acc.written (acc : Acc) (v w : Bool) : Bool :=
  match acc with
  | .rw => v
  | .w1c => w && !v
  | .w1s => w || v
  | _ => w

/-- What a read leaves in a bit that held w. -/
def Acc.kept (acc : Acc) (w : Bool) : Bool := match acc with | .rc => false | _ => w

/-- A read shows the stored bit. -/
def Acc.shown (acc : Acc) : Bool := match acc with | .wo | .rsv => false | _ => true

/-- A write's change of one field, of which `writeFields` is the fold. -/
def writeField (v w : BitVec 32) (f : Nat × Nat × Acc) : BitVec 32 :=
  match f.2.2 with
  | .rw => (w &&& ~~~ maskOf f.1 f.2.1) ||| (v &&& maskOf f.1 f.2.1)
  | .w1c => w &&& ~~~ (v &&& maskOf f.1 f.2.1)
  | .w1s => w ||| (v &&& maskOf f.1 f.2.1)
  | _ => w

/-- A read's change of one field, of which `readClear` is the fold. -/
def clearField (w : BitVec 32) (f : Nat × Nat × Acc) : BitVec 32 :=
  match f.2.2 with | .rc => w &&& ~~~ maskOf f.1 f.2.1 | _ => w

/-- What one field adds to the bits that a read shows; `readFields` masks with the fold. -/
def showField (m : BitVec 32) (f : Nat × Nat × Acc) : BitVec 32 :=
  match f.2.2 with | .wo | .rsv => m | _ => m ||| maskOf f.1 f.2.1

theorem writeFields_eq_foldl (fields : List (Nat × Nat × Acc)) (old v : BitVec 32) :
    writeFields fields old v = fields.foldl (writeField v) old := rfl

theorem readClear_eq_foldl (fields : List (Nat × Nat × Acc)) (old : BitVec 32) :
    readClear fields old = fields.foldl clearField old := rfl

theorem readFields_eq_foldl (fields : List (Nat × Nat × Acc)) (old : BitVec 32) :
    readFields fields old = old &&& fields.foldl showField 0 := rfl

section Bits
variable {i : Nat} (hi : i < 32)
include hi

theorem maskOf_getLsbD (f : Nat × Nat × Acc) : (maskOf f.1 f.2.1).getLsbD i = inField f i :=
  mask_getLsbD ⟨0, f.1, f.2.1⟩ i hi

theorem writeField_getLsbD (v w : BitVec 32) (f : Nat × Nat × Acc) :
    (writeField v w f).getLsbD i = if inField f i then f.2.2.written (v.getLsbD i) (w.getLsbD i) else w.getLsbD i := by
  have m := maskOf_getLsbD hi f
  obtain ⟨lo, width, acc⟩ := f
  generalize inField (lo, width, acc) i = inside at m ⊢
  cases inside <;> cases acc <;> simp [writeField, Acc.written, m, hi, -BitVec.getLsbD_eq_getElem]

theorem clearField_getLsbD (w : BitVec 32) (f : Nat × Nat × Acc) :
    (clearField w f).getLsbD i = if inField f i then f.2.2.kept (w.getLsbD i) else w.getLsbD i := by
  have m := maskOf_getLsbD hi f
  obtain ⟨lo, width, acc⟩ := f
  cases acc <;> simp [clearField, Acc.kept, m, hi, Bool.and_comm, -BitVec.getLsbD_eq_getElem]

theorem showField_getLsbD (w : BitVec 32) (f : Nat × Nat × Acc) :
    (showField w f).getLsbD i = if inField f i then f.2.2.shown || w.getLsbD i else w.getLsbD i := by
  have m := maskOf_getLsbD hi f
  obtain ⟨lo, width, acc⟩ := f
  cases acc <;> simp [showField, Acc.shown, m, Bool.or_comm, -BitVec.getLsbD_eq_getElem]

end Bits

/-- Where no two fields share a bit, a change made field by field, each within its own bits, makes of a bit what the one
field that holds it makes of it. -/
theorem foldl_getLsbD_of_mem {g : BitVec 32 → Nat × Nat × Acc → BitVec 32} {φ : Acc → Bool → Bool} {i : Nat}
    (hg : ∀ w f, (g w f).getLsbD i = if inField f i then φ f.2.2 (w.getLsbD i) else w.getLsbD i)
    {fields : List (Nat × Nat × Acc)} (apart : fields.Pairwise (fun f g => f.1 + f.2.1 ≤ g.1 ∨ g.1 + g.2.1 ≤ f.1))
    {f : Nat × Nat × Acc} (hf : f ∈ fields) (hfi : inField f i = true) (old : BitVec 32) :
    (fields.foldl g old).getLsbD i = φ f.2.2 (old.getLsbD i) := by
  have foldl_keeps : ∀ (l : List (Nat × Nat × Acc)) (w : BitVec 32), (∀ e ∈ l, inField e i = false) →
      (l.foldl g w).getLsbD i = w.getLsbD i := by
    intro l
    induction l with
    | nil => intro w _; rfl
    | cons e r ih =>
      intro w h
      rw [List.foldl_cons, ih _ fun x hx => h x (List.mem_cons_of_mem _ hx), hg, h e List.mem_cons_self]
      rfl
  have outside : ∀ e : Nat × Nat × Acc, (e.1 + e.2.1 ≤ f.1 ∨ f.1 + f.2.1 ≤ e.1) → inField e i = false := by
    intro e he
    simp only [inField, Bool.and_eq_true, decide_eq_true_eq, Bool.and_eq_false_iff, decide_eq_false_iff_not] at hfi ⊢
    omega
  obtain ⟨before, after, rfl⟩ := List.append_of_mem hf
  obtain ⟨-, hafter, hbefore⟩ := List.pairwise_append.mp apart
  have hb := foldl_keeps before old fun e he => outside e (hbefore e he f List.mem_cons_self)
  have ha := foldl_keeps after (g (before.foldl g old) f) fun e he =>
    outside e ((List.pairwise_cons.mp hafter).1 e he).symm
  rw [List.foldl_append, List.foldl_cons, ha, hg, hfi, hb]
  rfl

/-- Settles O11: the one field that holds a bit decides what becomes of it. -/
theorem accessTypes : Obligations.AccessTypes := by
  intro fields old v apart f hf i hlo hhi hi
  have hfi : inField f i = true := by simp only [inField, Bool.and_eq_true, decide_eq_true_eq]; omega
  have write := foldl_getLsbD_of_mem (φ := fun acc w => acc.written (v.getLsbD i) w) (writeField_getLsbD hi v) apart hf hfi old
  have clear := foldl_getLsbD_of_mem (clearField_getLsbD hi) apart hf hfi old
  have shown := foldl_getLsbD_of_mem (φ := fun acc w => acc.shown || w) (showField_getLsbD hi) apart hf hfi 0
  rw [writeFields_eq_foldl, readClear_eq_foldl, readFields_eq_foldl, BitVec.getLsbD_and, write, clear, shown]
  obtain ⟨lo, width, acc⟩ := f
  cases acc <;> simp [Acc.written, Acc.kept, Acc.shown]

end Sys2Proof.Machine
end

section
namespace Sys2Proof.Machine

/-! ### Commits of the calendar and of the budget (R15, R35, R54) -/

theorem length_shares (lo hi : BitVec 32) : (shares lo hi).length = 8 := by simp [shares, le]

theorem lat_eq_getElem {α : Type} (d : α) (l : List α) {i : Nat} (h : i < l.length) : lat d l i = l[i] := by
  rw [lat, List.getD_eq_getElem?_getD, List.getElem?_eq_getElem h, Option.getD_some]

/-- Every element of one list is at least the element of the other at its place. -/
theorem all_zip_le_iff (l m : List Nat) (h : l.length = m.length) :
    (List.zip l m).all (fun p => decide (p.2 ≤ p.1)) = true ↔ ∀ c, c < m.length → lat 0 m c ≤ lat 0 l c := by
  rw [List.all_eq_true, List.forall_mem_iff_forall_getElem]
  simp only [List.length_zip, h, Nat.min_self, List.getElem_zip, decide_eq_true_eq]
  refine forall_congr' fun c => forall_congr' fun hc => ?_
  rw [lat_eq_getElem 0 m hc, lat_eq_getElem 0 l (h ▸ hc)]

/-- A budget is accepted by the sum and the minima of its shares (R35). -/
theorem budgetOk_iff (lo hi : BitVec 32) :
    budgetOk lo hi = true ↔
      (shares lo hi).sum = 64 ∧ ∀ c, c < 8 → lat 0 minShares c ≤ lat 0 (shares lo hi) c := by
  rw [budgetOk, Bool.and_eq_true, beq_iff_eq, all_zip_le_iff _ _ (length_shares lo hi), List.sum_eq_foldl]
  rfl

theorem doCalSetCommit_accepted {path : Nat} (v : BitVec 32) {s : State} (hm : isMgmt path = true)
    (free : ¬ (isFollower s = true ∧ bit s F.TICK_SYNC_STAT_LOCKED = true)) :
    doCalSetCommit path v s =
      { s with
        regs := ((s.putReg Reg.TICK_CAL_SET_LO (stagedLo s path Reg.TICK_CAL_SET_LO)).putReg Reg.TICK_CAL_SET_HI
          (v &&& 0xFFFF)).regs
        mgmt := { s.mgmt with stamp := s.mgmt.stamp.map (fun t => (t.1, t.2.1, false)) }
        tick := { s.tick with
          calSet := some (v.toNat % 65536 * 2 ^ 32 + (stagedLo s path Reg.TICK_CAL_SET_LO).toNat) } } := by
  rw [← Bool.and_eq_true, Bool.not_eq_true] at free
  simp only [doCalSetCommit, hm, free, Bool.not_true, Bool.false_eq_true, ↓reduceIte]
  rw [putReg_pair_eq]

theorem doCalSetCommit_locked {path : Nat} (v : BitVec 32) {s : State} (hm : isMgmt path = true) (hf : isFollower s = true)
    (hl : bit s F.TICK_SYNC_STAT_LOCKED = true) : doCalSetCommit path v s = setF F.TICK_CAL_STAT_REFUSED 1 s := by
  simp [doCalSetCommit, hm, hf, hl]

theorem doBudgetCommit_ok {path : Nat} {v : BitVec 32} {s : State} (hm : isMgmt path = true)
    (ok : budgetOk (stagedLo s path Reg.TICK_BUDGET_LO) v = true) :
    doBudgetCommit path v s =
      { s with
        regs := ((s.putReg Reg.TICK_BUDGET_LO (stagedLo s path Reg.TICK_BUDGET_LO)).putReg Reg.TICK_BUDGET_HI v).regs
        tick := { s.tick with budgetSet := some ((stagedLo s path Reg.TICK_BUDGET_LO).toNat, v.toNat) } } := by
  simp only [doBudgetCommit, hm, ok, Bool.not_true, Bool.false_eq_true, ↓reduceIte]
  rw [putReg_pair_eq]

theorem doBudgetCommit_bad {path : Nat} {v : BitVec 32} {s : State} (hm : isMgmt path = true)
    (bad : budgetOk (stagedLo s path Reg.TICK_BUDGET_LO) v = false) :
    doBudgetCommit path v s =
      sed 0x0011 sNOTICE 16 (stagedLo s path Reg.TICK_BUDGET_LO).toNat v.toNat 0 (setF F.TICK_BUDGET_STAT_BAD 1 s) := by
  simp [doBudgetCommit, hm, bad]

/-- Settles O13: each commit by the branch of its function that it takes. -/
theorem tickCommits : Obligations.TickCommits := by
  refine ⟨?calAccepted, ?calLocked, ?budgetAccepted, ?budgetRefused⟩
  case calAccepted =>
    intro path v s hm free
    exact ⟨_, run_next (doCalSetCommit_accepted v hm free) rfl, rfl, reg_putReg_pair_lo _ _ _ (by decide),
      reg_putReg_same .., fun a hl hh => reg_putReg_pair_ne _ _ _ hl hh, rfl⟩
  case calLocked =>
    intro path v s hm hf hl
    exact ⟨_, run_next (doCalSetCommit_locked v hm hf hl) (by simp), bit_setF_one _ _ rfl rfl, setF_tick ..⟩
  case budgetAccepted =>
    intro path v s hm hsum hmin
    exact ⟨_, run_next (doBudgetCommit_ok hm ((budgetOk_iff _ _).mpr ⟨hsum, hmin⟩)) rfl, rfl,
      reg_putReg_pair_lo _ _ _ (by decide), reg_putReg_same .., fun a hl hh => reg_putReg_pair_ne _ _ _ hl hh, rfl⟩
  case budgetRefused =>
    intro path v s hm hbad
    have bad : budgetOk (stagedLo s path Reg.TICK_BUDGET_LO) v = false := by
      rw [← Bool.not_eq_true, budgetOk_iff]
      rintro ⟨hsum, hmin⟩
      obtain hne | ⟨c, hc, hlt⟩ := hbad
      · exact hne hsum
      · exact absurd (hmin c hc) (Nat.not_le.mpr hlt)
    have same : unrecorded (s.after (doBudgetCommit path v)) = unrecorded (setF F.TICK_BUDGET_STAT_BAD 1 s.begun) := by
      rw [unrecorded_after, doBudgetCommit_bad (s := s.begun) hm bad, sed_sr]
    refine ⟨_, run_after .., ?_, (sr_tick same).trans (setF_tick ..), same⟩
    rw [bit, sr_fld same _ rfl]
    exact bit_setF_one _ _ rfl rfl

end Sys2Proof.Machine
end

section
namespace Sys2Proof.Machine

/-! ### Register accesses (R14 to R19) and the MMIO window (R449) -/

/-! In RUN and IDLE nothing is clamped, and a path that reaches registers makes the access itself (R555, R585). -/

section Reaching
variable {s : State} (awake : s.pwr.st ≤ 1)
include awake

theorem blockClamped_of_awake (a : Nat) : blockClamped s a = false := by
  have not3 : ¬ s.pwr.st = 3 := by omega
  have not2 : ¬ 2 ≤ s.pwr.st := by omega
  simp [blockClamped, not3, not2]

theorem tutHeld_of_awake (write : Bool) (a : Nat) : tutHeld s write a = false := by
  have not3 : ¬ s.pwr.st = 3 := by omega
  simp [tutHeld, blockClamped_of_awake awake, not3]

theorem doRegWrite_of_reaches {path : Nat} (reach : pathReaches s path = true)
    (rail : ¬ (path = tuten ∧ railFailed s 4 = true)) (a : Nat) (v : BitVec 32) :
    doRegWrite path a v s = mmioWrite path a v s := by
  have served : (path == tuten && railFailed s 4) = false := by simpa using rail
  simp [doRegWrite, reach, served, tutHeld_of_awake awake, blockClamped_of_awake awake]

/-- A write that the register itself ignores is ignored whatever the port. -/
theorem doRegWrite_of_ignored {path a : Nat} {v : BitVec 32} (h : mmioWrite path a v s = s) : doRegWrite path a v s = s := by
  simp [doRegWrite, tutHeld_of_awake awake, blockClamped_of_awake awake, h]

theorem doRegRead_of_reaches {path : Nat} (reach : pathReaches s path = true) (rail : railFailed s 4 = false) (a : Nat) :
    doRegRead path a s = emit (.value path a (mmioRead path a s).1) (mmioRead path a s).2 := by
  simp [doRegRead, reach, rail, tutHeld_of_awake awake, blockClamped_of_awake awake]

theorem windowHeldMmio_of_awake (write : Bool) (count offset : Nat) : windowHeldMmio s write count offset = false := by
  simp [windowHeldMmio, tutHeld_of_awake awake]

end Reaching

/-! What a write does, by the row of its address (R14, R15, R17, R19). -/

theorem mmioWrite_ignored {path a : Nat} (v : BitVec 32) {s : State}
    (h : a % 4 ≠ 0 ∨ blockOn s a = false ∨ (regDesc a = none ∧ daBuffer a = none) ∨
      ∃ d, regDesc a = some d ∧ isHead path = true ∧ d.hostW = false) : mmioWrite path a v s = s := by
  unfold mmioWrite
  obtain unaligned | absent | ⟨hd, hb⟩ | ⟨d, hd, head, mgmtOnly⟩ := h
  · simp [unaligned]
  · simp [absent]
  · simp [hd, hb]
  · simp [hd, head, mgmtOnly]

section Rows
variable {path a : Nat} {d : RegDesc} {s : State} (aligned : a % 4 = 0) (on : blockOn s a = true) (row : regDesc a = some d)
include aligned on row

theorem mmioWrite_blockWrite (v : BitVec 32) (may : isHead path = true → d.hostW = true) (lo : isLo d = false) :
    mmioWrite path a v s = blockWrite path a (d.elem a).1 d v s := by
  have host : (isHead path && !d.hostW) = false := by simpa using may
  simp [mmioWrite, aligned, on, row, host, lo]

theorem mmioWrite_stageLo (v : BitVec 32) (may : isHead path = true → d.hostW = true) (lo : isLo d = true)
    (settable : d.fields.any (fun f => f.2.2 == .rw) = true) : mmioWrite path a v s = stageLo path a v s := by
  have host : (isHead path && !d.hostW) = false := by simpa using may
  simp only [mmioWrite, row, host, lo, settable]
  simp [aligned, on]

/-- A HI half is read as the path's LO read captured it, once (R16). -/
theorem mmioRead_captured (hi : isHi d = true) {w : BitVec 32} (cap : tfind s.captured (stageKey path a) = some w) :
    mmioRead path a s = (w, { s with captured := tdel (stageKey path a) s.captured }) := by
  simp [mmioRead, aligned, on, row, hi, cap]

/-- A LO half is read with its HI half captured for the path (R16). -/
theorem mmioRead_lo (hi : isHi d = false) (lo : isLo d = true) :
    mmioRead path a s = (peek s path a, readEffect path a d { s with
      captured := tput (stageKey path (a + 4)) (peek s path (a + 4)) s.captured }) := by
  simp [mmioRead, aligned, on, row, hi, lo]

theorem mmioRead_plain (hi : isHi d = false) (lo : isLo d = false) :
    mmioRead path a s = (peek s path a, readEffect path a d s) := by
  simp [mmioRead, aligned, on, row, hi, lo]

end Rows

theorem blockWrite_low {path a i : Nat} {d : RegDesc} (v : BitVec 32) (s : State) (low : a < 0x100000)
    (cal : a ≠ Reg.TICK_CAL_SET_HI) (budget : a ≠ Reg.TICK_BUDGET_HI) (cause : a ≠ Reg.GLB_RESET_CAUSE) :
    blockWrite path a i d v s = plainWrite path a d v s := by
  have block : a / 0x100000 = 0 := Nat.div_eq_of_lt low
  simp [blockWrite, cal, budget, cause, block]

theorem blockWrite_pwrHi {path a i : Nat} {d : RegDesc} (v : BitVec 32) (s : State) (block : a / 0x100000 = 0xE)
    (ctl : a ≠ Reg.PWR_CTL) (hi : isHi d = true) : blockWrite path a i d v s = pairWrite path a d v s := by
  have cal : a ≠ Reg.TICK_CAL_SET_HI := by rintro rfl; exact absurd block (by decide)
  have budget : a ≠ Reg.TICK_BUDGET_HI := by rintro rfl; exact absurd block (by decide)
  have cause : a ≠ Reg.GLB_RESET_CAUSE := by rintro rfl; exact absurd block (by decide)
  simp [blockWrite, cal, budget, cause, block, ctl, hi]

theorem readEffect_rc {path a : Nat} {d : RegDesc} (s : State) (rc : d.fields.any (fun f => f.2.2 == .rc) = true)
    (vin : a ≠ Reg.SUP_VIN) (data : a ≠ Reg.OBS_PLUMB_DATA 7) (stat : a ≠ Reg.OBS_PLUMB_STAT) (cycle : a ≠ Reg.TICK_CYCLE)
    (domain : a ≠ Reg.PWR_DOMAIN) :
    readEffect path a d s = s.putReg (regKey path a d) (readClear d.fields (s.reg (regKey path a d))) := by
  simp only [readEffect, vin, data, stat, cycle, domain, rc]
  simp

/-! The rows of the two pairs that the statement names. -/

theorem regDesc_tickCountLo :
    regDesc Reg.TICK_COUNT_LO = some ⟨0x10000, 1, 0x0, 1, 0x0, 0x0, false, false, [(0, 32, .ro)]⟩ := by decide +kernel
theorem regDesc_tickCountHi :
    regDesc Reg.TICK_COUNT_HI = some ⟨0x10004, 1, 0x0, 1, 0x0, 0x0, false, false, [(0, 32, .ro)]⟩ := by decide +kernel
theorem regDesc_pwrTimerLo :
    regDesc Reg.PWR_TIMER_LO = some ⟨0xe00010, 1, 0x0, 1, 0x0, 0x0, false, false, [(0, 32, .rw)]⟩ := by decide +kernel
theorem regDesc_pwrTimerHi :
    regDesc Reg.PWR_TIMER_HI = some ⟨0xe00014, 1, 0x0, 1, 0x0, 0x0, false, false, [(0, 32, .rw)]⟩ := by decide +kernel

theorem writeFields_wholeWord (old v : BitVec 32) : writeFields [(0, 32, .rw)] old v = v :=
  calc writeFields [(0, 32, .rw)] old v = (old &&& ~~~ BitVec.allOnes 32) ||| (v &&& BitVec.allOnes 32) := rfl
    _ = v := by rw [BitVec.not_allOnes, BitVec.and_zero, BitVec.zero_or, BitVec.and_allOnes]

theorem readFields_wholeWord (w : BitVec 32) : readFields [(0, 32, .ro)] w = w := BitVec.and_allOnes

theorem peek_tickCountLo (s : State) (path : Nat) : peek s path Reg.TICK_COUNT_LO = BitVec.ofNat 32 s.tick.count := by
  simp only [peek, regDesc_tickCountLo, readFields_wholeWord]
  rfl

theorem peek_tickCountHi (s : State) (path : Nat) :
    peek s path Reg.TICK_COUNT_HI = BitVec.ofNat 32 (s.tick.count / 2 ^ 32) := by
  simp only [peek, regDesc_tickCountHi, readFields_wholeWord]
  rfl

theorem plainWrite_wholeWord {d : RegDesc} (path a : Nat) (v : BitVec 32) (s : State) (own : d.banked = false)
    (whole : d.fields = [(0, 32, .rw)]) : plainWrite path a d v s = s.putReg a v := by
  simp [plainWrite, regKey, own, whole, writeFields_wholeWord]

theorem pairWrite_of_lo {a lo : Nat} {e : RegDesc} (below : a - 4 = lo) (row : regDesc lo = some e) (path : Nat) (d : RegDesc)
    (v : BitVec 32) (s : State) :
    pairWrite path a d v s = plainWrite path a d v (plainWrite path lo e (stagedLo s path lo) s) := by
  subst below
  simp [pairWrite, row]

/-- The HI write of the wake timer commits the pair (R15). -/
theorem mmioWrite_pwrTimerHi {path : Nat} (v : BitVec 32) {s : State} (mgmt : isMgmt path = true)
    (on : blockOn s Reg.PWR_TIMER_HI = true) :
    mmioWrite path Reg.PWR_TIMER_HI v s =
      (s.putReg Reg.PWR_TIMER_LO (stagedLo s path Reg.PWR_TIMER_LO)).putReg Reg.PWR_TIMER_HI v := by
  have notHead : ¬ isHead path = true := by
    simp only [isMgmt, isHead, Bool.and_eq_true, decide_eq_true_eq] at mgmt ⊢
    omega
  rw [mmioWrite_blockWrite rfl on regDesc_pwrTimerHi v (absurd · notHead) (by decide),
    blockWrite_pwrHi v s (by decide) (by decide) (by decide), pairWrite_of_lo (by decide) regDesc_pwrTimerLo,
    plainWrite_wholeWord _ _ _ _ rfl rfl, plainWrite_wholeWord _ _ _ _ rfl rfl]

theorem execRegisterHiWrite_of_hi {a : Nat} {d : RegDesc} (row : regDesc a = some d) (hi : isHi d = true) (path : Nat)
    (v : BitVec 32) (s : State) : execRegisterHiWrite path a v s = run (doRegWrite path a v) s := by
  simp [execRegisterHiWrite, row, hi]

theorem execRegisterLoRead_of_lo {a : Nat} {d : RegDesc} (row : regDesc a = some d) (lo : isLo d = true) (path : Nat)
    (s : State) : execRegisterLoRead path a s = run (doRegRead path a) s := by
  simp [execRegisterLoRead, row, lo]

/-- A LO read of the tick count gives its low word and captures its high word for the path (R16). -/
theorem mmioRead_tickCountLo (path : Nat) {s : State} (on : blockOn s Reg.TICK_COUNT_LO = true) :
    mmioRead path Reg.TICK_COUNT_LO s = (BitVec.ofNat 32 s.tick.count, { s with
      captured := tput (stageKey path Reg.TICK_COUNT_HI) (BitVec.ofNat 32 (s.tick.count / 2 ^ 32)) s.captured }) := by
  have hi : Reg.TICK_COUNT_LO + 4 = Reg.TICK_COUNT_HI := by decide
  rw [mmioRead_lo rfl on regDesc_tickCountLo (by decide) (by decide), hi, peek_tickCountLo, peek_tickCountHi]
  rfl

/-! The words staged for LO halves are apart by path and address (R15). -/

theorem stageKey_inj {p q a b : Nat} (ha : a < bankStride) (hb : b < bankStride) (h : stageKey p a = stageKey q b) :
    p = q ∧ a = b := by
  simp only [stageKey, bankStride] at ha hb h
  omega

theorem stagedLo_stageLo_same (path a : Nat) (v : BitVec 32) (s : State) : stagedLo (stageLo path a v s) path a = v := by
  simp [stagedLo, stageLo]

theorem stagedLo_stageLo_ne {path a p b : Nat} (v : BitVec 32) (s : State) (h : p ≠ path ∨ b ≠ a) (hb : b < bankStride)
    (ha : a < bankStride) : stagedLo (stageLo path a v s) p b = stagedLo s p b := by
  have key : stageKey p b ≠ stageKey path a := fun e => by
    obtain ⟨hp, hab⟩ := stageKey_inj hb ha e
    exact h.elim (· hp) (· hab)
  simp [stagedLo, stageLo, tfind_tput_ne _ _ key]

/-! MMIO window messages (R449). -/

theorem mmioStatus_ok {count offset : Nat} (one : 1 ≤ count) (most : count ≤ 16) (aligned : offset % 4 = 0)
    (inside : offset + 4 * count ≤ 0x4000000) : mmioStatus count offset = 0 := by
  have h1 : ¬ (count < 1 ∨ 16 < count) := by omega
  have h2 : ¬ (offset % 4 ≠ 0 ∨ 0x4000000 < offset + 4 * count) := by omega
  rw [mmioStatus, if_neg h1, if_neg h2]

theorem mmioStatus_badCount {count : Nat} (offset : Nat) (h : count < 1 ∨ 16 < count) : mmioStatus count offset = 2 := by
  rw [mmioStatus, if_pos h]

section Window
variable {s : State} (reach : pathReaches s tuten = true) (rail : railFailed s 4 = false) (awake : s.pwr.st ≤ 1)
  (cores : fld s F.MGMT_STAT_CORES ≠ 0) (eid : fld s F.MGMT_TUT_STAT_EID ≠ 0) (noRecovery : inRecovery s = false)
include reach rail awake cores eid noRecovery

theorem doWindowRead_accepted {count offset : Nat} (ok : mmioStatus count offset = 0) :
    doWindowRead count offset s =
      mmioAnswer 0 count offset (mmioReads count offset s).1 (mmioReads count offset s).2 := by
  simp [doWindowRead, reach, rail, cores, eid, noRecovery, ok, windowHeldMmio_of_awake awake]

omit awake in
theorem doWindowRead_bad {count offset : Nat} (bad : mmioStatus count offset ≠ 0) :
    doWindowRead count offset s = mmioAnswer (mmioStatus count offset) count offset [] s := by
  simp [doWindowRead, reach, rail, cores, eid, noRecovery, bad]

theorem doWindowWrite_accepted {sec : Bool} {count offset : Nat} {data : List (BitVec 32)}
    (session : needsSession s false = true → isSecured s tuten sec = true) (ok : mmioStatus count offset = 0)
    (len : data.length = count) :
    doWindowWrite sec count offset data s = mmioAnswer 0 count offset [] (mmioWrites offset data s) := by
  have not3 : ¬ s.pwr.st = 3 := by omega
  have secured : (needsSession s false && !isSecured s tuten sec) = false := by simpa using session
  simp [doWindowWrite, reach, rail, not3, cores, eid, noRecovery, secured, ok, len, windowHeldMmio_of_awake awake]

end Window

/-- Settles O19: each access by what its register's row makes of it. -/
theorem registerAccess : Obligations.RegisterAccess := by
  refine ⟨?plain, ?ignored, ?write64, ?otherWrite, ?stage, ?commit, ?capture, ?captured, ?clear, ?read64, ?otherRead,
    ?windowRead, ?windowWrite, ?badCount⟩
  case plain =>
    intro path a v d s reach rail awake aligned on row may lo low cal budget cause
    have effect : doRegWrite path a (BitVec.ofNat 32 v.toNat) s.begun = plainWrite path a d (BitVec.ofNat 32 v.toNat) s.begun := by
      rw [doRegWrite_of_reaches (s := s.begun) awake reach rail, mmioWrite_blockWrite (s := s.begun) aligned on row _ may lo,
        blockWrite_low _ _ low cal budget cause]
    exact ⟨_, run_next effect (putReg_pending ..), reg_putReg_same .., fun k hk => reg_putReg_ne _ _ hk, putReg_eq ..⟩
  case ignored =>
    intro path a v s reach awake h
    exact run_next (doRegWrite_of_ignored (s := s.begun) awake (mmioWrite_ignored _ h)) rfl
  case write64 =>
    intro path a v s aligned
    have effect : doSizedWrite path a 8 v s.begun = doRegWrite path (a + 4) (BitVec.ofNat 32 (v.toNat / 2 ^ 32))
        (doRegWrite path a (BitVec.ofNat 32 v.toNat) s.begun) := by simp [doSizedWrite, aligned]
    exact congrArg _ (after_congr effect)
  case otherWrite =>
    intro path a size v s not4 not8
    have other : ¬ (size = 8 ∧ a % 8 = 0) := by omega
    exact run_next (by rw [doSizedWrite, if_neg not4, if_neg other]) rfl
  case stage =>
    intro path a v d s reach rail awake aligned on row may lo settable
    have effect : doRegWrite path a (BitVec.ofNat 32 v.toNat) s.begun = stageLo path a (BitVec.ofNat 32 v.toNat) s.begun := by
      rw [doRegWrite_of_reaches (s := s.begun) awake reach rail,
        mmioWrite_stageLo (s := s.begun) aligned on row _ may lo settable]
    exact ⟨_, run_next effect rfl, stagedLo_stageLo_same .., fun p b h hb ha => stagedLo_stageLo_ne _ _ h hb ha, rfl⟩
  case commit =>
    intro path v s reach mgmt rail awake on
    have effect : doRegWrite path Reg.PWR_TIMER_HI v s.begun =
        (s.begun.putReg Reg.PWR_TIMER_LO (stagedLo s.begun path Reg.PWR_TIMER_LO)).putReg Reg.PWR_TIMER_HI v := by
      rw [doRegWrite_of_reaches (s := s.begun) awake reach (by simp [rail]), mmioWrite_pwrTimerHi (s := s.begun) v mgmt on]
    exact ⟨_, (execRegisterHiWrite_of_hi regDesc_pwrTimerHi (by decide) path v s).trans (run_next effect (by simp)),
      reg_putReg_same .., reg_putReg_pair_lo _ _ _ (by decide), by simp, fun k hh hl => reg_putReg_pair_ne _ _ _ hl hh,
      putReg_pair_eq ..⟩
  case capture =>
    intro path s reach rail awake on
    have effect := doRegRead_of_reaches (s := s.begun) awake reach rail Reg.TICK_COUNT_LO
    rw [mmioRead_tickCountLo (s := s.begun) path on] at effect
    exact (execRegisterLoRead_of_lo regDesc_tickCountLo (by decide) path s).trans (run_next effect rfl)
  case captured =>
    intro path w s reach rail awake on cap
    have effect := doRegRead_of_reaches (s := s.begun) awake reach rail Reg.TICK_COUNT_HI
    rw [mmioRead_captured (a := Reg.TICK_COUNT_HI) (s := s.begun) rfl on regDesc_tickCountHi (by decide) cap] at effect
    exact run_next effect rfl
  case clear =>
    intro path a d s reach rail awake aligned on row rc lo hi vin data stat cycle domain
    have effect := doRegRead_of_reaches (s := s.begun) awake reach rail a
    rw [mmioRead_plain (s := s.begun) aligned on row hi lo, readEffect_rc _ rc vin data stat cycle domain, begun_putReg] at effect
    refine ⟨_, run_next effect (by simp), by simp, ?_, ?_, ?_⟩
    · simp
    · exact fun k hk => reg_putReg_ne _ _ hk
    · rw [putReg_eq]
      rfl
  case read64 =>
    intro path a s aligned
    have effect : doSizedRead path a 8 s.begun = doRegRead path (a + 4) (doRegRead path a s.begun) := by
      simp [doSizedRead, aligned]
    exact congrArg _ (after_congr effect)
  case otherRead =>
    intro path a size s reach not4 not8
    have other : ¬ (size = 8 ∧ a % 8 = 0) := by omega
    exact run_next (by simp [doSizedRead, not4, other, reach, emit]) rfl
  case windowRead =>
    intro sec count offset s reach rail awake cores eid noRecovery one most aligned inside
    have ok := mmioStatus_ok one most aligned inside
    exact run_effect (doWindowRead_accepted (s := s.begun) reach rail awake cores eid noRecovery ok)
  case windowWrite =>
    intro sec count offset data s reach rail awake cores eid noRecovery session one most aligned inside len
    have ok := mmioStatus_ok one most aligned inside
    exact run_effect (doWindowWrite_accepted (s := s.begun) reach rail awake cores eid noRecovery session ok len)
  case badCount =>
    intro sec count offset s reach rail awake cores eid noRecovery outside
    have bad := mmioStatus_badCount offset outside
    have effect := doWindowRead_bad (s := s.begun) reach rail cores eid noRecovery (by rw [bad]; decide)
    rw [bad] at effect
    exact run_next effect rfl

end Sys2Proof.Machine
end

/-! Proofs of the family of chapter 01: RIPPLE_SYNC at a follower and at a master (R45 to R52, R55), and the ordered steps of
a tick boundary (R33). -/

section
namespace Sys2Proof.Machine

/-! ### Register fields beside the tick logic and the recorder -/

theorem putReg_withTick (s : State) (k : Tick) (a : Nat) (v : BitVec 32) :
    ({ s with tick := k } : State).putReg a v = { s.putReg a v with tick := k } := by
  unfold State.putReg
  split <;> rfl

theorem setF_withTick (f : Fld) (v : Nat) (s : State) (k : Tick) :
    setF f v { s with tick := k } = { setF f v s with tick := k } := putReg_withTick ..

theorem setF_eq (f : Fld) (v : Nat) (s : State) : setF f v s = { s with regs := (setF f v s).regs } := putReg_eq ..

theorem bit_sed (code sev unit p0 p1 p2 : Nat) (s : State) (f : Fld) (h : sedAddr f.reg = false) :
    bit (sed code sev unit p0 p1 p2 s) f = bit s f := by
  rw [bit, bit, fld_sed _ _ _ _ _ _ s f h]

end Sys2Proof.Machine
end

section
namespace Sys2Proof.Machine

/-! ### RIPPLE_SYNC (R45 to R52, R55) -/

theorem pulseValue_of_marker {width : Nat} (h : 12 ≤ width) : pulseValue width = 2 := by
  rw [pulseValue, if_neg (by omega), if_neg (by omega)]

theorem pulseValue_of_bit {width : Nat} (h : width ≤ 11) : pulseValue width = if 5 < width then 1 else 0 := by
  by_cases low : width ≤ 5
  · rw [pulseValue, if_pos low, if_neg (by omega)]
  · rw [pulseValue, if_neg low, if_pos h, if_pos (by omega)]

theorem misSpaced_iff (gap : Nat) : misSpaced gap = true ↔ gap < 398 ∨ 402 < gap := by simp [misSpaced]

theorem misSpaced_of_near {gap : Nat} (lo : 398 ≤ gap) (hi : gap ≤ 402) : misSpaced gap = false := by
  rw [← Bool.not_eq_true, misSpaced_iff]
  omega

/-! The loss of the pulses (R50). -/

/-- What a follower drops with its lock: the count of good pulses and the frame it was collecting. -/
def Tick.unlocked (k : Tick) : Tick := { k with goodPulses := 0, frame := [], collecting := false }

section Lost
variable {s : State} (follows : isFollower s = true) (locked : bit s F.TICK_SYNC_STAT_LOCKED = true) (n : Nat)
include follows locked

theorem doSyncLost_of_locked :
    doSyncLost n s = sed 0x0021 sWARNING 16 n 0 0
      (setF F.TICK_SYNC_STAT_LOST 1 (setF F.TICK_SYNC_STAT_LOCKED 0 { s with tick := s.tick.unlocked })) := by
  simp only [doSyncLost, follows, locked, setF_withTick, setF_tick]
  rfl

theorem doSyncLost_tick : (doSyncLost n s).tick = s.tick.unlocked := by simp [doSyncLost_of_locked follows locked]

theorem unrecorded_doSyncLost :
    unrecorded (doSyncLost n s) = unrecorded
      (setF F.TICK_SYNC_STAT_LOST 1 (setF F.TICK_SYNC_STAT_LOCKED 0 { s with tick := s.tick.unlocked })) := by
  rw [doSyncLost_of_locked follows locked, sed_sr]

theorem bit_doSyncLost_locked : bit (doSyncLost n s) F.TICK_SYNC_STAT_LOCKED = false := by
  rw [doSyncLost_of_locked follows locked, bit_sed _ _ _ _ _ _ _ _ rfl, bit_setF_other _ _ _ _ (.inr ⟨rfl, rfl⟩)]
  exact bit_setF_zero _ _ rfl

theorem bit_doSyncLost_lost : bit (doSyncLost n s) F.TICK_SYNC_STAT_LOST = true := by
  rw [doSyncLost_of_locked follows locked, bit_sed _ _ _ _ _ _ _ _ rfl]
  exact bit_setF_one _ _ rfl rfl

end Lost

/-! A follower's pulse in three parts: what it decodes, the lock it gives, and the epoch that the first lock shortens. -/

/-- The tick logic after a pulse has been decoded (R45, R46, R48, R55); `sub` is the sub-millisecond count. -/
def Tick.decoded (width gap sub : Nat) (k : Tick) : Tick :=
  let mark := pulseValue width == 2
  { k with
    goodPulses := if gap = 400 then k.goodPulses + 1 else 0
    frame := if mark then [] else if k.collecting && decide (k.frame.length < 80) then k.frame ++ [pulseValue width == 1] else k.frame
    collecting := mark || k.collecting
    addD := k.addD.map (fun e => (e.1, e.2 - 1))
    markCal := if mark then k.cal else k.markCal
    markSub := if mark then sub else k.markSub }

/-- The state after a pulse has been decoded. -/
def pulseDecode (width gap : Nat) (s : State) : State :=
  { s with tick := s.tick.decoded width gap (fld s F.TICK_CAL_STAT_SUBMS) }

/-- An unlocked follower locks on a spacing of 400 REFCLK cycles (R48). -/
def pulseLock (gap : Nat) (s : State) : State :=
  if gap = 400 && !bit s F.TICK_SYNC_STAT_LOCKED then
    let t := setF F.TICK_SYNC_STAT_LOCKED 1 s |> sed 0x0020 sINFO 16 (fld s F.TICK_SYNC_STAT_MASTER_DEVID) 0 0
    { t with tick := { t.tick with shortPending := !s.tick.everLocked || s.tick.shortPending, everLocked := true } }
  else s

/-- The first marker after the first lock ends the follower's own epoch (R49). -/
def pulseShorten (mark : Bool) (s : State) : State :=
  if mark && s.tick.shortPending && bit s F.TICK_SYNC_STAT_LOCKED then
    let n := tickInEpoch s + 1
    sed 0x0012 sNOTICE 16 n (fld s F.TICK_SYNC_STAT_MASTER_DEVID) 0
      { s with tick := { s.tick with shortPending := false, count := s.tick.count + (262144 - n) } }
  else s

theorem Tick.decoded_bit {width : Nat} (h : width ≤ 11) (gap sub : Nat) (k : Tick) :
    k.decoded width gap sub = { k with
      goodPulses := if gap = 400 then k.goodPulses + 1 else 0
      frame := if k.collecting = true ∧ k.frame.length < 80 then k.frame ++ [decide (5 < width)] else k.frame
      addD := k.addD.map (fun e => (e.1, e.2 - 1)) } := by
  by_cases one : 5 < width <;> simp [Tick.decoded, pulseValue_of_bit h, one]

theorem Tick.decoded_marker {width : Nat} (h : 12 ≤ width) (gap sub : Nat) (k : Tick) :
    k.decoded width gap sub = { k with
      goodPulses := if gap = 400 then k.goodPulses + 1 else 0
      frame := [], collecting := true, markCal := k.cal, markSub := sub
      addD := k.addD.map (fun e => (e.1, e.2 - 1)) } := by
  simp [Tick.decoded, pulseValue_of_marker h]

theorem pulseDecode_tick (width gap : Nat) (s : State) :
    (pulseDecode width gap s).tick = s.tick.decoded width gap (fld s F.TICK_CAL_STAT_SUBMS) := rfl

theorem bit_pulseDecode (width gap : Nat) (s : State) (f : Fld) : bit (pulseDecode width gap s) f = bit s f := bit_mk ..

theorem pulseLock_of_locked (gap : Nat) {s : State} (h : bit s F.TICK_SYNC_STAT_LOCKED = true) : pulseLock gap s = s := by
  simp [pulseLock, h]

theorem pulseLock_of_otherGap {gap : Nat} (h : gap ≠ 400) (s : State) : pulseLock gap s = s := by simp [pulseLock, h]

section Locks
variable {s : State} (free : bit s F.TICK_SYNC_STAT_LOCKED = false)
include free

theorem pulseLock_tick :
    (pulseLock 400 s).tick = { s.tick with
      shortPending := !s.tick.everLocked || s.tick.shortPending, everLocked := true } := by
  simp [pulseLock, free]

theorem bit_pulseLock_locked : bit (pulseLock 400 s) F.TICK_SYNC_STAT_LOCKED = true := by
  simp [pulseLock, free, bit_sed _ _ _ _ _ _ _ F.TICK_SYNC_STAT_LOCKED rfl,
    bit_setF_one F.TICK_SYNC_STAT_LOCKED s rfl rfl]

end Locks

theorem pulseShorten_of_bit (s : State) : pulseShorten false s = s := rfl

theorem pulseShorten_of_notPending {s : State} (h : s.tick.shortPending = false) (mark : Bool) : pulseShorten mark s = s := by
  simp [pulseShorten, h]

theorem pulseShorten_tick {s : State} (pending : s.tick.shortPending = true)
    (locked : bit s F.TICK_SYNC_STAT_LOCKED = true) :
    (pulseShorten true s).tick = { s.tick with
      shortPending := false, count := s.tick.count + (262143 - s.tick.count % 262144) } := by
  have rest : 262144 - (s.tick.count % 262144 + 1) = 262143 - s.tick.count % 262144 := by omega
  simp [pulseShorten, pending, locked, tickInEpoch, rest]

section Follower
variable {s : State} (quiet : s.tick.listen = none) (follows : isFollower s = true)
include quiet follows

theorem doSyncPulse_of_follower (width gap : Nat) :
    doSyncPulse width gap s = pulseShorten (pulseValue width == 2) (pulseLock gap (pulseDecode width gap
      (if misSpaced gap then doSyncLost (gap / 400) s else s))) := by
  simp only [doSyncPulse, quiet, follows]
  rfl

/-- A bit neither ends an epoch nor depends on one. -/
theorem doSyncPulse_of_bit {width : Nat} (isBit : width ≤ 11) (gap : Nat) :
    doSyncPulse width gap s = pulseLock gap (pulseDecode width gap (if misSpaced gap then doSyncLost (gap / 400) s else s)) := by
  have notMark : (pulseValue width == 2) = false := by
    rw [pulseValue_of_bit isBit]
    split <;> rfl
  rw [doSyncPulse_of_follower quiet follows, notMark, pulseShorten_of_bit]

/-- A pulse in its place leaves the lock of a locked follower alone. -/
theorem doSyncPulse_of_locked (locked : bit s F.TICK_SYNC_STAT_LOCKED = true) {gap : Nat} (lo : 398 ≤ gap) (hi : gap ≤ 402)
    (width : Nat) : doSyncPulse width gap s = pulseShorten (pulseValue width == 2) (pulseDecode width gap s) := by
  have keeps := pulseLock_of_locked gap ((bit_pulseDecode width gap s _).trans locked)
  rw [doSyncPulse_of_follower quiet follows, misSpaced_of_near lo hi, if_neg Bool.false_ne_true, keeps]

end Follower

/-! The frame (R46, R47, R55). -/

/-- D of a frame: the master's calendar at the marker less the follower's own, in ticks (R55). -/
def frameD (f : Nat) (k : Tick) : Int :=
  ((f / 2 ^ 32 % 2 ^ 48) * 250 + f / 2 ^ 24 % 256 : Nat) - (k.markCal * 250 + k.markSub : Nat)

/-- The tick logic after a frame, which has been taken. -/
def Tick.frameTaken (k : Tick) : Tick := { k with frame := [], collecting := false }

/-- The state after a good frame, but for D: the master's number is known, and the calendar is valid (R47, R53). -/
def frameAccept (f : Nat) (s : State) : State :=
  setF F.TICK_CAL_STAT_VALID 1 (setF F.TICK_SYNC_STAT_MASTER_DEVID (f / 4096 % 4096) { s with tick := s.tick.frameTaken })

/-- D above 0 waits for the 81st tick, below 0 holds the calendar (R55). -/
def frameApply (f : Nat) (d : Int) (s : State) : State :=
  if 0 < d then { s with tick := { s.tick with addD := some (d.toNat, 1) } }
  else if d < 0 then
    setF F.TICK_CAL_STAT_HOLD 1 { s with tick := { s.tick with hold := (-d).toNat } }
      |> sed 0x0032 sNOTICE 16 (-d).toNat (f / 4096 % 4096) 0
  else s

section Frame
variable {s : State} (full : s.tick.frame.length = 80) (follows : isFollower s = true)
include full follows

theorem doSyncFrame_of_bad
    (bad : frameVal s.tick.frame % 16 ≠ frameCheck (frameVal s.tick.frame) ∨ frameVal s.tick.frame / 16 % 256 ≠ 0) :
    doSyncFrame s = satInc F.TICK_SYNC_STAT_FRAME_ERR { s with tick := s.tick.frameTaken } := by
  simp only [doSyncFrame, full, follows, if_pos bad]
  rfl

theorem doSyncFrame_of_good (check : frameVal s.tick.frame % 16 = frameCheck (frameVal s.tick.frame))
    (zero : frameVal s.tick.frame / 16 % 256 = 0) :
    doSyncFrame s = frameApply (frameVal s.tick.frame) (frameD (frameVal s.tick.frame) s.tick)
      (frameAccept (frameVal s.tick.frame) s) := by
  have good : ¬ (frameVal s.tick.frame % 16 ≠ frameCheck (frameVal s.tick.frame) ∨ frameVal s.tick.frame / 16 % 256 ≠ 0) := by
    simp [check, zero]
  simp only [doSyncFrame, full, follows, if_neg good]
  rfl

end Frame

theorem frameAccept_tick (f : Nat) (s : State) : (frameAccept f s).tick = s.tick.frameTaken := by simp [frameAccept]

theorem fld_frameAccept_master (f : Nat) (s : State) :
    fld (frameAccept f s) F.TICK_SYNC_STAT_MASTER_DEVID = f / 4096 % 4096 := by
  rw [frameAccept, fld_setF_other _ _ _ _ (.inl (by decide)), fld_setF_same _ _ _ rfl]
  exact Nat.mod_mod ..

theorem bit_frameAccept_valid (f : Nat) (s : State) : bit (frameAccept f s) F.TICK_CAL_STAT_VALID = true :=
  bit_setF_one _ _ rfl rfl

section Apply
variable (f : Nat) (d : Int) (s : State)

theorem frameApply_of_pos (h : 0 < d) : frameApply f d s = { s with tick := { s.tick with addD := some (d.toNat, 1) } } :=
  if_pos h

theorem frameApply_tick_of_pos (h : 0 < d) : (frameApply f d s).tick = { s.tick with addD := some (d.toNat, 1) } := by
  rw [frameApply_of_pos f d s h]

theorem frameApply_of_neg (h : d < 0) :
    frameApply f d s = sed 0x0032 sNOTICE 16 (-d).toNat (f / 4096 % 4096) 0
      (setF F.TICK_CAL_STAT_HOLD 1 { s with tick := { s.tick with hold := (-d).toNat } }) := by
  rw [frameApply, if_neg (by omega), if_pos h]

theorem frameApply_tick_of_neg (h : d < 0) : (frameApply f d s).tick = { s.tick with hold := (-d).toNat } := by
  rw [frameApply_of_neg f d s h, sed_tick, setF_tick]

theorem bit_frameApply_hold (h : d < 0) : bit (frameApply f d s) F.TICK_CAL_STAT_HOLD = true := by
  rw [frameApply_of_neg f d s h, bit_sed _ _ _ _ _ _ _ _ rfl]
  exact bit_setF_one _ _ rfl rfl

theorem frameApply_zero : frameApply f 0 s = s := rfl

theorem frameApply_frame : (frameApply f d s).tick.frame = s.tick.frame := by
  unfold frameApply
  split
  · rfl
  · split <;> simp

theorem frameApply_collecting : (frameApply f d s).tick.collecting = s.tick.collecting := by
  unfold frameApply
  split
  · rfl
  · split <;> simp

/-- Of the register fields, D changes HOLD alone. -/
theorem fld_frameApply {g : Fld} (h : g.reg ≠ F.TICK_CAL_STAT_HOLD.reg ∨ (g.ok = true ∧ F.TICK_CAL_STAT_HOLD.apart g = true))
    (kept : sedAddr g.reg = false) : fld (frameApply f d s) g = fld s g := by
  unfold frameApply
  split
  · exact fld_mk ..
  · split
    · rw [fld_sed _ _ _ _ _ _ _ _ kept, fld_setF_other _ _ _ _ h]
      exact fld_mk ..
    · rfl

end Apply

/-! The calendar (R33, R55). -/

theorem setCal_eq (ms sub : Nat) (s : State) :
    setCal ms sub s = { s with
      regs := (setF F.TICK_CAL_STAT_SUBMS sub s).regs, tick := { s.tick with cal := ms % 2 ^ 48 } } := by
  rw [setCal, setF_withTick, setF_eq]

theorem fld_setCal_sub (ms sub : Nat) (s : State) : fld (setCal ms sub s) F.TICK_CAL_STAT_SUBMS = sub % 256 :=
  fld_setF_same _ _ _ rfl

theorem setCal_tick (ms sub : Nat) (s : State) : (setCal ms sub s).tick = { s.tick with cal := ms % 2 ^ 48 } :=
  setF_tick ..

/-- A calendar given in ticks is the one that is set, as long as it fits the 48 bits of its milliseconds. -/
theorem calTicks_setCal {n : Nat} (fits : n < 2 ^ 48 * 250) (s : State) : calTicks (setCal (n / 250) (n % 250) s) = n := by
  rw [calTicks, fld_setCal_sub, setCal_tick]
  simp only
  omega

theorem doCalAdjust_due {d : Nat} {s : State} (due : s.tick.addD = some (d, 0)) :
    doCalAdjust s = setCal ((calTicks s + d) / 250) ((calTicks s + d) % 250) { s with tick := { s.tick with addD := none } } := by
  simp only [doCalAdjust, due]

/-! A conflict of two masters (R52). -/

theorem doSyncConflict_of_master {s : State} (master : s.tick.role = 1) (drives : s.tick.forcedFollower = false)
    (quiet : s.tick.listen = none) :
    doSyncConflict s = sed 0x0022 sERROR 16 (devid s) 0 0 (setF F.TICK_SYNC_STAT_CONFLICT 1
      { s with tick := { s.tick with listen := some (devid s * 4), heard := false } }) :=
  if_pos ⟨master, drives, quiet⟩

/-- Settles O14: a pulse by its three parts, a frame by D's sign, and the other events by the branch they take. -/
theorem rippleSync : Obligations.RippleSync := by
  refine ⟨?listens, ?alone, ?dataBit, ?marker, ?shortens, ?locks, ?misplaced, ?goodFrame, ?badFrame, ?adjust, ?lost, ?conflict,
    ?listenEnd⟩
  case listens =>
    intro width gap s listens
    exact run_next (if_pos listens) rfl
  case alone =>
    intro width gap s quiet alone
    have effect : doSyncPulse width gap s.begun = s.begun := by
      simp only [doSyncPulse, begun_field_tick, quiet, show isFollower s.begun = false from alone]
      rfl
    exact run_next effect rfl
  case dataBit =>
    intro width gap s quiet follows locked isBit lo hi
    have effect : doSyncPulse width gap s.begun = pulseDecode width gap s.begun := by
      rw [doSyncPulse_of_bit (s := s.begun) quiet follows isBit, misSpaced_of_near lo hi, if_neg Bool.false_ne_true]
      exact pulseLock_of_locked gap ((bit_pulseDecode width gap s.begun _).trans locked)
    rw [pulseDecode, Tick.decoded_bit isBit] at effect
    exact run_next effect rfl
  case marker =>
    intro width gap s quiet follows locked notPending isMark lo hi
    have effect := doSyncPulse_of_locked (s := s.begun) quiet follows locked lo hi width
    rw [pulseShorten_of_notPending (s := pulseDecode width gap s.begun) notPending, pulseDecode, Tick.decoded_marker isMark] at effect
    exact run_next effect rfl
  case shortens =>
    intro width gap s quiet follows locked pending isMark lo hi
    have effect := doSyncPulse_of_locked (s := s.begun) quiet follows locked lo hi width
    rw [pulseValue_of_marker isMark] at effect
    refine ⟨_, run_effect effect, ?_⟩
    have after := pulseShorten_tick (s := pulseDecode width gap s.begun) pending locked
    rw [pulseDecode_tick, Tick.decoded_marker isMark] at after
    dsimp only
    rw [beq_self_eq_true, after]
    exact ⟨rfl, rfl, rfl, rfl, rfl⟩
  case locks =>
    intro width s quiet follows free isBit
    have effect : doSyncPulse width 400 s.begun = pulseLock 400 (pulseDecode width 400 s.begun) :=
      doSyncPulse_of_bit (s := s.begun) quiet follows isBit 400
    have after := pulseLock_tick (s := pulseDecode width 400 s.begun) free
    refine ⟨_, run_effect effect, bit_pulseLock_locked (s := pulseDecode width 400 s.begun) free, ?_⟩
    dsimp only
    rw [after]
    exact ⟨rfl, rfl, Bool.or_comm ..⟩
  case misplaced =>
    intro width gap s quiet follows locked isBit outside
    have other : gap ≠ 400 := by omega
    have effect : doSyncPulse width gap s.begun = pulseDecode width gap (doSyncLost (gap / 400) s.begun) := by
      rw [doSyncPulse_of_bit (s := s.begun) quiet follows isBit, if_pos ((misSpaced_iff gap).mpr outside),
        pulseLock_of_otherGap other]
    refine ⟨_, run_effect effect, bit_doSyncLost_locked (s := s.begun) follows locked _,
      bit_doSyncLost_lost (s := s.begun) follows locked _, ?_⟩
    dsimp only
    rw [pulseDecode_tick, Tick.decoded_bit isBit, doSyncLost_tick (s := s.begun) follows locked]
    exact ⟨rfl, if_neg other, rfl⟩
  case goodFrame =>
    intro s full follows check zero f d
    have effect : doSyncFrame s.begun = frameApply f d (frameAccept f s.begun) :=
      doSyncFrame_of_good (s := s.begun) full follows check zero
    refine ⟨_, run_effect effect, ?_, ?_, ?_, ?_, ?_, ?_, ?_⟩
    · exact (frameApply_frame ..).trans (by rw [frameAccept_tick]; rfl)
    · exact (frameApply_collecting ..).trans (by rw [frameAccept_tick]; rfl)
    · exact (fld_frameApply _ _ _ (.inl (by decide)) rfl).trans (fld_frameAccept_master ..)
    · have kept := fld_frameApply f d (frameAccept f s.begun) (g := F.TICK_CAL_STAT_VALID) (.inr ⟨rfl, rfl⟩) rfl
      exact (congrArg (· == 1) kept).trans (bit_frameAccept_valid ..)
    · intro pos
      dsimp only
      rw [frameApply_tick_of_pos f d _ pos, frameAccept_tick]
      exact ⟨rfl, rfl⟩
    · intro neg
      dsimp only
      rw [frameApply_tick_of_neg f d _ neg, frameAccept_tick]
      exact ⟨rfl, bit_frameApply_hold f d (frameAccept f s.begun) neg, rfl⟩
    · intro same
      dsimp only
      rw [same, frameApply_zero, frameAccept_tick]
      exact ⟨rfl, rfl⟩
  case badFrame =>
    intro s full follows bad
    exact congrArg _ (after_congr (doSyncFrame_of_bad (s := s.begun) full follows bad))
  case adjust =>
    intro d s due fits
    have effect := doCalAdjust_due (s := s.begun) due
    refine ⟨_, run_effect effect, ?_, ?_, ?_, ?_⟩
    · exact calTicks_setCal (n := calTicks s + d) fits _
    · refine Nat.lt_of_le_of_lt (Nat.le_of_eq (fld_setCal_sub ..)) ?_
      omega
    · exact congrArg Tick.addD (setCal_tick ..)
    · simp only [setCal_eq]
      rfl
  case lost =>
    intro n s follows locked
    exact ⟨_, run_after .., bit_doSyncLost_locked (s := s.begun) follows locked n,
      bit_doSyncLost_lost (s := s.begun) follows locked n, doSyncLost_tick (s := s.begun) follows locked n,
      (unrecorded_after ..).trans (unrecorded_doSyncLost (s := s.begun) follows locked n)⟩
  case conflict =>
    intro s master drives quiet
    have same : unrecorded (s.after doSyncConflict) = unrecorded (setF F.TICK_SYNC_STAT_CONFLICT 1
        { s.begun with tick := { s.tick with listen := some (devid s * 4), heard := false } }) := by
      rw [unrecorded_after, doSyncConflict_of_master (s := s.begun) master drives quiet, sed_sr]
      rfl
    refine ⟨_, run_after .., ?_, (sr_tick same).trans (setF_tick ..), same⟩
    rw [bit, sr_fld same _ rfl]
    exact bit_setF_one _ _ rfl rfl
  case listenEnd =>
    intro s ended
    exact run_next (if_pos ended) rfl

end Sys2Proof.Machine
end

section
namespace Sys2Proof.Machine

/-! ### The tick boundary (R33) -/

/-! What each part of the first four steps makes of the tick count (R33). -/

theorem listenTick_count (s : State) : (listenTick s).tick.count = s.tick.count := by
  cases listens : s.tick.listen with
  | none => simp only [listenTick, listens]
  | some n =>
    simp only [listenTick, listens, doListenEnd]
    split <;> rfl

theorem roleApply_count (s : State) : (roleApply s).tick.count = s.tick.count := rfl

theorem drivePulse_count (s : State) : (drivePulse s).tick.count = s.tick.count := by
  unfold drivePulse
  split
  · dsimp only
    split
    · rfl
    · split <;> rfl
  · split <;> rfl

theorem freeRunTick_count (s : State) : (freeRunTick s).tick.count = s.tick.count := by
  unfold freeRunTick
  split <;> rfl

theorem setCal_count (ms sub : Nat) (s : State) : (setCal ms sub s).tick.count = s.tick.count := by rw [setCal_tick]

/-! The calendar's step (R33, R55): held, at the end of a millisecond, and within one. -/

theorem calAdvance_of_held {s : State} (held : 0 < s.tick.hold) :
    calAdvance s = setB F.TICK_CAL_STAT_HOLD (decide (0 < s.tick.hold - 1))
      { s with tick := { s.tick with hold := s.tick.hold - 1 } } := if_pos held

theorem calAdvance_of_last {s : State} (runs : s.tick.hold = 0) (last : fld s F.TICK_CAL_STAT_SUBMS = 249) :
    calAdvance s = setCal (s.tick.cal + 1) 0 s := by
  rw [calAdvance, if_neg (by omega), if_pos last]

theorem calAdvance_of_within {s : State} (runs : s.tick.hold = 0) (within : fld s F.TICK_CAL_STAT_SUBMS ≠ 249) :
    calAdvance s = setF F.TICK_CAL_STAT_SUBMS (fld s F.TICK_CAL_STAT_SUBMS + 1) s := by
  rw [calAdvance, if_neg (by omega), if_neg within]

theorem calAdvance_count (s : State) : (calAdvance s).tick.count = s.tick.count := by
  by_cases held : 0 < s.tick.hold
  · rw [calAdvance_of_held held, setB_tick]
  · have runs : s.tick.hold = 0 := by omega
    by_cases last : fld s F.TICK_CAL_STAT_SUBMS = 249
    · rw [calAdvance_of_last runs last, setCal_count]
    · rw [calAdvance_of_within runs last, setF_tick]

theorem calSetJudge_count (s : State) : (calSetJudge s).tick.count = s.tick.count := by
  cases armed : s.tick.calSet with
  | none => simp only [calSetJudge, armed]
  | some ms =>
    simp only [calSetJudge, armed]
    split <;> simp [setCal_count]

theorem budgetApply_count (s : State) : (budgetApply s).tick.count = s.tick.count := by
  cases committed : s.tick.budgetSet with
  | none => simp only [budgetApply, committed]
  | some words => simp [budgetApply, committed]

/-- Of the four steps, the count's own step alone changes the count. -/
theorem tickAdvance_count (s : State) : (tickAdvance s).tick.count = (s.tick.count + 1) % 2 ^ 64 := by
  simp only [tickAdvance, budgetApply_count, calSetJudge_count, calAdvance_count, freeRunTick_count, drivePulse_count]
  split
  · rw [roleApply_count, listenTick_count]
  · rw [listenTick_count]

/-! The boundary of a part that is off, that has not started, and that has. -/

/-- The calendar, the count, the answers that waited for them and the work that overran: what a part does at a boundary
before it starts (R33). -/
def boundaryStart (ov : List Overrun) (s : State) : State :=
  forEach ov overrun (modSup (fun x => { x with issued := [] })
    (answerTimestamps (calSetRefused s) (tickAdvance (cycleTick s))))

theorem doBoundary_of_off {s : State} (off : 6 ≤ s.sup.st) (ov : List Overrun) (silent : List Nat) (rngOk : Bool) :
    doBoundary ov silent rngOk s = s := if_pos off

theorem doBoundary_of_notStarted {ov : List Overrun} {s : State} (on : s.sup.st < 6)
    (before : (boundaryStart ov s).sup.t0 = false) (silent : List Nat) (rngOk : Bool) :
    doBoundary ov silent rngOk s = boundaryStart ov s :=
  (if_neg (Nat.not_le.mpr on)).trans (if_pos (by rw [← boundaryStart, before]; rfl))

/-- The boundary work of a part that has started, from the epoch step to the resets held for a boundary (R33). -/
def boundaryRun (silent : List Nat) (rngOk : Bool) (u : State) : State :=
  let s1 := epochStep rngOk u
  let s2 := when (coreOn s1 && (s1.sed.flushDue || tickInEpoch s1 == 0)) sedFlush s1
  let s3 := when (slicesServe s2 && !s2.mtl.internalQ.isEmpty) internalServe s2
  let s4 := fwSwitch (sfServe (when (coreOn s3) shoreTick s3))
  let s5 := planStep (when s4.ndx.live.isSome reLevel (ndxLive s4))
  let s6 := sndBoundary (plumbBoundary (levelBoundary (tokenStep
    (when (coreOn s5) (fun s => recurring rngOk (diePolls silent s)) s5))))
  let s7 := capStep (idleBoundary (flushCut (when (coreOn s6) (fun s => pump (nrwSend 1 (nrwSend 0 (nrwTake s)))) s6)))
  resetStep (offStep (when (inHalt s7) (entryCut 5) s7))

theorem doBoundary_of_started {ov : List Overrun} {s : State} (on : s.sup.st < 6)
    (started : (boundaryStart ov s).sup.t0 = true) (silent : List Nat) (rngOk : Bool) :
    doBoundary ov silent rngOk s = boundaryRun silent rngOk (boundaryStart ov s) :=
  (if_neg (Nat.not_le.mpr on)).trans (if_neg (by rw [← boundaryStart, started]; decide))

/-- Settles O22: a boundary by the part's state, and the calendar by its step. -/
theorem tickBoundary : Obligations.TickBoundary := by
  refine ⟨?off, ?on, tickAdvance_count, ?within, ?last, ?held⟩
  case off =>
    intro ov silent rngOk s off
    exact run_effect (doBoundary_of_off (s := s.begun) off ov silent rngOk)
  case on =>
    intro ov silent rngOk s on u
    exact ⟨fun before => run_effect (doBoundary_of_notStarted (s := s.begun) on before silent rngOk),
      fun started => run_effect (doBoundary_of_started (s := s.begun) on started silent rngOk)⟩
  case within =>
    intro s runs within
    rw [calAdvance_of_within runs within]
    exact ⟨congrArg Tick.cal (setF_tick ..), fld_setF_same _ _ _ rfl⟩
  case last =>
    intro s runs last
    rw [calAdvance_of_last runs last]
    exact ⟨congrArg Tick.cal (setCal_tick ..), fld_setCal_sub ..⟩
  case held =>
    intro s held
    rw [calAdvance_of_held held, setB_tick]
    exact ⟨rfl, rfl⟩

end Sys2Proof.Machine
end

/-! Proofs of the family of chapter 04: the queue fabric's ring tests, ring errors and copy-switch (R152 to R155), and the
credits that a reservation or pacing held back (R149, R156). -/

section
namespace Sys2Proof.Machine

/-! ### What the ring tests share -/

/-- A guarded change of the model, as `when` writes it. -/
theorem when_decide (p : Prop) [Decidable p] (f : State → State) (s : State) :
    when (decide p) f s = if p then f s else s := by
  by_cases h : p <;> simp [when, h]

/-- A ring that fails its test is retired: the queue stays in POOL (R152 to R154). -/
def ringRetire (q why : Nat) (s : State) : State :=
  sed 0x0204 sERROR 1 q why 0 (modQueue q (fun x => { x with mode := 2 }) (modQueue q (fun x => { x with test := .none }) s))

/-- A ring that passes an on-demand test or a re-test goes back to RING and gives its cells back (R153, R154). -/
def ringReturn (q : Nat) (s : State) : State :=
  when (decide (q < 16)) (creditsFull (q / 4)) (resvEnd q (setMode q 0
    (modQueue q (fun x => { x with wp := 0, rp := 0, reserved := 0 }) (modQueue q (fun x => { x with test := .none }) s))))

/-! ### The start-up test (R152) -/

section Startup
variable {q : Nat} {s : State} (on : queueOn s q = true) (starting : (queueOf s q).test = .startup)
include on starting

theorem doStartupDone_pass :
    doStartupDone q 0 s = ringsReady (when (decide (q < 16)) (creditsFull (q / 4)) (setMode q 0
      (modQueue q (fun x => { x with wp := 0, rp := 0 }) (modQueue q (fun x => { x with test := .none }) s)))) := by
  rw [when_decide]
  exact if_neg (by simp [on, starting])

theorem doStartupDone_fail {bad : Nat} (fails : bad ≠ 0) : doStartupDone q bad s = ringsReady (ringRetire q 0 s) :=
  (if_neg (by simp [on, starting])).trans (congrArg ringsReady (if_neg fails))

end Startup

/-! ### The on-demand test (R153) -/

/-- What turns an on-demand test of a queue away (R153). -/
def bistBarred (s : State) (q : Nat) : Bool :=
  !queueOn s q || (queueOf s q).mode ≠ 0 || (queueOf s q).test ≠ .none || (fullCredits s q && decide (unreserved s < 512))

theorem bistBarred_iff (s : State) (q : Nat) :
    bistBarred s q = true ↔ queueOn s q = false ∨ (queueOf s q).mode ≠ 0 ∨ (queueOf s q).test ≠ .none ∨
      (fullCredits s q = true ∧ unreserved s < 512) := by
  simp [bistBarred, or_assoc]

theorem queueOn_setF (f : Fld) (v : Nat) (s : State) (q : Nat) : queueOn (setF f v s) q = queueOn s q := by
  rw [setF_eq]
  rfl

theorem queueOf_setF (f : Fld) (v : Nat) (s : State) (q : Nat) : queueOf (setF f v s) q = queueOf s q :=
  congrArg (tget Queue.init · q) (setF_queues f v s)

theorem unreserved_setF (f : Fld) (v : Nat) (s : State) : unreserved (setF f v s) = unreserved s := by
  rw [setF_eq]
  rfl

theorem fullCredits_setF {f : Fld} (apart : f.reg ≠ F.QF_CTL_CREDITS_FULL.reg) (v : Nat) (s : State) (q : Nat) :
    fullCredits (setF f v s) q = fullCredits s q := by
  rw [fullCredits, fullCredits, fld_setF_other _ _ _ _ (.inl apart.symm)]

/-- The write that names the queue leaves the reasons to refuse it as they were. -/
theorem bistBarred_setF_queue (v : Nat) (s : State) (q : Nat) : bistBarred (setF F.QF_BIST_CTL_QUEUE v s) q = bistBarred s q := by
  rw [bistBarred, bistBarred, queueOn_setF, queueOf_setF, unreserved_setF, fullCredits_setF (by decide)]

theorem doBistStart_otherPath {path : Nat} (other : path ≠ tuten) (q : Nat) (s : State) : doBistStart path q s = s :=
  if_pos other

theorem doBistStart_barred {q : Nat} {s : State} (barred : bistBarred s q = true) :
    doBistStart tuten q s = setF F.QF_BIST_STAT_REFUSED 1 (setF F.QF_BIST_CTL_QUEUE q s) :=
  (if_neg (not_not_intro rfl)).trans (if_pos ((bistBarred_setF_queue q s q).trans barred))

theorem doBistStart_free {q : Nat} {s : State} (free : bistBarred s q = false) :
    doBistStart tuten q s = drainCheck q (setMode q 1 (modQueue q (fun x => { x with test := .draining true })
      (reservePool q (setF F.QF_BIST_STAT_QUEUE q (setF F.QF_BIST_CTL_START 1 (setF F.QF_BIST_CTL_QUEUE q s)))))) :=
  (if_neg (not_not_intro rfl)).trans (if_neg (Bool.eq_false_iff.mp ((bistBarred_setF_queue q s q).trans free)))

/-! ### The end of an on-demand test and of a re-test (R153, R154) -/

section Done
variable {q bad : Nat} {s : State}

theorem doBistDone_running_pass (runs : (queueOf s q).test = .running true) :
    doBistDone q 0 s = sed 0x0220 sINFO 1 q 1 0 (setF F.QF_BIST_STAT_FAIL 0 (setF F.QF_BIST_STAT_PASS 1
      (setF F.QF_BIST_STAT_QUEUE q (setF F.QF_BIST_CTL_START 0 (ringReturn q s))))) := by
  simp only [doBistDone, runs, if_true, ringReturn, when_decide]

theorem doBistDone_running_fail (runs : (queueOf s q).test = .running true) (fails : bad ≠ 0) :
    doBistDone q bad s = setF F.QF_BIST_STAT_FAIL 1 (setF F.QF_BIST_STAT_PASS 0
      (setF F.QF_BIST_STAT_QUEUE q (setF F.QF_BIST_CTL_START 0 (ringRetire q 2 s)))) := by
  simp only [doBistDone, runs, if_neg fails, ringRetire]

theorem doBistDone_retest_pass (retests : (queueOf s q).test = .retest) :
    doBistDone q 0 s = sed 0x0203 sNOTICE 1 q 0 0 (ringReturn q s) := by
  simp only [doBistDone, retests, if_true, ringReturn, when_decide]

theorem doBistDone_retest_fail (retests : (queueOf s q).test = .retest) (fails : bad ≠ 0) :
    doBistDone q bad s = ringRetire q 1 s := by
  simp only [doBistDone, retests, if_neg fails, ringRetire]

end Done

/-! ### Ring errors and the copy-switch (R154, R155) -/

section RingUe
variable {q i word : Nat} {e : QEntry} {s : State} (on : queueOn s q = true) (entry : (queueOf s q).entries[i]? = some e)
include on entry

/-- An entry's uncorrectable word is counted, and upsets the entry where it is one of its data words. -/
theorem doRingUe_entry :
    doRingUe q i word s = if 2 ≤ word ∧ word ≤ 10 then entryUpset q e (ringUeCount agRequest q i word e s)
      else ringUeCount agRequest q i word e s := by
  simp [doRingUe, doRingUeBy, on, entry]

theorem doRingUe_header (header : word < 2 ∨ 10 < word) : doRingUe q i word s = ringUeCount agRequest q i word e s := by
  rw [doRingUe_entry on entry, if_neg (by omega)]

theorem doRingUe_data (lo : 2 ≤ word) (hi : word ≤ 10) :
    doRingUe q i word s = entryUpset q e (ringUeCount agRequest q i word e s) := by
  rw [doRingUe_entry on entry, if_pos ⟨lo, hi⟩]

end RingUe

/-- The test that follows a copy-switch, and the switch to POOL where a drain has not made it already (R154). -/
def copySwitchNext (q : Nat) (test : RingTest) (s : State) : RingTest × State :=
  match test with
  | .draining d => (.running d, s)
  | _ => (.retest, reservePool q (setMode q 1 s))

/-- A copy-switch: n ring entries go to the pool, dequeuing goes on, and the switch is recorded with its t ticks (R154). -/
def copySwitchEnd (q n t : Nat) (next : RingTest × State) : State :=
  pump (faultStall 5 t 8 (sed 0x0202 sWARNING 1 q n t (modQueue q (fun x => { x with stopped := false, test := next.1 })
    (forEach (List.range n) (fun _ s => copyEntry q s) next.2))))

theorem doCopySwitch_stopped {q : Nat} {s : State} (stopped : (queueOf s q).stopped = true) :
    doCopySwitch q s = copySwitchEnd q ((queueOf s q).entries.filter (fun e => e.cell.isNone)).length (draw 3 s).1.toNat
      (copySwitchNext q (queueOf s q).test (draw 3 s).2) :=
  if_neg (by simp [stopped])

/-! ### Credits that were held back (R149, R156) -/

theorem doPoolReserved_made {q : Nat} {s : State} (waits : (queueOf s q).resvWait = true) (room : 512 ≤ unreserved s) :
    doPoolReserved q s = resvEnd q (modQueue q (fun x => { x with reserved := 512 }) s) :=
  if_pos (by simp [waits, room])

theorem queueOf_modQueue_same (q : Nat) (f : Queue → Queue) (s : State) : queueOf (modQueue q f s) q = f (queueOf s q) :=
  tget_tmod_same ..

theorem doPacedReturn_withheld {q : Nat} {s : State} (ingress : isIngress q = true) (paced : (queueOf s q).paced = true)
    (withheld : 0 < (queueOf s q).withheld) (free : (queueOf s q).resvWait = false) :
    doPacedReturn q s = returnCredits q 1 (modQueue q (fun x => { x with withheld := x.withheld - 1 })
      (modQueue q (fun x => { x with recent := false }) s)) :=
  if_pos (by simp [queueOf_modQueue_same, ingress, paced, withheld, free])

/-- Settles O25: each event of a ring by its outcome, and each withheld credit by the guard that lets it go. -/
theorem queueFabric : Obligations.QueueFabric := by
  refine ⟨?startup, ?bistFree, ?bistBarred, ?bistPath, ?bistPass, ?bistFail, ?retestPass, ?retestFail, ?ringUe, ?copySwitch,
    ?reserved, ?paced⟩
  case startup =>
    intro q bad s on starting
    refine ⟨?pass, fun fails => run_effect (doStartupDone_fail (s := s.begun) on starting fails)⟩
    rintro rfl
    exact run_effect (doStartupDone_pass (s := s.begun) on starting)
  case bistFree =>
    intro q s on ring idle room
    refine run_effect (doBistStart_free (s := s.begun) (Bool.eq_false_iff.mpr fun barred => ?_))
    obtain off | mode | test | ⟨full, short⟩ := (bistBarred_iff s q).mp barred
    · exact absurd on (Bool.eq_false_iff.mp off)
    · exact mode ring
    · exact test idle
    · exact absurd (room full) (Nat.not_le.mpr short)
  case bistBarred =>
    intro q s barred
    exact run_effect (doBistStart_barred (s := s.begun) ((bistBarred_iff s q).mpr barred))
  case bistPath =>
    intro path q s other
    exact run_effect (doBistStart_otherPath other q s.begun)
  case bistPass =>
    intro q s runs
    exact run_effect (doBistDone_running_pass (s := s.begun) runs)
  case bistFail =>
    intro q bad s runs fails
    exact run_effect (doBistDone_running_fail (s := s.begun) runs fails)
  case retestPass =>
    intro q s retests
    exact run_effect (doBistDone_retest_pass (s := s.begun) retests)
  case retestFail =>
    intro q bad s retests fails
    exact run_effect (doBistDone_retest_fail (s := s.begun) retests fails)
  case ringUe =>
    intro q i word e s on entry
    exact ⟨fun header => run_effect (doRingUe_header (s := s.begun) on entry header),
      fun lo hi => run_effect (doRingUe_data (s := s.begun) on entry lo hi)⟩
  case copySwitch =>
    intro q s stopped
    exact run_effect (doCopySwitch_stopped (s := s.begun) stopped)
  case reserved =>
    intro q s waits room
    exact run_effect (doPoolReserved_made (s := s.begun) waits room)
  case paced =>
    intro q s ingress paced withheld free
    exact run_effect (doPacedReturn_withheld (s := s.begun) ingress paced withheld free)

end Sys2Proof.Machine
end

/-! Proofs of the family of chapter 05: the cleaner and its control (R193 to R195, R208), and the start, the refusal and the end
of a line command (R196 to R200). -/

section
namespace Sys2Proof.Machine

/-! ### The cleaner (R193, R194) -/

section Cleaner
variable {n : Nat} {s : State} (serves : inHalt s = false) (on : coreOn s = true) (slice : n < 48)
include serves on slice

/-- What lets the slice's cleaner act at all (R207). -/
theorem clean_serves : (inHalt s || !coreOn s || decide (48 ≤ n)) = false := by simp [serves, on, slice]

theorem doClean_takes {k : Nat} {w : Way} (runs : cleanRuns (cleanLatch s) n = true)
    (room : (sliceOf (cleanLatch s) n).eb.length < (if raised (cleanLatch s) then 16 else 12))
    (next : cleanNext (cleanLatch s) n = some (k, w)) :
    doClean n s = satInc F.LC_CLEAN_STAT_LINES (modSlice n (fun x => { x with cleanPos := k / 16 % 4096 })
      (writeBack k true (cleanLatch s)).1) := by
  have takes : (!cleanRuns (cleanLatch s) n ||
      decide ((if raised (cleanLatch s) then 16 else 12) ≤ (sliceOf (cleanLatch s) n).eb.length)) = false := by
    simpa [runs] using room
  rw [doClean, if_neg (Bool.eq_false_iff.mp (clean_serves serves on slice))]
  dsimp only
  rw [if_neg (Bool.eq_false_iff.mp takes), next]

theorem doClean_rests (rests : cleanRuns (cleanLatch s) n = false) : doClean n s = cleanLatch s := by
  rw [doClean, if_neg (Bool.eq_false_iff.mp (clean_serves serves on slice))]
  exact if_pos (by simp [rests])

end Cleaner

/-! ### The cleaner's control (R208) -/

section CleanCtl
variable {v : BitVec 32} (s : State)

theorem doCleanCtl_refused (bad : v.toNat % 64 ≤ v.toNat / 256 % 64) : doCleanCtl v s = setF F.LC_ERR2_CFG 1 s := if_pos bad

theorem doCleanCtl_set (ok : v.toNat / 256 % 64 < v.toNat % 64) :
    doCleanCtl v s = cleanLatch (raiseEval 1 (setB F.LC_CLEAN_CTL_FORCE (v.getLsbD 16)
      (setF F.LC_CLEAN_CTL_STOP (v.toNat / 256 % 64) (setF F.LC_CLEAN_CTL_START (v.toNat % 64) s)))) :=
  if_neg (Nat.not_le.mpr ok)

end CleanCtl

/-- A path that may issue line commands and write the cleaner's control: a head that is on, or the management side. -/
def mayCommand (s : State) (path : Nat) : Bool := headOn s path || isMgmt path

theorem mayCommand_iff (s : State) (path : Nat) : mayCommand s path = true ↔ headOn s path = true ∨ isMgmt path = true :=
  Bool.or_eq_true_iff

theorem exec_lcCleanCtlWrite {path : Nat} {v : BitVec 32} {s t : State} (may : mayCommand s path = true)
    (effect : doCleanCtl v s.begun = t) : exec (.lcCleanCtlWrite path v) s = .next { t with pending := s.pending } :=
  run_effect ((if_pos may).trans effect)

/-! ### Line commands (R196 to R200) -/

/-- The five commands that name their own OP, with the OP of each (R196). -/
def opCommands (path : Nat) (v : BitVec 32) : List (Instr × Nat) :=
  [(.lcmdZero path v, 1), (.lcmdFlush path v, 2), (.lcmdPrefetch path v, 3), (.lcmdPin path v, 4), (.lcmdDemote path v, 5)]

/-- Each of the five is the same change, by its OP. -/
theorem exec_of_mem_opCommands {path op : Nat} {v : BitVec 32} {c : Instr} (mem : (c, op) ∈ opCommands path v) (s : State) :
    exec c s = run (doLcmd path op v) s := by
  simp only [opCommands, List.mem_cons, Prod.mk.injEq, List.not_mem_nil, or_false] at mem
  obtain ⟨rfl, rfl⟩ | ⟨rfl, rfl⟩ | ⟨rfl, rfl⟩ | ⟨rfl, rfl⟩ | ⟨rfl, rfl⟩ := mem <;> rfl

theorem op_of_mem_opCommands {path op : Nat} {v : BitVec 32} {c : Instr} (mem : (c, op) ∈ opCommands path v) :
    1 ≤ op ∧ op ≤ 5 := by
  simp only [opCommands, List.mem_cons, Prod.mk.injEq, List.not_mem_nil, or_false] at mem
  omega

/-- The mode that says INTEGRITY HALT is no bank's LC_LCMD_CTL. -/
theorem inHalt_lcSetCtl (path op n keyidx : Nat) (s : State) : inHalt (lcSetCtl path op n keyidx s) = inHalt s := by
  have apart : Reg.GLB_STATE ≠ Reg.LC_LCMD_CTL path := by
    simp only [Reg.GLB_STATE, Reg.LC_LCMD_CTL]
    omega
  simp only [inHalt, mode, lcSetCtl]
  rw [fld_setF_other _ _ _ _ (.inl apart), fld_setF_other _ _ _ _ (.inl apart), fld_setF_other _ _ _ _ (.inl apart)]

section Go
variable {path : Nat} {s : State} (may : mayCommand s path = true) (on : coreOn s = true) (cache : unitOn s 2 = true)
  (op : Nat) (v : BitVec 32)
include may on cache

/-- Such a path's GO reaches the cache while the cores and the unit are on. -/
theorem go_taken : (!mayCommand s path || !coreOn s || !unitOn s 2) = false := by simp [may, on, cache]

/-- A GO while the path's command runs is ignored (R196). -/
theorem doLcmd_ignored (busy : (tfind s.lcmds path).isSome = true) :
    doLcmd path op v s = setF (F.LC_LCMD_STAT_IGNORED path) 1 s :=
  (if_neg (Bool.eq_false_iff.mp (go_taken may on cache))).trans (if_pos busy)

/-- A GO that finds the path free puts the control word, and the command starts or is refused (R198). -/
theorem doLcmd_free (free : tfind s.lcmds path = none) :
    doLcmd path op v s = lcStart path op (v.toNat / 16 % 65536 + 1)
      (lcSetCtl path op (v.toNat / 16 % 65536 + 1) (v.toNat / 2 ^ 20) s) :=
  (if_neg (Bool.eq_false_iff.mp (go_taken may on cache))).trans (if_neg (by simp [free]))

end Go

section Start
variable {path op n : Nat} {s : State} (serves : inHalt s = false)
include serves

theorem lcStart_badop (bad : op = 0 ∨ 6 ≤ op) : lcStart path op n s = lcRefuse path op 1 s := by
  rw [lcStart, if_neg (Bool.eq_false_iff.mp serves), if_pos bad]

theorem lcStart_runs (lo : 1 ≤ op) (hi : op ≤ 5) (ok : lcCheck s path op (lcFirst s path) n = none) :
    lcStart path op n s = lcRun path op (lcFirst s path) n s := by
  rw [lcStart, if_neg (Bool.eq_false_iff.mp serves), if_neg (by omega), ok]

theorem lcStart_refused {r : Nat} (lo : 1 ≤ op) (hi : op ≤ 5) (fails : lcCheck s path op (lcFirst s path) n = some r) :
    lcStart path op n s = lcRefuse path op r s := by
  rw [lcStart, if_neg (Bool.eq_false_iff.mp serves), if_neg (by omega), fails]

end Start

/-- LCMD_BADOP keeps the OP of the word it writes where that is no command's (R208). -/
theorem badop_of_mem {op : Nat} (bad : op ∈ [0, 6, 7]) : (if 6 ≤ op then op else 0) = op ∧ (op = 0 ∨ 6 ≤ op) := by
  simp only [List.mem_cons, List.not_mem_nil, or_false] at bad
  obtain rfl | rfl | rfl := bad <;> decide

/-! The end of a command (R199, R200). -/

section Done
variable {path : Nat} {c : LCmd} {s : State} (runs : tfind s.lcmds path = some c)
include runs

theorem doLcmdDone_of_some :
    doLcmdDone path s = if c.inFlight.isEmpty ∧ (c.stop ≠ 0 ∨ c.count ≤ c.next)
      then lcmdEnd path (if c.stop ≠ 0 then c.stop else c.result) s else pump s := by
  rw [doLcmdDone, runs]

theorem doLcmdDone_ends (settled : c.inFlight = []) (last : c.stop ≠ 0 ∨ c.count ≤ c.next) :
    doLcmdDone path s = lcmdEnd path (if c.stop ≠ 0 then c.stop else c.result) s := by
  rw [doLcmdDone_of_some runs, if_pos ⟨List.isEmpty_iff.mpr settled, last⟩]

theorem doLcmdDone_goesOn (more : c.inFlight ≠ [] ∨ (c.stop = 0 ∧ c.next < c.count)) : doLcmdDone path s = pump s := by
  rw [doLcmdDone_of_some runs, if_neg]
  rintro ⟨settled, last⟩
  obtain flying | ⟨goes, left⟩ := more
  · exact flying (List.isEmpty_iff.mp settled)
  · omega

end Done

/-- Settles O26: the cleaner by whether it runs, its control by its levels, and a line command by the path's own state and by
the checks of its range. -/
theorem lineCommands : Obligations.LineCommands := by
  refine ⟨?takes, ?rests, ?control, ?go, ?ignored, ?badop, ?done⟩
  case takes =>
    intro n k w s serves on slice runs room next
    exact run_effect (doClean_takes (s := s.begun) serves on slice runs room next)
  case rests =>
    intro n s serves on slice rests
    exact run_effect (doClean_rests (s := s.begun) serves on slice rests)
  case control =>
    intro path v s may
    have may := (mayCommand_iff s path).mpr may
    exact ⟨fun bad => exec_lcCleanCtlWrite may (doCleanCtl_refused s.begun bad),
      fun ok => exec_lcCleanCtlWrite may (doCleanCtl_set s.begun ok)⟩
  case go =>
    intro path op c v s may on cache free serves mem n u
    obtain ⟨lo, hi⟩ := op_of_mem_opCommands mem
    have servesThen : inHalt u = false := (inHalt_lcSetCtl ..).trans serves
    have starts : doLcmd path op v s.begun = lcStart path op n u :=
      doLcmd_free (s := s.begun) ((mayCommand_iff s path).mpr may) on cache op v free
    rw [exec_of_mem_opCommands mem]
    exact ⟨fun ok => run_effect (starts.trans (lcStart_runs servesThen lo hi ok)),
      fun r fails => run_effect (starts.trans (lcStart_refused servesThen lo hi fails))⟩
  case ignored =>
    intro path op c v s may on cache busy mem
    rw [exec_of_mem_opCommands mem]
    exact run_effect (doLcmd_ignored (s := s.begun) ((mayCommand_iff s path).mpr may) on cache op v busy)
  case badop =>
    intro path v s may on cache free serves named
    obtain ⟨same, bad⟩ := badop_of_mem named
    refine run_effect (f := doLcmd path _ v) ?_
    rw [same, doLcmd_free (s := s.begun) ((mayCommand_iff s path).mpr may) on cache _ v free]
    exact lcStart_badop ((inHalt_lcSetCtl ..).trans serves) bad
  case done =>
    intro path c s runs
    exact ⟨fun settled last => run_effect (doLcmdDone_ends (s := s.begun) runs settled last),
      fun more => run_effect (doLcmdDone_goesOn (s := s.begun) runs more)⟩

end Sys2Proof.Machine
end

/-! Proofs of the family of chapter 06: direct access (R261 to R264), senses (R217, R222, R227 to R231, R239, R241, R247, R248,
R733, R734), programs and erases with the timeouts that lead to them (R219, R225, R249, R250, R285, R307, R310), and the loss
and return of dies and channels (R251 to R253, R257 to R259). -/

section
namespace Sys2Proof.Machine

/-! ### Direct access (R261 to R264) -/

/-- The channel may enter direct access: asked for from the Tuten port, on a blank part (R263). -/
def daMayEnter (path : Nat) (s : State) : Prop :=
  path = tuten ∧ lifecycle s = 0 ∧ s.mtl.map.reachMap = [] ∧ s.mtl.map.fine = []

section Enter
variable {path c : Nat} {v : BitVec 32} {s : State} (mgmt : isMgmt path = true) (on : chanOn s c = true)
  (asks : v.getLsbD 0 = true) (outside : chanState s c ≠ 5)
include mgmt on asks outside

theorem daEnter_asked : (!isMgmt path || !chanOn s c || !v.getLsbD 0 || decide (chanState s c = 5)) = false := by
  simp [mgmt, on, asks, outside, -BitVec.getLsbD_eq_getElem]

theorem doDaEnter_of_may (may : daMayEnter path s) :
    doDaEnter path c v s = sed 0x0450 sNOTICE 5 c 0 0 (setF (F.MED_CH_STAT_STATE c) 5 (setF (F.MED_CH_CTL_DA c) 1
      (forEach (List.range 8) (fun d s => modDie (c * 8 + d) (fun x => { x with da := 1 }) s) s))) :=
  (if_neg (Bool.eq_false_iff.mp (daEnter_asked mgmt on asks outside))).trans (if_pos may)

theorem doDaEnter_of_mayNot (mayNot : ¬ daMayEnter path s) :
    doDaEnter path c v s = setF (F.MED_CH_DA_STAT_RESULT c) 10 s :=
  (if_neg (Bool.eq_false_iff.mp (daEnter_asked mgmt on asks outside))).trans (if_neg mayNot)

end Enter

/-- The five operations of direct access, each with its OP and with what it does to the die (R264). -/
def daOps (path c : Nat) (v : BitVec 32) (ok : Bool) : List (Instr × Nat × (Nat → Bool → Nat → Bool → State → Nat × State)) :=
  [(.daRead path c v ok, 1, daRead), (.daReadRaw path c v ok, 2, daReadRaw), (.daProgramRaw path c v ok, 3, daProgram),
    (.daErase path c v ok, 4, daErase), (.daReadInfo path c v ok, 5, daInfo)]

theorem daGo_of_mem {path c op : Nat} {v : BitVec 32} {ok : Bool} {i : Instr} {f : Nat → Bool → Nat → Bool → State → Nat × State}
    (mem : (i, op, f) ∈ daOps path c v ok) (s : State) : daGo path c op v ok s = daOp path c op v (f c ok) s := by
  simp only [daOps, List.mem_cons, Prod.mk.injEq, List.not_mem_nil, or_false] at mem
  obtain ⟨-, rfl, rfl⟩ | ⟨-, rfl, rfl⟩ | ⟨-, rfl, rfl⟩ | ⟨-, rfl, rfl⟩ | ⟨-, rfl, rfl⟩ := mem <;> simp [daGo]

/-- Each of the five is the same command, by its OP. -/
theorem exec_of_mem_daOps {path c op : Nat} {v : BitVec 32} {ok : Bool} {i : Instr}
    {f : Nat → Bool → Nat → Bool → State → Nat × State} (mem : (i, op, f) ∈ daOps path c v ok) (s : State) :
    exec i s = run (daGo path c op v ok) s := by
  simp only [daOps, List.mem_cons, Prod.mk.injEq, List.not_mem_nil, or_false] at mem
  obtain ⟨rfl, rfl, -⟩ | ⟨rfl, rfl, -⟩ | ⟨rfl, rfl, -⟩ | ⟨rfl, rfl, -⟩ | ⟨rfl, rfl, -⟩ := mem <;> rfl

/-- The command register shows the operation and the mode. -/
def daCommand (c op : Nat) (v : BitVec 32) (s : State) : State :=
  setB (F.MED_CH_DA_CMD_MODE c) (v.getLsbD 4) (setF (F.MED_CH_DA_CMD_OP c) op s)

/-- The address that the channel's register gives. -/
def daPsa (c : Nat) (s : State) : Nat := c * 2 ^ 31 + fld s (F.MED_CH_DA_ADDR_PSA c)

/-- The address names a page in the mode asked for. -/
def daPage (psa : Nat) (deeps : Bool) : Prop := psaBlock psa < 5504 ∧ psaPage psa < if deeps then 768 else 256

/-- The address check as the engine makes it. -/
theorem daPage_iff_check (psa : Nat) (deeps : Bool) :
    daPage psa deeps ↔ (decide (5504 ≤ psaBlock psa) || decide ((if deeps then 768 else 256) ≤ psaPage psa)) = false := by
  simp only [daPage, Bool.or_eq_false_iff, decide_eq_false_iff_not, Nat.not_le]

/-- The record of an operation that the engine refuses, by its result. -/
def daRefusal (psa r : Nat) (s : State) : State :=
  match r with
  | 4 => sed 0x0433 sERROR 5 (psaDie psa) (psa % 2 ^ 32) 0 s
  | 5 => sed 0x0433 sERROR 5 (psaDie psa) (psa % 2 ^ 32) 1 s
  | 6 => sed 0x0433 sERROR 5 (psaDie psa) (psa % 2 ^ 32) 2 s
  | 10 => sed 0x0433 sERROR 5 (psaDie psa) (psa % 2 ^ 32) 3 s
  | _ => s

theorem daRefusal_of_not_mem {r : Nat} (other : r ∉ [4, 5, 6, 10]) (psa : Nat) (s : State) : daRefusal psa r s = s := by
  simp only [List.mem_cons, List.not_mem_nil, or_false, not_or] at other
  obtain ⟨not4, not5, not6, not10⟩ := other
  unfold daRefusal
  split
  · exact absurd rfl not4
  · exact absurd rfl not5
  · exact absurd rfl not6
  · exact absurd rfl not10
  · rfl

/-- The result of an operation and its record. -/
def daNote (c op psa r : Nat) (s : State) : State :=
  sed 0x0451 sDEBUG 5 c (op * 256 + r) (psa % 2 ^ 31) (setF (F.MED_CH_DA_STAT_RESULT c) r s)

section Op
variable {path c : Nat} {v : BitVec 32} {s : State} (mgmt : isMgmt path = true) (on : chanOn s c = true)
  (inside : chanState s c = 5) (go : v.getLsbD 8 = true) (op : Nat) (g : Nat → Bool → State → Nat × State)
include mgmt on inside go

theorem daOp_asked : (!isMgmt path || !chanOn s c || decide (chanState s c ≠ 5) || !v.getLsbD 8) = false := by
  simp [mgmt, on, inside, go, -BitVec.getLsbD_eq_getElem]

theorem daOp_of_page (page : daPage (daPsa c (daCommand c op v s)) (v.getLsbD 4)) {r : Nat} {t : State}
    (work : g (daPsa c (daCommand c op v s)) (v.getLsbD 4) (daCommand c op v s) = (r, t)) :
    daOp path c op v g s = daNote c op (daPsa c (daCommand c op v s)) r (daRefusal (daPsa c (daCommand c op v s)) r t) := by
  have asked := daOp_asked mgmt on inside go
  rw [daOp, if_neg (Bool.eq_false_iff.mp asked)]
  extract_lets deeps u psa bad
  have named : bad = false := (daPage_iff_check ..).mp page
  have done : g psa deeps u = (r, t) := work
  rw [if_neg (Bool.eq_false_iff.mp named), done]
  rfl

theorem daOp_of_noPage (noPage : ¬ daPage (daPsa c (daCommand c op v s)) (v.getLsbD 4)) :
    daOp path c op v g s = daNote c op (daPsa c (daCommand c op v s)) 6
      (daRefusal (daPsa c (daCommand c op v s)) 6 (daCommand c op v s)) := by
  have asked := daOp_asked mgmt on inside go
  rw [daOp, if_neg (Bool.eq_false_iff.mp asked)]
  extract_lets deeps u psa bad
  have outside : bad = true := by
    rw [← Bool.not_eq_false]
    exact fun named => noPage ((daPage_iff_check ..).mpr named)
  rw [if_pos outside]
  rfl

end Op

/-- Settles O30: the entry by whether the channel may enter, an operation by its address and its result. -/
theorem directAccess : Obligations.DirectAccess := by
  refine ⟨?enters, ?refused, ?operation⟩
  case enters =>
    intro c v s on asks outside cycle noReach noFine
    exact run_effect (doDaEnter_of_may (s := s.begun) rfl on asks outside ⟨rfl, cycle, noReach, noFine⟩)
  case refused =>
    intro path c v s mgmt on asks outside why
    have mayNot : ¬ daMayEnter path s.begun := by
      rintro ⟨tut, cycle, noReach, noFine⟩
      obtain other | used | reach | fine := why
      · exact other tut
      · exact used cycle
      · exact reach noReach
      · exact fine noFine
    exact run_effect (doDaEnter_of_mayNot (s := s.begun) mgmt on asks outside mayNot)
  case operation =>
    intro path c op v ok i f s mem mgmt on inside go u psa note
    have shared : exec i s = run (daOp path c op v (f c ok)) s := by
      rw [exec_of_mem_daOps mem, funext (daGo_of_mem mem)]
    rw [shared]
    refine ⟨fun block page => ?page, fun noPage => run_effect ?noPage⟩
    case page =>
      intro x
      have answers := daOp_of_page (s := s.begun) mgmt on inside go op (f c ok) ⟨block, page⟩ (r := x.1) (t := x.2) rfl
      refine ⟨fun other => run_effect ?_, fun is4 => run_effect ?_, fun is5 => run_effect ?_, fun is10 => run_effect ?_⟩
      · rw [answers, daRefusal_of_not_mem other]
        rfl
      · rw [answers, is4]
        rfl
      · rw [answers, is5]
        rfl
      · rw [answers, is10]
        rfl
    case noPage =>
      refine daOp_of_noPage (s := s.begun) mgmt on inside go op (f c ok) ?_
      rintro ⟨block, page⟩
      obtain past | past := noPage
      · exact Nat.not_le.mpr block past
      · exact Nat.not_le.mpr page past

end Sys2Proof.Machine
end

section
namespace Sys2Proof.Machine

/-! ### Programs and erases (R219, R225, R249, R250) -/

/-! The start of what the die's plan names (R224, R225, R260). -/

section ProgramStart
variable {c d : Nat} {s : State} (runs : engineRuns s c = true) (die : d < 8) (online : dieOnline s (c * 8 + d) = true)
  (free : dieFree s (c * 8 + d) = true) (awake : paused s (c * 8 + d) = false)
include runs die online free awake

/-- The die may be given a program or an erase. -/
theorem programStart_admitted : (!engineRuns s c || decide (8 ≤ d) || !dieOnline s (c * 8 + d) || !dieFree s (c * 8 + d) ||
    paused s (c * 8 + d)) = false := by
  simp [runs, Nat.not_le.mpr die, online, free, awake]

theorem doProgramStart_held (held : windowHeld s c = true) :
    doProgramStart c d s = sed 0x0440 sNOTICE 5 c ((stackTemp s c) % 2 ^ 32).toNat
      ((dieOf s (c * 8 + d)).progq.length + (dieOf s (c * 8 + d)).eraseq.length) s := by
  have admitted := programStart_admitted runs die online free awake
  rw [doProgramStart]
  extract_lets x
  rw [if_neg (Bool.eq_false_iff.mp admitted), if_pos held]

section Open
variable (opened : windowHeld s c = false)
include opened

theorem doProgramStart_prog {p : Prog} {rest : List Prog} (queued : (dieOf s (c * 8 + d)).progq = p :: rest)
    (planned : (dieOf s (c * 8 + d)).plan.contains .prog = true ∨ inFlush s = true) :
    doProgramStart c d s = if 0 < p.sectors then s else progBegin (c * 8 + d) p rest s := by
  have admitted := programStart_admitted runs die online free awake
  have planned : ((dieOf s (c * 8 + d)).plan.contains .prog || inFlush s) = true := Bool.or_eq_true_iff.mpr planned
  rw [doProgramStart]
  extract_lets x
  rw [if_neg (Bool.eq_false_iff.mp admitted), if_neg (Bool.eq_false_iff.mp opened), queued]
  exact if_pos planned

theorem doProgramStart_erase (none_ : (dieOf s (c * 8 + d)).progq = [])
    (planned : (dieOf s (c * 8 + d)).plan.contains .erase = true) : doProgramStart c d s = eraseBegin (c * 8 + d) s := by
  have admitted := programStart_admitted runs die online free awake
  rw [doProgramStart]
  extract_lets x
  rw [if_neg (Bool.eq_false_iff.mp admitted), if_neg (Bool.eq_false_iff.mp opened), none_]
  exact if_pos planned

end Open
end ProgramStart

/-! The end of a program (R249, R250). -/

/-- The program has left its die and is counted. -/
def progEnded (c d e : Nat) (s : State) : State :=
  count 0x25 c 1 (satInc (F.MED_CH_CNT_PROG_COUNT c) (opEnds (c * 8 + d) e s))

/-- The program's end with its frame of Sounding. -/
def progShown (c d e : Nat) (p : Prog) (b : BlockSet) (s : State) : State :=
  sndMedia (c * 8 + d) 1 (progClass (progEnded c d e s) p) (wlPsa b c p.wl) 0 (progEnded c d e s)

theorem doProgramDone_of_set {c d e : Nat} {p : Prog} {b : BlockSet} {s : State} (op : (dieOf s (c * 8 + d)).op = some (.prog p e))
    (set : setOf (progEnded c d e s) p.set = some b) (res : Nat) :
    doProgramDone c d res s = if b.st ≠ .opened then progShown c d e p b s
      else if res = 0 then progOk c p b (progShown c d e p b s) else progBad c p b (res == 2) (progShown c d e p b s) := by
  rw [progEnded] at set
  rw [doProgramDone]
  rw [op]
  dsimp only
  rw [set]
  rfl

/-! The end of an erase that verified (R219, R288, R301). -/

/-- The erase has left its die, is counted and has its frame of Sounding. -/
def eraseShown (c d e plane blk : Nat) (s : State) : State :=
  sndMedia (c * 8 + d) 2 3 (psaOf c d plane blk 0 0) 0
    (count 0x26 c 1 (satInc (F.MED_CH_CNT_ERASE_COUNT c) (opEnds (c * 8 + d) e s)))

theorem eraseShown_suspect (c d e plane blk : Nat) (s : State) :
    (eraseShown c d e plane blk s).media.suspect = s.media.suspect :=
  calc (eraseShown c d e plane blk s).media.suspect = (opEnds (c * 8 + d) e s).media.suspect := by
        rw [eraseShown, sr_media (sndMedia_sr ..), sr_media (count_sr ..), satInc_media]
    _ = s.media.suspect := rfl

/-- An erase's cycle is counted: in the block's wear and in the life of the set's mode (R219). -/
def eraseWear (key : Nat) (b : BlockSet) (s : State) : State :=
  let s := modMap (fun x => { x with wear := tmod 0 key (· + (if setDeeps b then 10 else 1)) x.wear }) s
  if setDeeps b then { s with mtl := { s.mtl with lifeD := s.mtl.lifeD + 1 } }
  else { s with mtl := { s.mtl with lifeS := s.mtl.lifeS + 1 } }

theorem eraseWear_media (key : Nat) (b : BlockSet) (s : State) : (eraseWear key b s).media = s.media := by
  unfold eraseWear
  split <;> rfl

/-- A member of a set is erased (R288). -/
def eraseMarked (n m key : Nat) (s : State) : State :=
  modSet n (fun x => { x with toErase := x.toErase.filter (fun y => y != m) }) (dropBlock key s)

/-- With its last member a set is erased (R288). -/
def eraseSet (n : Nat) (s : State) : State :=
  match setOf s n with
  | some x => if x.toErase.isEmpty then setErased n x s else s
  | none => s

theorem doEraseDone_good {c d n plane blk e : Nat} {b : BlockSet} {s : State}
    (op : (dieOf s (c * 8 + d)).op = some (.erase n plane blk e)) (set : setOf (eraseShown c d e plane blk s) n = some b)
    (good : tfind s.media.suspect (blockKey c d plane blk) = none) (blank : Bool) :
    doEraseDone c d true blank s = eraseSet n (eraseMarked n (memberOn b c) (blockKey c d plane blk)
      (eraseWear (blockKey c d plane blk) b (eraseShown c d e plane blk s))) := by
  rw [eraseShown] at set
  rw [doEraseDone, op]
  dsimp -zeta only
  extract_lets ended counted key psa shown
  rw [set]
  dsimp -zeta only
  extract_lets m cost cycled mtl worn media readBack dropped marked
  have wears : worn = eraseWear key b (eraseShown c d e plane blk s) := rfl
  have sound : tfind worn.media.suspect key = none := by rw [wears, eraseWear_media, eraseShown_suspect, good]
  have unmarked : readBack = worn := if_neg fun ⟨rejoined, _⟩ => Option.some_ne_none 1 (rejoined.symm.trans sound)
  have marks : marked = eraseMarked n m key worn := by rw [← unmarked]; rfl
  rw [← wears, ← marks]
  cases found : setOf marked n <;> simp only [eraseSet, found]

/-! ### The intents and timeouts that lead to them (R285, R307, R310) -/

theorem execEraseIntent_journals {n : Nat} {b : BlockSet} {s : State} (set : setOf s n = some b) (runs : mtlRuns s = true)
    (dredged : b.st = .dredged) (unused : setInUse s n b = false) (fresh : intentPending s n = false) :
    execEraseIntent n s = .next (s.after (jPut (.eraseIntent n))) := by
  rw [execEraseIntent]
  refine run_effect ?_
  simp [set, runs, dredged, unused, fresh]

theorem execJournalPageTimeout_late {s : State} (runs : mtlRuns s = true) (holds : s.mtl.jopen ≠ [])
    (late : s.mtl.jfirst + 4 ≤ s.tick.count) : execJournalPageTimeout s = .next (s.after jClose) := by
  rw [execJournalPageTimeout]
  refine run_effect ?_
  simp [runs, holds, late]

theorem execJournalPageTimeout_early {s : State} (early : s.tick.count < s.mtl.jfirst + 4) :
    execJournalPageTimeout s = .next (s.after id) := by
  rw [execJournalPageTimeout]
  refine run_effect ?_
  simp [Nat.not_le.mpr early]

section RowFill
variable {n t : Nat} {b : BlockSet} {s : State} (set : setOf s n = some b) (closed : b.firstClose = some t)
include set closed

theorem execRowFillTimeout_late (runs : mtlRuns s = true) (opened : b.st = .opened) (late : t + 256 ≤ s.tick.count) :
    execRowFillTimeout n s = .next (s.after (fillRow n)) := by
  rw [execRowFillTimeout]
  refine run_effect ?_
  simp [set, closed, runs, opened, late]

theorem execRowFillTimeout_early (early : s.tick.count < t + 256) : execRowFillTimeout n s = .next (s.after id) := by
  rw [execRowFillTimeout]
  refine run_effect ?_
  simp [set, closed, Nat.not_le.mpr early]

end RowFill

/-- An open page of the log has waited for its 64 ticks (R285). -/
def logPageLate (now : Nat) (l : Option LogPage) : Bool :=
  match l with | some p => !p.slots.isEmpty && decide (p.firstTick + 64 ≤ now) | none => false

theorem logPageLate_of_some {now : Nat} {p : LogPage} (holds : p.slots ≠ []) (late : p.firstTick + 64 ≤ now) :
    logPageLate now (some p) = true := by
  simp [logPageLate, holds, late]

/-- The open page of the host's lines or of the moved ones. -/
def openPage (reloc : Bool) (s : State) : Option LogPage := if reloc then s.mtl.relocPage else s.mtl.logPage

/-- A page that is late closes (R285). -/
def closeLate (reloc : Bool) (now : Nat) (s : State) : State :=
  if mtlRuns s && logPageLate now (openPage reloc s) then closeLog reloc s else s

theorem closeLate_of_late {reloc : Bool} {now : Nat} {s : State} {p : LogPage} (runs : mtlRuns s = true)
    (page : openPage reloc s = some p) (holds : p.slots ≠ []) (late : p.firstTick + 64 ≤ now) :
    closeLate reloc now s = closeLog reloc s :=
  if_pos (by rw [runs, page, logPageLate_of_some holds late]; rfl)

theorem closeLate_of_none {reloc : Bool} {s : State} (closed : openPage reloc s = none) (now : Nat) :
    closeLate reloc now s = s :=
  if_neg (by simp [closed, logPageLate])

theorem exec_logPageTimeout (s : State) :
    exec .logPageTimeout s = run (fun s => closeLate true s.tick.count (closeLate false s.tick.count s)) s := rfl

/-! A program that starts reads its pages from the write buffer (R420), which no error disturbs here. -/

theorem wbufRead_of_idle {c d : Nat} {s : State} (idle : (dieOf s (c * 8 + d)).progq = []) : wbufRead c d s = s := by
  rw [wbufRead, idle]

theorem wbufRead_quiet {s : State} (quiet : noInjection s = true) (c d : Nat) : wbufRead c d s = s := by
  unfold wbufRead
  split
  · split
    · exact mempReadWith_quiet _ _ _ _ _ _ _ quiet
    · rfl
  · rfl

/-- Where the read changes nothing, the start is the die's own. -/
theorem exec_programStart_of_wbufRead {c d : Nat} {s t : State} (quiet : wbufRead c d s.begun = s.begun)
    (starts : doProgramStart c d s.begun = t) : exec (.programStart c d) s = .next { t with pending := s.pending } := by
  rw [show exec (.programStart c d) s = execProgramStart c d s from rfl, execProgramStart]
  refine run_effect ?_
  dsimp only
  rw [quiet, ite_self, starts]

/-- What starts no operation reads no page. -/
theorem exec_programStart_of_sameDie {c d : Nat} {s t : State} (starts : doProgramStart c d s.begun = t)
    (same : dieOf t (c * 8 + d) = dieOf s (c * 8 + d)) : exec (.programStart c d) s = .next { t with pending := s.pending } := by
  rw [show exec (.programStart c d) s = execProgramStart c d s from rfl, execProgramStart]
  refine run_effect ?_
  dsimp only
  rw [starts, same, begun_dieOf]
  exact if_neg (by cases (dieOf s (c * 8 + d)).op <;> simp)

theorem dieOf_sed (code sev unit p0 p1 p2 : Nat) (s : State) (k : Nat) : dieOf (sed code sev unit p0 p1 p2 s) k = dieOf s k := by
  rw [dieOf, dieOf, sed_media]

/-- Settles O28: a start by the die's plan and its stack's window, an end by what the operation was, and an intent or a timeout
by whether its time has run. -/
theorem mediaPrograms : Obligations.MediaPrograms := by
  refine ⟨?prog, ?erase, ?held, ?progDone, ?eraseDone, ?intent, ?journal, ?logPage, ?relocPage, ?rowFill⟩
  case prog =>
    intro c d p rest s runs die online free awake opened noInj queued planned
    have quiet : wbufRead c d s.begun = s.begun := wbufRead_quiet (s := s.begun) noInj c d
    have starts := doProgramStart_prog (s := s.begun) runs die online free awake opened queued planned
    refine ⟨fun arrived => ?_, fun waits => ?_⟩
    · exact exec_programStart_of_wbufRead quiet (starts.trans (if_neg (by omega)))
    · exact exec_programStart_of_wbufRead quiet (starts.trans (if_pos waits))
  case erase =>
    intro c d s runs die online free awake opened idle planned
    exact exec_programStart_of_wbufRead (wbufRead_of_idle (s := s.begun) idle)
      (doProgramStart_erase (s := s.begun) runs die online free awake opened idle planned)
  case held =>
    intro c d s runs die online free awake held
    exact exec_programStart_of_sameDie (doProgramStart_held (s := s.begun) runs die online free awake held) (dieOf_sed ..)
  case progDone =>
    intro c d res e p b s op set u
    have ends := doProgramDone_of_set (s := s.begun) op set res
    refine ⟨fun opened verified => run_effect ?_, fun opened failed => run_effect ?_, fun closed => run_effect ?_⟩
    · rw [ends, if_neg (not_not_intro opened), if_pos verified]
      rfl
    · rw [ends, if_neg (not_not_intro opened), if_neg failed]
      rfl
    · rw [ends, if_pos closed]
      rfl
  case eraseDone =>
    intro c d n plane blk e ok blank b s op k key u set verified good
    subst verified
    exact run_effect (doEraseDone_good (s := s.begun) op set good blank)
  case intent =>
    intro n b s set runs dredged unused fresh
    exact execEraseIntent_journals set runs dredged unused fresh
  case journal =>
    intro s runs holds
    exact ⟨execJournalPageTimeout_late runs holds, execJournalPageTimeout_early⟩
  case logPage =>
    intro p s runs page holds late noReloc noRelocThen
    rw [exec_logPageTimeout]
    refine run_effect ?_
    rw [closeLate_of_late (reloc := false) (now := s.begun.tick.count) (s := s.begun) runs page holds late,
      closeLate_of_none (reloc := true) noRelocThen]
  case relocPage =>
    intro p s runs page holds late noLog
    rw [exec_logPageTimeout]
    refine run_effect ?_
    rw [closeLate_of_none (reloc := false) (s := s.begun) noLog,
      closeLate_of_late (reloc := true) (now := s.begun.tick.count) (s := s.begun) runs page holds late]
  case rowFill =>
    intro n t b s set closed runs opened
    exact ⟨execRowFillTimeout_late set closed runs opened, execRowFillTimeout_early set closed⟩

end Sys2Proof.Machine
end

section
namespace Sys2Proof.Machine

/-! ### The loss and the return of dies and channels (R251 to R253, R257 to R259) -/

theorem chanOf_sed (code sev unit p0 p1 p2 : Nat) (s : State) (c : Nat) : chanOf (sed code sev unit p0 p1 p2 s) c = chanOf s c := by
  rw [chanOf, chanOf, sed_media]

/-! A die is fenced (R252), and the last one takes its channel with it (R253). -/

/-- The die's operation has run for two ticks past its planned end (R252). -/
def dieLate (s : State) (c d : Nat) : Bool :=
  match (dieOf s (c * 8 + d)).op with
  | some o => dieBusy (dieOf s (c * 8 + d)) && decide (o.endAt + 12000 < cycNow s c)
  | none => false

theorem dieLate_of_any {s : State} {c d : Nat} (busy : dieBusy (dieOf s (c * 8 + d)) = true)
    (late : (dieOf s (c * 8 + d)).op.any (fun o => decide (o.endAt + 12000 < cycNow s c)) = true) : dieLate s c d = true := by
  rw [dieLate, busy]
  cases op : (dieOf s (c * 8 + d)).op with
  | none => simp [op] at late
  | some o => simpa [op] using late

/-- What fences a die: a missed poll (cause 0), or an operation that ran long. -/
def dieFails (s : State) (c d cause : Nat) : Bool :=
  if cause = 0 then decide (1 ≤ (dieOf s (c * 8 + d)).missed) else dieLate s c d

theorem dieFails_of_missed {s : State} {c d : Nat} (missed : 1 ≤ (dieOf s (c * 8 + d)).missed) : dieFails s c d 0 = true :=
  decide_eq_true missed

theorem dieFails_of_answered {s : State} {c d : Nat} (answered : (dieOf s (c * 8 + d)).missed = 0) : dieFails s c d 0 = false :=
  decide_eq_false (by omega)

theorem dieFails_of_late {s : State} {c d cause : Nat} (other : cause ≠ 0) (late : dieLate s c d = true) :
    dieFails s c d cause = true := (if_neg other).trans late

/-- A fenced die: what it leaves behind, its raised incarnation, and their records (R252, R256). -/
def dieFenced (c d cause : Nat) (s : State) : State :=
  faultStallFree 2 45 (sed 0x0410 sERROR 5 (c * 8 + d) cause (heldSenses s (c * 8 + d))
    (raiseInc (c * 8 + d) (fenceDie (c * 8 + d) s)))

/-- No die of the channel is online, and another of them is fenced (R253). -/
def lastOnline (c d : Nat) (s : State) : Bool :=
  (List.range 8).all (fun e => dieState s (c * 8 + e) != 0) && (List.range 8).any (fun e => e != d && dieState s (c * 8 + e) == 1)

theorem lastOnline_iff (c d : Nat) (s : State) :
    lastOnline c d s = true ↔ (∀ e, e < 8 → dieState s (c * 8 + e) ≠ 0) ∧ ∃ e, e < 8 ∧ e ≠ d ∧ dieState s (c * 8 + e) = 1 := by
  simp [lastOnline, List.all_eq_true, List.any_eq_true]

/-- The channel is fenced with its last die (R253). -/
def channelSilent (c held : Nat) (s : State) : State :=
  faultStallFree 3 125 (sed 0x0402 sCRITICAL 5 c 1 held
    (modChan c (fun x => { x with fencedWhole := true, attempts := 0 }) (setF (F.MED_CH_STAT_STATE c) 4 s)))

theorem doDieFenced_of_not {c d cause : Nat} {s : State} (sound : dieFails s c d cause = false) : doDieFenced c d cause s = s := by
  have barred : (!chanOn s c || decide (8 ≤ d) || !dieOnline s (c * 8 + d) || !dieFails s c d cause) = true := by
    rw [sound]
    exact Bool.or_true _
  rw [doDieFenced]
  exact if_pos barred

theorem doDieFenced_of_fails {c d cause : Nat} {s : State} (on : chanOn s c = true) (die : d < 8)
    (online : dieOnline s (c * 8 + d) = true) (fails : dieFails s c d cause = true) :
    doDieFenced c d cause s = if lastOnline c d (dieFenced c d cause s)
      then channelSilent c (heldSenses s (c * 8 + d)) (dieFenced c d cause s) else dieFenced c d cause s := by
  have admitted : (!chanOn s c || decide (8 ≤ d) || !dieOnline s (c * 8 + d) || !dieFails s c d cause) = false := by
    simp [on, Nat.not_le.mpr die, online, fails]
  rw [doDieFenced]
  exact if_neg (Bool.eq_false_iff.mp admitted)

/-! A channel loses its training, and trains again or fails (R253, R257). -/

/-- The channel is being retrained. -/
def trainingLost (c : Nat) (s : State) : State :=
  satInc (F.MED_CH_BUS_RETRAINS c) (setF (F.MED_CH_BUS_TRAINED c) 0 (setF (F.MED_CH_STAT_STATE c) 3 s))

theorem stat_ne_bus (c : Nat) : Reg.MED_CH_STAT c ≠ Reg.MED_CH_BUS c := by
  simp only [Reg.MED_CH_STAT, Reg.MED_CH_BUS]
  omega

theorem chanState_trainingLost (c : Nat) (s : State) : chanState (trainingLost c s) c = 3 := by
  rw [chanState, trainingLost, satInc, satAdd, fld_setF_other _ _ _ _ (.inl (stat_ne_bus c)),
    fld_setF_other _ _ _ _ (.inl (stat_ne_bus c)), fld_setF_same _ _ _ rfl]
  rfl

theorem trained_trainingLost (c : Nat) (s : State) : fld (trainingLost c s) (F.MED_CH_BUS_TRAINED c) = 0 := by
  rw [trainingLost, satInc, satAdd, fld_setF_other _ _ _ _ (.inr ⟨rfl, rfl⟩), fld_setF_same _ _ _ rfl]
  rfl

/-- A field written after changes of registers alone leaves the rest of the state as it was. -/
theorem setF_eq_of_regs {s t : State} (h : t = { s with regs := t.regs }) (f : Fld) (v : Nat) :
    setF f v t = { s with regs := (setF f v t).regs } :=
  (setF_eq f v t).trans (by rw [h])

theorem trainingLost_eq (c : Nat) (s : State) : trainingLost c s = { s with regs := (trainingLost c s).regs } :=
  setF_eq_of_regs (setF_eq_of_regs (setF_eq ..) _ _) _ _

theorem execChannelTrainingLost_trained {c : Nat} {s : State} (on : chanOn s c = true) (trained : chanState s c = 2) :
    execChannelTrainingLost c s = .next (trainingLost c s.begun) := by
  rw [execChannelTrainingLost]
  refine run_next (t := trainingLost c s.begun) ?_ (by simp [trainingLost])
  exact if_pos (by simp [on, trained])

/-- A retraining attempt is recorded with the ticks it took, a free value (R253). -/
def retrainNoted (c : Nat) (ok : Bool) (s : State) : State :=
  let (t, s) := drawLe 50 s
  sed 0x0401 sWARNING 5 c (if ok then 1 else 0) t s

theorem chanOf_retrainNoted (c : Nat) (ok : Bool) (s : State) (k : Nat) : chanOf (retrainNoted c ok s) k = chanOf s k :=
  (chanOf_sed ..).trans rfl

/-- A channel that has trained again serves; the fenced dies of one that was lost are reset (R257). -/
def retrainUp (c st : Nat) (s : State) : State :=
  let s := setF (F.MED_CH_BUS_TRAINED c) 1 (setF (F.MED_CH_STAT_STATE c) 2 s)
  let s := if st = 4 then
      forEach (List.range 8) (fun d s => if dieState s (c * 8 + d) = 1 ∧ !(dieOf s (c * 8 + d)).incWait then setDieState (c * 8 + d) 2 s else s) s
    else s
  modChan c (fun x => { x with fencedWhole := false, attempts := 0 }) s

/-- A failed attempt of a fenced channel; the third retires it (R257). -/
def retrainFail (c : Nat) (s : State) : State :=
  let n := (chanOf s c).attempts + 1
  let s := modChan c (fun x => { x with attempts := n }) (satInc (F.MED_CH_BUS_RETRAINS c) s)
  if 3 ≤ n then
    startRebuild (c + 256) (sed 0x0403 sCRITICAL 5 c n 0
      (forEach (List.range 8) (fun d s => setDieState (c * 8 + d) 4 s) (setF (F.MED_CH_STAT_STATE c) 6 s)))
  else setF (F.MED_CH_STAT_STATE c) 4 s

section Retrain
variable {c : Nat} {s : State} (on : chanOn s c = true)
include on

/-- An attempt ends on a channel that is being retrained or was fenced. -/
theorem retrain_admitted (trains : chanState s c = 3 ∨ chanState s c = 4) :
    (!chanOn s c || !(chanState s c == 3 || chanState s c == 4)) = false := by
  rw [on]
  obtain st | st := trains <;> rw [st] <;> rfl

theorem doRetrainDone_up (trains : chanState s c = 3 ∨ chanState s c = 4) :
    doRetrainDone c true s = retrainUp c (chanState s c) (retrainNoted c true s) := by
  rw [doRetrainDone]
  rw [if_neg (Bool.eq_false_iff.mp (retrain_admitted on trains))]
  simp only [drawLe, ↓reduceIte, retrainUp, retrainNoted]

theorem doRetrainDone_fences (st : chanState s c = 3) (alone : (chanOf s c).fencedWhole = false) :
    doRetrainDone c false s = fenceChannel c 0 (retrainNoted c false s) := by
  have admitted := retrain_admitted on (.inl st)
  have first : (decide (chanState s c = 3) && !(chanOf (retrainNoted c false s) c).fencedWhole) = true := by
    rw [st, chanOf_retrainNoted, alone]
    rfl
  rw [doRetrainDone]
  rw [if_neg (Bool.eq_false_iff.mp admitted)]
  simp only [drawLe, Bool.false_eq_true, ↓reduceIte, retrainNoted] at first ⊢
  rw [if_pos first]

theorem doRetrainDone_fails (st : chanState s c = 4) :
    doRetrainDone c false s = retrainFail c (retrainNoted c false s) := by
  have admitted := retrain_admitted on (.inr st)
  have later : (decide (chanState s c = 3) && !(chanOf (retrainNoted c false s) c).fencedWhole) = false := by rw [st]; rfl
  rw [doRetrainDone]
  rw [if_neg (Bool.eq_false_iff.mp admitted)]
  simp only [drawLe, Bool.false_eq_true, ↓reduceIte, retrainNoted, retrainFail] at later ⊢
  rw [if_neg (Bool.eq_false_iff.mp later)]

end Retrain

theorem retrainFail_third {c : Nat} {s : State} (third : 2 ≤ (chanOf s c).attempts) :
    retrainFail c s = startRebuild (c + 256) (sed 0x0403 sCRITICAL 5 c ((chanOf s c).attempts + 1) 0
      (forEach (List.range 8) (fun d s => setDieState (c * 8 + d) 4 s) (setF (F.MED_CH_STAT_STATE c) 6
        (modChan c (fun x => { x with attempts := (chanOf s c).attempts + 1 }) (satInc (F.MED_CH_BUS_RETRAINS c) s))))) :=
  if_pos (by omega)

/-! A die is reset, and rejoins or is lost (R257 to R259). -/

/-- A reset attempt is counted (R257). -/
def resetTried (c d : Nat) (s : State) : State :=
  satInc (F.MED_CH_D_ERR_RESETS c d) (setDieState (c * 8 + d) 2
    (modDie (c * 8 + d) (fun y => { y with attempts := (dieOf s (c * 8 + d)).attempts + 1 }) s))

section Reset
variable {c d : Nat} {s : State} (on : chanOn s c = true) (die : d < 8)
  (fenced : dieState s (c * 8 + d) = 1 ∨ dieState s (c * 8 + d) = 2) (written : (dieOf s (c * 8 + d)).incWait = false)
  (serves : chanState s c = 2)
include on die fenced written serves

theorem doDieReset_admitted :
    (!chanOn s c || decide (8 ≤ d) || !(dieState s (c * 8 + d) == 1 || dieState s (c * 8 + d) == 2) ||
      (dieOf s (c * 8 + d)).incWait || decide (chanState s c ≠ 2)) = false := by
  have known : (dieState s (c * 8 + d) == 1 || dieState s (c * 8 + d) == 2) = true := by simpa using fenced
  simp [on, Nat.not_le.mpr die, known, written, serves]

theorem doDieReset_answered (inc : Nat) :
    doDieReset c d true inc s = infoRead (c * 8 + d) inc
      (sed 0x0411 sNOTICE 5 (c * 8 + d) ((dieOf s (c * 8 + d)).attempts + 1) 1 (resetTried c d s)) :=
  if_neg (Bool.eq_false_iff.mp (doDieReset_admitted on die fenced written serves))

theorem doDieReset_silent (inc : Nat) :
    doDieReset c d false inc s = if 3 ≤ (dieOf s (c * 8 + d)).attempts + 1 then
        startRebuild (c * 8 + d) (sed 0x0413 sCRITICAL 5 (c * 8 + d) (expectedInc
          (sed 0x0411 sNOTICE 5 (c * 8 + d) ((dieOf s (c * 8 + d)).attempts + 1) 0 (resetTried c d s)) (c * 8 + d)) 0
          (setDieState (c * 8 + d) 4
            (sed 0x0411 sNOTICE 5 (c * 8 + d) ((dieOf s (c * 8 + d)).attempts + 1) 0 (resetTried c d s))))
      else sed 0x0411 sNOTICE 5 (c * 8 + d) ((dieOf s (c * 8 + d)).attempts + 1) 0 (resetTried c d s) :=
  if_neg (Bool.eq_false_iff.mp (doDieReset_admitted on die fenced written serves))

end Reset

/-- A stale die rejoins: its open blocks are SUSPECT, and its pages take the expected incarnation (R259). -/
def dieRejoins (c d bad : Nat) (s : State) : State :=
  let open_ := s.media.blocks.filter (fun e => e.1 / 2 ^ 15 == c * 8 + d && decide (e.2.nextWl < 256))
  let s := satAdd (F.MED_CH_D_ERR_PAGES_BAD c d) bad (forEach open_ (fun e s => suspect e.1 1 s) s)
  sed 0x0415 sNOTICE 5 (c * 8 + d) open_.length bad (sed 0x0412 sNOTICE 5 (c * 8 + d) (dieOf s (c * 8 + d)).stored
    (expectedInc s (c * 8 + d)) (dieOnlineAgain (c * 8 + d)
      (modDie (c * 8 + d) (fun y => { y with stored := expectedInc s (c * 8 + d) }) s)))

theorem doRejoin_stale {c d : Nat} {s : State} (on : chanOn s c = true) (die : d < 8) (stale : dieState s (c * 8 + d) = 3)
    (bad : Nat) : doRejoin c d bad s = dieRejoins c d bad s :=
  if_neg (by simp [on, Nat.not_le.mpr die, stale])

theorem doRetrainReq_retired {path c : Nat} {v : BitVec 32} {s : State} (mgmt : isMgmt path = true) (on : chanOn s c = true)
    (asks : v.getLsbD 4 = true) (retired : chanState s c = 6) :
    doRetrainReq path c v s = forEach (List.range 8) (fun d s => setDieState (c * 8 + d) 1 s)
      (modChan c (fun x => { x with attempts := 2 }) (setF (F.MED_CH_STAT_STATE c) 4 s)) :=
  if_neg (by simp [mgmt, on, asks, retired, -BitVec.getLsbD_eq_getElem])

theorem doRetrainReq_other {c : Nat} {s : State} (other : chanState s c ≠ 6) (path : Nat) (v : BitVec 32) :
    doRetrainReq path c v s = s :=
  if_pos (by simp [other])

/-- Settles O29: a fencing by what made it due and by what it leaves of the channel, an attempt by its outcome and by those
before it. -/
theorem mediaFencing : Obligations.MediaFencing := by
  refine ⟨?fenced, ?sound, ?lost, ?trained, ?reset, ?fences, ?retired, ?dieReset, ?rejoins, ?request, ?noRequest⟩
  case fenced =>
    intro c d cause s on die online why k u
    have fails : dieFails s.begun c d cause = true := by
      obtain ⟨rfl, missed⟩ | ⟨other, busy, late⟩ := why
      · exact dieFails_of_missed (s := s.begun) missed
      · exact dieFails_of_late other (dieLate_of_any (s := s.begun) busy late)
    have effect : doDieFenced c d cause s.begun = if lastOnline c d u then channelSilent c (heldSenses s k) u else u :=
      doDieFenced_of_fails (s := s.begun) on die online fails
    refine ⟨?serves, ?silent⟩
    case serves =>
      rintro ⟨e, he, online⟩
      have others : ¬ lastOnline c d u = true := fun last => ((lastOnline_iff c d u).mp last).1 e he online
      exact run_effect (effect.trans (if_neg others))
    case silent =>
      intro none_ other
      exact run_effect (effect.trans (if_pos ((lastOnline_iff c d u).mpr ⟨none_, other⟩)))
  case sound =>
    intro c d s answered
    exact run_effect (doDieFenced_of_not (dieFails_of_answered (s := s.begun) answered))
  case lost =>
    intro c s on trained
    exact ⟨_, execChannelTrainingLost_trained on trained, chanState_trainingLost .., trained_trainingLost .., trainingLost_eq ..⟩
  case trained =>
    intro c s on st
    refine run_effect ((doRetrainDone_up (s := s.begun) on (.inl st)).trans ?_)
    simp only [begun_chanState, st, retrainUp, retrainNoted, drawLe, ↓reduceIte, Nat.reduceEqDiff]
  case reset =>
    intro c s on st
    refine run_effect ((doRetrainDone_up (s := s.begun) on (.inr st)).trans ?_)
    simp only [begun_chanState, st, retrainUp, retrainNoted, drawLe, ↓reduceIte]
  case fences =>
    intro c s on st alone
    refine run_effect ((doRetrainDone_fences (s := s.begun) on st alone).trans ?_)
    simp only [retrainNoted, drawLe, Bool.false_eq_true, ↓reduceIte]
  case retired =>
    intro c s on st third
    have same := chanOf_retrainNoted c false s.begun c
    refine run_effect (((doRetrainDone_fails (s := s.begun) on st).trans (retrainFail_third (by rw [same]; exact third))).trans ?_)
    rw [same]
    simp only [retrainNoted, drawLe, Bool.false_eq_true, ↓reduceIte]
  case dieReset =>
    intro c d inc s on die fenced written serves k n u
    have silent := doDieReset_silent (s := s.begun) on die fenced written serves inc
    exact ⟨run_effect (doDieReset_answered (s := s.begun) on die fenced written serves inc),
      fun more => run_effect (silent.trans (if_neg (Nat.not_le.mpr more))), fun last => run_effect (silent.trans (if_pos last))⟩
  case rejoins =>
    intro c d bad s on die stale k
    exact run_effect (doRejoin_stale (s := s.begun) on die stale bad)
  case request =>
    intro path c v s mgmt on asks retired
    exact run_effect (doRetrainReq_retired (s := s.begun) mgmt on asks retired)
  case noRequest =>
    intro path c v s other
    exact run_effect (doRetrainReq_other (s := s.begun) other path v)

end Sys2Proof.Machine
end

section
namespace Sys2Proof.Machine

/-! ### Senses (R217, R222, R227 to R231, R239, R241, R247, R248, R733, R734) -/

/-! The start of the sense that is due at a die (R229, R231, R733). -/

/-- A host's sense, as against one that rebuilds another sector. -/
def senseIsHost (x : Sense) : Bool := match x.why with | .recon _ _ => false | _ => true

/-- The first attempt of a host sense is counted. -/
def senseNoted (c : Nat) (x : Sense) (s : State) : State :=
  when (senseIsHost x && x.step == 0) (fun s => count 0x20 c 1 (satInc (F.MED_CH_CNT_READ_COUNT c) s)) s

/-- A die suspends its operation for a sense: it is counted and has its frame of Sounding (R229). -/
def senseSuspends (c d : Nat) (x : Sense) (s : State) : State :=
  dieSuspend (c * 8 + d) (sndMedia (c * 8 + d) 3 0 x.psa 0 (count 0x27 c 1 (satInc (F.MED_CH_CNT_SUSP_COUNT c) s)))

/-- An operation is not suspended: before its window, a second time, or near its end (R229, R231). -/
def senseHeld (c d : Nat) (o : DieOp) (s : State) : Bool :=
  decide (cycNow s c < (dieOf s (c * 8 + d)).window) || (dieOf s (c * 8 + d)).susp.isSome ||
    decide (o.endAt ≤ cycNow s c + suspCyc)

theorem senseHeld_iff (c d : Nat) (o : DieOp) (s : State) :
    senseHeld c d o s = true ↔ cycNow s c < (dieOf s (c * 8 + d)).window ∨ (dieOf s (c * 8 + d)).susp.isSome = true ∨
      o.endAt ≤ cycNow s c + suspCyc := by
  simp [senseHeld, or_assoc]

section HostSense
variable {c d : Nat} {h : Sense} {s : State} (runs : engineRuns s c = true) (die : d < 8)
  (online : dieOnline s (c * 8 + d) = true) (free : (dieOf s (c * 8 + d)).page = none)
  (due : senseDue (dieOf s (c * 8 + d)) = some h)
include runs die online free

theorem hostSense_admitted :
    (!engineRuns s c || decide (8 ≤ d) || !dieOnline s (c * 8 + d) || (dieOf s (c * 8 + d)).page.isSome) = false := by
  simp [runs, Nat.not_le.mpr die, online, free]

include due

theorem doHostSense_refused {why : Nat} (bad : psaRefused s h.psa = some why) :
    doHostSense c d s = senseRefused (c * 8 + d) why h s := by
  have admitted := hostSense_admitted runs die online free
  rw [doHostSense, if_neg (Bool.eq_false_iff.mp admitted), due]
  dsimp only
  rw [bad]

variable (good : psaRefused s h.psa = none)
include good

theorem doHostSense_busy {o : DieOp} (op : (dieOf s (c * 8 + d)).op = some o) (busy : dieBusy (dieOf s (c * 8 + d)) = true) :
    doHostSense c d s = if senseHeld c d o s then s
      else senseStart (c * 8 + d) suspCyc h (senseNoted c h (senseSuspends c d h s)) := by
  have admitted := hostSense_admitted runs die online free
  rw [doHostSense, if_neg (Bool.eq_false_iff.mp admitted), due]
  dsimp only
  rw [good]
  dsimp only
  rw [op]
  exact if_neg (by rw [busy]; decide)

theorem doHostSense_idle (idle : dieBusy (dieOf s (c * 8 + d)) = false) :
    doHostSense c d s = senseStart (c * 8 + d) 0 h (senseNoted c h s) := by
  have admitted := hostSense_admitted runs die online free
  rw [doHostSense, if_neg (Bool.eq_false_iff.mp admitted), due]
  dsimp only
  rw [good]
  dsimp only
  cases (dieOf s (c * 8 + d)).op with
  | none => rfl
  | some o => exact if_pos (by rw [idle]; rfl)

end HostSense

/-! The admission list and a suspended operation (R222, R230). -/

theorem execAdmissionEnter_on {c d : Nat} {s : State} (on : chanOn s c = true) (die : d < 8) :
    execAdmissionEnter c d s = .next (s.after (moveUp
      ((dieOf s (c * 8 + d)).adm.length + (dieOf s (c * 8 + d)).held.length + 1) (c * 8 + d))) := by
  rw [execAdmissionEnter]
  refine run_effect ?_
  exact if_pos (by simp [on, die])

theorem doDieResume_free {c d : Nat} {o : DieOp} {s : State} (on : chanOn s c = true) (die : d < 8)
    (held : (dieOf s (c * 8 + d)).susp = some o) (idle : dieBusy (dieOf s (c * 8 + d)) = false)
    (free : (dieOf s (c * 8 + d)).page = none) (noSense : senseDue (dieOf s (c * 8 + d)) = none) (noFlush : inFlush s = false) :
    doDieResume c d s = sndMedia (c * 8 + d) 4 1 0 0 (dieUnsuspend (c * 8 + d) (cycNow s c) s) :=
  if_neg (by simp [on, Nat.not_le.mpr die, held, idle, free, noSense, noFlush])

/-! A bus slot (R227, R734). -/

/-- The class that a minimum slot is due to. -/
def slotDue (s : State) (c : Nat) : Option Nat := if (chanOf s c).slot % 5 = 0 then slotClass s c true else none

/-- The class that takes a slot, where the host's sectors leave it one. -/
def slotTaker (s : State) (c : Nat) : Option Nat :=
  match slotDue s c with
  | some k => some k
  | none => if (slotHost s c).isSome then none else slotClass s c false

theorem slotTaker_of_due {s : State} {c cl : Nat} (due : slotDue s c = some cl) : slotTaker s c = some cl := by
  rw [slotTaker, due]

theorem slotTaker_of_host {s : State} {c k : Nat} (noDue : slotDue s c = none) (host : slotHost s c = some k) :
    slotTaker s c = none := by
  rw [slotTaker, noDue, host]
  rfl

theorem slotTaker_of_noHost {s : State} {c : Nat} (noDue : slotDue s c = none) (noHost : slotHost s c = none) :
    slotTaker s c = slotClass s c false := by
  rw [slotTaker, noDue, noHost]
  rfl

/-- The slot is over, and the background senses that the dies' plans name start (R224). -/
def slotRest (c : Nat) (s : State) : State :=
  forEach (List.range 8) (fun d s => bgStart (c * 8 + d) s) (modChan c (fun x => { x with slot := x.slot + 1 }) s)

/-- A class pays for its slot (R734). -/
def slotCharge (c cl : Nat) (s : State) : State :=
  modChan c (fun x => { x with
    minCred := x.minCred.set cl (lat 0 x.minCred cl - 64), entCred := x.entCred.set cl (lat 0 x.entCred cl - 64) }) s

theorem dieOf_modChan (c : Nat) (f : Channel → Channel) (s : State) (k : Nat) : dieOf (modChan c f s) k = dieOf s k := rfl

theorem inFlush_modChan (c : Nat) (f : Channel → Channel) (s : State) : inFlush (modChan c f s) = inFlush s := rfl

/-- A channel's cycle goes by its slot. -/
theorem cycNow_modChan {f : Channel → Channel} (kept : ∀ x, (f x).slot = x.slot) (c : Nat) (s : State) :
    cycNow (modChan c f s) c = cycNow s c := by
  rw [cycNow, cycNow, show chanOf (modChan c f s) c = f (chanOf s c) from tget_tmod_same .., kept]
  rfl

/-- A sector of the die's first program arrives (R225). -/
def dataIn (k : Nat) (s : State) : State :=
  modDie k (fun d => { d with progq :=
    (match d.progq with | x :: r => { x with sectors := x.sectors - 1 } :: r | [] => []) }) s

/-- A background sense of the class is in the die's page register, with its data (R734). -/
def senseAtBus (s : State) (c cl k : Nat) : Bool :=
  (dieOf s k).page.any (fun p => senseClass p.sense == some cl && decide (p.ready ≤ cycNow s c))

/-- A slot that goes to a class: to its sense, or else to its program. -/
def slotServe (c cl k : Nat) (s : State) : State :=
  if senseAtBus s c cl k then pageOut k (slotCharge c cl s) else dataIn k (slotCharge c cl s)

/-- The slot's transfer: to the class that takes it, or else to the host's oldest sector. -/
def slotGive (c : Nat) (cls : Option Nat) (s : State) : State :=
  match cls with
  | some cl => ((slotWants s c).find? (fun w => w.2 == cl)).elim s (fun w => slotServe c cl w.1 s)
  | none => (slotHost s c).elim s (fun k => pageOut k s)

theorem doBusSlot_open {c : Nat} {s : State} (on : chanOn s c = true) (left : (chanOf s c).slot < 30)
    (noFlush : inFlush s = false) : doBusSlot c s = slotRest c (slotGive c (slotTaker s c) s) := by
  have open_ : (!chanOn s c || decide (30 ≤ (chanOf s c).slot)) = false := by simp [on, Nat.not_le.mpr left]
  rw [doBusSlot, if_neg (Bool.eq_false_iff.mp open_), noFlush]
  extract_lets minimum cls t u
  have due : (if minimum = true then slotClass s c true else none) = slotDue s c := by
    simp only [minimum, slotDue, beq_iff_eq]
  have chosen : slotTaker s c = cls := by
    cases owed : slotDue s c <;> simp only [cls, slotTaker, due, owed, Bool.false_eq_true, ↓reduceIte]
  rw [chosen]
  clear_value cls
  have given : slotGive c cls s = t := by
    cases cls with
    | none => cases host : slotHost s c <;> simp only [t, slotGive, host, Option.elim]
    | some cl =>
      cases found : (slotWants s c).find? (fun w => w.2 == cl) with
      | none => simp only [t, slotGive, found, Option.elim]
      | some w =>
        cases page : (dieOf s w.1).page <;>
          simp [t, slotGive, found, slotServe, senseAtBus, slotCharge, dieOf_modChan, inFlush_modChan, noFlush,
            cycNow_modChan, page] <;> rfl
  rw [given]
  rfl

section SlotGive
variable {c : Nat} {s : State}

theorem slotGive_host {k : Nat} (host : slotHost s c = some k) : slotGive c none s = pageOut k s := by
  rw [slotGive, host]
  rfl

theorem slotGive_nobody (noHost : slotHost s c = none) : slotGive c none s = s := by
  rw [slotGive, noHost]
  rfl

section Class
variable {cl k : Nat} (found : (slotWants s c).find? (fun w => w.2 == cl) = some (k, cl))
include found

theorem slotGive_class : slotGive c (some cl) s = slotServe c cl k s := by
  rw [slotGive, found]
  rfl

theorem slotGive_sense {p : PageReg} (page : (dieOf s k).page = some p) (cls : senseClass p.sense = some cl)
    (ready : p.ready ≤ cycNow s c) : slotGive c (some cl) s = pageOut k (slotCharge c cl s) :=
  (slotGive_class found).trans (if_pos (by simp [senseAtBus, page, cls, ready]))

theorem slotGive_program (page : (dieOf s k).page = none) : slotGive c (some cl) s = dataIn k (slotCharge c cl s) :=
  (slotGive_class found).trans (if_neg (by simp [senseAtBus, page]))

end Class
end SlotGive

theorem doBusSlot_last {c : Nat} {s : State} (past : 30 ≤ (chanOf s c).slot) : doBusSlot c s = s :=
  if_pos (by simp [past])

/-! A decoded sector (R217, R241). -/

section SenseDone
variable {c d lat : Nat} {res : SenseRes} {x : Sense} {s u v : State} (takes : decodeTake c d s = some (x, u))
include takes

theorem doSenseDone_codeword {ones bits iters a : Nat}
    (inj : senseInj (c * 8 + d) x res u = (v, .codeword ones bits iters a)) :
    doSenseDone c d res lat s =
      if decodeOf (fld v (F.MED_CH_RETRY_HIGH c)) (.codeword ones bits iters a) = .erased
      then senseFail (c * 8 + d) ones 0 lat x true v
      else senseGood (c * 8 + d) x (decodeOf (fld v (F.MED_CH_RETRY_HIGH c)) (.codeword ones bits iters a)) a lat v := by
  rw [doSenseDone, takes]
  dsimp only
  rw [inj]
  dsimp only
  cases decodeOf (fld v (F.MED_CH_RETRY_HIGH c)) (.codeword ones bits iters a) <;> rfl

theorem doSenseDone_noCodeword {ones checks : Nat} (inj : senseInj (c * 8 + d) x res u = (v, .noCodeword ones checks)) :
    doSenseDone c d res lat s = senseFail (c * 8 + d) ones checks lat x
      (decodeOf (fld v (F.MED_CH_RETRY_HIGH c)) (.noCodeword ones checks) == .erased) v := by
  rw [doSenseDone, takes]
  dsimp only
  rw [inj]

end SenseDone

theorem execSenseDone_serves {c d lat : Nat} {res : SenseRes} {s t : State} (serves : inHalt s = false)
    (done : doSenseDone c d res lat s.begun = t) : execSenseDone c d res lat s = .next { t with pending := s.pending } := by
  rw [execSenseDone]
  refine run_effect ?_
  exact (if_neg (Bool.eq_false_iff.mp serves)).trans done

/-- In INTEGRITY HALT the decoder gives its sector up (R262). -/
theorem execSenseDone_halted {c d lat : Nat} {res : SenseRes} {x : Sense} {s u : State} (halted : inHalt s = true)
    (takes : decodeTake c d s.begun = some (x, u)) : execSenseDone c d res lat s = .next { u with pending := s.pending } := by
  rw [execSenseDone]
  refine run_effect ?_
  refine (if_pos halted).trans ?_
  rw [takes]
  rfl

/-! The end of a rebuilding (R247, R248). -/

/-- The rebuilding of a job has ended. -/
def reconTaken (j : Nat) (s : State) : State := { s with media := { s.media with recons := tdel j s.media.recons } }

/-- A sector that cannot be rebuilt: a line is poisoned, a copy of a node is dead (R248). -/
def reconLost (k ch : Nat) (x : Sense) (s : State) : State :=
  let s := sed 0x0422 sCRITICAL 5 k (x.psa % 2 ^ 32) ch s
  match x.why with
  | .line l => fillResult l .poisoned (pathOf x 8 (mediaEvent l (poisonAdd l 1 s)))
  | .node leaf copy => nodeDead leaf copy s
  | _ => s

/-- A sector that is rebuilt: its counts, records and hint, and the longest read where it had gone to retry step 2. -/
def reconBuilt (c d lat : Nat) (r : Recon) (s : State) : State :=
  let ticks := s.tick.count - r.start
  let s := sed 0x0421 sWARNING 5 (c * 8 + d) (r.sense.psa % 2 ^ 32) ticks
    (count 0x24 c 1 (satInc (F.MED_CH_CNT_RECON_COUNT c) s))
  let s := faultStall 1 ticks 10 (refreshHint r.sense.psa 2 s)
  if r.sense.step = 2 then (match r.sense.why with | .line _ => latMax c lat s | _ => s) else s

section Recon
variable {c d j : Nat} {r : Recon} {s : State} (ended : reconDone s (c * 8 + d) = some (j, r)) (auth lat : Nat)
include ended

theorem doRecon_failed {ch : Nat} (failed : r.failed = some ch) :
    doRecon c d auth lat s = reconLost (c * 8 + d) ch r.sense (reconTaken j s) := by
  rw [doRecon, ended]
  dsimp only
  rw [failed]
  rfl

theorem doRecon_built (whole : r.failed = none) :
    doRecon c d auth lat s = deliver
      (some (r.sense.psa, rebuiltInfo (reconBuilt c d lat r (reconTaken j s)) r.sense.psa)) r.sense 4 auth
      (pathOf r.sense 8 (reconBuilt c d lat r (reconTaken j s))) := by
  rw [doRecon, ended]
  dsimp only
  rw [whole]
  rfl

end Recon

theorem execMedRecon_of {c d auth lat : Nat} {s t : State} (runs : engineRuns s c = true) (die : d < 8)
    (ends : doRecon c d auth lat s.begun = t) : execMedRecon c d auth lat s = .next { t with pending := s.pending } := by
  rw [execMedRecon]
  refine run_effect ?_
  exact (if_pos (by simp [runs, die])).trans ends

/-! Drift samples (R239). -/

/-- The step that the three reads of a sample ask for: toward the offset that corrected the fewest bits. -/
def sampleStep (lo mid hi : Nat) : Int := if lo < mid ∧ lo < hi then -1 else if hi < mid ∧ hi < lo then 1 else 0

/-- A sample's senses wait in the refresh share, and LEARN takes its step. -/
def sampleTaken (c d lo mid hi : Nat) (deeps : Bool) (a psa : Nat) (s : State) : State :=
  let s := forEach (List.range 3) (fun _ s => bgSense (some psa) 4 1 s)
    (modDie (c * 8 + d) (fun y => { y with lastSample := some s.tick.count, sampled := some (deeps, a) }) s)
  showRef (c * 8 + d) a (if sampleStep lo mid hi = 0 then s else learnMove (c * 8 + d) deeps a (sampleStep lo mid hi) s)

theorem doDriftSample_due {c d a psa : Nat} {deeps : Bool} {s : State} (runs : engineRuns s c = true) (die : d < 8)
    (online : dieOnline s (c * 8 + d) = true) (due : ∀ t, (dieOf s (c * 8 + d)).lastSample = some t → t + 64 ≤ s.tick.count)
    (next : sampleNext s (c * 8 + d) = some ((deeps, a), psa)) (lo mid hi : Nat) :
    doDriftSample c d lo mid hi s = sampleTaken c d lo mid hi deeps a psa s := by
  rw [doDriftSample, next]
  refine if_neg ?_
  cases last : (dieOf s (c * 8 + d)).lastSample with
  | none => simp [runs, Nat.not_le.mpr die, online]
  | some t => simp [runs, Nat.not_le.mpr die, online, due t last]

/-- Settles O27: a sense by its address and its die, a slot by who takes it, a sector by the decoder's report, and a
rebuilding by its members. -/
theorem mediaSenses : Obligations.MediaSenses := by
  refine ⟨?start, ?refused, ?admission, ?resume, ?slot, ?lastSlot, ?decoded, ?halted, ?recon, ?drift⟩
  case start =>
    intro c d h s runs die online free due good host note
    refine ⟨fun idle => ?_, fun o op busy => ⟨fun opened first long => ?_, fun near => ?_⟩⟩
    · exact run_effect (doHostSense_idle (s := s.begun) runs die online free due good idle)
    · have goes : ¬ senseHeld c d o s.begun = true := by
        rw [senseHeld_iff]
        rintro (early | twice | near)
        · exact Nat.not_lt.mpr opened early
        · simp [first] at twice
        · exact Nat.not_lt.mpr near long
      exact run_effect ((doHostSense_busy (s := s.begun) runs die online free due good op busy).trans (if_neg goes))
    · exact run_effect ((doHostSense_busy (s := s.begun) runs die online free due good op busy).trans
        (if_pos ((senseHeld_iff c d o s.begun).mpr near)))
  case refused =>
    intro c d why h s runs die online free due bad
    exact run_effect (doHostSense_refused (s := s.begun) runs die online free due bad)
  case admission =>
    intro c d s on die
    exact execAdmissionEnter_on on die
  case resume =>
    intro c d o s on die held idle free noSense noFlush
    exact run_effect (doDieResume_free (s := s.begun) on die held idle free noSense noFlush)
  case slot =>
    intro c s on left noFlush due rest charge
    have gives := doBusSlot_open (s := s.begun) on left noFlush
    refine ⟨?host, ?nobody, ?classes⟩
    case host =>
      intro k noDue host
      rw [slotTaker_of_host (s := s.begun) noDue host, slotGive_host (s := s.begun) host] at gives
      exact run_effect gives
    case nobody =>
      intro noDue noHost noClass
      rw [(slotTaker_of_noHost (s := s.begun) noDue noHost).trans noClass, slotGive_nobody (s := s.begun) noHost] at gives
      exact run_effect gives
    case classes =>
      intro cl k owner found
      have takes : slotTaker s.begun c = some cl := by
        obtain owed | ⟨noDue, noHost, class_⟩ := owner
        · exact slotTaker_of_due (s := s.begun) owed
        · exact (slotTaker_of_noHost (s := s.begun) noDue noHost).trans class_
      rw [takes] at gives
      refine ⟨?sense, fun page => run_effect ?program⟩
      case sense =>
        rintro ⟨p, page, cls, ready⟩
        rw [slotGive_sense (s := s.begun) found page cls ready] at gives
        exact run_effect gives
      case program =>
        rw [gives, slotGive_program (s := s.begun) found page]
        rfl
  case lastSlot =>
    intro c s on past
    exact run_effect (doBusSlot_last (s := s.begun) past)
  case decoded =>
    intro c d lat res x u s serves takes v r out
    have known : ∀ rep, r = rep →
        senseInj (c * 8 + d) x res u = (v, rep) ∧ out = decodeOf (fld v (F.MED_CH_RETRY_HIGH c)) rep := by
      rintro rep rfl
      exact ⟨rfl, rfl⟩
    refine ⟨fun ones bits iters a codeword => ?good, fun ones bits iters a codeword => ?erased, fun ones checks none_ => ?failed⟩
    case good =>
      obtain ⟨inj, same⟩ := known _ codeword
      rw [same]
      exact fun other => execSenseDone_serves serves ((doSenseDone_codeword takes inj).trans (if_neg other))
    case erased =>
      obtain ⟨inj, same⟩ := known _ codeword
      rw [same]
      exact fun erased => execSenseDone_serves serves ((doSenseDone_codeword takes inj).trans (if_pos erased))
    case failed =>
      obtain ⟨inj, same⟩ := known _ none_
      rw [same]
      exact execSenseDone_serves serves (doSenseDone_noCodeword takes inj)
  case halted =>
    intro c d lat res x u s halted takes
    exact execSenseDone_halted halted takes
  case recon =>
    intro c d auth lat j r s runs die ended
    exact ⟨fun ch failed => execMedRecon_of runs die (doRecon_failed (s := s.begun) ended auth lat failed),
      fun whole => execMedRecon_of runs die (doRecon_built (s := s.begun) ended auth lat whole)⟩
  case drift =>
    intro c d lo mid hi a deeps psa s runs die online due next step
    exact run_effect (doDriftSample_due (s := s.begun) runs die online due next lo mid hi)

end Sys2Proof.Machine
end

/-! Proofs of the family of chapter 08: the Shoreline job, from its start to the capture of a reach (R358 to R367). -/

section
namespace Sys2Proof.Machine

/-! ### The start and the status of a job (R358, R359, R366, R367) -/

/-- A payload of SHORELINE_START that names a key index and 1 to 64 ranges of lines (R358). -/
structure ShoreAsks (s : State) (input : List Byte) : Prop where
  header : 8 ≤ input.length
  length : input.length = 8 + 16 * byteAt input 2
  ranged : byteAt input 2 ≠ 0
  few : byteAt input 2 ≤ 64
  zero : zeroAt input 3 5 = true
  key : at' input 0 2 < 4096
  ranges : rangesOk s input 8 (byteAt input 2) = true

/-- The key index is ROTATING, and the ranges cover its regions and touch none of another index (R359). -/
def shoreFits (s : State) (key : Nat) (l : List (Nat × Nat)) : Prop := (ctxOf s key).st = .rotating ∧ rangesFit s key l = true

/-- A job, a start that waits for its record, or a command on the key index is under way. -/
def shoreTaken (path key : Nat) (s : State) : Bool :=
  shoreBusy s || s.mgmt.inflight.any (fun e => e.op == 0xC022) || tgtBusy s 0 key path

/-- The job's record goes to Gauge, and the command waits for it with its key index held (R366). -/
def shoreQueue (path key : Nat) (l : List (Nat × Nat)) (s : State) : State :=
  gPut G.shore (.shore (some ⟨key, sortRanges l⟩)) false (some path) (.shore path) (tgtHold 0 key path (startCmd path 0xC022 true s))

/-- The checks of a start whose payload is in order. -/
def shoreJudge (path key : Nat) (l : List (Nat × Nat)) (s : State) : State :=
  if (ctxOf s key).st ≠ .rotating ∨ !rangesFit s key l then answer path 0xC022 rcConflict [] s
  else if shoreTaken path key s then answer path 0xC022 rcBusy [] s
  else if inHalt s ∨ lifecycle s = 3 then answer path 0xC022 rcRefused [] s
  else shoreQueue path key l s

theorem doShoreStart_asks {path : Nat} {input : List Byte} {s : State} (takes : taken path 0xC022 input s = true)
    (asks : ShoreAsks s input) :
    doShoreStart path input s = shoreJudge path (at' input 0 2) (rangesAt input 8 (byteAt input 2)) s := by
  obtain ⟨header, length, ranged, few, zero, key, ranges⟩ := asks
  have whole : (decide (8 ≤ input.length) && input.length == 8 + 16 * byteAt input 2) = true := by simp [header, ← length]
  rw [doShoreStart, whole]
  refine (cmd_taken path 0xC022 input _ s takes).trans (if_neg ?_)
  simp [ranged, few, zero, key, ranges]

section Judge
variable {path key : Nat} {l : List (Nat × Nat)} {s : State}

theorem shoreJudge_conflict (unfit : ¬ shoreFits s key l) : shoreJudge path key l s = answer path 0xC022 rcConflict [] s := by
  refine if_pos ?_
  by_cases rotates : (ctxOf s key).st = .rotating
  · have uncovered : rangesFit s key l = false := Bool.eq_false_iff.mpr fun covered => unfit ⟨rotates, covered⟩
    exact .inr (congrArg not uncovered)
  · exact .inl rotates

theorem shoreJudge_queued (fits : shoreFits s key l) (free : shoreTaken path key s = false) (serves : inHalt s = false)
    (alive : lifecycle s ≠ 3) : shoreJudge path key l s = shoreQueue path key l s := by
  obtain ⟨rotates, covered⟩ := fits
  rw [shoreJudge, if_neg (by simp [rotates, covered]), if_neg (by simp [free]), if_neg (by simp [serves, alive])]

end Judge

/-- What SHORELINE_STATUS answers (R367). -/
def shoreReport (s : State) : List Byte :=
  let x := s.icu.shore
  let left := rangeReaches x.ranges - x.reachesDone - x.skipped
  le 1 x.st ++ [0] ++ le 2 x.key ++ le 1 (curNum s x.key) ++ le 1 (newNum s x.key) ++ zeros 2 ++ le 8 x.b ++
    le 8 x.reachesDone ++ le 4 x.skipped ++ le 4 (if x.st = 1 ∨ x.st = 2 then shoreEstimate s left else 0)

theorem doShoreStatus_taken {path : Nat} {s : State} (takes : taken path 0xC023 [] s = true) :
    doShoreStatus path [] s = answer path 0xC023 rcSuccess (shoreReport s) s := cmd_taken path 0xC023 [] _ s takes

/-! ### The wait for a reach's captures (R361 step 2) -/

section Wait
variable {s : State} (runs : s.icu.shore.st = 1) (waits : s.icu.shore.step = 1 ∨ s.icu.shore.step = 2)

include runs waits in
theorem execShoreWaitTimeout_late (late : 16 ≤ s.icu.shore.waited) :
    execShoreWaitTimeout s = .next (s.after (modShore (fun x => { x with delay := true }))) :=
  run_effect (if_pos ⟨runs, waits, late⟩)

theorem execShoreWaitTimeout_early (early : s.icu.shore.waited < 16) : execShoreWaitTimeout s = .next (s.after id) :=
  run_effect (if_neg fun due => Nat.not_le.mpr early due.2.2)

end Wait

/-! ### The capture and the build of a reach (R361 to R364) -/

/-- The reach that the job holds. -/
def shoreReach (s : State) : Nat := reachOf s.icu.shore.b

/-- The entries of a reach's merge record that the stride captures. -/
def strideCaps (s : State) (r : Nat) : List MergeEnt :=
  match mergeOf s r with | some (_, m) => m.ents.filter (fun e => !e.poison) | none => []

/-- The offsets of a reach that are poisoned in the fine map or in its merge record. -/
def stridePoisoned (s : State) (r : Nat) : List Nat :=
  (List.range 1024).filter (fun o => match fineFind s (r * 1024 + o) with | some e => e.poison | none => false) ++
    (match mergeOf s r with | some (_, m) => (m.ents.filter (·.poison)).map (·.off) | none => [])

/-- The reach's copy in a DEEPS set. -/
def strideOld (s : State) (r : Nat) : Option (Nat × Nat) :=
  match tfind s.mtl.map.reachMap r with | some (.deeps a b) => some (a, b) | _ => (mergeOf s r).bind (fun m => m.2.deeps)

/-- The leaves of a reach whose counters are exhausted and start again (R364). -/
def strideResets (s : State) (r : Nat) : List Nat :=
  ((List.range 16).map (16 * r + ·)).filter (fun i => (leafOf s.icu.tree i).exhausted)

/-- The reach's record is marked and its copies are read (R361 steps 3 and 4). -/
def strideRead (s : State) (r : Nat) : State :=
  strideSenses (strideCaps s r) (strideOld s r) (match mergeOf s r with | some (k, m) => markCaptured k m s | none => s)

/-- The tree that the stride's commit brings into effect, before the counters of its lines (R364). -/
def strideAhead (s : State) (r : Nat) : State :=
  modTree (fun t => { t with leaves := (strideResets s r).foldl (fun l i =>
    tput i { leafOf t i with major := 0, oldMajor := 0, reseal := 0, minors := [] } l) t.leaves }) (strideRead s r)

/-- The build of the reach that the job holds, under the new generation (R362). -/
def strideBuild (g : KeyGen) (s : State) : Build :=
  let r := shoreReach s
  (List.range 1024).foldl
    (buildOffset s.icu.shore.key g r (strideCaps s r) (strideOld s r) (stridePoisoned s r) (strideResets s r))
    ⟨[], [], strideAhead s r, strideRead s r, false⟩

/-- The HOT lines of the reach that are to be resealed: those with no write-back that waits for its place (R361 step 6). -/
def strideHot (b : Build) (r : Nat) : List Nat :=
  (hotOffsets b.st r).filter (fun o => !b.st.mtl.unplaced.any (fun u => u.line == r * 1024 + o))

/-- The job has captured its reach and built it. -/
def strideCaptured (b : Build) (s : State) : State :=
  modShore (fun y => { y with
    step := 3, delay := false, again := [], caps := strideCaps s (shoreReach s), foldSeq := foldSeqNow s, adv := b.adv
    resets := strideResets s (shoreReach s) }) b.st

/-- The place that the reach's lines find. -/
def stridePlace (b : Build) (s : State) : Option (State × Nat × Nat) := placeReach (shoreReach s) b.lines (strideCaptured b s)

/-- The reach's lines have their place, and its HOT lines are resealed (R361 steps 6 and 7). -/
def stridePlaced (hot : List Nat) (n slot : Nat) (u : State) : State :=
  shoreHot (modShore (fun y => { y with target := some (n, slot), jseq := none, waitSeqs := [], hotLeft := hot }) u)

/-- What a capture makes of the build of its reach: an open that failed, no room for the lines, or their place. -/
def strideEnd (b : Build) (s : State) : State :=
  if b.bad then b.st
  else
    match stridePlace b s with
    | none => s
    | some (u, n, slot) => stridePlaced (strideHot b (shoreReach s)) n slot u

section Outcome
variable {b : Build} {s : State}

theorem strideEnd_bad (bad : b.bad = true) : strideEnd b s = b.st := if_pos bad

theorem strideEnd_noPlace (good : b.bad = false) (full : stridePlace b s = none) : strideEnd b s = s := by
  rw [strideEnd, if_neg (Bool.eq_false_iff.mp good), full]

theorem strideEnd_placed {u : State} {n slot : Nat} (good : b.bad = false) (place : stridePlace b s = some (u, n, slot)) :
    strideEnd b s = stridePlaced (strideHot b (shoreReach s)) n slot u := by
  rw [strideEnd, if_neg (Bool.eq_false_iff.mp good), place]

end Outcome

theorem doShoreCapture_idle {s : State} (idle : s.icu.shore.st ≠ 1 ∨ mtlBackground s = false ∨ icuRuns s = false) :
    doShoreCapture s = s := by
  refine if_pos ?_
  obtain idle | idle | idle := idle <;> simp [idle]

/-- A job with a new generation of its key may capture its reach: no fold of the reach and no sealed write-back of it is left
(R361 steps 2 and 3). -/
structure ShoreCaptures (g : KeyGen) (s : State) : Prop where
  background : mtlBackground s = true
  crypt : icuRuns s = true
  running : s.icu.shore.st = 1
  waits : s.icu.shore.step = 1 ∨ s.icu.shore.step = 2
  new : (ctxOf s s.icu.shore.key).new = some g
  unfolded : s.mtl.folds.any (fun f => f.reach == shoreReach s) = false
  drained : s.mtl.sealedQ.any (fun b => reachOf b.line == shoreReach s) = false

theorem doShoreCapture_captures {g : KeyGen} {s : State} (captures : ShoreCaptures g s) :
    doShoreCapture s = strideEnd (strideBuild g s) s := by
  obtain ⟨background, crypt, running, waits, new, unfolded, drained⟩ := captures
  refine (if_neg ?runs).trans ((if_neg ?free).trans ?builds)
  case runs =>
    have step : (s.icu.shore.step == 1 || s.icu.shore.step == 2) = true := by simpa using waits
    simp [background, crypt, running, step]
  case free =>
    rw [← shoreReach, unfolded, drained]
    decide
  case builds =>
    rw [new]
    extract_lets rec_ caps fineP poisoned old resets seq read ahead
    have built : (List.range 1024).foldl (buildOffset s.icu.shore.key g (reachOf s.icu.shore.b) caps old poisoned resets)
      ⟨[], [], ahead, read, false⟩ = strideBuild g s := rfl
    simp only [built]
    -- the two sides agree for every build, so that none of its 1,024 offsets is evaluated
    generalize strideBuild g s = b
    rfl

/-- Settles O33: a start by its checks, the wait by its ticks, and a capture by what its build and its placing come to. -/
theorem shorelineJob : Obligations.ShorelineJob := by
  refine ⟨?start, ?status, ?timeout, ?capture, ?idle⟩
  case start =>
    intro path inp s takes header length ranged few zero index ranges key l
    have judged : doShoreStart path inp s.begun = shoreJudge path key l s.begun :=
      doShoreStart_asks (s := s.begun) takes ⟨header, length, ranged, few, zero, index, ranges⟩
    refine ⟨fun unfit => ?conflict, fun rotates covered idle alone free serves alive => ?queued⟩
    case conflict =>
      refine run_next (judged.trans (shoreJudge_conflict ?_)) rfl
      rintro ⟨rotates, covered⟩
      obtain still | uncovered := unfit
      · exact still rotates
      · exact Bool.false_ne_true (uncovered.symm.trans covered)
    case queued =>
      have free : shoreTaken path key s.begun = false := by
        rw [shoreTaken, Bool.or_eq_false_iff, Bool.or_eq_false_iff]
        exact ⟨⟨idle, alone⟩, free⟩
      exact run_effect (judged.trans (shoreJudge_queued (s := s.begun) ⟨rotates, covered⟩ free serves alive))
  case status =>
    intro path s takes x left
    have answers : doShoreStatus path [] s.begun = s.answered path 0xC023 rcSuccess (shoreReport s) :=
      doShoreStatus_taken (s := s.begun) takes
    exact run_next answers rfl
  case timeout =>
    intro s runs waits
    exact ⟨execShoreWaitTimeout_late runs waits, execShoreWaitTimeout_early⟩
  case capture =>
    intro g s background crypt running waits new x r unfolded drained rec_ caps poisoned old resets s0 ahead b hot s1
    have captures : ShoreCaptures g s.begun := ⟨background, crypt, running, waits, new, unfolded, drained⟩
    have built : strideBuild g s.begun = b := rfl
    have ends : doShoreCapture s.begun = strideEnd b s.begun := built ▸ doShoreCapture_captures captures
    clear_value b
    exact ⟨fun bad => run_effect (ends.trans (strideEnd_bad bad)),
      fun good full => run_effect (ends.trans (strideEnd_noPlace good full)),
      fun u n slot good place => run_effect (ends.trans (strideEnd_placed good place))⟩
  case idle =>
    intro s idle
    exact run_effect (doShoreCapture_idle (s := s.begun) idle)

end Sys2Proof.Machine
end

/-! Proofs of the family of chapter 09: the queues of the seal engine and their jobs, the noise source and the generator
(R385, R386, R389 to R396). -/

section
namespace Sys2Proof.Machine

/-! ### A queue's registers (R392, R405) -/

section Queue
variable {q path : Nat} {v : BitVec 32} {s : State} (there : jqThere s q = true)
include there

theorem doJqTail_owned (owns : rgOwns s (jq q) path = true) :
    doJqTail path q v s = setF (rgTail (jq q)) (v.toNat % 4096 % rgEntries s (jq q)) s :=
  if_pos (by simp [there, owns])

theorem doJqCfg_enabled {u : State} (accepted : rgCfg (jq q) path v s = (u, true)) :
    doJqCfg path q v s = if rgPlaced u (jq q) 64 then rgPut (dmv (8 + q)) 1 0 (rgPut (jq q) 1 0 u)
      else sed 0x0732 sERROR 4 q 3 (fld u (rgOwner (jq q))) (rgPut (jq q) 2 3 u) := by
  rw [doJqCfg, if_neg (by simp [there])]
  simp only [accepted, Bool.not_true, Bool.false_eq_true, ↓reduceIte]

end Queue

theorem doJqTail_other {s : State} {path q : Nat} (other : rgOwns s (jq q) path = false) (v : BitVec 32) :
    doJqTail path q v s = s :=
  if_neg (by simp [other])

/-! ### The jobs of a queue (R386, R392 to R394) -/

/-- The eight kinds of job command of a queue: each with its OP, the mismatches of its pipe, and the uncorrectable word that
it meets. -/
def jobForms (q mism : Nat) (ue : Option (Nat × Nat)) : List (Instr × Nat × Nat × Option (Nat × Nat)) :=
  [(.jobNop q, 0, 0, none), (.jobGcmEnc q mism ue, 1, mism, ue), (.jobGcmDec q mism ue, 2, mism, ue),
    (.jobXtsEnc q mism ue, 3, mism, ue), (.jobXtsDec q mism ue, 4, mism, ue), (.jobCmacGen q mism ue, 5, mism, ue),
    (.jobCmacVer q mism ue, 6, mism, ue), (.jobRandom q ue, 7, 0, ue)]

/-- Every kind of job command is `doJob` of its OP. -/
theorem exec_jobForm {q mism op m : Nat} {ue e : Option (Nat × Nat)} {i : Instr} (form : (i, op, m, e) ∈ jobForms q mism ue)
    (s : State) : exec i s = run (doJob op q m e) s := by
  simp only [jobForms, List.mem_cons, List.not_mem_nil, or_false] at form
  obtain h | h | h | h | h | h | h | h := form <;> cases h <;> rfl

section Job
variable {q op m : Nat} {e : Option (Nat × Nat)} {s : State} (there : jqThere s q = true) (runs : moverRuns s = true)
include there runs

section Command
variable (powered : s.pwr.stopped.contains 4 = false)
include powered

/-- The engine takes a job command of the queue. -/
theorem doJob_admitted : ¬ (!jqThere s q || !moverRuns s || s.pwr.stopped.contains 4) = true := by
  rw [there, runs, powered]
  decide

theorem doJob_goesOn {j : SealJob} (running : tfind s.vault.jobs q = some j) (same : j.op = op) :
    doJob op q m e s = jobGo q s := by
  rw [doJob, if_neg (doJob_admitted there runs powered), running]
  exact if_pos same

theorem doJob_idle (free : tfind s.vault.jobs q = none) (idle : rgReady s (jq q) = false) : doJob op q m e s = s := by
  rw [doJob, if_neg (doJob_admitted there runs powered), free]
  exact if_pos (by simp [idle])

theorem doJob_starts {t : State} {b : List Byte} {poison : Bool} (free : tfind s.vault.jobs q = none)
    (ready : rgReady s (jq q) = true) (fetched : fetchDesc (jq q) 64 s = some (t, b, poison)) (serves : inHalt t = false)
    (taken : poison = true ∨ (jobDesc b).op = op) (unheld : (slotOf s (jobDesc b).slot).waitSince = none) :
    doJob op q m e s = jobStart q m e (jobDesc b) poison t := by
  rw [doJob, if_neg (doJob_admitted there runs powered), free]
  simp only [ready, fetched, serves, unheld, Bool.not_true, Bool.false_eq_true, Option.isSome_none, false_and, ↓reduceIte]
  refine if_neg ?_
  obtain taken | taken := taken <;> simp [taken]

end Command

/-- A job that waited for its slot's counter starts once the reservation is durable (R386). -/
theorem doNonceWaitEnd_starts {t : State} {b : List Byte} {since : Nat} (free : tfind s.vault.jobs q = none)
    (ready : rgReady s (jq q) = true) (fetched : fetchDesc (jq q) 64 s = some (t, b, false)) (serves : inHalt t = false)
    (waits : (slotOf s (jobDesc b).slot).waitSince = some since)
    (reserved : (slotOf s (jobDesc b).slot).c < slotV s (jobDesc b).slot) :
    doNonceWaitEnd q s = jobStart q 0 none (jobDesc b) false
      (sed 0x0722 sNOTICE 4 (jobDesc b).slot ((s.tick.count - since) % 2 ^ 32) 0
        (modSlot (jobDesc b).slot (fun x => { x with waitSince := none }) t)) := by
  rw [doNonceWaitEnd, if_neg (by simp [there, runs, ready, free]), fetched]
  simp only [waits]
  exact if_neg (by simp [serves, Nat.not_le.mpr reserved])

end Job

/-! ### The noise source and the generator (R389 to R391) -/

/-- A test of the noise source fails: the source stops, and the failure is counted and recorded (R391). -/
def rngFailure (test : Nat) (s : State) : State :=
  sed 0x0710 sERROR 4 test (s.vault.rngFails + 1) 0
    ((if test = 0 then satInc F.KV_RNG_RCT_FAIL else if test = 1 then satInc F.KV_RNG_APT_FAIL else id)
      { s with vault := { s.vault with
        rngFails := s.vault.rngFails + 1
        rngStopped := some (s.vault.rngStopped.getD s.tick.count) } })

/-- The source is FAILED (R391). -/
def rngDead (s : State) : State := sed 0x0711 sCRITICAL 4 s.vault.rngFails 0 0 (setF F.KV_STAT_RNG 2 s)

/-- The start-up test passes, and the source runs again (R391). -/
def rngPasses (s : State) : State :=
  sed 0x0712 sNOTICE 4 (s.tick.count - s.vault.rngStopped.getD s.tick.count) 0 0
    (setF F.KV_STAT_RNG 1 { s with vault := { s.vault with rngFails := 0, rngStopped := none } })

@[simp] theorem rngFails_rngFailure (test : Nat) (s : State) : (rngFailure test s).vault.rngFails = s.vault.rngFails + 1 := by
  rw [rngFailure, sed_vault]
  split
  · exact congrArg (·.rngFails) (satInc_vault ..)
  · split
    · exact congrArg (·.rngFails) (satInc_vault ..)
    · rfl

section Source
variable {test : Nat} {s : State} (on : coreOn s = true) (alive : fld s F.KV_STAT_RNG ≠ 2)
include on alive

theorem doRngFail_alive (again : Bool) :
    doRngFail test again s =
      if 3 ≤ (rngFailure test s).vault.rngFails then rngDead (rngFailure test s)
      else if again then
        (if 3 ≤ (rngFailure 2 (rngFailure test s)).vault.rngFails then rngDead (rngFailure 2 (rngFailure test s))
         else setF F.KV_STAT_RNG 0 (rngFailure 2 (rngFailure test s)))
      else rngPasses (rngFailure test s) := by
  rw [doRngFail, if_neg (by simp [on, alive])]
  extract_lets +onlyGivenNames one
  have counted : one = rngFailure := by
    funext t s
    simp only [one, rngFailure]
    split
    · rfl
    · split <;> rfl
  clear_value one
  subst counted
  rfl

theorem doRngFail_third (third : 2 ≤ s.vault.rngFails) (again : Bool) :
    doRngFail test again s = rngDead (rngFailure test s) := by
  rw [doRngFail_alive on alive, if_pos (by simp [third])]

theorem doRngFail_thirdAgain (second : s.vault.rngFails = 1) :
    doRngFail test true s = rngDead (rngFailure 2 (rngFailure test s)) := by
  rw [doRngFail_alive on alive, if_neg (by simp [second]), if_pos rfl, if_pos (by simp [second])]

theorem doRngFail_again (first : s.vault.rngFails = 0) :
    doRngFail test true s = setF F.KV_STAT_RNG 0 (rngFailure 2 (rngFailure test s)) := by
  rw [doRngFail_alive on alive, if_neg (by simp [first]), if_pos rfl, if_neg (by simp [first])]

theorem doRngFail_passes (few : s.vault.rngFails < 2) : doRngFail test false s = rngPasses (rngFailure test s) := by
  rw [doRngFail_alive on alive, if_neg (by simp [few]), if_neg Bool.false_ne_true]

end Source

/-- The generator is seeded again at an epoch boundary, and after 2^20 requests (R390). -/
theorem doReseed_due {s : State} (on : coreOn s = true) (runs : fld s F.KV_STAT_RNG = 1)
    (due : tickInEpoch s = 0 ∨ 2 ^ 20 ≤ s.vault.drbgReqs) :
    doReseed s = satInc F.KV_RNG_RESEEDS { s with vault := { s.vault with drbgReqs := 0 } } :=
  if_pos (by simpa [on, runs] using due)

theorem doReseed_early {s : State} (within : tickInEpoch s ≠ 0) (few : s.vault.drbgReqs < 2 ^ 20) : doReseed s = s :=
  if_neg (by simpa [within] using fun _ _ => few)

/-- Settles O35: a queue by its owner and the place of its rings, a job by whether one runs, waits or stands at HEAD, and the
noise source by the failures before this one. -/
theorem keyJobs : Obligations.KeyJobs := by
  refine ⟨?tail, ?enable, ?job, ?waited, ?noise, ?reseed⟩
  case tail =>
    intro path q v s there
    exact ⟨fun owns => run_effect (doJqTail_owned (s := s.begun) there owns),
      fun other => run_effect (doJqTail_other (s := s.begun) other v)⟩
  case enable =>
    intro path q v u s there accepted
    have enabled := doJqCfg_enabled (s := s.begun) there accepted
    exact ⟨fun placed => run_effect (enabled.trans (if_pos placed)),
      fun outside => run_effect (enabled.trans (if_neg (Bool.eq_false_iff.mp outside)))⟩
  case job =>
    intro q mism op m ue e i s form there runs powered
    rw [exec_jobForm form]
    refine ⟨?starts, ?goesOn, ?idle⟩
    case starts =>
      intro t b poison free ready fetched serves taken unheld
      exact run_effect (doJob_starts (s := s.begun) there runs powered free ready fetched serves taken unheld)
    case goesOn =>
      intro j running same
      exact run_effect (doJob_goesOn (s := s.begun) there runs powered running same)
    case idle =>
      intro free idle
      exact run_effect (doJob_idle (s := s.begun) there runs powered free idle)
  case waited =>
    intro q since t b s there runs ready free fetched serves waits reserved
    exact run_effect (doNonceWaitEnd_starts (s := s.begun) there runs free ready fetched serves waits reserved)
  case noise =>
    intro test again s on alive one dead
    exact ⟨fun third => run_effect (doRngFail_third (s := s.begun) on alive third again),
      fun second => run_effect (doRngFail_thirdAgain (s := s.begun) on alive second),
      fun first => run_effect (doRngFail_again (s := s.begun) on alive first),
      fun few => run_effect (doRngFail_passes (s := s.begun) on alive few)⟩
  case reseed =>
    intro s on runs
    exact ⟨fun due => run_effect (doReseed_due (s := s.begun) on runs due),
      fun within few => run_effect (doReseed_early (s := s.begun) within few)⟩

end Sys2Proof.Machine
end

/-! Proofs of the family of chapter 10: the SEC-DED code of on-die words (R407, R408). -/

section
namespace Sys2Proof.Machine

/-! ### The check matrix (R407) -/

theorem length_weight3 : ((List.range 256).filter (fun n => weight8 n == 3)).length = 56 := by decide

theorem length_eccColumns : eccColumns.length = 64 := by rw [eccColumns, List.length_append, length_weight3]; rfl

/-- The first 56 columns are the values of weight 3, in ascending order. -/
theorem eccColumns_take : eccColumns.take 56 = (List.range 256).filter (fun n => weight8 n == 3) :=
  List.take_left' length_weight3

theorem eccColumns_drop : eccColumns.drop 56 = [0x1F, 0x2F, 0x37, 0x3B, 0x3D, 0x3E, 0x4F, 0x57] :=
  List.drop_left' length_weight3

theorem weight8_of_mem_drop : ∀ n ∈ eccColumns.drop 56, n < 256 ∧ weight8 n = 5 := by
  rw [eccColumns_drop]
  decide

theorem mem_eccColumns_take (n : Nat) : n ∈ eccColumns.take 56 ↔ n < 256 ∧ weight8 n = 3 := by
  rw [eccColumns_take, List.mem_filter, List.mem_range, beq_iff_eq]

theorem mem_eccColumns_cases {n : Nat} (h : n ∈ eccColumns) : n < 256 ∧ (weight8 n = 3 ∨ weight8 n = 5) := by
  rw [← List.take_append_drop 56 eccColumns, List.mem_append] at h
  obtain h | h := h
  · obtain ⟨small, three⟩ := (mem_eccColumns_take n).mp h
    exact ⟨small, .inl three⟩
  · obtain ⟨small, five⟩ := weight8_of_mem_drop n h
    exact ⟨small, .inr five⟩

theorem eccColumns_take_ascending : (eccColumns.take 56).Pairwise (· < ·) := by
  rw [eccColumns_take]
  exact List.pairwise_lt_range.filter _

/-- No two data bits have one column. -/
theorem nodup_eccColumns : eccColumns.Nodup := by
  rw [← List.take_append_drop 56 eccColumns, List.nodup_append]
  refine ⟨eccColumns_take_ascending.imp Nat.ne_of_lt, by rw [eccColumns_drop]; decide, ?_⟩
  rintro a ha b hb rfl
  have three := ((mem_eccColumns_take a).mp ha).2
  have five := (weight8_of_mem_drop a hb).2
  omega

/-! ### The columns as words -/

/-- The column of data bit b of the check matrix. -/
def eccColumn (b : Nat) : BitVec 8 := BitVec.ofNat 8 (lat 0 eccColumns b)

/-- The column of check bit i of the check matrix. -/
def checkColumn (i : Nat) : BitVec 8 := (1 : BitVec 8) <<< i

theorem lat_mem_eccColumns {b : Nat} (h : b < 64) : lat 0 eccColumns b ∈ eccColumns := by
  rw [lat_eq_getElem 0 eccColumns (length_eccColumns ▸ h)]
  exact List.getElem_mem _

theorem exists_lat_of_mem {n : Nat} (h : n ∈ eccColumns) : ∃ b, b < 64 ∧ lat 0 eccColumns b = n := by
  obtain ⟨b, hb, rfl⟩ := List.getElem_of_mem h
  exact ⟨b, length_eccColumns ▸ hb, lat_eq_getElem 0 eccColumns hb⟩

theorem toNat_eccColumn {b : Nat} (h : b < 64) : (eccColumn b).toNat = lat 0 eccColumns b := by
  rw [eccColumn, BitVec.toNat_ofNat]
  exact Nat.mod_eq_of_lt (mem_eccColumns_cases (lat_mem_eccColumns h)).1

theorem weight8_eccColumn {b : Nat} (h : b < 64) : weight8 (eccColumn b).toNat = 3 ∨ weight8 (eccColumn b).toNat = 5 := by
  rw [toNat_eccColumn h]
  exact (mem_eccColumns_cases (lat_mem_eccColumns h)).2

theorem toNat_checkColumn : ∀ i < 8, (checkColumn i).toNat = 2 ^ i := by decide

theorem weight8_two_pow : ∀ i < 8, weight8 (2 ^ i) = 1 := by decide

theorem eq_two_pow_of_weight8 {n : Nat} (small : n < 256) (one : weight8 n = 1) : ∃ i, i < 8 ∧ n = 2 ^ i := by
  obtain ⟨i, single⟩ := List.length_eq_one_iff.mp one
  have ones (j : Nat) : j = i ↔ j < 8 ∧ n.testBit j = true := by
    rw [← List.mem_singleton, ← single, List.mem_filter, List.mem_range]
  refine ⟨i, ((ones i).mp rfl).1, Nat.eq_of_testBit_eq fun j => ?_⟩
  rw [Nat.testBit_two_pow, Bool.eq_iff_iff, decide_eq_true_iff, eq_comm (a := i), ones j]
  refine ⟨fun bit => ⟨Nat.lt_of_not_le fun high => ?_, bit⟩, And.right⟩
  have outside : n < 2 ^ j := Nat.lt_of_lt_of_le small (Nat.pow_le_pow_right (n := 2) (i := 8) (by decide) high)
  exact Bool.false_ne_true ((Nat.testBit_lt_two_pow outside).symm.trans bit)

theorem weight8_checkColumn {i : Nat} (h : i < 8) : weight8 (checkColumn i).toNat = 1 := by
  rw [toNat_checkColumn i h, weight8_two_pow i h]

theorem eccColumn_ne {a b : Nat} (hab : a < b) (hb : b < 64) : eccColumn a ≠ eccColumn b := by
  intro same
  have ha : a < 64 := Nat.lt_trans hab hb
  have eq : lat 0 eccColumns a = lat 0 eccColumns b := by rw [← toNat_eccColumn ha, same, toNat_eccColumn hb]
  rw [lat_eq_getElem 0 eccColumns (length_eccColumns ▸ ha), lat_eq_getElem 0 eccColumns (length_eccColumns ▸ hb),
    List.getElem_inj nodup_eccColumns] at eq
  exact Nat.ne_of_lt hab eq

theorem eccColumn_ne_checkColumn {b i : Nat} (hb : b < 64) (hi : i < 8) : eccColumn b ≠ checkColumn i := by
  intro same
  have three := weight8_eccColumn hb
  have one := weight8_checkColumn hi
  rw [same] at three
  omega

theorem checkColumn_ne {i j : Nat} (hij : i < j) (hj : j < 8) : checkColumn i ≠ checkColumn j := by
  intro same
  have eq : 2 ^ i = 2 ^ j := by rw [← toNat_checkColumn i (Nat.lt_trans hij hj), same, toNat_checkColumn j hj]
  exact Nat.ne_of_lt hij ((Nat.pow_right_inj (by decide)).mp eq)

/-! ### The encoder is linear (R407) -/

/-- The column of one data bit joins the check byte where the bit is 1. -/
def columnStep (d : BitVec 64) (c : BitVec 8) (e : Nat × Nat) : BitVec 8 :=
  if d.getLsbD e.2 then c ^^^ BitVec.ofNat 8 e.1 else c

theorem eccCheck_eq_foldl (d : BitVec 64) : eccCheck d = eccColumns.zipIdx.foldl (columnStep d) 0 := rfl

theorem columnStep_xor (d e : BitVec 64) (x y : BitVec 8) (p : Nat × Nat) :
    columnStep (d ^^^ e) (x ^^^ y) p = columnStep d x p ^^^ columnStep e y p := by
  simp only [columnStep, BitVec.getLsbD_xor]
  generalize BitVec.ofNat 8 p.1 = n
  have twice : x ^^^ y = x ^^^ n ^^^ (y ^^^ n) := by
    rw [BitVec.xor_comm y, BitVec.xor_assoc, ← BitVec.xor_assoc n, BitVec.xor_self, BitVec.zero_xor]
  cases d.getLsbD p.2 <;> cases e.getLsbD p.2
  · rfl
  · exact BitVec.xor_assoc ..
  · change x ^^^ y ^^^ n = x ^^^ n ^^^ y
    ac_rfl
  · exact twice

theorem foldl_columnStep_xor (d e : BitVec 64) (l : List (Nat × Nat)) (x y : BitVec 8) :
    l.foldl (columnStep (d ^^^ e)) (x ^^^ y) = l.foldl (columnStep d) x ^^^ l.foldl (columnStep e) y := by
  induction l generalizing x y with
  | nil => rfl
  | cons p l ih => simp only [List.foldl_cons, columnStep_xor, ih]

theorem eccCheck_xor (d e : BitVec 64) : eccCheck (d ^^^ e) = eccCheck d ^^^ eccCheck e :=
  foldl_columnStep_xor d e eccColumns.zipIdx 0 0

theorem eccCheck_zero : eccCheck 0 = 0 := by
  have twice : eccCheck 0 = eccCheck 0 ^^^ eccCheck 0 := eccCheck_xor 0 0
  rw [twice, BitVec.xor_self]; rfl

theorem columnStep_oneBit {b : Nat} (h : b < 64) (c : BitVec 8) (n k : Nat) :
    columnStep ((1 : BitVec 64) <<< b) c (n, k) = if k = b then c ^^^ BitVec.ofNat 8 n else c := by
  have bit : ((1 : BitVec 64) <<< b).getLsbD k = decide (k = b) := by
    rw [BitVec.getLsbD_shiftLeft, BitVec.ofNat_eq_ofNat, BitVec.getLsbD_one, Bool.eq_iff_iff]
    simp only [Bool.and_eq_true, decide_eq_true_iff, Bool.not_eq_true', decide_eq_false_iff_not]
    omega
  simp only [columnStep, bit, decide_eq_true_iff]

/-- Of columns numbered from k on, a word with the single bit b takes column b. -/
theorem foldl_columnStep_oneBit {b : Nat} (h : b < 64) (l : List Nat) (k : Nat) (c : BitVec 8) :
    (l.zipIdx k).foldl (columnStep ((1 : BitVec 64) <<< b)) c =
      if k ≤ b then c ^^^ BitVec.ofNat 8 (lat 0 l (b - k)) else c := by
  induction l generalizing k c with
  | nil =>
    split
    · exact BitVec.xor_zero.symm
    · rfl
  | cons n l ih =>
    rw [List.zipIdx_cons, List.foldl_cons, columnStep_oneBit h, ih]
    obtain before | rfl | after := Nat.lt_trichotomy k b
    · have next : b - k = b - (k + 1) + 1 := by omega
      rw [if_pos (Nat.succ_le_of_lt before), if_neg (Nat.ne_of_lt before), if_pos (Nat.le_of_lt before), next]
      rfl
    · rw [if_neg (Nat.not_succ_le_self k), if_pos rfl, if_pos (Nat.le_refl k), Nat.sub_self]
      rfl
    · rw [if_neg (by omega), if_neg (Nat.ne_of_gt after), if_neg (by omega)]

theorem eccCheck_oneBit {b : Nat} (h : b < 64) : eccCheck ((1 : BitVec 64) <<< b) = eccColumn b := by
  rw [eccCheck_eq_foldl, foldl_columnStep_oneBit h, if_pos (Nat.zero_le b)]
  exact BitVec.zero_xor

theorem eccCheck_flip {b : Nat} (h : b < 64) (d : BitVec 64) :
    eccCheck (d ^^^ ((1 : BitVec 64) <<< b)) = eccCheck d ^^^ eccColumn b := by
  rw [eccCheck_xor, eccCheck_oneBit h]

/-! ### Parity of the weight -/

/-- The number of elements that satisfy exactly one of two predicates has the parity of the sum of their numbers. -/
theorem length_filter_xor {α : Type} (p q : α → Bool) (l : List α) :
    (l.filter (fun i => p i ^^ q i)).length % 2 = ((l.filter p).length + (l.filter q).length) % 2 := by
  induction l with
  | nil => rfl
  | cons i l ih => cases hp : p i <;> cases hq : q i <;> simp [hp, hq] <;> omega

theorem weight8_xor (x y : BitVec 8) : weight8 (x ^^^ y).toNat % 2 = (weight8 x.toNat + weight8 y.toNat) % 2 := by
  simp only [weight8, BitVec.toNat_xor, Nat.testBit_xor]
  exact length_filter_xor ..

/-! ### The decoder by syndrome (R408) -/

section Decoder
variable {d : BitVec 64} {c : BitVec 8}

theorem eccDecode_good (agrees : eccCheck d = c) : eccDecode d c = .good := by
  subst agrees
  rw [eccDecode, BitVec.xor_self]
  rfl

theorem syndrome_ne_zero (differ : eccCheck d ≠ c) : (eccCheck d ^^^ c).toNat ≠ 0 := fun zero =>
  differ (BitVec.xor_eq_zero_iff.mp (BitVec.eq_of_toNat_eq zero))

theorem eccDecode_even (differ : eccCheck d ≠ c) (even : weight8 (eccCheck d ^^^ c).toNat % 2 = 0) :
    eccDecode d c = .bad := by
  rw [eccDecode, if_neg (syndrome_ne_zero differ), if_pos even]

section Odd
variable (odd : weight8 (eccCheck d ^^^ c).toNat % 2 = 1)
include odd

theorem syndrome_ne_zero_of_odd : (eccCheck d ^^^ c).toNat ≠ 0 := by
  intro zero
  rw [zero] at odd
  exact absurd odd (by decide)

/-- A syndrome of odd weight that is a column: its data bit is inverted. -/
theorem eccDecode_found {e : Nat × Nat}
    (found : eccColumns.zipIdx.find? (fun e => e.1 == (eccCheck d ^^^ c).toNat) = some e) :
    eccDecode d c = .corrected (d ^^^ ((1 : BitVec 64) <<< e.2)) := by
  rw [eccDecode, if_neg (syndrome_ne_zero_of_odd odd), if_neg (by omega), found]

/-- A syndrome of odd weight that is no data bit's column. -/
theorem eccDecode_notFound (missing : eccColumns.zipIdx.find? (fun e => e.1 == (eccCheck d ^^^ c).toNat) = none) :
    eccDecode d c = if weight8 (eccCheck d ^^^ c).toNat = 1 then .corrected d else .bad := by
  rw [eccDecode, if_neg (syndrome_ne_zero_of_odd odd), if_neg (by omega), missing]

end Odd

theorem find_eccColumn {b : Nat} (h : b < 64) :
    eccColumns.zipIdx.find? (fun e => e.1 == lat 0 eccColumns b) = some (lat 0 eccColumns b, b) := by
  have hb : b < eccColumns.length := length_eccColumns ▸ h
  rw [lat_eq_getElem 0 eccColumns hb, List.find?_eq_some_iff_getElem]
  refine ⟨beq_self_eq_true _, b, by rwa [List.length_zipIdx], by rw [List.getElem_zipIdx, Nat.zero_add], fun j hj => ?_⟩
  rw [List.getElem_zipIdx, Bool.not_eq_true', beq_eq_false_iff_ne]
  exact fun same => Nat.ne_of_lt hj ((List.getElem_inj nodup_eccColumns).mp same)

theorem find_notColumn {n : Nat} (other : n ∉ eccColumns) : eccColumns.zipIdx.find? (fun e => e.1 == n) = none := by
  rw [List.find?_eq_none]
  intro e he same
  exact other (eq_of_beq same ▸ List.fst_mem_of_mem_zipIdx he)

theorem eccDecode_dataBit {b : Nat} (h : b < 64) (column : (eccCheck d ^^^ c).toNat = lat 0 eccColumns b) :
    eccDecode d c = .corrected (d ^^^ ((1 : BitVec 64) <<< b)) := by
  have weight := (mem_eccColumns_cases (lat_mem_eccColumns h)).2
  exact eccDecode_found (by rw [column]; omega) (column ▸ find_eccColumn h)

theorem eccDecode_checkBit {i : Nat} (h : i < 8) (column : (eccCheck d ^^^ c).toNat = 2 ^ i) : eccDecode d c = .corrected d := by
  have one : weight8 (eccCheck d ^^^ c).toNat = 1 := column ▸ weight8_two_pow i h
  have other : (eccCheck d ^^^ c).toNat ∉ eccColumns := by
    intro mem
    have weight := (mem_eccColumns_cases mem).2
    omega
  rw [eccDecode_notFound (by rw [one]) (find_notColumn other), if_pos one]

theorem eccDecode_noColumn (odd : weight8 (eccCheck d ^^^ c).toNat % 2 = 1)
    (noData : ∀ b, b < 64 → (eccCheck d ^^^ c).toNat ≠ lat 0 eccColumns b)
    (noCheck : ∀ i, i < 8 → (eccCheck d ^^^ c).toNat ≠ 2 ^ i) : eccDecode d c = .bad := by
  have other : (eccCheck d ^^^ c).toNat ∉ eccColumns := by
    intro mem
    obtain ⟨b, hb, column⟩ := exists_lat_of_mem mem
    exact noData b hb column.symm
  rw [eccDecode_notFound odd (find_notColumn other)]
  refine if_neg fun one => ?_
  obtain ⟨i, hi, column⟩ := eq_two_pow_of_weight8 (BitVec.isLt _) one
  exact noCheck i hi column

/-- A syndrome that is the sum of two different columns has even weight and is not zero. -/
theorem eccDecode_twoColumns {x y : BitVec 8} (syndrome : eccCheck d ^^^ c = x ^^^ y) (differ : x ≠ y)
    (oddX : weight8 x.toNat % 2 = 1) (oddY : weight8 y.toNat % 2 = 1) : eccDecode d c = .bad := by
  refine eccDecode_even (fun same => differ ?_) ?_
  · rw [same, BitVec.xor_self] at syndrome
    exact BitVec.xor_eq_zero_iff.mp syndrome.symm
  · rw [syndrome, weight8_xor]
    omega

end Decoder

theorem weight8_eccColumn_odd {b : Nat} (h : b < 64) : weight8 (eccColumn b).toNat % 2 = 1 := by
  have weight := weight8_eccColumn h
  omega

theorem weight8_checkColumn_odd {i : Nat} (h : i < 8) : weight8 (checkColumn i).toNat % 2 = 1 := by
  rw [weight8_checkColumn h]

/-! ### Flipped bits of a codeword -/

section Flips
variable (d : BitVec 64)

theorem syndrome_dataFlip {b : Nat} (h : b < 64) : eccCheck (d ^^^ ((1 : BitVec 64) <<< b)) ^^^ eccCheck d = eccColumn b := by
  rw [eccCheck_flip h, BitVec.xor_comm (eccCheck d), BitVec.xor_assoc, BitVec.xor_self, BitVec.xor_zero]

theorem syndrome_checkFlip (x : BitVec 8) : eccCheck d ^^^ (eccCheck d ^^^ x) = x := by
  rw [← BitVec.xor_assoc, BitVec.xor_self, BitVec.zero_xor]

theorem eccDecode_dataFlip {b : Nat} (h : b < 64) : eccDecode (d ^^^ ((1 : BitVec 64) <<< b)) (eccCheck d) = .corrected d := by
  have column : (eccCheck (d ^^^ ((1 : BitVec 64) <<< b)) ^^^ eccCheck d).toNat = lat 0 eccColumns b := by
    rw [syndrome_dataFlip d h, toNat_eccColumn h]
  rw [eccDecode_dataBit h column, BitVec.xor_assoc, BitVec.xor_self, BitVec.xor_zero]

theorem eccDecode_checkFlip {i : Nat} (h : i < 8) : eccDecode d (eccCheck d ^^^ ((1 : BitVec 8) <<< i)) = .corrected d := by
  refine eccDecode_checkBit h ?_
  rw [syndrome_checkFlip]
  exact toNat_checkColumn i h

theorem eccDecode_twoDataFlips {a b : Nat} (hab : a < b) (hb : b < 64) :
    eccDecode (d ^^^ ((1 : BitVec 64) <<< a) ^^^ ((1 : BitVec 64) <<< b)) (eccCheck d) = .bad := by
  have ha : a < 64 := Nat.lt_trans hab hb
  refine eccDecode_twoColumns ?_ (eccColumn_ne hab hb) (weight8_eccColumn_odd ha) (weight8_eccColumn_odd hb)
  rw [eccCheck_flip hb, BitVec.xor_assoc, BitVec.xor_comm (eccColumn b), ← BitVec.xor_assoc, syndrome_dataFlip d ha]

theorem eccDecode_dataAndCheckFlip {a i : Nat} (ha : a < 64) (hi : i < 8) :
    eccDecode (d ^^^ ((1 : BitVec 64) <<< a)) (eccCheck d ^^^ ((1 : BitVec 8) <<< i)) = .bad := by
  refine eccDecode_twoColumns ?_ (eccColumn_ne_checkColumn ha hi) (weight8_eccColumn_odd ha) (weight8_checkColumn_odd hi)
  rw [← BitVec.xor_assoc, syndrome_dataFlip d ha, checkColumn]

theorem eccDecode_twoCheckFlips {i j : Nat} (hij : i < j) (hj : j < 8) :
    eccDecode d (eccCheck d ^^^ ((1 : BitVec 8) <<< i) ^^^ ((1 : BitVec 8) <<< j)) = .bad := by
  refine eccDecode_twoColumns ?_ (checkColumn_ne hij hj) (weight8_checkColumn_odd (Nat.lt_trans hij hj)) (weight8_checkColumn_odd hj)
  rw [BitVec.xor_assoc (eccCheck d), syndrome_checkFlip, checkColumn, checkColumn]

end Flips

/-- Settles O8: the syndrome of two flipped bits is the sum of their two columns, of even weight and not zero. -/
theorem eccDecoder : Obligations.EccDecoder :=
  ⟨fun _ _ => eccDecode_good, fun _ _ _ => eccDecode_dataBit, fun _ _ _ => eccDecode_checkBit, fun _ _ => eccDecode_noColumn,
    fun _ _ => eccDecode_even, fun d _ _ => eccDecode_twoDataFlips d, fun d _ _ => eccDecode_dataAndCheckFlip d,
    fun d _ _ => eccDecode_twoCheckFlips d, eccDecode_good eccCheck_zero⟩

/-- Settles O9: the syndrome of one flipped bit is that bit's column. -/
theorem eccCorrectsOneBit : Obligations.EccCorrectsOneBit :=
  ⟨fun d _ => eccDecode_dataFlip d, fun d _ => eccDecode_checkFlip d⟩

/-- Settles O10: the columns from how they are listed, the check byte from the encoder's linearity. -/
theorem eccEncoder : Obligations.EccEncoder :=
  ⟨⟨length_eccColumns, eccColumns_take_ascending, mem_eccColumns_take, eccColumns_drop⟩, eccCheck_zero,
    fun d _ hb _ => eccCheck_flip hb d, by decide⟩

end Sys2Proof.Machine
end

/-! Proofs of the family of chapter 10: the scrubbers, a core's fetch from a bad word, and error injection (R412, R415 to R419,
R433 to R437). -/

section
namespace Sys2Proof.Machine

/-! ### The scrubber (R412, R416, R417) -/

/-- The row is the next of its memory's pass, and the scrubbers run (R416). -/
structure ScrubsNext (cls inst row : Nat) (s : State) : Prop where
  on : coreOn s = true
  awake : s.pwr.st ≤ 1
  inside : row < scrubRows cls inst
  there : injInsts s cls inst = true
  next : tget 0 s.memp.scrubPos (cls * 65536 + inst) = row

/-- The scrubber's position moves on to the row after. -/
def scrubAdvance (cls inst row : Nat) (s : State) : State :=
  { s with memp := { s.memp with scrubPos := tput (cls * 65536 + inst) ((row + 1) % scrubRows cls inst) s.memp.scrubPos } }

/-- The word that stands for a row where an injection or a planted error is sought. -/
def scrubWord (cls inst row : Nat) (s : State) : Nat := if cls = 0 then (rowLine s inst row).getD row else row

/-- What the read of a row finds. -/
def scrubFound (cls inst row : Nat) (up : Upset) (s : State) : State × Upset :=
  mempRead cls inst (scrubWord cls inst row s) agScrub up s

/-- What the scrubber does on what it found (R412, R415 to R417). -/
def scrubAct (cls inst row word : Nat) (stuck : Bool) (found : State × Upset) : State :=
  match found.2 with
  | .none => found.1
  | .ce => scrubCe cls inst row word stuck found.1
  | .vote => if cls < 13 then mempVote cls inst row found.1 else found.1
  | u => scrubUe cls inst row u found.1

section Act
variable {cls inst row word : Nat} {stuck : Bool} {found : State × Upset}

theorem scrubAct_good (good : found.2 = .none) : scrubAct cls inst row word stuck found = found.1 := by
  rw [scrubAct, good]

theorem scrubAct_corrected (ce : found.2 = .ce) :
    scrubAct cls inst row word stuck found = scrubCe cls inst row word stuck found.1 := by
  rw [scrubAct, ce]

theorem scrubAct_voted (vote : found.2 = .vote) (voted : cls < 13) :
    scrubAct cls inst row word stuck found = mempVote cls inst row found.1 := by
  rw [scrubAct, vote]
  exact if_pos voted

theorem scrubAct_bad (notGood : found.2 ≠ .none) (notCe : found.2 ≠ .ce) (notVote : found.2 ≠ .vote) :
    scrubAct cls inst row word stuck found = scrubUe cls inst row found.2 found.1 := by
  rw [scrubAct]
  split
  next good => exact absurd good notGood
  next ce => exact absurd ce notCe
  next vote => exact absurd vote notVote
  next => rfl

end Act

section Row
variable {cls inst row : Nat} {s : State}

/-- A row of which no list of corrected words starts anew: any but the first of a Spring flash bank. -/
theorem doScrubRow_next (next : ScrubsNext cls inst row s) (listed : cls ≠ 14 ∨ row ≠ 0) (up : Upset) (stuck : Bool) :
    doScrubRow cls inst row up stuck s =
      let u := scrubAdvance cls inst row s
      scrubAct cls inst row (scrubWord cls inst row u) stuck (scrubFound cls inst row up u) := by
  obtain ⟨on, awake, inside, there, next⟩ := next
  have kept : ¬ (cls = 14 ∧ row = 0) := by omega
  rw [doScrubRow, if_neg (by simp [on, awake, inside, there, next])]
  simp only [kept, ↓reduceIte]
  rfl

theorem doScrubRow_idle (up : Upset) (stuck : Bool) (idle : coreOn s = false ∨ 1 < s.pwr.st ∨ scrubRows cls inst ≤ row ∨
    tget 0 s.memp.scrubPos (cls * 65536 + inst) ≠ row) : doScrubRow cls inst row up stuck s = s := by
  refine if_pos ?_
  obtain idle | idle | idle | idle := idle <;> simp [idle]

end Row

/-! ### The arming of an injection (R433, R436) -/

section Word
variable (v : BitVec 32)

theorem getLsbD_or_arm : (v ||| 0x80000000).getLsbD 31 = true := by simp

theorem toNat_or_arm_mod : (v ||| 0x80000000).toNat % 4 = v.toNat % 4 := by
  rw [BitVec.toNat_or]
  exact (Nat.or_mod_two_pow (n := 2)).trans (Nat.or_zero _)

theorem or_arm_and_fields {k : BitVec 32} (h : 0x80000000 &&& k = 0) : (v ||| 0x80000000) &&& k = v &&& k := by
  rw [BitVec.and_or_distrib_right, h]
  exact BitVec.or_zero

theorem getLsbD_or_arm_and_disarm : ((v ||| 0x80000000) &&& 0xFFFFFFFC).getLsbD 31 = true := by simp

theorem toNat_and_disarm_mod : (v &&& 0xFFFFFFFC).toNat % 4 = 0 := by
  rw [BitVec.toNat_and]
  exact (Nat.and_mod_two_pow (n := 2)).trans (Nat.and_zero _)

end Word

/-- The word that MEMP_INJ_CTL holds before ARM changes: the RW fields of a write, and ARM as it was. -/
def injWritten (v : BitVec 32) (s : State) : State :=
  s.putReg Reg.MEMP_INJ_CTL ((v &&& 0x007F7F1F) ||| (s.reg Reg.MEMP_INJ_CTL &&& 0x80000000))

/-- POINT and INST of the selected injection, as records give them. -/
def injSelected (s : State) : Nat := classInst (fld s F.MEMP_INJ_SEL_POINT) (fld s F.MEMP_INJ_SEL_INST)

/-- An injection is armed and recorded (R433). -/
def injArmedBy (u : State) : State :=
  let t := setF F.MEMP_INJ_CTL_ARM 1 u
  sed 0x0810 sNOTICE 8 (injSelected u) (t.reg Reg.MEMP_INJ_CTL).toNat (fld t F.MEMP_INJ_ADDR_WORD) t

/-- An arming is refused with its reason (R433, R437). -/
def injRefused (why : Nat) (u : State) : State :=
  sed 0x0812 sNOTICE 8 (injSelected u) why 0 (setF F.MEMP_INJ_STAT_REASON why (setF F.MEMP_INJ_STAT_REFUSED 1 u))

section Arming
variable {path : Nat} {s : State}

theorem doInjCtl_other (other : isMgmt path = false) (v : BitVec 32) : doInjCtl path v s = s :=
  if_pos (by simp [other])

variable (mgmt : isMgmt path = true) (on : coreOn s = true)
include mgmt on

theorem doInjCtl_armWrite {v : BitVec 32} (arms : v.getLsbD 31 = true) :
    doInjCtl path v s =
      if v.toNat % 4 = 0 then setF F.MEMP_INJ_CTL_ARM 0 (injWritten v s)
      else if injReason s path v = 0 then injArmedBy (injWritten v s)
      else injRefused (injReason s path v) (injWritten v s) := by
  rw [doInjCtl, if_neg (by simp [mgmt, on])]
  exact if_neg (by simp [arms])

theorem doInjCtl_arm {v : BitVec 32} (moded : v.toNat % 4 ≠ 0) :
    doInjCtl path (v ||| 0x80000000) s =
      if injReason s path (v ||| 0x80000000) = 0 then injArmedBy (injWritten v s)
      else injRefused (injReason s path (v ||| 0x80000000)) (injWritten v s) := by
  have written : injWritten (v ||| 0x80000000) s = injWritten v s := by
    rw [injWritten, or_arm_and_fields v (by decide), ← injWritten]
  rw [doInjCtl_armWrite mgmt on (getLsbD_or_arm v), if_neg (by rwa [toNat_or_arm_mod]), written]

theorem doInjCtl_disarm (v : BitVec 32) :
    doInjCtl path ((v ||| 0x80000000) &&& 0xFFFFFFFC) s = setF F.MEMP_INJ_CTL_ARM 0
      (s.putReg Reg.MEMP_INJ_CTL ((v &&& 0x007F7F1C) ||| (s.reg Reg.MEMP_INJ_CTL &&& 0x80000000))) := by
  have fields : (v ||| 0x80000000) &&& 0xFFFFFFFC &&& 0x007F7F1F = v &&& 0x007F7F1C := by
    rw [BitVec.and_assoc]
    exact or_arm_and_fields v (by decide)
  rw [doInjCtl_armWrite mgmt on (getLsbD_or_arm_and_disarm v), if_pos (toNat_and_disarm_mod _), injWritten, fields]

end Arming

/-- Settles O36: a row by what its read finds, a fetch trap by the class of its address, and an injection by the reason that
its arming meets. -/
theorem memoryProtection : Obligations.MemoryProtection := by
  refine ⟨?row, ?idle, ?trap, ?arm, ?disarm, ?other⟩
  case row =>
    intro cls inst row up stuck s on awake inside there next listed u r
    have acts : doScrubRow cls inst row up stuck s.begun =
        scrubAct cls inst row (scrubWord cls inst row u) stuck r :=
      doScrubRow_next (s := s.begun) ⟨on, awake, inside, there, next⟩ listed up stuck
    exact ⟨fun good => run_effect (acts.trans (scrubAct_good good)),
      fun ce => run_effect (acts.trans (scrubAct_corrected ce)),
      fun vote voted => run_effect (acts.trans (scrubAct_voted vote voted)),
      fun notGood notCe notVote => run_effect (acts.trans (scrubAct_bad notGood notCe notVote))⟩
  case idle =>
    intro cls inst row up stuck s idle
    exact run_effect (doScrubRow_idle (s := s.begun) up stuck idle)
  case trap =>
    intro core addr s cls
    exact run_after (fun s => fetchTrap core addr cls (mempUe cls 0 addr agRequest s)) s
  case arm =>
    intro path v s mgmt on moded u ci why
    have arms := doInjCtl_arm (s := s.begun) mgmt on moded
    exact ⟨fun taken => run_effect (arms.trans (if_pos taken)), fun refused => run_effect (arms.trans (if_neg refused))⟩
  case disarm =>
    intro path v s mgmt on
    exact run_effect (doInjCtl_disarm (s := s.begun) mgmt on v)
  case other =>
    intro path v s other
    exact ⟨run_effect (doInjCtl_other (s := s.begun) other _), run_effect (doInjCtl_other (s := s.begun) other _)⟩

end Sys2Proof.Machine
end

/-! Proofs of the family of chapter 10: the data movers (R424 to R431). -/

section
namespace Sys2Proof.Machine

/-! ### A channel's registers (R425, R438) -/

section Channel
variable {n path : Nat} {v : BitVec 32} {s : State} (there : dmvThere s n = true)
include there

theorem doDmvTail_owned (owns : rgOwns s (dmv n) path = true) :
    doDmvTail path n v s = setF (rgTail (dmv n)) (v.toNat % 4096 % rgEntries s (dmv n)) s :=
  if_pos (by simp [there, owns])

/-- A write of CFG that does not enable the channel leaves what the fields it may write have become. -/
theorem doDmvCfg_left {u : State} (left : rgCfg (dmv n) path v s = (u, false)) : doDmvCfg path n v s = u := by
  rw [doDmvCfg, if_neg (by simp [there])]
  simp only [left, Bool.not_false, ↓reduceIte]

theorem doDmvCfg_enabled {u : State} (accepted : rgCfg (dmv n) path v s = (u, true)) :
    doDmvCfg path n v s = if rgPlaced u (dmv n) 32 then rgPut (dmv n) 1 0 u
      else sed 0x0820 sERROR 7 n (rgDbase u (dmv n) / 64 % 2 ^ 32) 3 (rgPut (dmv n) 2 3 u) := by
  rw [doDmvCfg, if_neg (by simp [there])]
  simp only [accepted, Bool.not_true, Bool.false_eq_true, ↓reduceIte]

end Channel

theorem doDmvTail_other {s : State} {path n : Nat} (other : rgOwns s (dmv n) path = false) (v : BitVec 32) :
    doDmvTail path n v s = s :=
  if_neg (by simp [other])

/-! ### The descriptors of a channel (R425 to R428) -/

/-- The three kinds of mover command of a channel: each with its OP, and the uncorrectable word that it meets. -/
def dmvForms (n : Nat) (ue : Option (Nat × Nat)) : List (Instr × Nat × Option (Nat × Nat)) :=
  [(.dmvNop n, 0, none), (.dmvCopy n ue, 1, ue), (.dmvFill n ue, 2, ue)]

/-- Every kind of mover command is `doDmv` of its OP. -/
theorem exec_dmvForm {n op : Nat} {ue e : Option (Nat × Nat)} {i : Instr} (form : (i, op, e) ∈ dmvForms n ue) (s : State) :
    exec i s = run (doDmv op n e) s := by
  simp only [dmvForms, List.mem_cons, List.not_mem_nil, or_false] at form
  obtain h | h | h := form <;> cases h <;> rfl

/-- The status of a descriptor before it runs: poisoned, or the first check of R426 that it fails. -/
def dmvStatus (p : Nat) (d : List Byte) (poison : Bool) (t : State) : Nat := if poison then 0x8 else dmvCheck t p d

/-- The run of a descriptor that has passed its checks, before its first line. -/
def moverOf (d : List Byte) : MoverRun :=
  { op := byteAt d 0, tag := at' d 4 4, src := at' d 8 8, dst := at' d 16 8, lines := at' d 24 4 / 64, done := 0
    srcKey := at' d 28 2, dstKey := at' d 30 2, pattern := BitVec.ofNat 64 (at' d 8 8), irq := byteAt d 1 % 2 == 1
    poisoned := 0, ending := none }

/-- A descriptor leaves the ring and its lines begin to move (R427). -/
def dmvStart (n : Nat) (e : Option (Nat × Nat)) (d : List Byte) (t : State) : State :=
  dmvGo n e (modMover n (moverOf d) (setF (F.DMV_CH_DONE_LINES n) 0 (setF (rgBusy (dmv n)) 1 (rgPop (dmv n) t))))

/-- A descriptor leaves the ring and is completed at once: a NOP, or one that is not run. -/
def dmvComplete (n : Nat) (d : List Byte) (st : Nat) (t : State) : Option State :=
  dmvEnd n (byteAt d 0) (at' d 4 4) st 0 (byteAt d 1 % 2 == 1) 0 (rgPop (dmv n) t)

section Descriptor
variable {n op : Nat} {e : Option (Nat × Nat)} {s : State} (there : dmvThere s n = true) (runs : moverRuns s = true)
  (powered : s.pwr.stopped.contains 7 = false)
include there runs powered

/-- The channel takes a mover command. -/
theorem doDmv_admitted : ¬ (!dmvThere s n || !moverRuns s || s.pwr.stopped.contains 7) = true := by
  rw [there, runs, powered]
  decide

theorem doDmv_goesOn {m : MoverRun} (running : tfind s.movers n = some m) (same : m.op = op)
    (unhalted : fld s (rgState (dmv n)) = 1 ∨ m.ending.isSome = true) : doDmv op n e s = dmvGo n e s := by
  rw [doDmv, if_neg (doDmv_admitted there runs powered), running]
  exact if_pos ⟨same, unhalted⟩

theorem doDmv_fetched {t : State} {d : List Byte} {poison : Bool} (free : tfind s.movers n = none)
    (ready : rgReady s (dmv n) = true) (fetched : fetchDesc (dmv n) 32 s = some (t, d, poison)) (serves : inHalt t = false)
    (taken : poison = true ∨ byteAt d 0 = op) :
    doDmv op n e s =
      let st := dmvStatus (fld s (rgOwner (dmv n))) d poison t
      if st ≠ 0 ∨ byteAt d 0 = 0 then (dmvComplete n d st t).getD s else dmvStart n e d t := by
  rw [doDmv, if_neg (doDmv_admitted there runs powered), free]
  simp only [ready, fetched, serves, Bool.not_true, Bool.false_eq_true, ↓reduceIte]
  refine if_neg ?_
  obtain taken | taken := taken <;> simp [taken]

end Descriptor

/-! ### The end of a halt (R430) -/

theorem doDmvCtl_notHalted {path n : Nat} {s : State} (running : fld s (rgState (dmv n)) ≠ 2) (action : Nat) :
    doDmvCtl path n action s = s :=
  if_pos (by simp [running])

section Halted
variable {path n : Nat} {m : MoverRun} {s : State} (there : dmvThere s n = true) (owns : rgOwns s (dmv n) path = true)
  (halted : fld s (rgState (dmv n)) = 2) (left : tfind s.movers n = some m)
include there owns halted

/-- The channel takes a write of CTL. -/
theorem doDmvCtl_admitted : ¬ (!dmvThere s n || !rgOwns s (dmv n) path || fld s (rgState (dmv n)) ≠ 2) = true := by
  simp [there, owns, halted]

include left

theorem doDmvCtl_retry : doDmvCtl path n 1 s = sed 0x0821 sNOTICE 7 n 1 m.done (rgPut (dmv n) 1 0 s) := by
  rw [doDmvCtl, if_neg (doDmvCtl_admitted there owns halted), left]
  rfl

theorem doDmvCtl_skip {t : State} (ended : dmvEnd n m.op m.tag 0x7 m.done m.irq 0 s = some t) :
    doDmvCtl path n 2 s = pump (sed 0x0821 sNOTICE 7 n 2 m.done (rgPut (dmv n) 1 0 t)) := by
  rw [doDmvCtl, if_neg (doDmvCtl_admitted there owns halted), left]
  simp only [ended]
  rfl

theorem doDmvCtl_abort {t : State} {k : Nat}
    (ended : (dmvEnd n m.op m.tag 0x7 m.done m.irq 0 s).bind (abortQueued 4096 n 1) = some (t, k)) :
    doDmvCtl path n 3 s = pump (sed 0x0822 sWARNING 7 n 1 k (setF (rgEn (dmv n)) 0 (rgPut (dmv n) 0 0 t))) := by
  rw [doDmvCtl, if_neg (doDmvCtl_admitted there owns halted), left]
  simp only [ended]
  rfl

end Halted

/-- The three commands of CTL ask for their action by the word's ACTION. -/
theorem run_dmvCtl {path n k : Nat} {v : BitVec 32} {s t : State} (asked : v.toNat % 4 = k)
    (acts : doDmvCtl path n k s.begun = t) :
    run (fun s => doDmvCtl path n (if v.toNat % 4 = k then k else 0) s) s = .next { t with pending := s.pending } :=
  run_effect ((congrArg (doDmvCtl path n · s.begun) (if_pos asked)).trans acts)

/-- Settles O37: a channel by its owner and the place of its rings, a descriptor by whether one runs or stands at HEAD, and a
halt by the action asked. -/
theorem dataMovers : Obligations.DataMovers := by
  refine ⟨?tail, ?enable, ?left, ?descriptor, ?halted, ?notHalted⟩
  case tail =>
    intro path n v s there
    exact ⟨fun owns => run_effect (doDmvTail_owned (s := s.begun) there owns),
      fun other => run_effect (doDmvTail_other (s := s.begun) other v)⟩
  case enable =>
    intro path n v u s there accepted
    have enabled := doDmvCfg_enabled (s := s.begun) there accepted
    exact ⟨fun placed => run_effect (enabled.trans (if_pos placed)),
      fun outside => run_effect (enabled.trans (if_neg (Bool.eq_false_iff.mp outside)))⟩
  case left =>
    intro path n v u s there left
    exact run_effect (doDmvCfg_left (s := s.begun) there left)
  case descriptor =>
    intro n op ue e i s form there runs powered
    rw [exec_dmvForm form]
    refine ⟨?fetched, ?goesOn⟩
    case fetched =>
      intro t d poison free ready fetched serves taken st
      have takes := doDmv_fetched (s := s.begun) (e := e) there runs powered free ready fetched serves taken
      exact ⟨fun ends => run_effect (takes.trans (if_pos ends)),
        fun passes runs => run_effect (takes.trans (if_neg (not_or.mpr ⟨not_not_intro passes, runs⟩)))⟩
    case goesOn =>
      intro m running same unhalted
      exact run_effect (doDmv_goesOn (s := s.begun) there runs powered running same unhalted)
  case halted =>
    intro path n m v s there owns halted left
    exact ⟨fun retry => run_dmvCtl retry (doDmvCtl_retry (s := s.begun) there owns halted left),
      fun t skip ended => run_dmvCtl skip (doDmvCtl_skip (s := s.begun) there owns halted left ended),
      fun t k abort ended => run_dmvCtl abort (doDmvCtl_abort (s := s.begun) there owns halted left ended)⟩
  case notHalted =>
    intro path n v s running
    exact ⟨run_effect (doDmvCtl_notHalted (s := s.begun) running _), run_effect (doDmvCtl_notHalted (s := s.begun) running _),
      run_effect (doDmvCtl_notHalted (s := s.begun) running _)⟩

end Sys2Proof.Machine
end

/-! Proofs of the family of chapter 11: the start, restarts, advances, tokens and RESET_DEVICE (R457 to R475), the Tuten port
(R445 to R449), and PLDM (R450, R451). -/

section
namespace Sys2Proof.Machine

/-! ### The start and restarts (R457 to R462) -/

section Start
variable (trained silent : List Nat) (rngOk : Bool) {s : State}

theorem doBoot_due (t0 : s.sup.t0 = true) (first : s.mgmt.boot = 0) (mrHigh : s.sup.mrLow = false)
    (wellhead : bit s F.SF_STAT_WELLHEAD_LOST = false) :
    doBoot trained silent rngOk s = if railFailed s 4 then leaveBoot { s with mgmt := { s.mgmt with boot := 7 } }
      else bootRun trained silent rngOk s :=
  if_neg (by simp [t0, first, mrHigh, wellhead])

theorem doBoot_notDue (notDue : s.sup.t0 = false ∨ s.mgmt.boot ≠ 0) : doBoot trained silent rngOk s = s := by
  refine if_pos ?_
  obtain noT0 | begun := notDue
  · simp [noT0]
  · simp [begun]

end Start

theorem doMemActive_notDue {s : State} (notDue : activeDue s = false) : doMemActive s = s := if_pos (by simp [notDue])

section Restart
variable {s : State} (noRecovery : inRecovery s = false)
include noRecovery

theorem execWatchdogExpiry_running {core : Nat} (there : core < 4) (runs : (fld s F.MGMT_STAT_CORES).testBit core = true)
    (noRestart : s.mgmt.restartDue = none) : execWatchdogExpiry core s = .next (s.after (restartBegin 1 core)) :=
  run_effect (if_pos (by simp [there, runs, noRecovery, noRestart]))

theorem execMgmtRestart_begun {cause core : Nat} {ok : Bool} (begun : s.mgmt.restartDue.isSome = true) :
    execMgmtRestart cause core ok s = .next (s.after (restartEnd ok)) :=
  run_effect ((if_neg (by simp [noRecovery])).trans (if_pos begun))

theorem execMgmtRestart_starts {cause core : Nat} {ok : Bool} (noRestart : s.mgmt.restartDue = none)
    (runs : fld s F.MGMT_STAT_CORES ≠ 0) :
    execMgmtRestart cause core ok s = .next (s.after (fun s => restartEnd ok (restartBegin cause core s))) :=
  run_effect ((if_neg (by simp [noRecovery])).trans ((if_neg (by simp [noRestart])).trans (if_neg runs)))

end Restart

/-! ### Commands of the management complex that are taken (R464 to R475) -/

/-- A command that is taken with a payload of the right length has its own effect and no other. -/
theorem cmd_whole {path op : Nat} {input : List Byte} {lenOk : Bool} {s : State} (takes : taken path op input s = true)
    (whole : lenOk = true) (f : State → State) : cmd path op input lenOk f s = f s := by
  rw [whole, cmd_taken _ _ _ _ _ takes]

/-- What the checks of an advance leave of it: its acceptance with a new challenge, or its refusal with the record of the code,
and SECURE_REQUIRED where a session is missing (R443, R465). -/
def advAnswer (path : Nat) (sec : Bool) (d : List Byte) (rc : Nat) (s : State) : State :=
  if rc = rcSuccess then
    let s := chalDraw s
    let s := setF F.MGMT_LC_BUSY 1 { s with mgmt := { s.mgmt with
      bg := some (.advance path (byteAt d 0) (sub d 24 48) (BitVec.ofNat 256 (beVal (sub d 72 32))) 1)
      bgStat := tput path ⟨0xC050, 0, 0⟩ s.mgmt.bgStat } }
    answer path 0xC050 rcBackground (le 1 (byteAt d 0) ++ zeros 3 ++ le 8 s.mgmt.challenge.toNat) s
  else
    let noted := rc == rcRefused && needsSession s true && !isSecured s path sec
    answer path 0xC050 rc [] (sed 0x0051 sWARNING 16 (byteAt d 0) rc 0 (when noted (secureRequired 0xC050) s))

theorem doAdvance_taken {path : Nat} {sec : Bool} {d : List Byte} {s : State} (takes : taken path 0xC050 d s = true)
    (length : d.length = 296) :
    doAdvance path sec d s = advAnswer path sec d (advCheck s (isSecured s path sec) d) s :=
  (cmd_whole takes (by simp [length]) _).trans (ite_not ..)

/-- The first step of an accepted advance (R466). -/
theorem doAdvanceRun_first {p t : Nat} {dg : List Byte} {kek0 : BitVec 256} {s : State}
    (bg : s.mgmt.bg = some (.advance p t dg kek0 1)) :
    doAdvanceRun s = if t = 1 then
        ledgerAppend { LedgerEnt.of lkKek 0 with wrapped := kwWrap s.vault.kVault (be 32 kek0.toNat) } none (.advance 2) (advAt 2 s)
      else gEnq (.raise (.dev 0) t) false none (.advance 4) (advAt 4 s) := by
  simp only [doAdvanceRun, bg]

/-- What the checks of a token leave of it: the write that raises the token floor, or its refusal with its record (R473). -/
def tokenAnswer (path : Nat) (d : List Byte) (rc : Nat) (s : State) : State :=
  if rc = rcSuccess then
    let t : Token := ⟨byteAt d 4, at' d 22 6, at' d 28 4⟩
    gEnq (.raise (.dev 3) t.tseq) false (some path) (.token path)
      (startCmd path 0xC051 true { s with mgmt := { s.mgmt with tokenNew := some (path, t) } })
  else answer path 0xC051 rc [] (sed 0x0932 sWARNING 9 rc (at' d 28 4) 0 s)

theorem doToken_taken {path : Nat} {d : List Byte} {s : State} (takes : taken path 0xC051 d s = true) (length : d.length = 224)
    (alone : s.mgmt.tokenNew = none) : doToken path d s = tokenAnswer path d (tokenCheck s d) s := by
  have free : ¬ s.mgmt.tokenNew.isSome = true := by simp [alone]
  refine (cmd_whole takes (by simp [length]) _).trans ((ite_not ..).trans ?_)
  rw [if_neg free]
  rfl

section Reset
variable {path : Nat} {sec : Bool} {s : State} (takes : taken path 0xC081 [0] s = true)
include takes

theorem doResetDevice_judged :
    doResetDevice path sec [0] s = if (needsSession s false && !isSecured s path sec) = true then
        answer path 0xC081 rcRefused [] (secureRequired 0xC081 s)
      else answer path 0xC081 rcSuccess [] { s with mgmt := { s.mgmt with resetDue := true } } :=
  (cmd_whole takes rfl _).trans (if_neg (not_not_intro rfl))

theorem doResetDevice_accepted (session : needsSession s false = false ∨ isSecured s path sec = true) :
    doResetDevice path sec [0] s = answer path 0xC081 rcSuccess [] { s with mgmt := { s.mgmt with resetDue := true } } := by
  refine (doResetDevice_judged takes).trans (if_neg ?_)
  obtain free | secured := session
  · simp [free]
  · simp [secured]

theorem doResetDevice_refused (needs : needsSession s false = true) (unsecured : isSecured s path sec = false) :
    doResetDevice path sec [0] s = answer path 0xC081 rcRefused [] (secureRequired 0xC081 s) :=
  (doResetDevice_judged takes).trans (if_pos (by simp [needs, unsecured]))

end Reset

/-- Settles O38: the start, a restart and the activation by what makes them due, and each command that is taken by what its
checks leave of it. -/
theorem management : Obligations.Management := by
  refine ⟨?boot, ?notBoot, ?active, ?notActive, ?watchdog, ?restart, ?advance, ?advanced, ?token, ?reset⟩
  case boot =>
    intro tr silent rngOk s t0 first mrHigh wellhead
    have due := doBoot_due tr silent rngOk (s := s.begun) t0 first mrHigh wellhead
    exact ⟨fun powered => run_effect (due.trans (if_neg (Bool.eq_false_iff.mp powered))),
      fun failed => run_effect (due.trans (if_pos failed))⟩
  case notBoot =>
    intro tr silent rngOk s notDue
    exact run_effect (doBoot_notDue tr silent rngOk (s := s.begun) notDue)
  case active =>
    intro s due
    exact run_effect (f := doMemActive) (if_neg (by simp [due]))
  case notActive =>
    intro s notDue
    exact run_effect (doMemActive_notDue (s := s.begun) notDue)
  case watchdog =>
    intro core s there runs noRecovery noRestart
    exact execWatchdogExpiry_running noRecovery there runs noRestart
  case restart =>
    intro cause core ok s noRecovery
    exact ⟨execMgmtRestart_begun noRecovery, execMgmtRestart_starts noRecovery⟩
  case advance =>
    intro path sec d s takes length rc
    exact run_effect (doAdvance_taken (s := s.begun) takes length)
  case advanced =>
    intro p t dg kek0 s bg
    have first := doAdvanceRun_first (s := s.begun) bg
    exact ⟨fun prod => run_effect (first.trans (if_pos prod)), fun other => run_effect (first.trans (if_neg other))⟩
  case token =>
    intro path d s takes length alone rc
    exact run_effect (doToken_taken (s := s.begun) takes length alone)
  case reset =>
    intro path sec s takes
    exact ⟨fun session => run_next (doResetDevice_accepted (s := s.begun) takes session) rfl,
      fun needs unsecured => run_effect (doResetDevice_refused (s := s.begun) takes needs unsecured)⟩

end Sys2Proof.Machine
end

section
namespace Sys2Proof.Machine

/-! ### The bus of the Tuten port (R445, R446) -/

/-- The effect of a command that gives one output and changes nothing else. -/
theorem run_emit {f : State → State} {s : State} {o : Out} (h : f s.begun = emit o s.begun) :
    run f s = .next { s with out := [o] } :=
  run_next h rfl

theorem tutBus_of_powered {s : State} (powered : s.pwr.st ≤ 3) : tutBus s = true := decide_eq_true powered

section Codes
variable {s : State} (powered : s.pwr.st ≤ 3) (i3c : bit s F.MGMT_TUT_STAT_BUSMODE = true)
include powered i3c

theorem doCcc_admitted : ¬ (!tutBus s || !bit s F.MGMT_TUT_STAT_BUSMODE) = true := by
  simp [tutBus_of_powered powered, i3c]

theorem doCcc_enec {c : Nat} (enec : c ∈ [0x00, 0x80]) : doCcc c s = { s with mgmt := { s.mgmt with ibiOn := true } } :=
  (if_neg (doCcc_admitted powered i3c)).trans (if_pos (by simpa using enec))

theorem doCcc_disec {c : Nat} (disec : c ∈ [0x01, 0x81]) : doCcc c s = { s with mgmt := { s.mgmt with ibiOn := false } } := by
  have code : c = 0x01 ∨ c = 0x81 := by simpa using disec
  exact (if_neg (doCcc_admitted powered i3c)).trans ((if_neg (by omega)).trans (if_pos code))

theorem doCcc_getStatus :
    doCcc 0x90 s = emit (.tuten 2 (be 2 (if bit s F.MGMT_ALERT_PENDING then 1 else 0))) s :=
  if_neg (doCcc_admitted powered i3c)

theorem doCcc_getBcr : doCcc 0x8E s = emit (.tuten 2 (sub (Config.bytes "I3C BCR" 0) 0 1)) s :=
  if_neg (doCcc_admitted powered i3c)

end Codes

/-! ### MCTP messages (R447, R448) -/

section Assembly
variable {pec : Bool} {n : Nat} {s : State}

theorem tutDropped_whole (good : pec = false ∨ bit s F.MGMT_TUT_STAT_BUSMODE = true) (fits : n ≤ 8192) :
    tutDropped pec n s = none := by
  have noError : ¬ (pec && !bit s F.MGMT_TUT_STAT_BUSMODE) = true := by
    obtain good | i3c := good
    · simp [good]
    · simp [i3c]
  exact (if_neg noError).trans (if_neg (Nat.not_lt.mpr fits))

/-- An SMBus message whose PEC is wrong is counted and dropped. -/
theorem tutDropped_pec (smbus : bit s F.MGMT_TUT_STAT_BUSMODE = false) :
    tutDropped true n s = some (sed 0x0912 sNOTICE 9 0 (fld (satInc F.MGMT_TUT_ERR_PEC s) F.MGMT_TUT_ERR_PEC) 0
      (satInc F.MGMT_TUT_ERR_PEC s)) :=
  if_pos (by simp [smbus])

end Assembly

section Control
variable {arg : List Byte} {s : State} (powered : s.pwr.st ≤ 3)
include powered

theorem doMctpControl_admitted : ¬ (!tutBus s) = true := by simp [tutBus_of_powered powered]

theorem execMctpControl_whole {pec : Bool} {c : Nat} (good : pec = false ∨ bit s F.MGMT_TUT_STAT_BUSMODE = true)
    (fits : arg.length ≤ 8192) : execMctpControl pec c arg s = run (doMctpControl c arg) s := by
  refine run_effect ((if_neg (doMctpControl_admitted (s := s.begun) powered)).trans ?_)
  rw [tutDropped_whole (s := s.begun) good fits]
  rfl

theorem execMctpControl_pec {c : Nat} (smbus : bit s F.MGMT_TUT_STAT_BUSMODE = false) :
    execMctpControl true c arg s = .next (s.after (fun s =>
      let s := satInc F.MGMT_TUT_ERR_PEC s
      sed 0x0912 sNOTICE 9 0 (fld s F.MGMT_TUT_ERR_PEC) 0 s)) := by
  refine run_effect ((if_neg (doMctpControl_admitted (s := s.begun) powered)).trans ?_)
  rw [tutDropped_pec (s := s.begun) smbus]
  rfl

/-- SET_ENDPOINT_ID (R447). -/
theorem doMctpControl_setEid (length : arg.length = 2) (sets : byteAt arg 0 % 4 < 2) (low : 8 ≤ byteAt arg 1)
    (high : byteAt arg 1 ≠ 255) :
    doMctpControl 0x01 arg s = emit (.tuten 0 ([0x00, 0x00, 0x01] ++ ([0x00, 0x00] ++ le 1 (byteAt arg 1) ++ [0x00])))
      (sed 0x0911 sINFO 9 (byteAt arg 1) 0 0 (setF F.MGMT_TUT_STAT_EID (byteAt arg 1) s)) :=
  (if_neg (doMctpControl_admitted powered)).trans ((if_neg (not_not_intro length)).trans (if_neg (by omega)))

/-- GET_ENDPOINT_ID (R447). -/
theorem doMctpControl_getEid :
    doMctpControl 0x02 arg s =
      emit (.tuten 0 ([0x00, 0x00, 0x02] ++ ([0x00] ++ le 1 (fld s F.MGMT_TUT_STAT_EID) ++ [0x00, 0x00]))) s :=
  if_neg (doMctpControl_admitted powered)

theorem doMctpControl_unsupported {c : Nat} (other : c ∉ [0x01, 0x02, 0x04, 0x05]) :
    doMctpControl c arg s = emit (.tuten 0 ([0x00, 0x00] ++ le 1 c ++ [0x05])) s := by
  simp only [List.mem_cons, List.not_mem_nil, or_false, not_or] at other
  obtain ⟨setEid, getEid, getVersion, getTypes⟩ := other
  refine (if_neg (doMctpControl_admitted powered)).trans ?_
  rw [if_neg setEid, if_neg getEid, if_neg getVersion, if_neg getTypes]

end Control

theorem execMctpUnsupportedType_counted {type : Nat} {s : State} (serves : tutServes s = true)
    (other : mctpTypes.contains type = false) :
    execMctpUnsupportedType type s = .next (s.after (fun s =>
      let s := satInc F.MGMT_TUT_ERR_TYPE s
      sed 0x0912 sNOTICE 9 2 (fld s F.MGMT_TUT_ERR_TYPE) 0 s)) := by
  have counted : ¬ (!tutServes s || mctpTypes.contains type) = true := by rw [serves, other]; decide
  refine run_effect ?_
  exact if_neg counted

/-! ### CXL CCI messages (R441, R447) -/

/-- The effect of a CCI message that the port takes: that of the command of its opcode. -/
def cciEffect (sec : Bool) (op : Nat) (d : List Byte) (s : State) : State :=
  match cciStandard op d s with
  | some o => nextOr s o
  | none =>
    match cciVendor sec op d s with
    | some o => nextOr s o
    | none => unsupported tuten op d s

theorem execMctpCxlCci_taken {pec sec : Bool} {op : Nat} {d : List Byte} {s : State} (eid : hasEid s = true)
    (fits : d.length ≤ 8192) (good : pec = false ∨ bit s F.MGMT_TUT_STAT_BUSMODE = true) :
    execMctpCxlCci pec sec op d s = run (cciEffect sec op d) s := by
  refine run_effect ?_
  have whole : (if tutBus s.begun then tutDropped pec d.length s.begun else none) = none := by
    rw [tutDropped_whole (s := s.begun) good fits, ite_self]
  simp only [whole, begun_hasEid, eid, Bool.not_true, Bool.and_false, Bool.false_eq_true, ↓reduceIte]
  rfl

/-- Opcodes, each with its command on the path of the Tuten port: standard ones (R132), vendor ones (R135), and two of no
command (R103, R136). -/
def cciForms (sec : Bool) (d : List Byte) : List (Nat × Instr) :=
  [(0x0001, .identify tuten d), (0x0100, .getEventRecords tuten d), (0x0101, .clearEventRecords tuten d),
    (0x0200, .getFwInfo tuten d), (0x0300, .getTimestamp tuten d), (0x0301, .setTimestamp tuten d),
    (0x0400, .getSupportedLogs tuten d), (0x0401, .getLog tuten d), (0x4000, .identifyMemoryDevice tuten d),
    (0x4200, .getHealthInfo tuten d), (0x4300, .getPoisonList tuten d), (0x4304, .scanMedia tuten d), (0xC001, .ndxStage tuten d),
    (0xC011, .fwVerify tuten d), (0xC012, .fwActivate tuten d), (0xC020, .keyInstall tuten d), (0xC021, .keyRetire tuten d),
    (0xC030, .sedRead tuten d), (0xC050, .lifecycleAdvance tuten sec d), (0xC081, .resetDevice tuten sec d),
    (0x4101, .unsupportedOpcode tuten 0x4101 d), (0xC0FF, .unsupportedOpcode tuten 0xC0FF d)]

/-- A CCI message has the effect of the command of its opcode, whose meaning is an effect on the state as it finds it. -/
theorem run_cciEffect (sec : Bool) (d : List Byte) (s : State) :
    ∀ form ∈ cciForms sec d, run (cciEffect sec form.1 d) s = exec form.2 s := by
  simp only [cciForms, List.forall_mem_cons]
  refine ⟨?_, ?_, ?_, ?_, ?_, ?_, ?_, ?_, ?_, ?_, ?_, ?_, ?_, ?_, ?_, ?_, ?_, ?_, ?_, ?_, ?_, ?_, List.forall_mem_nil _⟩ <;> rfl

/-! ### The MMIO window below DEEP (R449, R456) -/

section Window
variable {n a : Nat} {s : State} (reach : pathReaches s tuten = true) (rail : railFailed s 4 = false) (shallow : s.pwr.st < 3)
  (cores : fld s F.MGMT_STAT_CORES ≠ 0) (eid : fld s F.MGMT_TUT_STAT_EID ≠ 0) (noRecovery : inRecovery s = false)

section Read
include reach rail cores eid noRecovery

theorem doWindowRead_judged (ok : mmioStatus n a = 0) :
    doWindowRead n a s = if windowHeldMmio s false n a = true then wakeStart 3 s
      else mmioAnswer 0 n a (mmioReads n a s).1 (mmioReads n a s).2 := by
  simp [doWindowRead, reach, rail, cores, eid, noRecovery, ok]

end Read

include reach rail shallow cores eid noRecovery

theorem doWindowWrite_judged (sec : Bool) (l : List (BitVec 32)) :
    doWindowWrite sec n a l s =
      if (needsSession s false && !isSecured s tuten sec) = true then mmioAnswer 3 n a [] (secureRequired 0xFFFF s)
      else if mmioStatus n a ≠ 0 ∨ l.length ≠ n then mmioAnswer (if mmioStatus n a = 0 then 2 else mmioStatus n a) n a [] s
      else if windowHeldMmio s true n a = true then wakeStart 3 s
      else mmioAnswer 0 n a [] (mmioWrites a l s) := by
  have not3 : s.pwr.st ≠ 3 := by omega
  simp only [doWindowWrite, reach, rail, not3, cores, eid, noRecovery, Bool.not_true, Bool.or_self, decide_false,
    Bool.false_eq_true, ↓reduceIte]

end Window

/-- Settles O39: a bus event by its mode, a message by its assembly and its command, and a window message by its status and by
what it reaches. -/
theorem tutenPort : Obligations.TutenPort := by
  refine ⟨?address, ?reset, ?ccc, ?alert, ?control, ?type, ?cci, ?windowRead, ?windowWrite⟩
  case address =>
    intro sd addr s powered smbus
    have unassigned : (tutBus s && !bit s F.MGMT_TUT_STAT_BUSMODE) = true := by simp [tutBus_of_powered powered, smbus]
    exact run_effect (if_pos unassigned)
  case reset =>
    intro s powered i3c
    have assigned : (tutBus s && bit s F.MGMT_TUT_STAT_BUSMODE) = true := by simp [tutBus_of_powered powered, i3c]
    exact run_effect (if_pos assigned)
  case ccc =>
    intro arg s powered i3c
    exact ⟨fun c enec => run_next (doCcc_enec (s := s.begun) powered i3c enec) rfl,
      fun c disec => run_next (doCcc_disec (s := s.begun) powered i3c disec) rfl,
      run_emit (doCcc_getStatus (s := s.begun) powered i3c), run_emit (doCcc_getBcr (s := s.begun) powered i3c)⟩
  case alert =>
    intro s powered smbus pending
    have alerts : (tutBus s && !bit s F.MGMT_TUT_STAT_BUSMODE && bit s F.MGMT_ALERT_PENDING) = true := by
      simp [tutBus_of_powered powered, smbus, pending]
    exact run_emit (if_pos alerts)
  case control =>
    intro c arg s powered fits
    refine ⟨fun pec good => ?answered, execMctpControl_pec powered⟩
    case answered =>
      have whole := execMctpControl_whole (c := c) powered good fits
      refine ⟨fun setEid length sets low high => ?_, fun getEid => ?_, fun other => ?_⟩
      · subst setEid
        exact whole.trans (run_effect (doMctpControl_setEid (s := s.begun) powered length sets low high))
      · subst getEid
        exact whole.trans (run_emit (doMctpControl_getEid (s := s.begun) powered))
      · exact whole.trans (run_emit (doMctpControl_unsupported (s := s.begun) powered other))
  case type =>
    intro type s serves other
    exact execMctpUnsupportedType_counted serves other
  case cci =>
    intro pec sec op d i s powered eid fits good form
    exact (execMctpCxlCci_taken eid fits good).trans (run_cciEffect sec d s _ form)
  case windowRead =>
    intro sec n a s reach rail shallow cores eid noRecovery
    have judged := doWindowRead_judged (n := n) (a := a) (s := s.begun) reach rail cores eid noRecovery
    exact ⟨fun ok free => run_effect ((judged ok).trans (if_neg (Bool.eq_false_iff.mp free))),
      fun bad => run_effect (doWindowRead_bad (s := s.begun) reach rail cores eid noRecovery bad),
      fun ok held => run_effect ((judged ok).trans (if_pos held))⟩
  case windowWrite =>
    intro sec n a l s reach rail shallow cores eid noRecovery
    have judged := doWindowWrite_judged (n := n) (a := a) (s := s.begun) reach rail shallow cores eid noRecovery sec l
    refine ⟨fun needs unsecured => ?refused, fun session => ?secured⟩
    case refused =>
      exact run_effect (judged.trans (if_pos (by simp [needs, unsecured])))
    case secured =>
      have admitted : ¬ (needsSession s false && !isSecured s tuten sec) = true := by
        obtain free | secured := session
        · simp [free]
        · simp [secured]
      have serves := judged.trans (if_neg admitted)
      refine ⟨fun ok length free => ?_, fun bad => ?_⟩
      · exact run_effect (serves.trans ((if_neg (by simp [ok, length])).trans (if_neg (Bool.eq_false_iff.mp free))))
      · have status : (if mmioStatus n a = 0 then 2 else mmioStatus n a) = mmioStatus n a := if_neg bad
        exact run_effect (serves.trans ((if_pos (.inl bad)).trans (congrArg (mmioAnswer · n a [] s.begun) status)))

end Sys2Proof.Machine
end

section
namespace Sys2Proof.Machine

/-! ### PLDM monitoring (R450) -/

section Monitoring
variable {arg : List Byte} {s : State} (serves : tutServes s = true) (eid : hasEid s = true) (noRecovery : inRecovery s = false)
include serves eid noRecovery

theorem doPldm_admitted : ¬ (!tutServes s || !hasEid s || inRecovery s) = true := by simp [serves, eid, noRecovery]

/-- SetTID. -/
theorem doPldm_setTid :
    doPldm 0 0x01 arg s = emit (.tuten 1 [0x00, 0x01, 0x00]) { s with mgmt := { s.mgmt with pldmTid := byteAt arg 0 } } :=
  if_neg (doPldm_admitted serves eid noRecovery)

/-- GetTID. -/
theorem doPldm_getTid : doPldm 0 0x02 arg s = emit (.tuten 1 ([0x00, 0x02] ++ ([0x00] ++ le 1 s.mgmt.pldmTid))) s :=
  if_neg (doPldm_admitted serves eid noRecovery)

theorem doPldm_baseUnsupported {c : Nat} (other : c ∉ [0x01, 0x02, 0x03, 0x04, 0x05]) :
    doPldm 0 c arg s = emit (.tuten 1 ([0x00] ++ le 1 c ++ [0x05])) s := by
  simp only [List.mem_cons, List.not_mem_nil, or_false, not_or] at other
  obtain ⟨setTid, getTid, version, types, commands⟩ := other
  refine (if_neg (doPldm_admitted serves eid noRecovery)).trans ((if_pos rfl).trans ?_)
  rw [if_neg setTid, if_neg getTid, if_neg version, if_neg types, if_neg commands]
  rfl

/-- SetEventReceiver. -/
theorem doPldm_setReceiver :
    doPldm 2 0x04 arg s = emit (.tuten 1 [0x02, 0x04, 0x00]) { s with
      mgmt := { s.mgmt with evReceiver := if byteAt arg 0 = 0 then none else some (byteAt arg 2) } } :=
  if_neg (doPldm_admitted serves eid noRecovery)

/-- GetSensorReading of a sensor of the repository. -/
theorem doPldm_reading {v : Int} (sensor : sensorValue s (at' arg 0 2) = some v) :
    doPldm 2 0x11 arg s = emit (.tuten 1 ([0x02, 0x11] ++ ([0x00, 0x05, 0x00] ++ le 4 (v % 2 ^ 32).toNat))) s := by
  refine (if_neg (doPldm_admitted serves eid noRecovery)).trans ?_
  rw [sensor]
  rfl

/-- GetSensorReading of a sensor that the repository lacks. -/
theorem doPldm_noSensor (lacks : sensorValue s (at' arg 0 2) = none) :
    doPldm 2 0x11 arg s = emit (.tuten 1 [0x02, 0x11, 0x80]) s := by
  refine (if_neg (doPldm_admitted serves eid noRecovery)).trans ?_
  rw [lacks]
  rfl

theorem doPldm_platformUnsupported {c : Nat} (other : c ∉ [0x04, 0x05, 0x11, 0x21, 0x50, 0x51]) :
    doPldm 2 c arg s = emit (.tuten 1 ([0x02] ++ le 1 c ++ [0x05])) s := by
  simp only [List.mem_cons, List.not_mem_nil, or_false, not_or] at other
  obtain ⟨setReceiver, getReceiver, numeric, state, info, pdr⟩ := other
  refine (if_neg (doPldm_admitted serves eid noRecovery)).trans ((if_neg (by decide)).trans ((if_pos rfl).trans ?_))
  rw [if_neg setReceiver, if_neg getReceiver, if_neg (not_or.mpr ⟨numeric, state⟩), if_neg info, if_neg pdr]
  rfl

end Monitoring

/-! ### PLDM firmware update (R451) -/

section Update
variable {arg : List Byte} {s : State} (serves : tutServes s = true) (eid : hasEid s = true) (noRecovery : inRecovery s = false)
  (stays : s.flash.handover = none)
include serves eid noRecovery stays

theorem doPldmFw_admitted : ¬ (!tutServes s || !hasEid s || inRecovery s || s.flash.handover.isSome) = true := by
  simp [serves, eid, noRecovery, stays]

/-- QueryDeviceIdentifiers. -/
theorem doPldmFw_identifiers :
    doPldmFw 0x01 arg s = pldm5 0x01 ([0x00] ++ Config.bytes "PLDM firmware identifiers" 0) s :=
  if_neg (doPldmFw_admitted serves eid noRecovery stays)

/-- GetStatus. -/
theorem doPldmFw_status :
    doPldmFw 0x1B arg s = pldm5 0x1B ([0x00] ++ le 1 s.mgmt.pldmFw ++ le 1 s.mgmt.pldmFw ++ zeros 5) s :=
  if_neg (doPldmFw_admitted serves eid noRecovery stays)

/-- RequestUpdate while a transfer would be BUSY (R502, R504). -/
theorem doPldmFw_requestBusy (busy : fwBusy s tuten = true) : doPldmFw 0x10 arg s = pldm5 0x10 [0x10] s :=
  (if_neg (doPldmFw_admitted serves eid noRecovery stays)).trans (by simp [busy])

/-- RequestUpdate of an update that nobody owns makes the port its owner. -/
theorem doPldmFw_requestTaken (free : fwBusy s tuten = false) (idle : s.mgmt.pldmFw = 0) (unowned : fwUnowned s = true) :
    doPldmFw 0x10 arg s = pldm5 0x10 ([0x00] ++ zeros 3) (fwOwn tuten (putPldm 1 s)) :=
  (if_neg (doPldmFw_admitted serves eid noRecovery stays)).trans (by simp [free, unowned, idle])

/-- PassComponentTable without an update in progress. -/
theorem doPldmFw_noUpdate (idle : s.mgmt.pldmFw = 0) : doPldmFw 0x13 arg s = pldm5 0x13 [0x80] s :=
  (if_neg (doPldmFw_admitted serves eid noRecovery stays)).trans (if_pos idle)

/-- PassComponentTable of an update that has been requested. -/
theorem doPldmFw_component (requested : s.mgmt.pldmFw = 1) :
    doPldmFw 0x13 arg s = pldm5 0x13 [0x00, 0x00, 0x00] (putPldm 2 (fwTouch tuten s)) :=
  (if_neg (doPldmFw_admitted serves eid noRecovery stays)).trans (by simp [requested])

/-- CancelUpdate. -/
theorem doPldmFw_cancel (runs : s.mgmt.pldmFw ≠ 0) :
    doPldmFw 0x1D arg s = pldm5 0x1D ([0x00, 0x00] ++ zeros 8) (fwDisown (putPldm 0 (fwTouch tuten s))) :=
  (if_neg (doPldmFw_admitted serves eid noRecovery stays)).trans (if_neg runs)

end Update

/-- Settles O40: each request that the port serves by its command, and an update by its owner and its state. -/
theorem pldm : Obligations.Pldm := by
  refine ⟨?monitoring, ?update⟩
  case monitoring =>
    intro arg s serves eid noRecovery
    exact ⟨run_next (doPldm_setTid (s := s.begun) serves eid noRecovery) rfl,
      run_emit (doPldm_getTid (s := s.begun) serves eid noRecovery),
      fun c other => run_emit (doPldm_baseUnsupported (s := s.begun) serves eid noRecovery other),
      run_next (doPldm_setReceiver (s := s.begun) serves eid noRecovery) rfl,
      fun v sensor => run_emit (doPldm_reading (s := s.begun) serves eid noRecovery sensor),
      fun lacks => run_emit (doPldm_noSensor (s := s.begun) serves eid noRecovery lacks),
      fun c other => run_emit (doPldm_platformUnsupported (s := s.begun) serves eid noRecovery other)⟩
  case update =>
    intro arg s serves eid noRecovery stays
    exact ⟨run_emit (doPldmFw_identifiers (s := s.begun) serves eid noRecovery stays),
      run_emit (doPldmFw_status (s := s.begun) serves eid noRecovery stays),
      fun free idle unowned => run_effect (doPldmFw_requestTaken (s := s.begun) serves eid noRecovery stays free idle unowned),
      fun busy => run_emit (doPldmFw_requestBusy (s := s.begun) serves eid noRecovery stays busy),
      fun idle => run_emit (doPldmFw_noUpdate (s := s.begun) serves eid noRecovery stays idle),
      fun requested => run_effect (doPldmFw_component (s := s.begun) serves eid noRecovery stays requested),
      fun runs => run_effect (doPldmFw_cancel (s := s.begun) serves eid noRecovery stays runs)⟩

end Sys2Proof.Machine
end

/-! Proofs of the family of chapter 12: Spring flash (R480 to R497), and firmware updates, activation, trials and
confirmation (R502 to R512). -/

section
namespace Sys2Proof.Machine

/-! ### Which command register a core's write reaches (R486) -/

section Owner
variable {core : Nat} {s : State}

theorem sfOwned_of_other {q : SfSeq} (seq : s.flash.seq = some q) (other : q.core ≠ core) : sfOwned core s = true := by
  simp [sfOwned, seq, other]

theorem not_sfOwned_of_own {q : SfSeq} (seq : s.flash.seq = some q) (own : q.core = core) : ¬ sfOwned core s = true := by
  simp [sfOwned, seq, own]

theorem not_sfOwned_of_idle (idle : s.flash.seq = none) : ¬ sfOwned core s = true := by
  simp [sfOwned, idle]

end Owner

section Write
variable {core : Nat} {v : BitVec 32} {s : State} (there : sfThere s core = true)
include there

theorem sfWrite_owned {reg fetch : Nat} (owned : sfOwned core s = true) :
    sfWrite core reg v fetch s = setF F.SF_OPSTAT_OWNED 1 s :=
  (if_neg (by simp [there])).trans (if_pos owned)

variable (free : ¬ sfOwned core s = true)
include free

theorem sfWrite_unlock : sfWrite core 0 v 0 s = sfUnlock core v.toNat s :=
  (if_neg (by simp [there])).trans (if_neg free)

theorem sfWrite_cmd : sfWrite core 1 v 0 s = sfCmd core v.toNat s :=
  (if_neg (by simp [there])).trans (if_neg free)

theorem sfWrite_addr : sfWrite core 2 v 0 s = sfAddr v.toNat s :=
  (if_neg (by simp [there])).trans (if_neg free)

theorem sfWrite_hi {fetch : Nat} : sfWrite core 4 v fetch s = sfHi v.toNat fetch s :=
  (if_neg (by simp [there])).trans (if_neg free)

end Write

/-! ### Sequences (R484, R485) -/

theorem sfUnlock_first {core v : Nat} {s : State} (idle : s.flash.seq = none) :
    sfUnlock core v s = if v = 0xAA then sfStep ⟨core, 1, 0, false, 0, 0⟩ s else sfSeqErr s := by
  simp only [sfUnlock, idle]

theorem sfUnlock_second {core v : Nat} {q : SfSeq} {s : State} (seq : s.flash.seq = some q) :
    sfUnlock core v s = if q.step = 1 ∧ v = 0x55 then sfStep { q with step := 2 } s else sfSeqErr s := by
  simp only [sfUnlock, seq]

/-- The sequence is over, completed or discarded. -/
def sfSeqEnd (s : State) : State := modFlash (fun f => { f with seq := none }) s

theorem sfWord_sfSeqEnd (a : Nat) (s : State) : sfWord (sfSeqEnd s) a = sfWord s a := rfl

/-- What a command code that is taken notes of itself. -/
def sfNote (core op : Nat) (s : State) : State := setF F.SF_OPSTAT_CORE core (setF F.SF_OPSTAT_OP op s)

/-- The word that SF_CMD is written for a command of one code has that code. -/
theorem cmdWord_code (v : BitVec 32) {code : Nat} (byte : code < 256) :
    ((v &&& 0xFFFFFF00) ||| BitVec.ofNat 32 code).toNat % 256 = code := by
  have fits : code % 2 ^ 32 = code := Nat.mod_eq_of_lt (by omega)
  have masked : (v.toNat &&& (0xFFFFFF00 : BitVec 32).toNat) % 2 ^ 8 = 0 := Nat.and_mod_two_pow.trans (Nat.and_zero _)
  rw [BitVec.toNat_or, BitVec.toNat_and, BitVec.toNat_ofNat, fits, show 256 = 2 ^ 8 from rfl, Nat.or_mod_two_pow, masked,
    Nat.zero_or, Nat.mod_eq_of_lt byte]

section Idle
variable {core v code : Nat} {s : State} (idle : s.flash.seq = none) (hcode : v % 256 = code)
include idle hcode

/-- A command outside a sequence, by its code. -/
theorem sfCmd_idle :
    sfCmd core v s =
      if code = 0x30 then sfNote core code (sfStep ⟨core, 3, 0x30, false, 0, 0⟩ s)
      else if code = 0x50 then sfClear (sfNote core code s)
      else if code = 0xB0 then sfSuspend (sfNote core code s)
      else if code = 0xD0 then sfResume (sfNote core code s)
      else if code = 0xF0 then sfNote core code s
      else sfSeqErr s := by
  simp only [sfCmd, idle, sfNote, hcode]

theorem sfCmd_idle_unknown (unknown : code ∉ [0x30, 0x50, 0xB0, 0xD0, 0xF0]) : sfCmd core v s = sfSeqErr s := by
  simp only [List.mem_cons, List.not_mem_nil, or_false, not_or] at unknown
  obtain ⟨check, clear, suspend, resume, reset⟩ := unknown
  rw [sfCmd_idle idle hcode, if_neg check, if_neg clear, if_neg suspend, if_neg resume, if_neg reset]

end Idle

/-- RESET discards a sequence that has begun. -/
theorem sfCmd_reset {core v : Nat} {q : SfSeq} {s : State} (seq : s.flash.seq = some q) (code : v % 256 = 0xF0) :
    sfCmd core v s = sfNote core 0xF0 (sfSeqEnd s) := by
  simp only [sfCmd, seq, code, sfNote, sfSeqEnd, ↓reduceIte]

/-- The address that completes BLANK_CHECK. -/
theorem sfAddr_blank {v : Nat} {q : SfSeq} {s : State} (seq : s.flash.seq = some q) (step : q.step = 3) (check : q.cmd = 0x30) :
    sfAddr v s = sfBlank v (sfSeqEnd (setF F.SF_ADDR_ADDR (v / 8) s)) := by
  simp [sfAddr, sfSeqEnd, seq, step, check]

theorem sfHi_last {v fetch : Nat} {q : SfSeq} {s : State} (seq : s.flash.seq = some q) (step : q.step = 5)
    (whole : q.cmd ≠ 0x20 ∨ v = 0) :
    sfHi v fetch s = sfStart ⟨q.cmd == 0x20, q.addr, BitVec.ofNat 64 (v * 2 ^ 32 + q.lo), q.self, q.core⟩ fetch
      (sfSeqEnd s) := by
  simp only [sfHi, seq, sfSeqEnd]
  exact if_pos ⟨step, whole⟩

theorem sfHi_wrong {v fetch : Nat} {q : SfSeq} {s : State} (seq : s.flash.seq = some q) (erases : q.cmd = 0x20) (wrong : v ≠ 0) :
    sfHi v fetch s = sfSeqErr s := by
  simp only [sfHi, seq]
  exact if_neg (by simp [erases, wrong])

/-! ### The start of an operation (R482, R487, R489, R492, R494) -/

/-- What an operation does that nothing refuses: an erase runs, a program by what its word holds. -/
def sfLaunch (x : SfOp) (s : State) : State :=
  if x.erase = true then sfShow (modFlash (fun f => { f with op := some x, autoSusp := false, forcedTick := none }) s)
  else if codeword x.data = storedWord (sfWord s x.addr) then setF F.SF_OPSTAT_DONE 1 s
  else if codeword x.data &&& ~~~ storedWord (sfWord s x.addr) ≠ 0 then
    sed 0x0A01 sERROR 10 x.addr x.core 0 (setF F.SF_OPSTAT_NOT_ERASED 1 s)
  else sfShow (modFlash (fun f => { f with op := some x }) s)

/-- A program, by the word that its sequence found. -/
theorem sfLaunch_program {x : SfOp} {s : State} (program : x.erase = false) :
    sfLaunch x (sfSeqEnd s) =
      if codeword x.data = storedWord (sfWord s x.addr) then setF F.SF_OPSTAT_DONE 1 (sfSeqEnd s)
      else if codeword x.data &&& ~~~ storedWord (sfWord s x.addr) ≠ 0 then
        sed 0x0A01 sERROR 10 x.addr x.core 0 (setF F.SF_OPSTAT_NOT_ERASED 1 (sfSeqEnd s))
      else sfShow (modFlash (fun f => { f with op := some x }) (sfSeqEnd s)) := by
  rw [sfLaunch, if_neg (by simp [program]), sfWord_sfSeqEnd]

section Start
variable {x : SfOp} {fetch : Nat} {s : State} (inside : x.addr < 2 ^ 26) (aligned : x.addr % 8 = 0) (idle : s.flash.op = none)
include inside aligned idle

/-- An operation at a word of the array, with none running, meets the refusals that are left. -/
theorem sfStart_judged :
    sfStart x fetch s =
      if sfProtected x.addr = true then setF F.SF_OPSTAT_PROTECTED 1 s
      else if (!x.self && decide (fetch < 2 ^ 26) && sfBank fetch == sfBank x.addr) = true then
        sed 0x0A02 sWARNING 10 x.addr x.core fetch (setF F.SF_OPSTAT_CONFLICT 1 s)
      else if sfLowV s = true then setF F.SF_OPSTAT_LOWV 1 s
      else sfLaunch x s := by
  have within : ¬ 67108864 ≤ x.addr := Nat.not_le.mpr inside
  have started : modFlash (fun f => if f.op.isSome then { f with nested := some x } else { f with op := some x }) s =
      modFlash (fun f => { f with op := some x }) s := by
    simp [modFlash, idle]
  simp [sfStart, sfLaunch, idle, within, aligned, started]

variable (unprotected : sfProtected x.addr = false) (apart : x.self = true ∨ 2 ^ 26 ≤ fetch ∨ sfBank fetch ≠ sfBank x.addr)
  (supplied : sfLowV s = false)
include unprotected apart supplied

theorem sfStart_unrefused : sfStart x fetch s = sfLaunch x s := by
  have noConflict : ¬ (!x.self && decide (fetch < 2 ^ 26) && sfBank fetch == sfBank x.addr) = true := by
    obtain self | outside | otherBank := apart
    · simp [self]
    · simp [show ¬ fetch < 67108864 from Nat.not_lt.mpr outside]
    · simp [otherBank]
  rw [sfStart_judged inside aligned idle, if_neg (by simp [unprotected]), if_neg noConflict, if_neg (by simp [supplied])]

end Start

/-- The word that completes a sequence starts its operation where nothing refuses it. -/
theorem sfHi_unrefused {v fetch : Nat} {q : SfSeq} {s : State} (seq : s.flash.seq = some q) (step : q.step = 5)
    (whole : q.cmd ≠ 0x20 ∨ v = 0) (inside : q.addr < 2 ^ 26) (aligned : q.addr % 8 = 0) (idle : s.flash.op = none)
    (unprotected : sfProtected q.addr = false) (apart : q.self = true ∨ 2 ^ 26 ≤ fetch ∨ sfBank fetch ≠ sfBank q.addr)
    (supplied : sfLowV s = false) :
    sfHi v fetch s = sfLaunch ⟨q.cmd == 0x20, q.addr, BitVec.ofNat 64 (v * 2 ^ 32 + q.lo), q.self, q.core⟩ (sfSeqEnd s) :=
  (sfHi_last seq step whole).trans (sfStart_unrefused (s := sfSeqEnd s) inside aligned idle unprotected apart supplied)

/-! ### The end of an operation (R488, R489), and a Wellhead word that cannot be read (R497) -/

section Done
variable {x : SfOp} {s : State} (alone : s.flash.nested = none) (op : s.flash.op = some x) (runs : s.flash.suspended = false)
  (runsOn : s.flash.autoSusp = false)
include alone op runs runsOn

theorem sfDone_verified :
    sfDone true s = sfShow (setF F.SF_OPSTAT_DONE 1
      (if x.erase then flashErase (x.addr / 65536 * 65536) 65536 (modFlash (fun f => { f with op := none }) s)
        else flashPut x.addr (le 8 x.data.toNat) (modFlash (fun f => { f with op := none }) s))) := by
  simp [sfDone, alone, op, runs, runsOn]

/-- An erase that does not verify leaves its sector. -/
theorem sfDone_eraseFailed (erases : x.erase = true) :
    sfDone false s = sfShow (sed 0x0A00 sERROR 10 0x20 x.addr
      ((setF F.SF_OPSTAT_FAIL 1 (modFlash (fun f => { f with op := none }) s)).reg Reg.SF_OPSTAT).toNat
      (setF F.SF_OPSTAT_FAIL 1 (modFlash (fun f => { f with op := none }) s))) := by
  simp [sfDone, alone, op, runs, runsOn, erases]

end Done

/-- A command after which the reads that wait are tried again. -/
theorem run_served {f : State → State} {s t : State} (h : f s.begun = t) :
    run (fun s => sfServe (f s)) s = .next { sfServe t with pending := s.pending } :=
  run_effect (congrArg sfServe h)

theorem execSfWellheadMirror_powered {addr : Nat} {mirrorOk : Bool} {s : State} (powered : s.pwr.st ≠ 4) :
    execSfWellheadMirror addr mirrorOk s = .next (s.after (wellheadUe addr mirrorOk)) :=
  run_effect (if_neg powered)

theorem sfRead_inside {a : Nat} {s : State} (inside : a < 2 ^ 26) (powered : s.pwr.st ≠ 4) :
    sfRead a s = (sfReadNow a s).getD (modFlash (fun f => { f with reads := f.reads ++ [a] }) s) :=
  if_neg (not_or.mpr ⟨Nat.not_le.mpr inside, powered⟩)

/-- Settles O41: a write by the sequence it meets, an operation by what refuses its start and by its end, and a read or a fetch
by the power and the array. -/
theorem springFlashCommands : Obligations.SpringFlashCommands := by
  refine ⟨?other, ?first, ?second, ?program, ?erase, ?refused, ?blank, ?idle, ?reset, ?timeout, ?done, ?read, ?autoResume,
    ?forced, ?wellhead⟩
  case other =>
    intro core v q s there seq other
    have owned := sfOwned_of_other seq other
    exact ⟨run_effect (sfWrite_owned (s := s.begun) there owned), fun _ => run_effect (sfWrite_owned (s := s.begun) there owned),
      run_effect (sfWrite_owned (s := s.begun) there owned)⟩
  case first =>
    intro core s there idle
    have write (v : BitVec 32) := (sfWrite_unlock (v := v) (s := s.begun) there (not_sfOwned_of_idle idle)).trans (sfUnlock_first idle)
    exact ⟨run_effect ((write 0xAA).trans (if_pos rfl)),
      fun v wrong => run_effect ((write v).trans (if_neg fun e => wrong (BitVec.eq_of_toNat_eq e)))⟩
  case second =>
    intro core q s there seq own
    have write (v : BitVec 32) := (sfWrite_unlock (v := v) (s := s.begun) there (not_sfOwned_of_own seq own)).trans (sfUnlock_second seq)
    refine ⟨fun step => run_effect ((write 0x55).trans (if_pos ⟨step, rfl⟩)), fun v wrong => ?_⟩
    refine run_effect ((write v).trans (if_neg ?_))
    rintro ⟨step, code⟩
    obtain notSecond | notCode := wrong
    · exact notSecond step
    · exact notCode (BitVec.eq_of_toNat_eq code)
  case program =>
    intro core fetch v q s there seq own step cmd inside aligned idle unprotected apart supplied x old
    have launched := (sfWrite_hi (v := v) (fetch := fetch) (s := s.begun) there (not_sfOwned_of_own seq own)).trans
      (sfHi_unrefused (s := s.begun) seq step (.inl (by simp [cmd])) inside aligned idle unprotected apart supplied)
    rw [cmd, own] at launched
    have starts := launched.trans (sfLaunch_program rfl)
    exact ⟨fun same => run_effect (starts.trans (if_pos same)),
      fun differs clash => run_effect (starts.trans ((if_neg differs).trans (if_pos clash))),
      fun differs fits => run_effect (starts.trans ((if_neg differs).trans (if_neg (not_not_intro fits))))⟩
  case erase =>
    intro core fetch q s there seq own step cmd inside aligned idle unprotected apart supplied
    have launched := (sfWrite_hi (v := 0) (s := s.begun) there (not_sfOwned_of_own seq own)).trans
      (sfHi_unrefused (s := s.begun) seq step (.inr rfl) inside aligned idle unprotected apart supplied)
    have highZero : (0 : BitVec 32).toNat * 2 ^ 32 + q.lo = q.lo := Nat.zero_add _
    rw [cmd, own, highZero] at launched
    exact run_effect (launched.trans (if_pos rfl))
  case refused =>
    intro core fetch v q s there seq own step
    have write := sfWrite_hi (v := v) (fetch := fetch) (s := s.begun) there (not_sfOwned_of_own seq own)
    refine ⟨fun cmd isProtected inside aligned idle => ?_, fun cmd wrong => ?_⟩
    · exact run_effect ((write.trans (sfHi_last seq step (.inl (by simp [cmd])))).trans
        ((sfStart_judged (s := sfSeqEnd s.begun) inside aligned idle).trans (if_pos isProtected)))
    · exact run_effect (write.trans (sfHi_wrong seq cmd fun e => wrong (BitVec.eq_of_toNat_eq e)))
  case blank =>
    intro core v q s there seq own step cmd
    exact run_effect ((sfWrite_addr (s := s.begun) there (not_sfOwned_of_own seq own)).trans (sfAddr_blank seq step cmd))
  case idle =>
    intro core v s there idle
    have write (v : BitVec 32) := sfWrite_cmd (v := v) (s := s.begun) there (not_sfOwned_of_idle idle)
    have coded {code : Nat} (byte : code < 256) := (write _).trans (sfCmd_idle (core := core) idle (cmdWord_code v byte))
    refine ⟨run_effect (coded (code := 0x50) (by decide)), run_served (coded (code := 0xB0) (by decide)),
      run_effect (coded (code := 0xD0) (by decide)), run_effect (coded (code := 0xF0) (by decide)), fun unknown => ?_⟩
    refine run_effect ((write _).trans ?_)
    split
    · exact sfCmd_idle_unknown idle rfl (by decide)
    · exact sfCmd_idle_unknown idle rfl unknown
  case reset =>
    intro core v q s there seq own
    exact run_effect ((sfWrite_cmd (s := s.begun) there (not_sfOwned_of_own seq own)).trans
      (sfCmd_reset seq (cmdWord_code v (code := 0xF0) (by decide))))
  case timeout =>
    intro s began
    exact run_effect (if_pos began)
  case done =>
    intro x s alone op runs runsOn
    exact ⟨run_served (sfDone_verified (s := s.begun) alone op runs runsOn),
      fun erases => run_served (sfDone_eraseFailed (s := s.begun) alone op runs runsOn erases)⟩
  case read =>
    intro a s inside powered
    exact run_effect (sfRead_inside (s := s.begun) inside powered)
  case autoResume => exact fun s => rfl
  case forced =>
    intro s suspended
    exact run_next (congrArg (fun f => ({ s.begun with flash := f } : State)) (if_pos suspended)) rfl
  case wellhead =>
    intro addr s powered
    exact ⟨execSfWellheadMirror_powered powered, execSfWellheadMirror_powered powered⟩

end Sys2Proof.Machine
end

section
namespace Sys2Proof.Machine

/-! ### Blocks and the ownership of an update (R502 to R504) -/

section Block
variable {path : Nat} {d : List Byte} {readOk : Bool} {s : State} (takes : taken path 0xC010 d s = true) (header : 16 ≤ d.length)
  (length : d.length = 16 + at' d 6 2)
include takes header length

/-- A length that is no number of words is refused; the command is the owner's all the same (R502). -/
theorem doFwBlock_partWord (part : at' d 6 2 % 8 ≠ 0) :
    doFwBlock path d readOk s = answer path 0xC010 rcInvalid (fwOut 0 (fwTouch path s)) (fwTouch path s) :=
  (cmd_whole takes (by simp [header, ← length]) _).trans (if_pos (.inl part))

variable (words : at' d 6 2 % 8 = 0) (nonempty : 8 ≤ at' d 6 2) (fits : at' d 6 2 ≤ 4096) (flag : byteAt d 4 ≤ 1)
  (full : byteAt d 4 = 0 → at' d 6 2 = 4096) (zero5 : zeroAt d 5 1 = true) (zero12 : zeroAt d 12 4 = true)
include words nonempty fits flag full zero5 zero12

/-- A block whose header is in order (R503). -/
theorem doFwBlock_wellFormed :
    doFwBlock path d readOk s =
      if (fwBusy (fwTouch path s) path || (fwTouch path s).mgmt.pldmFw != 0) = true then
        answer path 0xC010 rcBusy (fwOut 0 (fwTouch path s)) (fwTouch path s)
      else
        let r := fwBlock path (at' d 0 4) (byteAt d 4 == 1) (at' d 8 4) (d.drop 16) readOk (fwTouch path s)
        answer path 0xC010 r.2.1 (fwOut r.2.2 r.1) r.1 := by
  refine (cmd_whole takes (by simp [header, ← length]) _).trans (if_neg ?_)
  rintro (part | short | long | unknown | ⟨more, notFull⟩ | reserved5 | reserved12)
  · exact part words
  · omega
  · omega
  · omega
  · exact notFull (full more)
  · simp [zero5] at reserved5
  · simp [zero12] at reserved12

end Block

section Timeout
variable {s : State}

theorem execFwOwnerTimeout_due (owned : fwUnowned s = false) (due : s.flash.ownerTick + 2 * 262144 ≤ s.tick.count) :
    execFwOwnerTimeout s = .next (s.after (fun s => fwDisown { s with mgmt := { s.mgmt with pldmFw := 0 } })) := by
  have expired : (!fwUnowned s && decide (s.flash.ownerTick + 2 * 262144 ≤ s.tick.count)) = true := by simp [owned, due]
  exact run_effect (if_pos expired)

theorem execFwOwnerTimeout_early (early : s.tick.count < s.flash.ownerTick + 2 * 262144) :
    execFwOwnerTimeout s = .next (s.after id) := by
  have keeps : ¬ (!fwUnowned s && decide (s.flash.ownerTick + 2 * 262144 ≤ s.tick.count)) = true := by
    simp [show ¬ s.flash.ownerTick + 524288 ≤ s.tick.count from Nat.not_le.mpr early]
  exact run_effect (if_neg keeps)

end Timeout

/-! ### Verification and activation (R505 to R507) -/

section Owner
variable {path : Nat} {s : State}

theorem doFwVerify_busy (takes : taken path 0xC011 [] s = true) (busy : fwOther s path = true ∨ s.mgmt.pldmFw ≠ 0) :
    doFwVerify path [] s = answer path 0xC011 rcBusy [] s :=
  (cmd_whole takes rfl _).trans (if_pos (by simpa using busy))

variable (free : fwOther s path = false) (noPldm : s.mgmt.pldmFw = 0)
include free noPldm

/-- No other path's update and no PLDM update stands against a command. -/
theorem fwCommand_admitted : ¬ (fwOther s path || s.mgmt.pldmFw != 0) = true := by simp [free, noPldm]

theorem doFwVerify_admitted (takes : taken path 0xC011 [] s = true) :
    doFwVerify path [] s =
      let r := fwVerify path s
      let b := fwBytes r.1 (fld r.1 F.SF_FW_STAT_SLOT)
      answer path 0xC011 r.2.1 (le 1 r.2.2 ++ zeros 3 ++ le 4 (at' b 0x10 4) ++ le 2 (at' b 0x14 2)) r.1 :=
  (cmd_whole takes rfl _).trans (if_neg (fwCommand_admitted free noPldm))

theorem doFwActivate_admitted {d : List Byte} (takes : taken path 0xC012 d s = true) (length : d.length = 4) :
    doFwActivate path d s =
      if fwActCheck (fwTouch path s) (byteAt d 0) (zeroAt d 1 3) ≠ rcSuccess then
        answer path 0xC012 (fwActCheck (fwTouch path s) (byteAt d 0) (zeroAt d 1 3)) [] (fwTouch path s)
      else fwActivate path (byteAt d 0) (startCmd path 0xC012 true (fwTouch path s)) :=
  (cmd_whole takes (by simp [length]) _).trans (if_neg (fwCommand_admitted free noPldm))

end Owner

/-! ### The trial (R510, R511) and its confirmation (R512) -/

theorem doHealthy_accepted {path : Nat} {v : BitVec 32} {s : State} (core : isCore path = true) (healthy : v.getLsbD 8 = true)
    (switched : fwSwitched s = true) (first : bit s F.SF_FW_TRIAL_HEALTHY = false) (counted : fld s F.SF_FW_TRIAL_EPOCHS ≠ 0)
    (runs : fld s F.MGMT_STAT_CORES ≠ 0) :
    doHealthy path v s =
      gPut G.fwsel (.fwsel (fld s F.SF_FW_SEL_TRIAL) (fld s F.SF_FW_SEL_TRIAL) 0) false none .fwConfirm
        (setF F.SF_FW_TRIAL_HEALTHY 1 s) :=
  if_neg (by simp [core, healthy, switched, first, counted, runs])

section Confirm
variable {path : Nat} {s : State}

/-- ACTION 0 raises the floor to the running image's SVN where no trial runs. -/
theorem doFwConfirm_floor (takes : taken path 0xC013 [0, 0, 0, 0] s = true) :
    doFwConfirm path [0, 0, 0, 0] s =
      if (fld s F.SF_FW_SEL_TSTATE == 2) = true then answer path 0xC013 rcConflict [] s
      else if (runningImage s).elim 0 FwImage.svn ≤ gCounter s (.dev 2) then answer path 0xC013 rcSuccess (fwConfOut s) s
      else gEnq (.raise (.dev 2) ((runningImage s).elim 0 FwImage.svn)) false (some path)
        (.fwFloor path (gCounter s (.dev 2)) ((runningImage s).elim 0 FwImage.svn)) (startCmd path 0xC013 true s) :=
  cmd_whole takes rfl _

/-- ACTION 1 gives up a trial. -/
theorem doFwConfirm_abandon (takes : taken path 0xC013 [1, 0, 0, 0] s = true) :
    doFwConfirm path [1, 0, 0, 0] s =
      if (!(fld s F.SF_FW_SEL_TSTATE == 2)) = true then answer path 0xC013 rcConflict [] s
      else fwFallback 2 (endCmd path 0xC013 rcSuccess (le 2 (gCounter s (.dev 2)) ++ [0]) (startCmd path 0xC013 true s)) :=
  cmd_whole takes rfl _

end Confirm

/-- Settles O42: a command of an update by who owns it and by what its checks leave of it, a trial by its epochs and its
confirmation, and FW_CONFIRM by its action and the trial. -/
theorem firmware : Obligations.Firmware := by
  refine ⟨?block, ?timeout, ?verify, ?activate, ?healthy, ?expired, ?notExpired, ?floor, ?abandon⟩
  case block =>
    intro path d ok s takes header length
    refine ⟨fun words nonempty fits flag full zero5 zero12 => ?_,
      fun part => run_effect (doFwBlock_partWord (s := s.begun) takes header length part)⟩
    have judged := doFwBlock_wellFormed (readOk := ok) (s := s.begun) takes header length words nonempty fits flag full zero5 zero12
    exact ⟨fun free noPldm => run_effect (judged.trans (if_neg (by simp [free, noPldm]))),
      fun busy => run_effect (judged.trans (if_pos (by simp [busy])))⟩
  case timeout =>
    intro s owned
    exact ⟨execFwOwnerTimeout_due owned, execFwOwnerTimeout_early⟩
  case verify =>
    intro path s takes
    exact ⟨fun free noPldm => run_effect (doFwVerify_admitted (s := s.begun) free noPldm takes),
      fun busy => run_emit (doFwVerify_busy (s := s.begun) takes busy)⟩
  case activate =>
    intro path d s takes length free noPldm u rc
    have judged := doFwActivate_admitted (s := s.begun) free noPldm takes length
    exact ⟨fun ok => run_effect (judged.trans (if_neg (not_not_intro ok))), fun bad => run_effect (judged.trans (if_pos bad))⟩
  case healthy =>
    intro path v s core healthy switched first counted runs
    exact run_effect (doHealthy_accepted (s := s.begun) core healthy switched first counted runs)
  case expired =>
    intro s epochs unhealthy
    exact run_effect (if_pos (by simp [epochs, unhealthy]))
  case notExpired =>
    intro s goesOn
    refine run_effect (if_neg ?_)
    obtain early | healthy := goesOn
    · simp [Nat.not_le.mpr early]
    · simp [healthy]
  case floor =>
    intro path s takes svn old
    have judged := doFwConfirm_floor (s := s.begun) takes
    refine ⟨fun trial => run_emit (judged.trans (if_pos (by simpa using trial))), fun noTrial low => ?_, fun noTrial raises => ?_⟩
    · exact run_emit (judged.trans ((if_neg (by simpa using noTrial)).trans (if_pos low)))
    · exact run_effect (judged.trans ((if_neg (by simpa using noTrial)).trans (if_neg (Nat.not_le.mpr raises))))
  case abandon =>
    intro path s takes
    have judged := doFwConfirm_abandon (s := s.begun) takes
    exact ⟨fun noTrial => run_emit (judged.trans (if_pos (by simpa using noTrial))),
      fun trial => run_effect (judged.trans (if_neg (by simpa using trial)))⟩

end Sys2Proof.Machine
end

section
/-! Proofs of what a step runs and of Spring flash at reset. -/

namespace Sys2Proof.Machine

/-- Settles O1: a step takes the queue apart. -/
theorem stepRunsFront : Obligations.StepRunsFront := by
  intro c rest s front
  simp only [step, front]

/-- Settles O2: a step takes the queue apart. -/
theorem stepIdles : Obligations.StepIdles := by
  intro s empty
  simp only [step, empty]

/-- Settles O3: each command's meaning ends in a next state that carries the queue it found. -/
theorem everyCommandAnswers : Obligations.EveryCommandAnswers := by
  intro c s
  cases c <;> exact ⟨_, rfl, rfl⟩

/-- Settles O4: nothing is listed at reset. -/
theorem flashOkAtReset : Obligations.FlashOkAtReset :=
  ⟨rfl, fun _ => rfl⟩

end Sys2Proof.Machine
end

section
/-! Proofs of the frame of the path of host lines: one lemma for each operation of the model that its commands use, in the
model's order, that it leaves what `outer` keeps. `f_outer` says so of the operation `f`. -/

namespace Sys2Proof.Machine

/-! ### Ways to build a state -/

/-- What keeps every component outside the recorder keeps those outside the path of host lines. -/
theorem outer_of_unrecorded {s t : State} (h : unrecorded t = unrecorded s) : outer t = outer s :=
  congrArg (fun p => outer p.1) h

@[simp] theorem outer_mk_issued (s : State)
    (a0 a1 a2 a3 a11 a12 a14 a15 a16 a17 a18 a19 a20 a21 a22 a23 a24 a25 a26 a27 a30 a33 a34) (l : Tbl Nat) :
    outer ⟨a0, a1, a2, a3, s.staged, s.captured, s.variant, s.devid, s.serial, s.cfg, s.tick, a11, a12, s.ndx, a14, a15, a16,
      a17, a18, a19, a20, a21, a22, a23, a24, a25, a26, a27, s.mgmt, s.flash, a30, { s.sup with issued := l }, s.therm, a33, a34,
      s.jtag⟩ = outer s := rfl

@[simp] theorem outer_mk (s : State)
    (a0 a1 a2 a3 a11 a12 a14 a15 a16 a17 a18 a19 a20 a21 a22 a23 a24 a25 a26 a27 a30 a33 a34) :
    outer ⟨a0, a1, a2, a3, s.staged, s.captured, s.variant, s.devid, s.serial, s.cfg, s.tick, a11, a12, s.ndx, a14, a15, a16,
      a17, a18, a19, a20, a21, a22, a23, a24, a25, a26, a27, s.mgmt, s.flash, a30, s.sup, s.therm, a33, a34, s.jtag⟩ =
      outer s := rfl

@[simp] theorem outer_ite (c : Prop) [Decidable c] (a b : State) :
    outer (if c then a else b) = if c then outer a else outer b := apply_ite ..

theorem outer_if {c : Prop} [Decidable c] {a b s : State} (ha : outer a = outer s) (hb : outer b = outer s) :
    outer (if c then a else b) = outer s := by
  split <;> assumption

@[simp] theorem when_outer (c : Bool) (f : State → State) (s : State) (h : ∀ t, outer (f t) = outer t) :
    outer (when c f s) = outer s :=
  outer_if (h s) rfl

@[simp] theorem forEach_outer {α : Type} (l : List α) (f : α → State → State) (s : State) (h : ∀ a t, outer (f a t) = outer t) :
    outer (forEach l f s) = outer s := by
  induction l generalizing s with
  | nil => rfl
  | cons a l ih => exact (ih (f a s)).trans (h a s)

theorem foldl_fst_outer {α β : Type} (l : List α) (f : State × β → α → State × β) (p : State × β)
    (h : ∀ q a, outer (f q a).1 = outer q.1) : outer (l.foldl f p).1 = outer p.1 := by
  induction l generalizing p with
  | nil => rfl
  | cons a l ih => exact (ih (f p a)).trans (h p a)

theorem outer_of_fst {β : Type} {p : State × β} {t s : State} {b : β} (h : p = (t, b)) (k : outer p.1 = outer s) :
    outer t = outer s := by
  subst h
  exact k

theorem getD_outer {o : Option State} {s u : State} (hu : outer u = outer s) (h : ∀ t, o = some t → outer t = outer s) :
    outer (o.getD u) = outer s := by
  cases o with
  | none => exact hu
  | some t => exact h t rfl

/-- A command that does `f` leaves what `f` leaves. -/
theorem run_outer {f : State → State} {s t : State} (keeps : ∀ u, outer (f u) = outer u) (h : run f s = .next t) :
    outer t = outer s := by
  cases h
  exact keeps _

@[simp] theorem putReg_outer (s : State) (a : Nat) (v : BitVec 32) : outer (s.putReg a v) = outer s := by
  unfold State.putReg
  split <;> rfl
@[simp] theorem setF_outer (f : Fld) (v : Nat) (s : State) : outer (setF f v s) = outer s := putReg_outer ..
@[simp] theorem setB_outer (f : Fld) (b : Bool) (s : State) : outer (setB f b s) = outer s := putReg_outer ..
@[simp] theorem satAdd_outer (f : Fld) (n : Nat) (s : State) : outer (satAdd f n s) = outer s := putReg_outer ..
@[simp] theorem satInc_outer (f : Fld) (s : State) : outer (satInc f s) = outer s := putReg_outer ..
@[simp] theorem sed_outer (code sev unit p0 p1 p2 : Nat) (s : State) : outer (sed code sev unit p0 p1 p2 s) = outer s :=
  outer_of_unrecorded (sed_sr ..)

/-! ### The model's operations -/

/-- The check of `turnPartial`: a partial write whose line's key or poison changed is dropped. -/
def partialCheck (op : AmqOp) (key : Nat) (poison : Bool) (s : State) : Option State :=
  if key ≠ op.key then some (dropPartial op (match op.src with | .host h _ => kidxMiss h op.key key op.line s | _ => s))
  else if poison then some (dropPartial op s) else none


/-! #### Ops -/

@[simp] theorem draw_outer (w : Nat) (s : State) : outer (draw w s).2 = outer s := by simp [draw]
@[simp] theorem drawLe_outer (n : Nat) (s : State) : outer (drawLe n s).2 = outer s := by simp [drawLe]
@[simp] theorem emit_outer (o : Out) (s : State) : outer (emit o s) = outer s := by simp [emit]
@[simp] theorem answer_outer (path op code : Nat) (body : List Byte) (s : State) :
    outer (answer path op code body s) = outer s := by
  simp [answer]

/-! #### Counters -/

@[simp] theorem count_outer (ev at_ n : Nat) (s : State) : outer (count ev at_ n s) = outer s := by simp [count]
@[simp] theorem sndPush_outer (kind unit : Nat) (payload : List Byte) (s : State) :
    outer (sndPush kind unit payload s) = outer s := by
  simp [sndPush]

/-! #### GaugeStore -/

@[simp] theorem gStart_outer (s : State) : outer (gStart s) = outer s := by unfold gStart; (repeat' split) <;> simp
@[simp] theorem gEnq_outer (op : GOp) (prio : Bool) (mailbox : Option Nat) (cont : Cont) (s : State) :
    outer (gEnq op prio mailbox cont s) = outer s := by
  simp [gEnq]
@[simp] theorem gPut_outer (a : Nat) (p : GPayload) (prio : Bool) (mailbox : Option Nat) (cont : Cont) (s : State) :
    outer (gPut a p prio mailbox cont s) = outer s := by
  simp [gPut]

/-! #### Sediment -/

@[simp] theorem modHead_outer (h : Nat) (f : Head → Head) (s : State) : outer (modHead h f s) = outer s := by simp [modHead]
@[simp] theorem sedMerge_outer (n : Nat) (s : State) : outer (sedMerge n s) = outer s := by simp [sedMerge]
@[simp] theorem sedDrop_outer (sev : Nat) (s : State) : outer (sedDrop sev s) = outer s := by simp [sedDrop]
@[simp] theorem logInterrupt_outer (h k : Nat) (first : Bool) (s : State) : outer (logInterrupt h k first s) = outer s := by
  simp [logInterrupt]
@[simp] theorem logAdd_outer (h k : Nat) (b : EvBody) (s : State) : outer (logAdd h k b s).1 = outer s := by
  fun_cases logAdd <;> simp_all
@[simp] theorem logAll_outer (k : Nat) (b : EvBody) (s : State) : outer (logAll k b s).1 = outer s := by
  refine foldl_fst_outer _ _ _ fun p h => ?_
  simp only
  split <;> simp
@[simp] theorem sedMirror_outer (r : SedRec) (s : State) : outer (sedMirror r s).1 = outer s := by
  simp only [sedMirror]
  (repeat' split) <;> simp
@[simp] theorem sedAlert_outer (r : SedRec) (s : State) : outer (sedAlert r s) = outer s := by simp [sedAlert]; split <;> simp
@[simp] theorem sedCore_outer (q : SedReq) (s : State) : outer (sedCore q s).1 = outer s := by
  simp only [sedCore]
  (repeat' split) <;> simp
@[simp] theorem sedRun_outer (fuel : Nat) (l : List SedReq) (s : State) : outer (sedRun fuel l s) = outer s := by
  fun_induction sedRun fuel l s with
  | case1 => rfl
  | case2 => rfl
  | case3 s n q r t more ht ih => exact ih.trans (outer_of_fst ht (sedCore_outer ..))
@[simp] theorem mediaEvent_outer (line : Nat) (s : State) : outer (mediaEvent line s) = outer s := by simp [mediaEvent]
@[simp] theorem faultStall_outer (cls ticks alloc : Nat) (s : State) : outer (faultStall cls ticks alloc s) = outer s := by
  simp [faultStall]
@[simp] theorem faultStallFree_outer (cls alloc : Nat) (s : State) : outer (faultStallFree cls alloc s) = outer s := by
  simp [faultStallFree]

/-! #### Tick -/

@[simp] theorem idleLeave_outer (cause : Nat) (s : State) : outer (idleLeave cause s) = outer s := by simp [idleLeave]
@[simp] theorem wakeStart_outer (src : Nat) (s : State) : outer (wakeStart src s) = outer s := by
  unfold wakeStart
  (repeat' split) <;> simp

/-! #### MempCore -/

@[simp] theorem mempCe_outer (cls inst word : Nat) (s : State) : outer (mempCe cls inst word s) = outer s := by simp [mempCe]
@[simp] theorem mempUe_outer (cls inst word agent : Nat) (s : State) : outer (mempUe cls inst word agent s) = outer s := by
  simp [mempUe]
@[simp] theorem injFire_outer (agent word : Nat) (s : State) : outer (injFire agent word s) = outer s := by simp [injFire]
@[simp] theorem mempVote_outer (cls inst row : Nat) (s : State) : outer (mempVote cls inst row s) = outer s := by
  simp [mempVote]
@[simp] theorem mempRead_outer (cls inst word agent : Nat) (up : Upset) (s : State) :
    outer (mempRead cls inst word agent up s).1 = outer s := by
  simp only [mempRead]
  (repeat' split) <;> simp
@[simp] theorem mempWrite_outer (cls inst word agent : Nat) (s : State) :
    outer (mempWrite cls inst word agent s) = outer s := by
  simp [mempWrite]
@[simp] theorem mempReadRow_outer (cls inst base n agent : Nat) (s : State) :
    outer (mempReadRow cls inst base n agent s).1 = outer s := by
  simp [mempReadRow]
@[simp] theorem mempWriteRow_outer (cls inst base n agent : Nat) (s : State) :
    outer (mempWriteRow cls inst base n agent s) = outer s := by
  simp [mempWriteRow]
@[simp] theorem mempReadWith_outer (cls inst base n agent : Nat) (bad : Nat → State → State) (s : State)
    (h : ∀ w t, outer (bad w t) = outer t) : outer (mempReadWith cls inst base n agent bad s) = outer s := by
  simp only [mempReadWith]; split <;> simp [h]
@[simp] theorem busWord_outer (inst agent : Nat) (s : State) : outer (busWord inst agent s).1 = outer s := by
  simp only [busWord]
  split <;> simp

/-! #### Cmd -/

@[simp] theorem payloadIn_outer (path op : Nat) (input : List Byte) (f : State → State) (s : State)
    (h : ∀ t, outer (f t) = outer t) : outer (payloadIn path op input f s) = outer s := by simp [payloadIn, h]
@[simp] theorem cmd_outer (path op : Nat) (input : List Byte) (lenOk : Bool) (f : State → State) (s : State)
    (h : ∀ t, outer (f t) = outer t) : outer (cmd path op input lenOk f s) = outer s := by
  unfold cmd; simp [payloadIn_outer (h := h)]

/-! #### FabricQ -/

@[simp] theorem modQueue_outer (q : Nat) (f : Queue → Queue) (s : State) : outer (modQueue q f s) = outer s := by
  simp [modQueue]
@[simp] theorem returnCredits_outer (q n : Nat) (s : State) : outer (returnCredits q n s) = outer s := by simp [returnCredits]
@[simp] theorem holdEval_outer (s : State) : outer (holdEval s) = outer s := by simp [holdEval]
@[simp] theorem pacedEnter_outer (q : Nat) (s : State) : outer (pacedEnter q s) = outer s := by simp [pacedEnter]
@[simp] theorem pacedLeave_outer (q : Nat) (s : State) : outer (pacedLeave q s) = outer s := by simp [pacedLeave]
@[simp] theorem enqueue_outer (q : Nat) (e : QEntry) (s : State) : outer (enqueue q e s) = outer s := by
  simp [enqueue]
  split <;> simp
@[simp] theorem drainCheck_outer (q : Nat) (s : State) : outer (drainCheck q s) = outer s := by
  fun_cases drainCheck <;> simp_all
@[simp] theorem freeIngress_outer (q : Nat) (s : State) : outer (freeIngress q s) = outer s := by simp [freeIngress]
@[simp] theorem removeEntries_outer (q : Nat) (p : QEntry → Bool) (s : State) : outer (removeEntries q p s) = outer s := by
  simp [removeEntries]
@[simp] theorem takeEntry_outer (q : Nat) (p : QEntry → Bool) (s : State) : outer (takeEntry q p s) = outer s := by
  simp [takeEntry]
@[simp] theorem ringUeCount_outer (ag q i word : Nat) (e : QEntry) (s : State) :
    outer (ringUeCount ag q i word e s) = outer s := by
  simp [ringUeCount]
@[simp] theorem frontRead_outer (q : Nat) (bad : Nat → State → State) (s : State) (h : ∀ w t, outer (bad w t) = outer t) :
    outer (frontRead q bad s) = outer s := by
  simp only [frontRead]; (repeat' split) <;> simp [h]
@[simp] theorem drsUpset_outer (q : Nat) (e : QEntry) (s : State) : outer (drsUpset q e s) = outer s := by simp [drsUpset]
@[simp] theorem egressBad_outer (q word : Nat) (s : State) : outer (egressBad q word s) = outer s := by
  unfold egressBad
  split <;> simp
@[simp] theorem trackEnd_outer (h tag : Nat) (s : State) : outer (trackEnd h tag s) = outer s := by
  unfold trackEnd
  split <;> simp
@[simp] theorem presentQ_outer (q fuel : Nat) (s : State) : outer (presentQ q fuel s) = outer s := by
  induction fuel generalizing s with
  | zero => rfl
  | succ n ih =>
    simp only [presentQ]
    refine outer_if rfl ?_
    split <;> simp [ih]
@[simp] theorem present_outer (h : Nat) (s : State) : outer (present h s) = outer s := by simp [present]
@[simp] theorem respond_outer (h : Nat) (e : QEntry) (s : State) : outer (respond h e s) = outer s := by simp [respond]
@[simp] theorem respondNdr_outer (h tag : Nat) (s : State) : outer (respondNdr h tag s) = outer s := by simp [respondNdr]
@[simp] theorem respondDrs_outer (h tag line cause : Nat) (d : Line) (poison : Bool) (s : State) :
    outer (respondDrs h tag line cause d poison s) = outer s := by
  simp [respondDrs]
@[simp] theorem reserveOut_outer (q : Nat) (s : State) : outer (reserveOut q s) = outer s := by simp [reserveOut]
@[simp] theorem dropWrites_outer (h : Nat) (p : QEntry → Bool) (s : State) : outer (dropWrites h p s) = outer s := by
  simp [dropWrites]
@[simp] theorem endReads_outer (fuel h : Nat) (s : State) : outer (endReads fuel h s) = outer s := by
  induction fuel generalizing s with
  | zero => rfl
  | succ n ih =>
    simp only [endReads]
    split <;> simp [ih]
@[simp] theorem poisonReads_outer (cause h : Nat) (s : State) : outer (poisonReads cause h s) = outer s := by simp [poisonReads]
@[simp] theorem endIngress_outer (cause h : Nat) (s : State) : outer (endIngress cause h s) = outer s := by simp [endIngress]

/-! #### PlumbCore -/

@[simp] theorem plumbReload_outer (s : State) : outer (plumbReload s) = outer s := by simp [plumbReload]
@[simp] theorem plumbSelect_outer (h kind tag key line hpa occ : Nat) (s : State) :
    outer (plumbSelect h kind tag key line hpa occ s) = outer s := by
  simp [plumbSelect]
@[simp] theorem plumbPath_outer (h tag path media : Nat) (s : State) : outer (plumbPath h tag path media s) = outer s := by
  simp [plumbPath]
@[simp] theorem plumbKeep_outer (x : Sample) (s : State) : outer (plumbKeep x s) = outer s := by simp [plumbKeep]
@[simp] theorem plumbAbort_outer (h : Nat) (s : State) : outer (plumbAbort h s) = outer s := by simp [plumbAbort]

/-! #### NrwSend -/

@[simp] theorem modLink_outer (n : Nat) (f : NLink → NLink) (s : State) : outer (modLink n f s) = outer s := by simp [modLink]
@[simp] theorem modMem_outer (p : Nat) (f : NMem → NMem) (s : State) : outer (modMem p f s) = outer s := by simp [modMem]
@[simp] theorem bitmapMark_outer (line : Nat) (s : State) : outer (bitmapMark line s) = outer s := by simp [bitmapMark]
@[simp] theorem nrwFrame_outer (n type pos rseq : Nat) (relay : Bool) (b : Option FrameBody) (s : State) :
    outer (nrwFrame n type pos rseq relay b s) = outer s := by
  simp [nrwFrame]
@[simp] theorem nrwSend_outer (n : Nat) (s : State) : outer (nrwSend n s) = outer s := by simp [nrwSend]
@[simp] theorem nrwUnsync_outer (s : State) : outer (nrwUnsync s) = outer s := by simp [nrwUnsync]
@[simp] theorem nrwQueue_outer (rseq : Nat) (b : FrameBody) (dst : List Nat) (s : State) :
    outer (nrwQueue rseq b dst s) = outer s := by
  simp [nrwQueue]
@[simp] theorem nrwForward_outer (b : FrameBody) (s : State) : outer (nrwForward b s).1 = outer s := by
  unfold nrwForward
  split <;> simp
@[simp] theorem completeWrite_outer (h tag : Nat) (rseq : Option Nat) (s : State) :
    outer (completeWrite h tag rseq s) = outer s := by
  unfold completeWrite
  split <;> simp
@[simp] theorem nrwFetch_outer (line : Nat) (s : State) : outer (nrwFetch line s) = outer s := by simp [nrwFetch]

/-! #### Lines -/

@[simp] theorem poisonAdd_outer (line src : Nat) (s : State) : outer (poisonAdd line src s) = outer s := by simp [poisonAdd]
@[simp] theorem poisonDel_outer (line : Nat) (s : State) : outer (poisonDel line s) = outer s := by simp [poisonDel]
@[simp] theorem mapUpsetBy_outer (ag inst word line : Nat) (up : Upset) (s : State) :
    outer (mapUpsetBy ag inst word line up s) = outer s := by
  unfold mapUpsetBy
  split <;> simp
@[simp] theorem mapUpset_outer (line : Nat) (up : Upset) (s : State) : outer (mapUpset line up s) = outer s := by
  simp [mapUpset]

/-! #### Halt -/

@[simp] theorem modSlice_outer (n : Nat) (f : Slice → Slice) (s : State) : outer (modSlice n f s) = outer s := by
  simp [modSlice]
@[simp] theorem replicaDone_outer (rseq : Nat) (s : State) : outer (replicaDone rseq s) = outer s := by simp [replicaDone]
@[simp] theorem lcDone_outer (path line : Nat) (s : State) : outer (lcDone path line s) = outer s := by simp [lcDone]
@[simp] theorem lcWait_outer (path line wseq : Nat) (s : State) : outer (lcWait path line wseq s) = outer s := by simp [lcWait]
@[simp] theorem lcSkip_outer (path line result : Nat) (s : State) : outer (lcSkip path line result s) = outer s := by
  simp [lcSkip]
@[simp] theorem writeDone_outer (src : Src) (line : Nat) (rseq : Option Nat) (s : State) :
    outer (writeDone src line rseq s) = outer s := by
  unfold writeDone
  split <;> simp
@[simp] theorem lcmdEnd_outer (path result : Nat) (s : State) : outer (lcmdEnd path result s) = outer s := by
  unfold lcmdEnd
  split <;> simp
@[simp] theorem putTreeRoot_outer (clean : Bool) (s : State) : outer (putTreeRoot clean s) = outer s := by simp [putTreeRoot]
@[simp] theorem haltRings_outer (s : State) : outer (haltRings s) = outer s := by simp [haltRings]
@[simp] theorem haltEnter_outer (kind path ident key : Nat) (s : State) :
    outer (haltEnter kind path ident key s) = outer s := by
  simp [haltEnter]
@[simp] theorem furtherFail_outer (s : State) : outer (furtherFail s) = outer s := by simp [furtherFail]
@[simp] theorem integrityFail_outer (i : HaltInfo) (s : State) : outer (integrityFail i s) = outer s := by simp [integrityFail]
@[simp] theorem purgeWhere_outer (p : Nat → Nat → Bool) (s : State) : outer (purgeWhere p s).1 = outer s := by simp [purgeWhere]
@[simp] theorem purgeKey_outer (k : Nat) (s : State) : outer (purgeKey k s) = outer s := by simp [purgeKey]

/-! #### VaultCore -/

@[simp] theorem ledgerAppend_outer (e : LedgerEnt) (mailbox : Option Nat) (cont : Cont) (s : State) :
    outer (ledgerAppend e mailbox cont s) = outer s := by
  simp [ledgerAppend]
@[simp] theorem ledgerFor_outer (path op : Nat) (e : LedgerEnt) (s : State) : outer (ledgerFor path op e s) = outer s := by
  simp [ledgerFor]
@[simp] theorem eraseAll_outer (source : Nat) (s : State) : outer (eraseAll source s) = outer s := by simp [eraseAll]
@[simp] theorem alarm_outer (source : Nat) (s : State) : outer (alarm source s) = outer s := by simp [alarm]

/-! #### MediaQ -/

@[simp] theorem modDie_outer (k : Nat) (f : Die → Die) (s : State) : outer (modDie k f s) = outer s := by simp [modDie]
@[simp] theorem modChan_outer (c : Nat) (f : Channel → Channel) (s : State) : outer (modChan c f s) = outer s := by
  simp [modChan]
@[simp] theorem setDieState_outer (k v : Nat) (s : State) : outer (setDieState k v s) = outer s := by simp [setDieState]
@[simp] theorem modSet_outer (n : Nat) (f : BlockSet → BlockSet) (s : State) : outer (modSet n f s) = outer s := by
  unfold modSet
  split <;> simp
@[simp] theorem modRecon_outer (j : Nat) (f : Recon → Recon) (s : State) : outer (modRecon j f s) = outer s := by
  unfold modRecon
  split <;> simp
@[simp] theorem reconFill_outer (s : State) : outer (reconFill s) = outer s := by
  unfold reconFill
  refine forEach_outer _ _ _ fun e t => ?_
  split
  · rfl
  · refine forEach_outer _ _ _ fun m u => ?_
    simp
@[simp] theorem reconStart_outer (x : Sense) (s : State) : outer (reconStart x s) = outer s := by simp [reconStart]
@[simp] theorem enqHost_outer (x : Sense) (s : State) : outer (enqHost x s) = outer s := by simp [enqHost]
@[simp] theorem bgSense_outer (psa : Option Nat) (cls n : Nat) (s : State) : outer (bgSense psa cls n s) = outer s := by
  unfold bgSense
  split <;> simp
@[simp] theorem moveUp_outer (fuel k : Nat) (s : State) : outer (moveUp fuel k s) = outer s := by
  fun_induction moveUp <;> simp_all

/-! #### IcuCore -/

@[simp] theorem modTree_outer (f : Tree → Tree) (s : State) : outer (modTree f s) = outer s := by simp [modTree]
@[simp] theorem onDieIn_outer (k : Nat) (s : State) : outer (onDieIn k s) = outer s := by simp [onDieIn]
@[simp] theorem pondIn_outer (k : Nat) (s : State) : outer (pondIn k s) = outer s := by simp [pondIn]
@[simp] theorem verifyPath_outer (fuel level line : Nat) (force : Bool) (s : State) :
    outer (verifyPath fuel level line force s).1 = outer s := by
  fun_induction verifyPath fuel level line force s with
  | case1 => rfl
  | case2 => rfl
  | case3 => rfl
  | case4 level force s n i absent good t u v ih => exact ih.trans (by simp [v, u, t])
@[simp] theorem touchNode_outer (level index : Nat) (s : State) : outer (touchNode level index s) = outer s := by
  simp [touchNode]
@[simp] theorem advanceCounters_outer (line : Nat) (s : State) : outer (advanceCounters line s) = outer s := by
  simp [advanceCounters]
@[simp] theorem pipeMiss_outer (kind p : Nat) (s : State) : outer (pipeMiss kind p s) = outer s := by simp [pipeMiss]
@[simp] theorem pipeAgain_outer (kind p code unit : Nat) (s : State) : outer (pipeAgain kind p code unit s) = outer s := by
  simp [pipeAgain]
@[simp] theorem pipeFrame_outer (kind op mism : Nat) (s : State) : outer (pipeFrame kind op mism s) = outer s := by
  simp [pipeFrame]
@[simp] theorem pipeMismatch_outer (kind n line : Nat) (s : State) : outer (pipeMismatch kind n line s) = outer s := by
  simp [pipeMismatch]
@[simp] theorem nodeRead_outer (ag line : Nat) (s : State) : outer (nodeRead ag line s) = outer s := by
  unfold nodeRead
  split <;> simp
@[simp] theorem openInject_outer (target row ag : Nat) (s : State) : outer (openInject target row ag s).1 = outer s := by
  unfold openInject
  split <;> simp
@[simp] theorem openPipeInject_outer (ag : Nat) (s : State) : outer (openPipeInject ag s).1 = outer s := by
  unfold openPipeInject
  split <;> simp
@[simp] theorem openWords_outer (ag line key : Nat) (s : State) : outer (openWords ag line key s) = outer s := by
  simp [openWords]
@[simp] theorem openMac_outer (g : KeyGen) (line : Nat) (x : Sealed) (auth ag : Nat)
    (info : Nat → Nat → Nat → Nat → Nat → HaltInfo) (s : State) :
    outer (openMac g line x auth ag info s).1 = outer s := by
  simp only [openMac]
  split <;> simp
@[simp] theorem nodeAsk_outer (line : Nat) (s : State) : outer (nodeAsk line s) = outer s := by fun_cases nodeAsk <;> simp_all
@[simp] theorem openLine_outer (line key : Nat) (x : Sealed) (psa : Option Nat) (path auth : Nat) (head : Option Nat)
    (s : State) :
    outer (openLine line key x psa path auth head s).1 = outer s := by
  simp only [openLine]
  (repeat' split) <;> simp

/-! #### Slice -/

@[simp] theorem putWay_outer (k : Nat) (w : Way) (s : State) : outer (putWay k w s) = outer s := by simp [putWay]
@[simp] theorem dropCove_outer (line : Nat) (s : State) : outer (dropCove line s) = outer s := by simp [dropCove]
@[simp] theorem rateUse_outer (p : Nat) (s : State) : outer (rateUse p s) = outer s := by simp [rateUse]
@[simp] theorem tagUpsetAt_outer (ag k : Nat) (up : Upset) (s : State) : outer (tagUpsetAt ag k up s) = outer s := by
  unfold tagUpsetAt
  split <;> simp
@[simp] theorem tagUpsetBy_outer (ag line : Nat) (up : Upset) (s : State) : outer (tagUpsetBy ag line up s) = outer s := by
  unfold tagUpsetBy
  split <;> simp
@[simp] theorem dataUpsetBy_outer (ag line : Nat) (s : State) : outer (dataUpsetBy ag line s).1 = outer s := by
  unfold dataUpsetBy
  (repeat' split) <;> simp
@[simp] theorem wayRead_outer (line : Nat) (s : State) : outer (wayRead line s) = outer s := by
  simp only [wayRead]
  (repeat' split) <;> simp
@[simp] theorem ebEnter_outer (line key : Nat) (poison : Bool) (d : Line) (cleaner : Bool) (s : State) :
    outer (ebEnter line key poison d cleaner s) = outer s := by
  simp [ebEnter]
@[simp] theorem evict_outer (k : Nat) (freed : Option Nat) (s : State) : outer (evict k freed s) = outer s := by
  simp only [evict]
  split <;> simp
theorem allocate_outer {line mask : Nat} {freed : Option Nat} {s t : State} {k : Nat}
    (h : allocate line mask freed s = some (t, k)) :
    
    outer t = outer s := by
  simp only [allocate] at h
  split at h
  · cases h; rfl
  · split at h <;> cases h; simp
@[simp] theorem putFill_outer (line : Nat) (f : FillSt) (s : State) : outer (putFill line f s) = outer s := by simp [putFill]
@[simp] theorem fillResult_outer (line : Nat) (r : OpenRes) (s : State) : outer (fillResult line r s) = outer s := by
  unfold fillResult
  (repeat' split) <;> simp
@[simp] theorem openFillWith_outer (got : Option (Nat × List Byte)) (line path auth : Nat) (s : State) :
    outer (openFillWith got line path auth s) = outer s := by
  simp only [openFillWith]
  (repeat' split) <;> simp
@[simp] theorem openOrWait_outer (got : Option (Nat × List Byte)) (line path auth : Nat) (s : State) :
    outer (openOrWait got line path auth s) = outer s := by
  unfold openOrWait
  split <;> simp
@[simp] theorem fillPath_outer (src : Src) (path media : Nat) (s : State) : outer (fillPath src path media s) = outer s := by
  unfold fillPath
  split <;> simp
@[simp] theorem startFill_outer (line key : Nat) (src : Src) (s : State) : outer (startFill line key src s) = outer s := by
  simp only [startFill]
  (repeat' split) <;> simp
@[simp] theorem poisonNote_outer (line why : Nat) (poison : Bool) (src : Src) (s : State) :
    outer (poisonNote line why poison src s) = outer s := by
  simp [poisonNote]
@[simp] theorem forwardNote_outer (line key : Nat) (d : Line) (poison zero : Bool) (src : Src) (s : State) :
    outer (forwardNote line key d poison zero src s).1 = outer s := by
  fun_cases forwardNote line key d poison zero src s <;> simp +zetaDelta
@[simp] theorem persist_outer (line key why : Nat) (d : Line) (poison zero : Bool) (src : Src) (s : State) :
    outer (persist line key why d poison zero src s).1 = outer s := by
  simp [persist]
@[simp] theorem noKeyMiss_outer (h key line : Nat) (s : State) : outer (noKeyMiss h key line s) = outer s := by simp [noKeyMiss]
@[simp] theorem kidxMiss_outer (h req held line : Nat) (s : State) : outer (kidxMiss h req held line s) = outer s := by
  simp [kidxMiss]
@[simp] theorem pendingUpsetBy_outer (ag line : Nat) (s : State) : outer (pendingUpsetBy ag line s) = outer s := by
  simp [pendingUpsetBy]
  split <;> simp
@[simp] theorem tagUpset_outer (line : Nat) (up : Upset) (s : State) : outer (tagUpset line up s) = outer s := by
  simp [tagUpset]
@[simp] theorem dataUpset_outer (line : Nat) (s : State) : outer (dataUpset line s).1 = outer s := by simp [dataUpset]
@[simp] theorem pendingUpset_outer (line : Nat) (s : State) : outer (pendingUpset line s) = outer s := by simp [pendingUpset]
@[simp] theorem readFrom_outer (op : AmqOp) (path key cause : Nat) (d : Line) (poison : Bool) (s : State) :
    outer (readFrom op path key cause d poison s) = outer s := by
  unfold readFrom
  split <;> simp
@[simp] theorem missFill_outer (op : AmqOp) (s : State) : outer (missFill op s).1 = outer s := by
  simp only [missFill]; split
  · rfl
  · simpa using allocate_outer ‹_›
theorem coveRecall_outer {op : AmqOp} {c : CoveEnt} {s t : State} {r : Nat × Way} (h : coveRecall op c s = some (t, r)) :
    outer t = outer s := by
  simp only [coveRecall] at h
  split at h <;> cases h; simpa using allocate_outer ‹_›
@[simp] theorem turnRead_outer (op : AmqOp) (s : State) : outer (turnRead op s).1 = outer s := by
  simp only [turnRead]
  split
  · split <;> simp
  · split
    · split <;> simp
    · split
      · simp
      · split
        · split
          · simp
          · split
            · rfl
            · simpa using coveRecall_outer ‹_›
        · split <;> simp
theorem installDirty_outer {op : AmqOp} {d : Line} {poison : Bool} {s t : State} (h : installDirty op d poison s = some t) :
    outer t = outer s := by
  simp only [installDirty] at h
  split at h
  · cases h; simp
  · split at h <;> cases h; simpa using allocate_outer ‹_›
@[simp] theorem kidxFull_outer (op : AmqOp) (held : Option Nat) (s : State) : outer (kidxFull op held s) = outer s := by
  unfold kidxFull
  split <;> simp
@[simp] theorem persistFull_outer (op : AmqOp) (s : State) : outer (persistFull op s).1 = outer s := by
  unfold persistFull
  split <;> simp
@[simp] theorem doneUnless_outer (op : AmqOp) (r : Option Nat) (s : State) : outer (doneUnless op r s) = outer s := by
  simp [doneUnless]
@[simp] theorem turnFull_outer (op : AmqOp) (s : State) : outer (turnFull op s).1 = outer s := by
  fun_cases turnFull op s
  · rfl
  · simp only [doneUnless_outer]
    exact (getD_outer rfl fun t => installDirty_outer).trans (by simp +zetaDelta)
  · rfl
  next hs _ _ => simp +zetaDelta [allocate_outer hs]
@[simp] theorem dropPartial_outer (op : AmqOp) (s : State) : outer (dropPartial op s) = outer s := by simp [dropPartial]
@[simp] theorem poisonPartial_outer (op : AmqOp) (s : State) : outer (poisonPartial op s) = outer s := by simp [poisonPartial]
@[simp] theorem mergeWay_outer (op : AmqOp) (k : Nat) (w : Way) (s : State) : outer (mergeWay op k w s) = outer s := by
  simp [mergeWay]
@[simp] theorem mergeTake_outer (op : AmqOp) (s : State) : outer (mergeTake op s) = outer s := by simp [mergeTake]
@[simp] theorem mergeJoin_outer (op : AmqOp) (s : State) : outer (mergeJoin op s) = outer s := by simp [mergeJoin]
@[simp] theorem mergeFill_outer (op : AmqOp) (s : State) : outer (mergeFill op s).1 = outer s := by
  simp only [mergeFill]; split <;> simp [outer_of_fst ‹_› (missFill_outer op s)]
@[simp] theorem turnPartial_outer (op : AmqOp) (s : State) : outer (turnPartial op s).1 = outer s := by
  have check (key : Nat) (poison : Bool) {t : State} (h : partialCheck op key poison s = some t) : outer t = outer s := by
    unfold partialCheck at h
    split at h
    · cases h; simp; split <;> simp
    · split at h <;> cases h; simp
  simp only [turnPartial]
  split
  · split
    · rfl
    · split
      · next h => exact check _ _ h
      · simp
  · split
    · split
      · next h => exact check _ _ h
      · split
        · rfl
        · simpa using allocate_outer ‹_›
    · split
      · split
        · next h => exact check _ _ h
        · split
          · rfl
          · simpa using coveRecall_outer ‹_›
      · split <;> simp
@[simp] theorem writeBack_outer (k : Nat) (cleaner : Bool) (s : State) : outer (writeBack k cleaner s).1 = outer s := by
  simp [writeBack]
@[simp] theorem turnLcmd_outer (op : AmqOp) (path : Nat) (s : State) : outer (turnLcmd op path s).1 = outer s := by
  fun_cases turnLcmd op path s <;> simp +zetaDelta
  case case4 => exact outer_of_fst ‹_› (writeBack_outer ..)
  case case8 => exact coveRecall_outer ‹_›
  case case15 => exact allocate_outer ‹_›
  case case17 => exact coveRecall_outer ‹_›
  case case20 => exact (outer_of_fst ‹_› (writeBack_outer ..)).trans (putWay_outer ..)
@[simp] theorem turnFill_outer (op : AmqOp) (s : State) : outer (turnFill op s).1 = outer s := by
  simp only [turnFill]
  split
  · rfl
  · split
    · exact outer_of_fst ‹_› (missFill_outer op s)
    · split <;> exact outer_of_fst ‹_› (missFill_outer op s)
@[simp] theorem turn_outer (op : AmqOp) (s : State) : outer (turn op s).1 = outer s := by unfold turn; (repeat' split) <;> simp
@[simp] theorem amqRun_outer (fuel line : Nat) (s : State) : outer (amqRun fuel line s) = outer s := by
  induction fuel generalizing s with
  | zero => rfl
  | succ n ih =>
    unfold amqRun; dsimp only
    split
    · rfl
    · split <;> simp [ih, outer_of_fst ‹_› (turn_outer _ _)]
@[simp] theorem joinWrite_outer (op : AmqOp) (s : State) : outer (joinWrite op s) = outer s := by simp [joinWrite]
@[simp] theorem submit_outer (op : AmqOp) (s : State) : outer (submit op s) = outer s := by
  fun_cases submit op s
  · simp
  · simp
  · simp
  · exact outer_of_fst ‹_› (turn_outer op s)
  · exact outer_of_fst ‹_› (turn_outer op s)
  · simp [outer_of_fst ‹_› (turn_outer op s)]
@[simp] theorem retryWays_outer (n : Nat) (s : State) : outer (retryWays n s) = outer s := by simp [retryWays]
@[simp] theorem fillDropped_outer (line k key : Nat) (s : State) : outer (fillDropped line k key s) = outer s := by
  simp only [fillDropped]
  rw [forEach_outer]
  · simp
  · intro a t; split
    · split <;> simp
    · simp
    · rfl
@[simp] theorem fillOvertaken_outer (line : Nat) (s : State) : outer (fillOvertaken line s) = outer s := by
  unfold fillOvertaken
  split <;> simp
@[simp] theorem fillMerge_outer (line k : Nat) (w : Way) (d : Line) (poison : Bool) (m : MergeBuf) (s : State) :
    outer (fillMerge line k w d poison m s) = outer s := by
  simp [fillMerge]
@[simp] theorem fillReads_outer (fuel line cause : Nat) (s : State) : outer (fillReads fuel line cause s) = outer s := by
  fun_induction fillReads fuel line cause s <;> simp +zetaDelta [*]
@[simp] theorem refill_outer (line : Nat) (s : State) : outer (refill line s) = outer s := by unfold refill; split <;> simp
@[simp] theorem fillReturn_outer (line : Nat) (s : State) : outer (fillReturn line s) = outer s := by
  simp only [fillReturn]
  (repeat' split) <;> simp
@[simp] theorem lcPump_outer (fuel path : Nat) (s : State) : outer (lcPump fuel path s) = outer s := by
  induction fuel generalizing s with
  | zero => rfl
  | succ n ih =>
    simp only [lcPump]
    split
    · rfl
    · simp [ih]
@[simp] theorem lcSettleLine_outer (path op line : Nat) (s : State) : outer (lcSettleLine path op line s) = outer s := by
  simp [lcSettleLine]
  split <;> simp
@[simp] theorem lcSettle_outer (s : State) : outer (lcSettle s) = outer s := by simp [lcSettle]
@[simp] theorem cleanLatch_outer (s : State) : outer (cleanLatch s) = outer s := by simp [cleanLatch]
@[simp] theorem lcPumpAll_outer (s : State) : outer (lcPumpAll s) = outer s := by simp [lcPumpAll]

/-! #### Fabric -/

@[simp] theorem missRec_outer (h hpa : Nat) (s : State) : outer (missRec h hpa s) = outer s := by simp [missRec]
@[simp] theorem rejectReq_outer (h hpa : Nat) (write : Bool) (d : Option (Nat × Nat × Option Region)) (s : State) :
    outer (rejectReq h hpa write d s).2 = outer s := by
  unfold rejectReq
  (repeat' split) <;> simp
@[simp] theorem meet_outer (line : Nat) (read : Bool) (up : Upset) (s : State) : outer (meet line read up s).2 = outer s := by
  unfold meet
  extract_lets n
  split
  next s1 a h1 =>
  split
  next s2 b h2 =>
  extract_lets s3 s4 s5 hit
  split
  next s6 data h6 =>
  split
  next s7 bad h7 =>
  extract_lets s8 consults
  split
  next s9 entry h9 =>
  have tags : outer s1 = outer s := outer_of_fst h1 (mempRead_outer ..)
  have word : outer s2 = outer s1 := outer_of_fst h2 (mempRead_outer ..)
  have data : outer s6 = outer s2 := by
    refine Eq.trans ?_ (show outer s5 = outer s2 by simp [s5, s4, s3])
    split at h6 <;> exact outer_of_fst h6 (mempRead_outer ..)
  have voted : outer s7 = outer s6 := by
    split at h7
    · cases h7; exact mempCe_outer ..
    · split at h7
      · exact outer_of_fst h7 (dataUpset_outer ..)
      · cases h7; exact pendingUpset_outer ..
    · cases h7; rfl
  have entry : outer s9 = outer s7 := by
    refine Eq.trans ?_ (show outer s8 = outer s7 by simp [s8])
    split at h9
    · exact outer_of_fst h9 (mempRead_outer ..)
    · cases h9; rfl
  simp only [mapUpset_outer]
  rw [← tags, ← word, ← data, ← voted, ← entry]
  split <;> simp
@[simp] theorem internalPut_outer (line : Nat) (s : State) : outer (internalPut line s) = outer s := by simp [internalPut]
@[simp] theorem internalServe_outer (s : State) : outer (internalServe s) = outer s := by simp [internalServe]
@[simp] theorem entryUpset_outer (q : Nat) (e : QEntry) (s : State) : outer (entryUpset q e s) = outer s := by
  unfold entryUpset
  (repeat' split) <;> simp
@[simp] theorem doRingUeBy_outer (ag q i word : Nat) (s : State) : outer (doRingUeBy ag q i word s) = outer s := by
  simp [doRingUeBy]
  split <;> simp
@[simp] theorem doRingUe_outer (q i word : Nat) (s : State) : outer (doRingUe q i word s) = outer s := by simp [doRingUe]
@[simp] theorem busWrite_outer (h : Nat) (bad : Bool) (e : QEntry) (s : State) : outer (busWrite h bad e s).2 = outer s := by
  unfold busWrite
  (repeat' split) <;> simp
@[simp] theorem issueWrite_outer (h : Nat) (e : QEntry) (s : State) : outer (issueWrite h e s) = outer s := by simp [issueWrite]
@[simp] theorem issueRead_outer (h : Nat) (e : QEntry) (s : State) : outer (issueRead h e s) = outer s := by simp [issueRead]
@[simp] theorem issueHead_outer (fuel h : Nat) (s : State) : outer (issueHead fuel h s) = outer s := by
  have front (q : Nat) (ready : State → QEntry → Bool) (t : State) : outer (match (queueOf t q).entries with
      | e :: _ => if ready t e then frontRead q (fun w s => doRingUe q 0 w s) t else t | [] => t) = outer t := by
    split <;> simp
  have write (w : Option QEntry) (t : State) : outer (match w with | some e => issueWrite h e t | none => t) = outer t := by
    split <;> simp
  have both (t : State) := (front (iqReq h) (readReady · h) _).trans (front (iqRwd h) (writeReady · h) t)
  fun_induction issueHead fuel h s with
  | case1 => rfl
  | case2 s n u t => exact both s
  | case3 s n u t w v r e hr ih => exact ih.trans ((issueRead_outer ..).trans ((write w t).trans (both s)))
  | case4 s n u t w v r hr e hw ih => exact ih.trans ((write w t).trans (both s))
@[simp] theorem replicaRead_outer (s : State) : outer (replicaRead s).1 = outer s := by unfold replicaRead; split <;> simp
@[simp] theorem recvDone_outer (line : Nat) (s : State) : outer (recvDone line s) = outer s := by simp [recvDone]
@[simp] theorem applyReplica_outer (l : Nat) (e : QEntry) (s : State) : outer (applyReplica l e s) = outer s := by
  simp only [applyReplica]
  split
  · split
    · next h => simp [outer_of_fst h (turn_outer ..)]
    · next h => simp [outer_of_fst h (turn_outer ..)]
    · next h => simp [outer_of_fst h (turn_outer ..)]
  · simp
@[simp] theorem issueReplica_outer (fuel : Nat) (s : State) : outer (issueReplica fuel s) = outer s := by
  induction fuel generalizing s with
  | zero => rfl
  | succ n ih =>
    simp only [issueReplica]
    split
    · rfl
    split
    · rfl
    split
    · next h => simp [ih, outer_of_fst h (replicaRead_outer s)]
    · next h => exact outer_of_fst h (replicaRead_outer s)
@[simp] theorem cycleNote_outer (s : State) : outer (cycleNote s) = outer s := by simp [cycleNote]
@[simp] theorem pump_outer (s : State) : outer (pump s) = outer s := by simp [pump]
@[simp] theorem ideRelease_outer (h : Nat) (s : State) : outer (ideRelease h s) = outer s := by simp [ideRelease]
@[simp] theorem skidFill_outer (h tag key line : Nat) (s : State) : outer (skidFill h tag key line s) = outer s := by
  simp [skidFill]
@[simp] theorem takeRequest_outer (h hpa tag : Nat) (kind : QKind) (d : Line) (mask : BitVec 64) (poison : Bool) (up : Upset)
    (last : Bool) (s : State) :
    outer (takeRequest h hpa tag kind d mask poison up last s) = outer s := by
  simp [takeRequest]
  (repeat' split) <;> simp
@[simp] theorem accept_outer (h hpa tag : Nat) (kind : QKind) (d : Line) (mask : BitVec 64) (poison : Bool) (up : Upset)
    (last : Bool) (s : State) :
    outer (accept h hpa tag kind d mask poison up last s) = outer s := by
  simp [accept]
@[simp] theorem reservePool_outer (q : Nat) (s : State) : outer (reservePool q s) = outer s := by simp [reservePool]
@[simp] theorem setMode_outer (q m : Nat) (s : State) : outer (setMode q m s) = outer s := by simp [setMode]
@[simp] theorem creditsFull_outer (h : Nat) (s : State) : outer (creditsFull h s) = outer s := by simp [creditsFull]
@[simp] theorem ringsReady_outer (s : State) : outer (ringsReady s) = outer s := by simp [ringsReady]
@[simp] theorem doStartupDone_outer (q bad : Nat) (s : State) : outer (doStartupDone q bad s) = outer s := by
  simp [doStartupDone]
@[simp] theorem doBistStart_outer (path q : Nat) (s : State) : outer (doBistStart path q s) = outer s := by simp [doBistStart]
@[simp] theorem resvEnd_outer (q : Nat) (s : State) : outer (resvEnd q s) = outer s := by simp [resvEnd]
@[simp] theorem doBistDone_outer (q bad : Nat) (s : State) : outer (doBistDone q bad s) = outer s := by
  simp only [doBistDone]
  split <;> simp
@[simp] theorem copyEntry_outer (q : Nat) (s : State) : outer (copyEntry q s) = outer s := by
  have bad (i w : Nat) (t : State) : outer (match (queueOf t q).entries[i]? with
      | some e => if 2 ≤ w ∧ w ≤ 10 then entryUpset q e (ringUeCount agInternal q i w e t) else ringUeCount agInternal q i w e t
      | none => t) = outer t := by split <;> simp
  fun_cases copyEntry q s
  · rfl
  · exact mempReadWith_outer _ _ _ _ _ _ _ fun w t => bad _ _ t
  · rw [modQueue_outer]; exact mempReadWith_outer _ _ _ _ _ _ _ fun w t => bad _ _ t
@[simp] theorem doCopySwitch_outer (q : Nat) (s : State) : outer (doCopySwitch q s) = outer s := by
  simp [doCopySwitch]
  split <;> simp
@[simp] theorem doPoolReserved_outer (q : Nat) (s : State) : outer (doPoolReserved q s) = outer s := by simp [doPoolReserved]
@[simp] theorem doPacedReturn_outer (q : Nat) (s : State) : outer (doPacedReturn q s) = outer s := by simp [doPacedReturn]

/-! #### LineCmd -/

@[simp] theorem doEbDone_outer (n line : Nat) (s : State) : outer (doEbDone n line s) = outer s := by
  unfold doEbDone
  (repeat' split) <;> simp
@[simp] theorem raiseEval_outer (cause : Nat) (s : State) : outer (raiseEval cause s) = outer s := by simp [raiseEval]
@[simp] theorem doClean_outer (n : Nat) (s : State) : outer (doClean n s) = outer s := by
  simp only [doClean]
  (repeat' split) <;> simp
@[simp] theorem doCleanCtl_outer (v : BitVec 32) (s : State) : outer (doCleanCtl v s) = outer s := by simp [doCleanCtl]
@[simp] theorem lcRefuse_outer (path op result : Nat) (s : State) : outer (lcRefuse path op result s) = outer s := by
  simp [lcRefuse]
@[simp] theorem lcRun_outer (path op first n : Nat) (s : State) : outer (lcRun path op first n s) = outer s := by simp [lcRun]
@[simp] theorem lcSetCtl_outer (path op n keyidx : Nat) (s : State) : outer (lcSetCtl path op n keyidx s) = outer s := by
  simp [lcSetCtl]
@[simp] theorem lcStart_outer (path op n : Nat) (s : State) : outer (lcStart path op n s) = outer s := by
  unfold lcStart
  (repeat' split) <;> simp
@[simp] theorem doLcmd_outer (path op : Nat) (v : BitVec 32) (s : State) : outer (doLcmd path op v s) = outer s := by
  simp [doLcmd]
@[simp] theorem doLcmdDone_outer (path : Nat) (s : State) : outer (doLcmdDone path s) = outer s := by
  unfold doLcmdDone
  split <;> simp

/-! #### Rings -/

@[simp] theorem rgPut_outer (b st cause : Nat) (s : State) : outer (rgPut b st cause s) = outer s := by simp [rgPut]
@[simp] theorem rgCfg_outer (b path : Nat) (v : BitVec 32) (s : State) : outer (rgCfg b path v s).1 = outer s := by
  simp only [rgCfg]
  (repeat' split) <;> simp
@[simp] theorem rgPop_outer (b : Nat) (s : State) : outer (rgPop b s) = outer s := by simp [rgPop]
theorem fillNow_outer {line key path : Nat} {s t : State} {r : Line × Bool} (h : fillNow line key path s = some (t, r)) :
    outer t = outer s := by
  simp only [fillNow] at h
  split at h
  · cases h
  next hs =>
    rw [← allocate_outer hs]
    split at h
    · cases h; simp
    · cases h; simp
    · split at h
      · cases h; simp
      · split at h <;> cases h <;> simp
theorem readNow_outer {line key path : Nat} {s t : State} {r : Line × Bool} (h : readNow line key path s = some (t, r)) :
    outer t = outer s := by
  simp only [readNow] at h
  split at h
  · cases h
  split at h
  · cases h; rfl
  · cases h; rfl
  · split at h
    · cases h; rfl
    · split at h <;> cases h; exact coveRecall_outer ‹_›
  · exact fillNow_outer h
theorem readMany_outer {lines : List Nat} {key path : Nat} {s t : State} {r : List (Line × Bool)}
    (h : readMany lines key path s = some (t, r)) :
    
    outer t = outer s := by
  induction lines generalizing s t r with
  | nil => cases h; rfl
  | cons l ls ih =>
    simp only [readMany] at h
    split at h
    · cases h
    next hs =>
      obtain ⟨⟨u, x⟩, hu, e⟩ := Option.map_eq_some_iff.mp h
      cases e
      exact (ih hu).trans (readNow_outer hs)
theorem writeNow_outer {line key path : Nat} {d : Line} {mask : BitVec 64} {poison : Bool} {s t : State}
    (h : writeNow line key path d mask poison s = some t) : outer t = outer s := by
  simp only [writeNow] at h
  split at h
  · cases h
  split at h
  · split at h <;> cases h
    next ht => exact (outer_of_fst ht (turn_outer ..)).trans (rateUse_outer ..)
  · split at h
    · cases h
    next hs =>
      split at h <;> cases h
      next ht => exact (outer_of_fst ht (turn_outer ..)).trans ((readNow_outer hs).trans (rateUse_outer ..))
@[simp] theorem ueRead_outer (line : Nat) (s : State) : outer (ueRead line s).1 = outer s := by simp [ueRead]
theorem fetchDesc_outer {b entry : Nat} {s t : State} {r : List Byte × Bool} (h : fetchDesc b entry s = some (t, r)) :
    outer t = outer s := by
  simp only [fetchDesc] at h
  split at h
  · cases h; rfl
  · obtain ⟨⟨u, x⟩, hu, e⟩ := Option.map_eq_some_iff.mp h
    cases e
    exact readNow_outer hu
theorem postDone_outer {b op : Nat} {body tail : List Byte} {irq : Bool} {s t : State}
    (h : postDone b body op irq tail s = some t) :
    outer t = outer s := by
  simp only [postDone] at h
  split at h
  · cases h; simp
  · obtain ⟨u, hu, e⟩ := Option.map_eq_some_iff.mp h
    cases e
    simpa using writeNow_outer hu

/-! #### Seal -/

@[simp] theorem modSlot_outer (v : Nat) (f : Slot → Slot) (s : State) : outer (modSlot v f s) = outer s := by simp [modSlot]
@[simp] theorem reserve_outer (v : Nat) (s : State) : outer (reserve v s) = outer s := by simp [reserve]
@[simp] theorem exhaustSlot_outer (v why : Nat) (s : State) : outer (exhaustSlot v why s) = outer s := by simp [exhaustSlot]
@[simp] theorem takeC_outer (v : Nat) (s : State) : outer (takeC v s) = outer s := by simp [takeC]
@[simp] theorem doJqCfg_outer (path q : Nat) (v : BitVec 32) (s : State) : outer (doJqCfg path q v s) = outer s := by
  simp [doJqCfg]
@[simp] theorem doJqTail_outer (path q : Nat) (v : BitVec 32) (s : State) : outer (doJqTail path q v s) = outer s := by
  simp [doJqTail]
@[simp] theorem sealMismatch_outer (q n : Nat) (s : State) : outer (sealMismatch q n s).1 = outer s := by
  simp only [sealMismatch]
  (repeat' split) <;> simp
@[simp] theorem drawBytes_outer (n : Nat) (s : State) : outer (drawBytes n s).1 = outer s :=
  outer_of_unrecorded (drawBytes_sr n s)
@[simp] theorem jobResult_outer (d : JobDesc) (x : Slot) (iv aad data auxIn : List Byte) (s : State) :
    outer (jobResult d x iv aad data auxIn s).1 = outer s := by
  simp only [jobResult]
  (repeat' split) <;> simp
@[simp] theorem jobWrites_outer (fuel p : Nat) (j : SealJob) (s : State) : outer (jobWrites fuel p j s).1 = outer s := by
  induction fuel generalizing j s with
  | zero => rfl
  | succ n ih =>
    simp only [jobWrites]
    split
    · rfl
    · split
      · rfl
      · split
        · rfl
        · simpa [ih] using writeNow_outer ‹_›
@[simp] theorem retireGo_outer (v : Nat) (s : State) : outer (retireGo v s) = outer s := by
  unfold retireGo
  (repeat' split) <;> simp
theorem jobEnd_outer {q : Nat} {j : SealJob} {took : Bool} {s t : State} (h : jobEnd q j took s = some t) :
    outer t = outer s := by
  simp only [jobEnd] at h
  split at h
  · cases h
  · cases h; simpa using postDone_outer ‹_›
@[simp] theorem jobGo_outer (q : Nat) (s : State) : outer (jobGo q s) = outer s := by
  unfold jobGo
  split
  · rfl
  · simp
    intro _
    exact (getD_outer rfl fun t => jobEnd_outer).trans (by simp)
@[simp] theorem jobUe_outer (q dpa done : Nat) (s : State) : outer (jobUe q dpa done s) = outer s := by simp [jobUe]
theorem jobInputs_outer {d : JobDesc} {p : Nat} {s t : State} {r : List (Line × Bool) × List (Line × Bool) × List (Line × Bool)}
    (h : jobInputs d p s = some (t, r)) : outer t = outer s := by
  simp only [jobInputs] at h
  split at h
  · cases h
  next hs =>
    split at h
    · cases h
    next hu =>
      obtain ⟨⟨v, x⟩, hv, e⟩ := Option.map_eq_some_iff.mp h
      cases e
      exact (readMany_outer hv).trans ((readMany_outer hu).trans (readMany_outer hs))
@[simp] theorem jobWord_outer (q : Nat) (d : JobDesc) (ue : Option (Nat × Nat)) (s : State) :
    outer (jobWord q d ue s).1 = outer s := by
  unfold jobWord
  (repeat' split) <;> simp
@[simp] theorem jobTake_outer (d : JobDesc) (s : State) : outer (jobTake d s) = outer s := by simp [jobTake]
@[simp] theorem jobOutput_outer (d : JobDesc) (j : SealJob) (ue : Option (Nat × Nat)) (src aad aux : List (Line × Bool))
    (good isUe : Bool) (cut : Nat) (s : State) :
    outer (jobOutput d j ue src aad aux good isUe cut s).1 = outer s := by
  simp only [jobOutput]
  (repeat' split) <;> simp
@[simp] theorem jobRun_outer (q mism : Nat) (ue : Option (Nat × Nat)) (hit : Bool) (d : JobDesc) (j : SealJob)
    (src aad aux : List (Line × Bool)) (s : State) :
    outer (jobRun q mism ue hit d j src aad aux s) = outer s := by
  simp [jobRun]
@[simp] theorem jobStart_outer (q mism : Nat) (ue : Option (Nat × Nat)) (d : JobDesc) (poison : Bool) (s : State) :
    outer (jobStart q mism ue d poison s) = outer s := by
  have ended (j : SealJob) : outer ((jobEnd q j false (rgPop (jq q) s)).getD s) = outer s :=
    getD_outer rfl fun t ht => (jobEnd_outer ht).trans (by simp)
  fun_cases jobStart q mism ue d poison s
  · exact ended _
  · exact ended _
  · simp +zetaDelta
  · rfl
  · rfl
  next ht _ => simp +zetaDelta [jobInputs_outer ht]
  next ht _ => simp +zetaDelta [jobInputs_outer ht]
@[simp] theorem doJob_outer (op q mism : Nat) (ue : Option (Nat × Nat)) (s : State) :
    outer (doJob op q mism ue s) = outer s := by
  simp only [doJob]
  split
  · rfl
  split
  · split <;> simp
  split
  · rfl
  split
  · rfl
  next hs => simp [fetchDesc_outer hs]
@[simp] theorem doNonceWaitEnd_outer (q : Nat) (s : State) : outer (doNonceWaitEnd q s) = outer s := by
  simp only [doNonceWaitEnd]
  split
  · rfl
  split
  · rfl
  next hs =>
    split
    · rfl
    · simp [fetchDesc_outer hs]

/-! #### Mover -/

@[simp] theorem doDmvCfg_outer (path n : Nat) (v : BitVec 32) (s : State) : outer (doDmvCfg path n v s) = outer s := by
  simp [doDmvCfg]
@[simp] theorem doDmvTail_outer (path n : Nat) (v : BitVec 32) (s : State) : outer (doDmvTail path n v s) = outer s := by
  simp [doDmvTail]
@[simp] theorem modMover_outer (n : Nat) (m : MoverRun) (s : State) : outer (modMover n m s) = outer s := by simp [modMover]
theorem dmvEnd_outer {n op tag status lines poisoned : Nat} {irq : Bool} {s t : State}
    (h : dmvEnd n op tag status lines irq poisoned s = some t) :
    
    outer t = outer s := by
  simp only [dmvEnd] at h
  split at h
  · cases h
  · cases h; simpa using postDone_outer ‹_›
@[simp] theorem dmvHalt_outer (n : Nat) (m : MoverRun) (s : State) : outer (dmvHalt n m s) = outer s := by simp [dmvHalt]
@[simp] theorem stageWord_outer (n i : Nat) (ue : Bool) (s : State) : outer (stageWord n i ue s).1 = outer s := by
  simp only [stageWord]
  split <;> simp
@[simp] theorem dmvLines_outer (fuel n p : Nat) (ue : Option (Nat × Nat)) (m : MoverRun) (s : State) :
    outer (dmvLines fuel n p ue m s) = outer s := by
  induction fuel generalizing m s with
  | zero => exact modMover_outer ..
  | succ k ih =>
    simp only [dmvLines]
    refine outer_if (modMover_outer ..) ?_
    generalize h1 : (if (Option.map (·.2) (Option.filter (fun x => x.1 == m.done) ue)) = some 1 ∧ m.op = 1 then
      ueRead (m.src / 64 + m.done) s else (s, false)) = read
    have first : outer read.1 = outer s := by
      subst h1
      split
      · exact ueRead_outer ..
      · rfl
    refine outer_if ((dmvHalt_outer ..).trans first) ?_
    split
    · exact (modMover_outer ..).trans first
    next t d poison h2 =>
    have input : outer t = outer read.1 := by
      split at h2
      · exact readNow_outer h2
      · obtain ⟨rfl, -⟩ := Prod.mk.inj (Option.some.inj h2); rfl
    refine outer_if (input.trans first) ?_
    have staged : outer (stageWord n m.done (Option.map (·.2) (Option.filter (fun x => x.1 == m.done) ue) == some 0) t).1 = outer s :=
      (stageWord_outer ..).trans (input.trans first)
    refine outer_if ((dmvHalt_outer ..).trans staged) ?_
    split
    · exact (modMover_outer ..).trans staged
    next h3 => simp [ih, writeNow_outer h3, staged]
@[simp] theorem dmvGo_outer (n : Nat) (ue : Option (Nat × Nat)) (s : State) : outer (dmvGo n ue s) = outer s := by
  have last (st : Nat) (m : MoverRun) (t : State) :
      outer (pump ((dmvEnd n m.op m.tag st m.done m.irq m.poisoned t).getD (modMover n { m with ending := some st } t))) = outer t := by
    rw [pump_outer]
    exact getD_outer (by simp) (fun _ => dmvEnd_outer)
  fun_cases dmvGo n ue s <;> simp +zetaDelta [last]
@[simp] theorem doDmv_outer (op n : Nat) (ue : Option (Nat × Nat)) (s : State) : outer (doDmv op n ue s) = outer s := by
  simp only [doDmv]
  split
  · rfl
  split
  · split <;> simp
  split
  · rfl
  split
  · rfl
  next hf =>
  have fetched := fetchDesc_outer hf
  split
  · exact fetched
  refine outer_if rfl ?_
  refine outer_if ?_ (by simp [fetched])
  exact getD_outer rfl fun t ht => (dmvEnd_outer ht).trans (by simp [fetched])
theorem abortOne_outer {n : Nat} {s t : State} (h : abortOne n s = some t) : outer t = outer s := by
  simp only [abortOne] at h
  split at h
  · cases h
  next hs => simpa [fetchDesc_outer hs] using dmvEnd_outer h
theorem abortQueued_outer {fuel n count : Nat} {s t : State} {k : Nat} (h : abortQueued fuel n count s = some (t, k)) :
    outer t = outer s := by
  induction fuel generalizing count s with
  | zero => cases h; rfl
  | succ f ih =>
    simp only [abortQueued] at h
    split at h
    · cases h; rfl
    · split at h
      · cases h
      next hs => exact (ih h).trans (abortOne_outer hs)
@[simp] theorem doDmvCtl_outer (path n action : Nat) (s : State) : outer (doDmvCtl path n action s) = outer s := by
  simp only [doDmvCtl]
  split
  · rfl
  split
  · split <;> simp
  split
  · simp
  split
  · split
    · next hs => simp [dmvEnd_outer hs]
    · rfl
  split
  · split
    · next hs =>
      obtain ⟨u, hu, ht⟩ := Option.bind_eq_some_iff.mp hs
      simp [abortQueued_outer ht, dmvEnd_outer hu]
    · rfl
  · rfl

/-! #### HostPort -/

@[simp] theorem ltssm_outer (h : Nat) (s : State) : outer (ltssm h s) = outer s := by simp [ltssm]
@[simp] theorem initCredits_outer (h : Nat) (s : State) : outer (initCredits h s) = outer s := by simp [initCredits]
@[simp] theorem doLinkUp_outer (h width rate : Nat) (cxl : Bool) (s : State) :
    outer (doLinkUp h width rate cxl s) = outer s := by
  simp [doLinkUp]
@[simp] theorem doDecoderCommit_outer (h n : Nat) (d : Decoder) (s : State) : outer (doDecoderCommit h n d s) = outer s := by
  simp [doDecoderCommit]
@[simp] theorem doIdeKeys_outer (h session stream : Nat) (keys : List (BitVec 256)) (s : State) :
    outer (doIdeKeys h session stream keys s) = outer s := by
  simp only [doIdeKeys]
  (repeat' split) <;> simp
@[simp] theorem doIdeFail_outer (h flits : Nat) (s : State) : outer (doIdeFail h flits s) = outer s := by simp [doIdeFail]

/-! #### Mailbox -/

@[simp] theorem headCmd_outer (path op : Nat) (inp : List Byte) (lenOk : Bool) (f : Nat → State → State) (s : State)
    (h : ∀ k t, outer (f k t) = outer t) : outer (headCmd path op inp lenOk f s) = outer s :=
  cmd_outer _ _ _ _ _ _ fun t => by split <;> simp [h]
@[simp] theorem doIdentify_outer (path : Nat) (s : State) : outer (doIdentify path s) = outer s := by simp [doIdentify]
@[simp] theorem doIdentifyMem_outer (path h : Nat) (s : State) : outer (doIdentifyMem path h s) = outer s := by
  simp [doIdentifyMem]
@[simp] theorem doGetPartition_outer (path h : Nat) (s : State) : outer (doGetPartition path h s) = outer s := by
  simp [doGetPartition]
@[simp] theorem unsupported_outer (path op : Nat) (inp : List Byte) (s : State) :
    outer (unsupported path op inp s) = outer s := by
  simp [unsupported]
@[simp] theorem doGetEvents_outer (path h : Nat) (inp : List Byte) (s : State) :
    outer (doGetEvents path h inp s) = outer s := by
  simp [doGetEvents]
@[simp] theorem doClearEvents_outer (path h : Nat) (inp : List Byte) (s : State) :
    outer (doClearEvents path h inp s) = outer s := by
  simp [doClearEvents]
@[simp] theorem doGetLog_outer (path : Nat) (inp : List Byte) (s : State) : outer (doGetLog path inp s) = outer s := by
  simp [doGetLog]
@[simp] theorem doGetLsa_outer (path h : Nat) (inp : List Byte) (s : State) : outer (doGetLsa path h inp s) = outer s := by
  simp [doGetLsa]
@[simp] theorem doSetLsa_outer (path h : Nat) (inp : List Byte) (s : State) : outer (doSetLsa path h inp s) = outer s := by
  simp [doSetLsa]
@[simp] theorem doHealth_outer (path : Nat) (s : State) : outer (doHealth path s) = outer s := by simp [doHealth]
@[simp] theorem doSetAlert_outer (path h : Nat) (inp : List Byte) (s : State) : outer (doSetAlert path h inp s) = outer s := by
  simp [doSetAlert]
@[simp] theorem doPoisonList_outer (path h : Nat) (inp : List Byte) (s : State) :
    outer (doPoisonList path h inp s) = outer s := by
  simp [doPoisonList]
@[simp] theorem poisonWrite_outer (path op h line : Nat) (poison : Bool) (d : Line) (s : State) :
    outer (poisonWrite path op h line poison d s) = outer s := by
  simp [poisonWrite]
@[simp] theorem doInjectPoison_outer (path h : Nat) (inp : List Byte) (s : State) :
    outer (doInjectPoison path h inp s) = outer s := by
  simp [doInjectPoison]
@[simp] theorem doClearPoison_outer (path h : Nat) (inp : List Byte) (s : State) :
    outer (doClearPoison path h inp s) = outer s := by
  simp [doClearPoison]
@[simp] theorem doScanCaps_outer (path h : Nat) (inp : List Byte) (s : State) : outer (doScanCaps path h inp s) = outer s := by
  unfold doScanCaps
  split <;> simp
@[simp] theorem doScanResults_outer (path h : Nat) (s : State) : outer (doScanResults path h s) = outer s := by
  simp [doScanResults]
@[simp] theorem doDcConfig_outer (path h : Nat) (s : State) : outer (doDcConfig path h s) = outer s := by simp [doDcConfig]
@[simp] theorem doDcExtents_outer (path h : Nat) (inp : List Byte) (s : State) :
    outer (doDcExtents path h inp s) = outer s := by
  simp [doDcExtents]

/-! #### MtlCore -/

@[simp] theorem jAppend_outer (b : JBody) (s : State) : outer (jAppend b s) = outer s := by simp [jAppend]
theorem openSet_outer {kind : Nat} {s t : State} {n : Nat} (h : openSet kind s = some (t, n)) : outer t = outer s := by
  simp only [openSet] at h
  split at h
  · cases h
  split at h <;> cases h; simp
theorem setWithRoom_outer {kind n : Nat} {s t : State} {k : Nat} (h : setWithRoom kind n s = some (t, k)) :
    outer t = outer s := by
  simp only [setWithRoom] at h
  split at h
  · cases h; rfl
  · exact openSet_outer h
@[simp] theorem putWbuf_outer (k : Nat) (p : PageBody) (s : State) : outer (putWbuf k p s) = outer s := by simp [putWbuf]
@[simp] theorem assignPage_outer (n : Nat) (p : PageBody) (s : State) : outer (assignPage n p s).1 = outer s := by
  unfold assignPage
  split <;> simp
@[simp] theorem queueProgs_outer (n : Nat) (s : State) : outer (queueProgs n s) = outer s := by
  unfold queueProgs
  split <;> simp
@[simp] theorem queueAll_outer (s : State) : outer (queueAll s) = outer s := by simp [queueAll]
@[simp] theorem pageClosed_outer (n : Nat) (s : State) : outer (pageClosed n s) = outer s := by simp [pageClosed]
@[simp] theorem fillRow_outer (n : Nat) (s : State) : outer (fillRow n s) = outer s := by unfold fillRow; split <;> simp
@[simp] theorem jClose_outer (s : State) : outer (jClose s) = outer s := by
  unfold jClose
  refine outer_if rfl ?_
  split
  · rfl
  next h => simp [setWithRoom_outer h]
@[simp] theorem jPut_outer (b : JBody) (s : State) : outer (jPut b s) = outer s := by simp [jPut]
@[simp] theorem modMap_outer (f : MapState → MapState) (s : State) : outer (modMap f s) = outer s := by simp [modMap]
@[simp] theorem putBucket_outer (k : Nat) (l : List FineEnt) (s : State) : outer (putBucket k l s) = outer s := by
  simp [putBucket]
@[simp] theorem putReach_outer (r : Nat) (e : Option ReachEnt) (s : State) : outer (putReach r e s) = outer s := by
  simp [putReach]
@[simp] theorem putMerge_outer (k : Nat) (r : MergeRec) (s : State) : outer (putMerge k r s) = outer s := by simp [putMerge]
@[simp] theorem dropMergeEnt_outer (l : Nat) (s : State) : outer (dropMergeEnt l s) = outer s := by
  unfold dropMergeEnt
  split <;> simp
@[simp] theorem fineAdd_outer (l wseq : Nat) (poison : Bool) (sset slot : Nat) (s : State) :
    outer (fineAdd l wseq poison sset slot s) = outer s := by
  simp [fineAdd]
@[simp] theorem mergeAdd_outer (k : Nat) (r : MergeRec) (l wseq : Nat) (poison : Bool) (sset slot : Nat) (s : State) :
    outer (mergeAdd k r l wseq poison sset slot s) = outer s := by
  simp [mergeAdd]
theorem mergeFor_outer {l key : Nat} {s t : State} {r : Nat × MergeRec} (h : mergeFor l key s = some (t, r)) :
    outer t = outer s := by
  simp only [mergeFor] at h
  split at h
  · cases h; rfl
  · split at h <;> cases h; simp
@[simp] theorem mapPut_outer (l key wseq : Nat) (poison : Bool) (sset slot : Nat) (s : State) :
    outer (mapPut l key wseq poison sset slot s).1 = outer s := by
  fun_cases mapPut l key wseq poison sset slot s <;> simp +zetaDelta
  all_goals exact mergeFor_outer ‹_›
@[simp] theorem rePoint_outer (l key o so n sn : Nat) (cold : Bool) (s : State) :
    outer (rePoint l key o so n sn cold s) = outer s := by
  simp only [rePoint]
  split
  · split
    · rfl
    split
    · simp
    split
    · next h => simp [mergeFor_outer h]
    · simp
  · split <;> simp
@[simp] theorem closeLog_outer (reloc : Bool) (s : State) : outer (closeLog reloc s) = outer s := by
  unfold closeLog
  split <;> simp
theorem logPageFor_outer {reloc : Bool} {wseq : Nat} {s t : State} {p : LogPage} (h : logPageFor reloc wseq s = some (t, p)) :
    outer t = outer s := by
  simp only [logPageFor] at h
  split at h
  · cases h; rfl
  split at h
  · cases h
  split at h
  · cases h
  next hs => cases h; simp [setWithRoom_outer hs]
@[simp] theorem addSlot_outer (reloc : Bool) (p : LogPage) (x : Sealed) (e : ManEnt) (s : State) :
    outer (addSlot reloc p x e s) = outer s := by
  simp [addSlot]
@[simp] theorem placeOne_outer (x : SealedWb) (s : State) : outer (placeOne x s).1 = outer s := by
  unfold placeOne
  split
  · rfl
  next u p hu =>
  have paged := logPageFor_outer hu
  extract_lets newer slot
  split
  next v r hv =>
  have put : outer v = outer u := by
    split at hv
    · cases hv; rfl
    · exact outer_of_fst hv (mapPut_outer ..)
  split
  · exact put.trans paged
  · simp [put, paged]
theorem placeReach_outer {reach : Nat} {lines : List Sealed} {s t : State} {r : Nat × Nat}
    (h : placeReach reach lines s = some (t, r)) :
    outer t = outer s := by
  simp only [placeReach] at h
  split at h
  · cases h
  split at h
  · cases h
  next hs =>
    obtain ⟨rfl, rfl⟩ := Prod.mk.inj (Option.some.inj h)
    rw [pageClosed_outer, forEach_outer _ _ _ fun _ _ => assignPage_outer .., setWithRoom_outer hs]
@[simp] theorem commitCopies_outer (s : State) : outer (commitCopies s) = outer s := by
  fun_cases commitCopies s
  case' case2 t u d hd v moves hv =>
    refine (outer_of_fst hv (foldl_fst_outer _ _ _ fun p m => ?_) : outer v = outer u).trans ?_
    · exact (congrArg outer (apply_ite Prod.fst ..)).trans (outer_if (jPut_outer ..) rfl)
  case' case1 t u hd => skip
  all_goals
    have folds : outer t = outer s := forEach_outer _ _ _ fun f t => by
      split
      · exact outer_if (by simp) rfl
      · rfl
    refine Eq.trans ?_ folds
    simp only [u]
    split
    · exact outer_if (by simp) rfl
    · rfl
@[simp] theorem recDurable_outer (r : JRec) (s : State) : outer (recDurable r s) = outer s := by
  unfold recDurable
  (repeat' split) <;> simp
@[simp] theorem journalRows_outer (n : Nat) (s : State) : outer (journalRows n s) = outer s := by simp [journalRows]
@[simp] theorem rowsComplete_outer (n : Nat) (rows : List Nat) (s : State) : outer (rowsComplete n rows s) = outer s := by
  unfold rowsComplete
  extract_lets t u
  have rowsDone : outer t = outer s := forEach_outer _ _ _ fun p t => by
    split
    · rfl
    · refine outer_if ?_ rfl
      exact outer_if (by simp) (by simp)
  rw [commitCopies_outer, ← rowsDone]
  simp only [u]
  split
  · exact outer_if (journalRows_outer ..) rfl
  · rfl
theorem moveReach_outer {reach n k : Nat} {s t : State} {r : Nat × Nat} (h : moveReach reach n k s = some (t, r)) :
    outer t = outer s :=
  placeReach_outer h
@[simp] theorem failSet_outer (n : Nat) (s : State) : outer (failSet n s) = outer s := by
  fun_cases failSet n s with
  | case1 => rfl
  | case2 => rfl
  | case3 b hb ho live mine s1 s2 s3 back s4 s5 s6 s7 s8 keys =>
  have queues : outer s3 = outer s2 := forEach_outer _ _ _ fun _ _ => modDie_outer ..
  have folds : outer s5 = outer s4 := forEach_outer _ _ _ fun f t => by
    split
    · refine outer_if ?_ rfl
      split
      · next h => simp [moveReach_outer h]
      · rfl
    · rfl
  have shore : outer s6 = outer s5 := by
    simp only [s6]
    split
    · refine outer_if ?_ rfl
      split
      · next h => exact (outer_mk ..).trans (moveReach_outer h)
      · rfl
    · rfl
  have dredge : outer s7 = outer s6 := by
    simp only [s7]
    split
    · rfl
    · refine foldl_fst_outer _ _ _ fun p m => ?_
      split
      · split
        · split
          · next h => exact moveReach_outer h
          · rfl
        · rfl
      · rfl
  have pages : outer s8 = outer s7 := forEach_outer _ _ _ fun q t => by
    split
    · split
      · next u v hv =>
        rw [pageClosed_outer]
        refine Eq.trans ?_ (setWithRoom_outer hv)
        split
        · exact (outer_mk ..).trans ((forEach_outer _ _ _ fun _ _ => rePoint_outer ..).trans (assignPage_outer ..))
        · exact (forEach_outer _ _ _ fun _ _ => rePoint_outer ..).trans (assignPage_outer ..)
      · rfl
    · split
      · next h => simp [setWithRoom_outer h]
      · rfl
    · rfl
  calc outer _ = outer s8 := rfl
    _ = outer s4 := by rw [pages, dredge, shore, folds]
    _ = outer s3 := rfl
    _ = outer s2 := queues
    _ = outer s := modSet_outer ..
@[simp] theorem spareEval_outer (fuel : Nat) (s : State) : outer (spareEval fuel s) = outer s := by
  fun_induction spareEval fuel s <;> simp +zetaDelta [*]
@[simp] theorem retireBlock_outer (ch die plane blk cause : Nat) (s : State) :
    outer (retireBlock ch die plane blk cause s) = outer s := by
  simp [retireBlock]
@[simp] theorem unmapReaches_outer (first n : Nat) (s : State) : outer (unmapReaches first n s) = outer s := by
  simp [unmapReaches]

/-! #### IcuNode -/

theorem nodePage_outer {avoid ch : Option Nat} {body : PageBody} {s t : State} {r : Nat × Nat × Nat}
    (h : nodePage avoid ch body s = some (t, r)) :
    
    outer t = outer s := by
  simp only [nodePage] at h
  split at h
  · cases h
  next u n hp =>
  have picked : outer u = outer s := by
    split at hp
    · cases hp; rfl
    · exact openSet_outer hp
  cases h
  simp [picked]
@[simp] theorem groupImage_outer (up i : Nat) (s : State) : outer (groupImage up i s) = outer s :=
  forEach_outer _ _ _ fun _ _ => rfl
@[simp] theorem groupWrite_outer (g : Nat) (s : State) : outer (groupWrite g s) = outer s := by
  simp only [groupWrite]
  split
  · rfl
  split
  · rfl
  next ha =>
  split
  · exact nodePage_outer ha
  next hb =>
  split
  · split
    · next hl => simp [nodePage_outer hl, nodePage_outer hb, nodePage_outer ha]
    · simp [nodePage_outer hb, nodePage_outer ha]
  · simp [nodePage_outer hb, nodePage_outer ha]
@[simp] theorem quarSave_outer (s : State) : outer (quarSave s) = outer s := by simp [quarSave]
@[simp] theorem quarantine_outer (level index cause : Nat) (s : State) : outer (quarantine level index cause s) = outer s := by
  simp [quarantine]
@[simp] theorem quarEnds_outer (s : State) : outer (quarEnds s) = outer s := by simp [quarEnds]
@[simp] theorem nodeCopyBad_outer (leaf copy how : Nat) (s : State) : outer (nodeCopyBad leaf copy how s) = outer s := by
  simp [nodeCopyBad]
@[simp] theorem nodeLost_outer (leaf : Nat) (s : State) : outer (nodeLost leaf s) = outer s := by simp [nodeLost]

/-! #### Media -/

@[simp] theorem learnMove_outer (k : Nat) (deeps : Bool) (a : Nat) (d : ℤ) (s : State) :
    outer (learnMove k deeps a d s) = outer s := by
  simp [learnMove]
@[simp] theorem showRef_outer (k a : Nat) (s : State) : outer (showRef k a s) = outer s := by simp [showRef]
@[simp] theorem refreshHint_outer (psa why : Nat) (s : State) : outer (refreshHint psa why s) = outer s := by simp [refreshHint]
@[simp] theorem sndMedia_outer (k op cls psa outcome : Nat) (s : State) :
    outer (sndMedia k op cls psa outcome s) = outer s := by
  simp [sndMedia]
@[simp] theorem opEnds_outer (k e : Nat) (s : State) : outer (opEnds k e s) = outer s := by simp [opEnds]
@[simp] theorem dieSuspend_outer (k : Nat) (s : State) : outer (dieSuspend k s) = outer s := by simp [dieSuspend]
@[simp] theorem dieUnsuspend_outer (k now : Nat) (s : State) : outer (dieUnsuspend k now s) = outer s := by simp [dieUnsuspend]
@[simp] theorem modSense_outer (k : Nat) (x : Sense) (f : Sense → Sense) (s : State) : outer (modSense k x f s) = outer s := by
  simp [modSense]
@[simp] theorem senseStart_outer (k wait : Nat) (x : Sense) (s : State) : outer (senseStart k wait x s) = outer s := by
  simp [senseStart]
@[simp] theorem senseRefused_outer (k why : Nat) (x : Sense) (s : State) : outer (senseRefused k why x s) = outer s := by
  unfold senseRefused
  split <;> simp
@[simp] theorem doHostSense_outer (c d : Nat) (s : State) : outer (doHostSense c d s) = outer s := by
  simp only [doHostSense]
  (repeat' split) <;> simp
@[simp] theorem doDieResume_outer (c d : Nat) (s : State) : outer (doDieResume c d s) = outer s := by simp [doDieResume]
@[simp] theorem nodeCame_outer (leaf : Nat) (s : State) : outer (nodeCame leaf s) = outer s := by
  unfold nodeCame
  split <;> simp
@[simp] theorem nodeGot_outer (leaf copy how : Nat) (s : State) : outer (nodeGot leaf copy how s) = outer s := by
  unfold nodeGot
  (repeat' split) <;> simp
@[simp] theorem nodeFails_outer (leaf copy : Nat) (s : State) : outer (nodeFails leaf copy s) = outer s := by
  simp only [nodeFails]
  split
  · rfl
  split
  · split <;> simp
  · rw [forEach_outer]
    · rfl
    · intro c t; split <;> simp
@[simp] theorem nodeDead_outer (leaf copy : Nat) (s : State) : outer (nodeDead leaf copy s) = outer s := by
  unfold nodeDead
  split <;> simp
@[simp] theorem deliver_outer (got : Option (Nat × List Byte)) (x : Sense) (path auth : Nat) (s : State) :
    outer (deliver got x path auth s) = outer s := by
  unfold deliver
  split <;> simp
@[simp] theorem senseLeaves_outer (k : Nat) (x : Sense) (s : State) : outer (senseLeaves k x s) = outer s := by
  simp [senseLeaves]
@[simp] theorem pathOf_outer (x : Sense) (path : Nat) (s : State) : outer (pathOf x path s) = outer s := by
  unfold pathOf
  split <;> simp
@[simp] theorem latMax_outer (c lat : Nat) (s : State) : outer (latMax c lat s) = outer s := by simp [latMax]
@[simp] theorem latNote_outer (k lat : Nat) (x : Sense) (s : State) : outer (latNote k lat x s) = outer s := by
  unfold latNote
  split <;> simp
@[simp] theorem senseGood_outer (k : Nat) (x : Sense) (out : Decoded) (auth lat : Nat) (s : State) :
    outer (senseGood k x out auth lat s) = outer s := by
  simp [senseGood]
@[simp] theorem ladderEnds_outer (k lat : Nat) (x : Sense) (s : State) : outer (ladderEnds k lat x s) = outer s := by
  unfold ladderEnds
  split <;> simp
@[simp] theorem senseFail_outer (k ones checks lat : Nat) (x : Sense) (erased : Bool) (s : State) :
    outer (senseFail k ones checks lat x erased s) = outer s := by
  unfold senseFail
  (repeat' split) <;> simp
@[simp] theorem senseInj_outer (k : Nat) (x : Sense) (res : SenseRes) (s : State) : outer (senseInj k x res s).1 = outer s := by
  simp only [senseInj]
  (repeat' split) <;> simp
theorem decodeTake_outer {c d : Nat} {s t : State} {x : Sense} (h : decodeTake c d s = some (x, t)) : outer t = outer s := by
  obtain ⟨e, -, he⟩ := Option.map_eq_some_iff.mp h
  cases he; simp
@[simp] theorem doSenseDone_outer (c d : Nat) (res : SenseRes) (lat : Nat) (s : State) :
    outer (doSenseDone c d res lat s) = outer s := by
  fun_cases doSenseDone c d res lat s <;> simp +zetaDelta
  all_goals exact (outer_of_fst ‹_› (senseInj_outer ..)).trans (decodeTake_outer ‹_›)
@[simp] theorem doRecon_outer (c d auth lat : Nat) (s : State) : outer (doRecon c d auth lat s) = outer s := by
  simp only [doRecon]
  (repeat' split) <;> simp
@[simp] theorem pageOut_outer (k : Nat) (s : State) : outer (pageOut k s) = outer s := by unfold pageOut; split <;> simp
@[simp] theorem bgStart_outer (k : Nat) (s : State) : outer (bgStart k s) = outer s := by
  simp only [bgStart]
  (repeat' split) <;> simp
@[simp] theorem doBusSlot_outer (c : Nat) (s : State) : outer (doBusSlot c s) = outer s := by
  simp only [doBusSlot]
  (repeat' split) <;> simp
@[simp] theorem suspect_outer (key why : Nat) (s : State) : outer (suspect key why s) = outer s := by simp [suspect]
@[simp] theorem progOk_outer (c : Nat) (p : Prog) (b : BlockSet) (s : State) : outer (progOk c p b s) = outer s := by
  simp [progOk]
@[simp] theorem progBad_outer (c : Nat) (p : Prog) (b : BlockSet) (notErased : Bool) (s : State) :
    outer (progBad c p b notErased s) = outer s := by
  simp [progBad]
@[simp] theorem doProgramDone_outer (c d res : Nat) (s : State) : outer (doProgramDone c d res s) = outer s := by
  simp only [doProgramDone]
  (repeat' split) <;> simp
@[simp] theorem dropBlock_outer (key : Nat) (s : State) : outer (dropBlock key s) = outer s := by simp [dropBlock]
@[simp] theorem setErased_outer (n : Nat) (b : BlockSet) (s : State) : outer (setErased n b s) = outer s := by simp [setErased]
@[simp] theorem doEraseDone_outer (c d : Nat) (ok blank : Bool) (s : State) : outer (doEraseDone c d ok blank s) = outer s := by
  simp only [doEraseDone]
  (repeat' split) <;> simp
@[simp] theorem doDriftSample_outer (c d lo mid hi : Nat) (s : State) : outer (doDriftSample c d lo mid hi s) = outer s := by
  simp only [doDriftSample]
  (repeat' split) <;> simp
@[simp] theorem raiseInc_outer (k : Nat) (s : State) : outer (raiseInc k s) = outer s := by simp [raiseInc]
@[simp] theorem senseToRecon_outer (x : Sense) (s : State) : outer (senseToRecon x s) = outer s := by
  unfold senseToRecon
  split <;> simp
@[simp] theorem fenceDie_outer (k : Nat) (s : State) : outer (fenceDie k s) = outer s := by
  simp only [fenceDie]
  (repeat' split) <;> simp
@[simp] theorem fenceChannel_outer (c cause : Nat) (s : State) : outer (fenceChannel c cause s) = outer s := by
  simp [fenceChannel]
@[simp] theorem doDieFenced_outer (c d cause : Nat) (s : State) : outer (doDieFenced c d cause s) = outer s := by
  simp [doDieFenced]
@[simp] theorem startRebuild_outer (unit : Nat) (s : State) : outer (startRebuild unit s) = outer s := by simp [startRebuild]
@[simp] theorem doRetrainDone_outer (c : Nat) (ok : Bool) (s : State) : outer (doRetrainDone c ok s) = outer s := by
  simp [doRetrainDone]
@[simp] theorem dieOnlineAgain_outer (k : Nat) (s : State) : outer (dieOnlineAgain k s) = outer s := by simp [dieOnlineAgain]
@[simp] theorem infoRead_outer (k inc : Nat) (s : State) : outer (infoRead k inc s) = outer s := by simp [infoRead]
@[simp] theorem doDieReset_outer (c d : Nat) (answered : Bool) (inc : Nat) (s : State) :
    outer (doDieReset c d answered inc s) = outer s := by
  simp [doDieReset]
@[simp] theorem doRejoin_outer (c d bad : Nat) (s : State) : outer (doRejoin c d bad s) = outer s := by simp [doRejoin]
@[simp] theorem doRetrainReq_outer (path c : Nat) (v : BitVec 32) (s : State) : outer (doRetrainReq path c v s) = outer s := by
  simp [doRetrainReq]
@[simp] theorem doDaEnter_outer (path c : Nat) (v : BitVec 32) (s : State) : outer (doDaEnter path c v s) = outer s := by
  simp [doDaEnter]
@[simp] theorem daBuf_outer (c : Nat) (l : List Byte) (s : State) : outer (daBuf c l s) = outer s := by simp [daBuf]
@[simp] theorem daOp_outer (path c op : Nat) (v : BitVec 32) (f : Nat → Bool → State → Nat × State) (s : State)
    (h : ∀ p d t, outer (f p d t).2 = outer t) : outer (daOp path c op v f s) = outer s := by
  unfold daOp
  refine outer_if rfl ?_
  extract_lets deeps t psa bad
  have start : outer t = outer s := (setB_outer ..).trans (setF_outer ..)
  split
  next r u hu =>
  have done : outer u = outer t := by
    split at hu
    · cases hu; rfl
    · rw [show u = (f psa deeps t).2 by rw [hu], h]
  rw [sed_outer, setF_outer, ← start, ← done]
  split <;> simp
@[simp] theorem daRead_outer (c : Nat) (ok : Bool) (psa : Nat) (deeps : Bool) (s : State) :
    outer (daRead c ok psa deeps s).2 = outer s := by
  simp only [daRead]
  split <;> simp
@[simp] theorem daReadRaw_outer (c : Nat) (ok : Bool) (psa : Nat) (deeps : Bool) (s : State) :
    outer (daReadRaw c ok psa deeps s).2 = outer s := by
  fun_cases daReadRaw c ok psa deeps s
  · exact emit_outer ..
  · exact (daBuf_outer ..).trans (emit_outer ..)
@[simp] theorem daProgram_outer (c : Nat) (ok : Bool) (psa : Nat) (deeps : Bool) (s : State) :
    outer (daProgram c ok psa deeps s).2 = outer s := by
  fun_cases daProgram c ok psa deeps s
  case case6 => exact forEach_outer _ _ _ fun _ _ => rfl
  all_goals rfl
@[simp] theorem daErase_outer (c : Nat) (ok : Bool) (psa : Nat) (_deeps : Bool) (s : State) :
    outer (daErase c ok psa _deeps s).2 = outer s := by
  unfold daErase
  (repeat' split) <;> simp
@[simp] theorem daInfo_outer (c : Nat) (ok : Bool) (psa : Nat) (_deeps : Bool) (s : State) :
    outer (daInfo c ok psa _deeps s).2 = outer s := by
  unfold daInfo
  split <;> simp
@[simp] theorem daGo_outer (path c op : Nat) (v : BitVec 32) (ok : Bool) (s : State) :
    outer (daGo path c op v ok s) = outer s := by
  simp [daGo]

/-! #### Mtl -/

@[simp] theorem placeTry_outer (x : SealedWb) (s : State) : outer (placeTry x s) = outer s := by simp [placeTry]
@[simp] theorem relocPageOut_outer (n : Nat) (l : List (Nat × Nat × Nat)) (s : State) :
    outer (relocPageOut n l s) = outer s := by
  unfold relocPageOut
  split
  · rfl
  next hs =>
    simp only [outer_mk, closeLog_outer]
    rw [forEach_outer]
    · simpa using logPageFor_outer hs
    · intro x t
      split
      · simpa using logPageFor_outer ‹_›
      · rfl
@[simp] theorem dredgeCopy_outer (fuel : Nat) (s : State) : outer (dredgeCopy fuel s) = outer s := by
  induction fuel generalizing s with
  | zero => rfl
  | succ n ih =>
    simp only [dredgeCopy]
    split
    · rfl
    split
    · rfl
    refine outer_if (by simp [ih]) ?_
    split
    · rfl
    split
    · rfl
    · next h => simp [ih, placeReach_outer h]
@[simp] theorem dredgeEnd_outer (s : State) : outer (dredgeEnd s) = outer s := by unfold dredgeEnd; (repeat' split) <;> simp
@[simp] theorem doDredgePick_outer (s : State) : outer (doDredgePick s) = outer s := by
  simp only [doDredgePick]
  (repeat' split) <;> simp
@[simp] theorem relocApply_outer (dst q src : Nat) (s : State) : outer (relocApply dst q src s) = outer s := by
  unfold relocApply
  split
  · refine forEach_outer _ _ _ fun e t => ?_
    dsimp only
    split <;> simp
  · rfl
@[simp] theorem moveApply_outer (r n k o so : Nat) (s : State) : outer (moveApply r n k o so s) = outer s := by
  unfold moveApply
  (repeat' split) <;> simp
@[simp] theorem doDredgeCommit_outer (s : State) : outer (doDredgeCommit s) = outer s := by
  unfold doDredgeCommit
  refine outer_if rfl ?_
  split
  · rfl
  extract_lets ready t u
  have applied : outer t = outer s := forEach_outer _ _ _ fun m t => by split <;> simp
  rw [dredgeEnd_outer]
  exact outer_if ((dredgeCopy_outer ..).trans applied) applied
@[simp] theorem ckptForm_outer (fuel pages : Nat) (s : State) : outer (ckptForm fuel pages s).1 = outer s := by
  fun_induction ckptForm fuel pages s <;> simp +zetaDelta [*]
  all_goals exact openSet_outer ‹_›
@[simp] theorem doCkptBegin_outer (s : State) : outer (doCkptBegin s) = outer s := by simp [doCkptBegin]
@[simp] theorem doCkptEnd_outer (s : State) : outer (doCkptEnd s) = outer s := by unfold doCkptEnd; split <;> simp

/-! #### Icu -/

@[simp] theorem dropWb_outer (n : Nat) (e : EbEnt) (s : State) : outer (dropWb n e s) = outer s := by simp [dropWb]
@[simp] theorem handOver_outer (line wseq key : Nat) (poison : Bool) (x : Sealed) (s : State) :
    outer (handOver line wseq key poison x s) = outer s := by
  simp [handOver]
@[simp] theorem sealInj_outer (s : State) : outer (sealInj s).1 = outer s := by unfold sealInj; split <;> simp
@[simp] theorem doSeal_outer (mism : Nat) (s : State) : outer (doSeal mism s) = outer s := by
  simp only [doSeal]
  (repeat' split) <;> simp
theorem ownWb_outer {line key cls : Nat} {poison : Bool} {d : Line} {s t : State} {w : Nat}
    (h : ownWb line key cls poison d s = some (t, w)) :
    
    outer t = outer s := by
  simp only [ownWb] at h
  split at h
  · cases h
  · split at h <;> cases h; simp
@[simp] theorem resealClear_outer (line : Nat) (s : State) : outer (resealClear line s) = outer s := by simp [resealClear]
@[simp] theorem doRemac_outer (line : Nat) (s : State) : outer (doRemac line s) = outer s := by
  have own (key : Nat) (poison : Bool) (d : Line) (t : State) :
      outer (match ownWb line key 4 poison d t with | some (u, _) => satInc F.ICU_CNT_REMAC_COUNT u | none => t) = outer t := by
    split
    · simp [ownWb_outer ‹_›]
    · rfl
  simp only [doRemac]
  split
  · rfl
  split
  · exact outer_if (own ..) rfl
  · exact own ..
  · split
    · split
      · split
        · exact (own ..).trans (by simp)
        · simp
      · rfl
    · simp
  · rfl
@[simp] theorem doCompact_outer (s : State) : outer (doCompact s) = outer s := by
  simp only [doCompact]
  (repeat' split) <;> simp
@[simp] theorem discardAll_outer (s : State) : outer (discardAll s).1 = outer s := by simp [discardAll]
@[simp] theorem doIcuRecovery_outer (lost : List Nat) (s : State) : outer (doIcuRecovery lost s) = outer s := by
  simp [doIcuRecovery]
  split <;> simp
@[simp] theorem doDiscard_outer (path : Nat) (v : BitVec 32) (s : State) : outer (doDiscard path v s) = outer s := by
  simp [doDiscard]
@[simp] theorem doHaltReport_outer (path : Nat) (input : List Byte) (s : State) :
    outer (doHaltReport path input s) = outer s := by
  simp [doHaltReport]
@[simp] theorem doShoreStatus_outer (path : Nat) (input : List Byte) (s : State) :
    outer (doShoreStatus path input s) = outer s := by
  simp [doShoreStatus]
@[simp] theorem modShore_outer (f : Shore → Shore) (s : State) : outer (modShore f s) = outer s := by simp [modShore]

/-! #### Vault -/

@[simp] theorem modKek_outer (k : Nat) (f : Kek → Kek) (s : State) : outer (modKek k f s) = outer s := by simp [modKek]
@[simp] theorem modCtx_outer (k : Nat) (f : Ctx → Ctx) (s : State) : outer (modCtx k f s) = outer s := by simp [modCtx]
@[simp] theorem doCompactLedger_outer (s : State) : outer (doCompactLedger s) = outer s := by simp [doCompactLedger]
@[simp] theorem doKeyReloadBy_outer (ag kind index : Nat) (s : State) : outer (doKeyReloadBy ag kind index s) = outer s := by
  simp [doKeyReloadBy]
  split <;> simp
@[simp] theorem doKeyReload_outer (kind index : Nat) (s : State) : outer (doKeyReload kind index s) = outer s := by
  simp [doKeyReload]
@[simp] theorem doRngFail_outer (test : Nat) (again : Bool) (s : State) : outer (doRngFail test again s) = outer s := by
  simp [doRngFail]
@[simp] theorem doReseed_outer (s : State) : outer (doReseed s) = outer s := by simp [doReseed]

/-! #### Mgmt -/

@[simp] theorem busMode_outer (i3c : Bool) (addr : Nat) (s : State) : outer (busMode i3c addr s) = outer s := by simp [busMode]
theorem tutDropped_outer {pec : Bool} {n : Nat} {s t : State} (h : tutDropped pec n s = some t) : outer t = outer s := by
  simp only [tutDropped] at h
  split at h
  · cases h; simp
  · split at h <;> cases h; simp
@[simp] theorem doMctpControl_outer (c : Nat) (arg : List Byte) (s : State) : outer (doMctpControl c arg s) = outer s := by
  simp [doMctpControl]

/-! #### Flash -/

@[simp] theorem wellheadUe_outer (addr : Nat) (mirrorOk : Bool) (s : State) : outer (wellheadUe addr mirrorOk s) = outer s := by
  simp [wellheadUe]

/-! #### Fw -/

@[simp] theorem doHealthy_outer (path : Nat) (v : BitVec 32) (s : State) : outer (doHealthy path v s) = outer s := by
  simp [doHealthy]

/-! #### Memp -/

@[simp] theorem doInjCtl_outer (path : Nat) (v : BitVec 32) (s : State) : outer (doInjCtl path v s) = outer s := by
  simp [doInjCtl]

/-! #### Gauge -/

@[simp] theorem gHoldEnd_outer (s : State) : outer (gHoldEnd s) = outer s := by unfold gHoldEnd; split <;> simp
@[simp] theorem doWriteHeld_outer (s : State) : outer (doWriteHeld s) = outer s := by
  unfold doWriteHeld
  (repeat' split) <;> simp

/-! #### SedRegion -/

@[simp] theorem doSedScan_outer (bad : List Nat) (s : State) : outer (doSedScan bad s) = outer s := by
  have said (fails : List Nat) (t : State) : outer (match fails with
      | [] => t
      | k :: _ => satAdd F.SED_ERR_CRC_BAD fails.length t |> sed 0x0B82 sWARNING 12 fails.length (fails.foldl min k) 0) = outer t := by
    split <;> simp
  have gapSaid (gap : Bool) (p q : Nat) (t : State) : outer (if gap then sed 0x0B84 sNOTICE 12 p q 0 t else t) = outer t := by simp
  fun_cases doSedScan bad s with
  | case1 => rfl
  | case2 => exact (sed_outer ..).trans ((gapSaid ..).trans ((said ..).trans (setF_outer ..)))
  | case3 => exact (gapSaid ..).trans ((said ..).trans (setF_outer ..))
@[simp] theorem doSedRead_outer (path : Nat) (d : List Byte) (s : State) : outer (doSedRead path d s) = outer s := by
  simp [doSedRead]

/-! #### Narrows -/

@[simp] theorem modNrw_outer (f : Narrows → Narrows) (s : State) : outer (modNrw f s) = outer s := by simp [modNrw]
@[simp] theorem nrwStatus_outer (n : Nat) (s : State) : outer (nrwStatus n s) = outer s := by
  unfold nrwStatus
  (repeat' split) <;> simp
@[simp] theorem nrwStatusAll_outer (s : State) : outer (nrwStatusAll s) = outer s := by simp [nrwStatusAll]
@[simp] theorem putGroup_outer (g : GroupRec) (s : State) : outer (putGroup g s) = outer s := by simp [putGroup]
@[simp] theorem groupEval_outer (s : State) : outer (groupEval s) = outer s := by simp [groupEval]
@[simp] theorem dropWalk_outer (p : Nat) (s : State) : outer (dropWalk p s) = outer s := by simp [dropWalk]
@[simp] theorem resyncStart_outer (p : Nat) (full : Bool) (s : State) : outer (resyncStart p full s) = outer s := by
  simp [resyncStart]
@[simp] theorem unwait_outer (p r : Nat) (s : State) : outer (unwait p r s) = outer s := by simp [unwait]
@[simp] theorem freeCells_outer (p r : Nat) (s : State) : outer (freeCells p r s) = outer s := by simp [freeCells]
@[simp] theorem cancelFetches_outer (s : State) : outer (cancelFetches s) = outer s := by simp [cancelFetches]
@[simp] theorem promoteWrite_outer (path : Nat) (s : State) : outer (promoteWrite path s) = outer s := by simp [promoteWrite]
@[simp] theorem nrwFence_outer (p cause : Nat) (s : State) : outer (nrwFence p cause s) = outer s := by
  simp [nrwFence]
  split <;> simp
@[simp] theorem linkLost_outer (n cause st : Nat) (s : State) : outer (linkLost n cause st s) = outer s := by simp [linkLost]
@[simp] theorem doSession_outer (n width serial : Nat) (chainOk : Bool) (s : State) :
    outer (doSession n width serial chainOk s) = outer s := by
  simp [doSession]
@[simp] theorem groupForm_outer (s : State) : outer (groupForm s) = outer s := by unfold groupForm; split <;> simp
@[simp] theorem nrwMeet_outer (p ginc : Nat) (primary synced : Bool) (s : State) :
    outer (nrwMeet p ginc primary synced s) = outer s := by
  simp [nrwMeet]
@[simp] theorem resyncDone_outer (p : Nat) (s : State) : outer (resyncDone p s) = outer s := by simp [resyncDone]
@[simp] theorem doStatus_outer (n p ginc : Nat) (primary : Bool) (st : Nat) (synced : Bool) (group nmem : Nat) (ack : Bool)
    (members : List Nat) (digest : List Byte) (s : State) :
    outer (doStatus n p ginc primary st synced group nmem ack members digest s) = outer s := by
  unfold doStatus
  split <;> simp
@[simp] theorem meetAll_outer (s0 s : State) : outer (meetAll s0 s) = outer s := by simp [meetAll]
@[simp] theorem nrwAck_outer (s : State) : outer (nrwAck s) = outer s := by simp [nrwAck]
@[simp] theorem applyRelease_outer (l : Nat) (e : QEntry) (s : State) : outer (applyRelease l e s) = outer s := by
  simp [applyRelease]
@[simp] theorem applyBitmap_outer (l : Nat) (e : QEntry) (s : State) : outer (applyBitmap l e s) = outer s := by
  simp [applyBitmap]
@[simp] theorem nrwApply_outer (fuel : Nat) (s : State) : outer (nrwApply fuel s) = outer s := by
  have may (t u : State) (x : Option (Nat × QEntry))
      (h : (if slicesServe t && t.mtl.ready then replicaRead t else (t, none)) = (u, x)) : outer u = outer t := by
    split at h
    · exact outer_of_fst h (replicaRead_outer t)
    · cases h; rfl
  induction fuel generalizing s with
  | zero => rfl
  | succ n ih =>
    simp only [nrwApply]
    split
    · next h => simp [may _ _ _ h]
    · next h => split <;> simp [ih, may _ _ _ h]
@[simp] theorem nrwTake_outer (s : State) : outer (nrwTake s) = outer s := by simp [nrwTake]
@[simp] theorem nrwRecv_outer (n : Nat) (e : QEntry) (b : FrameBody) (ue : Bool) (s : State) :
    outer (nrwRecv n e b ue s) = outer s := by
  simp [nrwRecv]
@[simp] theorem handoffCheck_outer (s : State) : outer (handoffCheck s) = outer s := by unfold handoffCheck; split <;> simp
@[simp] theorem regionsAcked_outer (p : Nat) (s : State) : outer (regionsAcked p s) = outer s := by simp [regionsAcked]
@[simp] theorem doNrwAck_outer (n rseq : Nat) (relay : Bool) (pos : Nat) (s : State) :
    outer (doNrwAck n rseq relay pos s) = outer s := by
  simp [doNrwAck]
@[simp] theorem doHandoff_outer (n rseq : Nat) (s : State) : outer (doHandoff n rseq s) = outer s := by
  unfold doHandoff
  (repeat' split) <;> simp
theorem placeFrame_outer {p line : Nat} {s t : State} {r : Nat} (h : placeFrame p line s = some (t, r)) :
    outer t = outer s := by
  obtain ⟨x, hx, e⟩ := Option.map_eq_some_iff.mp h
  cases e
  simpa using readNow_outer hx
@[simp] theorem walkSense_outer (line : Nat) (s : State) : outer (walkSense line s) = outer s := by
  unfold walkSense
  (repeat' split) <;> simp
@[simp] theorem walkStep_outer (p k line : Nat) (s : State) : outer (walkStep p k line s) = outer s := by
  fun_cases walkStep p k line s
  case case1 | case7 => rfl
  case case2 | case3 => simp +zetaDelta
  case' case4 m put room k12 full region g hg first t ended h r u =>
    refine (show outer (ended _ _ _) = outer t by simp [ended, put, u]).trans ?_
  case' case5 m room k12 full region g hg first t h hu => skip
  case' case6 m put room k12 full region g hg first t ended h u r hu =>
    refine (show outer (ended _ _ _) = outer t by simp [ended, put, placeFrame_outer hu]).trans ?_
  all_goals
    simp only [t]
    split
    · exact outer_if (modMem_outer ..) rfl
    · rfl
@[simp] theorem doNrwResync_outer (path : Nat) (d : List Byte) (s : State) : outer (doNrwResync path d s) = outer s := by
  simp [doNrwResync]

/-! #### Observe -/

@[simp] theorem modObs_outer (f : Obs → Obs) (s : State) : outer (modObs f s) = outer s := by simp [modObs]
@[simp] theorem doPcCfg_outer (path j : Nat) (v : BitVec 32) (s : State) : outer (doPcCfg path j v s) = outer s := by
  simp [doPcCfg]
@[simp] theorem doPlumbSample_outer (h tag latency : Nat) (s : State) : outer (doPlumbSample h tag latency s) = outer s := by
  simp only [doPlumbSample]
  (repeat' split) <;> simp
@[simp] theorem plumbDrop_outer (s : State) : outer (plumbDrop s) = outer s := by simp [plumbDrop]
@[simp] theorem doPlumbPop_outer (path : Nat) (s : State) : outer (doPlumbPop path s) = outer s := by simp [doPlumbPop]
@[simp] theorem plumbStop_outer (cause : Nat) (s : State) : outer (plumbStop cause s) = outer s := by simp [plumbStop]
@[simp] theorem sndStop_outer (cause : Nat) (s : State) : outer (sndStop cause s) = outer s := by simp [sndStop]
@[simp] theorem doPlumbCtl_outer (path a : Nat) (v : BitVec 32) (s : State) : outer (doPlumbCtl path a v s) = outer s := by
  simp [doPlumbCtl]
@[simp] theorem sndSend_outer (f : SndFrame) (s : State) : outer (sndSend f s) = outer s := by simp [sndSend]
@[simp] theorem nextFrame_outer (fuel : Nat) (s : State) : outer (nextFrame fuel s).1 = outer s := by
  fun_induction nextFrame fuel s with
  | case1 => rfl
  | case2 => rfl
  | case3 s n f oldest t stale ih => exact ih.trans (by simp [t])
  | case4 => exact modObs_outer ..
@[simp] theorem doFrameSlot_outer (s : State) : outer (doFrameSlot s) = outer s := by
  simp only [doFrameSlot]
  split
  · rfl
  split
  · simp
  split
  · next h => simp [outer_of_fst h (nextFrame_outer ..)]
  · next h => simp [outer_of_fst h (nextFrame_outer ..)]
@[simp] theorem doSndMark_outer (path : Nat) (v : BitVec 32) (s : State) : outer (doSndMark path v s) = outer s := by
  simp [doSndMark]

/-! #### Power -/

@[simp] theorem doPwrCtl_outer (path : Nat) (v : BitVec 32) (s : State) : outer (doPwrCtl path v s) = outer s := by
  simp [doPwrCtl]
@[simp] theorem doWakeTimer_outer (s : State) : outer (doWakeTimer s) = outer s := by simp [doWakeTimer]

/-! #### Supervisor -/

@[simp] theorem doBtn_outer (ms : Nat) (s : State) : outer (doBtn ms s) = outer s := by simp [doBtn]

/-! ### Commands whose meaning is written in place -/

theorem execAllocationRetry_outer {slice : Nat} {s t : State} (h : execAllocationRetry slice s = .next t) :
    outer t = outer s := by
  unfold execAllocationRetry at h
  refine run_outer (fun u => ?_) h
  simp
theorem execMergeBufferFreed_outer {slice : Nat} {s t : State} (h : execMergeBufferFreed slice s = .next t) :
    outer t = outer s := by
  unfold execMergeBufferFreed at h
  refine run_outer (fun u => ?_) h
  simp
theorem execGpfRequest_outer {head phase : Nat} {s t : State} (h : execGpfRequest head phase s = .next t) :
    outer t = outer s := by
  unfold execGpfRequest at h
  refine run_outer (fun u => ?_) h
  simp
theorem execCdatRead_outer {head : Nat} {discovery : Bool} {entry : Nat} {s t : State}
    (h : execCdatRead head discovery entry s = .next t) :
    outer t = outer s := by
  unfold execCdatRead at h
  refine run_outer (fun u => ?_) h
  simp
theorem execUnsupportedOpcode_outer {path opcode : Nat} {input : List Byte} {s t : State}
    (h : execUnsupportedOpcode path opcode input s = .next t) :
    outer t = outer s := by
  unfold execUnsupportedOpcode at h
  refine run_outer (fun u => ?_) h
  simp
theorem execFillReturn_outer {line : Nat} {up : Upset} {s t : State} (h : execFillReturn line up s = .next t) :
    outer t = outer s := by
  unfold execFillReturn at h
  refine run_outer (fun u => ?_) h
  simp
theorem execLcCleanCtlWrite_outer {path : Nat} {v : BitVec 32} {s t : State} (h : execLcCleanCtlWrite path v s = .next t) :
    outer t = outer s := by
  unfold execLcCleanCtlWrite at h
  refine run_outer (fun u => ?_) h
  simp
theorem execAdmissionEnter_outer {chan die : Nat} {s t : State} (h : execAdmissionEnter chan die s = .next t) :
    outer t = outer s := by
  unfold execAdmissionEnter at h
  refine run_outer (fun u => ?_) h
  simp
theorem execSenseDone_outer {chan die : Nat} {res : SenseRes} {lat : Nat} {s t : State}
    (h : execSenseDone chan die res lat s = .next t) :
    outer t = outer s := by
  unfold execSenseDone at h
  refine run_outer (fun u => ?_) h
  exact outer_if (getD_outer rfl fun t h => by
    obtain ⟨p, hp, rfl⟩ := Option.map_eq_some_iff.mp h
    exact decodeTake_outer hp) (doSenseDone_outer ..)
theorem execMedRecon_outer {chan die auth lat : Nat} {s t : State} (h : execMedRecon chan die auth lat s = .next t) :
    outer t = outer s := by
  unfold execMedRecon at h
  refine run_outer (fun u => ?_) h
  simp
theorem execChannelTrainingLost_outer {chan : Nat} {s t : State} (h : execChannelTrainingLost chan s = .next t) :
    outer t = outer s := by
  unfold execChannelTrainingLost at h
  refine run_outer (fun u => ?_) h
  simp
theorem execMtlPlace_outer {s t : State} (h : execMtlPlace s = .next t) : outer t = outer s := by
  unfold execMtlPlace at h
  refine run_outer (fun u => ?_) h
  refine outer_if rfl ?_
  split <;> simp
theorem execMtlPlaceWaitEnd_outer {s t : State} (h : execMtlPlaceWaitEnd s = .next t) : outer t = outer s := by
  unfold execMtlPlaceWaitEnd at h
  refine run_outer (fun u => ?_) h
  refine outer_if rfl ?_
  split <;> simp
theorem execLogPageTimeout_outer {s t : State} (h : execLogPageTimeout s = .next t) : outer t = outer s := by
  unfold execLogPageTimeout at h
  refine run_outer (fun u => ?_) h
  simp
theorem execRowFillTimeout_outer {set : Nat} {s t : State} (h : execRowFillTimeout set s = .next t) : outer t = outer s := by
  unfold execRowFillTimeout at h
  refine run_outer (fun u => ?_) h
  split
  · split <;> simp
  · rfl
theorem execEraseIntent_outer {set : Nat} {s t : State} (h : execEraseIntent set s = .next t) : outer t = outer s := by
  unfold execEraseIntent at h
  refine run_outer (fun u => ?_) h
  split <;> simp
theorem execJournalPageTimeout_outer {s t : State} (h : execJournalPageTimeout s = .next t) : outer t = outer s := by
  unfold execJournalPageTimeout at h
  refine run_outer (fun u => ?_) h
  simp
theorem execShoreWaitTimeout_outer {s t : State} (h : execShoreWaitTimeout s = .next t) : outer t = outer s := by
  unfold execShoreWaitTimeout at h
  refine run_outer (fun u => ?_) h
  simp
theorem execI3cDynamicAddress_outer {_setdasa : Bool} {addr : Nat} {s t : State}
    (h : execI3cDynamicAddress _setdasa addr s = .next t) :
    outer t = outer s := by
  unfold execI3cDynamicAddress at h
  refine run_outer (fun u => ?_) h
  simp
theorem execI3cRstdaa_outer {s t : State} (h : execI3cRstdaa s = .next t) : outer t = outer s := by
  unfold execI3cRstdaa at h
  refine run_outer (fun u => ?_) h
  simp
theorem execSmbusAlertResponse_outer {s t : State} (h : execSmbusAlertResponse s = .next t) : outer t = outer s := by
  unfold execSmbusAlertResponse at h
  refine run_outer (fun u => ?_) h
  simp
theorem execMctpControl_outer {pec : Bool} {cmd : Nat} {arg : List Byte} {s t : State}
    (h : execMctpControl pec cmd arg s = .next t) :
    outer t = outer s := by
  unfold execMctpControl at h
  refine run_outer (fun u => ?_) h
  exact outer_if rfl (getD_outer (doMctpControl_outer ..) fun t h => tutDropped_outer h)
theorem execMctpUnsupportedType_outer {type : Nat} {s t : State} (h : execMctpUnsupportedType type s = .next t) :
    outer t = outer s := by
  unfold execMctpUnsupportedType at h
  refine run_outer (fun u => ?_) h
  simp
theorem execSfWellheadMirror_outer {addr : Nat} {mirrorOk : Bool} {s t : State}
    (h : execSfWellheadMirror addr mirrorOk s = .next t) :
    outer t = outer s := by
  unfold execSfWellheadMirror at h
  refine run_outer (fun u => ?_) h
  simp
theorem execSedRecord_outer {code sev unit p0 p1 p2 : Nat} {s t : State} (h : execSedRecord code sev unit p0 p1 p2 s = .next t)
    :
    outer t = outer s := by
  unfold execSedRecord at h
  refine run_outer (fun u => ?_) h
  simp
theorem execIdleExit_outer {cause : Nat} {s t : State} (h : execIdleExit cause s = .next t) : outer t = outer s := by
  unfold execIdleExit at h
  refine run_outer (fun u => ?_) h
  simp
theorem execWakeEvent_outer {src : Nat} {s t : State} (h : execWakeEvent src s = .next t) : outer t = outer s := by
  unfold execWakeEvent at h
  refine run_outer (fun u => ?_) h
  simp
theorem execNrwFetchFrame_outer {link line : Nat} {s t : State} (h : execNrwFetchFrame link line s = .next t) :
    outer t = outer s := by
  unfold execNrwFetchFrame at h
  refine run_outer (fun u => ?_) h
  refine outer_if rfl ?_
  split
  · next h => simp [placeFrame_outer h]
  · rfl
theorem execNrwResendFrame_outer {link rseq : Nat} {s t : State} (h : execNrwResendFrame link rseq s = .next t) :
    outer t = outer s := by
  unfold execNrwResendFrame at h
  refine run_outer (fun u => ?_) h
  simp
theorem execNrwHeartbeatFrame_outer {link rseq : Nat} {s t : State} (h : execNrwHeartbeatFrame link rseq s = .next t) :
    outer t = outer s := by
  unfold execNrwHeartbeatFrame at h
  refine run_outer (fun u => ?_) h
  simp
theorem execNrwStatusFrame_outer {link pos ginc : Nat} {primary : Bool} {st : Nat} {synced : Bool} {group nmem : Nat}
    {ack : Bool} {members : List Nat} {digest : List Byte} {s t : State}
    (h : execNrwStatusFrame link pos ginc primary st synced group nmem ack members digest s = .next t) :
    outer t = outer s := by
  unfold execNrwStatusFrame at h
  refine run_outer (fun u => ?_) h
  simp
theorem execNrwLeaveFrame_outer {link : Nat} {s t : State} (h : execNrwLeaveFrame link s = .next t) : outer t = outer s := by
  unfold execNrwLeaveFrame at h
  refine run_outer (fun u => ?_) h
  simp
theorem execNrwTagFail_outer {link : Nat} {s t : State} (h : execNrwTagFail link s = .next t) : outer t = outer s := by
  unfold execNrwTagFail at h
  refine run_outer (fun u => ?_) h
  simp
theorem execNrwHoldIn_outer {link : Nat} {low : Bool} {s t : State} (h : execNrwHoldIn link low s = .next t) :
    outer t = outer s := by
  unfold execNrwHoldIn at h
  refine run_outer (fun u => ?_) h
  simp
theorem execNrwFence_outer {pos cause : Nat} {s t : State} (h : execNrwFence pos cause s = .next t) : outer t = outer s := by
  unfold execNrwFence at h
  refine run_outer (fun u => ?_) h
  simp
theorem execNrwResyncStep_outer {s t : State} (h : execNrwResyncStep s = .next t) : outer t = outer s := by
  unfold execNrwResyncStep at h
  refine run_outer (fun u => ?_) h
  refine outer_if rfl ?_
  split
  · simp
  · split <;> simp
theorem execHostS2mCreditReturn_outer {head ndr drs : Nat} {s t : State} (h : execHostS2mCreditReturn head ndr drs s = .next t)
    :
    outer t = outer s := by
  unfold execHostS2mCreditReturn at h
  refine run_outer (fun u => ?_) h
  simp
theorem execLinkL1L2Entry_outer {head level : Nat} {s t : State} (h : execLinkL1L2Entry head level s = .next t) :
    outer t = outer s := by
  unfold execLinkL1L2Entry at h
  refine run_outer (fun u => ?_) h
  simp
theorem execNrwHeartbeatSend_outer {link replays : Nat} {s t : State} (h : execNrwHeartbeatSend link replays s = .next t) :
    outer t = outer s := by
  unfold execNrwHeartbeatSend at h
  refine run_outer (fun u => ?_) h
  exact (nrwFrame_outer ..).trans (satAdd_outer ..)

/-- Settles O7: each command does a change that keeps `outer`. -/
theorem hostPathFrame : Obligations.HostPathFrame := by
  intro c s t host h
  cases c <;> cases host
  case allocationRetry.refl => exact execAllocationRetry_outer h
  case mergeBufferFreed.refl => exact execMergeBufferFreed_outer h
  case gpfRequest.refl => exact execGpfRequest_outer h
  case cdatRead.refl => exact execCdatRead_outer h
  case unsupportedOpcode.refl => exact execUnsupportedOpcode_outer h
  case fillReturn.refl => exact execFillReturn_outer h
  case lcCleanCtlWrite.refl => exact execLcCleanCtlWrite_outer h
  case admissionEnter.refl => exact execAdmissionEnter_outer h
  case senseDone.refl => exact execSenseDone_outer h
  case medRecon.refl => exact execMedRecon_outer h
  case channelTrainingLost.refl => exact execChannelTrainingLost_outer h
  case mtlPlace.refl => exact execMtlPlace_outer h
  case mtlPlaceWaitEnd.refl => exact execMtlPlaceWaitEnd_outer h
  case logPageTimeout.refl => exact execLogPageTimeout_outer h
  case rowFillTimeout.refl => exact execRowFillTimeout_outer h
  case eraseIntent.refl => exact execEraseIntent_outer h
  case journalPageTimeout.refl => exact execJournalPageTimeout_outer h
  case shoreWaitTimeout.refl => exact execShoreWaitTimeout_outer h
  case i3cDynamicAddress.refl setdasa addr => exact execI3cDynamicAddress_outer (_setdasa := setdasa) h
  case i3cRstdaa.refl => exact execI3cRstdaa_outer h
  case smbusAlertResponse.refl => exact execSmbusAlertResponse_outer h
  case mctpControl.refl => exact execMctpControl_outer h
  case mctpUnsupportedType.refl => exact execMctpUnsupportedType_outer h
  case sfWellheadMirror.refl => exact execSfWellheadMirror_outer h
  case sedRecord.refl => exact execSedRecord_outer h
  case idleExit.refl => exact execIdleExit_outer h
  case wakeEvent.refl => exact execWakeEvent_outer h
  case nrwFetchFrame.refl => exact execNrwFetchFrame_outer h
  case nrwResendFrame.refl => exact execNrwResendFrame_outer h
  case nrwHeartbeatFrame.refl => exact execNrwHeartbeatFrame_outer h
  case nrwStatusFrame.refl => exact execNrwStatusFrame_outer h
  case nrwLeaveFrame.refl => exact execNrwLeaveFrame_outer h
  case nrwTagFail.refl => exact execNrwTagFail_outer h
  case nrwHoldIn.refl => exact execNrwHoldIn_outer h
  case nrwFence.refl => exact execNrwFence_outer h
  case nrwResyncStep.refl => exact execNrwResyncStep_outer h
  case hostS2mCreditReturn.refl => exact execHostS2mCreditReturn_outer h
  case linkL1L2Entry.refl => exact execLinkL1L2Entry_outer h
  case nrwHeartbeatSend.refl => exact execNrwHeartbeatSend_outer h
  all_goals
    refine run_outer (fun u => ?_) h
    simp

end Sys2Proof.Machine
end

section
/-! Proofs of the frame of Spring flash: one lemma for each further operation of the model, in the model's order, that it leaves
the bytes of Spring flash. `f_spring` says so of the operation `f`; an operation on the path of host lines leaves them because
it leaves `outer`, so the lemmas speak of `outer`'s flash. -/

namespace Sys2Proof.Machine

/-! ### Ways to build a state -/

/-- The bytes of Spring flash. -/
def spring (o : State) : Memory := o.flash.mem

@[simp] theorem spring_mk (s : State) (a0 a1 a2 a3 a4 a5 a6 a7 a8 a9 a10 a11 a12 a13 a14 a15 a16 a17 a18 a19 a20 a21 a22 a23 a24 a25 a26 a27
    a28 a30 a31 a32 a33 a34 a35) :
    spring (outer ⟨a0, a1, a2, a3, a4, a5, a6, a7, a8, a9, a10, a11, a12, a13, a14, a15, a16, a17, a18, a19, a20, a21, a22, a23,
      a24, a25, a26, a27, a28, s.flash, a30, a31, a32, a33, a34, a35⟩) = spring (outer s) := rfl

@[simp] theorem spring_mk_flash (s : State) (a0 a1 a2 a3 a4 a5 a6 a7 a8 a9 a10 a11 a12 a13 a14 a15 a16 a17 a18 a19 a20 a21 a22 a23 a24 a25 a26 a27
    a28 a30 a31 a32 a33 a34 a35)
    (b1 b2 b3 b4 b5 b6 b7 b8 b9 b10 b11 b12 b13 b14 b15 b16) :
    spring (outer ⟨a0, a1, a2, a3, a4, a5, a6, a7, a8, a9, a10, a11, a12, a13, a14, a15, a16, a17, a18, a19, a20, a21, a22, a23,
      a24, a25, a26, a27, a28, ⟨s.flash.mem, b1, b2, b3, b4, b5, b6, b7, b8, b9, b10, b11, b12, b13, b14, b15, b16⟩, a30, a31, a32, a33, a34, a35⟩) = spring (outer s) := rfl

@[simp] theorem spring_ite (c : Prop) [Decidable c] (a b : State) :
    spring (if c then a else b) = if c then spring a else spring b := apply_ite ..

theorem spring_if {c : Prop} [Decidable c] {a b s : State} (ha : spring (outer a) = spring (outer s))
    (hb : spring (outer b) = spring (outer s)) : spring (outer (if c then a else b)) = spring (outer s) := by
  split <;> assumption

theorem spring_of_outer {s t : State} (h : outer t = outer s) : spring (outer t) = spring (outer s) := congrArg spring h

@[simp] theorem when_spring (c : Bool) (f : State → State) (s : State) (h : ∀ t, spring (outer (f t)) = spring (outer t)) :
    spring (outer (when c f s)) = spring (outer s) :=
  spring_if (h s) rfl

@[simp] theorem forEach_spring {α : Type} (l : List α) (f : α → State → State) (s : State)
    (h : ∀ a t, spring (outer (f a t)) = spring (outer t)) : spring (outer (forEach l f s)) = spring (outer s) := by
  induction l generalizing s with
  | nil => rfl
  | cons a l ih => exact (ih (f a s)).trans (h a s)

theorem foldl_fst_spring {α β : Type} (l : List α) (f : State × β → α → State × β) (p : State × β)
    (h : ∀ q a, spring (outer (f q a).1) = spring (outer q.1)) : spring (outer (l.foldl f p).1) = spring (outer p.1) := by
  induction l generalizing p with
  | nil => rfl
  | cons a l ih => exact (ih (f p a)).trans (h p a)

theorem spring_of_fst {β : Type} {p : State × β} {t s : State} {b : β} (h : p = (t, b))
    (k : spring (outer p.1) = spring (outer s)) : spring (outer t) = spring (outer s) := by
  subst h
  exact k

theorem getD_spring {o : Option State} {s u : State} (hu : spring (outer u) = spring (outer s))
    (h : ∀ t, o = some t → spring (outer t) = spring (outer s)) : spring (outer (o.getD u)) = spring (outer s) := by
  cases o with
  | none => exact hu
  | some t => exact h t rfl

/-- A command that does `f` leaves what `f` leaves. -/
theorem run_spring {f : State → State} {s t : State} (keeps : ∀ u, spring (outer (f u)) = spring (outer u))
    (h : run f s = .next t) : spring (outer t) = spring (outer s) := by
  cases h
  exact keeps _

/-! ### Operations that take an operation -/

@[simp] theorem mempReadWith_spring (cls inst base n agent : Nat) (bad : Nat → State → State) (s : State)
    (h : ∀ w t, spring (outer (bad w t)) = spring (outer t)) :
    spring (outer (mempReadWith cls inst base n agent bad s)) = spring (outer s) := by
  simp only [mempReadWith]
  split <;> simp [h]

@[simp] theorem payloadIn_spring (path op : Nat) (input : List Byte) (f : State → State) (s : State)
    (h : ∀ t, spring (outer (f t)) = spring (outer t)) : spring (outer (payloadIn path op input f s)) = spring (outer s) := by
  simp [payloadIn, h]

@[simp] theorem cmd_spring (path op : Nat) (input : List Byte) (lenOk : Bool) (f : State → State) (s : State)
    (h : ∀ t, spring (outer (f t)) = spring (outer t)) : spring (outer (cmd path op input lenOk f s)) = spring (outer s) := by
  unfold cmd
  simp [payloadIn_spring (h := h)]

/-- A fold that carries a state, and gives up for good, leaves what each of its steps leaves. -/
theorem foldl_some_spring {α β : Type} {f : Option (State × β) → α → Option (State × β)} {l : List α} {s t : State} {b c : β}
    (stays : ∀ a, f none a = none)
    (h : ∀ a u b v c, f (some (u, b)) a = some (v, c) → spring (outer v) = spring (outer u))
    (done : l.foldl f (some (s, b)) = some (t, c)) : spring (outer t) = spring (outer s) := by
  have given (l : List α) : l.foldl f none = none := by
    induction l with
    | nil => rfl
    | cons a l ih => rw [List.foldl_cons, stays, ih]
  induction l generalizing s b with
  | nil => cases done; rfl
  | cons a l ih =>
    rw [List.foldl_cons] at done
    match next : f (some (s, b)) a with
    | none => simp [next, given] at done
    | some (u, d) =>
      rw [next] at done
      exact (ih done).trans (h _ _ _ _ _ next)

@[simp] theorem headCmd_spring (path op : Nat) (input : List Byte) (lenOk : Bool) (f : Nat → State → State) (s : State)
    (h : ∀ n t, spring (outer (f n t)) = spring (outer t)) :
    spring (outer (headCmd path op input lenOk f s)) = spring (outer s) :=
  cmd_spring _ _ _ _ _ _ fun t => spring_if (h _ t) (by simp)


/-! #### Presence -/

@[simp] theorem testReset_spring (s : State) : spring (outer (testReset s)) = spring (outer s) := by simp [testReset]
@[simp] theorem testPin_spring (s : State) : spring (outer (testPin s)) = spring (outer s) := by simp [testPin]

/-! #### Counters -/

@[simp] theorem pcHeadReset_spring (h : Nat) (s : State) : spring (outer (pcHeadReset h s)) = spring (outer s) := by
  simp [pcHeadReset]

/-! #### GaugeStore -/

@[simp] theorem putBlock_spring (b : Nat) (v : GBlock) (s : State) : spring (outer (putBlock b v s)) = spring (outer s) := by
  simp [putBlock]

/-! #### Tick -/

@[simp] theorem stageLo_spring (path a : Nat) (v : BitVec 32) (s : State) :
    spring (outer (stageLo path a v s)) = spring (outer s) := by
  simp [stageLo]
@[simp] theorem setCal_spring (ms sub : Nat) (s : State) : spring (outer (setCal ms sub s)) = spring (outer s) := by
  simp [setCal]
@[simp] theorem calAdvance_spring (s : State) : spring (outer (calAdvance s)) = spring (outer s) := by simp [calAdvance]
@[simp] theorem calSetJudge_spring (s : State) : spring (outer (calSetJudge s)) = spring (outer s) := by
  fun_cases calSetJudge s <;> simp +zetaDelta
@[simp] theorem doCalSetCommit_spring (path : Nat) (v : BitVec 32) (s : State) :
    spring (outer (doCalSetCommit path v s)) = spring (outer s) := by
  simp [doCalSetCommit]
@[simp] theorem doBudgetCommit_spring (path : Nat) (v : BitVec 32) (s : State) :
    spring (outer (doBudgetCommit path v s)) = spring (outer s) := by
  simp [doBudgetCommit]
@[simp] theorem doSyncLost_spring (cause : Nat) (s : State) : spring (outer (doSyncLost cause s)) = spring (outer s) := by
  simp [doSyncLost]
@[simp] theorem doSyncPulse_spring (width gap : Nat) (s : State) :
    spring (outer (doSyncPulse width gap s)) = spring (outer s) := by
  simp [doSyncPulse]
@[simp] theorem doSyncFrame_spring (s : State) : spring (outer (doSyncFrame s)) = spring (outer s) := by simp [doSyncFrame]
@[simp] theorem doCalAdjust_spring (s : State) : spring (outer (doCalAdjust s)) = spring (outer s) := by
  fun_cases doCalAdjust s <;> simp +zetaDelta
@[simp] theorem doSyncConflict_spring (s : State) : spring (outer (doSyncConflict s)) = spring (outer s) := by
  simp [doSyncConflict]
@[simp] theorem doListenEnd_spring (s : State) : spring (outer (doListenEnd s)) = spring (outer s) := by simp [doListenEnd]
@[simp] theorem listenTick_spring (s : State) : spring (outer (listenTick s)) = spring (outer s) := by
  fun_cases listenTick s <;> simp +zetaDelta
@[simp] theorem freeRunTick_spring (s : State) : spring (outer (freeRunTick s)) = spring (outer s) := by simp [freeRunTick]
@[simp] theorem drivePulse_spring (s : State) : spring (outer (drivePulse s)) = spring (outer s) := by simp [drivePulse]
@[simp] theorem budgetApply_spring (s : State) : spring (outer (budgetApply s)) = spring (outer s) := by
  fun_cases budgetApply s <;> simp +zetaDelta
@[simp] theorem roleApply_spring (s : State) : spring (outer (roleApply s)) = spring (outer s) := by simp [roleApply]
@[simp] theorem tickAdvance_spring (s : State) : spring (outer (tickAdvance s)) = spring (outer s) := by simp [tickAdvance]

/-! #### Cmd -/

@[simp] theorem startCmd_spring (path op : Nat) (gauge : Bool) (s : State) :
    spring (outer (startCmd path op gauge s)) = spring (outer s) := by
  simp [startCmd]
@[simp] theorem commitCmd_spring (path : Nat) (s : State) : spring (outer (commitCmd path s)) = spring (outer s) := by
  simp [commitCmd]
@[simp] theorem endCmd_spring (path op code : Nat) (body : List Byte) (s : State) :
    spring (outer (endCmd path op code body s)) = spring (outer s) := by
  simp [endCmd]

/-! #### FwCore -/

@[simp] theorem fwShowVer_spring (slot : Nat) (s : State) : spring (outer (fwShowVer slot s)) = spring (outer s) := by
  simp [fwShowVer]
@[simp] theorem fwShowSel_spring (c t st : Nat) (s : State) : spring (outer (fwShowSel c t st s)) = spring (outer s) := by
  simp [fwShowSel]
@[simp] theorem putHalf_spring (h : Nat) (f : Option FwImage) (s : State) :
    spring (outer (putHalf h f s)) = spring (outer s) := by
  simp [putHalf]
@[simp] theorem fwTrialDrop_spring (cause : Nat) (s : State) : spring (outer (fwTrialDrop cause s)) = spring (outer s) := by
  simp [fwTrialDrop]

/-! #### FabricQ -/

@[simp] theorem clearHeadQueues_spring (h : Nat) (s : State) : spring (outer (clearHeadQueues h s)) = spring (outer s) := by
  simp [clearHeadQueues]
@[simp] theorem reLevel_spring (s : State) : spring (outer (reLevel s)) = spring (outer s) := by simp [reLevel]

/-! #### VaultCore -/

@[simp] theorem tgtHold_spring (t i path : Nat) (s : State) : spring (outer (tgtHold t i path s)) = spring (outer s) := by
  simp [tgtHold]
@[simp] theorem tgtFree_spring (path : Nat) (s : State) : spring (outer (tgtFree path s)) = spring (outer s) := by
  simp [tgtFree]

/-! #### IcuCore -/

@[simp] theorem nodeWriteback_spring (k : Nat) (s : State) : spring (outer (nodeWriteback k s)) = spring (outer s) := by
  simp [nodeWriteback]

/-! #### Slice -/

@[simp] theorem openFill_spring (line path auth : Nat) (s : State) :
    spring (outer (openFill line path auth s)) = spring (outer s) := by
  simp [openFill]

/-! #### Fabric -/

@[simp] theorem cycleTick_spring (s : State) : spring (outer (cycleTick s)) = spring (outer s) := by simp [cycleTick]

/-! #### LineCmd -/

@[simp] theorem lcmdAbort_spring (path : Nat) (s : State) : spring (outer (lcmdAbort path s)) = spring (outer s) := by
  simp [lcmdAbort]

/-! #### Seal -/

@[simp] theorem nonceDone_spring (v : Nat) (ok : Bool) (s : State) : spring (outer (nonceDone v ok s)) = spring (outer s) := by
  simp [nonceDone]
@[simp] theorem jobsHeadReset_spring (h : Nat) (s : State) : spring (outer (jobsHeadReset h s)) = spring (outer s) :=
  forEach_spring _ _ _ fun q t => by
    refine spring_if rfl ?_
    dsimp only
    split <;> simp

/-! #### Mover -/

@[simp] theorem moversHeadReset_spring (h : Nat) (s : State) : spring (outer (moversHeadReset h s)) = spring (outer s) := by
  have ended (n : Nat) (m : MoverRun) (t : State) : outer ((dmvEnd n m.op m.tag 0x9 m.done m.irq 0 t).getD
      (modMover n { m with ending := some 0x9 } t)) = outer t := getD_outer (modMover_outer ..) fun u hu => dmvEnd_outer hu
  refine forEach_spring _ _ _ fun n t => spring_if rfl ?_
  dsimp only
  split <;> simp [ended]
@[simp] theorem ringsHeadReset_spring (h : Nat) (s : State) : spring (outer (ringsHeadReset h s)) = spring (outer s) := by
  simp [ringsHeadReset]

/-! #### HostPort -/

@[simp] theorem cutRequests_spring (h : Nat) (s : State) : spring (outer (cutRequests h s)) = spring (outer s) := by
  simp [cutRequests]
@[simp] theorem clearDecoders_spring (h : Nat) (s : State) : spring (outer (clearDecoders h s)) = spring (outer s) := by
  simp [clearDecoders]
@[simp] theorem dropResult_spring (h : Nat) (s : State) : spring (outer (dropResult h s)) = spring (outer s) := by
  simp [dropResult]
@[simp] theorem stampDrop_spring (h : Nat) (s : State) : spring (outer (stampDrop h s)) = spring (outer s) := by
  fun_cases stampDrop h s <;> simp +zetaDelta
@[simp] theorem headReset_spring (h : Nat) (s : State) : spring (outer (headReset h s)) = spring (outer s) := by
  simp [headReset]
@[simp] theorem linkDown_spring (h cause : Nat) (s : State) : spring (outer (linkDown h cause s)) = spring (outer s) := by
  simp [linkDown]
@[simp] theorem abortCmd_spring (h : Nat) (s : State) : spring (outer (abortCmd h s)) = spring (outer s) := by
  simp only [abortCmd, dropResult_spring, stampDrop_spring]
  exact when_spring _ _ _ fun t => rfl

/-! #### Mailbox -/

@[simp] theorem bgSet_spring (path op percent code : Nat) (s : State) :
    spring (outer (bgSet path op percent code s)) = spring (outer s) := by
  simp [bgSet]
@[simp] theorem doAbortBg_spring (path : Nat) (s : State) : spring (outer (doAbortBg path s)) = spring (outer s) := by
  fun_cases doAbortBg path s <;> simp +zetaDelta
@[simp] theorem doSetTimestamp_spring (path : Nat) (inp : List Byte) (s : State) :
    spring (outer (doSetTimestamp path inp s)) = spring (outer s) := by
  simp [doSetTimestamp]
@[simp] theorem answerTimestamps_spring (refused : Bool) (s : State) :
    spring (outer (answerTimestamps refused s)) = spring (outer s) := by
  fun_cases answerTimestamps refused s <;> simp +zetaDelta
@[simp] theorem doScanMedia_spring (path h : Nat) (inp : List Byte) (s : State) :
    spring (outer (doScanMedia path h inp s)) = spring (outer s) := by
  fun_cases doScanMedia path h inp s <;> simp +zetaDelta

/-! #### Ndx -/

@[simp] theorem ndxSaySkipped_spring (c : ImageCfg) (s : State) : spring (outer (ndxSaySkipped c s)) = spring (outer s) := by
  simp [ndxSaySkipped]
@[simp] theorem ndxOwn_spring (path : Nat) (s : State) : spring (outer (ndxOwn path s)) = spring (outer s) := by simp [ndxOwn]
@[simp] theorem ndxTouch_spring (path : Nat) (s : State) : spring (outer (ndxTouch path s)) = spring (outer s) := by
  fun_cases ndxTouch path s <;> simp +zetaDelta
@[simp] theorem ndxLast_spring (path : Nat) (s : State) : spring (outer (ndxLast path s)) = spring (outer s) := by
  fun_cases ndxLast path s <;> simp +zetaDelta
@[simp] theorem doNdxStage_spring (path : Nat) (inp : List Byte) (s : State) :
    spring (outer (doNdxStage path inp s)) = spring (outer s) := by
  simp [doNdxStage]
@[simp] theorem doNdxTimeout_spring (s : State) : spring (outer (doNdxTimeout s)) = spring (outer s) := by
  fun_cases doNdxTimeout s <;> simp +zetaDelta
@[simp] theorem ndxCommitErr_spring (reason rec : Nat) (s : State) :
    spring (outer (ndxCommitErr reason rec s)) = spring (outer s) := by
  simp [ndxCommitErr]
@[simp] theorem ndxPend_spring (on : Bool) (version : Nat) (s : State) :
    spring (outer (ndxPend on version s)) = spring (outer s) := by
  simp [ndxPend]
@[simp] theorem ndxFinish_spring (k : NdxCommit) (s : State) : spring (outer (ndxFinish k s)) = spring (outer s) := by
  simp [ndxFinish]
@[simp] theorem ndxCut_spring (k : NdxCommit) (s : State) : spring (outer (ndxCut k s)) = spring (outer s) := by simp [ndxCut]
@[simp] theorem ndxCont_spring (step : Nat) (s : State) : spring (outer (ndxCont step s)) = spring (outer s) := by
  fun_cases ndxCont step s <;> simp +zetaDelta
@[simp] theorem ndxWorn_spring (s : State) : spring (outer (ndxWorn s)) = spring (outer s) := by
  fun_cases ndxWorn s <;> simp +zetaDelta
@[simp] theorem ndxStop_spring (s : State) : spring (outer (ndxStop s)) = spring (outer s) := by
  fun_cases ndxStop s <;> simp +zetaDelta
@[simp] theorem ndxShow_spring (c : ImageCfg) (slot : Nat) (s : State) :
    spring (outer (ndxShow c slot s)) = spring (outer s) := by
  simp [ndxShow]
@[simp] theorem ndxLive_spring (s : State) : spring (outer (ndxLive s)) = spring (outer s) := by
  fun_cases ndxLive s <;> simp +zetaDelta

/-! #### IcuNode -/

@[simp] theorem nodeTurn_spring (k : Nat) (s : State) : spring (outer (nodeTurn k s)) = spring (outer s) := by
  unfold nodeTurn
  split <;> simp
@[simp] theorem nodeWritebacks_spring (s : State) : spring (outer (nodeWritebacks s)) = spring (outer s) := by
  simp [nodeWritebacks]

/-! #### Media -/

@[simp] theorem accrueCredits_spring (s : State) : spring (outer (accrueCredits s)) = spring (outer s) := by
  simp [accrueCredits]
@[simp] theorem planDie_spring (k : Nat) (s : State) : spring (outer (planDie k s)) = spring (outer s) := by simp [planDie]
@[simp] theorem progBegin_spring (k : Nat) (p : Prog) (rest : List Prog) (s : State) :
    spring (outer (progBegin k p rest s)) = spring (outer s) := by
  fun_cases progBegin k p rest s <;> simp +zetaDelta
@[simp] theorem eraseBegin_spring (k : Nat) (s : State) : spring (outer (eraseBegin k s)) = spring (outer s) := by
  fun_cases eraseBegin k s <;> simp +zetaDelta
@[simp] theorem doProgramStart_spring (c d : Nat) (s : State) : spring (outer (doProgramStart c d s)) = spring (outer s) := by
  fun_cases doProgramStart c d s <;> simp +zetaDelta
@[simp] theorem infoFirst_spring (k : Nat) (s : State) : spring (outer (infoFirst k s)) = spring (outer s) := by
  simp [infoFirst]

/-! #### Mtl -/

@[simp] theorem markCaptured_spring (k : Nat) (r : MergeRec) (s : State) :
    spring (outer (markCaptured k r s)) = spring (outer s) := by
  simp [markCaptured]
theorem sealZero_spring {line key : Nat} {s t : State} {r : Sealed} (h : sealZero line key s = some (t, r)) :
    spring (outer t) = spring (outer s) := by
  unfold sealZero at h
  split at h
  · cases h
  split at h <;> cases h
  simp
theorem foldLines_spring {r : MergeRec} {caps : List MergeEnt} {s t : State} {l : List Sealed}
    (h : foldLines r caps s = some (t, l)) :
    
    spring (outer t) = spring (outer s) := by
  refine foldl_some_spring (fun a => rfl) (fun o u k v m hv => ?_) h
  dsimp only at hv
  split at hv
  · cases hv; rfl
  · cases hv; rfl
  · split at hv
    · next hz => cases hv; exact sealZero_spring hz
    · cases hv
@[simp] theorem foldSenses_spring (r : MergeRec) (caps : List MergeEnt) (s : State) :
    spring (outer (foldSenses r caps s)) = spring (outer s) := by
  unfold foldSenses
  split <;> simp
@[simp] theorem doFoldCapture_spring (s : State) : spring (outer (doFoldCapture s)) = spring (outer s) := by
  unfold doFoldCapture
  refine spring_if rfl ?_
  split
  · rfl
  dsimp only
  split
  · rfl
  next hl =>
  split
  · rfl
  next hp => simp [placeReach_outer hp, foldLines_spring hl]
@[simp] theorem foldApply_spring (reach : Nat) (target : Nat × Nat) (s : State) :
    spring (outer (foldApply reach target s)) = spring (outer s) := by
  fun_cases foldApply reach target s <;> simp +zetaDelta
@[simp] theorem shoreApply_spring (target : Nat × Nat) (s : State) :
    spring (outer (shoreApply target s)) = spring (outer s) := by
  simp [shoreApply]
@[simp] theorem doFoldCommit_spring (reach : Nat) (s : State) : spring (outer (doFoldCommit reach s)) = spring (outer s) := by
  fun_cases doFoldCommit reach s <;> simp +zetaDelta
@[simp] theorem mapRootDone_spring (gen : Nat) (s : State) : spring (outer (mapRootDone gen s)) = spring (outer s) := by
  fun_cases mapRootDone gen s <;> simp +zetaDelta
@[simp] theorem shareTick_spring (s : State) : spring (outer (shareTick s)) = spring (outer s) := by simp [shareTick]
@[simp] theorem mtlAbandon_spring (s : State) : spring (outer (mtlAbandon s)) = spring (outer s) := by
  fun_cases mtlAbandon s with
  | case1 gone t sh u moves m => 
    have first : spring (outer t) = spring (outer s) := forEach_spring _ _ _ fun f v => by split <;> simp
    have second : spring (outer u) = spring (outer t) := by
      simp only [u]
      split
      · exact spring_if (by simp) rfl
      · rfl
    exact second.trans first
@[simp] theorem mtlFlushEnd_spring (s : State) : spring (outer (mtlFlushEnd s)) = spring (outer s) := by
  simp only [mtlFlushEnd, forEach_outer, fillRow_outer, jClose_outer, implies_true, jPut_outer]
  split
  · next h => simp [setWithRoom_outer h]
  · simp
@[simp] theorem replayRec_spring (p : State × Replay) (r : JRec) : spring (outer (replayRec p r).1) = spring (outer p.1) := by
  obtain ⟨s, x⟩ := p
  simp only [replayRec]
  split
  case h_1 =>
    dsimp only
    split
    · exact spring_if (by simp) (by simp)
    · simp
  case h_8 => split <;> simp
  all_goals simp
@[simp] theorem setRestart_spring (n : Nat) (s : State) : spring (outer (setRestart n s)) = spring (outer s) := by
  simp [setRestart]
@[simp] theorem applyCopy_spring (fs : Tbl Nat) (c : Nat × Nat × Bool × Bool × Nat × Nat) (s : State) :
    spring (outer (applyCopy fs c s)) = spring (outer s) := by
  simp [applyCopy]
@[simp] theorem lineLost_spring (line : Nat) (s : State) : spring (outer (lineLost line s)) = spring (outer s) := by
  simp [lineLost]
@[simp] theorem relocRebuilt_spring (n q : Nat) (s : State) : spring (outer (relocRebuilt n q s)) = spring (outer s) := by
  simp only [relocRebuilt, closeLog_outer]
  refine forEach_spring _ _ _ fun x t => ?_
  split
  · rfl
  · next h => simp [logPageFor_outer h]
@[simp] theorem moveRebuilt_spring (erased : List (Nat × Nat)) (n q : Nat) (s : State) :
    spring (outer (moveRebuilt erased n q s)) = spring (outer s) :=
  forEach_spring _ _ _ fun x t => by
    dsimp only
    split
    · next h => simp [placeReach_outer h]
    · rfl
@[simp] theorem erasedRef_spring (erased : List (Nat × Nat)) (e : Nat × Nat) (s : State) :
    spring (outer (erasedRef erased e s)) = spring (outer s) := by
  simp [erasedRef]
@[simp] theorem doMtlRecovery_spring (erased : List (Nat × Nat)) (s : State) :
    spring (outer (doMtlRecovery erased s)) = spring (outer s) := by
  unfold doMtlRecovery
  refine spring_if rfl ?_
  simp
  exact foldl_fst_spring _ _ _ fun p r => replayRec_spring p r
@[simp] theorem doMtlDredgeCtl_spring (path : Nat) (v : BitVec 32) (s : State) :
    spring (outer (doMtlDredgeCtl path v s)) = spring (outer s) := by
  simp [doMtlDredgeCtl]

/-! #### Icu -/

@[simp] theorem scanOpen_spring (auth line : Nat) (s : State) : spring (outer (scanOpen auth line s)) = spring (outer s) := by
  fun_cases scanOpen auth line s <;> simp +zetaDelta
@[simp] theorem doScanDone_spring (bad : List Nat) (fail : Option (Nat × Nat)) (s : State) :
    spring (outer (doScanDone bad fail s)) = spring (outer s) := by
  simp only [doScanDone]
  (repeat' split) <;> simp
@[simp] theorem doShoreStart_spring (path : Nat) (input : List Byte) (s : State) :
    spring (outer (doShoreStart path input s)) = spring (outer s) := by
  simp [doShoreStart]
@[simp] theorem shoreBegin_spring (path : Nat) (s : State) : spring (outer (shoreBegin path s)) = spring (outer s) := by
  fun_cases shoreBegin path s <;> simp +zetaDelta
@[simp] theorem shoreFinish_spring (s : State) : spring (outer (shoreFinish s)) = spring (outer s) := by simp [shoreFinish]
@[simp] theorem shoreAdvance_spring (s : State) : spring (outer (shoreAdvance s)) = spring (outer s) := by
  fun_cases shoreAdvance s <;> simp +zetaDelta
@[simp] theorem shoreHot_spring (s : State) : spring (outer (shoreHot s)) = spring (outer s) :=
  forEach_spring _ _ _ fun o t => by
    dsimp only
    refine spring_if rfl (spring_if (by simp) (spring_if rfl ?_))
    split
    · split
      · split
        · split
          · next h => simp [ownWb_outer h]
          · simp
        · simp
      · simp
    · simp
@[simp] theorem shoreTick_spring (s : State) : spring (outer (shoreTick s)) = spring (outer s) := by simp [shoreTick]
@[simp] theorem strideSenses_spring (caps : List MergeEnt) (old : Option (Nat × Nat)) (s : State) :
    spring (outer (strideSenses caps old s)) = spring (outer s) := by
  unfold strideSenses
  split <;> simp
/-- A line of the stride's new image. -/
theorem buildOffset_outer (key : Nat) (g : KeyGen) (r : Nat) (caps : List MergeEnt) (old : Option (Nat × Nat))
    (poisoned resets : List Nat) (b : Build) (o : Nat) :
    outer (buildOffset key g r caps old poisoned resets b o).st = outer b.st := by
  unfold buildOffset
  dsimp only
  split
  · rfl
  split
  · rfl
  split
  · rfl
  split
  · rfl
  next x psa _ _ =>
  have opened := openLine_outer (r * 1024 + o) key x psa 2 0 none b.st
  generalize openLine (r * 1024 + o) key x psa 2 0 none b.st = result at opened ⊢
  obtain ⟨t, res⟩ := result
  cases res <;> exact opened
theorem buildStride_outer (key : Nat) (g : KeyGen) (r : Nat) (caps : List MergeEnt) (old : Option (Nat × Nat))
    (poisoned resets l : List Nat) (b : Build) :
    outer (l.foldl (buildOffset key g r caps old poisoned resets) b).st = outer b.st := by
  induction l generalizing b with
  | nil => rfl
  | cons o l ih => exact (ih _).trans (buildOffset_outer ..)
@[simp] theorem doShoreCapture_spring (s : State) : spring (outer (doShoreCapture s)) = spring (outer s) := by
  fun_cases doShoreCapture s
  case case1 | case2 | case3 | case5 => rfl
  case' case4 x r runs alone g hg rec caps fine poisoned old resets start ahead b bad => skip
  case' case6 x r runs alone g hg rec caps fine poisoned old resets fs start ahead b good hot u v n slot hv w =>
    rw [shoreHot_spring, show outer w = outer b.st by simp [w, u, placeReach_outer hv]]
  all_goals
    rw [show outer b.st = outer start from buildStride_outer ..]
    simp only [start, strideSenses_spring]
    generalize rec = record
    cases record <;> simp

/-! #### Vault -/

@[simp] theorem doKeyInstall_spring (path : Nat) (d : List Byte) (s : State) :
    spring (outer (doKeyInstall path d s)) = spring (outer s) := by
  simp [doKeyInstall]
@[simp] theorem applyInstall_spring (e : LedgerEnt) (s : State) : spring (outer (applyInstall e s)) = spring (outer s) := by
  simp [applyInstall]
@[simp] theorem abortLostJob_spring (i : Nat) (s : State) : spring (outer (abortLostJob i s)) = spring (outer s) := by
  simp [abortLostJob]
@[simp] theorem retirePurge_spring (i : Nat) (s : State) : spring (outer (retirePurge i s).1) = spring (outer s) := by
  simp [retirePurge]
@[simp] theorem retireUnmap_spring (l : List (Nat × Nat)) (s : State) :
    spring (outer (retireUnmap l s).1) = spring (outer s) := by
  simp [retireUnmap]
@[simp] theorem doKeyRetire_spring (path : Nat) (d : List Byte) (s : State) :
    spring (outer (doKeyRetire path d s)) = spring (outer s) := by
  simp only [doKeyRetire]
  (repeat' split) <;> simp
@[simp] theorem applyRetire_spring (e : LedgerEnt) (s : State) : spring (outer (applyRetire e s)) = spring (outer s) := by
  simp [applyRetire]
@[simp] theorem keyStep_spring (path op step : Nat) (s : State) :
    spring (outer (keyStep path op step s)) = spring (outer s) := by
  fun_cases keyStep path op step s <;> simp +zetaDelta
@[simp] theorem keyFail_spring (path op code : Nat) (s : State) :
    spring (outer (keyFail path op code s)) = spring (outer s) := by
  fun_cases keyFail path op code s <;> simp +zetaDelta
@[simp] theorem markLost_spring (lseq : Nat) (r : LReplay) : spring (outer (markLost lseq r)) = spring (outer r.st) := by
  simp [markLost]
@[simp] theorem slotsResume_spring (s : State) : spring (outer (slotsResume s)) = spring (outer s) := by simp [slotsResume]
/-- An entry of the ledger. -/
theorem replayEntry_spring (r : LReplay) (e : LedgerEnt) : spring (outer (replayEntry r e).st) = spring (outer r.st) := by
  fun_cases replayEntry r e <;> simp +zetaDelta
theorem replayEntries_spring (l : List LedgerEnt) (r : LReplay) :
    spring (outer (l.foldl replayEntry r).st) = spring (outer r.st) := by
  induction l generalizing r with
  | nil => rfl
  | cons e l ih => exact (ih (replayEntry r e)).trans (replayEntry_spring r e)
@[simp] theorem ledgerReplay_spring (s : State) : spring (outer (ledgerReplay s)) = spring (outer s) := by
  fun_cases ledgerReplay s with
  | case1 k t es r last lost u v w n x =>
    have replayed : spring (outer r.st) = spring (outer s) := replayEntries_spring ..
    have lostMarked : spring (outer u) = spring (outer r.st) := by
      simp only [u]
      generalize lost = first
      cases first <;> simp
    simp [x, w, v, lostMarked, replayed]
@[simp] theorem firstKeys_spring (s : State) : spring (outer (firstKeys s)) = spring (outer s) := by simp [firstKeys]
@[simp] theorem keyRootDone_spring (s : State) : spring (outer (keyRootDone s)) = spring (outer s) := by simp [keyRootDone]
@[simp] theorem rngRetry_spring (ok : Bool) (s : State) : spring (outer (rngRetry ok s)) = spring (outer s) := by
  simp [rngRetry]
@[simp] theorem zpendZero_spring (s : State) : spring (outer (zpendZero s)) = spring (outer s) := by simp [zpendZero]

/-! #### Mgmt -/

@[simp] theorem secureRequired_spring (op : Nat) (s : State) : spring (outer (secureRequired op s)) = spring (outer s) := by
  simp [secureRequired]
@[simp] theorem spdmShow_spring (s : State) : spring (outer (spdmShow s)) = spring (outer s) := by simp [spdmShow]
@[simp] theorem spdmEndAll_spring (s : State) : spring (outer (spdmEndAll s)) = spring (outer s) := by simp [spdmEndAll]
@[simp] theorem endForeground_spring (s : State) : spring (outer (endForeground s)) = spring (outer s) := by
  simp [endForeground]
@[simp] theorem stagingEmpty_spring (s : State) : spring (outer (stagingEmpty s)) = spring (outer s) := by simp [stagingEmpty]
@[simp] theorem restartBegin_spring (cause core : Nat) (s : State) :
    spring (outer (restartBegin cause core s)) = spring (outer s) := by
  simp [restartBegin]
@[simp] theorem coresRun_spring (s : State) : spring (outer (coresRun s)) = spring (outer s) := by simp [coresRun]
@[simp] theorem enterRecovery_spring (cause : Nat) (s : State) : spring (outer (enterRecovery cause s)) = spring (outer s) := by
  simp [enterRecovery]
@[simp] theorem fwRecover_spring (cause : Nat) (s : State) : spring (outer (fwRecover cause s)) = spring (outer s) := by
  simp [fwRecover]
@[simp] theorem restartEnd_spring (reloadOk : Bool) (s : State) :
    spring (outer (restartEnd reloadOk s)) = spring (outer s) := by
  fun_cases restartEnd reloadOk s <;> simp +zetaDelta
@[simp] theorem fetchTrap_spring (core addr cls : Nat) (s : State) :
    spring (outer (fetchTrap core addr cls s)) = spring (outer s) := by
  simp [fetchTrap]
@[simp] theorem doToken_spring (path : Nat) (d : List Byte) (s : State) :
    spring (outer (doToken path d s)) = spring (outer s) := by
  simp [doToken]
@[simp] theorem tokenShow_spring (s : State) : spring (outer (tokenShow s)) = spring (outer s) := by
  fun_cases tokenShow s <;> simp +zetaDelta
@[simp] theorem tokenDrop_spring (why : Nat) (s : State) : spring (outer (tokenDrop why s)) = spring (outer s) := by
  fun_cases tokenDrop why s <;> simp +zetaDelta
@[simp] theorem tokenDone_spring (path : Nat) (s : State) : spring (outer (tokenDone path s)) = spring (outer s) := by
  fun_cases tokenDone path s <;> simp +zetaDelta
@[simp] theorem doResetDevice_spring (path : Nat) (secured : Bool) (d : List Byte) (s : State) :
    spring (outer (doResetDevice path secured d s)) = spring (outer s) := by
  simp [doResetDevice]
@[simp] theorem doCcc_spring (code : Nat) (s : State) : spring (outer (doCcc code s)) = spring (outer s) := by simp [doCcc]
@[simp] theorem doPldm_spring (type c : Nat) (arg : List Byte) (s : State) :
    spring (outer (doPldm type c arg s)) = spring (outer s) := by
  fun_cases doPldm type c arg s <;> simp +zetaDelta
@[simp] theorem putSpdm_spring (path : Nat) (x : Spdm) (s : State) : spring (outer (putSpdm path x s)) = spring (outer s) := by
  simp [putSpdm]
theorem spdmErr_spring (path code : Nat) (handshake : Bool) (give : List Byte → State → State) (s : State)
    (h : ∀ b t, spring (outer (give b t)) = spring (outer t)) :
    spring (outer (spdmErr path code handshake give s)) = spring (outer s) := by
  simp [spdmErr, h]
@[simp] theorem spdmSign_spring (n : Nat) (s : State) : spring (outer (spdmSign n s).1) = spring (outer s) := by simp [spdmSign]
@[simp] theorem doSpdm_spring (path : Nat) (m : List Byte) (s : State) :
    spring (outer (doSpdm path m s)) = spring (outer s) := by
  fun_cases doSpdm path m s <;> simp +zetaDelta [spdmErr_spring]
  case case14 u b hu v sig hv sum => rw [spring_of_fst hv (spdmSign_spring ..), spring_of_fst hu (spring_of_outer (drawBytes_outer ..))]
  case case16 u b hu v sig hv =>
    refine Eq.trans ?_ (spring_of_fst hu (spring_of_outer (drawBytes_outer ..)))
    split at hv
    · exact spring_of_fst hv (spdmSign_spring ..)
    · cases hv; rfl
  case case18 u b hu v dh hv w sig hw id =>
    rw [spring_of_fst hw (spdmSign_spring ..), spring_of_fst hv (spring_of_outer (drawBytes_outer ..)),
      spring_of_fst hu (spring_of_outer (drawBytes_outer ..))]
  case case20 u hu => exact congrArg (fun p => spring (outer p.2)) hu.symm
  case case21 ok u hu _ => exact congrArg (fun p => spring (outer p.2)) hu.symm

/-! #### Flash -/

@[simp] theorem modFlash_spring (f : Flash → Flash) (s : State) (h : ∀ x, (f x).mem = x.mem) :
    spring (outer (modFlash f s)) = spring (outer s) := h s.flash
@[simp] theorem sfSeqErr_spring (s : State) : spring (outer (sfSeqErr s)) = spring (outer s) := by simp [sfSeqErr]
@[simp] theorem sfShow_spring (s : State) : spring (outer (sfShow s)) = spring (outer s) := by simp [sfShow]
@[simp] theorem sfStart_spring (x : SfOp) (fetch : Nat) (s : State) :
    spring (outer (sfStart x fetch s)) = spring (outer s) := by
  have taken (t : State) : spring (outer (modFlash (fun f => if f.op.isSome then { f with nested := some x } else
      { f with op := some x }) t)) = spring (outer t) := modFlash_spring _ _ fun f => by split <;> rfl
  simp [sfStart, taken]
@[simp] theorem sfSuspend_spring (s : State) : spring (outer (sfSuspend s)) = spring (outer s) := by
  fun_cases sfSuspend s <;> simp +zetaDelta
@[simp] theorem sfResume_spring (s : State) : spring (outer (sfResume s)) = spring (outer s) := by simp [sfResume]
@[simp] theorem sfBlank_spring (a : Nat) (s : State) : spring (outer (sfBlank a s)) = spring (outer s) := by simp [sfBlank]
@[simp] theorem sfClear_spring (s : State) : spring (outer (sfClear s)) = spring (outer s) := by simp [sfClear]
@[simp] theorem sfStep_spring (q : SfSeq) (s : State) : spring (outer (sfStep q s)) = spring (outer s) := by simp [sfStep]
@[simp] theorem sfUnlock_spring (core v : Nat) (s : State) : spring (outer (sfUnlock core v s)) = spring (outer s) := by
  fun_cases sfUnlock core v s <;> simp +zetaDelta
@[simp] theorem sfCmd_spring (core v : Nat) (s : State) : spring (outer (sfCmd core v s)) = spring (outer s) := by
  fun_cases sfCmd core v s <;> simp +zetaDelta
@[simp] theorem sfAddr_spring (v : Nat) (s : State) : spring (outer (sfAddr v s)) = spring (outer s) := by
  fun_cases sfAddr v s <;> simp +zetaDelta
@[simp] theorem sfLo_spring (v : Nat) (s : State) : spring (outer (sfLo v s)) = spring (outer s) := by
  fun_cases sfLo v s <;> simp +zetaDelta
@[simp] theorem sfHi_spring (v fetch : Nat) (s : State) : spring (outer (sfHi v fetch s)) = spring (outer s) := by
  fun_cases sfHi v fetch s <;> simp +zetaDelta
theorem sfReadNow_spring {a : Nat} {s t : State} (h : sfReadNow a s = some t) : spring (outer t) = spring (outer s) := by
  revert h
  fun_cases sfReadNow a s <;> intro h <;> cases h <;> simp +zetaDelta
@[simp] theorem sfRead_spring (a : Nat) (s : State) : spring (outer (sfRead a s)) = spring (outer s) := by
  unfold sfRead
  exact spring_if rfl (getD_spring rfl fun t h => sfReadNow_spring h)
@[simp] theorem sfServe_spring (s : State) : spring (outer (sfServe s)) = spring (outer s) := by simp [sfServe]
@[simp] theorem sfWrite_spring (core reg_ : Nat) (v : BitVec 32) (fetch : Nat) (s : State) :
    spring (outer (sfWrite core reg_ v fetch s)) = spring (outer s) := by
  simp [sfWrite]
@[simp] theorem sfCorrected_spring (addr : Nat) (s : State) : spring (outer (sfCorrected addr s)) = spring (outer s) := by
  simp [sfCorrected]

/-! #### Fw -/

@[simp] theorem fwOwn_spring (path : Nat) (s : State) : spring (outer (fwOwn path s)) = spring (outer s) := by simp [fwOwn]
@[simp] theorem fwDisown_spring (s : State) : spring (outer (fwDisown s)) = spring (outer s) := by simp [fwDisown]
@[simp] theorem fwTouch_spring (path : Nat) (s : State) : spring (outer (fwTouch path s)) = spring (outer s) := by
  simp [fwTouch]
@[simp] theorem fwErr_spring (reason : Nat) (s : State) : spring (outer (fwErr reason s)) = spring (outer s) := by simp [fwErr]
@[simp] theorem fwStart_spring (path : Nat) (s : State) : spring (outer (fwStart path s)) = spring (outer s) := by
  simp [fwStart]
@[simp] theorem fwVerify_spring (path : Nat) (s : State) : spring (outer (fwVerify path s).1) = spring (outer s) := by
  fun_cases fwVerify path s <;> simp +zetaDelta
@[simp] theorem doFwVerify_spring (path : Nat) (d : List Byte) (s : State) :
    spring (outer (doFwVerify path d s)) = spring (outer s) := by
  simp [doFwVerify]
@[simp] theorem fwActivate_spring (path mode : Nat) (s : State) :
    spring (outer (fwActivate path mode s)) = spring (outer s) := by
  fun_cases fwActivate path mode s <;> simp +zetaDelta
@[simp] theorem doFwActivate_spring (path : Nat) (d : List Byte) (s : State) :
    spring (outer (doFwActivate path d s)) = spring (outer s) := by
  simp [doFwActivate]
@[simp] theorem hoArm_spring (s : State) : spring (outer (hoArm s)) = spring (outer s) := by
  fun_cases hoArm s <;> simp +zetaDelta
@[simp] theorem fwArmed_spring (path mode : Nat) (s : State) : spring (outer (fwArmed path mode s)) = spring (outer s) := by
  fun_cases fwArmed path mode s <;> simp +zetaDelta
@[simp] theorem fwMigrate_spring (s : State) : spring (outer (fwMigrate s)) = spring (outer s) := by
  fun_cases fwMigrate s <;> simp +zetaDelta
@[simp] theorem fwDefaulted_spring (s : State) : spring (outer (fwDefaulted s)) = spring (outer s) := by
  fun_cases fwDefaulted s <;> simp +zetaDelta
@[simp] theorem fwConfirmed_spring (s : State) : spring (outer (fwConfirmed s)) = spring (outer s) := by simp [fwConfirmed]
@[simp] theorem fwFallback_spring (cause : Nat) (s : State) : spring (outer (fwFallback cause s)) = spring (outer s) := by
  simp [fwFallback]
@[simp] theorem fwSwitch_spring (s : State) : spring (outer (fwSwitch s)) = spring (outer s) := by
  simp only [fwSwitch]
  (repeat' split) <;> simp
@[simp] theorem fwEpoch_spring (s : State) : spring (outer (fwEpoch s)) = spring (outer s) := by simp [fwEpoch]
@[simp] theorem doFwConfirm_spring (path : Nat) (d : List Byte) (s : State) :
    spring (outer (doFwConfirm path d s)) = spring (outer s) := by
  simp [doFwConfirm]
@[simp] theorem fwFloorDone_spring (path old new : Nat) (s : State) :
    spring (outer (fwFloorDone path old new s)) = spring (outer s) := by
  simp [fwFloorDone]
@[simp] theorem fwRun_spring (slot : Nat) (s : State) : spring (outer (fwRun slot s)) = spring (outer s) := by simp [fwRun]
@[simp] theorem fwTry_spring (slot : Nat) (s : State) : spring (outer (fwTry slot s)) = spring (outer s) := by simp [fwTry]
@[simp] theorem fwBoot_spring (s : State) : spring (outer (fwBoot s)) = spring (outer s) := by simp [fwBoot]
@[simp] theorem pldm5_spring (c : Nat) (b : List Byte) (s : State) : spring (outer (pldm5 c b s)) = spring (outer s) := by
  simp [pldm5]
@[simp] theorem putPldm_spring (n : Nat) (s : State) : spring (outer (putPldm n s)) = spring (outer s) := by simp [putPldm]

/-! #### Memp -/

@[simp] theorem stuckBit_spring (cls inst word bit_ : Nat) (s : State) :
    spring (outer (stuckBit cls inst word bit_ s)) = spring (outer s) := by
  fun_cases stuckBit cls inst word bit_ s <;> simp +zetaDelta

/-! #### Gauge -/

@[simp] theorem gDirectory_spring (s : State) : spring (outer (gDirectory s)) = spring (outer s) := by simp [gDirectory]
@[simp] theorem gWrite_spring (b : Nat) (v : GBlock) (s : State) : spring (outer (gWrite b v s).1) = spring (outer s) := by
  fun_cases gWrite b v s <;> simp +zetaDelta
@[simp] theorem gWriteCopy_spring (a fmt : Nat) (p : GPayload) (s : State) :
    spring (outer (gWriteCopy a fmt p s).1) = spring (outer s) := by
  simp [gWriteCopy]
@[simp] theorem gProgram_spring (b i : Nat) (f : Tally → Tally) (s : State) :
    spring (outer (gProgram b i f s)) = spring (outer s) := by
  fun_cases gProgram b i f s <;> simp +zetaDelta
@[simp] theorem gClear_spring (b i : Nat) (s : State) : spring (outer (gClear b i s).1) = spring (outer s) := by simp [gClear]
@[simp] theorem gPutHigh_spring (c : Ctr) (h : High) (s : State) : spring (outer (gPutHigh c h s).1) = spring (outer s) := by
  simp [gPutHigh]
@[simp] theorem gCarryOn_spring (c : Ctr) (s : State) : spring (outer (gCarryOn c s).1) = spring (outer s) := by
  fun_cases gCarryOn c s <;> simp +zetaDelta
@[simp] theorem gOpStep_spring (op : GOp) (phase : Nat) (s : State) :
    spring (outer (gOpStep op phase s).1) = spring (outer s) := by
  fun_cases gOpStep op phase s <;> simp +zetaDelta
@[simp] theorem gImage_spring (op : GOp) (s : State) : spring (outer (gImage op s)) = spring (outer s) := by
  fun_cases gImage op s <;> simp +zetaDelta
@[simp] theorem gWriteEnd_spring (torn : Bool) (s : State) : spring (outer (gWriteEnd torn s).1) = spring (outer s) := by
  simp only [gWriteEnd]
  (repeat' split) <;> simp
@[simp] theorem gHoldReport_spring (s : State) : spring (outer (gHoldReport s)) = spring (outer s) := by
  fun_cases gHoldReport s <;> simp +zetaDelta
@[simp] theorem doWithdraw_spring (path : Nat) (s : State) : spring (outer (doWithdraw path s)) = spring (outer s) := by
  fun_cases doWithdraw path s <;> simp +zetaDelta
@[simp] theorem doParamWrite_spring (path : Nat) (secured : Bool) (d : List Byte) (s : State) :
    spring (outer (doParamWrite path secured d s)) = spring (outer s) := by
  simp [doParamWrite]
@[simp] theorem paramDone_spring (path n : Nat) (ok : Bool) (s : State) :
    spring (outer (paramDone path n ok s)) = spring (outer s) := by
  simp [paramDone]
@[simp] theorem gResolve_spring (s : State) : spring (outer (gResolve s)) = spring (outer s) := by simp [gResolve]
@[simp] theorem gRedo_spring (c : Ctr) (s : State) : spring (outer (gRedo c s)) = spring (outer s) := by simp [gRedo]
@[simp] theorem gRecover_spring (s : State) : spring (outer (gRecover s)) = spring (outer s) := by simp [gRecover]

/-! #### SedRegion -/

@[simp] theorem sedPlace_spring (r : SedRec) (s : State) : spring (outer (sedPlace r s)) = spring (outer s) := by
  fun_cases sedPlace r s <;> simp +zetaDelta
@[simp] theorem sedRingOut_spring (s : State) : spring (outer (sedRingOut s)) = spring (outer s) := by
  fun_cases sedRingOut s with
  | case1 => rfl
  | case2 h t l u lines =>
    have reported : spring (outer t) = spring (outer s) := by
      simp [t]
    have placed : spring (outer u) = spring (outer t) := forEach_spring _ _ _ fun e v => by
      dsimp only
      split <;> simp
    exact placed.trans reported

/-! #### Lifecycle -/

@[simp] theorem chalDraw_spring (s : State) : spring (outer (chalDraw s)) = spring (outer s) := by simp [chalDraw]
@[simp] theorem doAdvance_spring (path : Nat) (secured : Bool) (d : List Byte) (s : State) :
    spring (outer (doAdvance path secured d s)) = spring (outer s) := by
  simp [doAdvance]
@[simp] theorem advAt_spring (n : Nat) (s : State) : spring (outer (advAt n s)) = spring (outer s) := by
  fun_cases advAt n s <;> simp +zetaDelta
@[simp] theorem doAdvanceRun_spring (s : State) : spring (outer (doAdvanceRun s)) = spring (outer s) := by
  fun_cases doAdvanceRun s <;> simp +zetaDelta
@[simp] theorem advEnd_spring (path code : Nat) (s : State) : spring (outer (advEnd path code s)) = spring (outer s) := by
  simp [advEnd]
@[simp] theorem daLeave_spring (s : State) : spring (outer (daLeave s)) = spring (outer s) := by simp [daLeave]
@[simp] theorem retireErase_spring (s : State) : spring (outer (retireErase s).1) = spring (outer s) := by simp [retireErase]
@[simp] theorem retireWrites_spring (s : State) : spring (outer (retireWrites s)) = spring (outer s) := by simp [retireWrites]
@[simp] theorem advCommitted_spring (t : Nat) (kek0 : BitVec 256) (s : State) :
    spring (outer (advCommitted t kek0 s)) = spring (outer s) := by
  simp [advCommitted]
@[simp] theorem advanceStep_spring (step : Nat) (ok : Bool) (s : State) :
    spring (outer (advanceStep step ok s)) = spring (outer s) := by
  fun_cases advanceStep step ok s <;> simp +zetaDelta
@[simp] theorem retireRedo_spring (s : State) : spring (outer (retireRedo s)) = spring (outer s) := by simp [retireRedo]
@[simp] theorem blankDiscard_spring (s : State) : spring (outer (blankDiscard s)) = spring (outer s) := by simp [blankDiscard]

/-! #### Narrows -/

@[simp] theorem doGroupSet_spring (path : Nat) (d : List Byte) (s : State) :
    spring (outer (doGroupSet path d s)) = spring (outer s) := by
  simp [doGroupSet]
@[simp] theorem groupDone_spring (path act : Nat) (ok : Bool) (s : State) :
    spring (outer (groupDone path act ok s)) = spring (outer s) := by
  simp [groupDone]
@[simp] theorem nrwStart_spring (image : List Byte) (s : State) : spring (outer (nrwStart image s)) = spring (outer s) := by
  fun_cases nrwStart image s <;> simp +zetaDelta
@[simp] theorem nrwLeave_spring (s : State) : spring (outer (nrwLeave s)) = spring (outer s) := by simp [nrwLeave]
@[simp] theorem nrwRest_spring (s : State) : spring (outer (nrwRest s)) = spring (outer s) := by simp [nrwRest]
@[simp] theorem nrwFlushStop_spring (s : State) : spring (outer (nrwFlushStop s)) = spring (outer s) := by simp [nrwFlushStop]
@[simp] theorem nrwFlushSync_spring (clean : Bool) (s : State) : spring (outer (nrwFlushSync clean s)) = spring (outer s) := by
  simp [nrwFlushSync]

/-! #### Observe -/

@[simp] theorem epochLatch_spring (s : State) : spring (outer (epochLatch s)) = spring (outer s) := by simp [epochLatch]
@[simp] theorem plumbBoundary_spring (s : State) : spring (outer (plumbBoundary s)) = spring (outer s) := by
  have written (l : List (Nat × BitVec 32)) (t : State) :
      outer (l.foldl (fun s e => s.putReg e.1 e.2) t) = outer t := by
    induction l generalizing t with
    | nil => rfl
    | cons e l ih => exact (ih _).trans (putReg_outer ..)
  simp only [plumbBoundary]
  refine spring_if ?_ ?_
  · simp only [sed_outer, plumbReload_outer, modObs_outer]
    split <;> simp [written]
  · split <;> simp [written]
@[simp] theorem queueFrames_spring (s : State) : spring (outer (queueFrames s)) = spring (outer s) := by simp [queueFrames]
@[simp] theorem sndBoundary_spring (s : State) : spring (outer (sndBoundary s)) = spring (outer s) := by simp [sndBoundary]
@[simp] theorem sndEpoch_spring (s : State) : spring (outer (sndEpoch s)) = spring (outer s) := by simp [sndEpoch]
@[simp] theorem levelBoundary_spring (s : State) : spring (outer (levelBoundary s)) = spring (outer s) := by
  simp [levelBoundary]

/-! #### Conts -/

@[simp] theorem contRun_spring (k : Cont) (ok : Bool) (s : State) : spring (outer (contRun k ok s)) = spring (outer s) := by
  fun_cases contRun k ok s <;> simp +zetaDelta
@[simp] theorem gDone_spring (torn : Bool) (s : State) : spring (outer (gDone torn s)) = spring (outer s) := by
  simp only [gDone]
  (repeat' split) <;> simp
@[simp] theorem gRun_spring (fuel : Nat) (s : State) : spring (outer (gRun fuel s)) = spring (outer s) := by
  fun_induction gRun fuel s <;> simp +zetaDelta [*]

/-! #### Drain -/

@[simp] theorem progNow_spring (k : Nat) (p : Prog) (s : State) : spring (outer (progNow k p s)) = spring (outer s) := by
  simp [progNow]
@[simp] theorem endOps_spring (erases : Bool) (k : Nat) (s : State) :
    spring (outer (endOps erases k s)) = spring (outer s) := by
  simp only [endOps]
  (repeat' split) <;> simp
@[simp] theorem progQueue_spring (k : Nat) (s : State) : spring (outer (progQueue k s)) = spring (outer s) := by
  simp [progQueue]
@[simp] theorem progAll_spring (s : State) : spring (outer (progAll s)) = spring (outer s) := by simp [progAll]
@[simp] theorem eraseAllDies_spring (s : State) : spring (outer (eraseAllDies s)) = spring (outer s) := by simp [eraseAllDies]
@[simp] theorem fillsNow_spring (s : State) : spring (outer (fillsNow s)) = spring (outer s) :=
  forEach_spring _ _ _ fun line t => by
    simp only [fillReturn_outer]
    split <;> simp
@[simp] theorem remacNow_spring (s : State) : spring (outer (remacNow s)) = spring (outer s) := by simp [remacNow]
@[simp] theorem sealsNow_spring (s : State) : spring (outer (sealsNow s)) = spring (outer s) := by simp [sealsNow]
@[simp] theorem placeNow_spring (s : State) : spring (outer (placeNow s)) = spring (outer s) := by simp [placeNow]
@[simp] theorem cleanNow_spring (s : State) : spring (outer (cleanNow s)) = spring (outer s) :=
  forEach_spring _ _ _ fun e t => by
    split <;> simp
@[simp] theorem drainPass_spring (s : State) : spring (outer (drainPass s)) = spring (outer s) := by simp [drainPass]
@[simp] theorem sedFlush_spring (s : State) : spring (outer (sedFlush s)) = spring (outer s) := by simp [sedFlush]
@[simp] theorem sedFlushNow_spring (s : State) : spring (outer (sedFlushNow s)) = spring (outer s) := by simp [sedFlushNow]
@[simp] theorem drainData_spring (fuel : Nat) (s : State) : spring (outer (drainData fuel s)) = spring (outer s) := by
  fun_induction drainData fuel s <;> simp +zetaDelta [*]
@[simp] theorem drainTree_spring (s : State) : spring (outer (drainTree s)) = spring (outer s) := by simp [drainTree]
@[simp] theorem dropDeeps_spring (s : State) : spring (outer (dropDeeps s)) = spring (outer s) := by simp [dropDeeps]
@[simp] theorem drainAbandon_spring (s : State) : spring (outer (drainAbandon s)) = spring (outer s) := by simp [drainAbandon]
@[simp] theorem fillOpen_spring (s : State) : spring (outer (fillOpen s)) = spring (outer s) := by simp [fillOpen]
@[simp] theorem drainPages_spring (fuel : Nat) (s : State) : spring (outer (drainPages fuel s)) = spring (outer s) := by
  fun_induction drainPages fuel s <;> simp +zetaDelta [*]
@[simp] theorem drainMtl_spring (s : State) : spring (outer (drainMtl s)) = spring (outer s) := by simp [drainMtl]
@[simp] theorem drain_spring (s : State) : spring (outer (drain s)) = spring (outer s) := by simp [drain]

/-! #### Boot -/

@[simp] theorem domainsReset_spring (s : State) : spring (outer (domainsReset s)) = spring (outer s) := by simp [domainsReset]
@[simp] theorem ndxAdopt_spring (c : ImageCfg) (slot : Nat) (s : State) :
    spring (outer (ndxAdopt c slot s)) = spring (outer s) := by
  simp [ndxAdopt]
@[simp] theorem ndxFloorRedo_spring (c : ImageCfg) (s : State) : spring (outer (ndxFloorRedo c s)) = spring (outer s) := by
  simp [ndxFloorRedo]
@[simp] theorem railCopyRedo_spring (c : ImageCfg) (s : State) : spring (outer (railCopyRedo c s)) = spring (outer s) := by
  simp [railCopyRedo]
@[simp] theorem ndxBootErr_spring (slot : Nat) (e : NdxErr) (s : State) :
    spring (outer (ndxBootErr slot e s)) = spring (outer s) := by
  simp [ndxBootErr]
@[simp] theorem ndxBoot_spring (s : State) : spring (outer (ndxBoot s)) = spring (outer s) := by
  fun_cases ndxBoot s <;> simp +zetaDelta
@[simp] theorem seedSlices_spring (s : State) : spring (outer (seedSlices s)) = spring (outer s) :=
  forEach_spring _ _ _ fun n t => by
    simp only [modSlice_outer, apply_ite Prod.snd]
    exact spring_if rfl (spring_if rfl (spring_of_outer (draw_outer ..)))
@[simp] theorem channelsUp_spring (trained silent : List Nat) (s : State) :
    spring (outer (channelsUp trained silent s)) = spring (outer s) := by
  simp [channelsUp]
@[simp] theorem shoreResume_spring (s : State) : spring (outer (shoreResume s)) = spring (outer s) := by
  fun_cases shoreResume s <;> simp +zetaDelta
@[simp] theorem leaveBoot_spring (s : State) : spring (outer (leaveBoot s)) = spring (outer s) := by simp [leaveBoot]
@[simp] theorem bootRun_spring (trained silent : List Nat) (rngOk : Bool) (s : State) :
    spring (outer (bootRun trained silent rngOk s)) = spring (outer s) := by
  simp [bootRun]
@[simp] theorem doBoot_spring (trained silent : List Nat) (rngOk : Bool) (s : State) :
    spring (outer (doBoot trained silent rngOk s)) = spring (outer s) := by
  simp [doBoot]
@[simp] theorem doMemActive_spring (s : State) : spring (outer (doMemActive s)) = spring (outer s) := by simp [doMemActive]

/-! #### Power -/

@[simp] theorem modPwr_spring (f : Power → Power) (s : State) : spring (outer (modPwr f s)) = spring (outer s) := by
  simp [modPwr]
@[simp] theorem idleEnter_spring (cause : Nat) (s : State) : spring (outer (idleEnter cause s)) = spring (outer s) := by
  simp only [idleEnter]
  (repeat' split) <;> simp
@[simp] theorem idleBoundary_spring (s : State) : spring (outer (idleBoundary s)) = spring (outer s) := by
  fun_cases idleBoundary s <;> simp +zetaDelta
@[simp] theorem entryStart_spring (path target : Nat) (s : State) :
    spring (outer (entryStart path target s)) = spring (outer s) := by
  simp [entryStart]
@[simp] theorem pwrGo_spring (path target : Nat) (s : State) : spring (outer (pwrGo path target s)) = spring (outer s) := by
  simp [pwrGo]
@[simp] theorem doPwrReq_spring (path target : Nat) (inp : List Byte) (s : State) :
    spring (outer (doPwrReq path target inp s)) = spring (outer s) := by
  simp [doPwrReq]
@[simp] theorem entryAbandon_spring (cause unit : Nat) (s : State) :
    spring (outer (entryAbandon cause unit s)) = spring (outer s) := by
  fun_cases entryAbandon cause unit s <;> simp +zetaDelta
@[simp] theorem entryCut_spring (cause : Nat) (s : State) : spring (outer (entryCut cause s)) = spring (outer s) := by
  fun_cases entryCut cause s <;> simp +zetaDelta
@[simp] theorem entryWake_spring (s : State) : spring (outer (entryWake s)) = spring (outer s) := by
  fun_cases entryWake s <;> simp +zetaDelta
@[simp] theorem doEntryTimeout_spring (unit : Nat) (s : State) : spring (outer (doEntryTimeout unit s)) = spring (outer s) := by
  fun_cases doEntryTimeout unit s <;> simp +zetaDelta
@[simp] theorem shadowRoot_spring (clean : Bool) (s : State) : spring (outer (shadowRoot clean s)) = spring (outer s) := by
  simp [shadowRoot]
@[simp] theorem unitStops_spring (e : Entry) (u : Nat) (s : State) : spring (outer (unitStops e u s).1) = spring (outer s) := by
  fun_cases unitStops e u s <;> simp +zetaDelta
@[simp] theorem sleepReached_spring (e : Entry) (s : State) : spring (outer (sleepReached e s)) = spring (outer s) := by
  simp [sleepReached]
@[simp] theorem agreed_spring (u : Nat) (s : State) : spring (outer (agreed u s)) = spring (outer s) := by
  fun_cases agreed u s <;> simp +zetaDelta
@[simp] theorem doUnitAgree_spring (unit : Nat) (busy : Bool) (s : State) :
    spring (outer (doUnitAgree unit busy s)) = spring (outer s) := by
  simp only [doUnitAgree]
  (repeat' split) <;> simp
@[simp] theorem deepLoss_spring (s : State) : spring (outer (deepLoss s)) = spring (outer s) := by simp [deepLoss]
@[simp] theorem doSign_spring (crcs : List (BitVec 32)) (s : State) : spring (outer (doSign crcs s)) = spring (outer s) := by
  fun_cases doSign crcs s <;> simp +zetaDelta
@[simp] theorem recoverAgain_spring (s : State) : spring (outer (recoverAgain s)) = spring (outer s) := by simp [recoverAgain]
@[simp] theorem rebuildBank_spring (b : Nat) (other : Bool) (s : State) :
    spring (outer (rebuildBank b other s)) = spring (outer s) := by
  simp only [rebuildBank]
  (repeat' split) <;> simp
@[simp] theorem bankCheck_spring (crcs : List (BitVec 32)) (s : State) :
    spring (outer (bankCheck crcs s)) = spring (outer s) := by
  simp [bankCheck]
@[simp] theorem bufferToRing_spring (s : State) : spring (outer (bufferToRing s)) = spring (outer s) :=
  (forEach_spring _ _ _ fun r t => by
    dsimp only
    split <;> simp).trans rfl
@[simp] theorem doWake_spring (crcs : List (BitVec 32)) (s : State) : spring (outer (doWake crcs s)) = spring (outer s) := by
  fun_cases doWake crcs s <;> simp +zetaDelta

/-! #### Flush -/

@[simp] theorem modSup_spring (f : Sup → Sup) (s : State) : spring (outer (modSup f s)) = spring (outer s) := by simp [modSup]
@[simp] theorem chargeEval_spring (s : State) : spring (outer (chargeEval s)) = spring (outer s) := by simp [chargeEval]
@[simp] theorem vinSeen_spring (v : Nat) (s : State) : spring (outer (vinSeen v s)) = spring (outer s) := by simp [vinSeen]
@[simp] theorem putSnap_spring (x : SupSnap) (s : State) : spring (outer (putSnap x s)) = spring (outer s) := by simp [putSnap]
@[simp] theorem flushDrive_spring (fuel h : Nat) (s : State) : spring (outer (flushDrive fuel h s)) = spring (outer s) := by
  fun_induction flushDrive fuel h s <;> simp +zetaDelta [*]
@[simp] theorem flushHead_spring (h : Nat) (p : State × Nat × Nat × Nat) :
    spring (outer (flushHead h p).1) = spring (outer p.1) := by
  simp [flushHead]
@[simp] theorem flushReplicas_spring (fuel : Nat) (p : State × Nat) :
    spring (outer (flushReplicas fuel p).1) = spring (outer p.1) := by
  have read {s t : State} {x : Option (Nat × QEntry)} (h : replicaRead s = (t, x)) : spring (outer t) = spring (outer s) :=
    spring_of_fst h (spring_of_outer (replicaRead_outer ..))
  fun_induction flushReplicas fuel p with
  | case1 => rfl
  | case2 p n s h => exact read h
  | case3 p n s l e h kind ih => simp [ih, read h]
  | case4 p n s l e h kind ih => simp [ih, read h]
  | case5 p n s l e h full notRelease notBitmap ih => simp [ih, read h]
  | case6 p n s l e h room notRelease notBitmap ih => simp [ih, read h]
@[simp] theorem flushFabric_spring (s : State) : spring (outer (flushFabric s)) = spring (outer s) := by
  simp only [flushFabric, sed_outer, removeEntries_outer, flushReplicas_spring]
  exact foldl_fst_spring _ _ _ fun p h => flushHead_spring h p
@[simp] theorem flushSeal_spring (s : State) : spring (outer (flushSeal s)) = spring (outer s) := by
  simp only [flushSeal]
  refine (forEach_spring _ _ _ fun e t => forEach_spring _ _ _ fun i u => ?_).trans ?_
  · simp
  · simp
@[simp] theorem flushMovers_spring (s : State) : spring (outer (flushMovers s)) = spring (outer s) := by simp [flushMovers]
@[simp] theorem flushLcmds_spring (s : State) : spring (outer (flushLcmds s)) = spring (outer s) := by simp [flushLcmds]
@[simp] theorem flushFw_spring (s : State) : spring (outer (flushFw s)) = spring (outer s) := by simp [flushFw]
@[simp] theorem flushCore_spring (s : State) : spring (outer (flushCore s)) = spring (outer s) := by simp [flushCore]
@[simp] theorem flushPower_spring (s : State) : spring (outer (flushPower s)) = spring (outer s) := by simp [flushPower]
@[simp] theorem flushCut_spring (s : State) : spring (outer (flushCut s)) = spring (outer s) := by
  fun_cases flushCut s <;> simp +zetaDelta
@[simp] theorem downEnd_spring (s : State) : spring (outer (downEnd s)) = spring (outer s) := by simp [downEnd]
@[simp] theorem disable_spring (l : List Nat) (s : State) : spring (outer (disable l s)) = spring (outer s) := by simp [disable]
@[simp] theorem downStep_spring (fuel n : Nat) (s : State) : spring (outer (downStep fuel n s)) = spring (outer s) := by
  fun_induction downStep fuel n s <;> simp +zetaDelta [*]
@[simp] theorem reverseStep_spring (fuel : Nat) (s : State) : spring (outer (reverseStep fuel s)) = spring (outer s) := by
  fun_induction reverseStep fuel s <;> simp +zetaDelta [*]
@[simp] theorem domainsDown_spring (s : State) : spring (outer (domainsDown s)) = spring (outer s) := by simp [domainsDown]
@[simp] theorem goDown_spring (s : State) : spring (outer (goDown s)) = spring (outer s) := by simp [goDown]
@[simp] theorem upCancel_spring (s : State) : spring (outer (upCancel s)) = spring (outer s) := by simp [upCancel]
@[simp] theorem releaseT0_spring (s : State) : spring (outer (releaseT0 s)) = spring (outer s) := by simp [releaseT0]
@[simp] theorem upDone_spring (s : State) : spring (outer (upDone s)) = spring (outer s) := by simp [upDone]
@[simp] theorem upStep_spring (fuel n : Nat) (s : State) : spring (outer (upStep fuel n s)) = spring (outer s) := by
  fun_induction upStep fuel n s <;> simp +zetaDelta [*]
@[simp] theorem upNext_spring (s : State) : spring (outer (upNext s)) = spring (outer s) := by simp [upNext]
@[simp] theorem upStart_spring (s : State) : spring (outer (upStart s)) = spring (outer s) := by simp [upStart]
@[simp] theorem deviceReset_spring (cause dur : Nat) (s : State) :
    spring (outer (deviceReset cause dur s)) = spring (outer s) := by
  simp [deviceReset]
@[simp] theorem rideThrough_spring (f : Flush) (s : State) : spring (outer (rideThrough f s)) = spring (outer s) := by
  simp [rideThrough]
@[simp] theorem flushEnd_spring (f : Flush) (s : State) : spring (outer (flushEnd f s)) = spring (outer s) := by
  fun_cases flushEnd f s <;> simp +zetaDelta
@[simp] theorem flushClose_spring (f : Flush) (s : State) : spring (outer (flushClose f s)) = spring (outer s) := by
  simp [flushClose]
@[simp] theorem doFlushDone_spring (vinOk : Bool) (dur : Nat) (s : State) :
    spring (outer (doFlushDone vinOk dur s)) = spring (outer s) := by
  fun_cases doFlushDone vinOk dur s <;> simp +zetaDelta
@[simp] theorem doFlushIncomplete_spring (why : Nat) (s : State) :
    spring (outer (doFlushIncomplete why s)) = spring (outer s) := by
  fun_cases doFlushIncomplete why s <;> simp +zetaDelta

/-! #### Supervisor -/

@[simp] theorem aonStart_spring (s : State) : spring (outer (aonStart s)) = spring (outer s) := by simp [aonStart]
@[simp] theorem doAonRelease_spring (straps : Nat) (s : State) : spring (outer (doAonRelease straps s)) = spring (outer s) := by
  simp [doAonRelease]
@[simp] theorem doVauxPor_spring (s : State) : spring (outer (doVauxPor s)) = spring (outer s) := by simp [doVauxPor]
@[simp] theorem doVauxLoss_spring (s : State) : spring (outer (doVauxLoss s)) = spring (outer s) := by simp [doVauxLoss]
@[simp] theorem doUpStart_spring (s : State) : spring (outer (doUpStart s)) = spring (outer s) := by simp [doUpStart]
@[simp] theorem doStepDone_spring (pg : BitVec 10) (s : State) : spring (outer (doStepDone pg s)) = spring (outer s) := by
  fun_cases doStepDone pg s <;> simp +zetaDelta
@[simp] theorem doPgTimeout_spring (rail : Nat) (s : State) : spring (outer (doPgTimeout rail s)) = spring (outer s) := by
  simp [doPgTimeout]
@[simp] theorem doDischarge_spring (left : BitVec 10) (s : State) : spring (outer (doDischarge left s)) = spring (outer s) := by
  simp [doDischarge]
@[simp] theorem doOnRequest_spring (src : Nat) (s : State) : spring (outer (doOnRequest src s)) = spring (outer s) := by
  simp [doOnRequest]
@[simp] theorem seicheFault_spring (cause : Nat) (s : State) : spring (outer (seicheFault cause s)) = spring (outer s) := by
  fun_cases seicheFault cause s <;> simp +zetaDelta
@[simp] theorem seicheLeave_spring (s : State) : spring (outer (seicheLeave s)) = spring (outer s) := by simp [seicheLeave]
@[simp] theorem doGuardEnter_spring (vin : Nat) (s : State) : spring (outer (doGuardEnter vin s)) = spring (outer s) := by
  fun_cases doGuardEnter vin s <;> simp +zetaDelta
@[simp] theorem doGuardEnd_spring (vin : Nat) (s : State) : spring (outer (doGuardEnd vin s)) = spring (outer s) := by
  simp [doGuardEnd]
@[simp] theorem resFault_spring (code v : Nat) (s : State) : spring (outer (resFault code v s)) = spring (outer s) := by
  simp [resFault]
@[simp] theorem testStart_spring (s : State) : spring (outer (testStart s)) = spring (outer s) := by simp [testStart]
@[simp] theorem doResCharged_spring (ms : Nat) (s : State) : spring (outer (doResCharged ms s)) = spring (outer s) := by
  simp [doResCharged]
@[simp] theorem doResTest_spring (cEff esr : Nat) (s : State) : spring (outer (doResTest cEff esr s)) = spring (outer s) := by
  simp [doResTest]
@[simp] theorem doSupWrite_spring (path addr : Nat) (v : BitVec 32) (s : State) :
    spring (outer (doSupWrite path addr v s)) = spring (outer s) := by
  simp [doSupWrite]

/-! #### Thermal -/

@[simp] theorem modTherm_spring (f : Therm → Therm) (s : State) : spring (outer (modTherm f s)) = spring (outer s) := by
  simp [modTherm]
@[simp] theorem senseCheck_spring (n : Nat) (v : ℤ) (s : State) : spring (outer (senseCheck n v s)) = spring (outer s) := by
  simp [senseCheck]
@[simp] theorem takeReadings_spring (raw : List ℤ) (valid : List Bool) (s : State) :
    spring (outer (takeReadings raw valid s)) = spring (outer s) := by
  simp [takeReadings]
@[simp] theorem sayLevel_spring (g old new : Nat) (v : ℤ) (s : State) :
    spring (outer (sayLevel g old new v s)) = spring (outer s) := by
  simp [sayLevel]
@[simp] theorem levelsRound_spring (s : State) : spring (outer (levelsRound s)) = spring (outer s) := by simp [levelsRound]
@[simp] theorem windowsRound_spring (s : State) : spring (outer (windowsRound s)) = spring (outer s) := by
  unfold windowsRound
  extract_lets t h u old
  have windows : spring (outer u) = spring (outer s) := forEach_spring _ _ _ fun n t => by
    split
    · rfl
    · exact spring_if rfl (by simp)
  refine Eq.trans ?_ windows
  split
  · rfl
  · exact spring_if rfl (by simp)
@[simp] theorem budgetRound_spring (s : State) : spring (outer (budgetRound s)) = spring (outer s) := by simp [budgetRound]
@[simp] theorem crossings_spring (s : State) : spring (outer (crossings s)) = spring (outer s) :=
  forEach_spring _ _ _ fun id t => by
    refine spring_if rfl ?_
    dsimp only
    split <;> simp
@[simp] theorem roundCount_spring (s : State) : spring (outer (roundCount s)) = spring (outer s) := by simp [roundCount]

/-! #### Jtag -/

theorem testInstr_spring (code : Nat) (driving highz : Bool) (f : State → State) (s : State)
    (h : ∀ t, spring (outer (f t)) = spring (outer t)) : spring (outer (testInstr code driving highz f s)) = spring (outer s) :=
  spring_if rfl (h _)
@[simp] theorem putCells_spring (l : List Bool) (s : State) : spring (outer (putCells l s)) = spring (outer s) := by
  simp [putCells]

/-! #### Scrub -/

@[simp] theorem copyAgain_spring (n slot : Nat) (s : State) : spring (outer (copyAgain n slot s)) = spring (outer s) := by
  fun_cases copyAgain n slot s with
  | case1 mine t u sh v =>
    have folds : spring (outer t) = spring (outer s) := forEach_spring _ _ _ fun f w => by split <;> simp
    have shore : spring (outer v) = spring (outer u) := by
      refine spring_if ?_ rfl
      dsimp only [spring_mk]
      split <;> simp
    exact shore.trans folds
@[simp] theorem relocAgain_spring (n q : Nat) (s : State) : spring (outer (relocAgain n q s)) = spring (outer s) := by
  unfold relocAgain
  split <;> simp
@[simp] theorem slotAgain_spring (n q i : Nat) (e : ManEnt) (s : State) :
    spring (outer (slotAgain n q i e s).1) = spring (outer s) := by
  fun_cases slotAgain n q i e s
  case case1 | case2 | case4 | case8 => simp
  case case3 | case6 | case7 =>
    simp +zetaDelta
    split <;> simp
  case case5 supersede there c cove way room t u k h =>
    simp only [supersede]
    split <;> simp [allocate_outer h, t]
@[simp] theorem wbufUe_spring (ag row : Nat) (s : State) : spring (outer (wbufUe ag row s)) = spring (outer s) := by
  simp only [wbufUe]
  (repeat' split) <;> simp
@[simp] theorem wbufRead_spring (chan die : Nat) (s : State) : spring (outer (wbufRead chan die s)) = spring (outer s) := by
  fun_cases wbufRead chan die s <;> simp +zetaDelta
@[simp] theorem scrubTag_spring (inst row : Nat) (up : Upset) (s : State) :
    spring (outer (scrubTag inst row up s)) = spring (outer s) := by
  simp [scrubTag]
@[simp] theorem scrubBuffer_spring (inst row : Nat) (s : State) :
    spring (outer (scrubBuffer inst row s)) = spring (outer s) := by
  fun_cases scrubBuffer inst row s <;> simp +zetaDelta
@[simp] theorem scrubNode_spring (row : Nat) (both : Bool) (s : State) :
    spring (outer (scrubNode row both s)) = spring (outer s) := by
  fun_cases scrubNode row both s <;> simp +zetaDelta
@[simp] theorem scrubPond_spring (inst row : Nat) (both : Bool) (s : State) :
    spring (outer (scrubPond inst row both s)) = spring (outer s) := by
  fun_cases scrubPond inst row both s <;> simp +zetaDelta
@[simp] theorem scrubUe_spring (cls inst row : Nat) (up : Upset) (s : State) :
    spring (outer (scrubUe cls inst row up s)) = spring (outer s) := by
  simp only [scrubUe]
  (repeat' split) <;> simp
@[simp] theorem scrubCe_spring (cls inst row word : Nat) (stuck : Bool) (s : State) :
    spring (outer (scrubCe cls inst row word stuck s)) = spring (outer s) := by
  simp [scrubCe]
@[simp] theorem doScrubRow_spring (cls inst row : Nat) (up : Upset) (stuck : Bool) (s : State) :
    spring (outer (doScrubRow cls inst row up stuck s)) = spring (outer s) := by
  simp only [doScrubRow]
  (repeat' split) <;> simp

/-! #### Mmio -/

@[simp] theorem readEffect_spring (path a : Nat) (d : RegDesc) (s : State) :
    spring (outer (readEffect path a d s)) = spring (outer s) := by
  simp [readEffect]
@[simp] theorem mmioRead_spring (path a : Nat) (s : State) : spring (outer (mmioRead path a s).2) = spring (outer s) := by
  fun_cases mmioRead path a s <;> simp +zetaDelta
@[simp] theorem plainWrite_spring (path a : Nat) (d : RegDesc) (v : BitVec 32) (s : State) :
    spring (outer (plainWrite path a d v s)) = spring (outer s) := by
  simp [plainWrite]
@[simp] theorem pairWrite_spring (path a : Nat) (d : RegDesc) (v : BitVec 32) (s : State) :
    spring (outer (pairWrite path a d v s)) = spring (outer s) := by
  fun_cases pairWrite path a d v s <;> simp +zetaDelta
@[simp] theorem medCtlWrite_spring (path c : Nat) (v : BitVec 32) (s : State) :
    spring (outer (medCtlWrite path c v s)) = spring (outer s) := by
  simp [medCtlWrite]
@[simp] theorem medRetryWrite_spring (c : Nat) (v : BitVec 32) (s : State) :
    spring (outer (medRetryWrite c v s)) = spring (outer s) := by
  simp [medRetryWrite]
@[simp] theorem mtlCtlWrite_spring (v : BitVec 32) (s : State) : spring (outer (mtlCtlWrite v s)) = spring (outer s) := by
  simp [mtlCtlWrite]
@[simp] theorem daCmdWrite_spring (path c : Nat) (v : BitVec 32) (s : State) :
    spring (outer (daCmdWrite path c v s)) = spring (outer s) := by
  simp [daCmdWrite]
@[simp] theorem ringWrite_spring (path b a : Nat) (d : RegDesc) (v : BitVec 32) (s : State) :
    spring (outer (ringWrite path b a d v s)) = spring (outer s) := by
  simp [ringWrite]
@[simp] theorem jqWrite_spring (path q a : Nat) (d : RegDesc) (v : BitVec 32) (s : State) :
    spring (outer (jqWrite path q a d v s)) = spring (outer s) := by
  simp [jqWrite]
@[simp] theorem dmvWrite_spring (path n a : Nat) (d : RegDesc) (v : BitVec 32) (s : State) :
    spring (outer (dmvWrite path n a d v s)) = spring (outer s) := by
  simp [dmvWrite]
@[simp] theorem lcmdWrite_spring (path a : Nat) (d : RegDesc) (v : BitVec 32) (s : State) :
    spring (outer (lcmdWrite path a d v s)) = spring (outer s) := by
  simp [lcmdWrite]
@[simp] theorem alertWrite_spring (v : BitVec 32) (s : State) : spring (outer (alertWrite v s)) = spring (outer s) := by
  simp [alertWrite]
@[simp] theorem nrwCtlWrite_spring (v : BitVec 32) (s : State) : spring (outer (nrwCtlWrite v s)) = spring (outer s) := by
  simp [nrwCtlWrite]
@[simp] theorem sfRegWrite_spring (path a : Nat) (d : RegDesc) (v : BitVec 32) (s : State) :
    spring (outer (sfRegWrite path a d v s)) = spring (outer s) := by
  fun_cases sfRegWrite path a d v s <;> simp +zetaDelta
@[simp] theorem blockWrite_spring (path a i : Nat) (d : RegDesc) (v : BitVec 32) (s : State) :
    spring (outer (blockWrite path a i d v s)) = spring (outer s) := by
  fun_cases blockWrite path a i d v s <;> simp +zetaDelta
@[simp] theorem mmioWrite_spring (path a : Nat) (v : BitVec 32) (s : State) :
    spring (outer (mmioWrite path a v s)) = spring (outer s) := by
  fun_cases mmioWrite path a v s <;> simp +zetaDelta
@[simp] theorem doRegWrite_spring (path a : Nat) (v : BitVec 32) (s : State) :
    spring (outer (doRegWrite path a v s)) = spring (outer s) := by
  simp [doRegWrite]
@[simp] theorem doRegRead_spring (path a : Nat) (s : State) : spring (outer (doRegRead path a s)) = spring (outer s) := by
  simp [doRegRead]
@[simp] theorem doSizedWrite_spring (path a size : Nat) (v : BitVec 64) (s : State) :
    spring (outer (doSizedWrite path a size v s)) = spring (outer s) := by
  simp [doSizedWrite]
@[simp] theorem doSizedRead_spring (path a size : Nat) (s : State) :
    spring (outer (doSizedRead path a size s)) = spring (outer s) := by
  simp [doSizedRead]
@[simp] theorem mmioAnswer_spring (status count offset : Nat) (data : List (BitVec 32)) (s : State) :
    spring (outer (mmioAnswer status count offset data s)) = spring (outer s) := by
  simp [mmioAnswer]
@[simp] theorem mmioReads_spring (n a : Nat) (s : State) : spring (outer (mmioReads n a s).2) = spring (outer s) := by
  induction n generalizing a s with
  | zero => rfl
  | succ k ih => simp [mmioReads, ih]
@[simp] theorem mmioWrites_spring (a : Nat) (l : List (BitVec 32)) (s : State) :
    spring (outer (mmioWrites a l s)) = spring (outer s) := by
  fun_induction mmioWrites a l s <;> simp +zetaDelta [*]
@[simp] theorem doWindowRead_spring (count offset : Nat) (s : State) :
    spring (outer (doWindowRead count offset s)) = spring (outer s) := by
  simp [doWindowRead]
@[simp] theorem doWindowWrite_spring (secured : Bool) (count offset : Nat) (data : List (BitVec 32)) (s : State) :
    spring (outer (doWindowWrite secured count offset data s)) = spring (outer s) := by
  simp [doWindowWrite]

/-! #### Boundary -/

@[simp] theorem overrun_spring (o : Overrun) (s : State) : spring (outer (overrun o s)) = spring (outer s) := by simp [overrun]
@[simp] theorem mempEpoch_spring (s : State) : spring (outer (mempEpoch s)) = spring (outer s) := by simp [mempEpoch]
@[simp] theorem powerEpoch_spring (s : State) : spring (outer (powerEpoch s)) = spring (outer s) := by simp [powerEpoch]
@[simp] theorem epochStep_spring (rngOk : Bool) (s : State) : spring (outer (epochStep rngOk s)) = spring (outer s) := by
  simp [epochStep]
@[simp] theorem pollInj_spring (k : Nat) (s : State) : spring (outer (pollInj k s).1) = spring (outer s) := by
  fun_cases pollInj k s <;> simp +zetaDelta
@[simp] theorem recurring_spring (rngOk : Bool) (s : State) : spring (outer (recurring rngOk s)) = spring (outer s) := by
  simp [recurring]
@[simp] theorem diePolls_spring (silent : List Nat) (s : State) : spring (outer (diePolls silent s)) = spring (outer s) := by
  simp [diePolls]
@[simp] theorem progressWindows_spring (s : State) : spring (outer (progressWindows s)) = spring (outer s) := by
  simp [progressWindows]
@[simp] theorem planFrames_spring (s : State) : spring (outer (planFrames s)) = spring (outer s) := by simp [planFrames]
@[simp] theorem planStep_spring (s : State) : spring (outer (planStep s)) = spring (outer s) := by simp [planStep]
@[simp] theorem tokenStep_spring (s : State) : spring (outer (tokenStep s)) = spring (outer s) := by
  fun_cases tokenStep s <;> simp +zetaDelta
@[simp] theorem capStep_spring (s : State) : spring (outer (capStep s)) = spring (outer s) := by simp [capStep]

/-! ### Commands whose meaning is written in place -/

theorem execRegisterHiWrite_spring {path addr : Nat} {v : BitVec 32} {s t : State}
    (h : execRegisterHiWrite path addr v s = .next t) :
    spring (outer t) = spring (outer s) := by
  unfold execRegisterHiWrite at h
  refine run_spring (fun u => ?_) h
  simp
theorem execRegisterLoRead_spring {path addr : Nat} {s t : State} (h : execRegisterLoRead path addr s = .next t) :
    spring (outer t) = spring (outer s) := by
  unfold execRegisterLoRead at h
  refine run_spring (fun u => ?_) h
  simp
theorem execLinkDown_spring {head : Nat} {s t : State} (h : execLinkDown head s = .next t) :
    spring (outer t) = spring (outer s) := by
  unfold execLinkDown at h
  refine run_spring (fun u => ?_) h
  simp
theorem execPerstAssert_spring {head : Nat} {s t : State} (h : execPerstAssert head s = .next t) :
    spring (outer t) = spring (outer s) := by
  unfold execPerstAssert at h
  refine run_spring (fun u => ?_) h
  simp
theorem execPerstDeassert_spring {head : Nat} {s t : State} (h : execPerstDeassert head s = .next t) :
    spring (outer t) = spring (outer s) := by
  unfold execPerstDeassert at h
  refine run_spring (fun u => ?_) h
  simp
theorem execHotReset_spring {head : Nat} {s t : State} (h : execHotReset head s = .next t) :
    spring (outer t) = spring (outer s) := by
  unfold execHotReset at h
  refine run_spring (fun u => ?_) h
  simp
theorem execCxlReset_spring {head : Nat} {s t : State} (h : execCxlReset head s = .next t) :
    spring (outer t) = spring (outer s) := by
  unfold execCxlReset at h
  refine run_spring (fun u => ?_) h
  simp
theorem execFunctionLevelReset_spring {head : Nat} {s t : State} (h : execFunctionLevelReset head s = .next t) :
    spring (outer t) = spring (outer s) := by
  unfold execFunctionLevelReset at h
  refine run_spring (fun u => ?_) h
  simp
theorem execScanMedia_spring {path : Nat} {input : List Byte} {s t : State} (h : execScanMedia path input s = .next t) :
    spring (outer t) = spring (outer s) := by
  unfold execScanMedia at h
  refine run_spring (fun u => ?_) h
  simp
theorem execProgramStart_spring {chan die : Nat} {s t : State} (h : execProgramStart chan die s = .next t) :
    spring (outer t) = spring (outer s) := by
  unfold execProgramStart at h
  refine run_spring (fun u => ?_) h
  simp
theorem execMempFetchTrap_spring {core addr : Nat} {s t : State} (h : execMempFetchTrap core addr s = .next t) :
    spring (outer t) = spring (outer s) := by
  unfold execMempFetchTrap at h
  refine run_spring (fun u => ?_) h
  simp
theorem execWatchdogExpiry_spring {core : Nat} {s t : State} (h : execWatchdogExpiry core s = .next t) :
    spring (outer t) = spring (outer s) := by
  unfold execWatchdogExpiry at h
  refine run_spring (fun u => ?_) h
  simp
theorem execMgmtRestart_spring {cause core : Nat} {reloadOk : Bool} {s t : State}
    (h : execMgmtRestart cause core reloadOk s = .next t) :
    spring (outer t) = spring (outer s) := by
  unfold execMgmtRestart at h
  refine run_spring (fun u => ?_) h
  simp
theorem execSfSuspend_spring {core : Nat} {v : BitVec 32} {s t : State} (h : execSfSuspend core v s = .next t) :
    spring (outer t) = spring (outer s) := by
  unfold execSfSuspend at h
  refine run_spring (fun u => ?_) h
  simp
theorem execSfSequenceTimeout_spring {s t : State} (h : execSfSequenceTimeout s = .next t) :
    spring (outer t) = spring (outer s) := by
  unfold execSfSequenceTimeout at h
  refine run_spring (fun u => ?_) h
  simp
theorem execFwOwnerTimeout_spring {s t : State} (h : execFwOwnerTimeout s = .next t) : spring (outer t) = spring (outer s) := by
  unfold execFwOwnerTimeout at h
  refine run_spring (fun u => ?_) h
  simp
theorem execFwTrialTimeout_spring {s t : State} (h : execFwTrialTimeout s = .next t) : spring (outer t) = spring (outer s) := by
  unfold execFwTrialTimeout at h
  refine run_spring (fun u => ?_) h
  simp
theorem execGaugeWriteDone_spring {torn : Bool} {s t : State} (h : execGaugeWriteDone torn s = .next t) :
    spring (outer t) = spring (outer s) := by
  unfold execGaugeWriteDone at h
  refine run_spring (fun u => ?_) h
  simp
theorem execResFault_spring {why v : Nat} {s t : State} (h : execResFault why v s = .next t) :
    spring (outer t) = spring (outer s) := by
  unfold execResFault at h
  refine run_spring (fun u => ?_) h
  simp
theorem execResTestStart_spring {cause : Nat} {s t : State} (h : execResTestStart cause s = .next t) :
    spring (outer t) = spring (outer s) := by
  unfold execResTestStart at h
  refine run_spring (fun u => ?_) h
  simp
theorem execSeicheFault_spring {cause : Nat} {s t : State} (h : execSeicheFault cause s = .next t) :
    spring (outer t) = spring (outer s) := by
  unfold execSeicheFault at h
  refine run_spring (fun u => ?_) h
  simp
theorem execJtagExtest_spring {cells : List Bool} {s t : State} (h : execJtagExtest cells s = .next t) :
    spring (outer t) = spring (outer s) := by
  unfold execJtagExtest at h
  refine run_spring (fun u => ?_) h
  exact testInstr_spring _ _ _ _ _ fun v => by simp
theorem execJtagIdcode_spring {s t : State} (h : execJtagIdcode s = .next t) : spring (outer t) = spring (outer s) := by
  unfold execJtagIdcode at h
  refine run_spring (fun u => ?_) h
  exact testInstr_spring _ _ _ _ _ fun v => by simp
theorem execJtagSamplePreload_spring {pins cells : List Bool} {s t : State} (h : execJtagSamplePreload pins cells s = .next t) :
    spring (outer t) = spring (outer s) := by
  unfold execJtagSamplePreload at h
  refine run_spring (fun u => ?_) h
  exact testInstr_spring _ _ _ _ _ fun v => by simp
theorem execJtagHighz_spring {s t : State} (h : execJtagHighz s = .next t) : spring (outer t) = spring (outer s) := by
  unfold execJtagHighz at h
  refine run_spring (fun u => ?_) h
  exact testInstr_spring _ _ _ _ _ fun v => by simp
theorem execJtagClamp_spring {s t : State} (h : execJtagClamp s = .next t) : spring (outer t) = spring (outer s) := by
  unfold execJtagClamp at h
  refine run_spring (fun u => ?_) h
  exact testInstr_spring _ _ _ _ _ fun v => by simp
theorem execJtagBypass_spring {code : Nat} {s t : State} (h : execJtagBypass code s = .next t) :
    spring (outer t) = spring (outer s) := by
  unfold execJtagBypass at h
  refine run_spring (fun u => ?_) h
  exact spring_if rfl (testInstr_spring _ _ _ _ _ fun v => by simp)
theorem execMrNRelease_spring {s t : State} (h : execMrNRelease s = .next t) : spring (outer t) = spring (outer s) := by
  unfold execMrNRelease at h
  refine run_spring (fun u => ?_) h
  simp
theorem execSfEraseForcedResume_spring {s t : State} (h : execSfEraseForcedResume s = .next t) :
    spring (outer t) = spring (outer s) := by
  unfold execSfEraseForcedResume at h
  refine run_spring (fun u => ?_) h
  exact modFlash_spring _ _ fun f => by split <;> rfl

/-- A command outside `writesFlash` leaves the bytes of Spring flash. -/
theorem spring_kept {c : Instr} {s t : State} (keeps : writesFlash c = false) (h : exec c s = .next t) :
    spring (outer t) = spring (outer s) := by
  cases host : hostPath c
  case true => exact spring_of_outer (hostPathFrame c s t host h)
  cases c <;> cases keeps <;> cases host
  case false.registerHiWrite.refl.refl => exact execRegisterHiWrite_spring h
  case false.registerLoRead.refl.refl => exact execRegisterLoRead_spring h
  case false.linkDown.refl.refl => exact execLinkDown_spring h
  case false.perstAssert.refl.refl => exact execPerstAssert_spring h
  case false.perstDeassert.refl.refl => exact execPerstDeassert_spring h
  case false.hotReset.refl.refl => exact execHotReset_spring h
  case false.cxlReset.refl.refl => exact execCxlReset_spring h
  case false.functionLevelReset.refl.refl => exact execFunctionLevelReset_spring h
  case false.scanMedia.refl.refl => exact execScanMedia_spring h
  case false.programStart.refl.refl => exact execProgramStart_spring h
  case false.mempFetchTrap.refl.refl => exact execMempFetchTrap_spring h
  case false.watchdogExpiry.refl.refl => exact execWatchdogExpiry_spring h
  case false.mgmtRestart.refl.refl => exact execMgmtRestart_spring h
  case false.sfSuspend.refl.refl => exact execSfSuspend_spring h
  case false.sfSequenceTimeout.refl.refl => exact execSfSequenceTimeout_spring h
  case false.fwOwnerTimeout.refl.refl => exact execFwOwnerTimeout_spring h
  case false.fwTrialTimeout.refl.refl => exact execFwTrialTimeout_spring h
  case false.gaugeWriteDone.refl.refl => exact execGaugeWriteDone_spring h
  case false.resFault.refl.refl => exact execResFault_spring h
  case false.resTestStart.refl.refl => exact execResTestStart_spring h
  case false.seicheFault.refl.refl => exact execSeicheFault_spring h
  case false.jtagExtest.refl.refl => exact execJtagExtest_spring h
  case false.jtagIdcode.refl.refl => exact execJtagIdcode_spring h
  case false.jtagSamplePreload.refl.refl => exact execJtagSamplePreload_spring h
  case false.jtagHighz.refl.refl => exact execJtagHighz_spring h
  case false.jtagClamp.refl.refl => exact execJtagClamp_spring h
  case false.jtagBypass.refl.refl => exact execJtagBypass_spring h
  case false.mrNRelease.refl.refl => exact execMrNRelease_spring h
  case false.sfEraseForcedResume.refl.refl => exact execSfEraseForcedResume_spring h
  all_goals
    refine run_spring (fun u => ?_) h
    simp

/-- Settles O6: the bytes that a command reads are those it found. -/
theorem flashFrame : Obligations.FlashFrame := by
  intro c s t keeps h a
  exact congrArg (mbyte 0xFF · a) (spring_kept keeps h)

end Sys2Proof.Machine
end

section
/-! Proofs of the canonical form of Spring flash: programming and erasing keep it, what keeps the bytes keeps it, and so each
operation that programs or erases keeps it. `f_flashOk` says so of the operation `f`. -/

namespace Sys2Proof.Machine

/-! ### The canonical form of a memory -/

theorem tsorted_iff {α : Type} (t : Tbl α) : tsorted t = true ↔ t.Pairwise (fun a b => a.1 < b.1) := by
  rw [← List.isChain_iff_pairwise]
  induction t with
  | nil => simp [tsorted]
  | cons e r ih =>
    cases r with
    | nil => simp [tsorted]
    | cons e' r' => simp only [tsorted, Bool.and_eq_true, decide_eq_true_eq, List.isChain_cons_cons, ← ih]

theorem wf_iff (d : Byte) (m : Memory) :
    Memory.wf d m = true ↔ m.Pairwise (fun a b => a.1 < b.1) ∧ ∀ c ∈ m, c.2 ≠ d := by
  simp [Memory.wf, tsorted_iff]

theorem wf_filter {d : Byte} {m : Memory} (p : Nat × Byte → Bool) (h : Memory.wf d m = true) :
    Memory.wf d (m.filter p) = true := by
  obtain ⟨sorted, listed⟩ := (wf_iff d m).mp h
  exact (wf_iff d _).mpr ⟨sorted.filter p, fun c hc => listed c (List.mem_of_mem_filter hc)⟩

theorem mem_tput {α : Type} {k : Nat} {v : α} {t : Tbl α} {c : Nat × α} (h : c ∈ tput k v t) : c = (k, v) ∨ c ∈ t := by
  induction t with
  | nil => simpa [tput] using h
  | cons e r ih =>
    simp only [tput] at h
    split at h
    · exact List.mem_cons.mp h
    · split at h
      · exact (List.mem_cons.mp h).imp_right (List.mem_cons_of_mem _)
      · obtain rfl | later := List.mem_cons.mp h
        · exact .inr List.mem_cons_self
        · exact (ih later).imp_right (List.mem_cons_of_mem _)

theorem pairwise_tput {α : Type} (k : Nat) (v : α) {t : Tbl α} (h : t.Pairwise (fun a b => a.1 < b.1)) :
    (tput k v t).Pairwise (fun a b => a.1 < b.1) := by
  induction t with
  | nil => exact List.pairwise_singleton ..
  | cons e r ih =>
    obtain ⟨first, rest⟩ := List.pairwise_cons.mp h
    simp only [tput]
    split
    · next lt =>
      refine List.pairwise_cons.mpr ⟨fun c hc => ?_, h⟩
      obtain rfl | later := List.mem_cons.mp hc
      · exact lt
      · exact lt.trans (first c later)
    · split
      · next same => exact List.pairwise_cons.mpr ⟨fun c hc => same ▸ first c hc, rest⟩
      · next notBefore notSame =>
        refine List.pairwise_cons.mpr ⟨fun c hc => ?_, ih rest⟩
        obtain rfl | later := mem_tput hc
        · exact lt_of_le_of_ne (Nat.not_lt.mp notBefore) (Ne.symm notSame)
        · exact first c later

theorem wf_mput {d : Byte} {m : Memory} (a : Nat) (b : Byte) (h : Memory.wf d m = true) : Memory.wf d (mput d m a b) = true := by
  unfold mput
  split
  · exact wf_filter _ h
  · next listed =>
    obtain ⟨sorted, others⟩ := (wf_iff d m).mp h
    refine (wf_iff d _).mpr ⟨pairwise_tput a b sorted, fun c hc => ?_⟩
    obtain rfl | old := mem_tput hc
    · exact listed
    · exact others c old

theorem wf_mputs {d : Byte} {m : Memory} (a : Nat) (l : List Byte) (h : Memory.wf d m = true) :
    Memory.wf d (mputs d m a l) = true := by
  induction l generalizing a m with
  | nil => exact h
  | cons b r ih => exact ih (a + 1) (wf_mput a b h)

/-! ### Ways to build a state -/

section
variable {s t : State} (ok : FlashOk s)
include ok

theorem FlashOk.of_spring (h : spring (outer t) = spring (outer s)) : FlashOk t :=
  (congrArg (Memory.wf 0xFF · = true) h).mpr ok

theorem flashPut_flashOk (a : Nat) (l : List Byte) : FlashOk (flashPut a l s) := wf_mputs a l ok

theorem flashErase_flashOk (a n : Nat) : FlashOk (flashErase a n s) := wf_filter _ ok

theorem forEach_flashOk {α : Type} (l : List α) {f : α → State → State} (h : ∀ a t, FlashOk t → FlashOk (f a t)) :
    FlashOk (forEach l f s) := by
  induction l generalizing s with
  | nil => exact ok
  | cons a l ih => exact ih (h a s ok)

/-- A command that does `f` keeps what `f` keeps. -/
theorem run_flashOk {f : State → State} (keeps : ∀ u, FlashOk u → FlashOk (f u)) (h : run f s = .next t) : FlashOk t := by
  cases h
  exact keeps s.begun ok

end

theorem flashOk_if {c : Prop} [Decidable c] {a b : State} (ha : FlashOk a) (hb : FlashOk b) : FlashOk (if c then a else b) := by
  split <;> assumption

/-! ### Commands of a mailbox -/

theorem payloadIn_flashOk {path op : Nat} {input : List Byte} {f : State → State} {s : State} (ok : FlashOk s)
    (keeps : ∀ u, FlashOk u → FlashOk (f u)) : FlashOk (payloadIn path op input f s) := by
  simp only [payloadIn]
  refine flashOk_if (keeps s ok) (flashOk_if (ok.of_spring (by simp)) (keeps _ (ok.of_spring (by simp))))

theorem cmd_flashOk {path op : Nat} {input : List Byte} {lenOk : Bool} {f : State → State} {s : State} (ok : FlashOk s)
    (keeps : ∀ u, FlashOk u → FlashOk (f u)) : FlashOk (cmd path op input lenOk f s) := by
  fun_cases cmd path op input lenOk f s
  case case14 => exact payloadIn_flashOk ok keeps
  all_goals exact ok.of_spring (by simp)

/-! ### The model's operations -/

section
variable {s : State} (ok : FlashOk s)
include ok

theorem doNdxCommit_flashOk (path : Nat) (inp : List Byte) (wrong : List (Nat × Byte)) :
    FlashOk (doNdxCommit path inp wrong s) := by
  have programmed (a b : Nat) (l : List Byte) :
      FlashOk (forEach wrong (fun w s => flashPut (b + w.1 % 0x10000) [w.2] s)
        (flashPut a l (flashErase a 0x10000 (ndxTouch path s)))) :=
    have erased : FlashOk (flashErase a 0x10000 (ndxTouch path s)) := flashErase_flashOk (ok.of_spring (by simp)) ..
    forEach_flashOk (flashPut_flashOk erased ..) wrong fun w t ok => flashPut_flashOk ok ..
  fun_cases doNdxCommit path inp wrong s
  case case9 => exact (programmed _ _ _).of_spring (by rw [answer_outer, sed_outer, ndxCommitErr_spring])
  case case10 => exact (programmed _ _ _).of_spring (by simp; rfl)
  all_goals exact ok.of_spring (by simp +zetaDelta)

theorem sfDone_flashOk (done : Bool) : FlashOk (sfDone done s) := by
  unfold sfDone
  extract_lets fin
  have ended (x : SfOp) (t : State) (ok : FlashOk t) : FlashOk (fin x t) := by
    refine flashOk_if ?_ ?_
    · exact (flashOk_if (flashErase_flashOk ok _ _) (flashPut_flashOk ok _ _)).of_spring (congrArg spring (setF_outer ..))
    · have spoilt : FlashOk (if x.erase then t else flashPut x.addr (le 8 (draw 64 t).1.toNat) (draw 64 t).2) :=
        flashOk_if ok (flashPut_flashOk (ok.of_spring (by simp)) _ _)
      exact spoilt.of_spring (congrArg spring ((sed_outer ..).trans (setF_outer ..)))
  clear_value fin
  split
  · next x _ =>
    have nestedEnded := ended x (modFlash (fun f => { f with nested := none }) s) (ok.of_spring (by simp))
    exact (flashOk_if (nestedEnded.of_spring (by simp)) nestedEnded).of_spring (sfShow_spring ..)
  · next x _ _ =>
    refine flashOk_if ok ?_
    have opEnded := ended x (modFlash (fun f => { f with op := none }) s) (ok.of_spring (by simp))
    exact opEnded.of_spring (sfShow_spring ..)
  · exact ok

theorem sfFlush_flashOk : FlashOk (sfFlush s) := by
  unfold sfFlush
  extract_lets put u v
  have putOk (o : Option SfOp) (t : State) (ok : FlashOk t) : FlashOk (put o t) := by
    simp only [put]
    split
    · next x => exact flashOk_if ok ((flashPut_flashOk ok x.addr (le 8 x.data.toNat)).of_spring (congrArg spring (setF_outer ..)))
    · exact ok
  have programmed : FlashOk u := putOk _ _ (putOk _ _ ok)
  have cut : FlashOk v := by
    simp only [v]
    split
    · exact flashOk_if (flashPut_flashOk (programmed.of_spring (congrArg spring (drawBytes_outer ..))) _ _) programmed
    · exact programmed
  exact cut.of_spring (by simp)

theorem fwProgram_flashOk (path index : Nat) (last : Bool) (data : List Byte) (readOk : Bool) :
    FlashOk (fwProgram path index last data readOk s).1 := by
  have programmed (a n b : Nat) (l : List Byte) :
      FlashOk (flashPut b l (if index % 16 = 0 then flashErase a n (fwOwn path s) else fwOwn path s)) :=
    have owned : FlashOk (fwOwn path s) := ok.of_spring (by simp)
    flashPut_flashOk (flashOk_if (flashErase_flashOk owned _ _) owned) ..
  fun_cases fwProgram path index last data readOk s
  · exact (flashErase_flashOk (programmed _ _ _ _) _ _).of_spring ((congrArg spring (setF_outer ..)).trans (fwErr_spring ..))
  · exact (programmed (fwBase (fld s F.SF_FW_STAT_SLOT) + 65536 * (index / 16)) 65536
      (fwBase (fld s F.SF_FW_STAT_SLOT) + 4096 * index) data).of_spring (by simp +zetaDelta)

theorem fwBlock_flashOk (path index : Nat) (last : Bool) (crc : Nat) (data : List Byte) (readOk : Bool) :
    FlashOk (fwBlock path index last crc data readOk s).1 := by
  fun_cases fwBlock path index last crc data readOk s
  case case8 => exact fwProgram_flashOk (ok.of_spring (by simp +zetaDelta)) ..
  case case9 => exact fwProgram_flashOk ok ..
  all_goals exact ok.of_spring (by simp +zetaDelta)

theorem doFwBlock_flashOk (path : Nat) (d : List Byte) (readOk : Bool) : FlashOk (doFwBlock path d readOk s) :=
  cmd_flashOk ok fun t ok => by
    have touched : FlashOk (fwTouch path t) := ok.of_spring (by simp)
    have stored := fwBlock_flashOk touched path (at' d 0 4) (byteAt d 4 == 1) (at' d 8 4) (d.drop 16) readOk
    have answered {v : State} (ok : FlashOk v) (rc : Nat) (body : List Byte) : FlashOk (answer path 0xC010 rc body v) :=
      ok.of_spring (congrArg spring (answer_outer ..))
    exact flashOk_if (answered touched _ _) (flashOk_if (answered touched _ _) (answered stored _ _))

theorem pldmData_flashOk (data : List Byte) : FlashOk (pldmData data s) := by
  unfold pldmData
  extract_lets index total last
  refine flashOk_if (ok.of_spring (by simp)) (flashOk_if (ok.of_spring (by simp)) ?_)
  have taken := fwBlock_flashOk ok tuten index last (crc32c data).toNat data true
  generalize fwBlock tuten index last (crc32c data).toNat data true s = result at taken
  refine flashOk_if (taken.of_spring (by simp)) (flashOk_if (taken.of_spring (by simp)) ?_)
  generalize hv : fwVerify tuten (pldm5 0x16 [0x00] result.1) = verified
  have kept : FlashOk verified.1 := taken.of_spring (by rw [← hv]; simp)
  exact flashOk_if (kept.of_spring (by simp)) (kept.of_spring (by simp))

theorem doPldmFw_flashOk (c : Nat) (arg : List Byte) : FlashOk (doPldmFw c arg s) := by
  fun_cases doPldmFw c arg s
  case case13 => exact pldmData_flashOk (ok.of_spring (by simp +zetaDelta)) _
  all_goals exact ok.of_spring (by simp +zetaDelta)

theorem flushBegin_flashOk (cause : Nat) : FlashOk (flushBegin cause s) := by
  unfold flushBegin
  refine flashOk_if ok ?_
  extract_lets t deep f u v w x
  have flushed : FlashOk x := (sfFlush_flashOk (ok.of_spring (by simp +zetaDelta))).of_spring (flushFw_spring ..)
  exact flashOk_if flushed (flushed.of_spring (by simp))

theorem flushStart_flashOk (cause : Nat) : FlashOk (flushStart cause s) := by
  unfold flushStart
  refine flashOk_if ok (flashOk_if (flushBegin_flashOk (ok.of_spring (by simp)) _) (flashOk_if (flushBegin_flashOk ok _)
    (flashOk_if (flushBegin_flashOk (ok.of_spring (by simp)) _) ?_)))
  exact flashOk_if (ok.of_spring (by simp)) (flushBegin_flashOk (ok.of_spring (by simp)) _)

theorem seicheBegin_flashOk {n : Nat} {t : State} (h : seicheBegin n s = some t) : FlashOk t := by
  revert h
  fun_cases seicheBegin n s <;> intro h <;> cases h
  case case4 => exact flushBegin_flashOk (ok.of_spring (by simp +zetaDelta)) _
  all_goals exact ok.of_spring (by simp +zetaDelta)

theorem doSeicheFrame_flashOk (num : Nat) (parityOk : Bool) : FlashOk (doSeicheFrame num parityOk s) := by
  unfold doSeicheFrame
  refine flashOk_if ok (flashOk_if (ok.of_spring (by simp)) (flashOk_if (ok.of_spring (by simp)) ?_))
  split
  · next h => exact (seicheBegin_flashOk ok h).of_spring (by simp)
  · exact ok.of_spring (by simp)

theorem doSeicheBarrier_flashOk (vinOk : Bool) : FlashOk (doSeicheBarrier vinOk s) := by
  unfold doSeicheBarrier
  refine flashOk_if ok ?_
  extract_lets t
  have told : FlashOk t := ok.of_spring (by simp [t])
  split
  · exact told
  split
  · next h => exact (seicheBegin_flashOk told h).of_spring (by simp)
  · exact told

theorem doSeicheRequest_flashOk (us : Nat) : FlashOk (doSeicheRequest us s) := by
  unfold doSeicheRequest
  refine flashOk_if ok ?_
  split
  · next h => exact (seicheBegin_flashOk ok h).of_spring (by simp)
  · exact ok

theorem doPgLost_flashOk (rail : Nat) : FlashOk (doPgLost rail s) := by
  unfold doPgLost
  refine flashOk_if ok ?_
  extract_lets t u v w
  have told : FlashOk v := ok.of_spring (by simp [v, u, t])
  have released : FlashOk w := told.of_spring (by simp [w])
  exact flashOk_if (flashOk_if (released.of_spring (by simp)) released)
    (flashOk_if (told.of_spring (by simp)) (flushStart_flashOk told _))

theorem doRefclkLost_flashOk : FlashOk (doRefclkLost s) := by
  unfold doRefclkLost
  refine flashOk_if ok ?_
  extract_lets run t u v
  exact flushStart_flashOk (ok.of_spring (by simp +zetaDelta)) _

theorem doForceOff_flashOk : FlashOk (doForceOff s) := by
  unfold doForceOff
  refine flashOk_if ok ?_
  extract_lets t u
  have told : FlashOk u := ok.of_spring (by simp +zetaDelta)
  exact flashOk_if (told.of_spring (by simp)) (flashOk_if (told.of_spring (by simp)) (flashOk_if (told.of_spring (by simp))
    (flushStart_flashOk told _)))

theorem shutdownRound_flashOk : FlashOk (shutdownRound s) := by
  unfold shutdownRound
  extract_lets hot media c m d t fire live
  have fires (g n : Nat) (v : Int) (u : State) : outer (fire g n v u) = outer u := by simp [fire]
  have counted : FlashOk t := ok.of_spring (by simp [t])
  exact flashOk_if (flushStart_flashOk (counted.of_spring (by simp [fires])) _) counted

theorem doRound_flashOk (raw : List Int) (valid : List Bool) : FlashOk (doRound raw valid s) := by
  unfold doRound
  refine flashOk_if ok ?_
  extract_lets t u v w x y
  have read : FlashOk u := by
    simp only [u]
    split
    · exact ok.of_spring (by simp [t])
    · exact ok.of_spring (by simp [t])
  exact shutdownRound_flashOk (read.of_spring (by simp [y, x, w, v]))

theorem offStep_flashOk : FlashOk (offStep s) := by
  unfold offStep
  exact flashOk_if (ok.of_spring (by simp)) (flashOk_if ok (flushStart_flashOk (ok.of_spring (by simp)) _))

theorem resetStep_flashOk : FlashOk (resetStep s) := by
  unfold resetStep
  exact flashOk_if (flushStart_flashOk (ok.of_spring (by simp)) _) ok

theorem doBoundary_flashOk (overruns : List Overrun) (silent : List Nat) (rngOk : Bool) :
    FlashOk (doBoundary overruns silent rngOk s) := by
  simp only [doBoundary]
  exact flashOk_if ok (flashOk_if (ok.of_spring (by simp)) (resetStep_flashOk (offStep_flashOk (ok.of_spring (by simp)))))

theorem cciStandard_flashOk {op : Nat} {d : List Byte} {o : Host.Outcome State Fault Refusal} {t : State}
    (h : cciStandard op d s = some o) (next : o = .next t) : FlashOk t := by
  unfold cciStandard at h
  split at h <;> cases h
  all_goals exact ok.of_spring (run_spring (fun u => by simp) next)

theorem cciVendor_flashOk {secured : Bool} {op : Nat} {d : List Byte} {o : Host.Outcome State Fault Refusal} {t : State}
    (h : cciVendor secured op d s = some o) (next : o = .next t) : FlashOk t := by
  unfold cciVendor at h
  split at h <;> cases h
  case h_2 =>
    refine run_flashOk ?_ (fun u ok => cmd_flashOk ok fun v ok => doNdxCommit_flashOk ok ..) next
    exact ok
  case h_3 =>
    refine run_flashOk ?_ (fun u ok => doFwBlock_flashOk ok ..) next
    exact ok
  all_goals exact ok.of_spring (run_spring (fun u => by simp) next)

end

/-! ### Commands that write -/

theorem execMctpCxlCci_flashOk {pec secured : Bool} {opcode : Nat} {input : List Byte} {s t : State} (ok : FlashOk s)
    (h : execMctpCxlCci pec secured opcode input s = .next t) : FlashOk t := by
  unfold execMctpCxlCci at h
  refine run_flashOk ok (fun u ok => ?_) h
  split
  · next v hv =>
    split at hv
    · exact ok.of_spring (spring_of_outer (tutDropped_outer hv))
    · cases hv
  refine flashOk_if ok ?_
  split
  · next o ho =>
    cases o with
    | next v => exact cciStandard_flashOk ok ho rfl
    | fault f => exact ok
    | refused r => exact ok
  · split
    · next o ho =>
      cases o with
      | next v => exact cciVendor_flashOk ok ho rfl
      | fault f => exact ok
      | refused r => exact ok
    · exact ok.of_spring (by simp)

theorem execSfOpDone_flashOk {done : Bool} {s t : State} (ok : FlashOk s) (h : execSfOpDone done s = .next t) : FlashOk t := by
  unfold execSfOpDone at h
  exact run_flashOk ok (fun u ok => (sfDone_flashOk ok _).of_spring (sfServe_spring ..)) h

theorem execVinFail_flashOk {vin : Nat} {s t : State} (ok : FlashOk s) (h : execVinFail vin s = .next t) : FlashOk t := by
  unfold execVinFail at h
  exact run_flashOk ok (fun u ok => flashOk_if ok (flushStart_flashOk (ok.of_spring (by simp)) _)) h

theorem execFlushStart_flashOk {cause : Nat} {s t : State} (ok : FlashOk s) (h : execFlushStart cause s = .next t) : FlashOk t := by
  unfold execFlushStart at h
  exact run_flashOk ok (fun u ok => flashOk_if (flushStart_flashOk ok _) ok) h

theorem execMrNAssert_flashOk {s t : State} (ok : FlashOk s) (h : execMrNAssert s = .next t) : FlashOk t := by
  unfold execMrNAssert at h
  exact run_flashOk ok (fun u ok => flashOk_if ok (flushStart_flashOk (ok.of_spring (by simp)) _)) h

theorem execWakeNOff_flashOk {s t : State} (ok : FlashOk s) (h : execWakeNOff s = .next t) : FlashOk t := by
  unfold execWakeNOff at h
  exact run_flashOk ok (fun u ok => ok.of_spring (by simp)) h

/-- Every command keeps the canonical form. -/
theorem exec_flashOk {c : Instr} {s t : State} (ok : FlashOk s) (h : exec c s = .next t) : FlashOk t := by
  cases writes : writesFlash c
  case false => exact ok.of_spring (spring_kept writes h)
  cases c <;> cases writes
  case true.tickBoundary.refl => exact run_flashOk ok (fun u ok => doBoundary_flashOk ok ..) h
  case true.ndxCommit.refl => exact run_flashOk ok (fun u ok => cmd_flashOk ok fun v ok => doNdxCommit_flashOk ok ..) h
  case true.mctpCxlCci.refl => exact execMctpCxlCci_flashOk ok h
  case true.pldmFwUpdate.refl => exact run_flashOk ok (fun u ok => doPldmFw_flashOk ok ..) h
  case true.sfOpDone.refl => exact execSfOpDone_flashOk ok h
  case true.fwBlock.refl => exact run_flashOk ok (fun u ok => doFwBlock_flashOk ok ..) h
  case true.pdAonRelease.refl => exact ok.of_spring (run_spring (fun u => by simp) h)
  case true.railPgLost.refl => exact run_flashOk ok (fun u ok => doPgLost_flashOk ok _) h
  case true.vinFail.refl => exact execVinFail_flashOk ok h
  case true.flushStart.refl => exact execFlushStart_flashOk ok h
  case true.housekeepingRound.refl => exact run_flashOk ok (fun u ok => doRound_flashOk ok ..) h
  case true.forceOff.refl => exact run_flashOk ok (fun u ok => doForceOff_flashOk ok) h
  case true.mrNAssert.refl => exact execMrNAssert_flashOk ok h
  case true.wakeNOff.refl => exact execWakeNOff_flashOk ok h
  case true.seicheFrame.refl => exact run_flashOk ok (fun u ok => doSeicheFrame_flashOk ok ..) h
  case true.seicheBarrier.refl => exact run_flashOk ok (fun u ok => doSeicheBarrier_flashOk ok _) h
  case true.seicheRequest.refl => exact run_flashOk ok (fun u ok => doSeicheRequest_flashOk ok _) h
  case true.refclkLost.refl => exact run_flashOk ok (fun u ok => doRefclkLost_flashOk ok) h

/-- Settles O5: an empty queue changes nothing, and each command keeps the canonical form. -/
theorem flashOkKept : Obligations.FlashOkKept := by
  intro s t ok h
  unfold step at h
  split at h
  · cases h; exact ok
  · next c rest _ => exact exec_flashOk (s := { s with pending := rest }) ok h
end Sys2Proof.Machine
end

section
/-! Proofs of the recorder's merge of a repeat (R540). -/

namespace Sys2Proof.Machine

/-- A change of the values under their keys changes what a key finds. -/
theorem tfind_map {α : Type} (g : α → α) (t : Tbl α) (k : Nat) : tfind (t.map (fun e => (e.1, g e.2))) k = (tfind t k).map g := by
  induction t with
  | nil => rfl
  | cons e r ih =>
    simp only [List.map_cons, tfind, ih]
    split <;> rfl

/-- The record as the region holds it after the merge. -/
def SedRec.mergedAt (n : Nat) (x : SedRec) : SedRec := if x.seq = n then { x.again with merged := true } else x

theorem sedMerge_region (n : Nat) (s : State) : (sedMerge n s).sed.region = s.sed.region.map (fun e => (e.1, e.2.mergedAt n)) := by
  simp only [sedMerge, satInc_sed]
  refine List.map_congr_left fun e _ => ?_
  unfold SedRec.mergedAt
  split <;> rfl

/-- An event that repeats the newest record, which is held, merges into it. -/
theorem sed_repeat {code sev unit p0 p1 p2 : Nat} {s : State} {r : SedRec} (newest : s.sed.newest = some (r, epoch s))
    (same : (SedReq.mk code sev unit p0 p1 p2).same r = true) (held : sedHeld s r.seq = true) :
    sed code sev unit p0 p1 p2 s = sedMerge r.seq s := by
  have core : sedCore ⟨code, sev, unit, p0, p1, p2⟩ s = (sedMerge r.seq s, []) := by simp [sedCore, newest, same, held]
  simp [sed, sedRun, core]

/-- Settles O12, by what the merge writes: the repeat counts, the slots to be written again and one counter. -/
theorem sedMerges : Obligations.SedMerges := by
  intro code sev unit p0 p1 p2 s r newest same held
  rw [sed_repeat newest same held]
  refine ⟨?next, ?gauge, ?heads, ?flush, ?ring, ?buffer, fun k x found => ?region, sedMerge_sr r.seq s⟩
  case next | gauge | heads | flush | ring | buffer => simp [sedMerge, SedRec.again]
  case region => rw [sedMerge_region, tfind_map, found]; rfl

end Sys2Proof.Machine
end

section
/-! Proofs of the test access port's instructions (R717 to R720). -/

namespace Sys2Proof.Machine

/-- An instruction that the port takes: the current one, with what it drives. -/
def State.loadedInstr (code : Nat) (driving highz : Bool) (s : State) : State :=
  { s with jtag := { s.jtag with enabled := true, instr := code, driving := driving, highz := highz } }

section
variable {code : Nat} {driving highz : Bool} {f : State → State} {s : State}

theorem testInstr_taken (runs : testMayRun s = true) : testInstr code driving highz f s = f (s.loadedInstr code driving highz) :=
  if_neg (by simp [runs])

theorem testInstr_refused (off : testMayRun s = false) : testInstr code driving highz f s = s :=
  if_pos (by simp [off])

end

/-- The codes of the other instructions are no BYPASS. -/
theorem execJtagBypass_named {code : Nat} (s : State) (named : [0x00, 0x01, 0x02, 0x08, 0x09].contains code = true) :
    execJtagBypass code s = .next (s.after id) :=
  run_effect (if_pos (by rw [named, Bool.or_true]))

theorem execJtagBypass_taken {code : Nat} {s : State} (runs : testMayRun s = true) (byte : code < 256)
    (other : [0x00, 0x01, 0x02, 0x08, 0x09].contains code = false) :
    execJtagBypass code s = .next (s.after (fun s => emit (.tdo code 0) (s.loadedInstr code false false))) :=
  run_effect ((if_neg (by rw [other]; simpa using byte)).trans (testInstr_taken (s := s.begun) runs))

theorem execJtagBypass_refused {s : State} (code : Nat) (off : testMayRun s = false) :
    execJtagBypass code s = .next (s.after id) := by
  refine run_effect ?_
  split
  · rfl
  · exact testInstr_refused (s := s.begun) off

/-- Settles O51: each instruction by whether the port may run, and BYPASS by its code. -/
theorem testPort : Obligations.TestPort := by
  refine ⟨?taken, ?refused, ?named, fun s => run_next rfl rfl⟩
  case taken =>
    intro pins cells code s runs loaded
    exact ⟨run_effect (testInstr_taken (s := s.begun) runs), run_effect (testInstr_taken (s := s.begun) runs),
      run_effect (testInstr_taken (s := s.begun) runs), run_effect (testInstr_taken (s := s.begun) runs),
      run_effect (testInstr_taken (s := s.begun) runs), execJtagBypass_taken runs⟩
  case refused =>
    intro pins cells code c s off listed
    simp only [List.mem_cons, List.not_mem_nil, or_false] at listed
    obtain rfl | rfl | rfl | rfl | rfl | rfl := listed
    case inr.inr.inr.inr.inr => exact execJtagBypass_refused code off
    all_goals exact run_effect (testInstr_refused (s := s.begun) off)
  case named => exact fun code s named => execJtagBypass_named s named

end Sys2Proof.Machine
end

section
/-! Proofs of observation: the counters, Plumb and the Sounding port (R671 to R687). -/

namespace Sys2Proof.Machine

theorem when_not (c : Bool) (f : State → State) (s : State) : when (!c) f s = if c then s else f s := by
  cases c <;> rfl

theorem obsThere_of {s : State} (unit : unitOn s 15 = true) (core : coreOn s = true) : obsThere s = true := by
  simp [obsThere, unit, core]

theorem obsThere_off {s : State} (off : unitOn s 15 = false ∨ coreOn s = false) : obsThere s = false := by
  obtain unit | core := off
  · simp [obsThere, unit]
  · simp [obsThere, core]

/-! A finished request that Plumb follows. -/

section
variable {h tag latency : Nat} {x : Sample} {s : State}

theorem doPlumbSample_followed (found : s.obs.flying.find? (fun x => x.head == h && x.seq == tag && x.ended) = some x) :
    doPlumbSample h tag latency s =
      let t := modObs (fun o => { o with flying := ldel (fun x => x.head == h && x.seq == tag && x.ended) o.flying }) s
      if latency < fld s F.OBS_PLUMB_LAT_MIN_LAT then t else plumbKeep { x with latency := latency } t := by
  unfold doPlumbSample
  simp only [found]
  rfl

theorem doPlumbSample_other (none : s.obs.flying.find? (fun x => x.head == h && x.seq == tag && x.ended) = none) :
    doPlumbSample h tag latency s = s := by
  simp only [doPlumbSample, none]

end

theorem doPlumbPop_shown {path : Nat} {s : State} (there : obsThere s = true) (on : plumbOn s = true)
    (owner : plumbOwner s path = true) :
    doPlumbPop path s = plumbDrop (emit (.value path (Reg.OBS_PLUMB_DATA 7) (plumbWord s 7)) s) :=
  if_neg (by simp [there, on, owner])

theorem doPlumbPop_hidden {path : Nat} {s : State}
    (hidden : unitOn s 15 = false ∨ coreOn s = false ∨ plumbOn s = false ∨ plumbOwner s path = false) :
    doPlumbPop path s = emit (.value path (Reg.OBS_PLUMB_DATA 7) 0) s := by
  refine if_pos ?_
  obtain unit | core | off | other := hidden
  · simp [obsThere_off (.inl unit)]
  · simp [obsThere_off (.inr core)]
  · simp [off]
  · simp [other]

theorem plumbStop_active {cause : Nat} {s : State} (active : s.obs.active = true) :
    plumbStop cause s = sed 0x1001 sINFO 15 cause s.obs.kept (fld s F.OBS_PLUMB_STAT_LOST) { s with
      obs := { s.obs with active := false, flying := if cause = 0 then s.obs.flying else [] } } :=
  if_neg (by simp [active])

theorem plumbStop_idle {cause : Nat} {s : State} (idle : s.obs.active = false) : plumbStop cause s = s :=
  if_pos (by simp [idle])

/-! A slot of the Sounding port's tick. -/

/-- The state with the slot counted. -/
def State.slotTaken (s : State) : State := { s with obs := { s.obs with slot := s.obs.slot + 1 } }

/-- The frames that wait in the port's queues. -/
def sndWaiting (s : State) : Nat := (s.obs.fifos.map (fun e => e.2.length)).foldl (· + ·) 0

section
variable {s u : State} {f : SndFrame}

theorem doFrameSlot_off (off : s.obs.sndActive = false ∨ 125 ≤ s.obs.slot) : doFrameSlot s = s :=
  if_pos (by simpa using off)

theorem doFrameSlot_tick (active : s.obs.sndActive = true) (first : s.obs.slot = 0) :
    doFrameSlot s = sndSend ⟨1, 16, 0, s.tick.count,
      le 8 s.tick.count ++ le 6 s.tick.cal ++ le 1 (obsLevel s) ++ le 1 (devid s % 256), obsLevel s⟩ s.slotTaken :=
  (if_neg (by simp [active, first])).trans (if_pos first)

theorem doFrameSlot_oldest (active : s.obs.sndActive = true) (later : 1 ≤ s.obs.slot) (within : s.obs.slot < 125)
    (next : nextFrame (sndWaiting s + 1) s.slotTaken = (u, some f)) : doFrameSlot s = sndSend f u := by
  refine (if_neg (by simp [active, within])).trans ((if_neg (by omega)).trans ?_)
  change (match nextFrame (sndWaiting s + 1) s.slotTaken with
    | (s, some f) => sndSend f s
    | (s, none) => emit (.sounding (zeros 24)) s) = _
  rw [next]

theorem doFrameSlot_idle (active : s.obs.sndActive = true) (later : 1 ≤ s.obs.slot) (within : s.obs.slot < 125)
    (next : nextFrame (sndWaiting s + 1) s.slotTaken = (u, none)) : doFrameSlot s = emit (.sounding (zeros 24)) u := by
  refine (if_neg (by simp [active, within])).trans ((if_neg (by omega)).trans ?_)
  change (match nextFrame (sndWaiting s + 1) s.slotTaken with
    | (s, some f) => sndSend f s
    | (s, none) => emit (.sounding (zeros 24)) s) = _
  rw [next]

end

/-! The control registers. -/

/-- What a new word of OBS_PLUMB_CTL does: it waits for the end of the tick, and a word without EN ends the sampling at once. -/
def plumbCtlTaken (w : BitVec 32) (s : State) : State :=
  let t := { s with obs := { s.obs with pendingCtl := s.obs.pendingCtl ++ [(Reg.OBS_PLUMB_CTL, w)] } }
  if w = ctlRead s Reg.OBS_PLUMB_CTL then s
  else if F.OBS_PLUMB_CTL_EN.get w = 0 then plumbStop 0 (setF F.OBS_PLUMB_CTL_EN 0 t) else t

section
variable {path a : Nat} {v : BitVec 32} {s : State}

/-- A write that is out of range keeps the word. -/
theorem doPlumbCtl_ctl (mgmt : isMgmt path = true) (there : obsThere s = true) (on : plumbOn s = true) :
    doPlumbCtl path Reg.OBS_PLUMB_CTL v s =
      plumbCtlTaken (if 20 < F.OBS_PLUMB_CTL_RATE.get v ∨ 4 < F.OBS_PLUMB_CTL_OWNER.get v then ctlRead s Reg.OBS_PLUMB_CTL
        else v &&& 0x1F71) s :=
  (if_neg (by simp [mgmt, there])).trans ((if_pos rfl).trans (if_neg (by simp [on])))

theorem doPlumbCtl_filt (mgmt : isMgmt path = true) (there : obsThere s = true) (on : plumbOn s = true) :
    doPlumbCtl path Reg.OBS_PLUMB_FILT v s =
      { s with obs := { s.obs with pendingCtl := s.obs.pendingCtl ++ [(Reg.OBS_PLUMB_FILT, v &&& 0x0FFF017F)] } } :=
  (if_neg (by simp [mgmt, there])).trans ((if_neg (by decide)).trans ((if_pos rfl).trans (if_neg (by simp [on]))))

theorem doPlumbCtl_lat (mgmt : isMgmt path = true) (there : obsThere s = true) (on : plumbOn s = true) :
    doPlumbCtl path Reg.OBS_PLUMB_LAT v s = s.putReg Reg.OBS_PLUMB_LAT (v &&& 0xFFFFFF) := by
  refine (if_neg (by simp [mgmt, there])).trans ((if_neg (by decide)).trans ((if_neg (by decide)).trans ?_))
  exact (if_pos rfl).trans (if_neg (by simp [on]))

/-- The registers of Plumb are not those of the Sounding port. -/
theorem doPlumbCtl_sounding (mgmt : isMgmt path = true) (there : obsThere s = true) (on : soundingOn s = true)
    (port : Reg.OBS_SND_CTL ≤ a) :
    doPlumbCtl path a v s =
      let t := s.putReg a ((v &&& 0x103FF) ||| 3)
      if a = Reg.OBS_SND_CTL then if bit t F.OBS_SND_CTL_EN then t else sndStop 0 t
      else if a = Reg.OBS_SND_FILT then if 20 < F.OBS_SND_FILT_RATE.get v then s else s.putReg a (v &&& 0x1F7F)
      else if a = Reg.OBS_SND_LAT then s.putReg a (v &&& 0xFFFFFF)
      else s := by
  have noCtl : a ≠ Reg.OBS_PLUMB_CTL := by rintro rfl; exact absurd port (by decide)
  have noFilt : a ≠ Reg.OBS_PLUMB_FILT := by rintro rfl; exact absurd port (by decide)
  have noLat : a ≠ Reg.OBS_PLUMB_LAT := by rintro rfl; exact absurd port (by decide)
  simp [doPlumbCtl, mgmt, there, on, noCtl, noFilt, noLat]

theorem doPlumbCtl_absent (absent : obsThere s = false) : doPlumbCtl path a v s = s :=
  if_pos (by simp [absent])

end

/-- Settles O50: a write by the unit's power, a sample by its latency, a stop by its reason, a slot by its place in the tick, and
each control register by its row. -/
theorem observation : Obligations.Observation := by
  refine ⟨?counter, ?followed, ?unfollowed, ?pop, ?stop, ?slot, ?mark, ?plumb, ?sounding, ?absent⟩
  case counter =>
    intro path j v s unit core inBank
    exact run_effect (if_neg (by simp [obsThere_of unit core, inBank]))
  case followed =>
    intro h tag latency x s p found
    have judged := doPlumbSample_followed (latency := latency) (s := s.begun) found
    exact ⟨fun short => run_next (judged.trans (if_pos short)) rfl,
      fun long => run_effect (judged.trans (if_neg (Nat.not_lt.mpr long)))⟩
  case unfollowed =>
    intro h tag latency s none
    exact run_effect (doPlumbSample_other (s := s.begun) none)
  case pop =>
    intro path s
    exact ⟨fun unit core on owner => run_next (doPlumbPop_shown (s := s.begun) (obsThere_of unit core) on owner) rfl,
      fun hidden => run_emit (doPlumbPop_hidden (s := s.begun) hidden)⟩
  case stop =>
    intro cause s
    refine ⟨fun due active => run_effect ((if_pos due).trans (plumbStop_active (s := s.begun) active)), fun idle => run_effect ?_⟩
    obtain notDue | idle := idle
    · exact if_neg (Bool.eq_false_iff.mp notDue)
    · change when (plumbStopDue s cause) (plumbStop cause) s.begun = s.begun
      rw [when, plumbStop_idle (s := s.begun) idle, ite_self]
  case slot =>
    intro s step n
    exact ⟨fun active first => run_effect (doFrameSlot_tick (s := s.begun) active first),
      fun u f active later within next => run_effect (doFrameSlot_oldest (s := s.begun) active later within next),
      fun u active later within next => run_effect (doFrameSlot_idle (s := s.begun) active later within next),
      fun off => run_effect (doFrameSlot_off (s := s.begun) off)⟩
  case mark =>
    intro path v s unit core on
    exact run_effect (if_neg (by simp [obsThere_of unit core, on]))
  case plumb =>
    intro path v s mgmt unit core on old ok w
    have there := obsThere_of unit core
    have judged := doPlumbCtl_ctl (v := v) (s := s.begun) mgmt there on
    have inRange : ok → ¬(20 < F.OBS_PLUMB_CTL_RATE.get v ∨ 4 < F.OBS_PLUMB_CTL_OWNER.get v) := by
      rintro ⟨rate, owner⟩; omega
    refine ⟨fun fits new enabled => run_next ?_ rfl, fun fits new disabled => run_effect ?_, fun ignored => run_effect ?_,
      run_next (doPlumbCtl_filt (s := s.begun) mgmt there on) rfl, run_effect (doPlumbCtl_lat (s := s.begun) mgmt there on)⟩
    · rw [judged, if_neg (inRange fits)]
      exact (if_neg new).trans (if_neg enabled)
    · rw [judged, if_neg (inRange fits)]
      exact (if_neg new).trans (if_pos disabled)
    · rw [judged]
      refine if_pos ?_
      split
      · rfl
      · next fits => exact (or_assoc.mpr ignored).resolve_left fits
  case sounding =>
    intro path v s mgmt unit core on
    have there := obsThere_of unit core
    have judged := fun (a : Nat) => doPlumbCtl_sounding (a := a) (v := v) (s := s.begun) mgmt there on
    refine ⟨run_effect ?_, fun fits => run_effect ?_, fun out => run_effect ?_, run_effect (judged _ (by decide))⟩
    · exact (judged _ (by decide)).trans ((if_pos rfl).trans (when_not ..).symm)
    · exact (judged _ (by decide)).trans (if_neg (Nat.not_lt.mpr fits))
    · exact (judged _ (by decide)).trans (if_pos out)
  case absent =>
    intro path a j v s off
    have absent : obsThere s = false := obsThere_off off
    exact ⟨run_effect (if_pos (by simp [absent])), run_effect (if_pos (by simp [absent])),
      run_effect (doPlumbCtl_absent (s := s.begun) absent)⟩

end Sys2Proof.Machine
end

section
/-! Proofs of the Gauge store's writes, its parameter records, and the recorder's commands (R524 to R549). -/

namespace Sys2Proof.Machine

/-! A held write of the Gauge. -/

section
variable {s : State}

theorem doWriteHeld_mayRun (held : s.gauge.held.isSome = true) (idle : s.gauge.cur = none) :
    doWriteHeld s = match s.gauge.prioQ, s.gauge.normQ with
      | _ :: _, _ => if (gGrant s true).isNone then gStart (gHoldEnd s) else s
      | [], _ :: _ => if (gGrant s false).isNone then gStart (gHoldEnd s) else s
      | [], [] => gHoldEnd s := by
  refine (if_neg ?_).trans ?_
  · rw [idle, Option.isSome_none, Bool.or_false, ← Option.not_isSome, held]; decide
  · rfl

theorem doWriteHeld_prio (held : s.gauge.held.isSome = true) (idle : s.gauge.cur = none) (prio : s.gauge.prioQ ≠ [])
    (granted : gGrant s true = none) : doWriteHeld s = gStart (gHoldEnd s) := by
  rw [doWriteHeld_mayRun held idle]
  obtain ⟨r, rest, prio⟩ := List.exists_cons_of_ne_nil prio
  simp only [prio, granted, Option.isNone_none, if_true]

theorem doWriteHeld_norm (held : s.gauge.held.isSome = true) (idle : s.gauge.cur = none) (noPrio : s.gauge.prioQ = [])
    (norm : s.gauge.normQ ≠ []) : doWriteHeld s = if (gGrant s false).isNone then gStart (gHoldEnd s) else s := by
  rw [doWriteHeld_mayRun held idle]
  obtain ⟨r, rest, norm⟩ := List.exists_cons_of_ne_nil norm
  simp only [noPrio, norm]

theorem doWriteHeld_empty (held : s.gauge.held.isSome = true) (idle : s.gauge.cur = none) (noPrio : s.gauge.prioQ = [])
    (noNorm : s.gauge.normQ = []) : doWriteHeld s = gHoldEnd s := by
  rw [doWriteHeld_mayRun held idle]
  simp only [noPrio, noNorm]

end

/-! A mailbox's write that waits too long. -/

/-- A write of the mailbox waits in one of the three queues, and has for 12,500 ticks. -/
def withdrawDue (path : Nat) (s : State) : Bool :=
  (s.gauge.prioQ ++ s.gauge.normQ ++ s.gauge.waiting).any (fun r => r.mailbox == some path && decide (r.since + 12500 ≤ s.tick.count))

section
variable {path : Nat} {s : State}

theorem doWithdraw_eq : doWithdraw path s =
    if withdrawDue path s then
      match s.mgmt.inflight.find? (fun e => e.path == path && !e.committed) with
      | some e => answer path e.op rcBusy [] (abortCmd path s)
      | none => s
    else s := by
  simp only [doWithdraw, withdrawDue, List.any_append] <;> rfl

theorem doWithdraw_due {e : Inflight} (due : withdrawDue path s = true)
    (open_ : s.mgmt.inflight.find? (fun e => e.path == path && !e.committed) = some e) :
    doWithdraw path s = answer path e.op rcBusy [] (abortCmd path s) := by
  rw [doWithdraw_eq, if_pos due, open_]

theorem doWithdraw_early (early : withdrawDue path s = false) : doWithdraw path s = s := by
  rw [doWithdraw_eq, if_neg (Bool.eq_false_iff.mp early)]

end

/-! A parameter record's write. -/

theorem doParamWrite_admitted {path : Nat} {secured : Bool} {d : List Byte} {s : State} (takes : taken path 0xC071 d s = true)
    (length : d.length = 244) (admits : needsSession s false = false ∨ isSecured s path secured = true) :
    doParamWrite path secured d s =
      if 15 < byteAt d 0 ∨ !zeroAt d 1 1 then answer path 0xC071 rcInvalid [] s
      else if inHalt s || decide (12 ≤ byteAt d 0) then answer path 0xC071 rcRefused [] s
      else if paramTrialBusy s (at' d 2 2) then answer path 0xC071 rcBusy [] s
      else gEnq (.put (G.param (byteAt d 0)) (at' d 2 2) (.param (d.drop 4))) false (some path)
        (.param path (byteAt d 0) (at' d 2 2)) (startCmd path 0xC071 true s) :=
  (cmd_whole takes (by simp [length]) _).trans (if_neg (by simpa [Classical.or_iff_not_imp_left] using admits))

/-! What recording an event leaves of the region: its slots, and whether it is read and has a gap. -/

section
variable (s : State)

@[simp] theorem gStart_sed : (gStart s).sed = s.sed := by unfold gStart; (repeat' split) <;> rfl
@[simp] theorem gEnq_sed (op : GOp) (prio : Bool) (mailbox : Option Nat) (cont : Cont) :
    (gEnq op prio mailbox cont s).sed = s.sed := by simp [gEnq]
@[simp] theorem count_sed (ev at_ n : Nat) : (count ev at_ n s).sed = s.sed := by unfold count; split <;> rfl
@[simp] theorem sndPush_sed (kind unit : Nat) (payload : List Byte) : (sndPush kind unit payload s).sed = s.sed := by
  unfold sndPush; split
  · dsimp only; split <;> simp
  · rfl
@[simp] theorem logAdd_sed (h k : Nat) (b : EvBody) : (logAdd h k b s).1.sed = s.sed := by
  unfold logAdd logInterrupt; dsimp only; (repeat' split) <;> rfl
@[simp] theorem logAll_sed (k : Nat) (b : EvBody) : (logAll k b s).1.sed = s.sed := by
  refine List.foldlRecOn (headsOn s) _ (motive := fun (p : State × List SedReq) => p.1.sed = s.sed) rfl fun p kept h _ => ?_
  dsimp only
  split <;> exact (logAdd_sed ..).trans kept
@[simp] theorem sedAlert_sed (r : SedRec) : (sedAlert r s).sed = s.sed := by
  unfold sedAlert when; dsimp only; (repeat' split) <;> simp

/-- The gap that a start has to record, and the slots of the region that hold a record. -/
def State.sedSlots (s : State) : Bool × List Nat := (s.sed.gap, s.sed.region.map (·.1))

@[simp] theorem sedDrop_slots (sev : Nat) : (sedDrop sev s).sedSlots = s.sedSlots := by simp [sedDrop, State.sedSlots]
@[simp] theorem sedMerge_slots (n : Nat) : (sedMerge n s).sedSlots = s.sedSlots := by
  refine Prod.ext (by simp [State.sedSlots, sedMerge]) ?_
  rw [State.sedSlots, sedMerge_region, List.map_map]
  rfl
@[simp] theorem sedMirror_slots (r : SedRec) : (sedMirror r s).1.sedSlots = s.sedSlots := by
  unfold sedMirror State.sedSlots; dsimp only; (repeat' split) <;> simp
theorem sedSlots_of_sed {t u : State} (same : t.sed = u.sed) : t.sedSlots = u.sedSlots := by
  rw [State.sedSlots, same, State.sedSlots]
theorem sedCore_slots (q : SedReq) : (sedCore q s).1.sedSlots = s.sedSlots := by
  unfold sedCore
  dsimp only
  split
  · exact sedMerge_slots ..
  split
  · rfl
  refine (sedSlots_of_sed ((sndPush_sed ..).trans (sedAlert_sed ..))).trans ?_
  have logged : ∀ (p : Prop) [Decidable p] (k : Nat) (b : EvBody) (t : State),
      (if p then logAll k b t else (t, [])).1.sedSlots = t.sedSlots := fun p _ k b t => by
    split
    · exact sedSlots_of_sed (logAll_sed ..)
    · rfl
  refine (logged ..).trans ?_
  (repeat' split) <;> simp only [sedDrop_slots] <;>
    exact (sedMirror_slots ..).trans (sedSlots_of_sed ((count_sed ..).trans (satInc_sed ..)) : _ = State.sedSlots _)
theorem sedRun_slots (fuel : Nat) (l : List SedReq) : (sedRun fuel l s).sedSlots = s.sedSlots := by
  fun_induction sedRun fuel l s with
  | case1 => rfl
  | case2 => rfl
  | case3 s n q r t more core ih => exact ih.trans ((congrArg (·.1.sedSlots) core.symm).trans (sedCore_slots s q))
@[simp] theorem sed_slots (code sev unit p0 p1 p2 : Nat) : (sed code sev unit p0 p1 p2 s).sedSlots = s.sedSlots := sedRun_slots ..

end

/-- What a start's read of the region settles: its gap and slots, and whether the recorder is ready. -/
def State.sedScanned (s : State) : (Bool × List Nat) × Bool := (s.sedSlots, bit s F.SED_STAT_READY)

theorem sedScanned_if {p : Prop} [Decidable p] {t u : State} (same : t.sedScanned = u.sedScanned) :
    (if p then t else u).sedScanned = u.sedScanned := by
  split
  · exact same
  · rfl

theorem sed_scanned (code sev unit p0 p1 p2 : Nat) (s : State) : (sed code sev unit p0 p1 p2 s).sedScanned = s.sedScanned :=
  Prod.ext (sed_slots ..) (congrArg (· == 1) (sr_fld (sed_sr ..) _ (by decide)))

/-- A read of the region ends with the slots that failed freed, no gap left, and the recorder ready. -/
theorem doSedScan_scanned {bad : List Nat} {s : State} (notReady : bit s F.SED_STAT_READY = false) (mapReady : s.mtl.ready = true) :
    (doSedScan bad s).sedScanned = ((false, (s.sed.region.filter
      (fun e => !(bad.eraseDups.filter (fun k => decide (k < 131072))).contains e.1)).map (·.1)), true) := by
  refine (congrArg _ (if_neg (by simp [notReady, mapReady]))).trans ?_
  refine (sedScanned_if (sed_scanned ..)).trans ((sedScanned_if (sed_scanned ..)).trans ?_)
  have crc : ∀ (n : Nat) (t : State), (satAdd F.SED_ERR_CRC_BAD n t).sedScanned = t.sedScanned := fun n t =>
    Prod.ext (sedSlots_of_sed (satAdd_sed ..)) (bit_setF_other _ _ _ _ (.inl (by decide)))
  have ready : ∀ t : State, (setF F.SED_STAT_READY 1 t).sedScanned = (t.sedSlots, true) := fun t =>
    Prod.ext (sedSlots_of_sed (setF_sed ..)) (bit_setF_one _ _ rfl rfl)
  dsimp only
  split
  · exact ready _
  · exact (sed_scanned ..).trans ((crc ..).trans (ready _))

theorem tfind_eq_none {α : Type} {t : Tbl α} {k : Nat} (absent : k ∉ t.map (·.1)) : tfind t k = none := by
  induction t with
  | nil => rfl
  | cons e rest ih =>
    rw [List.map_cons, List.mem_cons, not_or] at absent
    exact (if_neg (Ne.symm absent.1)).trans (ih absent.2)

theorem doSedScan_freed {bad : List Nat} {s : State} {k : Nat} (notReady : bit s F.SED_STAT_READY = false)
    (mapReady : s.mtl.ready = true) (failed : k ∈ bad) (slot : k < 131072) : tfind (doSedScan bad s).sed.region k = none := by
  refine tfind_eq_none ?_
  have slots : (doSedScan bad s).sed.region.map (·.1) = _ := congrArg (·.1.2) (doSedScan_scanned notReady mapReady)
  simp [slots, failed, slot]

/-! The recorder's reading. -/

theorem begun_sedSortIn (s : State) (r : SedRec) (l : List SedRec) : sedSortIn s.begun r l = sedSortIn s r l := by
  induction l with
  | nil => rfl
  | cons x t ih => simp only [sedSortIn, begun_sedAge, ih]

theorem begun_sedSort (s : State) (l : List SedRec) : sedSort s.begun l = sedSort s l := by simp only [sedSort, begun_sedSortIn]

theorem begun_sedSource (s : State) (src : Nat) : sedSource s.begun src = sedSource s src := by
  simp only [sedSource, begun_sedSort]
  rfl

/-- What SED_READ returns of the records `l` where it gives no sequence to begin at: the first `n`, and where to go on. -/
def sedReadBody (s : State) (n : Nat) (l : List SedRec) : List Byte :=
  le 2 (l.take n).length ++ le 1 (if n < l.length then 1 else 0) ++ [(0 : Byte)] ++
    le 4 (match (l.take n).getLast? with | some r => (r.seq + 1) % 2 ^ 32 | none => s.sed.next) ++ (l.take n).flatMap recBytes

theorem doSedRead_newest {path : Nat} {d : List Byte} {s : State} (takes : taken path 0xC030 d s = true) (length : d.length = 8)
    (source : byteAt d 0 ≤ 1) (severity : byteAt d 1 ≤ 7) (some_ : at' d 2 2 ≠ 0) (few : at' d 2 2 ≤ 255)
    (newest : at' d 4 4 = 0xFFFFFFFF) :
    doSedRead path d s = answer path 0xC030 rcSuccess
      (sedReadBody s (at' d 2 2) ((sedSource s (byteAt d 0)).filter (fun r => decide (byteAt d 1 ≤ r.sev)))) s := by
  refine (cmd_whole takes (by simp [length]) _).trans ((if_neg (by omega)).trans ?_)
  simp only [newest, beq_self_eq_true, Bool.true_or, Bool.true_and, bne_self_eq_false, Bool.false_and, sedReadBody,
    decide_eq_true_eq, Bool.false_eq_true, if_false, if_true, Nat.add_zero] <;> rfl

/-- Settles O43: a write of the Gauge by what is under way and what is held, a parameter record by its number, and the
recorder's commands by their checks; a scan by what recording leaves of the region. -/
theorem gaugeAndRecorder : Obligations.GaugeAndRecorder := by
  refine ⟨?done, ?noWrite, ?held, ?withdraw, ?early, ?paramRead, ?paramWrite, ?record, ?scan, ?noScan, ?mark, ?read⟩
  case done =>
    intro torn s writes
    exact run_effect (if_pos writes)
  case noWrite =>
    intro torn s idle
    exact run_effect (if_neg (by simp [idle]))
  case held =>
    intro s held idle
    refine ⟨fun prio granted => run_effect (doWriteHeld_prio (s := s.begun) held idle prio granted), fun noPrio norm granted => ?_,
      fun noPrio norm holds => ?_, fun noPrio noNorm => run_effect (doWriteHeld_empty (s := s.begun) held idle noPrio noNorm)⟩
    · exact run_effect ((doWriteHeld_norm (s := s.begun) held idle noPrio norm).trans (if_pos (by simp [granted])))
    · obtain ⟨why, held_⟩ := Option.isSome_iff_exists.mp holds
      exact run_effect ((doWriteHeld_norm (s := s.begun) held idle noPrio norm).trans (if_neg (by simp [held_])))
  case withdraw =>
    intro path e s due open_
    exact run_effect (doWithdraw_due (s := s.begun) due open_)
  case early =>
    intro path s early
    exact run_effect (doWithdraw_early (s := s.begun) early)
  case paramRead =>
    intro path d s takes length zero
    have judged := cmd_whole (lenOk := d.length == 4) (s := s.begun) takes (by simp [length])
    exact ⟨fun inRange => run_emit ((judged _).trans (if_neg (by simpa [zero] using inRange))),
      fun out => run_emit ((judged _).trans (if_pos (.inl out)))⟩
  case paramWrite =>
    intro path secured d s takes length zero admits
    have judged := doParamWrite_admitted (s := s.begun) takes length admits
    refine ⟨fun low running noTrial => run_effect ?_, fun locked inRange => run_emit ?_, fun out => run_emit ?_⟩
    · rw [judged, if_neg (by simp [zero]; omega), if_neg (by simpa [running] using low), if_neg (by simp [noTrial])]
    · rw [judged, if_neg (by simp [zero]; omega), if_pos (by simp [locked])]
      rfl
    · rw [judged, if_pos (.inl out)]
      rfl
  case record =>
    intro code sev unit p0 p1 p2 s severity inRange
    exact run_effect (if_pos (by simp [severity, inRange]))
  case scan =>
    intro bad s notReady mapReady
    have scanned := doSedScan_scanned (bad := bad) (s := s.begun) notReady mapReady
    exact ⟨_, run_after _ _, congrArg (·.2) scanned, congrArg (·.1.1) scanned,
      fun k failed slot => doSedScan_freed (s := s.begun) notReady mapReady failed slot⟩
  case noScan =>
    intro bad s off
    exact run_effect (if_pos (by simpa using off))
  case mark =>
    intro path d s takes length zero
    have judged := cmd_whole (lenOk := d.length == 8) (s := s.begun) takes (by simp [length])
    refine ⟨fun behind older => run_next ((judged _).trans ?_) rfl, fun behind newer => run_emit ((judged _).trans ?_),
      fun ahead => run_emit ((judged _).trans (if_pos (.inr ahead)))⟩
    · exact (if_neg (by simpa [zero] using behind)).trans (if_neg (Nat.not_lt.mpr older))
    · exact (if_neg (by simpa [zero] using behind)).trans (if_pos newer)
  case read =>
    intro path d s takes length source severity some_ few newest l got
    have judged := doSedRead_newest (s := s.begun) takes length source severity some_ few newest
    rw [begun_sedSource] at judged
    exact run_emit judged

end Sys2Proof.Machine
end

section
/-! Proofs of the power states: requests, agreement, wakes and exits (R558 to R577). -/

namespace Sys2Proof.Machine

/-! PWR_STATE_REQ. -/

section
variable {path target : Nat} {inp : List Byte} {s : State}

theorem doPwrReq_taken (takes : taken path 0xC040 (le 1 target ++ inp.drop 1) s = true) (length : inp.length = 4) :
    doPwrReq path target inp s =
      if pwrCheck s path target (!zeroAt inp 1 3) = rcSuccess then pwrGo path target s
      else sed 0x0C06 sNOTICE 13 target (pwrCheck s path target (!zeroAt inp 1 3)) (pathCode path)
        (answer path 0xC040 (pwrCheck s path target (!zeroAt inp 1 3)) (pwrOut s) s) :=
  cmd_whole takes (by simp [length]) _

theorem pwrCheck_badTarget (reserved : Bool) (out : 4 < target) : pwrCheck s path target reserved = rcInvalid :=
  if_pos (by simp [out])

theorem pwrGo_same (same : target = s.pwr.st) : pwrGo path target s = answer path 0xC040 rcSuccess (pwrOut s) s := if_pos same

theorem pwrGo_off (other : target ≠ s.pwr.st) (off : target = 4) :
    pwrGo path target s =
      let t := setF F.PWR_STAT_TARGET target s
      answer path 0xC040 rcSuccess (pwrOut t) { t with sup := { t.sup with offAsked := true } } :=
  (if_neg other).trans (if_pos off)

theorem pwrGo_low (other : target ≠ s.pwr.st) (low : target = 2 ∨ target = 3) (runs : s.pwr.st < 2) :
    pwrGo path target s = entryStart path target (setF F.PWR_STAT_TARGET target s) := by
  refine (if_neg other).trans ((if_neg (by omega)).trans ((if_pos (by omega)).trans (if_neg ?_)))
  rw [setF_pwr]
  omega

theorem pwrGo_high (other : target ≠ s.pwr.st) (high : target ≤ 1) :
    pwrGo path target s =
      let t := setF F.PWR_STAT_TARGET target s
      let u := if target = 0 then idleLeave 1 t else idleEnter 1 t
      if s.pwr.st = 2 then wakeStart 3 (startCmd path 0xC040 false t) else answer path 0xC040 rcSuccess (pwrOut u) u := by
  refine (if_neg other).trans ((if_neg (by omega)).trans ((if_neg (by omega)).trans ?_))
  rw [setF_pwr]

end

/-- The five commands of PWR_STATE_REQ with a target. -/
theorem exec_pwrStateReq {path target : Nat} {inp : List Byte} {c : Instr} (s : State)
    (listed : (c, target) ∈ [(Instr.pwrStateReqRun path inp, 0), (.pwrStateReqIdle path inp, 1), (.pwrStateReqSleep path inp, 2),
      (.pwrStateReqDeep path inp, 3), (.pwrStateReqOff path inp, 4)]) :
    exec c s = run (doPwrReq path target inp) s := by
  simp only [List.mem_cons, List.not_mem_nil, or_false, Prod.mk.injEq] at listed
  obtain ⟨rfl, rfl⟩ | ⟨rfl, rfl⟩ | ⟨rfl, rfl⟩ | ⟨rfl, rfl⟩ | ⟨rfl, rfl⟩ := listed <;> rfl

/-! A unit's answer, and one that does not come. -/

section
variable {u : Nat} {busy : Bool} {e : Entry} {s : State}

theorem doUnitAgree_halt (halt : inHalt s = true) : doUnitAgree u busy s = entryCut 5 s := if_pos halt

theorem doUnitAgree_asked (noHalt : inHalt s = false) (enters : s.pwr.entry = some e) (asked : askedUnit s = some u) :
    doUnitAgree u busy s =
      if unitClamped s u then agreed u s
      else if busy || unitRefuses s e u then entryAbandon 1 u (sed 0x0C02 sNOTICE 13 e.target u (e.point.getD 0) s)
      else if (unitStops e u s).2 then agreed u (unitStops e u s).1 else (unitStops e u s).1 := by
  refine (if_neg (Bool.eq_false_iff.mp noHalt)).trans ?_
  rw [enters]
  exact if_neg (not_not_intro asked)

theorem doUnitAgree_notAsked (noHalt : inHalt s = false) (other : askedUnit s ≠ some u) : doUnitAgree u busy s = s := by
  refine (if_neg (Bool.eq_false_iff.mp noHalt)).trans ?_
  split
  · rfl
  · exact if_pos other

theorem doEntryTimeout_asked (enters : s.pwr.entry = some e) :
    doEntryTimeout u s =
      if askedUnit s = some u ∧ e.asked + fld s F.PWR_CTL_AGREE_MS * 250 ≤ s.tick.count then
        entryAbandon 3 u (sed 0x0C04 sWARNING 13 e.target u (fld s F.PWR_CTL_AGREE_MS) s)
      else s := by
  simp only [doEntryTimeout, enters]

theorem doEntryTimeout_notAsked (other : askedUnit s ≠ some u) : doEntryTimeout u s = s := by
  unfold doEntryTimeout
  split
  · exact if_neg fun due => other due.1
  · rfl

end

/-! The end of a DEEP entry. -/

/-- The retention banks that there are. -/
def retentionBanks (s : State) : List Nat := (List.range 9).filter (bankThere s)

/-- The banks' signatures written and the point of no return passed. -/
def retentionSigned (crcs : List (BitVec 32)) (e : Entry) (s : State) : State :=
  modPwr (fun p => { p with entry := some { e with point := some 3 } })
    (setF F.PWR_STAT_POINT 3 (setF F.PWR_RET_STAT_SIGNED ((retentionBanks s).foldl (fun a b => a + 2 ^ b) 0)
      (forEach (retentionBanks s) (fun b s => setF (F.PWR_SIG_CRC b) (lat 0 crcs b).toNat s) s)))

theorem doSign_signing {crcs : List (BitVec 32)} {e : Entry} {s : State} (enters : s.pwr.entry = some e)
    (signing : e.signing = true) (all : e.agreed = 11) :
    doSign crcs s =
      let v := retentionSigned crcs e s
      let ms := (v.tick.count - e.startTick) / 250
      if e.wake.isSome then entryWake v else
      sed 0x0C00 sINFO 13 3 ms e.cleaned (deepLoss (modPwr (fun p => { p with st := 3, entry := none })
        (satInc F.PWR_CNT_ENTRIES (setF F.PWR_TIME_ENTRY_MS ms v)))) := by
  unfold doSign
  rw [enters]
  exact if_neg (by simp [signing, all])

/-! Wakes. -/

section
variable {src : Nat} {s : State}

theorem idleLeave_idle {cause : Nat} (idle : s.pwr.st = 1) :
    idleLeave cause s = sed 0x0C20 sDEBUG 13 0 cause (s.tick.count - s.pwr.idleSince)
      { s with pwr := { s.pwr with st := 0, idleAsked := false, quietTicks := 0 } } :=
  if_neg (not_not_intro idle)

theorem execWakeEvent_wakes (s : State) (noTimer : src ≠ 4) : execWakeEvent src s = run (wakeStart src) s :=
  congrArg (run · s) (funext fun _ => if_neg noTimer)

theorem wakeStart_entering {e : Entry} (source : src < 7) (on : wakeOn s src = true) (enters : s.pwr.entry = some e) :
    wakeStart src s = { s with pwr := { s.pwr with entry := some { e with wake := some (e.wake.getD src) } } } := by
  refine (if_neg (by simp [source, on])).trans ?_
  rw [enters]

theorem wakeStart_resting (source : src < 7) (on : wakeOn s src = true) (noEntry : s.pwr.entry = none)
    (rests : s.pwr.st = 2 ∨ s.pwr.st = 3) (noExit : s.pwr.exit = none) :
    wakeStart src s =
      let t := setF F.PWR_STAT_WAKE_SRC src (setF F.PWR_WAKE_STAT_SRC (fld s F.PWR_WAKE_STAT_SRC ||| 2 ^ src) s)
      { t with pwr := { t.pwr with exit := some (t.pwr.st, src, t.tick.count) } } := by
  refine (if_neg (by simp [source, on])).trans ?_
  rw [noEntry]
  exact if_neg (by simpa [noExit, Classical.or_iff_not_imp_left] using rests)

end

theorem doWake_leaving {crcs : List (BitVec 32)} {left src t : Nat} {s : State} (leaves : s.pwr.exit = some (left, src, t)) :
    doWake crcs s =
      let u := if left = 3 then bankCheck crcs (coresRun s) else s
      let v := modPwr (fun p => { p with st := 0, exit := none, stopped := [], quietTicks := 0 }) u
      let w := forEach (headsOn v) (fun h s => modHead h (fun x => { x with lowPower := 0 }) s) v
      let ms := (w.tick.count - t) / 250
      let x := sed 0x0C01 sINFO 13 left src ms (bufferToRing (setF F.PWR_TIME_EXIT_MS ms w))
      let asked := (x.mgmt.inflight.filter (fun e => e.op == 0xC040)).map (·.path)
      let y := if asked.isEmpty || fld x F.PWR_STAT_TARGET ≠ 1 then x else idleEnter 1 x
      pump (forEach asked (fun p s => endCmd p 0xC040 rcSuccess (pwrOut s) s) y) := by
  unfold doWake
  rw [leaves]

/-- Settles O44: a request by the check and by the target against the state, a unit's answer by who is asked, the end of an entry
by a latched wake, and a wake by what the controller does. -/
theorem powerRequests : Obligations.PowerRequests := by
  refine ⟨?request, ?badTarget, ?agree, ?halt, ?notAsked, ?timeout, ?signed, ?idleExit, ?wakeEvent, ?timer, ?wake, ?ctl⟩
  case request =>
    intro path target inp c s listed takes length zero rc
    have judged : doPwrReq path target inp s.begun = _ := doPwrReq_taken (s := s.begun) takes length
    rw [zero, Bool.not_true] at judged
    rw [exec_pwrStateReq s listed]
    refine ⟨fun ok same => run_emit ?_, fun ok other off => run_effect ?_, fun ok other low runs => run_effect ?_,
      fun ok other high awake => run_effect ?_, fun ok high sleeps => run_effect ?_,
      fun bad => run_effect (judged.trans (if_neg bad))⟩
    all_goals refine judged.trans ((if_pos ok).trans ?_)
    · exact pwrGo_same (s := s.begun) same
    · exact pwrGo_off (s := s.begun) other off
    · exact pwrGo_low (s := s.begun) other low runs
    · exact (pwrGo_high (s := s.begun) other high).trans (if_neg awake)
    · exact (pwrGo_high (s := s.begun) (by change target ≠ s.pwr.st; omega) high).trans (if_pos sleeps)
  case badTarget =>
    intro path inp s length out takes
    have judged : doPwrReq path (byteAt inp 0) inp s.begun = _ := doPwrReq_taken (s := s.begun) takes length
    rw [pwrCheck_badTarget _ out] at judged
    refine run_effect ((congrArg (doPwrReq path · inp s.begun) (if_pos out)).trans ?_)
    exact judged.trans (if_neg (by decide))
  case agree =>
    intro u busy e s noHalt enters asked
    have judged := doUnitAgree_asked (busy := busy) (s := s.begun) noHalt enters asked
    refine ⟨fun clamped => run_effect (judged.trans (if_pos clamped)), fun works refuses => run_effect ?_,
      fun works free stops => run_effect ?_⟩
    · exact judged.trans ((if_neg (Bool.eq_false_iff.mp works)).trans (if_pos (by simpa using refuses)))
    · exact judged.trans ((if_neg (Bool.eq_false_iff.mp works)).trans (if_neg (by simp [free, stops])))
  case halt =>
    intro u busy s halt
    exact run_effect (doUnitAgree_halt (s := s.begun) halt)
  case notAsked =>
    intro u busy s noHalt other
    exact ⟨run_effect (doUnitAgree_notAsked (s := s.begun) noHalt other), run_effect (doEntryTimeout_notAsked (s := s.begun) other)⟩
  case timeout =>
    intro u e s enters asked
    have judged := doEntryTimeout_asked (u := u) (s := s.begun) enters
    exact ⟨fun late => run_effect (judged.trans (if_pos ⟨asked, late⟩)),
      fun early => run_effect (judged.trans (if_neg fun due => absurd due.2 (Nat.not_le.mpr early)))⟩
  case signed =>
    intro crcs e s enters signing all banks u v
    have judged := doSign_signing (crcs := crcs) (s := s.begun) enters signing all
    exact ⟨fun noWake => run_effect (judged.trans (if_neg (by simp [noWake]))), fun woken => run_effect (judged.trans (if_pos woken))⟩
  case idleExit =>
    intro c s cause idle
    exact run_effect ((if_pos cause).trans (idleLeave_idle (s := s.begun) idle))
  case wakeEvent =>
    intro src s source noTimer on
    have starts : exec (.wakeEvent src) s = run (wakeStart src) s := execWakeEvent_wakes s noTimer
    exact ⟨fun e enters => starts.trans (run_next (wakeStart_entering (s := s.begun) source on enters) rfl),
      fun noEntry rests noExit => starts.trans (run_effect (wakeStart_resting (s := s.begun) source on noEntry rests noExit))⟩
  case timer =>
    intro s t
    refine ⟨fun set due => run_effect (if_pos ⟨set, due⟩), fun early => run_effect (if_neg ?_)⟩
    rintro ⟨set, due⟩
    obtain unset | early := early
    · exact set unset
    · exact absurd due (Nat.not_le.mpr early)
  case wake =>
    intro crcs left src t s leaves u v w ms x asked y
    refine run_effect ((doWake_leaving (s := s.begun) leaves).trans ?_)
    have restored : (if left = 3 then bankCheck crcs (coresRun s.begun) else s.begun) = u := 
      (when_decide (left = 3) (fun s => bankCheck crcs (coresRun s)) s.begun).symm
    rw [restored]
  case ctl =>
    intro path v s mgmt
    refine ⟨fun minIdle maxIdle minAgree maxAgree => run_effect (if_neg ?_), fun out => run_effect (if_pos ?_)⟩
    · simp [mgmt]; omega
    · simp [mgmt]; omega

end Sys2Proof.Machine
end

section
/-! Proofs of the power sequence: power-up, power-down and the rails (R580 to R591, R607). -/

namespace Sys2Proof.Machine

theorem doVauxPor_idle {s : State} (idle : s.gauge.cur = none) :
    doVauxPor s = domainsReset { s with
      gauge := { s.gauge with cur := none, prioQ := [], normQ := [], waiting := [], held := none }
      sup := { Sup.init with st := 7, step := 0, t0 := false, en := 0, pg := 0, up := 0, part := s.sup.part, leader := s.sup.leader
                             forced := s.sup.forced, mrLow := s.sup.mrLow }
      therm := Therm.init } := by
  have kept : (if s.gauge.cur.isSome then (gWriteEnd true s).1 else s) = s := if_neg (by simp [idle])
  simp only [doVauxPor, kept]

/-- Power-up may begin: the device waits, and has been off for 100 ms. -/
theorem doUpStart_due {s : State} (waits : s.sup.st = 0) (rested : s.sup.offTick = 0 ∨ s.sup.offTick + 25000 ≤ s.tick.count) :
    doUpStart s = if s.sup.part then modSup (fun x => { x with solo := false, vinBad := false, seicheDone := true }) s else upStart s :=
  if_neg (by omega)

/-! A sequencing step. -/

/-- The rails of the step that have come up. -/
def railsRisen (pg : BitVec 10) (s : State) : State :=
  modSup (fun x => { x with
    pg := x.pg ||| (pg &&& railMask (upRails s s.sup.step) &&& ~~~ s.sup.failed)
    up := x.up ||| (pg &&& railMask (upRails s s.sup.step) &&& ~~~ s.sup.failed) }) s

theorem doStepDone_waiting {pg : BitVec 10} {s : State} (sequencing : s.sup.st = 1) (waiting : s.sup.seicheDone = false) :
    doStepDone pg s =
      let u := railsRisen pg s
      if railMask (upRails s s.sup.step) &&& ~~~ (u.sup.up ||| u.sup.failed) = 0 then upNext u else u :=
  if_neg (by simp [sequencing, waiting])

theorem doPgTimeout_down {rail : Nat} {s : State} (sequencing : s.sup.st = 1) (due : (upRails s s.sup.step).contains rail = true)
    (down : s.sup.up.getLsbD rail = false) (working : s.sup.failed.getLsbD rail = false) :
    doPgTimeout rail s =
      let t := modSup (fun x => { x with failed := x.failed ||| railMask [rail] }) s
      let u := setF F.GLB_STATE_FAILED_RAILS t.sup.failed.toNat t
      sed 0x0D01 sERROR 14 rail u.sup.step (railEnt u rail).tPg u :=
  if_neg (by rw [sequencing, due, down, working]; decide)

/-! A discharge. -/

/-- The rails that discharge are down, but those of `left` have not discharged, and each of these is recorded. -/
def railsDischarged (left : BitVec 10) (s : State) : State :=
  forEach ((List.range 10).filter (fun n => left.getLsbD n)) (fun n s => sed 0x0D02 sWARNING 14 n (draw 16 s).1.toNat
    (draw 16 s).2.sup.step (draw 16 s).2)
    (modSup (fun x => { x with nodis := x.nodis ||| left, pg := x.pg &&& ~~~ discharging s }) s)

theorem doDischarge_down {left : BitVec 10} {s : State} (down : s.sup.st = 5) (some_ : discharging s ≠ 0) :
    doDischarge left s =
      let u := railsDischarged (left &&& discharging s) s
      if u.sup.reverse then reverseStep 11 u
      else if inGroup u then modSup (fun x => { x with seicheDone := true }) u
      else if 21 ≤ u.sup.step then downEnd u
      else downStep 8 (u.sup.step + 1) u :=
  if_neg fun other => other.elim (absurd down) some_

theorem railsDischarged_all (s : State) :
    railsDischarged (0 &&& discharging s) s = modSup (fun x => { x with pg := x.pg &&& ~~~ discharging s }) s := by
  simp [railsDischarged, forEach]

theorem doOnRequest_kept {src : Nat} {s : State} (source : src < 3) (off : s.sup.st = 5 ∨ (s.sup.st = 4 ∧ s.sup.toOff = true)) :
    doOnRequest src s = modSup (fun x => { x with onLatched := true }) s :=
  if_pos ⟨source, off⟩

/-! A rail that was up loses its power good. -/

/-- The loss of a rail noted and recorded. -/
def railLossNoted (r : Nat) (s : State) : State :=
  let t := modSup (fun x => { x with pg := x.pg &&& ~~~ railMask [r] }) s
  let u := setF F.SUP_RAIL_LOST_LOST (fld t F.SUP_RAIL_LOST_LOST ||| 2 ^ r) t
  sed 0x0D03 sERROR 14 r u.sup.st 0 u

/-- The links of the enabled heads dropped. -/
def portsDropped (s : State) : State :=
  forEach (headsOn s) (fun h s => modHead h (fun x => { x with released := false }) (linkDown h 0 s)) s

theorem doPgLost_up {r : Nat} {s : State} (runs : s.sup.st = 2 ∨ s.sup.st = 3) (up : s.sup.up.getLsbD r = true)
    (good : s.sup.pg.getLsbD r = true) :
    doPgLost r s =
      if r = 2 ∨ r = 3 then
        if r = 2 then forEach [0, 1] (fun n s => linkLost n 1 0 s) (portsDropped (railLossNoted r s))
        else portsDropped (railLossNoted r s)
      else if r = 9 then modSup (fun x => { x with budget := 0, charging := false }) (railLossNoted r s)
      else flushStart 6 (railLossNoted r s) := by
  refine if_neg ?_
  simp only [up, good, Bool.not_true, Bool.false_eq_true, or_false]
  omega

/-- Settles O45: each rail's event by the supervisor's state, a step by the rails that are still missing, a discharge by the
direction and the group, and a lost rail by its number. -/
theorem powerSequence : Obligations.PowerSequence := by
  refine ⟨?release, ?noRelease, ?por, ?snapshot, ?upStart, ?noUpStart, ?stepDone, ?pgTimeout, ?discharged, ?left, ?onRequest,
    ?noOnRequest, ?pgLost⟩
  case release =>
    intro straps s off
    exact run_effect (if_neg (not_not_intro off))
  case noRelease =>
    intro straps s on
    exact run_effect (if_pos on)
  case por =>
    intro s idle
    exact run_effect (doVauxPor_idle (s := s.begun) idle)
  case snapshot =>
    intro s on
    exact run_effect (if_neg (Nat.not_le.mpr on))
  case upStart =>
    intro s waits rested
    have judged := doUpStart_due (s := s.begun) waits rested
    exact ⟨fun alone => run_effect (judged.trans (if_neg (Bool.eq_false_iff.mp alone))),
      fun part => run_next (judged.trans (if_pos part)) rfl⟩
  case noUpStart =>
    intro s other
    exact run_effect (if_pos (.inl other))
  case stepDone =>
    intro pg s sequencing waiting m new u
    have judged := doStepDone_waiting (pg := pg) (s := s.begun) sequencing waiting
    exact ⟨fun all => run_effect (judged.trans (if_pos all)), fun missing => run_effect (judged.trans (if_neg missing))⟩
  case pgTimeout =>
    intro rail s sequencing due down working
    exact run_effect (doPgTimeout_down (s := s.begun) sequencing due down working)
  case discharged =>
    intro s down some_ forward alone u
    have judged := doDischarge_down (left := 0) (s := s.begun) down some_
    rw [railsDischarged_all] at judged
    have here : doDischarge 0 s.begun = if 21 ≤ s.sup.step then downEnd u else downStep 8 (s.sup.step + 1) u :=
      judged.trans ((if_neg (Bool.eq_false_iff.mp forward)).trans (if_neg (Bool.eq_false_iff.mp alone)))
    exact ⟨fun last => run_effect (here.trans (if_pos last)), fun more => run_effect (here.trans (if_neg (Nat.not_le.mpr more)))⟩
  case left =>
    intro left s down some_ l u
    have judged := doDischarge_down (left := left) (s := s.begun) down some_
    exact ⟨fun reverse => run_effect (judged.trans (if_pos reverse)),
      fun forward group => run_effect (judged.trans ((if_neg (Bool.eq_false_iff.mp forward)).trans (if_pos group)))⟩
  case onRequest =>
    intro src s source off
    exact run_next (doOnRequest_kept (s := s.begun) source off) rfl
  case noOnRequest =>
    intro src s noDown noFlush
    exact run_effect (if_neg fun off => off.2.elim noDown fun flush => noFlush flush.1)
  case pgLost =>
    intro r s runs up good note ports
    have judged := doPgLost_up (s := s.begun) runs up good
    refine ⟨fun two => run_effect (judged.trans ((if_pos (.inl two)).trans (if_pos two))),
      fun three => run_effect (judged.trans ((if_pos (.inr three)).trans (if_neg (by omega)))),
      fun nine => run_effect (judged.trans ((if_neg (by omega)).trans (if_pos nine))), fun other => ?_⟩
    simp only [List.mem_cons, List.not_mem_nil, or_false] at other
    exact run_effect (judged.trans ((if_neg (by omega)).trans (if_neg (by omega))))

end Sys2Proof.Machine
end

section
/-! Proofs of GUARD, the power-fail flush, the buttons and the loss of REFCLK (R592 to R618, R704). -/

namespace Sys2Proof.Machine

/-! The end of a flush. -/

/-- The media path still has data of this flush to make durable. -/
def flushBusy (f : Flush) (s : State) : Bool := !f.deep && coreOn s && f.mtlSt != 0

/-- A flush with what step 3 drains. -/
def flushDrained (f : Flush) (s : State) : State :=
  if flushBusy f s && decide (f.step ≤ 3) then lcPumpAll (drain s) else s

/-- What a flush does once its data is durable: it closes, and ends where its Gauge writes are done. -/
def flushFinished (f : Flush) (s : State) : State :=
  let w := when (decide (f.step ≤ 3)) (flushClose f) s
  let x := gRun (gFuel w) w
  match x.sup.flush with
  | some g => if prioIdle x then flushEnd g x else x
  | none => x

theorem doFlushDone_running {ok : Bool} {dur : Nat} {f : Flush} {s : State} (flushes : s.sup.flush = some f) (state : s.sup.st = 4)
    (open_ : f.step < 5) :
    doFlushDone ok dur s =
      let u := flushCut s
      let v := flushDrained f u
      if flushBusy f u && !drained v then v else flushFinished { f with dur := dur, vinOk := ok } v := by
  unfold doFlushDone
  rw [flushes]
  refine (if_neg (by omega)).trans ?_
  simp only [flushFinished, when_decide]
  rfl

theorem doFlushDone_none {ok : Bool} {dur : Nat} {s : State} (none : s.sup.flush = none ∨ s.sup.st ≠ 4) :
    doFlushDone ok dur s = s := by
  unfold doFlushDone
  split
  · rfl
  · next f flushes => exact if_pos (.inl (none.resolve_left (by simp [flushes])))

theorem doFlushIncomplete_early {f : Flush} {s : State} (flushes : s.sup.flush = some f) (state : s.sup.st = 4) (open_ : f.step < 4) :
    doFlushIncomplete 0 s =
      let s := modSup (fun x => { x with flushed := some f.cause }) s
      let s := { s with mgmt := { s.mgmt with dirtyShutdowns := s.mgmt.dirtyShutdowns + 1 } }
      let s := sed 0x0D14 sCRITICAL 14 f.cause 0 (dMib s) s
      let s := putSnap (snapNow f.cause false false false s) s
      goDown (gRun (gFuel s) s) := by
  unfold doFlushIncomplete
  rw [flushes]
  exact (if_neg (by omega)).trans (if_neg (by simp))

/-! The buttons. -/

theorem doBtn_short {ms : Nat} {s : State} (min : 50 ≤ ms) (max : ms < 8000) (on : s.sup.st < 6) :
    doBtn ms s =
      let t := satInc F.SUP_BTN_PRESSES s
      if s.pwr.st = 2 ∨ s.pwr.st = 3 then wakeStart 1 t
      else if s.sup.st = 2 ∨ s.sup.st = 3 then sed 0x0D40 sINFO 14 ms s.sup.st 0 t else t := by
  refine (if_neg (by omega)).trans ?_
  simp only [satInc_pwr, satInc_sup]

/-- A forced off, recorded. -/
def offForced (s : State) : State :=
  modSup (fun x => { x with forced := true, toOff := true, onLatched := false })
    (sed 0x0D41 sWARNING 14 (dMib s) 0 0 (setF F.SUP_BTN_HELD 1 s))

theorem doForceOff_on {s : State} (on : s.sup.st < 6) :
    doForceOff s =
      let u := offForced s
      if s.sup.st = 0 then modPwr (fun p => { p with st := 4 }) (modSup (fun x => { x with st := 6 }) u)
      else if s.sup.st = 1 then modSup (fun x => { x with offAsked := true }) u
      else if s.sup.st = 4 then
        modSup (fun x => { x with
          cause := 2, flush := x.flush.map (fun f => { f with off := true, cause := if f.step < 4 then 2 else f.cause }) }) u
      else flushStart 2 u := by
  have same : (offForced s).sup.st = s.sup.st := by simp [offForced]
  rw [← same]
  exact if_neg (Nat.not_le.mpr on)

theorem doRefclkLost_on {s : State} (on : s.sup.st < 6) (clocked : s.sup.refclk = true) :
    doRefclkLost s =
      let run_ := s.sup.st == 2 || s.sup.st == 3
      let t := modSup (fun x => { x with refclk := false }) s
      let u := sed 0x0060 sCRITICAL 16 (min t.sup.st 5) (t.tick.count % 2 ^ 32) (if run_ then 1 else 0) t
      flushStart 6 (when (isFollower u && bit u F.TICK_SYNC_STAT_LOCKED) (doSyncLost 0) u) :=
  if_neg (by simp [on, clocked])

/-- Settles O46: each event by the supervisor's state; the end of a flush by its step and by what is left to drain, and a forced
off by the state that it finds. -/
theorem flushAndGuard : Obligations.FlushAndGuard := by
  refine ⟨?enter, ?noEnter, ?leave, ?noLeave, ?vinFail, ?start, ?done, ?noDone, ?incomplete, ?press, ?noPress, ?forceOff, ?assert,
    fun s => rfl, fun s => ⟨?wake, ?noWake⟩, ?refclk⟩
  case enter =>
    intro vin s runs
    exact run_effect (if_neg (not_not_intro runs))
  case noEnter =>
    intro vin s other
    exact run_effect (if_pos other)
  case leave =>
    intro vin s guards
    exact run_effect (if_neg (not_not_intro guards))
  case noLeave =>
    intro vin s other
    exact run_effect (if_pos other)
  case vinFail =>
    intro vin s on
    change execVinFail vin s = _
    exact run_effect (if_neg (Nat.not_le.mpr on))
  case start =>
    intro cause s named
    change execFlushStart cause s = _
    exact run_effect (if_pos named)
  case done =>
    intro ok dur f s flushes state open_ u busy v
    have judged := doFlushDone_running (ok := ok) (dur := dur) (s := s.begun) flushes state open_
    refine ⟨fun works dirty => run_effect (judged.trans (if_pos ?_)), fun finished => ?_⟩
    · exact Bool.and_eq_true_iff.mpr ⟨works, (Bool.not_eq_true' _).mpr dirty⟩
    · refine run_effect (judged.trans ((if_neg ?_).trans rfl))
      rintro unfinished
      obtain ⟨works, dirty⟩ := Bool.and_eq_true_iff.mp unfinished
      obtain free | clean := finished
      · exact absurd works (Bool.eq_false_iff.mp free)
      · exact Bool.noConfusion (clean.symm.trans ((Bool.not_eq_true' _).mp dirty))
  case noDone =>
    intro ok dur s none
    exact run_effect (doFlushDone_none (s := s.begun) none)
  case incomplete =>
    intro f s flushes state open_
    exact run_effect (doFlushIncomplete_early (s := s.begun) flushes state open_)
  case press =>
    intro ms s min max on
    have judged := doBtn_short (s := s.begun) min max on
    exact ⟨fun rests => run_effect (judged.trans (if_pos rests)),
      fun awake runs => run_effect (judged.trans ((if_neg (by change ¬(s.pwr.st = 2 ∨ s.pwr.st = 3); omega)).trans (if_pos runs)))⟩
  case noPress =>
    intro ms s out
    exact run_effect (if_pos (by omega))
  case forceOff =>
    intro s on u
    have judged : doForceOff s.begun =
      if s.sup.st = 0 then _ else if s.sup.st = 1 then _ else if s.sup.st = 4 then _ else _ := doForceOff_on (s := s.begun) on
    refine ⟨fun waits => run_effect (judged.trans (if_pos waits)),
      fun sequencing => run_effect (judged.trans ((if_neg (by omega)).trans (if_pos sequencing))),
      fun flushes => run_effect (judged.trans ((if_neg (by omega)).trans ((if_neg (by omega)).trans (if_pos flushes)))), fun runs => ?_⟩
    simp only [List.mem_cons, List.not_mem_nil, or_false] at runs
    exact run_effect (judged.trans ((if_neg (by omega)).trans ((if_neg (by omega)).trans (if_neg (by omega)))))
  case assert =>
    intro s on
    change execMrNAssert s = _
    exact run_effect (if_neg (Nat.not_le.mpr on))
  case wake => exact fun off => run_effect (if_pos off)
  case noWake => exact fun on => run_effect (if_neg on)
  case refclk =>
    intro s on clocked
    exact run_effect (doRefclkLost_on (s := s.begun) on clocked)

end Sys2Proof.Machine
end

section
/-! Proofs of housekeeping, the Reservoir, its registers and SEICHE (R596, R603 to R625). -/

namespace Sys2Proof.Machine

/-! The Reservoir. -/

section
variable {s : State}

theorem doResCharged_charging {ms : Nat} (charges : s.sup.charging = true) :
    doResCharged ms s =
      let u := modSup (fun x => { x with charging := false, everCharged := true, firstTarget := true, resV := max x.resV (resTarget s) }) s
      if !s.sup.firstTarget then testStart (sed 0x0D20 sINFO 14 ms (fld u F.SUP_RES_CTL_TARGET) 0 u) else u :=
  if_neg (by simp [charges])

/-- A fault is judged by the voltage that it gives. -/
theorem execResFault_working {why v : Nat} (on : s.sup.st < 6) (working : s.sup.faulted = false) :
    execResFault why v s = run (fun s =>
      if (why = 1 ∧ v < 2800) ∨ (why = 2 ∧ 3150 < v) then resFault why v (modSup (fun x => { x with resV := v }) s) else s) s := by
  refine run_effect (if_neg ?_)
  rintro (off | faulted)
  · exact absurd off (Nat.not_le.mpr on)
  · exact Bool.eq_false_iff.mp working faulted

theorem execResTestStart_due {cause : Nat} (on : s.sup.st < 6) (idle : s.sup.testing = false)
    (due : cause = 0 ∨ cause = 2 ∨ (cause = 1 ∧ s.sup.testEpoch + 4096 ≤ epoch s)) :
    execResTestStart cause s = .next (s.after testStart) := by
  refine run_effect ((if_neg ?_).trans ((if_neg ?_).trans (if_pos (by omega))))
  · simpa [idle] using on
  · rintro ⟨one, early⟩
    change epoch s < s.sup.testEpoch + 4096 at early
    omega

theorem execResTestStart_early {cause : Nat} (on : s.sup.st < 6) (idle : s.sup.testing = false) (one : cause = 1)
    (early : epoch s < s.sup.testEpoch + 4096) : execResTestStart cause s = .next (s.after id) :=
  run_effect ((if_neg (by simpa [idle] using on)).trans (if_pos ⟨one, early⟩))

theorem doResTest_testing {c esr : Nat} (tests : s.sup.testing = true) :
    doResTest c esr s =
      let u := setF F.SUP_RES_CTL_TEST (if s.sup.testPending then 1 else 0)
        (modSup (fun x => { x with testing := false, cEff := c, esr := esr, testEpoch := epoch s }) s)
      let b := budgetAt u (resTarget u)
      let v := sed 0x0D22 sINFO 14 c esr b u
      let w := if c < 100 then resFault 3 v.sup.resV v else if 1000 < esr then resFault 4 v.sup.resV v else v
      chargeEval (when (decide (4 * b < dMax w)) (fun s => sed 0x0D23 sWARNING 14 b (dMax s / 4) c s) w) := by
  simp only [when_decide]
  exact if_neg (by simp [tests])

end

/-! The registers. -/

section
variable {path : Nat} {v : BitVec 32} {s : State}

/-- A write of SUP_RES_CTL that asks for no test. -/
theorem doSupWrite_target (mgmt : isMgmt path = true) (noTest : v.getLsbD 16 = false) :
    doSupWrite path Reg.SUP_RES_CTL v s =
      chargeEval (if 250 ≤ F.SUP_RES_CTL_TARGET.get v ∧ F.SUP_RES_CTL_TARGET.get v ≤ 310 then
        setF F.SUP_RES_CTL_TARGET (F.SUP_RES_CTL_TARGET.get v) s else s) := by
  refine (if_neg (by simp [mgmt])).trans ((if_pos rfl).trans (congrArg chargeEval (if_neg ?_)))
  rw [noTest, Bool.false_and]
  exact Bool.false_ne_true

theorem doSupWrite_guard (mgmt : isMgmt path = true) :
    doSupWrite path Reg.SUP_GUARD v s =
      if 4 ≤ F.SUP_GUARD_RATE.get v ∧ F.SUP_GUARD_RATE.get v ≤ 56 then setF F.SUP_GUARD_RATE (F.SUP_GUARD_RATE.get v) s else s :=
  (if_neg (by simp [mgmt])).trans ((if_neg (by decide)).trans (if_pos rfl))

end

/-! SEICHE. -/

section
variable {n : Nat} {ok : Bool} {s : State}

theorem doSeicheFrame_follower (group : inGroup s = true) (follows : s.sup.leader = false) :
    doSeicheFrame n ok s =
      if !ok || 23 < n then seicheFault 0 (satInc F.SUP_SEICHE_FRAME_ERR s)
      else if n = 23 then seicheFault 3 s
      else (seicheBegin n s).elim (seicheFault 0 (satInc F.SUP_SEICHE_FRAME_ERR s)) (wakeStart 6) := by
  refine (if_neg (by simp [group, follows])).trans ?_
  cases seicheBegin n s <;> rfl

theorem doSeicheFrame_bad (group : inGroup s = true) (follows : s.sup.leader = false)
    (bad : ok = false ∨ 23 < n ∨ (n ≠ 23 ∧ seicheBegin n s = none)) :
    doSeicheFrame n ok s = seicheFault 0 (satInc F.SUP_SEICHE_FRAME_ERR s) := by
  rw [doSeicheFrame_follower group follows]
  split
  · rfl
  · next good =>
    obtain parity | high | ⟨other, none⟩ := bad
    · exact absurd (by simp [parity]) good
    · exact absurd (by simp [high]) good
    · rw [if_neg other, none, Option.elim_none]

/-- The flush under way with the leader's word on VIN in it. -/
def flushVinNoted (ok : Bool) (s : State) : State :=
  modSup (fun x => { x with flush := x.flush.map (fun f => { f with vinOk := f.vinOk && ok }) }) s

theorem doSeicheBarrier_leader (group : inGroup s = true) (leads : s.sup.leader = true) (done : s.sup.seicheDone = true) :
    doSeicheBarrier ok s =
      (seicheNext (flushVinNoted ok s)).elim (flushVinNoted ok s) (fun n =>
        (seicheBegin n (flushVinNoted ok s)).elim (flushVinNoted ok s) (emit (.seicheFrame n))) := by
  refine (if_neg (by simp [group, leads, done])).trans ?_
  change (match seicheNext (flushVinNoted ok s) with | none => _ | some n => match seicheBegin n (flushVinNoted ok s) with
    | some t => emit (.seicheFrame n) t | none => _) = _
  cases seicheNext (flushVinNoted ok s) with
  | none => rfl
  | some n =>
    rw [Option.elim_some]
    dsimp only
    cases seicheBegin n (flushVinNoted ok s) <;> rfl

theorem doSeicheRequest_taken {us : Nat} {t : State} (group : inGroup s = true) (leads : s.sup.leader = true)
    (runs : s.sup.seiche = 13) (min : 200 ≤ us) (max : us ≤ 1000) (begins : seicheBegin 22 s = some t) :
    doSeicheRequest us s = emit (.seicheFrame 22) t := by
  refine (if_neg ?_).trans ?_
  · simp [group, leads, runs, min, max]
  · rw [begins]

theorem doSeicheRequest_length {us : Nat} (out : us < 200 ∨ 1000 < us) : doSeicheRequest us s = s := by
  refine if_pos ?_
  obtain short | long := out
  · simp [short]
  · simp [long]

end

/-- Settles O47: a round by the supervisor's state, a Reservoir's event by what it is doing, a register by its row, and a frame of
SEICHE by who receives it and by the state that it begins. -/
theorem reservoirAndSeiche : Obligations.ReservoirAndSeiche := by
  refine ⟨?round, ?noRound, ?charged, ?fault, ?testStart, ?test, ?register, ?frame, ?badFrame, ?barrier, ?request, ?seicheFault⟩
  case round =>
    intro raw valid s on
    exact run_effect (if_neg (Nat.not_le.mpr on))
  case noRound =>
    intro raw valid s off
    exact run_effect (if_pos off)
  case charged =>
    intro ms s charges u
    have judged := doResCharged_charging (ms := ms) (s := s.begun) charges
    exact ⟨fun again => run_effect (judged.trans (if_neg (by simp [again]))),
      fun first => run_effect (judged.trans (if_pos (by simp [first])))⟩
  case fault =>
    intro why v s on working
    have judged : exec (.resFault why v) s = _ := execResFault_working on working
    rw [judged]
    exact ⟨fun bad => run_effect (if_pos bad), fun good => run_effect (if_neg (by omega))⟩
  case testStart =>
    intro cause s on idle
    exact ⟨execResTestStart_due on idle, execResTestStart_early on idle⟩
  case test =>
    intro c esr s tests u b v w
    exact run_effect (doResTest_testing (s := s.begun) tests)
  case register =>
    intro path v s mgmt t r
    have target := fun noTest => doSupWrite_target (v := v) (s := s.begun) mgmt noTest
    have guard := doSupWrite_guard (v := v) (s := s.begun) mgmt
    exact ⟨fun min max noTest => run_effect ((target noTest).trans (congrArg chargeEval (if_pos ⟨min, max⟩))),
      fun out noTest => run_effect ((target noTest).trans (congrArg chargeEval (if_neg (by omega)))),
      fun min max => run_effect (guard.trans (if_pos ⟨min, max⟩)), fun out => run_effect (guard.trans (if_neg (by omega)))⟩
  case frame =>
    intro n t s group follows named begins
    refine run_effect ((doSeicheFrame_follower (s := s.begun) group follows).trans ?_)
    rw [if_neg (by simp; omega), if_neg (by omega), begins, Option.elim_some]
  case badFrame =>
    intro n ok s group follows
    refine ⟨fun bad => run_effect (doSeicheFrame_bad (s := s.begun) group follows bad), fun parity last => run_effect ?_⟩
    exact (doSeicheFrame_follower (s := s.begun) group follows).trans ((if_neg (by simp [parity, last])).trans (if_pos last))
  case barrier =>
    intro ok n t s group leads done u
    have judged := doSeicheBarrier_leader (ok := ok) (s := s.begun) group leads done
    refine ⟨fun next begins => run_effect (judged.trans ?_), fun last => run_effect (judged.trans ?_)⟩
    · rw [show seicheNext (flushVinNoted ok s.begun) = some n from next, Option.elim_some,
        show seicheBegin n (flushVinNoted ok s.begun) = some t from begins, Option.elim_some]
    · rw [show seicheNext (flushVinNoted ok s.begun) = none from last, Option.elim_none]
      rfl
  case request =>
    intro us t s group leads runs
    exact ⟨fun min max begins => run_effect (doSeicheRequest_taken (s := s.begun) group leads runs min max begins),
      fun out => run_effect (doSeicheRequest_length (s := s.begun) out)⟩
  case seicheFault =>
    intro cause s named
    change execSeicheFault cause s = _
    refine run_effect (if_pos ?_)
    simpa using named

end Sys2Proof.Machine
end

section
/-! Proofs of the Narrows sessions and of the frames that arrive on a link (R633 to R660). -/

namespace Sys2Proof.Machine

/-! A session. -/

section
variable {n width serial : Nat} {chain : Bool} {s : State}

theorem doSession_opens (enabled : linkEnabled s n = true) (link : n < 2) (noHalt : inHalt s = false) (noFlush : inFlush s = false)
    (core : coreOn s = true) (runs : s.pwr.stopped.contains 15 = false) (lanes : width = 4 ∨ width = 2) (closed : (linkOf s n).st ≠ 3) :
    doSession n width serial chain s =
      let p := facing s n
      if !chain then sed 0x0F03 sWARNING 15 n 0 p (modLink n (fun l => { l with st := 0 }) s)
      else if !serialOk s p serial then sed 0x0F03 sWARNING 15 n 1 p (modLink n (fun l => { l with st := 0 }) s)
      else
        let s := modLink n (fun l => { l with
          st := 3, width := width, session := l.session + 1, txFrames := 0, peer := p, send := [] }) s
        let s := forEach (behind s n) (fun q s => modMem q (fun m => { m with seen := false }) s) s
        nrwStatus n (sed 0x0F00 sINFO 15 n width p s) := by
  refine if_neg ?_
  rw [enabled, noHalt, noFlush, core, runs]
  simpa [link, closed, Classical.or_iff_not_imp_left] using lanes

theorem doSession_ignored (ignored : linkEnabled s n = false ∨ (linkOf s n).st = 3) : doSession n width serial chain s = s := by
  refine if_pos ?_
  obtain off | opened := ignored
  · simp [off]
  · simp [opened]

end

/-! A frame of replica data. -/

/-- A frame that a replica takes: its sequence counted, queued for the members behind, and entered in the link's queue. -/
def frameTaken (n : Nat) (e : QEntry) (b : FrameBody) (s : State) : State :=
  let s := modNrw (fun x => { x with rseq := max x.rseq (e.rseq + 1) }) s
  let far := (relayTo s n).filter (fun p => (memOf s p).st == 1 || (memOf s p).st == 2)
  nrwTake (enqueue (16 + n) e (nrwQueue e.rseq b far s))

section
variable {n : Nat} {e : QEntry} {b : FrameBody} {s : State}

theorem nrwRecv_taken (link : n < 2) (runs : linkRuns s n = true) (replica : nrwReplica s = true) (noFlush : inFlush s = false)
    (applies : s.nrw.applySet = true) (room : (queueOf s (16 + n)).occ < 512) : nrwRecv n e b false s = frameTaken n e b s := by
  have begun : (if s.nrw.applySet then s else modNrw (fun x => { x with applySet := true, nextApply := e.rseq }) s) = s := if_pos applies
  refine (if_neg ?_).trans ?_
  · rw [runs, replica, noFlush]
    simpa [link] using room
  · simp only [begun, frameTaken, Bool.false_eq_true, if_false]

theorem nrwRecv_closed {ue : Bool} (closed : linkRuns s n = false) : nrwRecv n e b ue s = s := if_pos (by simp [closed])

end

/-! A fetch, an acknowledgement and a handoff. -/

section
variable {n : Nat} {s : State}

theorem execNrwFetchFrame_placed {line t : Nat} {u : State} (runs : linkRuns s n = true) (syncs : (memOf s (facing s n)).st = 2)
    (source : amSource s (facing s n) = true) (serves : slicesServe s = true) (line_ : line < lineEnd s)
    (placed : placeFrame (facing s n) line s.begun = some (u, t)) :
    execNrwFetchFrame n line s = .next { pump u with pending := s.pending } := by
  refine run_effect ((if_neg ?_).trans ?_)
  · change ¬(!linkRuns s n || decide ((memOf s (facing s n)).st ≠ 2) || !amSource s (facing s n) || !slicesServe s ||
      decide (lineEnd s ≤ line)) = true
    simp [runs, syncs, source, serves, line_]
  · rw [show placeFrame (facing s.begun n) line s.begun = some (u, t) from placed]

theorem execNrwFetchFrame_closed {line : Nat} (closed : linkRuns s n = false) : execNrwFetchFrame n line s = .next (s.after id) :=
  run_effect (if_pos (by simp [closed]))

theorem doNrwAck_runs {rseq pos : Nat} {relay : Bool} (runs : linkRuns s n = true)
    (peer : (peers s).contains (if relay then pos else facing s n) = true) :
    doNrwAck n rseq relay pos s =
      let p := if relay then pos else facing s n
      let s := regionsAcked p (unwait p rseq (freeCells p rseq (modMem p (fun m => { m with ack := max m.ack rseq }) s)))
      pump (handoffCheck (when (nrwReplica s && !faces s s.nrw.grp.primary p)
        (fun s => nrwFrame (linkTo s s.nrw.grp.primary 0) 0x08 p rseq true none s) s)) :=
  (if_neg (by simp [runs])).trans (if_neg (by rw [peer]; decide))

theorem doNrwAck_closed {rseq pos : Nat} {relay : Bool} (closed : linkRuns s n = false) : doNrwAck n rseq relay pos s = s :=
  if_pos (by simp [closed])

theorem doHandoff_runs {rseq : Nat} (runs : linkRuns s n = true) :
    doHandoff n rseq s = match s.nrw.handoff with
      | some (path, true) => if nrwReplica s then promoteWrite path (modNrw (fun x => { x with rseq := rseq + 1 }) s) else s
      | some _ => s
      | none => if nrwPrimary s then handoffCheck (modNrw (fun x => { x with handoff := some (n, false) }) s) else s :=
  (if_neg (by simp [runs])).trans rfl

theorem doHandoff_closed {rseq : Nat} (closed : linkRuns s n = false) : doHandoff n rseq s = s := if_pos (by simp [closed])

end

/-! The other frames. -/

section
variable {n rseq : Nat} {s : State}

theorem execNrwResendFrame_runs (runs : linkRuns s n = true) :
    execNrwResendFrame n rseq s = .next (s.after (fun s =>
      let s := satInc (F.NRW_LINK_ERR_RESEND n) s
      let bad := ((linkOf s n).send.filter (fun c => c.bad && decide (rseq ≤ c.rseq))).flatMap (·.serves)
      let s := forEach bad.eraseDups (fun p s => nrwFence p 6 s) s
      nrwSend n (modLink n (fun l => { l with send := l.send.map (fun c => if rseq ≤ c.rseq then { c with sent := none } else c) }) s))) :=
  run_effect (if_neg (by simp [runs]))

theorem execNrwResendFrame_closed (closed : linkRuns s n = false) : execNrwResendFrame n rseq s = .next (s.after id) :=
  run_effect (if_pos (by simp [closed]))

theorem execNrwHeartbeatFrame_first (runs : linkRuns s n = true) (replica : nrwReplica s = true) (first : s.nrw.applySet = false) :
    execNrwHeartbeatFrame n rseq s = .next (s.after (fun s => nrwTake { s with
      nrw := { s.nrw with applySet := true, nextApply := rseq + 1, rseq := max s.nrw.rseq (rseq + 1) } })) :=
  run_effect (if_pos (by simp [runs, replica, first]))

theorem execNrwHeartbeatFrame_closed (closed : linkRuns s n = false) : execNrwHeartbeatFrame n rseq s = .next (s.after id) :=
  run_effect (if_neg (by simp [closed]))

theorem execNrwLeaveFrame_runs (runs : linkRuns s n = true) :
    execNrwLeaveFrame n s = .next (s.after (fun s => nrwFence (facing s n) 7 s)) :=
  run_effect (if_pos runs)

theorem execNrwLeaveFrame_closed (closed : linkRuns s n = false) : execNrwLeaveFrame n s = .next (s.after id) :=
  run_effect (if_neg (Bool.eq_false_iff.mp closed))

theorem execNrwTagFail_runs (runs : linkRuns s n = true) :
    execNrwTagFail n s = .next (s.after (fun s =>
      let s := satInc (F.NRW_LINK_ERR_RETRAIN n) (satInc (F.NRW_LINK_ERR_TAG n) s)
      linkLost n 5 1 (sed 0x0F03 sWARNING 15 n 2 (facing s n) s))) :=
  run_effect (if_neg (by simp [runs]))

theorem execNrwTagFail_closed (closed : linkRuns s n = false) : execNrwTagFail n s = .next (s.after id) :=
  run_effect (if_pos (by simp [closed]))

end

/-! STATUS. -/

/-- What a STATUS with this configuration does once the group is formed: a first one is met, a later one brings its group record up to
date and goes on with the resync. -/
def statusTaken (met : Bool) (pos ginc st : Nat) (primary synced : Bool) (t : State) : State :=
  if met then pump (groupEval (nrwMeet pos ginc primary synced t))
  else
    let t := if t.nrw.grp.ginc < ginc then putGroup { t.nrw.grp with ginc := ginc } t else t
    let t := if primary && !t.nrw.grp.isPrimary && t.nrw.grp.primary ≠ pos then putGroup { t.nrw.grp with primary := pos } t else t
    if (memOf t pos).st = 2 ∧ !amSource t pos ∧ st = 1 then resyncDone pos t else groupEval t

/-- The same with each guarded change as `when` writes it. -/
theorem statusTaken_when (met : Bool) (pos ginc st : Nat) (primary synced : Bool) (t : State) :
    statusTaken met pos ginc st primary synced t =
      if met then pump (groupEval (nrwMeet pos ginc primary synced t))
      else
        let t := when (decide (t.nrw.grp.ginc < ginc)) (putGroup { t.nrw.grp with ginc := ginc }) t
        let t := when (primary && !t.nrw.grp.isPrimary && t.nrw.grp.primary != pos) (putGroup { t.nrw.grp with primary := pos }) t
        if (memOf t pos).st = 2 ∧ amSource t pos = false ∧ st = 1 then resyncDone pos t else groupEval t := by
  have named : ∀ u : State, (if primary && !u.nrw.grp.isPrimary && u.nrw.grp.primary ≠ pos then putGroup { u.nrw.grp with primary := pos } u
      else u) = when (primary && !u.nrw.grp.isPrimary && u.nrw.grp.primary != pos) (putGroup { u.nrw.grp with primary := pos }) u :=
    fun u => by simp only [when, Bool.and_eq_true, decide_eq_true_eq, bne_iff_ne]
  simp only [statusTaken, named, when_decide, Bool.not_eq_true']

/-- A member's STATUS noted, and the group formed where it was the last. -/
def memberNoted (pos ginc : Nat) (primary synced : Bool) (s : State) : State :=
  groupForm (modMem pos (fun m => { m with seen := true, ginc := ginc, isPrimary := primary, synced := synced, pos := pos }) s)

section
variable {n pos ginc st group nmem : Nat} {primary synced ack : Bool} {members : List Nat} {dig : List Byte}
  {c : NarrowsCfg} {s : State}

theorem doStatus_runs (has : cfgNrw s = some c) (runs : linkRuns s n = true) (peer : (behind s n).contains pos = true)
    (good : nrwConfigBad s = none) :
    doStatus n pos ginc primary st synced group nmem ack members dig s =
      if group ≠ c.group ∨ nmem ≠ c.nmem ∨ members.take c.nmem ≠ c.members ∨ ack ≠ c.async then
        sed 0x0F02 sERROR 15 3 pos 0 { s with nrw := { s.nrw with group := 1 } }
      else if dig ≠ s.nrw.digest then sed 0x0F02 sERROR 15 4 pos 0 { s with nrw := { s.nrw with group := 1 } }
      else
        let t := memberNoted pos ginc primary synced s
        if t.nrw.group < 2 then t else statusTaken (!(memOf s pos).seen) pos ginc st primary synced t := by
  unfold doStatus
  rw [has]
  refine (if_neg ?_).trans ((if_neg ?_).trans ?_)
  · rw [runs, peer]; decide
  · rw [good]; decide
  · rfl

/-- STATUS with the group's own configuration and another digest. -/
theorem doStatus_same (has : cfgNrw s = some c) (runs : linkRuns s n = true) (peer : (behind s n).contains pos = true)
    (good : nrwConfigBad s = none) (members : c.members.take c.nmem = c.members) :
    doStatus n pos ginc primary st synced c.group c.nmem c.async c.members dig s =
      if dig ≠ s.nrw.digest then sed 0x0F02 sERROR 15 4 pos 0 { s with nrw := { s.nrw with group := 1 } }
      else
        let t := memberNoted pos ginc primary synced s
        if t.nrw.group < 2 then t else statusTaken (!(memOf s pos).seen) pos ginc st primary synced t :=
  (doStatus_runs has runs peer good).trans (if_neg (by simp [members]))

end

/-- Settles O48: a session by its checks, a frame by whether its link runs and by what it carries, and STATUS by the configuration
that it names. -/
theorem narrowsFrames : Obligations.NarrowsFrames := by
  refine ⟨?session, ?noSession, ?replica, ?fetch, ?ack, ?resend, ?heartbeat, fun n replays s => rfl, ?config, ?digest, ?status, ?leave,
    ?handoff, ?closed⟩
  case session =>
    intro n width serial chain s enabled link noHalt noFlush core runs lanes closed p
    have judged := doSession_opens (serial := serial) (chain := chain) (s := s.begun) enabled link noHalt noFlush core runs lanes closed
    refine ⟨fun bad => run_effect (judged.trans (if_pos (by simp [bad]))), fun good other => run_effect (judged.trans ?_),
      fun good same => run_effect (judged.trans ?_)⟩
    · have other : serialOk s.begun (facing s.begun n) serial = false := other
      exact (if_neg (by simp [good])).trans (if_pos (by rw [other]; decide))
    · have same : serialOk s.begun (facing s.begun n) serial = true := same
      exact (if_neg (by simp [good])).trans (if_neg (by rw [same]; decide))
  case noSession =>
    intro n width serial chain s ignored
    exact run_effect (doSession_ignored (s := s.begun) ignored)
  case replica =>
    intro n rseq key line d poison resync relay bits s link runs replica noFlush applies room took
    have taken_ := fun e b => nrwRecv_taken (e := e) (b := b) (s := s.begun) link runs replica noFlush applies room
    exact ⟨run_effect (taken_ ..), run_effect (taken_ ..), run_effect (taken_ ..), run_effect (taken_ ..)⟩
  case fetch =>
    intro n line t s u runs syncs source serves line_ placed
    exact execNrwFetchFrame_placed runs syncs source serves line_ placed
  case ack =>
    intro n rseq pos relay s p runs peer
    exact run_effect (doNrwAck_runs (s := s.begun) runs peer)
  case resend => exact fun n rseq s runs => execNrwResendFrame_runs runs
  case heartbeat => exact fun n rseq s runs replica first => execNrwHeartbeatFrame_first runs replica first
  case config =>
    intro n pos ginc st group nmem primary synced ack members dig c s has runs peer good other
    change execNrwStatusFrame n pos ginc primary st synced group nmem ack members dig s = _
    exact run_effect (congrArg (meetAll s.begun) ((doStatus_runs (s := s.begun) has runs peer good).trans (if_pos other)))
  case digest =>
    intro n pos ginc st primary synced dig c s has runs peer good members other
    change execNrwStatusFrame n pos ginc primary st synced c.group c.nmem c.async c.members dig s = _
    exact run_effect (congrArg (meetAll s.begun) ((doStatus_same (s := s.begun) has runs peer good members).trans (if_pos other)))
  case status =>
    intro n pos ginc st primary synced c s has runs peer good members
    change execNrwStatusFrame n pos ginc primary st synced c.group c.nmem c.async c.members s.nrw.digest s = _
    have judged := (doStatus_same (ginc := ginc) (st := st) (primary := primary) (synced := synced) (s := s.begun)
      has runs peer good members).trans (if_neg (not_not_intro rfl))
    refine run_effect (congrArg (meetAll s.begun) (judged.trans ?_))
    exact ite_congr rfl (fun _ => rfl) fun _ => statusTaken_when ..
  case leave =>
    intro n s runs
    exact ⟨execNrwLeaveFrame_runs runs, execNrwTagFail_runs runs⟩
  case handoff =>
    intro n rseq path s runs
    have judged := doHandoff_runs (rseq := rseq) (s := s.begun) runs
    refine ⟨fun promotes replica => run_effect (judged.trans ?_), fun none primary => run_effect (judged.trans ?_),
      fun hands => run_effect (judged.trans ?_)⟩
    · rw [begun_field_nrw, promotes]
      exact if_pos replica
    · rw [begun_field_nrw, none]
      exact if_pos primary
    · rw [begun_field_nrw, hands]
      rfl
  case closed =>
    intro n rseq key line d poison resync relay up bits c s closed listed
    have drops : ∀ (e : QEntry) (b : FrameBody) (ue : Bool), run (nrwRecv n e b ue) s = .next (s.after id) :=
      fun e b ue => run_effect (nrwRecv_closed (s := s.begun) closed)
    simp only [List.mem_cons, List.not_mem_nil, or_false] at listed
    obtain rfl | rfl | rfl | rfl | rfl | rfl | rfl | rfl | rfl | rfl | rfl := listed
    · exact drops ..
    · exact drops ..
    · exact drops ..
    · exact drops ..
    · exact execNrwFetchFrame_closed closed
    · exact run_effect (doNrwAck_closed (s := s.begun) closed)
    · exact execNrwResendFrame_closed closed
    · exact execNrwHeartbeatFrame_closed closed
    · exact execNrwLeaveFrame_closed closed
    · exact run_effect (doHandoff_closed (s := s.begun) closed)
    · exact execNrwTagFail_closed closed

end Sys2Proof.Machine
end

section
/-! Proofs of the Narrows group: holds, fences, the resync walk and the group's commands (R643 to R659). -/

namespace Sys2Proof.Machine

/-! A hold and a fence. -/

section
variable {s : State}

theorem execNrwHoldIn_enabled {n : Nat} {low : Bool} (enabled : linkEnabled s n = true) :
    execNrwHoldIn n low s = .next (s.after (fun s =>
      let s := modLink n (fun l => { l with holdIn := low, holdSince := if low && !l.holdIn then s.tick.count else l.holdSince }) s
      if low then s else nrwSend n s)) :=
  run_effect (if_neg (by simp [enabled]))

theorem execNrwHoldIn_disabled {n : Nat} {low : Bool} (disabled : linkEnabled s n = false) :
    execNrwHoldIn n low s = .next (s.after id) :=
  run_effect (if_pos (by simp [disabled]))

theorem execNrwFence_due {p cause : Nat} (on : nrwOn s = true) (noHalt : inHalt s = false) (due : fenceDue s p cause = true) :
    execNrwFence p cause s = run (fun s =>
      if cause = 1 then linkLost (linkTo s p 0) 1 1 (satInc (F.NRW_LINK_ERR_RETRAIN (linkTo s p 0)) s) else nrwFence p cause s) s :=
  run_effect (if_neg (by simp [on, noHalt, due]))

theorem execNrwFence_early {p cause : Nat} (early : nrwOn s = false ∨ inHalt s = true ∨ fenceDue s p cause = false) :
    execNrwFence p cause s = .next (s.after id) := by
  refine run_effect (if_pos ?_)
  obtain off | halt | notDue := early
  · simp [off]
  · simp [halt]
  · simp [notDue]

end

/-! A step of the resync walk. -/

/-- A step of the walk where it may run: of the walk under way, or of one that begins with the first member to resync. -/
def resyncStep (s : State) : State :=
  match s.nrw.walk with
  | some (p, k, l) => if linkRuns s (linkTo s p l) then pump (walkStep p k l s) else s
  | none =>
    match (peers s).find? (fun p => (memOf s p).st == 2 && amSource s p) with
    | some p => if linkRuns s (linkTo s p 0) then pump (walkStep p 0 0 s) else s
    | none => s

section
variable {s : State}

theorem execNrwResyncStep_mayRun (on : nrwOn s = true) (formed : 2 ≤ s.nrw.group) (noHalt : inHalt s = false)
    (noFlush : inFlush s = false) (share : effShare s 7 ≠ 0) (serves : slicesServe s = true) (mapReady : s.mtl.ready = true) :
    execNrwResyncStep s = .next (s.after resyncStep) := by
  refine run_effect ((if_neg ?_).trans rfl)
  simpa [on, noHalt, noFlush, share, serves, mapReady] using Nat.lt_of_succ_le formed

theorem resyncStep_walks {p k l : Nat} (walks : s.nrw.walk = some (p, k, l)) (runs : linkRuns s (linkTo s p l) = true) :
    resyncStep s = pump (walkStep p k l s) := by
  simp only [resyncStep, walks, runs, if_true]

theorem resyncStep_begins {p : Nat} (noWalk : s.nrw.walk = none)
    (first : (peers s).find? (fun p => (memOf s p).st == 2 && amSource s p) = some p) (runs : linkRuns s (linkTo s p 0) = true) :
    resyncStep s = pump (walkStep p 0 0 s) := by
  simp only [resyncStep, noWalk, first, runs, if_true]

theorem resyncStep_idle (noWalk : s.nrw.walk = none)
    (synced : (peers s).find? (fun p => (memOf s p).st == 2 && amSource s p) = none) : resyncStep s = s := by
  simp only [resyncStep, noWalk, synced]

end

/-! NRW_GROUP_SET. -/

theorem byteAt_cons (b : Byte) (l : List Byte) : byteAt (b :: l) 0 = b.toNat := by
  simp [byteAt, at', sub, leVal]

/-- The action byte of each of the three commands. -/
theorem byteAt_withAction {act : Nat} {inp : List Byte} (named : act < 3) (solo : act = 2 → byteAt inp 0 ≤ 2) :
    byteAt (withAction act inp) 0 = act := by
  rw [withAction, if_neg fun other => absurd (solo other.1) (Nat.not_le.mpr other.2), byteAt_cons]
  simp
  omega

section
variable {path act : Nat} {d : List Byte} {s : State}

theorem doGroupSet_refused (bad : groupCheck s d ≠ rcSuccess) : doGroupSet path d s = answer path 0xC060 (groupCheck s d) [] s :=
  if_pos bad

theorem doGroupSet_serials (ok : groupCheck s d = rcSuccess) (action : byteAt d 0 = 0) :
    doGroupSet path d s = gPut (G.param 12) (.group { s.nrw.grp with serials := (List.range 3).map (fun i => at' d (8 + 8 * i) 8) })
      false (some path) (.group path 0) (startCmd path 0xC060 true s) :=
  (if_neg (not_not_intro ok)).trans (if_pos action)

theorem doGroupSet_solo (ok : groupCheck s d = rcSuccess) (action : byteAt d 0 = 2) :
    doGroupSet path d s = gPut (G.param 12) (.group { s.nrw.grp with solo := (byteAt d 1).testBit 1 })
      false (some path) (.group path 2) (startCmd path 0xC060 true s) :=
  (if_neg (not_not_intro ok)).trans ((if_neg (by omega)).trans (if_pos action))

/-- PROMOTE hands the role over where the primary is in sync, and takes it otherwise. -/
theorem doGroupSet_promote (ok : groupCheck s d = rcSuccess) (action : byteAt d 0 = 1) :
    doGroupSet path d s =
      let t := startCmd path 0xC060 true s
      if (memOf s s.nrw.grp.primary).st = 1 ∧ !s.nrw.stale then
        let u := { t with nrw := { t.nrw with handoff := some (path, true) } }
        nrwFrame (linkTo u u.nrw.grp.primary 0) 0x0E (ownPos u) u.nrw.persisted false none u
      else promoteWrite path t :=
  (if_neg (not_not_intro ok)).trans ((if_neg (by omega)).trans (if_neg (by omega)))

end

/-- The commands of NRW_GROUP_SET, each with its action. -/
theorem exec_nrwGroupSet {path act : Nat} {inp : List Byte} {c : Instr} {s : State} (takes : taken path 0xC060 inp s = true)
    (length : inp.length = 32)
    (listed : (c, act) ∈ [(Instr.nrwGroupSetSerials path inp, 0), (.nrwGroupSetPromote path inp, 1), (.nrwGroupSetSolo path inp, 2)]) :
    exec c s = .next (s.after (doGroupSet path (withAction act inp))) := by
  have whole : ∀ a, run (cmd path 0xC060 inp (inp.length == 32) (doGroupSet path (withAction a inp))) s =
      .next (s.after (doGroupSet path (withAction a inp))) := fun a =>
    run_effect (cmd_whole (s := s.begun) takes (by simp [length]) (doGroupSet path (withAction a inp)))
  simp only [List.mem_cons, List.not_mem_nil, or_false, Prod.mk.injEq] at listed
  obtain ⟨rfl, rfl⟩ | ⟨rfl, rfl⟩ | ⟨rfl, rfl⟩ := listed
  · exact whole 0
  · exact whole 1
  · exact whole 2

/-! NRW_RESYNC. -/

/-- The answer of NRW_RESYNC: the member's state, what is left, and a free estimate of the time. -/
def resyncShown (path p : Nat) (s : State) : State :=
  answer path 0xC061 rcSuccess
    (le 1 (memOf s p).st ++ zeros 3 ++ le 4 (regionsSet s (memOf s p)) ++ le 4 (draw 32 s).1.toNat) (draw 32 s).2

section
variable {path : Nat} {d : List Byte} {s : State}

theorem doNrwResync_malformed (bad : zeroAt d 2 2 = false) : doNrwResync path d s = answer path 0xC061 rcInvalid [] s :=
  if_pos (.inr (by simp [bad]))

variable {p : Nat}

theorem doNrwResync_peer (member : byteAt d 0 = p) (named : byteAt d 1 ≤ 1) (zero : zeroAt d 2 2 = true) (on : nrwOn s = true)
    (peer : (peers s).contains p = true) :
    doNrwResync path d s =
      if byteAt d 1 = 0 then resyncShown path p s
      else if !amSource s p || s.nrw.group < 2 || !((memOf s p).st == 1 || (memOf s p).st == 2) then answer path 0xC061 rcConflict [] s
      else resyncShown path p (groupEval (resyncStart p true s)) := by
  subst member
  exact (if_neg (by simp [zero, named])).trans ((if_neg (by simp [on])).trans (if_neg (by simpa using peer)))

theorem doNrwResync_status (member : byteAt d 0 = p) (action : byteAt d 1 = 0) (zero : zeroAt d 2 2 = true) (on : nrwOn s = true)
    (peer : (peers s).contains p = true) : doNrwResync path d s = resyncShown path p s :=
  (doNrwResync_peer member (by omega) zero on peer).trans (if_pos action)

theorem doNrwResync_full (member : byteAt d 0 = p) (action : byteAt d 1 = 1) (zero : zeroAt d 2 2 = true) (on : nrwOn s = true)
    (peer : (peers s).contains p = true)
    (fit : amSource s p = true ∧ 2 ≤ s.nrw.group ∧ ((memOf s p).st = 1 ∨ (memOf s p).st = 2)) :
    doNrwResync path d s = resyncShown path p (groupEval (resyncStart p true s)) := by
  obtain ⟨source, formed, synced⟩ := fit
  refine (doNrwResync_peer member (by omega) zero on peer).trans ((if_neg (by omega)).trans (if_neg ?_))
  simp [source]
  omega

theorem doNrwResync_unfit (member : byteAt d 0 = p) (action : byteAt d 1 = 1) (zero : zeroAt d 2 2 = true) (on : nrwOn s = true)
    (peer : (peers s).contains p = true)
    (unfit : amSource s p = false ∨ s.nrw.group < 2 ∨ ((memOf s p).st ≠ 1 ∧ (memOf s p).st ≠ 2)) :
    doNrwResync path d s = answer path 0xC061 rcConflict [] s := by
  refine (doNrwResync_peer member (by omega) zero on peer).trans ((if_neg (by omega)).trans (if_pos ?_))
  simpa [or_assoc] using unfit

end

/-- Settles O49: a hold by the link, a fence by its reason, a step by the walk, and each command by its checks and its action. -/
theorem narrowsGroup : Obligations.NarrowsGroup := by
  refine ⟨fun n low s enabled => execNrwHoldIn_enabled enabled, fun n low s disabled => execNrwHoldIn_disabled disabled, ?fence,
    fun p cause s early => execNrwFence_early early, ?step, ?groupSet, ?resync⟩
  case fence =>
    intro p cause s on noHalt due
    have judged : exec (.nrwFence p cause) s = _ := execNrwFence_due on noHalt due
    rw [judged]
    exact ⟨fun other => run_effect (if_neg other), fun retrains => run_effect (if_pos retrains)⟩
  case step =>
    intro s on formed noHalt noFlush share serves mapReady
    have judged : exec .nrwResyncStep s = _ := execNrwResyncStep_mayRun on formed noHalt noFlush share serves mapReady
    rw [judged]
    exact ⟨fun p k l walks runs => congrArg _ (after_congr (resyncStep_walks (s := s.begun) walks runs)),
      fun p noWalk first runs => congrArg _ (after_congr (resyncStep_begins (s := s.begun) noWalk first runs)),
      fun noWalk synced => congrArg _ (after_congr (resyncStep_idle (s := s.begun) noWalk synced))⟩
  case groupSet =>
    intro path inp s takes length
    have whole := fun c act => exec_nrwGroupSet (c := c) (act := act) takes length
    have promote : byteAt (withAction 1 inp) 0 = 1 := byteAt_withAction (by decide) (by simp)
    refine ⟨fun ok => ?_, fun ok solo => ?_, fun ok synced fresh => ?_, fun ok apart => ?_, fun c act listed bad => ?_⟩
    · rw [whole _ 0 (by simp)]
      exact congrArg _ (after_congr (doGroupSet_serials (s := s.begun) ok (byteAt_withAction (by decide) (by simp))))
    · rw [whole _ 2 (by simp)]
      exact congrArg _ (after_congr (doGroupSet_solo (s := s.begun) ok (byteAt_withAction (by decide) fun _ => solo)))
    · rw [whole _ 1 (by simp)]
      exact congrArg _ (after_congr ((doGroupSet_promote (s := s.begun) ok promote).trans (if_pos ⟨synced, by simp [fresh]⟩)))
    · rw [whole _ 1 (by simp)]
      refine congrArg _ (after_congr ((doGroupSet_promote (s := s.begun) ok promote).trans (if_neg ?_)))
      rintro ⟨synced, fresh⟩
      obtain other | stale := apart
      · exact other synced
      · simp [stale] at fresh
    · rw [whole c act listed]
      exact congrArg _ (congrArg (fun t : State => { t with pending := s.pending }) (doGroupSet_refused (s := s.begun) bad))
  case resync =>
    intro path inp s takes length d e p shown
    have status : exec (.nrwResyncStatus path inp) s = .next (s.after (doNrwResync path d)) :=
      run_effect (cmd_whole (s := s.begun) takes (by simp [length]) _)
    have full : exec (.nrwResyncFull path inp) s = .next (s.after (doNrwResync path e)) :=
      run_effect (cmd_whole (s := s.begun) takes (by simp [length]) _)
    rw [status, full]
    refine ⟨fun member action zero on peer => ?_, fun member action zero on peer => ?_, fun bad => ?_⟩
    · exact congrArg _ (after_congr (doNrwResync_status (s := s.begun) member action zero on peer))
    · exact ⟨fun fit => congrArg _ (after_congr (doNrwResync_full (s := s.begun) member action zero on peer fit)),
        fun unfit => congrArg _ (congrArg (fun t : State => { t with pending := s.pending })
          (doNrwResync_unfit (s := s.begun) member action zero on peer unfit))⟩
    · exact congrArg _ (congrArg (fun t : State => { t with pending := s.pending }) (doNrwResync_malformed (s := s.begun) bad))

end Sys2Proof.Machine
end

/-! Proofs of the statements of the mailbox commands and of the host ports that the parts above leave: what the standard
mailbox commands answer and leave (R99 to R122, R131 to R134, R442), and the links, resets and port commands of a head (R95
to R102, R120 to R130, R200). -/

section
namespace Sys2Proof.Machine

/-! ### The fields of a payload -/

@[simp] theorem length_le (n v : Nat) : (le n v).length = n := by
  induction n generalizing v with
  | zero => rfl
  | succ k ih => simp [le, ih]

@[simp] theorem length_sub (l : List Byte) (o n : Nat) : (sub l o n).length = n := by
  simp [sub]

theorem leVal_le (n v : Nat) : leVal (le n v) = v % 256 ^ n := by
  induction n generalizing v with
  | zero => simp [le, leVal, Nat.mod_one]
  | succ k ih =>
    rw [le, leVal, ih, BitVec.toNat_ofNat, pow_succ' 256 k, Nat.mod_mul]

section
variable {a b : List Byte} {o n : Nat}

theorem sub_left (fits : o + n ≤ a.length) : sub (a ++ b) o n = sub a o n := by
  have take : ((a ++ b).drop o).take n = (a.drop o).take n := by
    rw [List.drop_append_of_le_length (by omega), List.take_append_of_le_length (by simp; omega)]
  simp only [sub, take]

theorem sub_skip (before : a.length = o) (i : Nat) : sub (a ++ b) (o + i) n = sub b i n := by
  simp only [sub, ← before, List.drop_append]
  rw [List.drop_of_length_le (by omega)]
  simp

theorem sub_all (whole : a.length = n) : sub a 0 n = a := by
  simp [sub, ← whole]

theorem at'_left (fits : o + n ≤ a.length) : at' (a ++ b) o n = at' a o n := congrArg leVal (sub_left fits)

theorem at'_skip (before : a.length = o) (i : Nat) : at' (a ++ b) (o + i) n = at' b i n := congrArg leVal (sub_skip before i)

theorem at'_all (whole : a.length = n) : at' a 0 n = leVal a := congrArg leVal (sub_all whole)

end

theorem at'_le {n v : Nat} (fits : v < 256 ^ n) : at' (le n v) 0 n = v := by
  rw [at'_all (length_le n v), leVal_le, Nat.mod_eq_of_lt fits]

/-- A payload of two 32-bit fields: each reads as it was written. -/
theorem at'_pair {o n : Nat} (ho : o < 2 ^ 32) (hn : n < 2 ^ 32) :
    at' (le 4 o ++ le 4 n) 0 4 = o ∧ at' (le 4 o ++ le 4 n) 4 4 = n := by
  refine ⟨?_, ?_⟩
  · rw [at'_left (by simp), at'_le (by omega)]
  · rw [at'_skip (length_le 4 o) 0, at'_le (by omega)]

/-! ### Commands that are taken -/

section
variable {path op : Nat} {inp : List Byte} {lenOk : Bool} {s : State}

/-- A command that is taken leaves what its own effect makes of the state. -/
theorem run_taken (takes : taken path op inp s = true) (whole : lenOk = true) (f : State → State) :
    run (cmd path op inp lenOk f) s = .next (s.after f) :=
  run_effect (cmd_whole (s := s.begun) takes whole f)

/-- The same for a command of a head that is on. -/
theorem run_headTaken (takes : taken path op inp s = true) (on : headOn s (cmdHead s path) = true) (whole : lenOk = true)
    (f : Nat → State → State) : run (headCmd path op inp lenOk f) s = .next (s.after (f (cmdHead s path))) := by
  subst whole
  exact run_effect (headCmd_taken path op inp f s.begun takes on)

variable {code : Nat} {body : List Byte}

/-- An effect that only answers leaves the state as it was. -/
theorem after_answer {f : State → State} (answers : f s.begun = answer path op code body s.begun) :
    s.after f = s.answered path op code body := by
  rw [State.after, answers]
  rfl

theorem run_answers (takes : taken path op inp s = true) (whole : lenOk = true) {f : State → State}
    (answers : f s.begun = answer path op code body s.begun) :
    run (cmd path op inp lenOk f) s = .next (s.answered path op code body) := by
  rw [run_taken takes whole, after_answer answers]

theorem run_headAnswers (takes : taken path op inp s = true) (on : headOn s (cmdHead s path) = true) (whole : lenOk = true)
    {f : Nat → State → State} (answers : f (cmdHead s path) s.begun = answer path op code body s.begun) :
    run (headCmd path op inp lenOk f) s = .next (s.answered path op code body) := by
  rw [run_headTaken takes on whole, after_answer answers]

/-- On the Tuten port, a command of a head that is absent or disabled is UNSUPPORTED (R442). -/
theorem run_headOff (takes : taken path op inp s = true) (off : headOn s (cmdHead s path) = false) (whole : lenOk = true)
    (f : Nat → State → State) : run (headCmd path op inp lenOk f) s = .next (s.answered path op rcUnsupported []) :=
  run_answers takes whole (if_neg (by simpa using off))

/-- What no path implements is UNSUPPORTED whatever it carries. -/
theorem run_unsupported (takes : taken path op inp s = true) :
    run (unsupported path op inp) s = .next (s.answered path op rcUnsupported []) :=
  run_answers takes rfl rfl

end

end Sys2Proof.Machine
end

section
namespace Sys2Proof.Machine

/-! ### Identity, time and logs (R116, R132, R133, R514, R732) -/

section
variable {path : Nat} {inp : List Byte} {s : State}

theorem doSetTimestamp_busy (set : s.mgmt.stamp.isSome = true) : doSetTimestamp path inp s = answer path 0x0301 rcBusy [] s :=
  if_pos set

/-- A Set Timestamp that finds the calendar free waits for the boundary; `own` says that it sets the calendar. -/
theorem doSetTimestamp_waits {own : Bool} (free : s.mgmt.stamp = none)
    (sets : (decide (946684800000 ≤ at' inp 0 8 / 1000000) && !calLocked s) = own) :
    doSetTimestamp path inp s = startCmd path 0x0301 false { s with
      mgmt := { s.mgmt with stamp := some (path, at' inp 0 8 / 1000000, own) }
      tick := if own then { s.tick with calSet := some ((at' inp 0 8 / 1000000 - 946684800000) % 2 ^ 48) } else s.tick } := by
  subst sets
  exact if_neg (by simp [free])

/-- A value before 2000, and a locked follower, set nothing (R133). -/
theorem setsCalendar_not (barred : at' inp 0 8 / 1000000 < 946684800000 ∨
    (isFollower s = true ∧ bit s F.TICK_SYNC_STAT_LOCKED = true)) :
    (decide (946684800000 ≤ at' inp 0 8 / 1000000) && !calLocked s) = false := by
  obtain early | ⟨follows, locked⟩ := barred
  · simp [Nat.not_le.mpr early]
  · simp [calLocked, follows, locked]

theorem setsCalendar (late : 946684800000 ≤ at' inp 0 8 / 1000000)
    (free : ¬ (isFollower s = true ∧ bit s F.TICK_SYNC_STAT_LOCKED = true)) :
    (decide (946684800000 ≤ at' inp 0 8 / 1000000) && !calLocked s) = true := by
  simpa [late, calLocked, Classical.or_iff_not_imp_left] using free

/-- A range of the Command Effects Log. -/
theorem doGetLog_range {o n : Nat} (ho : o < 2 ^ 32) (hn : n < 2 ^ 32) (inside : o + n ≤ (effectsLog path).length) (most : n ≤ 8192) :
    doGetLog path (effectsUuid ++ le 4 o ++ le 4 n) s = answer path 0x0401 rcSuccess (sub (effectsLog path) o n) s := by
  have uuid : effectsUuid.length = 16 := by simp [effectsUuid, be]
  have offset : at' (effectsUuid ++ (le 4 o ++ le 4 n)) 16 4 = o := (at'_skip uuid 0).trans (at'_pair ho hn).1
  have length : at' (effectsUuid ++ (le 4 o ++ le 4 n)) 20 4 = n := (at'_skip uuid 4).trans (at'_pair ho hn).2
  have named : sub (effectsUuid ++ (le 4 o ++ le 4 n)) 0 16 = effectsUuid := by rw [sub_left (by simp [uuid]), sub_all uuid]
  rw [List.append_assoc, doGetLog]
  simp only [offset, length, named]
  exact if_neg (by simp; omega)

theorem doAbortBg_idle (idle : s.mgmt.bg = none) : doAbortBg path s = answer path 0x0005 rcSuccess [] s := by
  simp only [doAbortBg, idle]

theorem doAbortBg_scan {p h a b pos : Nat} {e ab : Bool} {bad : List Nat} (scans : s.mgmt.bg = some (.scan p h a b pos e ab bad)) :
    doAbortBg path s =
      answer path 0x0005 rcSuccess [] { s with mgmt := { s.mgmt with bg := some (.scan p h a b pos e true bad) } } := by
  simp only [doAbortBg, scans]

end

/-- Settles O15: each command is taken, and has the effect of its own lemma. -/
theorem identityTimeLogs : Obligations.IdentityTimeLogs := by
  refine ⟨fun path s takes => run_answers takes rfl rfl, fun path s takes => run_answers takes rfl rfl,
    fun path s takes => run_answers takes rfl rfl, ?stampOnly, ?stampSets, ?stampBusy,
    fun path s takes => run_answers takes rfl rfl, ?log, ?abortIdle, ?abortScan, ?unknown⟩
  case stampOnly =>
    intro path inp s takes length free barred
    exact run_next ((cmd_whole (s := s.begun) takes (by simp [length]) _).trans
      (doSetTimestamp_waits (s := s.begun) free (setsCalendar_not (s := s.begun) barred))) rfl
  case stampSets =>
    intro path inp s takes length free late unlocked
    exact run_next ((cmd_whole (s := s.begun) takes (by simp [length]) _).trans
      (doSetTimestamp_waits (s := s.begun) free (setsCalendar (s := s.begun) late unlocked))) rfl
  case stampBusy =>
    intro path inp s takes length set
    exact run_answers takes (by simp [length]) (doSetTimestamp_busy (s := s.begun) set)
  case log =>
    intro path o n s ho hn inside most takes
    exact run_answers takes (by simp [effectsUuid, be]) (doGetLog_range ho hn inside most)
  case abortIdle =>
    intro path s takes idle
    exact run_answers takes rfl (doAbortBg_idle (s := s.begun) idle)
  case abortScan =>
    intro path p h a b pos e ab bad s takes scans
    exact run_next ((cmd_whole (s := s.begun) takes rfl _).trans (doAbortBg_scan (s := s.begun) scans)) rfl
  case unknown =>
    intro path op inp s unlisted takes
    have refuses : (fun s => if (opcodes tuten).contains op then s else unsupported path op inp s) = unsupported path op inp :=
      funext fun s => if_neg (Bool.eq_false_iff.mp unlisted)
    exact (congrArg (fun f => run f s) refuses).trans (run_unsupported takes)

end Sys2Proof.Machine
end

section
namespace Sys2Proof.Machine

/-! ### What the read-only memory-device commands answer (R99, R103, R109, R122, R134, R442) -/

section
variable {path h o n : Nat} {s : State} (ho : o < 2 ^ 32) (hn : n < 2 ^ 32)
include ho hn

theorem doGetLsa_inside (inside : o + n ≤ 256 * 1024) (most : n ≤ 8192) :
    doGetLsa path h (le 4 o ++ le 4 n) s = answer path 0x4102 rcSuccess (mbytes 0 (headOf s h).lsa o n) s := by
  obtain ⟨offset, length⟩ := at'_pair ho hn
  simp only [doGetLsa, offset, length]
  exact if_neg (by omega)

theorem doGetLsa_outside (outside : 256 * 1024 < o + n) :
    doGetLsa path h (le 4 o ++ le 4 n) s = answer path 0x4102 rcInvalid [] s := by
  obtain ⟨offset, length⟩ := at'_pair ho hn
  simp only [doGetLsa, offset, length]
  exact if_pos (.inl outside)

/-- The extents from the o-th on, at most n of them (R109). -/
theorem doDcExtents_from (start : n ≤ (dcRegions s h).length) :
    doDcExtents path h (le 4 o ++ le 4 n) s = answer path 0x4801 rcSuccess
      (le 4 (((dcRegions s h).drop n).take o).length ++ le 4 (dcRegions s h).length ++ le 4 0 ++ le 4 0 ++
       ((((dcRegions s h).drop n).take o).map (fun r =>
         le 8 (r.base * unitBytes) ++ le 8 (r.len * unitBytes) ++ zeros 16 ++ le 2 0 ++ zeros 6)).flatten) s := by
  obtain ⟨most, first⟩ := at'_pair ho hn
  simp only [doDcExtents, most, first]
  exact if_neg (Nat.not_lt.mpr start)

end

section
variable {path h : Nat} {s : State}

theorem doDcConfig_none (none : dcRegions s h = []) : doDcConfig path h s = answer path 0x4800 rcSuccess ([0, 0] ++ zeros 6) s := by
  simp [doDcConfig, none]

/-- One region of Dynamic Capacity is reported with its own base and length. -/
theorem doDcConfig_one {r : Region} (one : dcRegions s h = [r]) :
    doDcConfig path h s = answer path 0x4800 rcSuccess
      ([1, 1] ++ zeros 6 ++ (le 8 (r.base * unitBytes) ++ le 8 r.len ++ le 8 (r.len * unitBytes) ++ le 8 unitBytes ++ le 4 0 ++
       zeros 4) ++ le 4 1 ++ le 4 0 ++ le 4 0 ++ le 4 0) s := by
  simp [doDcConfig, one]

end

/-- Settles O16: each command is taken on a head that is on, and only answers. -/
theorem deviceReads : Obligations.DeviceReads := by
  refine ⟨fun path s takes on => ⟨_, length_sub .., run_headAnswers takes on rfl rfl⟩,
    fun path s takes off => run_headOff takes off rfl _, fun path s takes on => run_headAnswers takes on rfl rfl,
    fun path inp s takes => run_unsupported takes, ?lsaInside, ?lsaOutside,
    fun path s takes => run_answers takes rfl rfl, fun path s takes => run_answers takes rfl rfl,
    fun path s takes on => run_headAnswers takes on rfl rfl, ?dcNone, ?dcOne, ?extents,
    fun path inp s takes => run_unsupported takes, fun path inp s takes => run_unsupported takes⟩
  case lsaInside =>
    intro path o n s ho hn inside most takes on
    exact run_headAnswers takes on (by simp) (doGetLsa_inside (s := s.begun) ho hn inside most)
  case lsaOutside =>
    intro path o n s ho hn outside takes on
    exact run_headAnswers takes on (by simp) (doGetLsa_outside ho hn outside)
  case dcNone =>
    intro path a b s takes on none
    exact run_headAnswers takes on rfl (doDcConfig_none (s := s.begun) none)
  case dcOne =>
    intro path a b r s takes on one
    exact run_headAnswers takes on rfl (doDcConfig_one (s := s.begun) one)
  case extents =>
    intro path n o s hn ho start takes on
    exact run_headAnswers takes on (by simp) (doDcExtents_from (s := s.begun) hn ho start)

end Sys2Proof.Machine
end

section
namespace Sys2Proof.Machine

/-! ### Commands that change a head's own state -/

/-- A command that changes the state of one head and answers: no other head changes, and nothing else. -/
theorem run_modHead {path op code h : Nat} {body : List Byte} {f : State → State} {g : Head → Head} {s : State}
    (effect : f s.begun = answer path op code body (modHead h g s.begun)) :
    ∃ t, run f s = .next t ∧ t.out = [.reply path op code body] ∧ headOf t h = g (headOf s h) ∧
      (∀ k, k ≠ h → headOf t k = headOf s k) ∧ t = { s with out := t.out, heads := t.heads } :=
  ⟨_, run_next effect rfl, rfl, modHead_headOf_same .., fun k other => modHead_headOf_ne _ k _ _ other, rfl⟩

/-- The same for a command that is taken on a head that is on. -/
theorem run_headModHead {path op code : Nat} {inp body : List Byte} {lenOk : Bool} {f : Nat → State → State} {g : Head → Head}
    {s : State} (takes : taken path op inp s = true) (on : headOn s (cmdHead s path) = true) (whole : lenOk = true)
    (effect : f (cmdHead s path) s.begun = answer path op code body (modHead (cmdHead s path) g s.begun)) :
    ∃ t, run (headCmd path op inp lenOk f) s = .next t ∧ t.out = [.reply path op code body] ∧
      headOf t (cmdHead s path) = g (headOf s (cmdHead s path)) ∧
      (∀ k, k ≠ cmdHead s path → headOf t k = headOf s k) ∧ t = { s with out := t.out, heads := t.heads } := by
  subst whole
  exact run_modHead ((headCmd_taken path op inp f s.begun takes on).trans effect)

/-- A byte of a payload; one past its end reads 0. -/
theorem byteAt_eq (l : List Byte) (i : Nat) : byteAt l i = (l.getD i 0).toNat := by
  have head : (l.drop i).head?.getD 0 = l.getD i 0 := by simp [List.head?_drop]
  rw [← head, byteAt, at', sub]
  cases l.drop i <;> simp [leVal]

/-- A payload of two 64-bit fields. -/
theorem at'_halves {a b : List Byte} (la : a.length = 8) (lb : b.length = 8) :
    at' (a ++ b) 0 8 = leVal a ∧ at' (a ++ b) 8 8 = leVal b := by
  refine ⟨?_, ?_⟩
  · rw [at'_left (by omega), at'_all la]
  · rw [at'_skip la 0, at'_all lb]

end Sys2Proof.Machine
end

section
namespace Sys2Proof.Machine

/-! ### Event logs, the poison list and scan results (R112, R115, R116, R119) -/

section
variable {path h : Nat} {s : State}

theorem doGetEvents_badLog {inp : List Byte} (bad : 3 < byteAt inp 0) :
    doGetEvents path h inp s = answer path 0x0100 rcInvalid [] s := if_pos bad

/-- The oldest 63 records of a log. -/
theorem doGetEvents_oldest {k : Byte} (log : k.toNat < 4) :
    let lg := lat ⟨[], 1, 0, 0, 0, none⟩ (headOf s h).logs k.toNat
    doGetEvents path h [k] s = answer path 0x0100 rcSuccess
      (le 1 ((if lg.dropped = 0 then 0 else 1) + (if 63 < lg.recs.length then 2 else 0)) ++ [0] ++ le 2 lg.dropped ++
       le 8 lg.firstDrop ++ le 8 lg.lastDrop ++ le 2 (min 63 lg.recs.length) ++ zeros 10 ++
       ((lg.recs.take 63).map (eventBytes s k.toNat)).flatten) s := by
  intro lg
  refine (if_neg (by rw [byteAt_cons]; omega)).trans ?_
  simp only [byteAt_cons, List.length_take, min_lt_iff, Nat.lt_irrefl, or_false]
  rfl

/-- A log that a Clear Event Records has emptied: the next handle goes on (R119). -/
def EvLog.emptied (lg : EvLog) : EvLog := { lg with recs := [], dropped := 0, firstDrop := 0, lastDrop := 0 }

theorem doClearEvents_all {k : Byte} {r : List Byte} (log : k.toNat < 4) :
    doClearEvents path h (k :: 1 :: 0 :: r) s = answer path 0x0101 rcSuccess []
      (modHead h (fun x => { x with
        logs := x.logs.set k.toNat (lat ⟨[], 1, 0, 0, 0, none⟩ (headOf s h).logs k.toNat).emptied }) s) := by
  have kind : byteAt (k :: 1 :: 0 :: r) 0 = k.toNat := byteAt_cons ..
  have all : byteAt (k :: 1 :: 0 :: r) 1 = 1 := byteAt_eq ..
  simp only [doClearEvents, kind, all]
  exact if_neg (by simp; omega)

/-- What a change of one log leaves of the four. -/
theorem lat_set_same {α : Type} (d v : α) {l : List α} {k : Nat} (inside : k < l.length) : lat d (l.set k v) k = v := by
  simp [lat, inside]

theorem lat_set_ne {α : Type} (d v : α) (l : List α) {k j : Nat} (other : j ≠ k) : lat d (l.set k v) j = lat d l j := by
  simp [lat, List.getElem?_set_ne (Ne.symm other)]

/-- The flags of a poison list: more entries, an overflow, and a scan under way. -/
theorem poisonFlags (more full : Bool) {scan : Nat} (scans : scan = 0 ∨ scan = 4) :
    (BitVec.ofNat 8 ((if more then 1 else 0) + (if full then 2 else 0) + scan)).getLsbD 0 = more ∧
    (BitVec.ofNat 8 ((if more then 1 else 0) + (if full then 2 else 0) + scan)).getLsbD 1 = full := by
  obtain rfl | rfl := scans <;> revert more full <;> decide

/-- The entries of a range in a head's regions, in the order of the list (R112). -/
def poisonHits (s : State) (h a n : Nat) : List PoisonEnt :=
  s.poison.ents.filter (fun e => decide (a ≤ e.line) && decide (e.line < a + n) && (regionOf s h e.line).isSome)

/-- A poison list gives the first 510 entries of its range. -/
theorem doPoisonList_first {a b : List Byte} (la : a.length = 8) (lb : b.length = 8) :
    let hits := poisonHits s h (leVal a / 64) (leVal b)
    ∃ flags : Byte, doPoisonList path h (a ++ b) s = answer path 0x4300 rcSuccess
      ([flags, 0] ++ le 8 (if s.poison.overflow then s.poison.overflowAt else 0) ++ le 2 (min 510 hits.length) ++ zeros 20 ++
       ((hits.take 510).map (fun e => le 8 (e.line * 64 + e.src + 1) ++ le 4 1 ++ zeros 4)).flatten) s ∧
      flags.getLsbD 0 = decide (510 < hits.length) ∧ flags.getLsbD 1 = s.poison.overflow := by
  intro hits
  obtain ⟨start, length⟩ := at'_halves la lb
  have scans : ∀ o : Option BgCmd, (match o with | some (.scan ..) => 4 | _ => 0) = 0 ∨ (match o with | some (.scan ..) => 4 | _ => 0) = 4 := by
    intro o
    split <;> simp
  refine ⟨_, ?_, poisonFlags (decide (510 < hits.length)) s.poison.overflow (scans s.mgmt.bg)⟩
  simp only [doPoisonList, start, length, List.length_take, min_lt_iff, Nat.lt_irrefl, or_false, decide_eq_true_eq]
  rfl

/-- A scan's time is its bytes over what the channels read in a unit of time, rounded up (R115). -/
theorem doScanCaps_estimate {inp : List Byte} {a n : Nat} (range : scanRange s h inp = some (a, n)) (chans : 0 < fusedChans s) :
    ∃ d : Nat, doScanCaps path h inp s = answer path 0x4303 rcSuccess (le 4 d) s ∧
      64 * n ≤ d * (120000 * fusedChans s) ∧ d * (120000 * fusedChans s) < 64 * n + 120000 * fusedChans s := by
  refine ⟨(64 * n + 120000 * fusedChans s - 1) / (120000 * fusedChans s), by simp only [doScanCaps, range], ?_⟩
  generalize unit : 120000 * fusedChans s = u
  have rest := Nat.div_add_mod' (64 * n + u - 1) u
  have less := Nat.mod_lt (64 * n + u - 1) (y := u) (by omega)
  omega

theorem doScanCaps_badRange {inp : List Byte} (bad : scanRange s h inp = none) :
    doScanCaps path h inp s = answer path 0x4303 rcInvalid [] s := by simp only [doScanCaps, bad]

/-- At most 256 results leave with an answer (R116). -/
theorem doScanResults_first :
    let l := (headOf s h).scanLeft
    doScanResults path h s = answer path 0x4305 rcSuccess
      (le 8 0 ++ le 8 0 ++ [if 256 < l.length then 1 else 0, 0] ++ le 2 (min 256 l.length) ++ zeros 12 ++
       ((l.take 256).map (fun n => le 8 (n * 64 + 2) ++ le 4 1 ++ zeros 4)).flatten)
      (modHead h (fun x => { x with scanLeft := l.drop 256 }) s) := by
  have more : ∀ (p : Prop) [Decidable p], le 1 (if p then 1 else 0) = [if p then 1 else 0] := fun p _ => by split <;> rfl
  simp only [doScanResults, more, List.length_take, min_lt_iff, Nat.lt_irrefl, or_false, List.append_assoc, List.cons_append,
    List.nil_append]

end

/-- Settles O17: what is answered by each command's own lemma, and what leaves the head's log or results by the change of
that head alone. -/
theorem logsAndLists : Obligations.LogsAndLists := by
  refine ⟨fun path k s takes on log => run_headAnswers takes on rfl (doGetEvents_oldest (s := s.begun) log), ?badLog, ?clear,
    fun path s takes on => run_headAnswers takes on rfl rfl, ?policy, ?poison, ?estimate, ?badRange, ?results⟩
  case badLog =>
    intro path k s takes on bad
    exact run_headAnswers takes on rfl (doGetEvents_badLog (by rw [byteAt_cons]; omega))
  case clear =>
    intro path k r s log length takes on four
    have whole : (decide (6 ≤ (k :: 1 :: 0 :: r).length) &&
        (k :: 1 :: 0 :: r).length == 6 + 2 * byteAt (k :: 1 :: 0 :: r) 2) = true := by
      simp [byteAt_eq, length]
    obtain ⟨t, runs, out, head, others, frame⟩ := run_headModHead
      (f := fun h => doClearEvents path h (k :: 1 :: 0 :: r)) takes on whole (doClearEvents_all (s := s.begun) log)
    refine ⟨t, runs, out, ?_, fun j other => ?_, others, frame⟩
    · rw [head]
      exact congrArg EvLog.recs (lat_set_same _ _ (four ▸ log))
    · rw [head]
      exact lat_set_ne _ _ _ other
  case policy =>
    intro path a b c d s takes on ha hb hc hd
    have good : ([a, b, c, d].any fun x => decide (1 < x.toNat % 4)) = false := by simp; omega
    refine run_headModHead (g := fun x => { x with policy := [a.toNat, b.toNat, c.toNat, d.toNat] }) takes on rfl ?_
    exact if_neg (Bool.eq_false_iff.mp good)
  case poison =>
    intro path a b s la lb takes on hits
    obtain ⟨flags, list, more, full⟩ := doPoisonList_first (path := path) (h := cmdHead s path) (s := s.begun) la lb
    exact ⟨flags, run_headAnswers takes on (by simp [la, lb]) list, more, full⟩
  case estimate =>
    intro path a n inp s length takes on range chans
    obtain ⟨d, answers, enough, least⟩ := doScanCaps_estimate (path := path) (s := s.begun) range chans
    exact ⟨d, run_headAnswers takes on (by simp [length]) answers, enough, least⟩
  case badRange =>
    intro path inp s length takes on bad
    exact run_headAnswers takes on (by simp [length]) (doScanCaps_badRange (s := s.begun) bad)
  case results =>
    intro path s takes on l
    exact run_headModHead takes on rfl (doScanResults_first (s := s.begun))

end Sys2Proof.Machine
end

section
namespace Sys2Proof.Machine

/-! ### Bytes of an area -/

theorem mbyte_mput_same (d : Byte) (m : Memory) (a : Nat) (b : Byte) : mbyte d (mput d m a b) a = b := by
  unfold mput mbyte
  split
  · next erased => rw [erased, tget, tfind_tdel_same]; rfl
  · exact tget_tput_same ..

theorem mbyte_mput_ne (d : Byte) (m : Memory) {a i : Nat} (b : Byte) (other : i ≠ a) : mbyte d (mput d m a b) i = mbyte d m i := by
  unfold mput mbyte
  split
  · rw [tget, tfind_tdel_ne _ other]; rfl
  · exact tget_tput_ne _ _ _ other

/-- Bytes written from an address upward are read there, and every other byte is what it was. -/
theorem mbyte_mputs (d : Byte) (m : Memory) (a : Nat) (l : List Byte) (i : Nat) :
    mbyte d (mputs d m a l) i = if a ≤ i ∧ i < a + l.length then lat d l (i - a) else mbyte d m i := by
  induction l generalizing m a with
  | nil => exact (if_neg (by simp)).symm
  | cons b r ih =>
    rw [mputs, ih]
    obtain below | here | above := Nat.lt_trichotomy i a
    · rw [if_neg (by omega), if_neg (by omega), mbyte_mput_ne _ _ _ (by omega)]
    · subst here
      rw [if_neg (by omega), if_pos (by simp), mbyte_mput_same]
      simp [lat]
    · have step : i - a = i - (a + 1) + 1 := by omega
      rw [mbyte_mput_ne _ _ _ (by omega), step, List.length_cons]
      refine if_congr (by omega) ?_ rfl
      simp [lat]

end Sys2Proof.Machine
end

section
namespace Sys2Proof.Machine

/-! ### Commands that set a head's own state, poison a line or scan (R99, R113, R114, R116, R122) -/

/-- Of a head, recording an event changes its event logs alone. -/
theorem sr_head {α : Type} {s t : State} (same : unrecorded t = unrecorded s) (π : Head → α)
    (blind : ∀ x : Head, π { x with logs := [] } = π x) (h : Nat) : π (headOf t h) = π (headOf s h) := by
  have heads : { headOf t h with logs := [] } = { headOf s h with logs := [] } := congrArg (fun u => u.2.2 h) same
  rw [← blind, heads, blind]

/-- The next state of a command that is taken on a head that is on, from what its effect makes of the state. -/
theorem run_headEffect {path op : Nat} {inp : List Byte} {lenOk : Bool} {s t : State} {f : Nat → State → State}
    (takes : taken path op inp s = true) (on : headOn s (cmdHead s path) = true) (whole : lenOk = true)
    (effect : f (cmdHead s path) s.begun = t) : run (headCmd path op inp lenOk f) s = .next { t with pending := s.pending } :=
  effect ▸ run_headTaken takes on whole f

section
variable {path h : Nat} {s : State}

/-- The lines of the label area that a write of n bytes from offset o lies in (R268). -/
def lsaLines (s : State) (h o n : Nat) : List Nat :=
  ((List.range n).map (fun i => lineEnd s + 0x1000 * h + (o + i) / 64)).eraseDups

/-- A write of the label area inside its 256 KiB. -/
theorem doSetLsa_inside {o : Nat} {d : List Byte} (inside : o + d.length ≤ 256 * 1024) :
    doSetLsa path h (le 4 o ++ zeros 4 ++ d) s = answer path 0x4103 rcSuccess [] (internalServe
      { modHead h (fun x => { x with lsa := mputs 0 (headOf s h).lsa o d }) s with
        mtl := { s.mtl with internalQ := s.mtl.internalQ ++
          (lsaLines s h o d.length).filter (fun l => !s.mtl.internalQ.contains l) } }) := by
  have offset : at' (le 4 o ++ (zeros 4 ++ d)) 0 4 = o := by rw [at'_left (by simp), at'_le (by omega)]
  have reserved : zeroAt (le 4 o ++ (zeros 4 ++ d)) 4 4 = true := by
    have zero : sub (le 4 o ++ (zeros 4 ++ d)) 4 4 = zeros 4 :=
      (sub_skip (length_le 4 o) 0).trans ((sub_left (by simp [zeros])).trans (sub_all rfl))
    rw [zeroAt, zero]
    rfl
  have bytes : (le 4 o ++ (zeros 4 ++ d)).drop 8 = d := by
    rw [← List.append_assoc]
    exact List.drop_left' (by simp [zeros])
  rw [List.append_assoc, doSetLsa]
  simp only [offset, reserved, bytes]
  exact if_neg (by simp; omega)

/-- The enables after a Set Alert Configuration: an alert marked valid takes its bit, another keeps it. -/
def alertsOn (valid enable old : Nat) : Nat := (old &&& (255 - valid % 32)) ||| (enable &&& (valid % 32))

theorem alertsOn_testBit (valid enable old : Nat) {k : Nat} (alert : k < 5) :
    (alertsOn valid enable old).testBit k = if valid.testBit k then enable.testBit k else old.testBit k := by
  have low : (valid % 32).testBit k = valid.testBit k := by
    rw [show 32 = 2 ^ 5 from rfl, Nat.testBit_mod_two_pow]
    simp [alert]
  have rest : (255 - valid % 32).testBit k = !valid.testBit k := by
    have less : valid % 32 < 2 ^ 8 := by omega
    rw [show 255 - valid % 32 = 2 ^ 8 - (valid % 32 + 1) by omega, Nat.testBit_two_pow_sub_succ less, low]
    simp only [show k < 8 by omega, decide_true, Bool.true_and]
  rw [alertsOn, Nat.testBit_or, Nat.testBit_and, Nat.testBit_and, low, rest]
  cases valid.testBit k <;> simp

/-- A Set Alert Configuration leaves a configuration whose first byte holds the enables. -/
theorem doSetAlert_enables (inp : List Byte) :
    ∃ cfg, doSetAlert path h inp s = answer path 0x4202 rcSuccess [] (modHead h (fun x => { x with alertCfg := cfg }) s) ∧
      byteAt cfg 0 = alertsOn (byteAt inp 0) (byteAt inp 1) (byteAt (headOf s h).alertCfg 0) % 2 ^ 8 :=
  ⟨_, rfl, byteAt_cons ..⟩

/-- A scan that starts: its first result list is empty, and its progress is shown (R114, R116). -/
theorem doScanMedia_starts {inp : List Byte} {a n : Nat} (range : scanRange s h inp = some (a, n)) (free : s.mgmt.bg = none) :
    doScanMedia path h inp s = answer path 0x4304 rcBackground [] (sed 0x0141 sINFO 0 h (a / 4 % 2 ^ 32) (n / 4)
      (bgSet path 0x4304 0 0 { modHead h (fun x => { x with scanLeft := [] }) s with
        mgmt := { s.mgmt with bg := some (.scan path h a (a + n) a (byteAt inp 16 % 2 == 1) false []) } })) := by
  simp only [doScanMedia, range]
  exact if_neg (by simp [bgBusy, free])

theorem doScanMedia_busy {inp : List Byte} (range : (scanRange s h inp).isSome = true) (busy : s.mgmt.bg.isSome = true) :
    doScanMedia path h inp s = answer path 0x4304 rcBusy [] s := by
  obtain ⟨r, range⟩ := Option.isSome_iff_exists.mp range
  simp only [doScanMedia, range]
  exact if_pos busy

/-- The scan opens the line whose open fails, where it reads that line. -/
def scanOpenFail (fail : Option (Nat × Nat)) (s : State) : State :=
  match fail with
  | some (line, auth) => if scanReads s line then scanOpen auth line s else s
  | none => s

/-- The lines that a scan found uncorrectable are on the poison list, with an event each unless the scan asked for none. -/
def scanPoison (quiet : Bool) (found : List Nat) (s : State) : State :=
  forEach found (fun l s => if quiet then poisonAdd l 1 s else mediaEvent l (poisonAdd l 1 s)) s

/-- What ends a scan once its lines are read: the results, the background state and the record. -/
def scanEnd (path h aborted : Nat) (found : List Nat) (s : State) : State :=
  sed 0x0142 sINFO 0 h found.length aborted (emit (.bgDone path 0x4304 rcSuccess) (bgSet path 0x4304 100 rcSuccess
    { modHead h (fun x => { x with scanLeft := found }) s with
      mgmt := { s.mgmt with bg := none } }))

section
variable {a b pos : Nat} {quiet : Bool} {ok : List Nat}

theorem doScanDone_running {bad : List Nat} {fail : Option (Nat × Nat)}
    (runs : s.mgmt.bg = some (.scan path h a b pos quiet false ok))
    (inside : ∀ line auth, fail = some (line, auth) → a ≤ line ∧ line < b) :
    doScanDone bad fail s =
      let opened := (mappedLines s a b).filter (fun l => !bad.contains l && fail.map (·.1) != some l)
      let s := scanOpenFail fail (forEach opened (scanOpen 0) s)
      let found := (bad.filter (fun l => decide (a ≤ l) && decide (l < b) && scanReads s l)).eraseDups
      scanEnd path h 0 found (scanPoison quiet found s) := by
  cases fail with
  | none =>
    simp only [doScanDone, runs]
    rfl
  | some f =>
    obtain ⟨line, auth⟩ := f
    obtain ⟨low, high⟩ := inside line auth rfl
    simp only [doScanDone, runs, low, high, decide_true, Bool.true_and]
    rfl

/-- A scan that was aborted ends with no results (R116). -/
theorem doScanDone_aborted (runs : s.mgmt.bg = some (.scan path h a b pos quiet true ok)) :
    doScanDone [] none s = scanEnd path h 1 [] s := by
  simp only [doScanDone, runs]
  rfl

end

theorem doInjectPoison_deployed {inp : List Byte} (deployed : 2 ≤ lifecycle s) :
    doInjectPoison path h inp s = answer path 0x4301 rcRefused [] s := if_pos deployed

theorem doClearPoison_badAddress {inp : List Byte} (bad : at' inp 0 8 % 64 ≠ 0 ∨ regionOf s h (at' inp 0 8 / 64) = none) :
    doClearPoison path h inp s = answer path 0x4302 rcInvalid [] s := if_pos (by simpa using bad)

/-- The write of a whole line that Inject and Clear Poison make (R113). -/
def poisonOp (path line key : Nat) (poison : Bool) (data : Line) : AmqOp :=
  { kind := .full, line := line, key := key, poison := poison, data := data, mask := 1, src := .mover path, waiting := false,
    persisted := false }

section
variable {op line key : Nat} {poison : Bool} {data : Line} {r : Region}

/-- A line that can be written, in a slice with room for it. -/
theorem poisonWrite_admitted (region : regionOf s h line = some r) (named : key = (heldKey s line).getD r.key)
    (holds : keyHolds s key = true) (headRw : roLine s h line = false) (deviceRw : deviceRo s line = false)
    (serves : slicesServe s = true) (room : amqFull s line = false) (admits : admitLine s line = true) :
    poisonWrite path op h line poison data s =
      answer path op rcSuccess [] (pump (submit (poisonOp path line key poison data) s)) := by
  simp only [poisonWrite, region, ← named]
  exact (if_neg (by simp [holds, headRw, deviceRw, serves])).trans (if_neg (by simp [room, admits]))

end

theorem doInjectPoison_line {inp : List Byte} {r : Region} (early : lifecycle s < 2) (aligned : at' inp 0 8 % 64 = 0)
    (region : regionOf s h (at' inp 0 8 / 64) = some r) :
    doInjectPoison path h inp s = poisonWrite path 0x4301 h (at' inp 0 8 / 64) true 0 s :=
  (if_neg (Nat.not_le.mpr early)).trans (if_neg (by simp [aligned, region]))

theorem doClearPoison_line {inp : List Byte} {r : Region} (aligned : at' inp 0 8 % 64 = 0)
    (region : regionOf s h (at' inp 0 8 / 64) = some r) :
    doClearPoison path h inp s = poisonWrite path 0x4302 h (at' inp 0 8 / 64) false (bytesLine (inp.drop 8)) s :=
  if_neg (by simp [aligned, region])

end

/-- Settles O18: a change of the head's own state, a scan by how it ends, and a poisoned line by the write it makes. -/
theorem headWrites : Obligations.HeadWrites := by
  refine ⟨?lsa, ?alerts, ?shutdown, ?scan, ?scanBusy, ?scanDone, ?scanAborted, ?injectDeployed, ?inject, ?clear, ?clearBad⟩
  case lsa =>
    intro path o d s inside short takes on h lines lsa
    have length : (decide (8 ≤ (le 4 o ++ zeros 4 ++ d).length) && decide ((le 4 o ++ zeros 4 ++ d).length ≤ 8192)) = true := by
      simp [zeros]
      omega
    refine ⟨?_, fun i => mbyte_mputs 0 _ o d i⟩
    exact run_headEffect (f := fun h => doSetLsa path h (le 4 o ++ zeros 4 ++ d)) takes on length
      (doSetLsa_inside (s := s.begun) inside)
  case alerts =>
    intro path inp s length takes
    obtain ⟨cfg, sets, enables⟩ := doSetAlert_enables (path := path) (h := path) (s := s.begun) inp
    obtain ⟨t, runs, out, head, others, frame⟩ := run_modHead
      ((cmd_whole (s := s.begun) takes (lenOk := inp.length == 12) (by simp [length]) _).trans sets)
    have bits : ∀ k, k < 5 → (byteAt cfg 0).testBit k =
        if (byteAt inp 0).testBit k then (byteAt inp 1).testBit k else (byteAt (headOf s path).alertCfg 0).testBit k := by
      intro k alert
      rw [enables, Nat.testBit_mod_two_pow, alertsOn_testBit _ _ _ alert]
      simp only [show k < 8 by omega, decide_true, Bool.true_and]
      rfl
    exact ⟨t, cfg, runs, out, head, fun k alert valid => (bits k alert).trans (if_pos valid),
      fun k alert kept => (bits k alert).trans (if_neg (Bool.eq_false_iff.mp kept)), others, frame⟩
  case shutdown =>
    intro path b s takes on
    obtain ⟨t, runs, out, head, others, frame⟩ := run_headModHead
      (f := fun h s => answer path 0x4204 rcSuccess [] (modHead h (fun x => { x with shutdown := byteAt [b] 0 }) s))
      (g := fun x => { x with shutdown := byteAt [b] 0 }) takes on (lenOk := ([b] : List Byte).length == 1) rfl rfl
    exact ⟨t, runs, out, by rw [head, byteAt_cons], others, frame⟩
  case scan =>
    intro path a n inp s length takes on range free
    refine ⟨_, run_headEffect (f := fun h => doScanMedia path h inp) takes on (by simp [length])
      (doScanMedia_starts (s := s.begun) range free), ?_, ?_, ?_, ?_, ?_, ?_⟩
    · simp
    · simp [bgSet]
    · exact (sr_head (sed_sr ..) Head.scanLeft (fun _ => rfl) _).trans
        (congrArg Head.scanLeft (modHead_headOf_same (cmdHead s path) (fun x => { x with scanLeft := [] }) s))
    · simp [bgSet]
    · simp [bgSet]
    · simp [bgSet]
  case scanBusy =>
    intro path inp c s length takes on range runs
    exact run_headAnswers takes on (by simp [length]) (doScanMedia_busy (s := s.begun) range (by simp [runs]))
  case scanDone =>
    intro path h a b pos quiet ok bad fail s runs inside
    exact congrArg _ (after_congr (doScanDone_running (s := s.begun) runs inside))
  case scanAborted =>
    intro path h a b pos quiet ok s runs
    exact congrArg _ (after_congr (doScanDone_aborted (s := s.begun) runs))
  case injectDeployed =>
    intro path inp s length takes on deployed
    exact run_headAnswers takes on (by simp [length]) (doInjectPoison_deployed (s := s.begun) deployed)
  case inject =>
    intro path inp s length takes on early aligned h line r key region named holds headRw deviceRw serves room admits
    exact run_headEffect (f := fun h => doInjectPoison path h inp) takes on (by simp [length])
      ((doInjectPoison_line (s := s.begun) early aligned region).trans
        (poisonWrite_admitted (s := s.begun) region named holds headRw deviceRw serves room admits))
  case clear =>
    intro path inp s length takes on aligned h line r key region named holds headRw deviceRw serves room admits
    exact run_headEffect (f := fun h => doClearPoison path h inp) takes on (by simp [length])
      ((doClearPoison_line (s := s.begun) aligned region).trans
        (poisonWrite_admitted (s := s.begun) region named holds headRw deviceRw serves room admits))
  case clearBad =>
    intro path inp s length takes on bad
    exact run_headAnswers takes on (by simp [length]) (doClearPoison_badAddress (s := s.begun) bad)

end Sys2Proof.Machine
end

section
namespace Sys2Proof.Machine

/-! ### The heads and their registers -/

theorem headOn_lt {s : State} {h : Nat} (on : headOn s h = true) : h < 4 := by
  have fused : fusedPorts s < 2 ^ 4 := by unfold fusedPorts; split <;> decide
  by_contra beyond
  have bit : (fusedPorts s).testBit h = true := by simp_all [headOn]
  rw [Nat.testBit_lt_two_pow (fused.trans_le (Nat.pow_le_pow_right (by decide) (Nat.not_lt.mp beyond)))] at bit
  exact Bool.noConfusion bit

/-- The registers that recording an event writes lie above those of the heads. -/
theorem sedAddr_low {a : Nat} (low : a < 0x200000) : sedAddr a = false := by
  have high : ∀ f ∈ [F.MGMT_ALERT_PENDING, F.OBS_SND_STAT_DROPPED, F.SED_CNT_DROP_DROPPED, F.SED_CNT_REC_COUNT,
      F.SED_CNT_REPEAT_COUNT, F.SED_MIRROR_SKIPPED], 0x200000 ≤ f.reg := by decide
  refine List.any_eq_false.mpr fun f listed same => ?_
  have above := high f listed
  rw [eq_of_beq same] at above
  omega

/-- A field of the register that shares no bit with the one set keeps its value. -/
theorem fld_setF_apart {f g : Fld} (v : Nat) (s : State) (ok : g.ok = true) (apart : f.apart g = true) :
    fld (setF f v s) g = fld s g := fld_setF_other f g v s (.inr ⟨ok, apart⟩)

theorem fld_setF_elsewhere {f g : Fld} (v : Nat) (s : State) (other : g.reg ≠ f.reg) : fld (setF f v s) g = fld s g :=
  fld_setF_other f g v s (.inl other)

/-- A value that fits its field is read back. -/
theorem fld_setF_fits {f : Fld} {v : Nat} (s : State) (ok : f.ok = true) (fits : v < 2 ^ f.width) : fld (setF f v s) f = v := by
  rw [fld_setF_same f v s ok, Nat.mod_eq_of_lt fits]

end Sys2Proof.Machine
end

section
namespace Sys2Proof.Machine

/-! ### Links (R95 to R97, R130, R563) -/

section
variable {h : Nat} {s : State}

theorem fld_ltssm_apart {g : Fld} (ok : g.ok = true) (apart : (F.HP_LINK_STAT_LTSSM h).apart g = true) :
    fld (ltssm h s) g = fld s g := fld_setF_apart _ _ ok apart

theorem fld_ltssm_elsewhere {g : Fld} (other : g.reg ≠ Reg.HP_LINK_STAT h) : fld (ltssm h s) g = fld s g :=
  fld_setF_elsewhere _ _ other

/-- HP_LINK_STAT of a link that has trained: its width and rate, and whether either is below the offer. -/
def linkRegs (h width rate : Nat) (slow : Bool) (s : State) : State :=
  setB (F.HP_LINK_STAT_DEGRADED h) slow (setF (F.HP_LINK_STAT_REFUSED h) 0 (setF (F.HP_LINK_STAT_SPEED h) rate
    (setF (F.HP_LINK_STAT_WIDTH h) width (ltssm h s))))

/-- A link that has trained starts in L0 with no credits of its host. -/
def Head.linked (x : Head) : Head := { x with lowPower := 0, ndrCredit := 0, drsCredit := 0 }

/-- A link that has trained, before CXL.mem. -/
def linkTrains (h width rate : Nat) (slow : Bool) (s : State) : State := modHead h Head.linked (linkRegs h width rate slow s)

/-- A link that has trained with CXL.mem: it is UP, and its channels have their credits. -/
def linkComesUp (h width rate : Nat) (slow : Bool) (s : State) : State :=
  initCredits h (setF (F.HP_LINK_STAT_UP h) 1 (linkTrains h width rate slow s))

/-- Training ends below the offered width or rate. -/
def linkSlow (s : State) (h width rate : Nat) : Bool := decide (width < offeredWidth s h) || decide (offeredRate s h < rate)

section Registers
variable {width rate : Nat} {slow : Bool}

theorem fld_linkRegs_elsewhere {g : Fld} (other : g.reg ≠ Reg.HP_LINK_STAT h) :
    fld (linkRegs h width rate slow s) g = fld s g := by
  refine (fld_setF_elsewhere _ _ other).trans ((fld_setF_elsewhere _ _ other).trans ((fld_setF_elsewhere _ _ other).trans ?_))
  exact (fld_setF_elsewhere _ _ other).trans (fld_ltssm_elsewhere other)

theorem fld_linkRegs_width (fits : width < 2 ^ 4) : fld (linkRegs h width rate slow s) (F.HP_LINK_STAT_WIDTH h) = width :=
  (fld_setF_apart _ _ rfl rfl).trans ((fld_setF_apart _ _ rfl rfl).trans ((fld_setF_apart _ _ rfl rfl).trans
    (fld_setF_fits _ rfl fits)))

theorem fld_linkRegs_speed (fits : rate < 2 ^ 3) : fld (linkRegs h width rate slow s) (F.HP_LINK_STAT_SPEED h) = rate :=
  (fld_setF_apart _ _ rfl rfl).trans ((fld_setF_apart _ _ rfl rfl).trans (fld_setF_fits _ rfl fits))

theorem bit_linkRegs_refused : bit (linkRegs h width rate slow s) (F.HP_LINK_STAT_REFUSED h) = false :=
  (congrArg (· == 1) (fld_setF_apart _ _ rfl rfl)).trans (bit_setF_zero _ _ rfl)

theorem bit_linkRegs_degraded : bit (linkRegs h width rate slow s) (F.HP_LINK_STAT_DEGRADED h) = slow :=
  bit_setB _ _ _ rfl rfl

theorem bit_linkRegs_up : bit (linkRegs h width rate slow s) (F.HP_LINK_STAT_UP h) = bit s (F.HP_LINK_STAT_UP h) := by
  refine congrArg (· == 1) ((fld_setF_apart _ _ rfl rfl).trans ((fld_setF_apart _ _ rfl rfl).trans ?_))
  exact (fld_setF_apart _ _ rfl rfl).trans ((fld_setF_apart _ _ rfl rfl).trans (fld_ltssm_apart rfl rfl))

/-- Showing a link's registers leaves the rest of the state alone, of which the parts below are needed. -/
theorem linkRegs_kept : (linkRegs h width rate slow s).heads = s.heads ∧ (linkRegs h width rate slow s).queues = s.queues ∧
    (linkRegs h width rate slow s).media = s.media ∧ (linkRegs h width rate slow s).ways = s.ways ∧
    (linkRegs h width rate slow s).icu = s.icu := by
  simp [linkRegs, setB, ltssm, draw]

/-- The start of a link's credits changes its two channels alone. -/
theorem initCredits_eq : initCredits h s =
    modQueue (iqRwd h) (fun x => { x with credits := if (fld s F.QF_CTL_CREDITS_FULL).testBit h then 512 else 64 })
      (modQueue (iqReq h) (fun x => { x with credits := if (fld s F.QF_CTL_CREDITS_FULL).testBit h then 512 else 64 }) s) := rfl

theorem fld_initCredits (g : Fld) : fld (initCredits h s) g = fld s g := by
  rw [initCredits_eq]
  rfl

/-- The other fields of HP_LINK_STAT are as before the link came UP. -/
theorem fld_linkComesUp {g : Fld} (ok : g.ok = true) (apart : (F.HP_LINK_STAT_UP h).apart g = true) :
    fld (linkComesUp h width rate slow s) g = fld (linkRegs h width rate slow s) g := by
  rw [linkComesUp, fld_initCredits, fld_setF_apart _ _ ok apart]
  rfl

theorem bit_linkComesUp_up : bit (linkComesUp h width rate slow s) (F.HP_LINK_STAT_UP h) = true := by
  rw [bit_fld, linkComesUp, fld_initCredits]
  exact bit_setF_one (F.HP_LINK_STAT_UP h) _ rfl rfl

theorem queueOf_modQueue_ne {q k : Nat} (f : Queue → Queue) (s : State) (other : k ≠ q) :
    queueOf (modQueue q f s) k = queueOf s k := tget_tmod_ne _ _ _ other

/-- Both M2S channels of a head have what R152 gives them. -/
theorem credits_initCredits :
    (queueOf (initCredits h s) (iqReq h)).credits = (if (fld s F.QF_CTL_CREDITS_FULL).testBit h then 512 else 64) ∧
    (queueOf (initCredits h s) (iqRwd h)).credits = (if (fld s F.QF_CTL_CREDITS_FULL).testBit h then 512 else 64) := by
  have other : iqReq h ≠ iqRwd h := by unfold iqReq iqRwd; omega
  rw [initCredits_eq, queueOf_modQueue_ne _ _ other, queueOf_modQueue_same, queueOf_modQueue_same]
  exact ⟨rfl, rfl⟩

theorem fld_linkTrains (g : Fld) : fld (linkTrains h width rate slow s) g = fld (linkRegs h width rate slow s) g := fld_modHead ..

theorem fld_linkTrains_creditsFull :
    fld (setF (F.HP_LINK_STAT_UP h) 1 (linkTrains h width rate slow s)) F.QF_CTL_CREDITS_FULL = fld s F.QF_CTL_CREDITS_FULL := by
  have other : F.QF_CTL_CREDITS_FULL.reg ≠ Reg.HP_LINK_STAT h := by
    simp only [F.QF_CTL_CREDITS_FULL, Reg.QF_CTL, Reg.HP_LINK_STAT]
    omega
  exact (fld_setF_elsewhere _ _ other).trans ((fld_linkTrains _).trans (fld_linkRegs_elsewhere other))

theorem headOf_linkTrains (g : Nat) : headOf (linkTrains h width rate slow s) g =
    if g = h then (headOf s h).linked else headOf s g := by
  have same : ∀ k, headOf (linkRegs h width rate slow s) k = headOf s k :=
    fun k => congrArg (fun l => tget Head.init l k) linkRegs_kept.1
  split
  · next this => rw [this, linkTrains, modHead_headOf_same, same]
  · next other => rw [linkTrains, modHead_headOf_ne _ _ _ _ other, same]

/-- Coming UP leaves the heads, the media, the cache and the crypt unit as training did. -/
theorem linkComesUp_kept : (linkComesUp h width rate slow s).heads = (linkTrains h width rate slow s).heads ∧
    (linkComesUp h width rate slow s).media = s.media ∧ (linkComesUp h width rate slow s).ways = s.ways ∧
    (linkComesUp h width rate slow s).icu = s.icu := by
  obtain ⟨-, -, media, ways, icu⟩ := linkRegs_kept (h := h) (width := width) (rate := rate) (slow := slow) (s := s)
  simp [linkComesUp, initCredits_eq, modQueue, linkTrains, media, ways, icu]

theorem headOf_linkComesUp (g : Nat) :
    headOf (linkComesUp h width rate slow s) g = if g = h then (headOf s h).linked else headOf s g :=
  (congrArg (fun l => tget Head.init l g) linkComesUp_kept.1).trans (headOf_linkTrains g)

end Registers

/-! What a training does by what it meets. -/

section Training
variable {width rate : Nat} {cxl : Bool} (trains : portTrains s h = true) (down : linkTrained s h = false)
include trains down

theorem doLinkUp_narrow (narrow : width < 4) : doLinkUp h width rate cxl s =
    sed 0x0103 sERROR 0 h width 0 (setF (F.HP_LINK_STAT_REFUSED h) 1 (ltssm h s)) :=
  (if_neg (by simp [trains, down])).trans (if_pos narrow)

theorem doLinkUp_fits (fits : trainable s h width rate = true) : doLinkUp h width rate cxl s =
    when (linkSlow s h width rate) (sed 0x0102 sWARNING 0 h width rate)
      (when cxl (fun s => sed 0x0100 sINFO 0 h width rate (initCredits h (setF (F.HP_LINK_STAT_UP h) 1 s)))
        (linkTrains h width rate (linkSlow s h width rate) s)) := by
  have wide : ¬ width < 4 := by simp [trainable] at fits; omega
  exact (if_neg (by simp [trains, down])).trans ((if_neg wide).trans (if_neg (by simp [fits])))

/-- But for the records, a training with CXL.mem leaves the link UP. -/
theorem unrecorded_doLinkUp_cxl (fits : trainable s h width rate = true) :
    unrecorded (doLinkUp h width rate true s) = unrecorded (linkComesUp h width rate (linkSlow s h width rate) s) := by
  rw [doLinkUp_fits trains down fits, when_sr _ _ _ fun t => sed_sr ..]
  exact sed_sr ..

theorem unrecorded_doLinkUp_noCxl (fits : trainable s h width rate = true) :
    unrecorded (doLinkUp h width rate false s) = unrecorded (linkTrains h width rate (linkSlow s h width rate) s) := by
  rw [doLinkUp_fits trains down fits, when_sr _ _ _ fun t => sed_sr ..]
  rfl

end Training

theorem doLinkUp_ignored {width rate : Nat} {cxl : Bool} (ignored : portTrains s h = false ∨ linkTrained s h = true ∨
    (4 ≤ width ∧ trainable s h width rate = false)) : doLinkUp h width rate cxl s = s := by
  by_cases held : (!portTrains s h || linkTrained s h) = true
  · exact if_pos held
  · obtain noTrain | up | ⟨wide, bad⟩ := ignored
    · simp [noTrain] at held
    · simp [up] at held
    · exact (if_neg held).trans ((if_neg (Nat.not_lt.mpr wide)).trans (if_pos (by simp [bad])))

theorem trainable_bounds {width rate : Nat} (fits : trainable s h width rate = true) : width < 2 ^ 4 ∧ rate < 2 ^ 3 := by
  simp [trainable] at fits
  omega

/-- L1, L2 and L0p of a trained link (R95, R563). -/
theorem execLinkL1L2Entry_trained (level : Nat) (on : headOn s h = true) (trained : linkTrained s h = true) :
    execLinkL1L2Entry h level s = .next { setB (F.HP_LINK_STAT_L0P h) (level == 3)
      (modHead h (fun x => { x with lowPower := level % 3 }) s.begun) with pending := s.pending } :=
  run_effect (if_pos (by simp [on, trained]))

end

end Sys2Proof.Machine
end

section
namespace Sys2Proof.Machine

/-! ### Resets of a head (R127, R128, R200) -/

section
variable {h : Nat} {s : State}

theorem execLinkDown_trained (on : headOn s h = true) (trained : linkTrained s h = true) :
    execLinkDown h s = .next (s.after (fun s => linkDown h 0 (satInc (F.HP_RESET_STAT_HOT h) s))) :=
  run_effect (if_pos (by simp [on, trained]))

/-! PERST_N of a port that the part has. -/

section Perst
variable (fused : (fusedPorts s).testBit h = true)
include fused

theorem execPerstAssert_on (released : (headOf s h).perst = false) (on : headOn s h = true) :
    execPerstAssert h s = .next (s.after (fun s => headReset h (linkDown h 1 (sed 0x0104 sNOTICE 0 h 0 0
      (satInc (F.HP_RESET_STAT_PERST h) (testPin (modHead h (fun x => { x with perst := true, ioState := [] }) s))))))) := by
  have enabled : ¬ (!headOn s h) = true := by simp [on]
  exact run_effect ((if_neg (by simp [fused, released])).trans (if_neg enabled))

theorem execPerstAssert_off (released : (headOf s h).perst = false) (off : headOn s h = false) :
    execPerstAssert h s = .next (s.after (fun s => testPin (modHead h (fun x => { x with perst := true, ioState := [] }) s))) := by
  have disabled : (!headOn s h) = true := by simp [off]
  exact run_effect ((if_neg (by simp [fused, released])).trans (if_pos disabled))

theorem execPerstDeassert_on (on : headOn s h = true) :
    execPerstDeassert h s =
      .next (s.after (fun s => wakeStart 2 (testReset (modHead h (fun x => { x with perst := false }) s)))) :=
  run_effect ((if_pos fused).trans (if_pos on))

end Perst

/-! Resets of a head that is out of PERST_N. -/

section Running
variable (on : headOn s h = true) (released : (headOf s h).perst = false)
include on released

theorem head_runs : ¬ (!headOn s h || (headOf s h).perst) = true := by simp [on, released]

theorem execHotReset_running :
    execHotReset h s = .next (s.after (fun s => headReset h (linkDown h 2 (sed 0x0104 sNOTICE 0 h 1 0
      (satInc (F.HP_RESET_STAT_HOT h) s))))) := run_effect (if_neg (head_runs on released))

/-- The link stays up over a CXL Reset, so that its credits start again (R128). -/
theorem execCxlReset_running :
    let u := headReset h (sed 0x0104 sNOTICE 0 h 2 0 (satInc (F.HP_RESET_STAT_CXLRST h) s.begun))
    execCxlReset h s = .next { (if bit u (F.HP_LINK_STAT_UP h) then
        initCredits h (modHead h (fun x => { x with ndrCredit := 0, drsCredit := 0 }) u) else u) with pending := s.pending } :=
  run_effect (if_neg (head_runs on released))

end Running

theorem execFunctionLevelReset_on (on : headOn s h = true) :
    execFunctionLevelReset h s = .next (s.after (fun s => abortCmd h (lcmdAbort h (modHead h (fun x => { x with ioState := [] })
      (sed 0x0104 sNOTICE 0 h 3 0 (satInc (F.HP_RESET_STAT_FLR h) s)))))) := run_effect (if_neg (by simp [on]))

/-! What a reset of a head leaves: `clearDecoders` for its decoders and keys, `dropResult` for its mailbox. -/

theorem headOf_clearDecoders :
    headOf (clearDecoders h s) h = { headOf s h with decoders := [], notCommitted := 0, ideKeys := [] } := by
  have same : ∀ (f : Fld) (v : Nat) (t : State) (k : Nat), headOf (setF f v t) k = headOf t k := fun f v t k => by simp [headOf]
  rw [clearDecoders]
  split <;> simp only [same, modHead_headOf_same]

theorem fld_clearDecoders_committed : fld (clearDecoders h s) (F.HP_HDM_STAT_COMMITTED h) = 0 := by
  have other : (F.HP_HDM_STAT_COMMITTED h).reg ≠ Reg.HP_IDE_STAT h := by
    simp only [F.HP_HDM_STAT_COMMITTED, Reg.HP_HDM_STAT, Reg.HP_IDE_STAT]
    omega
  have zero : ∀ t : State, fld (setF (F.HP_IDE_STAT_KEYSET h) 0 (setF (F.HP_HDM_STAT_COMMITTED h) 0 t))
      (F.HP_HDM_STAT_COMMITTED h) = 0 := fun t => (fld_setF_elsewhere _ _ other).trans (fld_setF_fits _ rfl (Nat.two_pow_pos _))
  rw [clearDecoders]
  split
  · exact zero _
  · exact (fld_setF_elsewhere _ _ other).trans (zero _)

/-- The stream is cleared, or insecure as before (R125). -/
theorem fld_clearDecoders_state : fld (clearDecoders h s) (F.HP_IDE_STAT_STATE h) ≠ 1 := by
  rw [clearDecoders]
  split
  · next insecure => rw [insecure]; decide
  · rw [fld_setF_fits _ rfl (Nat.two_pow_pos _)]; decide

/-- The last steps of a reset: its decoders and keys are cleared, then its command's result is dropped. -/
theorem headReset_clears (h : Nat) (s : State) : ∃ t, headOf (headReset h s) = headOf (clearDecoders h t) ∧
    (∀ f, fld (headReset h s) f = fld (clearDecoders h t) f) ∧
    (headReset h s).mgmt = (dropResult h (clearDecoders h t)).mgmt :=
  have last : ∀ u, headOf (pcHeadReset h (dropResult h u)) = headOf u ∧
      (∀ f, fld (pcHeadReset h (dropResult h u)) f = fld u f) ∧
      (pcHeadReset h (dropResult h u)).mgmt = (dropResult h u).mgmt := fun _ => ⟨rfl, fun _ => rfl, rfl⟩
  ⟨ringsHeadReset h (cutRequests h (lcmdAbort h s)), last _⟩

theorem inflight_dropResult : (dropResult h s).mgmt.inflight.any (fun e => e.path == h) = false := by
  simp [dropResult]

end

/-- Settles O20: a training by the width and rate it meets, a reset by what the head is in, and what a reset leaves by the
steps that clear it. -/
theorem linksAndResets : Obligations.LinksAndResets := by
  refine ⟨?narrow, ?cxl, ?noCxl, ?ignored, fun h s on trained => execLinkDown_trained on trained,
    fun h s fused released on => execPerstAssert_on fused released on,
    fun h s fused released off => execPerstAssert_off fused released off,
    fun h s fused on => execPerstDeassert_on fused on, fun h s on released => execHotReset_running on released, ?cxlReset,
    fun h s on => execFunctionLevelReset_on on, ?lowPower, ?reset⟩
  case narrow =>
    intro h width rate cxl s trains down narrow
    exact congrArg _ (after_congr (doLinkUp_narrow (s := s.begun) trains down narrow))
  case cxl =>
    intro h width rate s trains down fits
    obtain ⟨widthFits, rateFits⟩ := trainable_bounds fits
    have head : h < 4 := headOn_lt (s := s) (by simp_all [portTrains])
    have low : sedAddr (Reg.HP_LINK_STAT h) = false := sedAddr_low (by unfold Reg.HP_LINK_STAT; omega)
    have same : unrecorded (s.after (doLinkUp h width rate true)) = _ :=
      (unrecorded_after ..).trans (unrecorded_doLinkUp_cxl (s := s.begun) trains down fits)
    have credits := credits_initCredits (h := h)
      (s := setF (F.HP_LINK_STAT_UP h) 1 (linkTrains h width rate (linkSlow s h width rate) s.begun))
    rw [fld_linkTrains_creditsFull] at credits
    have linked : ∀ {α : Type} (π : Head → α), (∀ x : Head, π { x with logs := [] } = π x) → ∀ g,
        π (headOf (s.after (doLinkUp h width rate true)) g) = π (if g = h then (headOf s h).linked else headOf s g) :=
      fun π blind g => (sr_head same π blind g).trans (congrArg π (headOf_linkComesUp (s := s.begun) g))
    obtain ⟨-, media, ways, icu⟩ := linkComesUp_kept (h := h) (width := width) (rate := rate) (slow := linkSlow s h width rate) (s := s.begun)
    refine ⟨_, rfl, ?_, ?_, ?_, ?_, ?_, ?_, ?_, ?_, ?_, ?_, ?_, ?_, ?_, ?_⟩
    · exact (congrArg (· == 1) (sr_fld same _ low)).trans bit_linkComesUp_up
    · exact (sr_fld same _ low).trans ((fld_linkComesUp rfl rfl).trans (fld_linkRegs_width widthFits))
    · exact (sr_fld same _ low).trans ((fld_linkComesUp rfl rfl).trans (fld_linkRegs_speed rateFits))
    · exact (congrArg (· == 1) ((sr_fld same _ low).trans (fld_linkComesUp rfl rfl))).trans bit_linkRegs_refused
    · exact (congrArg (· == 1) ((sr_fld same _ low).trans (fld_linkComesUp rfl rfl))).trans bit_linkRegs_degraded
    · exact (linked Head.lowPower (fun _ => rfl) h).trans (by rw [if_pos rfl]; rfl)
    · exact (linked Head.ndrCredit (fun _ => rfl) h).trans (by rw [if_pos rfl]; rfl)
    · exact (linked Head.drsCredit (fun _ => rfl) h).trans (by rw [if_pos rfl]; rfl)
    · exact (congrArg (fun q => (tget Queue.init q (iqReq h)).credits) (sr_queues same)).trans credits.1
    · exact (congrArg (fun q => (tget Queue.init q (iqRwd h)).credits) (sr_queues same)).trans credits.2
    · exact fun g other => (linked Head.decoders (fun _ => rfl) g).trans (by rw [if_neg other])
    · exact (sr_media same).trans media
    · exact (sr_ways same).trans ways
    · exact (sr_icu same).trans icu
  case noCxl =>
    intro h width rate s trains down fits
    obtain ⟨widthFits, rateFits⟩ := trainable_bounds fits
    have head : h < 4 := headOn_lt (s := s) (by simp_all [portTrains])
    have low : sedAddr (Reg.HP_LINK_STAT h) = false := sedAddr_low (by unfold Reg.HP_LINK_STAT; omega)
    have same : unrecorded (s.after (doLinkUp h width rate false)) = _ :=
      (unrecorded_after ..).trans (unrecorded_doLinkUp_noCxl (s := s.begun) trains down fits)
    have shown : ∀ f : Fld, f.reg = Reg.HP_LINK_STAT h → fld (s.after (doLinkUp h width rate false)) f =
        fld (linkRegs h width rate (linkSlow s h width rate) s.begun) f :=
      fun f reg => (sr_fld same f (reg ▸ low)).trans (fld_linkTrains (s := s.begun) f)
    refine ⟨_, rfl, ?_, ?_, ?_, ?_, ?_⟩
    · exact (congrArg (· == 1) (shown _ rfl)).trans bit_linkRegs_up
    · exact (shown _ rfl).trans (fld_linkRegs_width widthFits)
    · exact (shown _ rfl).trans (fld_linkRegs_speed rateFits)
    · exact (congrArg (· == 1) (shown _ rfl)).trans bit_linkRegs_degraded
    · exact (sr_queues same).trans linkRegs_kept.2.1
  case ignored =>
    intro h width rate cxl s ignored
    exact congrArg _ (after_congr (doLinkUp_ignored (s := s.begun) ignored))
  case cxlReset =>
    intro h s on released u
    have resets : exec (.cxlReset h) s = _ := execCxlReset_running on released
    rw [resets]
    exact ⟨fun stillDown => by rw [if_neg (Bool.eq_false_iff.mp stillDown)], fun up => by rw [if_pos up]⟩
  case lowPower =>
    intro h level s on trained
    refine ⟨_, execLinkL1L2Entry_trained level on trained, ?_, ?_, fun g other => ?_, ?_⟩
    · exact (congrArg (fun l => tget Head.init l h) (setB_heads ..)).trans (modHead_headOf_same ..)
    · exact bit_setB (F.HP_LINK_STAT_L0P h) (level == 3) _ rfl rfl
    · exact (congrArg (fun l => tget Head.init l g) (setB_heads ..)).trans (modHead_headOf_ne _ _ _ _ other)
    · rw [setB, setF_eq]
      rfl
  case reset =>
    intro h s head t
    obtain ⟨u, heads, fields, mgmt⟩ := headReset_clears h s
    have cleared : headOf t h = _ := (congrFun heads h).trans headOf_clearDecoders
    have none := inflight_dropResult (h := h) (s := clearDecoders h u)
    rw [← mgmt] at none
    refine ⟨by rw [cleared], by rw [cleared], (fields _).trans fld_clearDecoders_committed, ?_, none⟩
    exact (fields _).symm ▸ fld_clearDecoders_state

end Sys2Proof.Machine
end

section
namespace Sys2Proof.Machine

/-! ### What recording an event adds to the outputs -/

section
variable (s : State)

@[simp] theorem gStart_out : (gStart s).out = s.out := by unfold gStart; (repeat' split) <;> rfl
@[simp] theorem gEnq_out (op : GOp) (prio : Bool) (mailbox : Option Nat) (cont : Cont) :
    (gEnq op prio mailbox cont s).out = s.out := by simp [gEnq]
@[simp] theorem count_out (ev at_ n : Nat) : (count ev at_ n s).out = s.out := by unfold count; split <;> rfl
@[simp] theorem sndPush_out (kind unit : Nat) (payload : List Byte) : (sndPush kind unit payload s).out = s.out := by
  unfold sndPush; split
  · dsimp only; split <;> simp
  · rfl
@[simp] theorem sedMerge_out (n : Nat) : (sedMerge n s).out = s.out := by simp [sedMerge]
@[simp] theorem sedDrop_out (sev : Nat) : (sedDrop sev s).out = s.out := by simp [sedDrop]
@[simp] theorem sedMirror_out (r : SedRec) : (sedMirror r s).1.out = s.out := by
  unfold sedMirror; dsimp only; (repeat' split) <;> simp

/-- A log gives at most an interrupt. -/
theorem logAdd_out (h k : Nat) (b : EvBody) : s.out <+: (logAdd h k b s).1.out := by
  unfold logAdd logInterrupt; dsimp only; (repeat' split) <;> simp
theorem logAll_out (k : Nat) (b : EvBody) : s.out <+: (logAll k b s).1.out := by
  refine List.foldlRecOn (headsOn s) _ (motive := fun (p : State × List SedReq) => s.out <+: p.1.out) List.prefix_rfl
    fun p kept h _ => ?_
  dsimp only
  split <;> exact kept.trans (logAdd_out ..)
theorem sedAlert_out (r : SedRec) : s.out <+: (sedAlert r s).out := by
  unfold sedAlert when; dsimp only; (repeat' split) <;> simp

theorem sedCore_out (q : SedReq) : s.out <+: (sedCore q s).1.out := by
  unfold sedCore
  dsimp only
  split
  · rw [sedMerge_out]
  split
  · exact List.prefix_rfl
  rw [sndPush_out]
  have logged : ∀ (p : Prop) [Decidable p] (k : Nat) (b : EvBody) (t : State),
      t.out <+: (if p then logAll k b t else (t, [])).1.out := fun p _ k b t => by
    split
    · exact logAll_out ..
    · exact List.prefix_rfl
  refine List.IsPrefix.trans ?_ ((logged ..).trans (sedAlert_out ..))
  (repeat' split) <;> simp
theorem sedRun_out (fuel : Nat) (l : List SedReq) : s.out <+: (sedRun fuel l s).out := by
  fun_induction sedRun fuel l s with
  | case1 => exact List.prefix_rfl
  | case2 => exact List.prefix_rfl
  | case3 s n q r t more core ih =>
    have first := sedCore_out s q
    rw [core] at first
    exact first.trans ih

/-- The outputs of a state stay, in their order, when an event is recorded. -/
theorem sed_out (code sev unit p0 p1 p2 : Nat) : s.out <+: (sed code sev unit p0 p1 p2 s).out := sedRun_out ..

end

end Sys2Proof.Machine
end

section
namespace Sys2Proof.Machine

/-! ### What the credits and the pacing of an ingress queue leave alone -/

/-- The heads' registers and error counts, the media, and the entries of the queues. -/
@[ext] structure Fabric where
  regs : Nat → BitVec 32
  aer : Nat → Nat
  media : Media
  entries : Nat → List QEntry

def State.fabric (s : State) : Fabric :=
  { regs := fun a => if a < 0x200000 then s.reg a else 0
    aer := fun h => (headOf s h).aer
    media := s.media
    entries := fun q => (queueOf s q).entries }

section
variable {s t : State}

theorem fabric_of_unrecorded (same : unrecorded t = unrecorded s) : t.fabric = s.fabric := by
  refine Fabric.ext ?_ ?_ (sr_media same) ?_
  · funext a
    exact ite_congr rfl (fun low => sr_reg same a (sedAddr_low low)) fun _ => rfl
  · funext h
    exact sr_head same Head.aer (fun _ => rfl) h
  · exact congrArg (fun (l : Tbl Queue) q => (tget Queue.init l q).entries) (sr_queues same)

/-- A field of a head's register. -/
theorem fld_of_fabric_regs (same : t.fabric.regs = s.fabric.regs) {f : Fld} (low : f.reg < 0x200000) :
    fld t f = fld s f := by
  have reg := congrFun same f.reg
  simp only [State.fabric, if_pos low] at reg
  rw [fld, fld, reg]

theorem fabric_setF {f : Fld} (high : 0x200000 ≤ f.reg) (v : Nat) (s : State) : (setF f v s).fabric = s.fabric := by
  refine Fabric.ext ?_ ?_ (setF_media ..) ?_
  · funext a
    exact ite_congr rfl (fun low => reg_setF_ne f v s (by omega)) fun _ => rfl
  · exact congrArg (fun (l : Tbl Head) h => (tget Head.init l h).aer) (setF_heads f v s)
  · exact congrArg (fun (l : Tbl Queue) q => (tget Queue.init l q).entries) (setF_queues f v s)

theorem fabric_modQueue_entries (q : Nat) (f : Queue → Queue) (s : State) :
    (modQueue q f s).fabric = { s.fabric with entries := Function.update s.fabric.entries q (f (queueOf s q)).entries } := by
  refine Fabric.ext rfl rfl rfl (funext fun k => ?_)
  change (queueOf (modQueue q f s) k).entries = Function.update s.fabric.entries q (f (queueOf s q)).entries k
  obtain rfl | other := eq_or_ne k q
  · rw [queueOf_modQueue_same, Function.update_self]
  · rw [queueOf_modQueue_ne _ _ other, Function.update_of_ne other]
    rfl

/-- A change of a queue's credits or of its test leaves its entries. -/
theorem fabric_modQueue {f : Queue → Queue} (kept : ∀ x, (f x).entries = x.entries) (q : Nat) (s : State) :
    (modQueue q f s).fabric = s.fabric :=
  (fabric_modQueue_entries ..).trans (Fabric.ext rfl rfl rfl
    ((congrArg (Function.update s.fabric.entries q) (kept _)).trans (Function.update_eq_self q s.fabric.entries)))

theorem fabric_if {c : Prop} [Decidable c] {a b : State} (yes : a.fabric = s.fabric) (no : b.fabric = s.fabric) :
    (if c then a else b).fabric = s.fabric := by
  split
  · exact yes
  · exact no

theorem fabric_forEach {α : Type} {f : α → State → State} (kept : ∀ a t, (f a t).fabric = t.fabric) (l : List α) (s : State) :
    (forEach l f s).fabric = s.fabric := by
  induction l generalizing s with
  | nil => rfl
  | cons a l ih => exact (ih (f a s)).trans (kept a s)

theorem fabric_sed (code sev unit p0 p1 p2 : Nat) (s : State) : (sed code sev unit p0 p1 p2 s).fabric = s.fabric :=
  fabric_of_unrecorded (sed_sr ..)

end

variable (s : State) (q : Nat)

theorem holdEval_fabric : (holdEval s).fabric = s.fabric := by
  refine fabric_if rfl (fabric_forEach (fun n t => ?_) _ _)
  have set : ∀ (v : Nat) (l : Narrows), ({ setF F.QF_HOLD_STAT_OUT v t with nrw := l } : State).fabric = t.fabric :=
    fun v l => (rfl : _ = (setF F.QF_HOLD_STAT_OUT v t).fabric).trans (fabric_setF (by decide) v t)
  refine fabric_if rfl (fabric_if ?_ (fabric_if ?_ rfl))
  · exact (fabric_sed ..).trans ((fabric_setF (by decide) _ _).trans (set ..))
  · exact set ..

theorem returnCredits_fabric (n : Nat) : (returnCredits q n s).fabric = s.fabric := by
  unfold returnCredits
  split
  · rfl
  · exact fabric_modQueue (f := fun x => { x with credits := x.credits + n, recent := true }) (fun _ => rfl) q s

theorem pacedLeave_fabric : (pacedLeave q s).fabric = s.fabric := by
  unfold pacedLeave
  dsimp only
  split
  · exact (fabric_sed ..).trans ((returnCredits_fabric ..).trans (fabric_modQueue (by exact fun _ => rfl) _ _))
  · rfl

/-- An entry that is freed gives its credit back, or has it withheld: no entry moves. -/
theorem freeIngress_fabric : (freeIngress q s).fabric = s.fabric := by
  unfold freeIngress
  split
  · rfl
  refine (pacedLeave_fabric ..).trans ?_
  split
  · exact fabric_modQueue (by exact fun _ => rfl) _ _
  · exact returnCredits_fabric ..

theorem drainCheck_fabric : (drainCheck q s).fabric = s.fabric := by
  fun_cases drainCheck
  · exact fabric_modQueue (by exact fun _ => rfl) _ _
  · rfl
  · rfl

/-- The entries that satisfy a test leave their queue; no other entry moves. -/
theorem removeEntries_fabric (p : QEntry → Bool) : (removeEntries q p s).fabric =
    { s.fabric with entries := Function.update s.fabric.entries q ((queueOf s q).entries.filter (fun e => !p e)) } :=
  (holdEval_fabric _).trans ((drainCheck_fabric _ q).trans (fabric_modQueue_entries ..))

theorem dropWrites_fabric (h : Nat) (p : QEntry → Bool) : (dropWrites h p s).fabric =
    { s.fabric with
      entries := Function.update s.fabric.entries (iqRwd h) ((queueOf s (iqRwd h)).entries.filter (fun e => !p e)) } :=
  (fabric_forEach (fun _ t => freeIngress_fabric t _) _ _).trans (removeEntries_fabric _ _ p)

end Sys2Proof.Machine
end

section
namespace Sys2Proof.Machine

/-! ### Decoders, GPF, IDE, SPDM, CDAT and response credits (R98 to R102, R120, R123 to R126, R144, R452) -/

section
variable {h n : Nat} {d : Decoder} {s : State} (on : headOn s h = true) (eight : n < 8)
include on eight

/-- A decoder that lies in its head's regions is committed (R98, R100). -/
theorem doDecoderCommit_committed (ok : decoderOk d = true) (top : d.base + d.size ≤ 2 ^ 52)
    (untagged : ¬ (tagged s h = true ∧ 2 ^ 40 < d.base + d.size))
    (inside : inRegions s h (decoderBase (tput n d (headOf s h).decoders) n)
      (decoderBase (tput n d (headOf s h).decoders) n + d.size / d.ways) = true) :
    doDecoderCommit h n d s = setF (F.HP_HDM_STAT_COMMITTED h) (fld s (F.HP_HDM_STAT_COMMITTED h) ||| 2 ^ n)
      (modHead h (fun x => { x with
        decoders := tput n d (headOf s h).decoders, notCommitted := x.notCommitted &&& (255 - 2 ^ n) }) s) :=
  (if_neg (by simp [on, eight])).trans (if_pos (by rw [ok, inside, decide_eq_true top]; simpa [Decidable.imp_iff_not_or] using untagged))

/-- A decoder that R98 does not support is refused, with Error Not Committed (R102). -/
theorem doDecoderCommit_refused (bad : decoderOk d = false) :
    doDecoderCommit h n d s = setF (F.HP_HDM_STAT_REFUSED h) (fld s (F.HP_HDM_STAT_REFUSED h) ||| 2 ^ n)
      (setF (F.HP_HDM_STAT_COMMITTED h) (fld s (F.HP_HDM_STAT_COMMITTED h) &&& (255 - 2 ^ n))
        (modHead h (fun x => { x with
          decoders := tdel n x.decoders, notCommitted := x.notCommitted ||| 2 ^ n }) s)) :=
  (if_neg (by simp [on, eight])).trans (if_neg (by simp [bad]))

end

/-- A field written leaves the heads as they were. -/
theorem headOf_setF (f : Fld) (v : Nat) (s : State) (g : Nat) : headOf (setF f v s) g = headOf s g :=
  congrArg (fun l => tget Head.init l g) (setF_heads f v s)

theorem headOf_emit (o : Out) (s : State) (g : Nat) : headOf (emit o s) g = headOf s g := rfl

/-- A mask of 8 bits with bit n taken out of it. -/
theorem clearBit_testBit {n : Nat} (m : Nat) (eight : n < 8) : ((m &&& (255 - 2 ^ n)) % 2 ^ 8).testBit n = false := by
  have less : 2 ^ n < 2 ^ 8 := Nat.pow_lt_pow_right (by decide) eight
  have cut : (255 - 2 ^ n).testBit n = false := by
    rw [show 255 - 2 ^ n = 2 ^ 8 - (2 ^ n + 1) by omega, Nat.testBit_two_pow_sub_succ less]
    simp
  rw [Nat.testBit_mod_two_pow, Nat.testBit_and, cut]
  simp

/-- A refused decoder is not committed. -/
theorem committed_of_refused {h n : Nat} (m v : Nat) (s : State) (eight : n < 8) :
    (fld (setF (F.HP_HDM_STAT_REFUSED h) v (setF (F.HP_HDM_STAT_COMMITTED h) (m &&& (255 - 2 ^ n)) s))
      (F.HP_HDM_STAT_COMMITTED h)).testBit n = false := by
  rw [fld_setF_apart _ _ rfl rfl, fld_setF_same _ _ _ rfl]
  exact clearBit_testBit m eight

/-- A mask of 8 bits with bit n set stays within them. -/
theorem setBit_fits {m n : Nat} (fits : m < 2 ^ 8) (eight : n < 8) : m ||| 2 ^ n < 2 ^ 8 :=
  Nat.or_lt_two_pow fits (Nat.pow_lt_pow_right (by decide) eight)

section
variable {h ses : Nat} {keys : List (BitVec 256)} {s : State} (on : headOn s h = true) (secured : spdmOpen s h ses = true)
  (some_ : keys ≠ [])
include on secured some_

/-- The first keys of a stream establish it (R123). -/
theorem doIdeKeys_establishes (noStream : fld s (F.HP_IDE_STAT_STATE h) ≠ 1) :
    doIdeKeys h ses 0 keys s = sed 0x0120 sINFO 0 h (fld s (F.HP_IDE_STAT_KEYSET h)) (cfgPort s h / 64 % 2)
      (setF (F.HP_IDE_STAT_STATE h) 1 (modHead h (fun x => { x with ideKeys := keys }) s)) :=
  (if_neg (by simp [on, secured, some_])).trans (if_neg noStream)

/-- An established stream takes the new keys in its other key set. -/
theorem doIdeKeys_refreshes (stream : fld s (F.HP_IDE_STAT_STATE h) = 1) :
    doIdeKeys h ses 0 keys s = sed 0x0122 sINFO 0 h (1 - fld s (F.HP_IDE_STAT_KEYSET h)) 0
      (satInc (F.HP_IDE_STAT_REFRESH h) (setF (F.HP_IDE_STAT_KEYSET h) (1 - fld s (F.HP_IDE_STAT_KEYSET h))
        (modHead h (fun x => { x with ideKeys := keys }) s))) :=
  (if_neg (by simp [on, secured, some_])).trans (if_pos stream)

end

/-! An IDE integrity failure. -/

/-- The requests of the aggregation interval that fails are discarded from both ingress queues of the head (R125). -/
def ideDiscard (h : Nat) (s : State) : State :=
  let reads := (queueOf s (iqReq h)).entries.filter (fun e => !e.ideOk)
  let s := { s with tracker := s.tracker.filter (fun x => !(x.head == h && x.kind == 0 && (reads.map (·.tag)).contains x.tag)) }
  dropWrites h (fun e => !e.ideOk)
    (forEach reads (fun _ s => freeIngress (iqReq h) s) (removeEntries (iqReq h) (fun e => !e.ideOk) s))

/-- The head is insecure, and the failure is counted and reported. -/
def ideInsecure (h : Nat) (s : State) : State :=
  emit (.headEvent h 1 0) (modHead h (fun x => { x with aer := x.aer + 1 }) (setF (F.HP_ERR_STAT_IDEFAIL h) 1
    (satInc (F.HP_IDE_STAT_FAILS h) (setF (F.HP_IDE_STAT_STATE h) 2 s))))

section
variable {h : Nat} {s : State}

theorem doIdeFail_established (flits : Nat) (on : headOn s h = true) (stream : fld s (F.HP_IDE_STAT_STATE h) = 1) :
    doIdeFail h flits s = sed 0x0121 sERROR 0 h flits 0 (ideInsecure h (ideDiscard h s)) :=
  if_neg (by simp [on, stream])

theorem ideDiscard_fabric : (ideDiscard h s).fabric = { s.fabric with
    entries := Function.update (Function.update s.fabric.entries (iqReq h) ((queueOf s (iqReq h)).entries.filter (·.ideOk)))
      (iqRwd h) ((queueOf s (iqRwd h)).entries.filter (·.ideOk)) } := by
  have other : iqRwd h ≠ iqReq h := by unfold iqRwd iqReq; omega
  have reads : ∀ (l : List QEntry) (t : State), (forEach l (fun _ u => freeIngress (iqReq h) u)
      (removeEntries (iqReq h) (fun e => !e.ideOk) t)).fabric = { t.fabric with
        entries := Function.update t.fabric.entries (iqReq h) ((queueOf t (iqReq h)).entries.filter (·.ideOk)) } := fun l t => by
    rw [fabric_forEach (fun _ u => freeIngress_fabric u _), removeEntries_fabric]
    simp only [Bool.not_not]
  have kept : ∀ (l : List QEntry) (t : State), (queueOf (forEach l (fun _ u => freeIngress (iqReq h) u)
      (removeEntries (iqReq h) (fun e => !e.ideOk) t)) (iqRwd h)).entries = (queueOf t (iqRwd h)).entries := fun l t =>
    (congrFun (congrArg Fabric.entries (reads l t)) (iqRwd h)).trans (Function.update_of_ne other ..)
  rw [ideDiscard, dropWrites_fabric, kept, reads]
  simp only [Bool.not_not]
  rfl

theorem entries_ideDiscard :
    (queueOf (ideDiscard h s) (iqReq h)).entries = (queueOf s (iqReq h)).entries.filter (·.ideOk) ∧
    (queueOf (ideDiscard h s) (iqRwd h)).entries = (queueOf s (iqRwd h)).entries.filter (·.ideOk) := by
  have other : iqReq h ≠ iqRwd h := by unfold iqRwd iqReq; omega
  have entries := congrArg Fabric.entries (ideDiscard_fabric (h := h) (s := s))
  refine ⟨(congrFun entries (iqReq h)).trans ?_, (congrFun entries (iqRwd h)).trans (Function.update_self ..)⟩
  exact (Function.update_of_ne other ..).trans (Function.update_self ..)

/-- The registers of the heads are as before the discard. -/
theorem fld_ideDiscard {f : Fld} (low : f.reg < 0x200000) : fld (ideDiscard h s) f = fld s f :=
  fld_of_fabric_regs (by rw [ideDiscard_fabric]) low

theorem ideErr_ne_ideStat : Reg.HP_ERR_STAT h ≠ Reg.HP_IDE_STAT h := by
  unfold Reg.HP_ERR_STAT Reg.HP_IDE_STAT
  omega

theorem fld_ideInsecure_state : fld (ideInsecure h s) (F.HP_IDE_STAT_STATE h) = 2 :=
  (fld_setF_elsewhere _ _ ideErr_ne_ideStat.symm).trans ((fld_setF_apart _ _ rfl rfl).trans
    (fld_setF_fits _ rfl (show 2 < 2 ^ 2 by decide)))

theorem fld_ideInsecure_fails :
    fld (ideInsecure h s) (F.HP_IDE_STAT_FAILS h) = min (fld s (F.HP_IDE_STAT_FAILS h) + 1) 255 :=
  (fld_setF_elsewhere _ _ ideErr_ne_ideStat.symm).trans ((fld_satAdd _ _ _ rfl).trans
    (congrArg (fun n => min (n + 1) 255) (fld_setF_apart _ _ rfl rfl)))

theorem bit_ideInsecure_ideFail : bit (ideInsecure h s) (F.HP_ERR_STAT_IDEFAIL h) = true := bit_setF_one _ _ rfl rfl

theorem aer_ideInsecure : (headOf (ideInsecure h s) h).aer = (headOf s h).aer + 1 := by
  rw [ideInsecure, headOf_emit, modHead_headOf_same, satInc, satAdd, headOf_setF, headOf_setF, headOf_setF]

theorem ideInsecure_kept : (ideInsecure h s).media = s.media ∧ (ideInsecure h s).queues = s.queues := by
  simp [ideInsecure]

end

/-- The first message of an SPDM connection, GET_VERSION, is answered whatever the connection's stage (R452). -/
theorem doSpdm_version {p : Nat} {m : List Byte} {s : State} (head : p < 4) (on : headOn s p = true)
    (released : (headOf s p).released = true) (cores : fld s F.MGMT_STAT_CORES ≠ 0) (whole : ¬ m.length < 4)
    (version : byteAt m 1 = 0x84) :
    doSpdm p m s = emit (.doe p [0x10, 0x04, 0, 0, 0, 1, 0x00, 0x13]) (putSpdm p { spdmOf s p with stage := 1 } s) := by
  have path : isHead p = true := decide_eq_true head
  exact (if_neg (by simp [path, on, released, cores])).trans ((if_neg whole).trans ((if_pos version).trans (if_pos path)))

/-- Settles O21: each command by the condition it meets; what a field, a head or a queue then holds is read off the writes. -/
theorem hostPortCommands : Obligations.HostPortCommands := by
  refine ⟨?commit, ?refused, ?gpf, ?establish, ?refresh, ?ideFail, ?spdm, ?cdat, ?credits⟩
  case commit =>
    intro h n base size skip ways gran s on eight ok top untagged l inside
    have fits := setBit_fits (fld_lt s (F.HP_HDM_STAT_COMMITTED h) rfl) eight
    refine ⟨_, run_effect (doDecoderCommit_committed (s := s.begun) on eight ok top untagged inside), ?_, ?_, ?_,
      fun g other => ?_, ?_⟩
    · exact congrArg Head.decoders ((headOf_setF ..).trans (modHead_headOf_same ..))
    · exact congrArg Head.notCommitted ((headOf_setF ..).trans (modHead_headOf_same ..))
    · exact fld_setF_fits _ rfl fits
    · exact (headOf_setF ..).trans (modHead_headOf_ne _ _ _ _ other)
    · rw [setF_eq]
      rfl
  case refused =>
    intro h n base size skip ways gran s on eight bad
    have fits := setBit_fits (fld_lt s (F.HP_HDM_STAT_REFUSED h) rfl) eight
    refine ⟨_, run_effect (doDecoderCommit_refused (s := s.begun) on eight bad), ?_, ?_, ?_, ?_, ?_⟩
    · exact congrArg Head.decoders ((headOf_setF ..).trans ((headOf_setF ..).trans (modHead_headOf_same ..)))
    · exact congrArg Head.notCommitted ((headOf_setF ..).trans ((headOf_setF ..).trans (modHead_headOf_same ..)))
    · exact committed_of_refused _ _ _ eight
    · exact (congrArg (Nat.testBit · n) (fld_setF_fits (f := F.HP_HDM_STAT_REFUSED h) _ rfl fits)).trans (by simp)
    · rw [setF_eq_of_regs (setF_eq ..)]
      rfl
  case gpf => exact fun h phase s on up => run_effect (if_pos ((Bool.and_eq_true ..).mpr ⟨on, up⟩))
  case establish =>
    intro h ses keys s on secured some_ noStream
    have low : sedAddr (Reg.HP_IDE_STAT h) = false :=
      sedAddr_low (by have := headOn_lt on; unfold Reg.HP_IDE_STAT; omega)
    refine ⟨_, run_effect (doIdeKeys_establishes (s := s.begun) on secured some_ noStream), ?_, ?_, ?_, ?_⟩
    · exact (sr_head (sed_sr ..) Head.ideKeys (fun _ => rfl) h).trans
        (congrArg Head.ideKeys ((headOf_setF ..).trans (modHead_headOf_same ..)))
    · exact (sr_fld (sed_sr ..) _ low).trans (fld_setF_fits _ rfl (show 1 < 2 ^ 2 by decide))
    · exact (sr_fld (sed_sr ..) _ low).trans (fld_setF_apart _ _ rfl rfl)
    · exact (sed_queues ..).trans (setF_queues ..)
  case refresh =>
    intro h ses keys s on secured some_ stream
    have low : sedAddr (Reg.HP_IDE_STAT h) = false :=
      sedAddr_low (by have := headOn_lt on; unfold Reg.HP_IDE_STAT; omega)
    have fits : 1 - fld s (F.HP_IDE_STAT_KEYSET h) < 2 ^ 1 := by omega
    refine ⟨_, run_effect (doIdeKeys_refreshes (s := s.begun) on secured some_ stream), ?_, ?_, ?_, ?_, ?_⟩
    · exact (sr_head (sed_sr ..) Head.ideKeys (fun _ => rfl) h).trans
        (congrArg Head.ideKeys ((headOf_setF ..).trans ((headOf_setF ..).trans (modHead_headOf_same ..))))
    · exact (sr_fld (sed_sr ..) _ low).trans
        ((fld_setF_apart _ _ rfl rfl).trans ((fld_setF_apart _ _ rfl rfl).trans stream))
    · exact (sr_fld (sed_sr ..) _ low).trans ((fld_setF_apart _ _ rfl rfl).trans (fld_setF_fits _ rfl fits))
    · exact (sr_fld (sed_sr ..) _ low).trans ((fld_satAdd _ _ _ rfl).trans
        (congrArg (fun n => min (n + 1) 255) (fld_setF_apart _ _ rfl rfl)))
    · exact (sed_queues ..).trans ((satInc_queues ..).trans (setF_queues ..))
  case ideFail =>
    intro h flits s on stream
    have head := headOn_lt on
    have low : Reg.HP_IDE_STAT h < 0x200000 := by unfold Reg.HP_IDE_STAT; omega
    have lowErr : Reg.HP_ERR_STAT h < 0x200000 := by unfold Reg.HP_ERR_STAT; omega
    have same : unrecorded (s.after (doIdeFail h flits)) = unrecorded (ideInsecure h (ideDiscard h s.begun)) :=
      (unrecorded_after ..).trans ((congrArg _ (doIdeFail_established (s := s.begun) flits on stream)).trans (sed_sr ..))
    have discarded := ideDiscard_fabric (h := h) (s := s.begun)
    obtain ⟨media, queues⟩ := ideInsecure_kept (h := h) (s := ideDiscard h s.begun)
    obtain ⟨reads, writes⟩ := entries_ideDiscard (h := h) (s := s.begun)
    have entries : ∀ q, (queueOf (s.after (doIdeFail h flits)) q).entries = (queueOf (ideDiscard h s.begun) q).entries :=
      fun q => congrArg (fun l => (tget Queue.init l q).entries) ((sr_queues same).trans queues)
    refine ⟨_, rfl, ?_, ?_, ?_, ?_, ?_, ?_, (entries _).trans reads, (entries _).trans writes⟩
    · exact (sr_fld same _ (sedAddr_low low)).trans fld_ideInsecure_state
    · have event : Out.headEvent h 1 0 ∈ (ideInsecure h (ideDiscard h s.begun)).out := List.mem_append_right _ (List.mem_singleton_self _)
      change _ ∈ (doIdeFail h flits s.begun).out
      rw [doIdeFail_established (s := s.begun) flits on stream]
      exact (sed_out ..).subset event
    · exact (sr_fld same _ (sedAddr_low low)).trans (fld_ideInsecure_fails.trans
        (congrArg (fun n => min (n + 1) 255) (fld_ideDiscard (s := s.begun) low)))
    · exact (congrArg (· == 1) (sr_fld same _ (sedAddr_low lowErr))).trans bit_ideInsecure_ideFail
    · exact (sr_head same Head.aer (fun _ => rfl) h).trans (aer_ideInsecure.trans
        (congrArg (· + 1) (congrFun (congrArg Fabric.aer discarded) h)))
    · exact (sr_media same).trans (media.trans (congrArg Fabric.media discarded))
  case spdm =>
    intro p a b s head on released cores
    have version : byteAt [0x10, 0x84, BitVec.ofNat 8 a, BitVec.ofNat 8 b] 1 = 0x84 := by simp [byteAt_eq]
    exact run_effect (doSpdm_version (s := s.begun) head on released cores (by simp) version)
  case cdat => exact fun h entry s on => ⟨run_next (if_pos on) rfl, run_next (if_pos on) rfl⟩
  case credits => exact fun h ndr drs s on => run_effect (if_pos on)

end Sys2Proof.Machine
end
